-- ==== Sys2Proof/Word.lean ====
section
/-! DEFINITION. Words of the DMN-GW5: the widths the manual names (R9, R10) and their plainest arithmetic. -/

namespace Sys2Proof

/-- One byte of memory. -/
abbrev Byte := BitVec 8
/-- A 32-bit instruction word or lane value. -/
abbrev W32 := BitVec 32
/-- A 64-bit scalar value, address or lane mask. -/
abbrev W64 := BitVec 64

/-- The number `x` as bits `hi` down to `lo` hold it (R10). -/
def field (x lo width : Nat) : Nat := (x >>> lo) % 2 ^ width

/-- Bit `n` of the number `x`. -/
def bitOf (x n : Nat) : Bool := x.testBit n

/-- The number 0 or 1 of a bit. -/
def b2n (b : Bool) : Nat := if b then 1 else 0

/-- The two's-complement reading of the low `w` bits of `x`. -/
def signedOf (w x : Nat) : Int :=
  let y := x % 2 ^ w
  if y.testBit (w - 1) then (y : Int) - (2 ^ w : Nat) else (y : Int)

/-- An integer wrapped to `w` bits. -/
def wrapInt (w : Nat) (x : Int) : Nat := (x % ((2 ^ w : Nat) : Int)).toNat

/-- The lane numbers 0 to 63 in ascending order (R202). -/
def laneIdx : List Nat := List.range 64

/-- All 64 lanes (the exec mask `em` of a placed weft, R129). -/
def allLanes : W64 := BitVec.allOnes 64

/-- Little-endian bytes of a number (R10). -/
def leBytes : Nat → Nat → List Byte
  | 0, _ => []
  | k + 1, x => BitVec.ofNat 8 x :: leBytes k (x / 256)

/-- The number that little-endian bytes hold (R10). -/
def ofLeBytes : List Byte → Nat
  | [] => 0
  | b :: bs => b.toNat + 256 * ofLeBytes bs

/-- Replace entry `n` of a list; a number past the end changes nothing. -/
def setAt {α : Type} : List α → Nat → α → List α
  | [], _, _ => []
  | _ :: xs, 0, y => y :: xs
  | x :: xs, n + 1, y => x :: setAt xs n y

/-- Change entry `n` of a list. -/
def modAt {α : Type} : List α → Nat → (α → α) → List α
  | [], _, _ => []
  | x :: xs, 0, f => f x :: xs
  | x :: xs, n + 1, f => x :: modAt xs n f

end Sys2Proof
end

