-- ==== Sys2Proof/Syntax.lean ====
section
/-! DEFINITION. The instructions and steps of the DMN-GW5 as data: one constructor of `Instr` per row of the
opcode table. An encoded row carries the group's prefixes (R299, R304, R307) and its operand fields (R303, R309); a row
with no encoding is a step of the device (spec/95_what_each_step_holds.md), and its arguments are what the outside
world or the choice of the next step supplies. -/

namespace Sys2Proof

/-- An operand code (R309). -/
inductive Opnd where
  /-- v0-v63, through the window. -/
  | v (n : Fin 64)
  /-- s0-s31. -/
  | s (n : Fin 32)
  /-- x0-x7. -/
  | x (n : Fin 8)
  /-- q0-q7. -/
  | q (n : Fin 8)
  /-- The constant zero; a write to it is discarded (R310). -/
  | zero
  /-- The lane index A(0, 1). -/
  | lane
  /-- The exec mask as a source. -/
  | em
  /-- The done mask as a source. -/
  | dm
  /-- Codes 0x74-0x7F: reserved. -/
  | rsv (n : Fin 12)
  deriving DecidableEq, Repr

/-- The XG prefix (R303, R304). Its reserved bits are 0 in every instruction. -/
structure Xg where
  /-- Guard enable. -/
  ge : Bool
  /-- Guard negate. -/
  gn : Bool
  /-- Guard register number. -/
  gs : BitVec 5
  /-- Ordering: 0 none, 1 acq, 2 rel, 3 acqrel. -/
  ord : BitVec 2
  /-- Rounding override. -/
  rnd : BitVec 3
  /-- Saturate. -/
  sat : Bool
  /-- Trap on empty, operand A. -/
  ea : Bool
  /-- Trap on empty, operand B. -/
  eb : Bool
  /-- Trap on empty, D read as a source. -/
  ed : Bool
  /-- Scope. -/
  scope : BitVec 3
  /-- Bulk tier hint. -/
  nt : Bool
  deriving DecidableEq, Repr

/-- The prefixes of a group: an optional XG, then an optional XL payload (R299). -/
structure Pfx where
  /-- The XG prefix, when the group has one. -/
  xg : Option Xg
  /-- The 26-bit payload of the XL prefix, when the group has one. -/
  xl : Option (BitVec 26)
  deriving DecidableEq, Repr

/-- A group with no prefix. -/
def Pfx.plain : Pfx := { xg := none, xl := none }

/-- Where a register access comes from (R108, R122). -/
inductive Port where
  /-- A BAR0 write of the host. -/
  | host
  /-- An I3C private write of the board controller. -/
  | i3c
  deriving DecidableEq, Repr

/-- What the management controller reads in one control interval (R88): sensor readings, rail currents and the powers
it predicts for each throttle step, which the manual computes from counters by a rule it does not give. -/
structure Telemetry where
  /-- Highest junction temperature of each of the 52 clusters, in degrees C. -/
  temps : List Nat
  /-- VMAT current, amperes. -/
  imat : Nat
  /-- VVEC current, amperes. -/
  ivec : Nat
  /-- Predicted package power with the settings of throttle steps 0-9, watts. -/
  predicted : List Nat
  /-- Power predicted at the boost point M0, watts. -/
  boostPower : Nat
  deriving DecidableEq, Repr

/-- The kinds of fabric access a packet asks for (R72). -/
inductive FabOp where
  /-- Read of the line's granules. -/
  | read
  /-- The read of an instruction line. -/
  | fetch
  /-- Masked write of the line. -/
  | write
  /-- Atomic: the minor of R412 on each lane operation, and whether the old values are wanted. -/
  | atomic (minor : BitVec 5) (ret : Bool)
  /-- Store of a 64-bit signal word (`sig.set`, R418). -/
  | sigSet
  /-- A line of a parity delta of step `n`; the line address counts the member's parity units from 0 (R190). -/
  | delta (n : Nat)
  /-- A line of a rebuilt unit at a version, XORed so far; the line address counts the lost member's units from 0: its shard,
  then its parity (R194). -/
  | rebuild (version : Nat)
  /-- A heartbeat (R192). -/
  | heartbeat
  deriving DecidableEq, Repr

/-- A request packet from a peer (R72). -/
structure FabReq where
  /-- Source peer id. -/
  src : Nat
  /-- The source's request number, which the duplicate filter compares (R76). -/
  seq : Nat
  /-- The source's switch port (R67). -/
  sport : BitVec 9
  /-- The source context's FJOB. -/
  fjob : BitVec 16
  /-- F[53:0] of the line's first byte (R39). -/
  addr : BitVec 54
  /-- The granules of the line that it touches. -/
  gm : BitVec 8
  /-- Its tier, and the plane that it came on (R72, R76). -/
  tier : Nat
  plane : Nat
  /-- What is asked. -/
  op : FabOp
  /-- Bytes of a write: (offset in the line, value). -/
  bytes : List (Nat × Byte)
  /-- Lane operations of an atomic: (offset in the line, operand, swap). -/
  ops : List (Nat × BitVec 64 × BitVec 64)
  deriving DecidableEq, Repr

/-- Outcome of a fabric access as its source sees it (R83, R84). -/
inductive FabResult where
  /-- Performed; the bytes answered, from the line's first byte. -/
  | ok (bytes : List Byte)
  /-- V = 0 at a level of the peer's walk. -/
  | notPres (level : Nat)
  /-- The peer's snapshot pool is empty. -/
  | poolEmpty
  /-- PAGE at the peer. -/
  | page
  /-- PROT at the peer. -/
  | prot
  /-- The peer's context is fenced. -/
  | fenced
  /-- No context at the target has the FJOB. -/
  | noBind
  /-- The line is poisoned at the peer (R63). -/
  | softErr
  /-- No plane carries the request any more (R74, R76, R83). -/
  | peerDown
  /-- No answer came in time (R83). -/
  | timeout
  deriving DecidableEq, Repr

/-- A core as the debug port names it (R5, R291). -/
inductive DebugCore where
  /-- Logical core number. -/
  | logical (n : Nat)
  /-- Physical place: die, cluster and core in it. -/
  | physical (die clus k : Nat)
  deriving DecidableEq, Repr

/-- The target of a debug action (R291). -/
inductive DebugTarget where
  /-- One weft, by core and slot. -/
  | weft (core : DebugCore) (slot : Nat)
  /-- A team, by its number in `State.teams`. -/
  | team (id : Nat)
  /-- A core. -/
  | core (core : DebugCore)
  /-- The attached context. -/
  | context
  deriving DecidableEq, Repr

/-- A place in a halted weft that the debugger reads or writes (R291, R237). -/
inductive DebugPlace where
  /-- Physical vector register, lane. -/
  | pv (n lane : Nat)
  /-- Tag code of a physical vector register (0 U, 1 A, 2 G). -/
  | tag (n : Nat)
  /-- Full/empty bit of a physical vector register. -/
  | vfull (n : Nat)
  /-- Scalar register. -/
  | s (n : Nat)
  /-- Full/empty bit of a scalar register. -/
  | sfull (n : Nat)
  /-- Descriptor word of an index register. -/
  | xdesc (n : Nat)
  /-- Offset of one lane of an index register. -/
  | xoff (n lane : Nat)
  /-- The lane of the register that an index register names for it, pv[BASE + OFF]. -/
  | xpv (n lane : Nat)
  /-- TM. -/
  | tm
  /-- TEM. -/
  | tem
  /-- TDM. -/
  | tdm
  /-- Special register by number (R232). -/
  | sr (n : Nat)
  /-- The program counter. -/
  | pc
  /-- `em`. -/
  | em
  /-- `dm`. -/
  | dm
  /-- Entry `i` of team queue `q`, and how many it holds. -/
  | queue (q i : Nat)
  | qcount (q : Nat)
  deriving DecidableEq, Repr

/-- Where an uncorrectable soft error falls (R286). -/
inductive SoftPlace where
  /-- Scalar register file. -/
  | sreg (core slot n : Nat)
  /-- Vector register file (physical register). -/
  | vreg (core slot n : Nat)
  /-- Weft control state. -/
  | control (core slot : Nat)
  /-- A queue of a team. -/
  | queue (team : Nat)
  /-- In-flight state of one weft. -/
  | inflight (core slot : Nat)
  /-- In-flight state of an engine command. -/
  | engine (id : Nat)
  /-- Eight bytes of scratchpad, by physical key (see Machine/Mem). -/
  | spad (key : Nat)
  /-- Instruction cache of a core. -/
  | icache (core : Nat)
  /-- Translation unit, walk cache or fault buffer of a channel. -/
  | translation (chan : Nat)
  /-- A control-plane structure owned by a context. -/
  | ctrl (ctx : Nat)
  /-- Owner tags of a core, cluster or die: the contexts that own an entry. -/
  | tags (ctxs : List Nat)
  /-- A memory line, by physical key of its first byte. -/
  | line (key : Nat)
  /-- Entry `i` from the head of the input queue of stage `k` of a pipeline, by its number in `State.pipes`. -/
  | stageQueue (pipe k i : Nat)
  /-- An error that the protection of an array corrects, with its physical place (R5). -/
  | corrected (place : List Nat)
  deriving DecidableEq, Repr

/-- One constructor per row of the opcode table. -/
inductive Instr where
  /-- The rails reach range in the order of R22 and boot enters ROM (R33). -/
  | bootStart
  /-- The boot ROM runs and reads the PUF SRAM (R33). -/
  | bootRom
  /-- The birth record copies are read and verified (R27). -/
  | brchk
  /-- The device secret and identity keys are derived (R30). -/
  | ident
  /-- The firmware slot is chosen and verified (R32). -/
  | fwload
  /-- The die links are trained and the clusters self-tested (R33). -/
  | dies
  /-- HBM is trained, SCM mounted, hampers recovered (R33). -/
  | meminit
  /-- Boot reaches READY (R33). -/
  | ready
  /-- The PCIe link trains at a width and rate code, with or without CXL (R34, R107). -/
  | pcieLinkTraining (width rate : Nat) (cxl : Bool)
  /-- A configuration request; `some a` assigns BAR0 (R34). -/
  | configRequest (bar0 : Option (BitVec 64))
  /-- PERST_N asserts (R34). -/
  | perst
  /-- PERST_N is released (R34). -/
  | perstRelease
  /-- A filtered PFAIL_N assertion (R103). -/
  | pfail
  /-- A rail leaves its range (R22); `rail` numbers the rows of R21. -/
  | railFault (rail : Nat)
  /-- Hamper acceptance closes (R103). -/
  | hamperAcceptanceClose
  /-- The hampers are drained (R103). -/
  | hamperDrained
  /-- The seal record is written (R103). -/
  | sealRecordWrite
  /-- Level 2 saves one step of its order (R104). -/
  | level2Save
  /-- VAUX falls below 0.70 V or VSCM leaves its range (R105). -/
  | vauxLoss
  /-- A PSTEP value is accepted (R23). -/
  | pstepAccept (v : BitVec 3)
  /-- One control interval (R88). -/
  | controlInterval (m : Telemetry)
  /-- The thermal trip limit is released (R95). -/
  | thermalTripRelease (m : Telemetry)
  /-- The controller leaves the current throttle step (R101). -/
  | stepLeave
  /-- A glide completes: rail 0 VMAT, 1 VVEC, 2 VFAB (R87). -/
  | opGlideComplete (rail : Nat)
  /-- A droop detector fires in a cluster (R93). -/
  | droopDetect (cluster : Nat)
  /-- A write to PKGCAP, PCAPn or ICAP completes: I3C offset and value (R99). -/
  | capWrite (off : Nat) (v : BitVec 64)
  /-- A register write with no row of its own (R108, R122): `size` bytes from offset `off`, least significant byte of `v` first. -/
  | registerWrite (port : Port) (off size v : Nat)
  /-- A write to FABSELF.PKGID (R70). -/
  | pkgidWrite (v : BitVec 9)
  /-- A write to QWI[c][q] (R113). -/
  | doorbell (c q : Nat) (w : BitVec 32)
  /-- The next record of a queue is fetched (R114). -/
  | recordFetch (c q : Nat)
  /-- A W1C write to QST.ERR (R113). -/
  | errClear (c q : Nat) (v : BitVec 8)
  /-- CTXCMD[0] = 1 (R110). -/
  | context0Create
  /-- A write to FQRIDX[c] (R120). -/
  | fqReadIndex (c : Nat) (v : BitVec 32)
  /-- MBCTL.GO (R109). -/
  | quoteGo
  /-- IMBCTL.GO (R124). -/
  | imbQuoteGo
  /-- The running quote ends (R109). -/
  | quoteDone
  /-- A W1C write to ALERTST (R125). -/
  | alertClear (v : BitVec 64)
  /-- The I3C address-assignment command (R26). -/
  | i3cDynamicAddressAssignment (a : BitVec 7)
  /-- The I3C event-enable command (R125). -/
  | i3cEventEnable (on : Bool)
  /-- The I3C reset command (R26). -/
  | i3cReset
  /-- The head command of a queue is LAUNCH (R116). -/
  | launch (c q : Nat)
  /-- The head command is COPY (R116). -/
  | copy (c q : Nat)
  /-- The head command is SIGNAL (R116). -/
  | signal (c q : Nat)
  /-- The head command is WAITV (R116). -/
  | waitv (c q : Nat)
  /-- A waiting WAITV re-tests its word (R117). -/
  | waitvRetest (c q : Nat)
  /-- The head command is MAP (R51). -/
  | map (c q : Nat)
  /-- The head command is UNMAP (R51). -/
  | unmap (c q : Nat)
  /-- The head command is CTX create (R111). -/
  | ctxCreate (c q : Nat)
  /-- The head command is CTX destroy (R119). -/
  | ctxDestroy (c q : Nat)
  /-- The head command is CTX preempt (R146). -/
  | ctxPreempt (c q : Nat)
  /-- The head command is CTX resume (R146). -/
  | ctxResume (c q : Nat)
  /-- The head command is PHASE (R141). -/
  | phase (c q : Nat)
  /-- The head command is STEP load (R151). -/
  | stepLoad (c q : Nat)
  /-- The head command is STEP start (R150). -/
  | stepStart (c q : Nat)
  /-- The head command is STEP stop (R150). -/
  | stepStop (c q : Nat)
  /-- The head command is SNAP SUB 0 (R174). -/
  | snapDefineRegion (c q : Nat)
  /-- The head command is SNAP SUB 1 (R176). -/
  | snapReleaseRegion (c q : Nat)
  /-- The head command is SNAP SUB 2 (R191). -/
  | snapAwaitStep (c q : Nat)
  /-- The head command is MEND SUB 0 (R186). -/
  | mendDeclareGroup (c q : Nat)
  /-- The head command is MEND SUB 1 that names failed peer `f` (R194), or, with `placed`, the sequence in progress for `f` is
  at its step 5: the spare holds every unit. -/
  | mendRebuild (c q f : Nat) (placed : Bool)
  /-- The head command is MEND SUB 1 with no failed peer (R195). -/
  | mendGroupRollback (c q : Nat)
  /-- The head command is RESUME (R55). -/
  | resume (c q : Nat)
  /-- A deferred PAGE or PROT event is taken (R491). -/
  | deferredFaultEvent (core slot : Nat)
  /-- Channel `ch` answers access `id`: with the outcome of its lanes, or, when `perform` is set, with their completion
  too (R52). -/
  | accessAnswer (id ch : Nat) (perform : Bool)
  /-- Entry `i` of a core's combining buffer is sent, idle for 1,024 cycles (R78). -/
  | combineIdleFlush (core i : Nat)
  /-- A request packet arrives from a peer (R39). -/
  | fabricRequest (r : FabReq)
  /-- The answer of packet `pid` arrives (R76). -/
  | fabricResponse (pid : Nat) (r : FabResult)
  /-- Packet `pid` has had no answer for 200 us (R83). -/
  | fabricTimeout (pid : Nat)
  /-- A weft takes its FABRIC event (R84). -/
  | fabricEvent (core slot : Nat)
  /-- A port has received nothing for 10 us (R76). -/
  | planeSilenceTimeout (plane : Nat)
  /-- The switch reports a port failed (R76). -/
  | switchPortFailed (plane : Nat)
  /-- The switch reports which planes reach a peer (R76). -/
  | switchReachabilityReport (peer : Nat) (planes : BitVec 36)
  /-- A plane trains and gives the switch port (R69). -/
  | fabricLinkTrained (plane : Nat) (sport : BitVec 9)
  /-- A starvation counter of a port forces tier 1 or 2 (R81). -/
  | starvationForce (port tier : Nat)
  /-- A hamper writes an entry back (R172). -/
  | hamperWriteback (stack : Nat)
  /-- The scrubber of an SCM channel does its next line (R62). -/
  | patrolScrub (chan : Nat)
  /-- A per-bank refresh is due (R64); `busy` says whether the bank is busy. -/
  | hbmRefresh (chan bank : Nat) (busy : Bool)
  /-- An activation-count alert back-off arrives (R64). -/
  | alertBackoff (chan bank : Nat)
  /-- A die's dispatcher places the next team (R133). -/
  | teamPlace (die : Nat)
  /-- A stage pipeline starts (R138). -/
  | pipelineStart (ctx : Nat) (pipe : BitVec 64)
  /-- A team retires (R136). -/
  | teamRetire (id : Nat)
  /-- A launch has waited 1 ms (R145). -/
  | timeSliceExpiry (ctx serial : Nat)
  /-- A context pre-empted for time slice is resumed (R145). -/
  | preemptAutoResume (c : Nat)
  /-- The save record of a context is written (R146). -/
  | contextSave (c : Nat)
  /-- A pre-emption deadline expires at a weft (R289). -/
  | pdlExpiry (core slot : Nat)
  /-- The last weft of a context being torn down has exited (R148). -/
  | teardownComplete (c : Nat)
  /-- An uncorrectable soft error (R286). -/
  | softError (place : SoftPlace)
  /-- A weft's sleep runs out (R329). -/
  | sleepExpiry (core slot : Nat)
  /-- A waiting `swait` reads its word again (R419). -/
  | swaitPoll (core slot : Nat)
  /-- An accepted shuttle command starts (R444). -/
  | shuttleStart (id : Nat)
  /-- Collective `n` of a team starts (R445). -/
  | shcopyCollectiveStart (team n : Nat)
  /-- A sector of an engine command is performed or fails (R438). -/
  | sectorPerformed (id sector : Nat)
  /-- A shuttle command ends (R444). -/
  | shuttleComplete (id : Nat)
  /-- The matrix sequencer runs the next K-step of a team's command (R452). -/
  | matrixKstep (team : Nat)
  /-- A team's matrix command ends (R452). -/
  | matrixComplete (team : Nat)
  /-- An `nmv` command ends (R455). -/
  | nmvComplete (id : Nat)
  /-- The sequencer dispatches an entry (R160). -/
  | itineraryDispatch
  /-- A SYNC entry takes its next step (R163). -/
  | sync
  /-- A drained STEPEND sends n + 1 (R164). -/
  | stepend
  /-- A die acknowledges STEPEND (R181). -/
  | stependAck (die : Nat)
  /-- The sequencer re-reads the control block (R155). -/
  | controlBlockReread
  /-- Nothing has changed for STALLT us (R168). -/
  | stallReport
  /-- Step n commits (R182). -/
  | stepCommit
  /-- The darners encode the last committed step (R190). -/
  | encodeStep
  /-- DONE(n) arrives from a member, under the job of its packet (R71, R190). -/
  | doneMessage (peer n : Nat) (job : BitVec 16)
  /-- Heartbeats are sent (R192). -/
  | heartbeatSend
  /-- A member is declared lost (R193). -/
  | memberLoss (peer : Nat)
  /-- The spare finishes its backfill (R194). -/
  | backfillComplete
  /-- The debugger attaches to a context (R291). -/
  | attach (c : Nat)
  /-- The debugger detaches (R291). -/
  | detach
  /-- HALT (R292). -/
  | debugHalt (t : DebugTarget)
  /-- RUN (R291). -/
  | run (t : DebugTarget)
  /-- STEP (R291). -/
  | debugStep (core : DebugCore) (slot : Nat)
  /-- RELEASE (R294). -/
  | release (t : DebugTarget)
  /-- READ (R291). -/
  | debugRead (core : DebugCore) (slot : Nat) (w : DebugPlace)
  /-- WRITE (R292). -/
  | debugWrite (core : DebugCore) (slot : Nat) (w : DebugPlace) (v : BitVec 64)
  /-- The end of a cycle at a cluster's ration counter (R89). -/
  | rationCycleEnd (cluster : Nat)
  /-- An I3C private read of `n` bytes (R122). -/
  | i3cPrivateRead (n : Nat)
  /-- `nop` (R329). -/
  | nop (p : Pfx)
  /-- `brk` (R330). -/
  | brk (p : Pfx) (b : BitVec 7)
  /-- `exit` (R331). -/
  | exit (p : Pfx)
  /-- `tret` (R276). -/
  | tret (p : Pfx)
  /-- `yield` (R329). -/
  | yield (p : Pfx)
  /-- `trig` (R131). -/
  | trig (p : Pfx)
  /-- `rgn` (R283). -/
  | rgn (p : Pfx)
  /-- `ifence` (R272). -/
  | ifence (p : Pfx)
  /-- `win` (R333). -/
  | win (p : Pfx) (b : BitVec 7)
  /-- `sleep` (R329). -/
  | sleep (p : Pfx) (a : Opnd)
  /-- `getsr` (R334). -/
  | getsr (p : Pfx) (d : Opnd) (b : BitVec 7)
  /-- `setsr` (R335). -/
  | setsr (p : Pfx) (a : Opnd) (b : BitVec 7)
  /-- `trap` (R336). -/
  | trap (p : Pfx) (i : BitVec 12)
  /-- `sadd` (R337). -/
  | sadd (p : Pfx) (d : Opnd) (a : Opnd) (b : Opnd)
  /-- `ssub` (R337). -/
  | ssub (p : Pfx) (d : Opnd) (a : Opnd) (b : Opnd)
  /-- `smul` (R337). -/
  | smul (p : Pfx) (d : Opnd) (a : Opnd) (b : Opnd)
  /-- `smulhi` (R337). -/
  | smulhi (p : Pfx) (d : Opnd) (a : Opnd) (b : Opnd)
  /-- `smulhn` (R337). -/
  | smulhn (p : Pfx) (d : Opnd) (a : Opnd) (b : Opnd)
  /-- `sand` (R337). -/
  | sand (p : Pfx) (d : Opnd) (a : Opnd) (b : Opnd)
  /-- `sor` (R337). -/
  | sor (p : Pfx) (d : Opnd) (a : Opnd) (b : Opnd)
  /-- `sxor` (R337). -/
  | sxor (p : Pfx) (d : Opnd) (a : Opnd) (b : Opnd)
  /-- `sandn` (R337). -/
  | sandn (p : Pfx) (d : Opnd) (a : Opnd) (b : Opnd)
  /-- `sshl` (R337). -/
  | sshl (p : Pfx) (d : Opnd) (a : Opnd) (b : Opnd)
  /-- `sshr` (R337). -/
  | sshr (p : Pfx) (d : Opnd) (a : Opnd) (b : Opnd)
  /-- `ssra` (R337). -/
  | ssra (p : Pfx) (d : Opnd) (a : Opnd) (b : Opnd)
  /-- `smin` (R337). -/
  | smin (p : Pfx) (d : Opnd) (a : Opnd) (b : Opnd)
  /-- `smax` (R337). -/
  | smax (p : Pfx) (d : Opnd) (a : Opnd) (b : Opnd)
  /-- `sminn` (R337). -/
  | sminn (p : Pfx) (d : Opnd) (a : Opnd) (b : Opnd)
  /-- `smaxn` (R337). -/
  | smaxn (p : Pfx) (d : Opnd) (a : Opnd) (b : Opnd)
  /-- `sclz` (R337). -/
  | sclz (p : Pfx) (d : Opnd) (a : Opnd)
  /-- `spopc` (R337). -/
  | spopc (p : Pfx) (d : Opnd) (a : Opnd)
  /-- `sffs` (R337). -/
  | sffs (p : Pfx) (d : Opnd) (a : Opnd)
  /-- `sbrev` (R337). -/
  | sbrev (p : Pfx) (d : Opnd) (a : Opnd)
  /-- `seq` (R337). -/
  | seq (p : Pfx) (d : Opnd) (a : Opnd) (b : Opnd)
  /-- `sne` (R337). -/
  | sne (p : Pfx) (d : Opnd) (a : Opnd) (b : Opnd)
  /-- `slt` (R337). -/
  | slt (p : Pfx) (d : Opnd) (a : Opnd) (b : Opnd)
  /-- `sle` (R337). -/
  | sle (p : Pfx) (d : Opnd) (a : Opnd) (b : Opnd)
  /-- `sltn` (R337). -/
  | sltn (p : Pfx) (d : Opnd) (a : Opnd) (b : Opnd)
  /-- `slen` (R337). -/
  | slen (p : Pfx) (d : Opnd) (a : Opnd) (b : Opnd)
  /-- `saddi` (R339). -/
  | saddi (p : Pfx) (d : Opnd) (a : Opnd) (i : BitVec 12)
  /-- `sandi` (R339). -/
  | sandi (p : Pfx) (d : Opnd) (a : Opnd) (i : BitVec 12)
  /-- `sori` (R339). -/
  | sori (p : Pfx) (d : Opnd) (a : Opnd) (i : BitVec 12)
  /-- `sxori` (R339). -/
  | sxori (p : Pfx) (d : Opnd) (a : Opnd) (i : BitVec 12)
  /-- `sli` (R340). -/
  | sli (p : Pfx) (d : Opnd) (i : BitVec 19)
  /-- `vadd` (R356). -/
  | vadd (p : Pfx) (d : Opnd) (a : Opnd) (b : Opnd)
  /-- `vsub` (R356). -/
  | vsub (p : Pfx) (d : Opnd) (a : Opnd) (b : Opnd)
  /-- `vmul` (R356). -/
  | vmul (p : Pfx) (d : Opnd) (a : Opnd) (b : Opnd)
  /-- `vmulhi` (R356). -/
  | vmulhi (p : Pfx) (d : Opnd) (a : Opnd) (b : Opnd)
  /-- `vmulhn` (R356). -/
  | vmulhn (p : Pfx) (d : Opnd) (a : Opnd) (b : Opnd)
  /-- `vmad` (R356). -/
  | vmad (p : Pfx) (d : Opnd) (a : Opnd) (b : Opnd)
  /-- `vand` (R356). -/
  | vand (p : Pfx) (d : Opnd) (a : Opnd) (b : Opnd)
  /-- `vor` (R356). -/
  | vor (p : Pfx) (d : Opnd) (a : Opnd) (b : Opnd)
  /-- `vxor` (R356). -/
  | vxor (p : Pfx) (d : Opnd) (a : Opnd) (b : Opnd)
  /-- `vandn` (R356). -/
  | vandn (p : Pfx) (d : Opnd) (a : Opnd) (b : Opnd)
  /-- `vshl` (R356). -/
  | vshl (p : Pfx) (d : Opnd) (a : Opnd) (b : Opnd)
  /-- `vshr` (R356). -/
  | vshr (p : Pfx) (d : Opnd) (a : Opnd) (b : Opnd)
  /-- `vsra` (R356). -/
  | vsra (p : Pfx) (d : Opnd) (a : Opnd) (b : Opnd)
  /-- `vmin` (R356). -/
  | vmin (p : Pfx) (d : Opnd) (a : Opnd) (b : Opnd)
  /-- `vmax` (R356). -/
  | vmax (p : Pfx) (d : Opnd) (a : Opnd) (b : Opnd)
  /-- `vminn` (R356). -/
  | vminn (p : Pfx) (d : Opnd) (a : Opnd) (b : Opnd)
  /-- `vmaxn` (R356). -/
  | vmaxn (p : Pfx) (d : Opnd) (a : Opnd) (b : Opnd)
  /-- `vabs` (R356). -/
  | vabs (p : Pfx) (d : Opnd) (a : Opnd)
  /-- `vabsd` (R356). -/
  | vabsd (p : Pfx) (d : Opnd) (a : Opnd) (b : Opnd)
  /-- `vsadd` (R356). -/
  | vsadd (p : Pfx) (d : Opnd) (a : Opnd) (b : Opnd)
  /-- `vssub` (R356). -/
  | vssub (p : Pfx) (d : Opnd) (a : Opnd) (b : Opnd)
  /-- `vsaddn` (R356). -/
  | vsaddn (p : Pfx) (d : Opnd) (a : Opnd) (b : Opnd)
  /-- `vssubn` (R356). -/
  | vssubn (p : Pfx) (d : Opnd) (a : Opnd) (b : Opnd)
  /-- `vclz` (R356). -/
  | vclz (p : Pfx) (d : Opnd) (a : Opnd)
  /-- `vpopc` (R356). -/
  | vpopc (p : Pfx) (d : Opnd) (a : Opnd)
  /-- `vbrev` (R356). -/
  | vbrev (p : Pfx) (d : Opnd) (a : Opnd)
  /-- `vbfe` (R358). -/
  | vbfe (p : Pfx) (d : Opnd) (a : Opnd) (b : Opnd)
  /-- `vbfes` (R358). -/
  | vbfes (p : Pfx) (d : Opnd) (a : Opnd) (b : Opnd)
  /-- `vbfi` (R358). -/
  | vbfi (p : Pfx) (d : Opnd) (a : Opnd) (b : Opnd)
  /-- `vaddw` (R359). -/
  | vaddw (p : Pfx) (d : Opnd) (a : Opnd) (b : Opnd)
  /-- `vsubw` (R359). -/
  | vsubw (p : Pfx) (d : Opnd) (a : Opnd) (b : Opnd)
  /-- `vaddi` (R360). -/
  | vaddi (p : Pfx) (d : Opnd) (a : Opnd) (i : BitVec 12)
  /-- `vandi` (R360). -/
  | vandi (p : Pfx) (d : Opnd) (a : Opnd) (i : BitVec 12)
  /-- `vshli` (R360). -/
  | vshli (p : Pfx) (d : Opnd) (a : Opnd) (i : BitVec 12)
  /-- `vshri` (R360). -/
  | vshri (p : Pfx) (d : Opnd) (a : Opnd) (i : BitVec 12)
  /-- `vsrai` (R360). -/
  | vsrai (p : Pfx) (d : Opnd) (a : Opnd) (i : BitVec 12)
  /-- `vmuli` (R360). -/
  | vmuli (p : Pfx) (d : Opnd) (a : Opnd) (i : BitVec 12)
  /-- `vcmp` (R361). -/
  | vcmp (p : Pfx) (d : Opnd) (a : Opnd) (b : Opnd) (c : BitVec 3) (t : BitVec 2)
  /-- `vcmph` (R363). -/
  | vcmph (p : Pfx) (d : Opnd) (a : Opnd) (b : Opnd) (c : BitVec 3) (t : BitVec 2)
  /-- `fadd` (R391). -/
  | fadd (p : Pfx) (d : Opnd) (a : Opnd) (b : Opnd)
  /-- `fsub` (R391). -/
  | fsub (p : Pfx) (d : Opnd) (a : Opnd) (b : Opnd)
  /-- `fmul` (R391). -/
  | fmul (p : Pfx) (d : Opnd) (a : Opnd) (b : Opnd)
  /-- `ffma` (R391). -/
  | ffma (p : Pfx) (d : Opnd) (a : Opnd) (b : Opnd)
  /-- `ffms` (R391). -/
  | ffms (p : Pfx) (d : Opnd) (a : Opnd) (b : Opnd)
  /-- `fnma` (R391). -/
  | fnma (p : Pfx) (d : Opnd) (a : Opnd) (b : Opnd)
  /-- `fnms` (R391). -/
  | fnms (p : Pfx) (d : Opnd) (a : Opnd) (b : Opnd)
  /-- `fmin` (R391). -/
  | fmin (p : Pfx) (d : Opnd) (a : Opnd) (b : Opnd)
  /-- `fmax` (R391). -/
  | fmax (p : Pfx) (d : Opnd) (a : Opnd) (b : Opnd)
  /-- `fminn` (R391). -/
  | fminn (p : Pfx) (d : Opnd) (a : Opnd) (b : Opnd)
  /-- `fmaxn` (R391). -/
  | fmaxn (p : Pfx) (d : Opnd) (a : Opnd) (b : Opnd)
  /-- `fabs` (R391). -/
  | fabs (p : Pfx) (d : Opnd) (a : Opnd)
  /-- `fneg` (R391). -/
  | fneg (p : Pfx) (d : Opnd) (a : Opnd)
  /-- `fcpys` (R391). -/
  | fcpys (p : Pfx) (d : Opnd) (a : Opnd) (b : Opnd)
  /-- `fdiv` (R391). -/
  | fdiv (p : Pfx) (d : Opnd) (a : Opnd) (b : Opnd)
  /-- `fsqrt` (R391). -/
  | fsqrt (p : Pfx) (d : Opnd) (a : Opnd)
  /-- `frcp` (R391). -/
  | frcp (p : Pfx) (d : Opnd) (a : Opnd)
  /-- `frsq` (R391). -/
  | frsq (p : Pfx) (d : Opnd) (a : Opnd)
  /-- `fexp2` (R391). -/
  | fexp2 (p : Pfx) (d : Opnd) (a : Opnd)
  /-- `flog2` (R391). -/
  | flog2 (p : Pfx) (d : Opnd) (a : Opnd)
  /-- `fsin` (R391). -/
  | fsin (p : Pfx) (d : Opnd) (a : Opnd)
  /-- `fcos` (R391). -/
  | fcos (p : Pfx) (d : Opnd) (a : Opnd)
  /-- `ffloor` (R391). -/
  | ffloor (p : Pfx) (d : Opnd) (a : Opnd)
  /-- `fceil` (R391). -/
  | fceil (p : Pfx) (d : Opnd) (a : Opnd)
  /-- `ftrunc` (R391). -/
  | ftrunc (p : Pfx) (d : Opnd) (a : Opnd)
  /-- `frint` (R391). -/
  | frint (p : Pfx) (d : Opnd) (a : Opnd)
  /-- `fscale` (R391). -/
  | fscale (p : Pfx) (d : Opnd) (a : Opnd) (b : Opnd)
  /-- `fclass` (R393). -/
  | fclass (p : Pfx) (d : Opnd) (a : Opnd)
  /-- `hadd` (R394). -/
  | hadd (p : Pfx) (d : Opnd) (a : Opnd) (b : Opnd) (p : BitVec 1)
  /-- `hsub` (R394). -/
  | hsub (p : Pfx) (d : Opnd) (a : Opnd) (b : Opnd) (p : BitVec 1)
  /-- `hmul` (R394). -/
  | hmul (p : Pfx) (d : Opnd) (a : Opnd) (b : Opnd) (p : BitVec 1)
  /-- `hfma` (R394). -/
  | hfma (p : Pfx) (d : Opnd) (a : Opnd) (b : Opnd) (p : BitVec 1)
  /-- `hmin` (R394). -/
  | hmin (p : Pfx) (d : Opnd) (a : Opnd) (b : Opnd) (p : BitVec 1)
  /-- `hmax` (R394). -/
  | hmax (p : Pfx) (d : Opnd) (a : Opnd) (b : Opnd) (p : BitVec 1)
  /-- `hminn` (R394). -/
  | hminn (p : Pfx) (d : Opnd) (a : Opnd) (b : Opnd) (p : BitVec 1)
  /-- `hmaxn` (R394). -/
  | hmaxn (p : Pfx) (d : Opnd) (a : Opnd) (b : Opnd) (p : BitVec 1)
  /-- `habs` (R394). -/
  | habs (p : Pfx) (d : Opnd) (a : Opnd) (p : BitVec 1)
  /-- `hneg` (R394). -/
  | hneg (p : Pfx) (d : Opnd) (a : Opnd) (p : BitVec 1)
  /-- `hdot2` (R395). -/
  | hdot2 (p : Pfx) (d : Opnd) (a : Opnd) (b : Opnd) (p : BitVec 1)
  /-- `hcpys` (R394). -/
  | hcpys (p : Pfx) (d : Opnd) (a : Opnd) (b : Opnd) (p : BitVec 1)
  /-- `cvt.f32.i32` (R396). -/
  | cvtF32I32 (p : Pfx) (d : Opnd) (a : Opnd)
  /-- `cvt.f32.n32` (R396). -/
  | cvtF32N32 (p : Pfx) (d : Opnd) (a : Opnd)
  /-- `cvt.i32.f32` (R397). -/
  | cvtI32F32 (p : Pfx) (d : Opnd) (a : Opnd)
  /-- `cvt.n32.f32` (R397). -/
  | cvtN32F32 (p : Pfx) (d : Opnd) (a : Opnd)
  /-- `cvt.f32.f16` (R396). -/
  | cvtF32F16 (p : Pfx) (d : Opnd) (a : Opnd) (b : Opnd)
  /-- `cvt.f32.bf16` (R396). -/
  | cvtF32Bf16 (p : Pfx) (d : Opnd) (a : Opnd) (b : Opnd)
  /-- `cvt.f16x2.f32` (R396). -/
  | cvtF16x2F32 (p : Pfx) (d : Opnd) (a : Opnd) (b : Opnd)
  /-- `cvt.bf16x2.f32` (R396). -/
  | cvtBf16x2F32 (p : Pfx) (d : Opnd) (a : Opnd) (b : Opnd)
  /-- `cvt.e4m3.f32` (R400). -/
  | cvtE4m3F32 (p : Pfx) (d : Opnd) (a : Opnd) (b : Opnd)
  /-- `cvt.e5m2.f32` (R400). -/
  | cvtE5m2F32 (p : Pfx) (d : Opnd) (a : Opnd) (b : Opnd)
  /-- `cvt.f32.e4m3` (R396). -/
  | cvtF32E4m3 (p : Pfx) (d : Opnd) (a : Opnd) (b : Opnd)
  /-- `cvt.f32.e5m2` (R396). -/
  | cvtF32E5m2 (p : Pfx) (d : Opnd) (a : Opnd) (b : Opnd)
  /-- `cvt.e2m1.f32` (R400). -/
  | cvtE2m1F32 (p : Pfx) (d : Opnd) (a : Opnd) (b : Opnd)
  /-- `cvt.f32.e2m1` (R396). -/
  | cvtF32E2m1 (p : Pfx) (d : Opnd) (a : Opnd) (b : Opnd)
  /-- `cvt.i8.f32` (R398). -/
  | cvtI8F32 (p : Pfx) (d : Opnd) (a : Opnd) (b : Opnd)
  /-- `cvt.f32.i8` (R396). -/
  | cvtF32I8 (p : Pfx) (d : Opnd) (a : Opnd) (b : Opnd)
  /-- `cvt.e8m0.f32` (R399). -/
  | cvtE8m0F32 (p : Pfx) (d : Opnd) (a : Opnd)
  /-- `cvt.f32.e8m0` (R396). -/
  | cvtF32E8m0 (p : Pfx) (d : Opnd) (a : Opnd) (b : Opnd)
  /-- `cvt.f32.n8` (R396). -/
  | cvtF32N8 (p : Pfx) (d : Opnd) (a : Opnd) (b : Opnd)
  /-- `vmov` (R365). -/
  | vmov (p : Pfx) (d : Opnd) (a : Opnd)
  /-- `vbcast` (R365). -/
  | vbcast (p : Pfx) (d : Opnd) (a : Opnd) (b : Opnd)
  /-- `vlget` (R367). -/
  | vlget (p : Pfx) (d : Opnd) (a : Opnd) (b : Opnd)
  /-- `vlset` (R367). -/
  | vlset (p : Pfx) (d : Opnd) (a : Opnd) (b : Opnd)
  /-- `vshape` (R365). -/
  | vshape (p : Pfx) (d : Opnd) (a : Opnd)
  /-- `vaffine` (R365). -/
  | vaffine (p : Pfx) (d : Opnd) (a : Opnd) (b : Opnd)
  /-- `vperm` (R365). -/
  | vperm (p : Pfx) (d : Opnd) (a : Opnd) (b : Opnd)
  /-- `vshup` (R365). -/
  | vshup (p : Pfx) (d : Opnd) (a : Opnd) (b : Opnd)
  /-- `vshdn` (R365). -/
  | vshdn (p : Pfx) (d : Opnd) (a : Opnd) (b : Opnd)
  /-- `vshxor` (R365). -/
  | vshxor (p : Pfx) (d : Opnd) (a : Opnd) (b : Opnd)
  /-- `vballot` (R368). -/
  | vballot (p : Pfx) (d : Opnd) (a : Opnd)
  /-- `vbits` (R368). -/
  | vbits (p : Pfx) (d : Opnd) (a : Opnd) (b : BitVec 7)
  /-- `vred.add.i32` (R371). -/
  | vredAddI32 (p : Pfx) (d : Opnd) (a : Opnd)
  /-- `vred.add.f32` (R401). -/
  | vredAddF32 (p : Pfx) (d : Opnd) (a : Opnd)
  /-- `vred.min.i32` (R371). -/
  | vredMinI32 (p : Pfx) (d : Opnd) (a : Opnd)
  /-- `vred.max.i32` (R371). -/
  | vredMaxI32 (p : Pfx) (d : Opnd) (a : Opnd)
  /-- `vred.min.f32` (R401). -/
  | vredMinF32 (p : Pfx) (d : Opnd) (a : Opnd)
  /-- `vred.max.f32` (R401). -/
  | vredMaxF32 (p : Pfx) (d : Opnd) (a : Opnd)
  /-- `vred.and` (R371). -/
  | vredAnd (p : Pfx) (d : Opnd) (a : Opnd)
  /-- `vred.or` (R371). -/
  | vredOr (p : Pfx) (d : Opnd) (a : Opnd)
  /-- `vred.xor` (R371). -/
  | vredXor (p : Pfx) (d : Opnd) (a : Opnd)
  /-- `vscan.add.i32` (R372). -/
  | vscanAddI32 (p : Pfx) (d : Opnd) (a : Opnd)
  /-- `vscan.add.f32` (R402). -/
  | vscanAddF32 (p : Pfx) (d : Opnd) (a : Opnd)
  /-- `vargmax.f32` (R373). -/
  | vargmaxF32 (p : Pfx) (d : Opnd) (a : Opnd)
  /-- `vargmin.f32` (R373). -/
  | vargminF32 (p : Pfx) (d : Opnd) (a : Opnd)
  /-- `xset` (R375). -/
  | xset (p : Pfx) (d : Opnd) (a : Opnd)
  /-- `xoff` (R375). -/
  | xoff (p : Pfx) (d : Opnd) (a : Opnd)
  /-- `xget` (R375). -/
  | xget (p : Pfx) (d : Opnd) (a : Opnd)
  /-- `xgetc` (R375). -/
  | xgetc (p : Pfx) (d : Opnd) (a : Opnd)
  /-- `xadd` (R375). -/
  | xadd (p : Pfx) (d : Opnd) (a : Opnd)
  /-- `xclr` (R375). -/
  | xclr (p : Pfx) (d : Opnd)
  /-- `mif` (R342). -/
  | mif (p : Pfx) (d : Opnd) (a : Opnd)
  /-- `melse` (R342). -/
  | melse (p : Pfx) (a : Opnd)
  /-- `mend` (R342). -/
  | mend (p : Pfx) (a : Opnd)
  /-- `mset` (R342). -/
  | mset (p : Pfx) (a : Opnd) (b : BitVec 7)
  /-- `mget` (R342). -/
  | mget (p : Pfx) (d : Opnd) (b : BitVec 7)
  /-- `elect` (R342). -/
  | elect (p : Pfx) (d : Opnd)
  /-- `mwhile` (R342). -/
  | mwhile (p : Pfx) (d : Opnd) (a : Opnd)
  /-- `br` (R346). -/
  | br (p : Pfx) (o : BitVec 19)
  /-- `brz` (R346). -/
  | brz (p : Pfx) (r : Opnd) (o : BitVec 19)
  /-- `brnz` (R346). -/
  | brnz (p : Pfx) (r : Opnd) (o : BitVec 19)
  /-- `brem` (R346). -/
  | brem (p : Pfx) (o : BitVec 19)
  /-- `loop` (R346). -/
  | loop (p : Pfx) (r : Opnd) (o : BitVec 19)
  /-- `call` (R346). -/
  | call (p : Pfx) (r : Opnd) (o : BitVec 19)
  /-- `bru` (R347). -/
  | bru (p : Pfx) (r : Opnd) (o : BitVec 19)
  /-- `jmp` (R348). -/
  | jmp (p : Pfx) (a : Opnd)
  /-- `jmpv` (R348). -/
  | jmpv (p : Pfx) (a : Opnd) (b : Opnd)
  /-- `callr` (R348). -/
  | callr (p : Pfx) (d : Opnd) (a : Opnd)
  /-- `ld` (R410). -/
  | ld (p : Pfx) (d : Opnd) (a : Opnd) (b : Opnd) (k : BitVec 1) (x : BitVec 1) (s : BitVec 3)
  /-- `st` (R411). -/
  | st (p : Pfx) (d : Opnd) (a : Opnd) (b : Opnd) (k : BitVec 1) (s : BitVec 3)
  /-- `lds` (R410). -/
  | lds (p : Pfx) (d : Opnd) (a : Opnd) (b : Opnd) (k : BitVec 1) (x : BitVec 1) (s : BitVec 3)
  /-- `sts` (R411). -/
  | sts (p : Pfx) (d : Opnd) (a : Opnd) (b : Opnd) (k : BitVec 1) (s : BitVec 3)
  /-- `atom.add.i32` (R413). -/
  | atomAddI32 (p : Pfx) (d : Opnd) (a : Opnd) (b : Opnd)
  /-- `atom.add.i64` (R413). -/
  | atomAddI64 (p : Pfx) (d : Opnd) (a : Opnd) (b : Opnd)
  /-- `atom.add.f32` (R414). -/
  | atomAddF32 (p : Pfx) (d : Opnd) (a : Opnd) (b : Opnd)
  /-- `atom.min.i32` (R413). -/
  | atomMinI32 (p : Pfx) (d : Opnd) (a : Opnd) (b : Opnd)
  /-- `atom.max.i32` (R413). -/
  | atomMaxI32 (p : Pfx) (d : Opnd) (a : Opnd) (b : Opnd)
  /-- `atom.min.n32` (R413). -/
  | atomMinN32 (p : Pfx) (d : Opnd) (a : Opnd) (b : Opnd)
  /-- `atom.max.n32` (R413). -/
  | atomMaxN32 (p : Pfx) (d : Opnd) (a : Opnd) (b : Opnd)
  /-- `atom.min.n64` (R413). -/
  | atomMinN64 (p : Pfx) (d : Opnd) (a : Opnd) (b : Opnd)
  /-- `atom.max.n64` (R413). -/
  | atomMaxN64 (p : Pfx) (d : Opnd) (a : Opnd) (b : Opnd)
  /-- `atom.and.b32` (R413). -/
  | atomAndB32 (p : Pfx) (d : Opnd) (a : Opnd) (b : Opnd)
  /-- `atom.or.b32` (R413). -/
  | atomOrB32 (p : Pfx) (d : Opnd) (a : Opnd) (b : Opnd)
  /-- `atom.xor.b32` (R413). -/
  | atomXorB32 (p : Pfx) (d : Opnd) (a : Opnd) (b : Opnd)
  /-- `atom.xchg.b32` (R413). -/
  | atomXchgB32 (p : Pfx) (d : Opnd) (a : Opnd) (b : Opnd)
  /-- `atom.xchg.b64` (R413). -/
  | atomXchgB64 (p : Pfx) (d : Opnd) (a : Opnd) (b : Opnd)
  /-- `atom.cas.b32` (R415). -/
  | atomCasB32 (p : Pfx) (d : Opnd) (a : Opnd)
  /-- `atom.cas.b64` (R415). -/
  | atomCasB64 (p : Pfx) (d : Opnd) (a : Opnd)
  /-- `atom.fmin.f32` (R414). -/
  | atomFminF32 (p : Pfx) (d : Opnd) (a : Opnd) (b : Opnd)
  /-- `atom.fmax.f32` (R414). -/
  | atomFmaxF32 (p : Pfx) (d : Opnd) (a : Opnd) (b : Opnd)
  /-- `atom.add.bf16x2` (R414). -/
  | atomAddBf16x2 (p : Pfx) (d : Opnd) (a : Opnd) (b : Opnd)
  /-- `atoms.add.i32` (R413). -/
  | atomsAddI32 (p : Pfx) (d : Opnd) (a : Opnd) (b : Opnd)
  /-- `atoms.add.i64` (R413). -/
  | atomsAddI64 (p : Pfx) (d : Opnd) (a : Opnd) (b : Opnd)
  /-- `atoms.add.f32` (R414). -/
  | atomsAddF32 (p : Pfx) (d : Opnd) (a : Opnd) (b : Opnd)
  /-- `atoms.min.i32` (R413). -/
  | atomsMinI32 (p : Pfx) (d : Opnd) (a : Opnd) (b : Opnd)
  /-- `atoms.max.i32` (R413). -/
  | atomsMaxI32 (p : Pfx) (d : Opnd) (a : Opnd) (b : Opnd)
  /-- `atoms.min.n32` (R413). -/
  | atomsMinN32 (p : Pfx) (d : Opnd) (a : Opnd) (b : Opnd)
  /-- `atoms.max.n32` (R413). -/
  | atomsMaxN32 (p : Pfx) (d : Opnd) (a : Opnd) (b : Opnd)
  /-- `atoms.min.n64` (R413). -/
  | atomsMinN64 (p : Pfx) (d : Opnd) (a : Opnd) (b : Opnd)
  /-- `atoms.max.n64` (R413). -/
  | atomsMaxN64 (p : Pfx) (d : Opnd) (a : Opnd) (b : Opnd)
  /-- `atoms.and.b32` (R413). -/
  | atomsAndB32 (p : Pfx) (d : Opnd) (a : Opnd) (b : Opnd)
  /-- `atoms.or.b32` (R413). -/
  | atomsOrB32 (p : Pfx) (d : Opnd) (a : Opnd) (b : Opnd)
  /-- `atoms.xor.b32` (R413). -/
  | atomsXorB32 (p : Pfx) (d : Opnd) (a : Opnd) (b : Opnd)
  /-- `atoms.xchg.b32` (R413). -/
  | atomsXchgB32 (p : Pfx) (d : Opnd) (a : Opnd) (b : Opnd)
  /-- `atoms.xchg.b64` (R413). -/
  | atomsXchgB64 (p : Pfx) (d : Opnd) (a : Opnd) (b : Opnd)
  /-- `atoms.cas.b32` (R415). -/
  | atomsCasB32 (p : Pfx) (d : Opnd) (a : Opnd)
  /-- `atoms.cas.b64` (R415). -/
  | atomsCasB64 (p : Pfx) (d : Opnd) (a : Opnd)
  /-- `atoms.fmin.f32` (R414). -/
  | atomsFminF32 (p : Pfx) (d : Opnd) (a : Opnd) (b : Opnd)
  /-- `atoms.fmax.f32` (R414). -/
  | atomsFmaxF32 (p : Pfx) (d : Opnd) (a : Opnd) (b : Opnd)
  /-- `atoms.add.bf16x2` (R414). -/
  | atomsAddBf16x2 (p : Pfx) (d : Opnd) (a : Opnd) (b : Opnd)
  /-- `sig.add` (R418). -/
  | sigAdd (p : Pfx) (a : Opnd) (b : Opnd)
  /-- `sig.set` (R418). -/
  | sigSet (p : Pfx) (a : Opnd) (b : Opnd)
  /-- `swait.ge` (R419). -/
  | swaitGe (p : Pfx) (d : Opnd) (a : Opnd) (b : Opnd)
  /-- `swait.eq` (R419). -/
  | swaitEq (p : Pfx) (d : Opnd) (a : Opnd) (b : Opnd)
  /-- `swait.ne` (R419). -/
  | swaitNe (p : Pfx) (d : Opnd) (a : Opnd) (b : Opnd)
  /-- `fence` (R420). -/
  | fence (p : Pfx) (k : BitVec 2) (c : BitVec 3)
  /-- `pbar.pkg` (R422). -/
  | pbarPkg (p : Pfx)
  /-- `pbar.mend` (R423). -/
  | pbarMend (p : Pfx)
  /-- `pflush` (R424). -/
  | pflush (p : Pfx) (a : Opnd) (b : Opnd)
  /-- `stepmark` (R425). -/
  | stepmark (p : Pfx) (d : Opnd) (b : BitVec 7)
  /-- `stepq` (R426). -/
  | stepq (p : Pfx) (d : Opnd) (b : BitVec 7)
  /-- `shcopy` (R445). -/
  | shcopy (p : Pfx) (d : Opnd) (a : Opnd)
  /-- `shtile` (R443). -/
  | shtile (p : Pfx) (d : Opnd) (a : Opnd)
  /-- `shgath` (R443). -/
  | shgath (p : Pfx) (d : Opnd) (a : Opnd) (b : Opnd)
  /-- `shscat` (R443). -/
  | shscat (p : Pfx) (d : Opnd) (a : Opnd) (b : Opnd)
  /-- `shfill` (R443). -/
  | shfill (p : Pfx) (d : Opnd) (a : Opnd)
  /-- `kinit` (R439). -/
  | kinit (p : Pfx) (a : Opnd) (b : Opnd)
  /-- `karrive` (R439). -/
  | karrive (p : Pfx) (a : Opnd)
  /-- `kexpect` (R439). -/
  | kexpect (p : Pfx) (a : Opnd) (b : Opnd)
  /-- `kwait` (R439). -/
  | kwait (p : Pfx) (d : Opnd) (a : Opnd) (b : Opnd)
  /-- `ktest` (R439). -/
  | ktest (p : Pfx) (d : Opnd) (a : Opnd)
  /-- `kinval` (R439). -/
  | kinval (p : Pfx) (a : Opnd)
  /-- `waitc` (R428). -/
  | waitc (p : Pfx) (a : Opnd) (b : BitVec 7)
  /-- `waitq` (R429). -/
  | waitq (p : Pfx) (a : Opnd) (b : Opnd)
  /-- `waitall` (R430). -/
  | waitall (p : Pfx)
  /-- `mcfg` (R447). -/
  | mcfg (p : Pfx) (a : Opnd)
  /-- `mzero` (R450). -/
  | mzero (p : Pfx) (d : Opnd) (a : Opnd)
  /-- `mloop` (R450). -/
  | mloop (p : Pfx) (d : Opnd) (a : Opnd)
  /-- `mstep` (R450). -/
  | mstep (p : Pfx) (d : Opnd) (a : Opnd)
  /-- `mcvt` (R451). -/
  | mcvt (p : Pfx) (d : Opnd) (a : Opnd)
  /-- `mscal` (R451). -/
  | mscal (p : Pfx) (d : Opnd) (a : Opnd)
  /-- `nmv` (R455). -/
  | nmv (p : Pfx) (d : Opnd) (a : Opnd)
  /-- `nmvcfg` (R455). -/
  | nmvcfg (p : Pfx) (a : Opnd)
  /-- `itn.next` (R457). -/
  | itnNext (p : Pfx) (d : Opnd)
  /-- `itn.done` (R457). -/
  | itnDone (p : Pfx)
  /-- `itn.stash` (R457). -/
  | itnStash (p : Pfx) (d : Opnd) (a : Opnd)
  /-- `itn.free` (R457). -/
  | itnFree (p : Pfx) (a : Opnd)
  /-- `itn.post` (R457). -/
  | itnPost (p : Pfx) (d : Opnd)
  /-- `itn.stat` (R457). -/
  | itnStat (p : Pfx) (d : Opnd) (b : BitVec 7)
  /-- `lnch` (R459). -/
  | lnch (p : Pfx) (d : Opnd) (a : Opnd)
  /-- `lnch.dep` (R459). -/
  | lnchDep (p : Pfx) (d : Opnd) (a : Opnd) (b : Opnd)
  /-- `lnchq` (R460). -/
  | lnchq (p : Pfx) (d : Opnd) (a : Opnd)
  /-- `bar.team` (R462). -/
  | barTeam (p : Pfx) (b : BitVec 7)
  /-- `bar.role` (R462). -/
  | barRole (p : Pfx)
  /-- `bar.arrive` (R462). -/
  | barArrive (p : Pfx) (b : BitVec 7)
  /-- `bar.wait` (R462). -/
  | barWait (p : Pfx) (b : BitVec 7)
  /-- `qtry` (R464). -/
  | qtry (p : Pfx) (d : Opnd) (a : Opnd) (b : Opnd)
  /-- `qcount` (R464). -/
  | qcount (p : Pfx) (d : Opnd) (a : Opnd)
  /-- `qputtry` (R464). -/
  | qputtry (p : Pfx) (d : Opnd) (a : Opnd) (b : Opnd)
  deriving DecidableEq, Repr

end Sys2Proof
end

