-- ==== Sys2Proof/WellFormed.lean ====
section
/-! DEFINITION. Which instructions are instructions: the field use of every encoded row (R303, R312), the operand classes
(R310 and the narrower tables of chapters 13 to 17), and the checks of R314 from step 4 on. -/

namespace Sys2Proof

/-- Operand classes (R310), and the narrower classes that a minor's table names. -/
inductive Cls where
  | vs | vsX | vsNoX | vsNoQ | vd | vdNoQ | vreg | vregB | vregZQ | xreg | ss | sd | sdS | sdOrVd | sreg | sregZ
  | qreg | qpop | qpush | qputB | qtryD | pairD | pairA | pairB | memD | memA | memB | atomD | atomB32 | atomB64 | casD
  | tok | desc1 | desc2 | desc3 | desc4 | desc6
  deriving DecidableEq, Repr

/-- One field of an R-form word. -/
inductive Fld where
  /-- Unused: holds 0x00 (R311). -/
  | none
  /-- An operand of a class. -/
  | op (c : Cls) (o : Opnd)
  /-- A literal with its largest value. -/
  | lit (max : Nat) (v : BitVec 7)
  deriving DecidableEq, Repr

/-- The low 26 bits of a base word (R303). -/
inductive Body where
  | r (d a b : Fld) (f : BitVec 5)
  | i (d a : Fld) (imm : BitVec 12)
  | u (d : Fld) (imm : BitVec 19)
  | j (r : Fld) (off : BitVec 19)
  deriving DecidableEq, Repr

/-- Prefixes, major and body of an encoded instruction; none for a step of the device that has no encoding (R312). -/
def Instr.shape : Instr → Option (Pfx × BitVec 6 × Body)
  | .nop p => some (p, 1#6, .r (.none) (.none) (.none) 0#5)
  | .brk p b => some (p, 1#6, .r (.none) (.none) (.lit 127 b) 1#5)
  | .exit p => some (p, 1#6, .r (.none) (.none) (.none) 2#5)
  | .tret p => some (p, 1#6, .r (.none) (.none) (.none) 3#5)
  | .yield p => some (p, 1#6, .r (.none) (.none) (.none) 4#5)
  | .trig p => some (p, 1#6, .r (.none) (.none) (.none) 5#5)
  | .rgn p => some (p, 1#6, .r (.none) (.none) (.none) 6#5)
  | .ifence p => some (p, 1#6, .r (.none) (.none) (.none) 7#5)
  | .win p b => some (p, 1#6, .r (.none) (.none) (.lit 31 b) 8#5)
  | .sleep p a => some (p, 1#6, .r (.none) (.op .ss a) (.none) 9#5)
  | .getsr p d b => some (p, 1#6, .r (.op .sdOrVd d) (.none) (.lit 24 b) 10#5)
  | .setsr p a b => some (p, 1#6, .r (.none) (.op .ss a) (.lit 24 b) 11#5)
  | .trap p i => some (p, 2#6, .i .none .none i)
  | .sadd p d a b => some (p, 3#6, .r (.op .sd d) (.op .ss a) (.op .ss b) 0#5)
  | .ssub p d a b => some (p, 3#6, .r (.op .sd d) (.op .ss a) (.op .ss b) 1#5)
  | .smul p d a b => some (p, 3#6, .r (.op .sd d) (.op .ss a) (.op .ss b) 2#5)
  | .smulhi p d a b => some (p, 3#6, .r (.op .sd d) (.op .ss a) (.op .ss b) 3#5)
  | .smulhn p d a b => some (p, 3#6, .r (.op .sd d) (.op .ss a) (.op .ss b) 4#5)
  | .sand p d a b => some (p, 3#6, .r (.op .sd d) (.op .ss a) (.op .ss b) 5#5)
  | .sor p d a b => some (p, 3#6, .r (.op .sd d) (.op .ss a) (.op .ss b) 6#5)
  | .sxor p d a b => some (p, 3#6, .r (.op .sd d) (.op .ss a) (.op .ss b) 7#5)
  | .sandn p d a b => some (p, 3#6, .r (.op .sd d) (.op .ss a) (.op .ss b) 8#5)
  | .sshl p d a b => some (p, 3#6, .r (.op .sd d) (.op .ss a) (.op .ss b) 9#5)
  | .sshr p d a b => some (p, 3#6, .r (.op .sd d) (.op .ss a) (.op .ss b) 10#5)
  | .ssra p d a b => some (p, 3#6, .r (.op .sd d) (.op .ss a) (.op .ss b) 11#5)
  | .smin p d a b => some (p, 3#6, .r (.op .sd d) (.op .ss a) (.op .ss b) 12#5)
  | .smax p d a b => some (p, 3#6, .r (.op .sd d) (.op .ss a) (.op .ss b) 13#5)
  | .sminn p d a b => some (p, 3#6, .r (.op .sd d) (.op .ss a) (.op .ss b) 14#5)
  | .smaxn p d a b => some (p, 3#6, .r (.op .sd d) (.op .ss a) (.op .ss b) 15#5)
  | .sclz p d a => some (p, 3#6, .r (.op .sd d) (.op .ss a) (.none) 16#5)
  | .spopc p d a => some (p, 3#6, .r (.op .sd d) (.op .ss a) (.none) 17#5)
  | .sffs p d a => some (p, 3#6, .r (.op .sd d) (.op .ss a) (.none) 18#5)
  | .sbrev p d a => some (p, 3#6, .r (.op .sd d) (.op .ss a) (.none) 19#5)
  | .seq p d a b => some (p, 3#6, .r (.op .sd d) (.op .ss a) (.op .ss b) 20#5)
  | .sne p d a b => some (p, 3#6, .r (.op .sd d) (.op .ss a) (.op .ss b) 21#5)
  | .slt p d a b => some (p, 3#6, .r (.op .sd d) (.op .ss a) (.op .ss b) 22#5)
  | .sle p d a b => some (p, 3#6, .r (.op .sd d) (.op .ss a) (.op .ss b) 23#5)
  | .sltn p d a b => some (p, 3#6, .r (.op .sd d) (.op .ss a) (.op .ss b) 24#5)
  | .slen p d a b => some (p, 3#6, .r (.op .sd d) (.op .ss a) (.op .ss b) 25#5)
  | .saddi p d a i => some (p, 4#6, .i (.op .sd d) (.op .ss a) i)
  | .sandi p d a i => some (p, 5#6, .i (.op .sd d) (.op .ss a) i)
  | .sori p d a i => some (p, 6#6, .i (.op .sd d) (.op .ss a) i)
  | .sxori p d a i => some (p, 7#6, .i (.op .sd d) (.op .ss a) i)
  | .sli p d i => some (p, 8#6, .u (.op .sd d) i)
  | .vadd p d a b => some (p, 9#6, .r (.op .vd d) (.op .vs a) (.op .vs b) 0#5)
  | .vsub p d a b => some (p, 9#6, .r (.op .vd d) (.op .vs a) (.op .vs b) 1#5)
  | .vmul p d a b => some (p, 9#6, .r (.op .vd d) (.op .vs a) (.op .vs b) 2#5)
  | .vmulhi p d a b => some (p, 9#6, .r (.op .vd d) (.op .vs a) (.op .vs b) 3#5)
  | .vmulhn p d a b => some (p, 9#6, .r (.op .vd d) (.op .vs a) (.op .vs b) 4#5)
  | .vmad p d a b => some (p, 9#6, .r (.op .vd d) (.op .vs a) (.op .vs b) 5#5)
  | .vand p d a b => some (p, 9#6, .r (.op .vd d) (.op .vs a) (.op .vs b) 6#5)
  | .vor p d a b => some (p, 9#6, .r (.op .vd d) (.op .vs a) (.op .vs b) 7#5)
  | .vxor p d a b => some (p, 9#6, .r (.op .vd d) (.op .vs a) (.op .vs b) 8#5)
  | .vandn p d a b => some (p, 9#6, .r (.op .vd d) (.op .vs a) (.op .vs b) 9#5)
  | .vshl p d a b => some (p, 9#6, .r (.op .vd d) (.op .vs a) (.op .vs b) 10#5)
  | .vshr p d a b => some (p, 9#6, .r (.op .vd d) (.op .vs a) (.op .vs b) 11#5)
  | .vsra p d a b => some (p, 9#6, .r (.op .vd d) (.op .vs a) (.op .vs b) 12#5)
  | .vmin p d a b => some (p, 9#6, .r (.op .vd d) (.op .vs a) (.op .vs b) 13#5)
  | .vmax p d a b => some (p, 9#6, .r (.op .vd d) (.op .vs a) (.op .vs b) 14#5)
  | .vminn p d a b => some (p, 9#6, .r (.op .vd d) (.op .vs a) (.op .vs b) 15#5)
  | .vmaxn p d a b => some (p, 9#6, .r (.op .vd d) (.op .vs a) (.op .vs b) 16#5)
  | .vabs p d a => some (p, 9#6, .r (.op .vd d) (.op .vs a) (.none) 17#5)
  | .vabsd p d a b => some (p, 9#6, .r (.op .vd d) (.op .vs a) (.op .vs b) 18#5)
  | .vsadd p d a b => some (p, 9#6, .r (.op .vd d) (.op .vs a) (.op .vs b) 19#5)
  | .vssub p d a b => some (p, 9#6, .r (.op .vd d) (.op .vs a) (.op .vs b) 20#5)
  | .vsaddn p d a b => some (p, 9#6, .r (.op .vd d) (.op .vs a) (.op .vs b) 21#5)
  | .vssubn p d a b => some (p, 9#6, .r (.op .vd d) (.op .vs a) (.op .vs b) 22#5)
  | .vclz p d a => some (p, 9#6, .r (.op .vd d) (.op .vs a) (.none) 23#5)
  | .vpopc p d a => some (p, 9#6, .r (.op .vd d) (.op .vs a) (.none) 24#5)
  | .vbrev p d a => some (p, 9#6, .r (.op .vd d) (.op .vs a) (.none) 25#5)
  | .vbfe p d a b => some (p, 9#6, .r (.op .vd d) (.op .vs a) (.op .vs b) 26#5)
  | .vbfes p d a b => some (p, 9#6, .r (.op .vd d) (.op .vs a) (.op .vs b) 27#5)
  | .vbfi p d a b => some (p, 9#6, .r (.op .vd d) (.op .vs a) (.op .vs b) 28#5)
  | .vaddw p d a b => some (p, 9#6, .r (.op .pairD d) (.op .pairA a) (.op .pairB b) 29#5)
  | .vsubw p d a b => some (p, 9#6, .r (.op .pairD d) (.op .pairA a) (.op .pairB b) 30#5)
  | .vaddi p d a i => some (p, 10#6, .i (.op .vd d) (.op .vs a) i)
  | .vandi p d a i => some (p, 11#6, .i (.op .vd d) (.op .vs a) i)
  | .vshli p d a i => some (p, 12#6, .i (.op .vd d) (.op .vs a) i)
  | .vshri p d a i => some (p, 13#6, .i (.op .vd d) (.op .vs a) i)
  | .vsrai p d a i => some (p, 14#6, .i (.op .vd d) (.op .vs a) i)
  | .vmuli p d a i => some (p, 15#6, .i (.op .vd d) (.op .vs a) i)
  | .vcmp p d a b c t => some (p, 16#6, .r (.op .sd d) (.op .vs a) (.op .vs b) (c ++ t))
  | .vcmph p d a b c t => some (p, 17#6, .r (.op .sd d) (.op .vs a) (.op .vs b) (c ++ t))
  | .fadd p d a b => some (p, 18#6, .r (.op .vd d) (.op .vs a) (.op .vs b) 0#5)
  | .fsub p d a b => some (p, 18#6, .r (.op .vd d) (.op .vs a) (.op .vs b) 1#5)
  | .fmul p d a b => some (p, 18#6, .r (.op .vd d) (.op .vs a) (.op .vs b) 2#5)
  | .ffma p d a b => some (p, 18#6, .r (.op .vdNoQ d) (.op .vsNoQ a) (.op .vsNoQ b) 3#5)
  | .ffms p d a b => some (p, 18#6, .r (.op .vdNoQ d) (.op .vsNoQ a) (.op .vsNoQ b) 4#5)
  | .fnma p d a b => some (p, 18#6, .r (.op .vdNoQ d) (.op .vsNoQ a) (.op .vsNoQ b) 5#5)
  | .fnms p d a b => some (p, 18#6, .r (.op .vdNoQ d) (.op .vsNoQ a) (.op .vsNoQ b) 6#5)
  | .fmin p d a b => some (p, 18#6, .r (.op .vd d) (.op .vs a) (.op .vs b) 7#5)
  | .fmax p d a b => some (p, 18#6, .r (.op .vd d) (.op .vs a) (.op .vs b) 8#5)
  | .fminn p d a b => some (p, 18#6, .r (.op .vd d) (.op .vs a) (.op .vs b) 9#5)
  | .fmaxn p d a b => some (p, 18#6, .r (.op .vd d) (.op .vs a) (.op .vs b) 10#5)
  | .fabs p d a => some (p, 18#6, .r (.op .vd d) (.op .vs a) (.none) 11#5)
  | .fneg p d a => some (p, 18#6, .r (.op .vd d) (.op .vs a) (.none) 12#5)
  | .fcpys p d a b => some (p, 18#6, .r (.op .vd d) (.op .vs a) (.op .vs b) 13#5)
  | .fdiv p d a b => some (p, 18#6, .r (.op .vd d) (.op .vs a) (.op .vs b) 14#5)
  | .fsqrt p d a => some (p, 18#6, .r (.op .vd d) (.op .vs a) (.none) 15#5)
  | .frcp p d a => some (p, 18#6, .r (.op .vd d) (.op .vs a) (.none) 16#5)
  | .frsq p d a => some (p, 18#6, .r (.op .vd d) (.op .vs a) (.none) 17#5)
  | .fexp2 p d a => some (p, 18#6, .r (.op .vd d) (.op .vs a) (.none) 18#5)
  | .flog2 p d a => some (p, 18#6, .r (.op .vd d) (.op .vs a) (.none) 19#5)
  | .fsin p d a => some (p, 18#6, .r (.op .vd d) (.op .vs a) (.none) 20#5)
  | .fcos p d a => some (p, 18#6, .r (.op .vd d) (.op .vs a) (.none) 21#5)
  | .ffloor p d a => some (p, 18#6, .r (.op .vd d) (.op .vs a) (.none) 22#5)
  | .fceil p d a => some (p, 18#6, .r (.op .vd d) (.op .vs a) (.none) 23#5)
  | .ftrunc p d a => some (p, 18#6, .r (.op .vd d) (.op .vs a) (.none) 24#5)
  | .frint p d a => some (p, 18#6, .r (.op .vd d) (.op .vs a) (.none) 25#5)
  | .fscale p d a b => some (p, 18#6, .r (.op .vd d) (.op .vs a) (.op .vs b) 26#5)
  | .fclass p d a => some (p, 18#6, .r (.op .vd d) (.op .vs a) (.none) 27#5)
  | .hadd p d a b p4 => some (p, 19#6, .r (.op .vd d) (.op .vs a) (.op .vs b) (p4 ++ 0#4))
  | .hsub p d a b p4 => some (p, 19#6, .r (.op .vd d) (.op .vs a) (.op .vs b) (p4 ++ 1#4))
  | .hmul p d a b p4 => some (p, 19#6, .r (.op .vd d) (.op .vs a) (.op .vs b) (p4 ++ 2#4))
  | .hfma p d a b p4 => some (p, 19#6, .r (.op .vdNoQ d) (.op .vsNoQ a) (.op .vsNoQ b) (p4 ++ 3#4))
  | .hmin p d a b p4 => some (p, 19#6, .r (.op .vd d) (.op .vs a) (.op .vs b) (p4 ++ 4#4))
  | .hmax p d a b p4 => some (p, 19#6, .r (.op .vd d) (.op .vs a) (.op .vs b) (p4 ++ 5#4))
  | .hminn p d a b p4 => some (p, 19#6, .r (.op .vd d) (.op .vs a) (.op .vs b) (p4 ++ 6#4))
  | .hmaxn p d a b p4 => some (p, 19#6, .r (.op .vd d) (.op .vs a) (.op .vs b) (p4 ++ 7#4))
  | .habs p d a p4 => some (p, 19#6, .r (.op .vd d) (.op .vs a) (.none) (p4 ++ 8#4))
  | .hneg p d a p4 => some (p, 19#6, .r (.op .vd d) (.op .vs a) (.none) (p4 ++ 9#4))
  | .hdot2 p d a b p4 => some (p, 19#6, .r (.op .vdNoQ d) (.op .vsNoQ a) (.op .vsNoQ b) (p4 ++ 10#4))
  | .hcpys p d a b p4 => some (p, 19#6, .r (.op .vd d) (.op .vs a) (.op .vs b) (p4 ++ 11#4))
  | .cvtF32I32 p d a => some (p, 20#6, .r (.op .vd d) (.op .vs a) (.none) 0#5)
  | .cvtF32N32 p d a => some (p, 20#6, .r (.op .vd d) (.op .vs a) (.none) 1#5)
  | .cvtI32F32 p d a => some (p, 20#6, .r (.op .vd d) (.op .vs a) (.none) 2#5)
  | .cvtN32F32 p d a => some (p, 20#6, .r (.op .vd d) (.op .vs a) (.none) 3#5)
  | .cvtF32F16 p d a b => some (p, 20#6, .r (.op .vd d) (.op .vs a) (.op .vs b) 4#5)
  | .cvtF32Bf16 p d a b => some (p, 20#6, .r (.op .vd d) (.op .vs a) (.op .vs b) 5#5)
  | .cvtF16x2F32 p d a b => some (p, 20#6, .r (.op .vd d) (.op .vs a) (.op .vs b) 6#5)
  | .cvtBf16x2F32 p d a b => some (p, 20#6, .r (.op .vd d) (.op .vs a) (.op .vs b) 7#5)
  | .cvtE4m3F32 p d a b => some (p, 20#6, .r (.op .vdNoQ d) (.op .vsNoQ a) (.op .vsNoQ b) 8#5)
  | .cvtE5m2F32 p d a b => some (p, 20#6, .r (.op .vdNoQ d) (.op .vsNoQ a) (.op .vsNoQ b) 9#5)
  | .cvtF32E4m3 p d a b => some (p, 20#6, .r (.op .vd d) (.op .vs a) (.op .vs b) 10#5)
  | .cvtF32E5m2 p d a b => some (p, 20#6, .r (.op .vd d) (.op .vs a) (.op .vs b) 11#5)
  | .cvtE2m1F32 p d a b => some (p, 20#6, .r (.op .vdNoQ d) (.op .vsNoQ a) (.op .vsNoQ b) 12#5)
  | .cvtF32E2m1 p d a b => some (p, 20#6, .r (.op .vd d) (.op .vs a) (.op .vs b) 13#5)
  | .cvtI8F32 p d a b => some (p, 20#6, .r (.op .vdNoQ d) (.op .vsNoQ a) (.op .vsNoQ b) 14#5)
  | .cvtF32I8 p d a b => some (p, 20#6, .r (.op .vd d) (.op .vs a) (.op .vs b) 15#5)
  | .cvtE8m0F32 p d a => some (p, 20#6, .r (.op .vd d) (.op .vs a) (.none) 16#5)
  | .cvtF32E8m0 p d a b => some (p, 20#6, .r (.op .vd d) (.op .vs a) (.op .vs b) 17#5)
  | .cvtF32N8 p d a b => some (p, 20#6, .r (.op .vd d) (.op .vs a) (.op .vs b) 18#5)
  | .vmov p d a => some (p, 21#6, .r (.op .vd d) (.op .vs a) (.none) 0#5)
  | .vbcast p d a b => some (p, 21#6, .r (.op .vd d) (.op .vsX a) (.op .ss b) 1#5)
  | .vlget p d a b => some (p, 21#6, .r (.op .sd d) (.op .vsX a) (.op .ss b) 2#5)
  | .vlset p d a b => some (p, 21#6, .r (.op .vreg d) (.op .ss a) (.op .ss b) 3#5)
  | .vshape p d a => some (p, 21#6, .r (.op .sdOrVd d) (.op .vs a) (.none) 4#5)
  | .vaffine p d a b => some (p, 21#6, .r (.op .vd d) (.op .ss a) (.op .ss b) 5#5)
  | .vperm p d a b => some (p, 21#6, .r (.op .vd d) (.op .vsX a) (.op .vs b) 6#5)
  | .vshup p d a b => some (p, 21#6, .r (.op .vd d) (.op .vsX a) (.op .ss b) 7#5)
  | .vshdn p d a b => some (p, 21#6, .r (.op .vd d) (.op .vsX a) (.op .ss b) 8#5)
  | .vshxor p d a b => some (p, 21#6, .r (.op .vd d) (.op .vsX a) (.op .ss b) 9#5)
  | .vballot p d a => some (p, 21#6, .r (.op .sd d) (.op .vs a) (.none) 10#5)
  | .vbits p d a b => some (p, 21#6, .r (.op .sd d) (.op .vs a) (.lit 31 b) 11#5)
  | .vredAddI32 p d a => some (p, 22#6, .r (.op .sdOrVd d) (.op .vs a) (.none) 0#5)
  | .vredAddF32 p d a => some (p, 22#6, .r (.op .sdOrVd d) (.op .vs a) (.none) 1#5)
  | .vredMinI32 p d a => some (p, 22#6, .r (.op .sdOrVd d) (.op .vs a) (.none) 2#5)
  | .vredMaxI32 p d a => some (p, 22#6, .r (.op .sdOrVd d) (.op .vs a) (.none) 3#5)
  | .vredMinF32 p d a => some (p, 22#6, .r (.op .sdOrVd d) (.op .vs a) (.none) 4#5)
  | .vredMaxF32 p d a => some (p, 22#6, .r (.op .sdOrVd d) (.op .vs a) (.none) 5#5)
  | .vredAnd p d a => some (p, 22#6, .r (.op .sdOrVd d) (.op .vs a) (.none) 6#5)
  | .vredOr p d a => some (p, 22#6, .r (.op .sdOrVd d) (.op .vs a) (.none) 7#5)
  | .vredXor p d a => some (p, 22#6, .r (.op .sdOrVd d) (.op .vs a) (.none) 8#5)
  | .vscanAddI32 p d a => some (p, 22#6, .r (.op .vd d) (.op .vs a) (.none) 9#5)
  | .vscanAddF32 p d a => some (p, 22#6, .r (.op .vd d) (.op .vs a) (.none) 10#5)
  | .vargmaxF32 p d a => some (p, 22#6, .r (.op .sdOrVd d) (.op .vs a) (.none) 11#5)
  | .vargminF32 p d a => some (p, 22#6, .r (.op .sdOrVd d) (.op .vs a) (.none) 12#5)
  | .xset p d a => some (p, 23#6, .r (.op .xreg d) (.op .ss a) (.none) 0#5)
  | .xoff p d a => some (p, 23#6, .r (.op .xreg d) (.op .vsNoX a) (.none) 1#5)
  | .xget p d a => some (p, 23#6, .r (.op .sd d) (.op .xreg a) (.none) 2#5)
  | .xgetc p d a => some (p, 23#6, .r (.op .vregZQ d) (.op .xreg a) (.none) 3#5)
  | .xadd p d a => some (p, 23#6, .r (.op .xreg d) (.op .vsNoX a) (.none) 4#5)
  | .xclr p d => some (p, 23#6, .r (.op .xreg d) (.none) (.none) 5#5)
  | .mif p d a => some (p, 24#6, .r (.op .sd d) (.op .ss a) (.none) 0#5)
  | .melse p a => some (p, 24#6, .r (.none) (.op .ss a) (.none) 1#5)
  | .mend p a => some (p, 24#6, .r (.none) (.op .ss a) (.none) 2#5)
  | .mset p a b => some (p, 24#6, .r (.none) (.op .ss a) (.lit 2 b) 3#5)
  | .mget p d b => some (p, 24#6, .r (.op .sd d) (.none) (.lit 3 b) 4#5)
  | .elect p d => some (p, 24#6, .r (.op .sd d) (.none) (.none) 5#5)
  | .mwhile p d a => some (p, 24#6, .r (.op .sd d) (.op .ss a) (.none) 6#5)
  | .br p o => some (p, 25#6, .j (.none) o)
  | .brz p r o => some (p, 26#6, .j (.op .ss r) o)
  | .brnz p r o => some (p, 27#6, .j (.op .ss r) o)
  | .brem p o => some (p, 28#6, .j (.none) o)
  | .loop p r o => some (p, 29#6, .j (.op .sreg r) o)
  | .call p r o => some (p, 30#6, .j (.op .sreg r) o)
  | .bru p r o => some (p, 31#6, .j (.op .vs r) o)
  | .jmp p a => some (p, 32#6, .r (.none) (.op .ss a) (.none) 0#5)
  | .jmpv p a b => some (p, 32#6, .r (.none) (.op .ss a) (.op .vs b) 1#5)
  | .callr p d a => some (p, 32#6, .r (.op .sd d) (.op .ss a) (.none) 2#5)
  | .ld p d a b k x s => some (p, 33#6, .r (.op .memD d) (.op .memA a) (.op .memB b) (k ++ x ++ s))
  | .st p d a b k s => some (p, 34#6, .r (.op .memD d) (.op .memA a) (.op .memB b) (k ++ 0#1 ++ s))
  | .lds p d a b k x s => some (p, 35#6, .r (.op .memD d) (.op .memA a) (.op .memB b) (k ++ x ++ s))
  | .sts p d a b k s => some (p, 36#6, .r (.op .memD d) (.op .memA a) (.op .memB b) (k ++ 0#1 ++ s))
  | .atomAddI32 p d a b => some (p, 37#6, .r (.op .atomD d) (.op .memA a) (.op .atomB32 b) 0#5)
  | .atomAddI64 p d a b => some (p, 37#6, .r (.op .atomD d) (.op .memA a) (.op .atomB64 b) 1#5)
  | .atomAddF32 p d a b => some (p, 37#6, .r (.op .atomD d) (.op .memA a) (.op .atomB32 b) 2#5)
  | .atomMinI32 p d a b => some (p, 37#6, .r (.op .atomD d) (.op .memA a) (.op .atomB32 b) 3#5)
  | .atomMaxI32 p d a b => some (p, 37#6, .r (.op .atomD d) (.op .memA a) (.op .atomB32 b) 4#5)
  | .atomMinN32 p d a b => some (p, 37#6, .r (.op .atomD d) (.op .memA a) (.op .atomB32 b) 5#5)
  | .atomMaxN32 p d a b => some (p, 37#6, .r (.op .atomD d) (.op .memA a) (.op .atomB32 b) 6#5)
  | .atomMinN64 p d a b => some (p, 37#6, .r (.op .atomD d) (.op .memA a) (.op .atomB64 b) 7#5)
  | .atomMaxN64 p d a b => some (p, 37#6, .r (.op .atomD d) (.op .memA a) (.op .atomB64 b) 8#5)
  | .atomAndB32 p d a b => some (p, 37#6, .r (.op .atomD d) (.op .memA a) (.op .atomB32 b) 9#5)
  | .atomOrB32 p d a b => some (p, 37#6, .r (.op .atomD d) (.op .memA a) (.op .atomB32 b) 10#5)
  | .atomXorB32 p d a b => some (p, 37#6, .r (.op .atomD d) (.op .memA a) (.op .atomB32 b) 11#5)
  | .atomXchgB32 p d a b => some (p, 37#6, .r (.op .atomD d) (.op .memA a) (.op .atomB32 b) 12#5)
  | .atomXchgB64 p d a b => some (p, 37#6, .r (.op .atomD d) (.op .memA a) (.op .atomB64 b) 13#5)
  | .atomCasB32 p d a => some (p, 37#6, .r (.op .casD d) (.op .memA a) (.none) 14#5)
  | .atomCasB64 p d a => some (p, 37#6, .r (.op .casD d) (.op .memA a) (.none) 15#5)
  | .atomFminF32 p d a b => some (p, 37#6, .r (.op .atomD d) (.op .memA a) (.op .atomB32 b) 16#5)
  | .atomFmaxF32 p d a b => some (p, 37#6, .r (.op .atomD d) (.op .memA a) (.op .atomB32 b) 17#5)
  | .atomAddBf16x2 p d a b => some (p, 37#6, .r (.op .atomD d) (.op .memA a) (.op .atomB32 b) 18#5)
  | .atomsAddI32 p d a b => some (p, 38#6, .r (.op .atomD d) (.op .memA a) (.op .atomB32 b) 0#5)
  | .atomsAddI64 p d a b => some (p, 38#6, .r (.op .atomD d) (.op .memA a) (.op .atomB64 b) 1#5)
  | .atomsAddF32 p d a b => some (p, 38#6, .r (.op .atomD d) (.op .memA a) (.op .atomB32 b) 2#5)
  | .atomsMinI32 p d a b => some (p, 38#6, .r (.op .atomD d) (.op .memA a) (.op .atomB32 b) 3#5)
  | .atomsMaxI32 p d a b => some (p, 38#6, .r (.op .atomD d) (.op .memA a) (.op .atomB32 b) 4#5)
  | .atomsMinN32 p d a b => some (p, 38#6, .r (.op .atomD d) (.op .memA a) (.op .atomB32 b) 5#5)
  | .atomsMaxN32 p d a b => some (p, 38#6, .r (.op .atomD d) (.op .memA a) (.op .atomB32 b) 6#5)
  | .atomsMinN64 p d a b => some (p, 38#6, .r (.op .atomD d) (.op .memA a) (.op .atomB64 b) 7#5)
  | .atomsMaxN64 p d a b => some (p, 38#6, .r (.op .atomD d) (.op .memA a) (.op .atomB64 b) 8#5)
  | .atomsAndB32 p d a b => some (p, 38#6, .r (.op .atomD d) (.op .memA a) (.op .atomB32 b) 9#5)
  | .atomsOrB32 p d a b => some (p, 38#6, .r (.op .atomD d) (.op .memA a) (.op .atomB32 b) 10#5)
  | .atomsXorB32 p d a b => some (p, 38#6, .r (.op .atomD d) (.op .memA a) (.op .atomB32 b) 11#5)
  | .atomsXchgB32 p d a b => some (p, 38#6, .r (.op .atomD d) (.op .memA a) (.op .atomB32 b) 12#5)
  | .atomsXchgB64 p d a b => some (p, 38#6, .r (.op .atomD d) (.op .memA a) (.op .atomB64 b) 13#5)
  | .atomsCasB32 p d a => some (p, 38#6, .r (.op .casD d) (.op .memA a) (.none) 14#5)
  | .atomsCasB64 p d a => some (p, 38#6, .r (.op .casD d) (.op .memA a) (.none) 15#5)
  | .atomsFminF32 p d a b => some (p, 38#6, .r (.op .atomD d) (.op .memA a) (.op .atomB32 b) 16#5)
  | .atomsFmaxF32 p d a b => some (p, 38#6, .r (.op .atomD d) (.op .memA a) (.op .atomB32 b) 17#5)
  | .atomsAddBf16x2 p d a b => some (p, 38#6, .r (.op .atomD d) (.op .memA a) (.op .atomB32 b) 18#5)
  | .sigAdd p a b => some (p, 39#6, .r (.none) (.op .sreg a) (.op .sregZ b) 0#5)
  | .sigSet p a b => some (p, 39#6, .r (.none) (.op .sreg a) (.op .sregZ b) 1#5)
  | .swaitGe p d a b => some (p, 39#6, .r (.op .sdS d) (.op .sreg a) (.op .sregZ b) 2#5)
  | .swaitEq p d a b => some (p, 39#6, .r (.op .sdS d) (.op .sreg a) (.op .sregZ b) 3#5)
  | .swaitNe p d a b => some (p, 39#6, .r (.op .sdS d) (.op .sreg a) (.op .sregZ b) 4#5)
  | .fence p k c => some (p, 40#6, .r (.none) (.none) (.none) (k ++ c))
  | .pbarPkg p => some (p, 41#6, .r (.none) (.none) (.none) 0#5)
  | .pbarMend p => some (p, 41#6, .r (.none) (.none) (.none) 1#5)
  | .pflush p a b => some (p, 41#6, .r (.none) (.op .sreg a) (.op .sregZ b) 2#5)
  | .stepmark p d b => some (p, 41#6, .r (.op .sdS d) (.none) (.lit 1 b) 3#5)
  | .stepq p d b => some (p, 41#6, .r (.op .sdS d) (.none) (.lit 1 b) 4#5)
  | .shcopy p d a => some (p, 42#6, .r (.op .tok d) (.op .desc6 a) (.none) 0#5)
  | .shtile p d a => some (p, 42#6, .r (.op .tok d) (.op .desc6 a) (.none) 1#5)
  | .shgath p d a b => some (p, 42#6, .r (.op .tok d) (.op .desc6 a) (.op .vregB b) 2#5)
  | .shscat p d a b => some (p, 42#6, .r (.op .tok d) (.op .desc6 a) (.op .vregB b) 3#5)
  | .shfill p d a => some (p, 42#6, .r (.op .tok d) (.op .desc6 a) (.none) 4#5)
  | .kinit p a b => some (p, 43#6, .r (.none) (.op .sreg a) (.op .ss b) 0#5)
  | .karrive p a => some (p, 43#6, .r (.none) (.op .sreg a) (.none) 1#5)
  | .kexpect p a b => some (p, 43#6, .r (.none) (.op .sreg a) (.op .ss b) 2#5)
  | .kwait p d a b => some (p, 43#6, .r (.op .sd d) (.op .sreg a) (.op .ss b) 3#5)
  | .ktest p d a => some (p, 43#6, .r (.op .sd d) (.op .sreg a) (.none) 4#5)
  | .kinval p a => some (p, 43#6, .r (.none) (.op .sreg a) (.none) 5#5)
  | .waitc p a b => some (p, 44#6, .r (.none) (.op .sregZ a) (.lit 5 b) 0#5)
  | .waitq p a b => some (p, 44#6, .r (.none) (.op .qreg a) (.op .sregZ b) 1#5)
  | .waitall p => some (p, 44#6, .r (.none) (.none) (.none) 2#5)
  | .mcfg p a => some (p, 45#6, .r (.none) (.op .desc1 a) (.none) 0#5)
  | .mzero p d a => some (p, 45#6, .r (.op .tok d) (.op .desc1 a) (.none) 1#5)
  | .mloop p d a => some (p, 45#6, .r (.op .tok d) (.op .desc6 a) (.none) 2#5)
  | .mstep p d a => some (p, 45#6, .r (.op .tok d) (.op .desc3 a) (.none) 3#5)
  | .mcvt p d a => some (p, 45#6, .r (.op .tok d) (.op .desc3 a) (.none) 4#5)
  | .mscal p d a => some (p, 45#6, .r (.op .tok d) (.op .desc2 a) (.none) 5#5)
  | .nmv p d a => some (p, 46#6, .r (.op .tok d) (.op .desc4 a) (.none) 0#5)
  | .nmvcfg p a => some (p, 46#6, .r (.none) (.op .desc1 a) (.none) 1#5)
  | .itnNext p d => some (p, 47#6, .r (.op .sd d) (.none) (.none) 0#5)
  | .itnDone p => some (p, 47#6, .r (.none) (.none) (.none) 1#5)
  | .itnStash p d a => some (p, 47#6, .r (.op .sd d) (.op .ss a) (.none) 2#5)
  | .itnFree p a => some (p, 47#6, .r (.none) (.op .ss a) (.none) 3#5)
  | .itnPost p d => some (p, 47#6, .r (.op .sd d) (.none) (.none) 4#5)
  | .itnStat p d b => some (p, 47#6, .r (.op .sd d) (.none) (.lit 7 b) 5#5)
  | .lnch p d a => some (p, 48#6, .r (.op .sd d) (.op .sreg a) (.none) 0#5)
  | .lnchDep p d a b => some (p, 48#6, .r (.op .sd d) (.op .sreg a) (.op .ss b) 1#5)
  | .lnchq p d a => some (p, 48#6, .r (.op .sd d) (.op .ss a) (.none) 2#5)
  | .barTeam p b => some (p, 49#6, .r (.none) (.none) (.lit 5 b) 0#5)
  | .barRole p => some (p, 49#6, .r (.none) (.none) (.none) 1#5)
  | .barArrive p b => some (p, 49#6, .r (.none) (.none) (.lit 5 b) 2#5)
  | .barWait p b => some (p, 49#6, .r (.none) (.none) (.lit 5 b) 3#5)
  | .qtry p d a b => some (p, 50#6, .r (.op .qtryD d) (.op .qpop a) (.op .sd b) 0#5)
  | .qcount p d a => some (p, 50#6, .r (.op .sd d) (.op .qreg a) (.none) 1#5)
  | .qputtry p d a b => some (p, 50#6, .r (.op .sd d) (.op .qpush a) (.op .qputB b) 2#5)
  | .bootStart => none
  | .bootRom => none
  | .brchk => none
  | .ident => none
  | .fwload => none
  | .dies => none
  | .meminit => none
  | .ready => none
  | .pcieLinkTraining _ _ _ => none
  | .configRequest _ => none
  | .perst => none
  | .perstRelease => none
  | .pfail => none
  | .railFault _ => none
  | .hamperAcceptanceClose => none
  | .hamperDrained => none
  | .sealRecordWrite => none
  | .level2Save => none
  | .vauxLoss => none
  | .pstepAccept _ => none
  | .controlInterval _ => none
  | .thermalTripRelease _ => none
  | .stepLeave => none
  | .opGlideComplete _ => none
  | .droopDetect _ => none
  | .capWrite _ _ => none
  | .registerWrite _ _ _ _ => none
  | .pkgidWrite _ => none
  | .doorbell _ _ _ => none
  | .recordFetch _ _ => none
  | .errClear _ _ _ => none
  | .context0Create => none
  | .fqReadIndex _ _ => none
  | .quoteGo => none
  | .imbQuoteGo => none
  | .quoteDone => none
  | .alertClear _ => none
  | .i3cDynamicAddressAssignment _ => none
  | .i3cEventEnable _ => none
  | .i3cReset => none
  | .launch _ _ => none
  | .copy _ _ => none
  | .signal _ _ => none
  | .waitv _ _ => none
  | .waitvRetest _ _ => none
  | .map _ _ => none
  | .unmap _ _ => none
  | .ctxCreate _ _ => none
  | .ctxDestroy _ _ => none
  | .ctxPreempt _ _ => none
  | .ctxResume _ _ => none
  | .phase _ _ => none
  | .stepLoad _ _ => none
  | .stepStart _ _ => none
  | .stepStop _ _ => none
  | .snapDefineRegion _ _ => none
  | .snapReleaseRegion _ _ => none
  | .snapAwaitStep _ _ => none
  | .mendDeclareGroup _ _ => none
  | .mendRebuild _ _ _ _ => none
  | .mendGroupRollback _ _ => none
  | .resume _ _ => none
  | .deferredFaultEvent _ _ => none
  | .accessAnswer _ _ _ => none
  | .combineIdleFlush _ _ => none
  | .fabricRequest _ => none
  | .fabricResponse _ _ => none
  | .fabricTimeout _ => none
  | .fabricEvent _ _ => none
  | .planeSilenceTimeout _ => none
  | .switchPortFailed _ => none
  | .switchReachabilityReport _ _ => none
  | .fabricLinkTrained _ _ => none
  | .starvationForce _ _ => none
  | .hamperWriteback _ => none
  | .patrolScrub _ => none
  | .hbmRefresh _ _ _ => none
  | .alertBackoff _ _ => none
  | .teamPlace _ => none
  | .pipelineStart _ _ => none
  | .teamRetire _ => none
  | .timeSliceExpiry _ _ => none
  | .preemptAutoResume _ => none
  | .contextSave _ => none
  | .pdlExpiry _ _ => none
  | .teardownComplete _ => none
  | .softError _ => none
  | .sleepExpiry _ _ => none
  | .swaitPoll _ _ => none
  | .shuttleStart _ => none
  | .shcopyCollectiveStart _ _ => none
  | .sectorPerformed _ _ => none
  | .shuttleComplete _ => none
  | .matrixKstep _ => none
  | .matrixComplete _ => none
  | .nmvComplete _ => none
  | .itineraryDispatch => none
  | .sync => none
  | .stepend => none
  | .stependAck _ => none
  | .controlBlockReread => none
  | .stallReport => none
  | .stepCommit => none
  | .encodeStep => none
  | .doneMessage _ _ _ => none
  | .heartbeatSend => none
  | .memberLoss _ => none
  | .backfillComplete => none
  | .attach _ => none
  | .detach => none
  | .debugHalt _ => none
  | .run _ => none
  | .debugStep _ _ => none
  | .release _ => none
  | .debugRead _ _ _ => none
  | .debugWrite _ _ _ _ => none
  | .rationCycleEnd _ => none
  | .i3cPrivateRead _ => none

/-- v0-v63 with an even number (R207). -/
def Opnd.evenV : Opnd → Bool
  | .v n => n.val % 2 == 0
  | _ => false

/-- v0-v63. -/
def Opnd.isV : Opnd → Bool
  | .v _ => true
  | _ => false

/-- s0-s31. -/
def Opnd.isS : Opnd → Bool
  | .s _ => true
  | _ => false

/-- x0-x7. -/
def Opnd.isX : Opnd → Bool
  | .x _ => true
  | _ => false

/-- q0-q7. -/
def Opnd.isQ : Opnd → Bool
  | .q _ => true
  | _ => false

/-- The number of a queue register, 8 for any other operand. -/
def Opnd.qnum : Opnd → Nat
  | .q n => n.val
  | _ => 8

/-- The code lies in a scalar source position (R310); q4 there is judged at step 9 (R223). -/
def Opnd.inSS : Opnd → Bool
  | .s _ | .zero | .em | .dm => true
  | .q n => n.val != 5
  | _ => false

/-- The code lies in a scalar destination position (R310); q0-q3 there are judged at step 9 (R223). -/
def Opnd.inSD : Opnd → Bool
  | .s _ | .zero => true
  | .q n => n.val != 5
  | _ => false

/-- The code lies in class VS (R310). -/
def Opnd.inVS : Opnd → Bool
  | .v _ | .s _ | .x _ | .zero | .lane => true
  | .q n => n.val == 5
  | _ => false

/-- The code lies in class VD (R310). -/
def Opnd.inVD : Opnd → Bool
  | .v _ | .x _ | .zero => true
  | .q n => n.val == 5
  | _ => false

/-- s0-s31 low enough for `k` registers (R432). -/
def Opnd.descOk (k : Nat) : Opnd → Bool
  | .s n => n.val + k ≤ 32
  | _ => false

/-- The operand code is permitted in its position, as far as the position alone decides (R310). -/
def Cls.ok (c : Cls) (o : Opnd) : Bool :=
  match c with
  | .vs => o.inVS
  | .vsX => o.inVS && !o.isX && !o.isQ
  | .vsNoX => o.inVS && !o.isX
  | .vsNoQ => o.inVS && !o.isQ
  | .vd => o.inVD
  | .vdNoQ => o.inVD && !o.isQ
  | .vreg | .vregB => o.isV
  | .vregZQ => o.inVD && !o.isX
  | .xreg => o.isX
  | .ss => o.inSS
  | .sd => o.inSD
  | .sdS => o.isS || o == .zero
  | .sdOrVd => o.inSD || o.inVD
  | .sreg => o.isS
  | .sregZ => o.isS || o == .zero
  | .qreg | .qpop | .qpush => o.isQ
  | .qputB => o.inVS || o.inSS
  | .qtryD => o.inSD || o.inVD
  | .pairD | .pairA => o.evenV || o.isX
  | .pairB => o.evenV || o.isX || o.isS || o == .zero
  | .memD => o.isV || o.isX || o.isS || o == .zero
  | .memA => o.isS || o == .zero || o.isV || o.isX
  | .memB => o.isV || o.isS || o.isX || o == .zero || o == .lane
  | .atomD => o.isV || o.isX || o == .zero
  | .atomB32 => o.isV || o.isX || o.isS || o == .zero || o == .lane
  | .atomB64 => o.evenV || o.isX || o.isS || o == .zero
  | .casD => o.isV
  | .tok => o.isS || o == .zero
  | .desc1 => o.descOk 1
  | .desc2 => o.descOk 2
  | .desc3 => o.descOk 3
  | .desc4 => o.descOk 4
  | .desc6 => o.descOk 6

/-- A field that its class accepts. -/
def Fld.ok : Fld → Bool
  | .none => true
  | .op c o => c.ok o
  | .lit m v => v.toNat ≤ m

/-- The operand of a field. -/
def Fld.opnd : Fld → List Opnd
  | .op _ o => [o]
  | _ => []

/-- The fields of a body. -/
def Body.flds : Body → List Fld
  | .r d a b _ => [d, a, b]
  | .i d a _ => [d, a]
  | .u d _ => [d]
  | .j t _ => [t]

/-- The field makes an access through an index register (R217); the one that an index register instruction names does not (R374). -/
def Fld.through : Fld → Bool
  | .op .xreg _ => false
  | .op _ o => o.isX
  | _ => false

/-- No queue register twice, and no access through an index register beside a queue register (R218, R223, assumption 73). -/
def crossOk (fs : List Fld) : Bool :=
  let qs := (fs.flatMap Fld.opnd).filter Opnd.isQ
  qs.Nodup && !(fs.any Fld.through && !qs.isEmpty)

/-- The vector operand widths of LD, ST, LDS, STS (R405, R406, R407, R409): size code, D, A, B; `glob` for LD and ST. -/
def memOk (ld glob : Bool) (s : BitVec 3) (d a b : Opnd) : Bool :=
  let baseOk := !(glob && a.isV && !a.evenV)
  let dOk := match s.toNat, d with
    | 3, .v n => n.val % 2 == 0
    | 4, .v n => n.val % 4 == 0
    | 4, .zero => true
    | 4, _ => false
    | _, _ => true
  let scalarLd := !(ld && d.isS) || ((a.isS || a == .zero) && b == .zero)
  baseOk && dOk && scalarLd

/-- The operand widths of the atomics: an even base pair (`glob`), and an even pair for 64-bit data (`wide`) (R405, R412, R414). -/
def atomOk (glob wide : Bool) (d a : Opnd) : Bool :=
  !(glob && a.isV && !a.evenV) && !(wide && d.isV && !d.evenV)

/-- The narrower rules of step 8 that join several fields (R207, R364, R365, R405-R416, R463). -/
def Instr.joint : Instr → Bool
  | .getsr _ d b => if b == 0 then d.inVD else d.inSD
  | .vshape _ d a => d.inVD || (!a.isX && !a.isQ)
  | .ld _ d a b _ _ s => memOk true true s d a b
  | .st _ d a b _ s => memOk false true s d a b
  | .lds _ d a b _ _ s => memOk true false s d a b
  | .sts _ d a b _ s => memOk false false s d a b
  | .atomAddI32 _ d a _ | .atomAddF32 _ d a _ | .atomMinI32 _ d a _ | .atomMaxI32 _ d a _ | .atomMinN32 _ d a _
  | .atomMaxN32 _ d a _ | .atomAndB32 _ d a _ | .atomOrB32 _ d a _ | .atomXorB32 _ d a _ | .atomXchgB32 _ d a _
  | .atomFminF32 _ d a _ | .atomFmaxF32 _ d a _ | .atomAddBf16x2 _ d a _ => atomOk true false d a
  | .atomAddI64 _ d a _ | .atomMinN64 _ d a _ | .atomMaxN64 _ d a _ | .atomXchgB64 _ d a _ => atomOk true true d a
  | .atomsAddI64 _ d a _ | .atomsMinN64 _ d a _ | .atomsMaxN64 _ d a _ | .atomsXchgB64 _ d a _ => atomOk false true d a
  | .atomCasB32 _ (.v n) a => n.val + 1 < 64 && atomOk true false (.v n) a
  | .atomCasB64 _ (.v n) a => n.val % 4 == 0 && atomOk true false (.v n) a
  | .atomsCasB32 _ (.v n) _ => n.val + 1 < 64
  | .atomsCasB64 _ (.v n) _ => n.val % 4 == 0
  | .qtry _ d a _ => if a.qnum == 5 then d.inVD else d.inSD
  | .qputtry _ _ a b => if a.qnum == 5 then b.inVS else b.inSS
  | _ => true

/-- Step 9 of R314: the queue uses of R223 that the words alone show. -/
def Instr.queueUse (i : Instr) (flds : List Fld) : Bool :=
  flds.any (fun
    | .op .sd (.q n) => n.val < 4
    | .op .sdOrVd (.q n) => n.val < 4
    | .op .qtryD (.q n) => n.val < 4
    | .op .ss (.q n) => n.val == 4
    | .op .qputB (.q n) => n.val == 4
    | .op .qpop (.q n) => n.val == 4
    | .op .qpush (.q n) => n.val < 4
    | _ => false) && i.shape.isSome

/-- Majors before which XL is permitted (R307). -/
def xlMajor (m : Nat) : Bool :=
  m == 2 || (4 ≤ m && m ≤ 8) || (0xA ≤ m && m ≤ 0xF) || m == 0x21 || m == 0x22 || m == 0x25

/-- ORD values permitted by major and by whether D is `zero` (R244). -/
def ordOk (maj : Nat) (dZero : Bool) (ord : Nat) : Bool :=
  match ord with
  | 0 => true
  | 1 => maj == 0x21 || maj == 0x23 || ((maj == 0x25 || maj == 0x26) && !dZero)
  | 2 => maj == 0x22 || maj == 0x24 || maj == 0x25 || maj == 0x26
  | _ => (maj == 0x25 || maj == 0x26) && !dZero

/-- D is the operand `zero`. -/
def Body.dZero : Body → Bool
  | .r (.op _ .zero) _ _ _ => true
  | _ => false

/-- Special registers that are read only (R232). -/
def roSpecial (n : Nat) : Bool :=
  n ≤ 8 || (16 ≤ n && n ≤ 18) || (20 ≤ n && n ≤ 23)

/-- Why a group that parses is not an instruction: the fates of R314 from step 4 on. -/
inductive Fate where
  /-- ILLOP with its DETAIL. -/
  | illop (detail : Nat)
  | illopnd
  | queue
  deriving DecidableEq, Repr

/-- Step 5: GN and GS are 0 when GE is 0 (R304). -/
def Xg.rsvOk (x : Xg) : Bool := x.ge || (!x.gn && x.gs == 0)

/-- Step 7: SCOPE and RND are assigned (R304). -/
def Xg.codesOk (x : Xg) : Bool := x.scope.toNat < 6 && x.rnd.toNat < 6

/-- Step 6 for `getsr` and `setsr` (R233). -/
def Instr.srOk : Instr → Bool
  | .getsr _ _ b => b.toNat ≤ 24
  | .setsr _ _ b => b.toNat ≤ 24 && !roSpecial b.toNat
  | _ => true

/-- Step 7 for FENCE: its scope is assigned (R313). -/
def Instr.fenceScopeOk : Instr → Bool
  | .fence _ _ c => c.toNat < 6
  | _ => true

/-- Step 3 for fields that a constructor can hold and no instruction has (R313). -/
def Instr.subOk : Instr → Bool
  | .ld _ d _ _ _ x s => s.toNat < 5 && (x == 0 || s.toNat < 2 || (s.toNat == 2 && d.isS))
  | .lds _ d _ _ _ x s => s.toNat < 5 && (x == 0 || s.toNat < 2 || (s.toNat == 2 && d.isS))
  | .st _ _ _ _ _ s => s.toNat < 5
  | .sts _ _ _ _ _ s => s.toNat < 5
  | .vcmp _ _ _ _ _ t => t.toNat < 3
  | .fence _ k _ => k.toNat < 3
  | _ => true

/-- The fate of an encoded instruction's fields (R314, steps 3 to 9); none when it is an instruction. -/
def Instr.fate (i : Instr) : Option Fate :=
  match i.shape with
  | none => none
  | some (p, maj, body) =>
    if !i.subOk then some (.illop 2)
    else if p.xl.isSome && !xlMajor maj.toNat then some (.illop 4)
    else if p.xg.any Xg.ge && (0x19 ≤ maj.toNat && maj.toNat ≤ 0x20) then some (.illop 4)
    else if p.xg.any (fun x => !x.rsvOk) then some (.illop 3)
    else if !i.srOk then some (.illop 5)
    else if p.xg.any (fun x => !x.codesOk) || !i.fenceScopeOk
        || p.xg.any (fun x => !ordOk maj.toNat body.dZero x.ord.toNat) then some (.illop 7)
    else if !(body.flds.all Fld.ok) || !i.joint || !crossOk body.flds then some .illopnd
    else if i.queueUse body.flds then some .queue
    else none

/-- An instruction that no step of R314 refuses; the steps of the device have no encoding to check. -/
def Instr.WellFormed (i : Instr) : Prop := i.fate = none

/-- `WellFormed` as a Bool. -/
def Instr.wf (i : Instr) : Bool := i.fate.isNone

end Sys2Proof
end

