-- ==== Sys2Proof/Decode.lean ====
section
/-! DEFINITION. From words to instructions and back (R299-R314): decoding is total and names why a pattern is no
instruction; `encode` gives the words of an instruction.

The definitions that build an encoded `Instr` are marked noncomputable because Lean's code generator has no tag for a
constructor past its 244th; they are structural recursion and bit-vector arithmetic, which the kernel evaluates. -/

namespace Sys2Proof

/-- The operand that a seven-bit code names (R309). -/
def Opnd.ofCode (c : BitVec 7) : Opnd :=
  let n := c.toNat
  if h : n < 64 then .v ⟨n, h⟩
  else if h : n - 64 < 32 then .s ⟨n - 64, h⟩
  else if h : n - 96 < 8 then .x ⟨n - 96, h⟩
  else if h : n - 104 < 8 then .q ⟨n - 104, h⟩
  else if n = 0x70 then .zero
  else if n = 0x71 then .lane
  else if n = 0x72 then .em
  else if n = 0x73 then .dm
  else if h : n - 0x74 < 12 then .rsv ⟨n - 0x74, h⟩
  else .zero

/-- The code of an operand (R309). -/
def Opnd.code : Opnd → BitVec 7
  | .v n => BitVec.ofNat 7 n.val
  | .s n => BitVec.ofNat 7 (64 + n.val)
  | .x n => BitVec.ofNat 7 (96 + n.val)
  | .q n => BitVec.ofNat 7 (104 + n.val)
  | .zero => 0x70
  | .lane => 0x71
  | .em => 0x72
  | .dm => 0x73
  | .rsv n => BitVec.ofNat 7 (0x74 + n.val)

/-- The major of a word (R303). -/
def majorOf (w : W32) : Nat := (w.extractLsb' 26 6).toNat

/-- D (or the R of a J-form) as an operand. -/
def fD (w : W32) : Opnd := Opnd.ofCode (w.extractLsb' 19 7)
/-- A as an operand. -/
def fA (w : W32) : Opnd := Opnd.ofCode (w.extractLsb' 12 7)
/-- B as an operand. -/
def fB (w : W32) : Opnd := Opnd.ofCode (w.extractLsb' 5 7)
/-- B as a literal. -/
def cB (w : W32) : BitVec 7 := w.extractLsb' 5 7
/-- The minor F. -/
def cF (w : W32) : Nat := (w.extractLsb' 0 5).toNat

/-- The size sub-field of a memory word is assigned (R313). -/
def sizeOk (w : W32) : Bool := cF w % 8 < 5

/-- The sign-extend sub-field is permitted (R313). -/
def sxOk (w : W32) : Bool :=
  !w.getLsbD 3 || cF w % 8 < 2 || (cF w % 8 == 2 && (fD w).isS)

/-- The constructor and fields that a base word of major `m` names, `f` its minor; none for an unassigned minor or sub-field (R312, R313). -/
noncomputable def parseAt (p : Pfx) (w : W32) (m f : Nat) : Option Instr :=
  match m with
  | 1 =>
    match f with
    | 0 => some (.nop p)
    | 1 => some (.brk p (cB w))
    | 2 => some (.exit p)
    | 3 => some (.tret p)
    | 4 => some (.yield p)
    | 5 => some (.trig p)
    | 6 => some (.rgn p)
    | 7 => some (.ifence p)
    | 8 => some (.win p (cB w))
    | 9 => some (.sleep p (fA w))
    | 10 => some (.getsr p (fD w) (cB w))
    | 11 => some (.setsr p (fA w) (cB w))
    | _ => none
  | 2 => some (.trap p (w.extractLsb' 0 12))
  | 3 =>
    match f with
    | 0 => some (.sadd p (fD w) (fA w) (fB w))
    | 1 => some (.ssub p (fD w) (fA w) (fB w))
    | 2 => some (.smul p (fD w) (fA w) (fB w))
    | 3 => some (.smulhi p (fD w) (fA w) (fB w))
    | 4 => some (.smulhn p (fD w) (fA w) (fB w))
    | 5 => some (.sand p (fD w) (fA w) (fB w))
    | 6 => some (.sor p (fD w) (fA w) (fB w))
    | 7 => some (.sxor p (fD w) (fA w) (fB w))
    | 8 => some (.sandn p (fD w) (fA w) (fB w))
    | 9 => some (.sshl p (fD w) (fA w) (fB w))
    | 10 => some (.sshr p (fD w) (fA w) (fB w))
    | 11 => some (.ssra p (fD w) (fA w) (fB w))
    | 12 => some (.smin p (fD w) (fA w) (fB w))
    | 13 => some (.smax p (fD w) (fA w) (fB w))
    | 14 => some (.sminn p (fD w) (fA w) (fB w))
    | 15 => some (.smaxn p (fD w) (fA w) (fB w))
    | 16 => some (.sclz p (fD w) (fA w))
    | 17 => some (.spopc p (fD w) (fA w))
    | 18 => some (.sffs p (fD w) (fA w))
    | 19 => some (.sbrev p (fD w) (fA w))
    | 20 => some (.seq p (fD w) (fA w) (fB w))
    | 21 => some (.sne p (fD w) (fA w) (fB w))
    | 22 => some (.slt p (fD w) (fA w) (fB w))
    | 23 => some (.sle p (fD w) (fA w) (fB w))
    | 24 => some (.sltn p (fD w) (fA w) (fB w))
    | 25 => some (.slen p (fD w) (fA w) (fB w))
    | _ => none
  | 4 => some (.saddi p (fD w) (fA w) (w.extractLsb' 0 12))
  | 5 => some (.sandi p (fD w) (fA w) (w.extractLsb' 0 12))
  | 6 => some (.sori p (fD w) (fA w) (w.extractLsb' 0 12))
  | 7 => some (.sxori p (fD w) (fA w) (w.extractLsb' 0 12))
  | 8 => some (.sli p (fD w) (w.extractLsb' 0 19))
  | 9 =>
    match f with
    | 0 => some (.vadd p (fD w) (fA w) (fB w))
    | 1 => some (.vsub p (fD w) (fA w) (fB w))
    | 2 => some (.vmul p (fD w) (fA w) (fB w))
    | 3 => some (.vmulhi p (fD w) (fA w) (fB w))
    | 4 => some (.vmulhn p (fD w) (fA w) (fB w))
    | 5 => some (.vmad p (fD w) (fA w) (fB w))
    | 6 => some (.vand p (fD w) (fA w) (fB w))
    | 7 => some (.vor p (fD w) (fA w) (fB w))
    | 8 => some (.vxor p (fD w) (fA w) (fB w))
    | 9 => some (.vandn p (fD w) (fA w) (fB w))
    | 10 => some (.vshl p (fD w) (fA w) (fB w))
    | 11 => some (.vshr p (fD w) (fA w) (fB w))
    | 12 => some (.vsra p (fD w) (fA w) (fB w))
    | 13 => some (.vmin p (fD w) (fA w) (fB w))
    | 14 => some (.vmax p (fD w) (fA w) (fB w))
    | 15 => some (.vminn p (fD w) (fA w) (fB w))
    | 16 => some (.vmaxn p (fD w) (fA w) (fB w))
    | 17 => some (.vabs p (fD w) (fA w))
    | 18 => some (.vabsd p (fD w) (fA w) (fB w))
    | 19 => some (.vsadd p (fD w) (fA w) (fB w))
    | 20 => some (.vssub p (fD w) (fA w) (fB w))
    | 21 => some (.vsaddn p (fD w) (fA w) (fB w))
    | 22 => some (.vssubn p (fD w) (fA w) (fB w))
    | 23 => some (.vclz p (fD w) (fA w))
    | 24 => some (.vpopc p (fD w) (fA w))
    | 25 => some (.vbrev p (fD w) (fA w))
    | 26 => some (.vbfe p (fD w) (fA w) (fB w))
    | 27 => some (.vbfes p (fD w) (fA w) (fB w))
    | 28 => some (.vbfi p (fD w) (fA w) (fB w))
    | 29 => some (.vaddw p (fD w) (fA w) (fB w))
    | 30 => some (.vsubw p (fD w) (fA w) (fB w))
    | _ => none
  | 10 => some (.vaddi p (fD w) (fA w) (w.extractLsb' 0 12))
  | 11 => some (.vandi p (fD w) (fA w) (w.extractLsb' 0 12))
  | 12 => some (.vshli p (fD w) (fA w) (w.extractLsb' 0 12))
  | 13 => some (.vshri p (fD w) (fA w) (w.extractLsb' 0 12))
  | 14 => some (.vsrai p (fD w) (fA w) (w.extractLsb' 0 12))
  | 15 => some (.vmuli p (fD w) (fA w) (w.extractLsb' 0 12))
  | 16 => if f % 4 = 3 then none else some (.vcmp p (fD w) (fA w) (fB w) (w.extractLsb' 2 3) (w.extractLsb' 0 2))
  | 17 => some (.vcmph p (fD w) (fA w) (fB w) (w.extractLsb' 2 3) (w.extractLsb' 0 2))
  | 18 =>
    match f with
    | 0 => some (.fadd p (fD w) (fA w) (fB w))
    | 1 => some (.fsub p (fD w) (fA w) (fB w))
    | 2 => some (.fmul p (fD w) (fA w) (fB w))
    | 3 => some (.ffma p (fD w) (fA w) (fB w))
    | 4 => some (.ffms p (fD w) (fA w) (fB w))
    | 5 => some (.fnma p (fD w) (fA w) (fB w))
    | 6 => some (.fnms p (fD w) (fA w) (fB w))
    | 7 => some (.fmin p (fD w) (fA w) (fB w))
    | 8 => some (.fmax p (fD w) (fA w) (fB w))
    | 9 => some (.fminn p (fD w) (fA w) (fB w))
    | 10 => some (.fmaxn p (fD w) (fA w) (fB w))
    | 11 => some (.fabs p (fD w) (fA w))
    | 12 => some (.fneg p (fD w) (fA w))
    | 13 => some (.fcpys p (fD w) (fA w) (fB w))
    | 14 => some (.fdiv p (fD w) (fA w) (fB w))
    | 15 => some (.fsqrt p (fD w) (fA w))
    | 16 => some (.frcp p (fD w) (fA w))
    | 17 => some (.frsq p (fD w) (fA w))
    | 18 => some (.fexp2 p (fD w) (fA w))
    | 19 => some (.flog2 p (fD w) (fA w))
    | 20 => some (.fsin p (fD w) (fA w))
    | 21 => some (.fcos p (fD w) (fA w))
    | 22 => some (.ffloor p (fD w) (fA w))
    | 23 => some (.fceil p (fD w) (fA w))
    | 24 => some (.ftrunc p (fD w) (fA w))
    | 25 => some (.frint p (fD w) (fA w))
    | 26 => some (.fscale p (fD w) (fA w) (fB w))
    | 27 => some (.fclass p (fD w) (fA w))
    | _ => none
  | 19 =>
    match f % 16 with
    | 0 => some (.hadd p (fD w) (fA w) (fB w) (w.extractLsb' 4 1))
    | 1 => some (.hsub p (fD w) (fA w) (fB w) (w.extractLsb' 4 1))
    | 2 => some (.hmul p (fD w) (fA w) (fB w) (w.extractLsb' 4 1))
    | 3 => some (.hfma p (fD w) (fA w) (fB w) (w.extractLsb' 4 1))
    | 4 => some (.hmin p (fD w) (fA w) (fB w) (w.extractLsb' 4 1))
    | 5 => some (.hmax p (fD w) (fA w) (fB w) (w.extractLsb' 4 1))
    | 6 => some (.hminn p (fD w) (fA w) (fB w) (w.extractLsb' 4 1))
    | 7 => some (.hmaxn p (fD w) (fA w) (fB w) (w.extractLsb' 4 1))
    | 8 => some (.habs p (fD w) (fA w) (w.extractLsb' 4 1))
    | 9 => some (.hneg p (fD w) (fA w) (w.extractLsb' 4 1))
    | 10 => some (.hdot2 p (fD w) (fA w) (fB w) (w.extractLsb' 4 1))
    | 11 => some (.hcpys p (fD w) (fA w) (fB w) (w.extractLsb' 4 1))
    | _ => none
  | 20 =>
    match f with
    | 0 => some (.cvtF32I32 p (fD w) (fA w))
    | 1 => some (.cvtF32N32 p (fD w) (fA w))
    | 2 => some (.cvtI32F32 p (fD w) (fA w))
    | 3 => some (.cvtN32F32 p (fD w) (fA w))
    | 4 => some (.cvtF32F16 p (fD w) (fA w) (fB w))
    | 5 => some (.cvtF32Bf16 p (fD w) (fA w) (fB w))
    | 6 => some (.cvtF16x2F32 p (fD w) (fA w) (fB w))
    | 7 => some (.cvtBf16x2F32 p (fD w) (fA w) (fB w))
    | 8 => some (.cvtE4m3F32 p (fD w) (fA w) (fB w))
    | 9 => some (.cvtE5m2F32 p (fD w) (fA w) (fB w))
    | 10 => some (.cvtF32E4m3 p (fD w) (fA w) (fB w))
    | 11 => some (.cvtF32E5m2 p (fD w) (fA w) (fB w))
    | 12 => some (.cvtE2m1F32 p (fD w) (fA w) (fB w))
    | 13 => some (.cvtF32E2m1 p (fD w) (fA w) (fB w))
    | 14 => some (.cvtI8F32 p (fD w) (fA w) (fB w))
    | 15 => some (.cvtF32I8 p (fD w) (fA w) (fB w))
    | 16 => some (.cvtE8m0F32 p (fD w) (fA w))
    | 17 => some (.cvtF32E8m0 p (fD w) (fA w) (fB w))
    | 18 => some (.cvtF32N8 p (fD w) (fA w) (fB w))
    | _ => none
  | 21 =>
    match f with
    | 0 => some (.vmov p (fD w) (fA w))
    | 1 => some (.vbcast p (fD w) (fA w) (fB w))
    | 2 => some (.vlget p (fD w) (fA w) (fB w))
    | 3 => some (.vlset p (fD w) (fA w) (fB w))
    | 4 => some (.vshape p (fD w) (fA w))
    | 5 => some (.vaffine p (fD w) (fA w) (fB w))
    | 6 => some (.vperm p (fD w) (fA w) (fB w))
    | 7 => some (.vshup p (fD w) (fA w) (fB w))
    | 8 => some (.vshdn p (fD w) (fA w) (fB w))
    | 9 => some (.vshxor p (fD w) (fA w) (fB w))
    | 10 => some (.vballot p (fD w) (fA w))
    | 11 => some (.vbits p (fD w) (fA w) (cB w))
    | _ => none
  | 22 =>
    match f with
    | 0 => some (.vredAddI32 p (fD w) (fA w))
    | 1 => some (.vredAddF32 p (fD w) (fA w))
    | 2 => some (.vredMinI32 p (fD w) (fA w))
    | 3 => some (.vredMaxI32 p (fD w) (fA w))
    | 4 => some (.vredMinF32 p (fD w) (fA w))
    | 5 => some (.vredMaxF32 p (fD w) (fA w))
    | 6 => some (.vredAnd p (fD w) (fA w))
    | 7 => some (.vredOr p (fD w) (fA w))
    | 8 => some (.vredXor p (fD w) (fA w))
    | 9 => some (.vscanAddI32 p (fD w) (fA w))
    | 10 => some (.vscanAddF32 p (fD w) (fA w))
    | 11 => some (.vargmaxF32 p (fD w) (fA w))
    | 12 => some (.vargminF32 p (fD w) (fA w))
    | _ => none
  | 23 =>
    match f with
    | 0 => some (.xset p (fD w) (fA w))
    | 1 => some (.xoff p (fD w) (fA w))
    | 2 => some (.xget p (fD w) (fA w))
    | 3 => some (.xgetc p (fD w) (fA w))
    | 4 => some (.xadd p (fD w) (fA w))
    | 5 => some (.xclr p (fD w))
    | _ => none
  | 24 =>
    match f with
    | 0 => some (.mif p (fD w) (fA w))
    | 1 => some (.melse p (fA w))
    | 2 => some (.mend p (fA w))
    | 3 => some (.mset p (fA w) (cB w))
    | 4 => some (.mget p (fD w) (cB w))
    | 5 => some (.elect p (fD w))
    | 6 => some (.mwhile p (fD w) (fA w))
    | _ => none
  | 25 => some (.br p (w.extractLsb' 0 19))
  | 26 => some (.brz p (fD w) (w.extractLsb' 0 19))
  | 27 => some (.brnz p (fD w) (w.extractLsb' 0 19))
  | 28 => some (.brem p (w.extractLsb' 0 19))
  | 29 => some (.loop p (fD w) (w.extractLsb' 0 19))
  | 30 => some (.call p (fD w) (w.extractLsb' 0 19))
  | 31 => some (.bru p (fD w) (w.extractLsb' 0 19))
  | 32 =>
    match f with
    | 0 => some (.jmp p (fA w))
    | 1 => some (.jmpv p (fA w) (fB w))
    | 2 => some (.callr p (fD w) (fA w))
    | _ => none
  | 33 => if sizeOk w && sxOk w then some (.ld p (fD w) (fA w) (fB w) (w.extractLsb' 4 1) (w.extractLsb' 3 1) (w.extractLsb' 0 3)) else none
  | 34 => if sizeOk w && !w.getLsbD 3 then some (.st p (fD w) (fA w) (fB w) (w.extractLsb' 4 1) (w.extractLsb' 0 3)) else none
  | 35 => if sizeOk w && sxOk w then some (.lds p (fD w) (fA w) (fB w) (w.extractLsb' 4 1) (w.extractLsb' 3 1) (w.extractLsb' 0 3)) else none
  | 36 => if sizeOk w && !w.getLsbD 3 then some (.sts p (fD w) (fA w) (fB w) (w.extractLsb' 4 1) (w.extractLsb' 0 3)) else none
  | 37 =>
    match f with
    | 0 => some (.atomAddI32 p (fD w) (fA w) (fB w))
    | 1 => some (.atomAddI64 p (fD w) (fA w) (fB w))
    | 2 => some (.atomAddF32 p (fD w) (fA w) (fB w))
    | 3 => some (.atomMinI32 p (fD w) (fA w) (fB w))
    | 4 => some (.atomMaxI32 p (fD w) (fA w) (fB w))
    | 5 => some (.atomMinN32 p (fD w) (fA w) (fB w))
    | 6 => some (.atomMaxN32 p (fD w) (fA w) (fB w))
    | 7 => some (.atomMinN64 p (fD w) (fA w) (fB w))
    | 8 => some (.atomMaxN64 p (fD w) (fA w) (fB w))
    | 9 => some (.atomAndB32 p (fD w) (fA w) (fB w))
    | 10 => some (.atomOrB32 p (fD w) (fA w) (fB w))
    | 11 => some (.atomXorB32 p (fD w) (fA w) (fB w))
    | 12 => some (.atomXchgB32 p (fD w) (fA w) (fB w))
    | 13 => some (.atomXchgB64 p (fD w) (fA w) (fB w))
    | 14 => some (.atomCasB32 p (fD w) (fA w))
    | 15 => some (.atomCasB64 p (fD w) (fA w))
    | 16 => some (.atomFminF32 p (fD w) (fA w) (fB w))
    | 17 => some (.atomFmaxF32 p (fD w) (fA w) (fB w))
    | 18 => some (.atomAddBf16x2 p (fD w) (fA w) (fB w))
    | _ => none
  | 38 =>
    match f with
    | 0 => some (.atomsAddI32 p (fD w) (fA w) (fB w))
    | 1 => some (.atomsAddI64 p (fD w) (fA w) (fB w))
    | 2 => some (.atomsAddF32 p (fD w) (fA w) (fB w))
    | 3 => some (.atomsMinI32 p (fD w) (fA w) (fB w))
    | 4 => some (.atomsMaxI32 p (fD w) (fA w) (fB w))
    | 5 => some (.atomsMinN32 p (fD w) (fA w) (fB w))
    | 6 => some (.atomsMaxN32 p (fD w) (fA w) (fB w))
    | 7 => some (.atomsMinN64 p (fD w) (fA w) (fB w))
    | 8 => some (.atomsMaxN64 p (fD w) (fA w) (fB w))
    | 9 => some (.atomsAndB32 p (fD w) (fA w) (fB w))
    | 10 => some (.atomsOrB32 p (fD w) (fA w) (fB w))
    | 11 => some (.atomsXorB32 p (fD w) (fA w) (fB w))
    | 12 => some (.atomsXchgB32 p (fD w) (fA w) (fB w))
    | 13 => some (.atomsXchgB64 p (fD w) (fA w) (fB w))
    | 14 => some (.atomsCasB32 p (fD w) (fA w))
    | 15 => some (.atomsCasB64 p (fD w) (fA w))
    | 16 => some (.atomsFminF32 p (fD w) (fA w) (fB w))
    | 17 => some (.atomsFmaxF32 p (fD w) (fA w) (fB w))
    | 18 => some (.atomsAddBf16x2 p (fD w) (fA w) (fB w))
    | _ => none
  | 39 =>
    match f with
    | 0 => some (.sigAdd p (fA w) (fB w))
    | 1 => some (.sigSet p (fA w) (fB w))
    | 2 => some (.swaitGe p (fD w) (fA w) (fB w))
    | 3 => some (.swaitEq p (fD w) (fA w) (fB w))
    | 4 => some (.swaitNe p (fD w) (fA w) (fB w))
    | _ => none
  | 40 => if f / 8 = 3 then none else some (.fence p (w.extractLsb' 3 2) (w.extractLsb' 0 3))
  | 41 =>
    match f with
    | 0 => some (.pbarPkg p)
    | 1 => some (.pbarMend p)
    | 2 => some (.pflush p (fA w) (fB w))
    | 3 => some (.stepmark p (fD w) (cB w))
    | 4 => some (.stepq p (fD w) (cB w))
    | _ => none
  | 42 =>
    match f with
    | 0 => some (.shcopy p (fD w) (fA w))
    | 1 => some (.shtile p (fD w) (fA w))
    | 2 => some (.shgath p (fD w) (fA w) (fB w))
    | 3 => some (.shscat p (fD w) (fA w) (fB w))
    | 4 => some (.shfill p (fD w) (fA w))
    | _ => none
  | 43 =>
    match f with
    | 0 => some (.kinit p (fA w) (fB w))
    | 1 => some (.karrive p (fA w))
    | 2 => some (.kexpect p (fA w) (fB w))
    | 3 => some (.kwait p (fD w) (fA w) (fB w))
    | 4 => some (.ktest p (fD w) (fA w))
    | 5 => some (.kinval p (fA w))
    | _ => none
  | 44 =>
    match f with
    | 0 => some (.waitc p (fA w) (cB w))
    | 1 => some (.waitq p (fA w) (fB w))
    | 2 => some (.waitall p)
    | _ => none
  | 45 =>
    match f with
    | 0 => some (.mcfg p (fA w))
    | 1 => some (.mzero p (fD w) (fA w))
    | 2 => some (.mloop p (fD w) (fA w))
    | 3 => some (.mstep p (fD w) (fA w))
    | 4 => some (.mcvt p (fD w) (fA w))
    | 5 => some (.mscal p (fD w) (fA w))
    | _ => none
  | 46 =>
    match f with
    | 0 => some (.nmv p (fD w) (fA w))
    | 1 => some (.nmvcfg p (fA w))
    | _ => none
  | 47 =>
    match f with
    | 0 => some (.itnNext p (fD w))
    | 1 => some (.itnDone p)
    | 2 => some (.itnStash p (fD w) (fA w))
    | 3 => some (.itnFree p (fA w))
    | 4 => some (.itnPost p (fD w))
    | 5 => some (.itnStat p (fD w) (cB w))
    | _ => none
  | 48 =>
    match f with
    | 0 => some (.lnch p (fD w) (fA w))
    | 1 => some (.lnchDep p (fD w) (fA w) (fB w))
    | 2 => some (.lnchq p (fD w) (fA w))
    | _ => none
  | 49 =>
    match f with
    | 0 => some (.barTeam p (cB w))
    | 1 => some (.barRole p)
    | 2 => some (.barArrive p (cB w))
    | 3 => some (.barWait p (cB w))
    | _ => none
  | 50 =>
    match f with
    | 0 => some (.qtry p (fD w) (fA w) (fB w))
    | 1 => some (.qcount p (fD w) (fA w))
    | 2 => some (.qputtry p (fD w) (fA w) (fB w))
    | _ => none
  | _ => none

/-- The constructor and fields that a base word names (R312, R313). -/
noncomputable def parse (p : Pfx) (w : W32) : Option Instr := parseAt p w (majorOf w) (cF w)

/-- The field bits of a word. -/
def Fld.bits : Fld → BitVec 7
  | .none => 0
  | .op _ o => o.code
  | .lit _ v => v

/-- The low 26 bits of a base word (R303). -/
def Body.bits : Body → BitVec 26
  | .r fd fa fb mn => fd.bits ++ fa.bits ++ fb.bits ++ mn
  | .i fd fa imm => fd.bits ++ fa.bits ++ imm
  | .u fd imm => fd.bits ++ imm
  | .j fr off => fr.bits ++ off

/-- The XG word (R303). -/
def Xg.word (x : Xg) : W32 :=
  0x3F#6 ++ BitVec.ofBool x.ge ++ BitVec.ofBool x.gn ++ x.gs ++ x.ord ++ x.rnd ++ BitVec.ofBool x.sat
    ++ BitVec.ofBool x.ea ++ BitVec.ofBool x.eb ++ BitVec.ofBool x.ed ++ x.scope ++ BitVec.ofBool x.nt ++ 0#6

/-- The fields of an XG word (R303). -/
def Xg.ofWord (w : W32) : Xg :=
  { ge := w.getLsbD 25, gn := w.getLsbD 24, gs := w.extractLsb' 19 5, ord := w.extractLsb' 17 2,
    rnd := w.extractLsb' 14 3, sat := w.getLsbD 13, ea := w.getLsbD 12, eb := w.getLsbD 11, ed := w.getLsbD 10,
    scope := w.extractLsb' 7 3, nt := w.getLsbD 6 }

/-- The XL word of a payload (R303). -/
def xlWord (l : BitVec 26) : W32 := 0x3E#6 ++ l

/-- The prefix words of a group (R299). -/
def Pfx.words (p : Pfx) : List W32 :=
  (match p.xg with | some x => [x.word] | none => []) ++ (match p.xl with | some l => [xlWord l] | none => [])

/-- The words of an encoded instruction; none for a step of the device (R299, R303). -/
def encode (i : Instr) : Option (List W32) :=
  match i.shape with
  | some (p, maj, body) => some (p.words ++ [maj ++ body.bits])
  | none => none

/-- What decoding a group gives. -/
inductive Decoded where
  /-- An instruction, and the words it takes. -/
  | instr (i : Instr) (n : Nat)
  /-- No instruction, by name (R314). -/
  | fate (f : Fate)
  /-- The words end before the base word (R301). -/
  | short
  deriving DecidableEq, Repr

/-- Steps 2 to 9 of R314 on a base word behind its prefixes. `rsv` says that the XG has reserved bits set. -/
noncomputable def decodeBase (p : Pfx) (rsv : Bool) (n : Nat) (w : W32) : Decoded :=
  let m := majorOf w
  if m = 0 ∨ (0x33 ≤ m ∧ m ≤ 0x3D) then .fate (.illop 1)
  else match parse p w with
    | none => .fate (.illop 2)
    | some i =>
      match i.fate with
      | some (.illop 2) => .fate (.illop 2)
      | some (.illop 4) => .fate (.illop 4)
      | f =>
        if rsv ∨ (encode i).map (fun ws => ws.getLast?) ≠ some (some w) then .fate (.illop 3)
        else match f with
          | some g => .fate g
          | none => .instr i n

/-- A group's words decoded (R299, R314): step 1 judges the order of the prefixes. -/
noncomputable def decodeGroup : List W32 → Decoded
  | [] => .short
  | w0 :: r0 =>
    if majorOf w0 = 0x3F then
      match r0 with
      | [] => .short
      | w1 :: r1 =>
        let p : Pfx := { xg := some (Xg.ofWord w0), xl := none }
        let rsv : Bool := (w0.extractLsb' 0 6).toNat ≠ 0
        if majorOf w1 = 0x3F then .fate (.illop 4)
        else if majorOf w1 = 0x3E then
          match r1 with
          | [] => .short
          | w2 :: _ =>
            if majorOf w2 = 0x3F ∨ majorOf w2 = 0x3E then .fate (.illop 4)
            else decodeBase { p with xl := some (w1.extractLsb' 0 26) } rsv 3 w2
        else decodeBase p rsv 2 w1
    else if majorOf w0 = 0x3E then
      match r0 with
      | [] => .short
      | w1 :: _ =>
        if majorOf w1 = 0x3F ∨ majorOf w1 = 0x3E then .fate (.illop 4)
        else decodeBase { xg := none, xl := some (w0.extractLsb' 0 26) } false 2 w1
    else decodeBase Pfx.plain false 1 w0

/-- The words that bytes in memory hold, four to a word, little-endian (R299). -/
def wordsOfBytes : List Byte → List W32
  | b0 :: b1 :: b2 :: b3 :: r => (b3 ++ b2 ++ b1 ++ b0 : BitVec 32) :: wordsOfBytes r
  | _ => []

/-- The bytes of words, as memory stores them (R299). -/
def bytesOfWords : List W32 → List Byte
  | [] => []
  | w :: r => leBytes 4 w.toNat ++ bytesOfWords r

/-- The bytes of a group of the opcode table, `nbits` bits of `w` and zeros up to the longest group (three words). -/
def tableBytes (nbits w : Nat) : List Byte := leBytes 12 (w % 2 ^ nbits)

/-- What the decoder reads from a row of the opcode table whose bits are `w`. -/
noncomputable def decodeTableWord (nbits w : Nat) : Option Instr :=
  match decodeGroup (wordsOfBytes (tableBytes nbits w)) with
  | .instr i _ => some i
  | _ => none

end Sys2Proof
end

