-- ==== Sys2Proof/Config.lean ====
section
/-! DEFINITION. What an implementation fixes and the free values: constants with no body, of which nothing can be proved
(assumption 2). -/

namespace Sys2Proof.Config

/-- A free 64-bit value: what the manual leaves open, drawn by `State.draws`. -/
opaque draw64 : Nat → W64

/-- Cycles of a die in one cycle of the model, by draw and die (R3, R235; timing is left out, assumption 3). -/
opaque cycles : Nat → Nat → Nat

/-- The IOD SRAM as the boot ROM reads it before it is initialised (R30). -/
opaque pufSram : Nat → List Byte

/-- SHA-384 of the vendor's RSA-3072 and SLH-DSA root public keys, in mask ROM (R28). -/
opaque romRsaHash : List Byte
opaque romSlhHash : List Byte

/-- The public keys shipped with a signed image; the manual does not say where they stand (R28). -/
opaque shippedRsaKey : List Byte → List Byte
opaque shippedSlhKey : List Byte → List Byte

/-- The fuzzy extractor: PUF read and helper data to the device secret (R30). -/
opaque fuzzyExtract : List Byte → List Byte → List Byte

/-- The deterministic RSA-3072 key of a seed: modulus, public and private exponent (R30). -/
opaque rsaKeygen : List Byte → Nat × Nat × Nat

/-- Version that a firmware header names (R32). -/
opaque fwVersion : List Byte → BitVec 16

/-- MAC of the boot counter under the key that the device secret gives (R32). -/
opaque counterMac : List Byte → BitVec 16 → List Byte

/-- The management controller's random number generator (R59), by draw and number of bytes. -/
opaque random : Nat → Nat → List Byte

/-- Results of die-link training, self-test of a physical cluster of a die, HBM training and SCM mounting at a boot (R33, R35). -/
opaque dieLinksTrain : Nat → Bool
opaque clusterPasses : Nat → Nat → Nat → Bool
opaque hbmTrains : Nat → Bool
opaque scmMounts : Nat → Bool

/-- Which of the entries of a page run that differ an access uses (R47). -/
opaque runPick : Nat → Nat

/-- A byte of memory whose contents the manual leaves undefined (R175, R187), by draw and key. -/
opaque freeByte : Nat → Nat → Byte

/-- Bytes of the parts of a context record whose layout the manual does not give (R295). -/
opaque contextRecord : Nat → List Byte

end Sys2Proof.Config
end

