-- ==== Sys2Proof/Machine/Sha.lean ====
section
/-! DEFINITION. The hash functions that the manual names: SHA-384 with its key derivation HKDF (R27, R30, R31, R61), and SHA-256 and
SHA-512 inside the signatures of R28 (FIPS 180-4, RFC 2104, RFC 5869, RFC 8017). -/

namespace Sys2Proof.Machine

/-! ### Bytes and numbers, most significant first -/

/-- The number that big-endian bytes hold. -/
def ofBeBytes (bs : List Byte) : Nat := ofLeBytes bs.reverse

/-- Big-endian bytes of a number. -/
def beBytes (n x : Nat) : List Byte := (leBytes n x).reverse

/-- Zero bytes. -/
def zeros (n : Nat) : List Byte := List.replicate n 0

/-- The first `n` bytes of a string, padded with zeros. -/
def padTo (n : Nat) (bs : List Byte) : List Byte := bs.take n ++ zeros (n - bs.length)

/-- Pieces of `n` bytes, at most `k` of them. -/
def chunks (n : Nat) : Nat → List Byte → List (List Byte)
  | 0, _ => []
  | k + 1, bs => bs.take n :: chunks n k (bs.drop n)

/-- Bytewise exclusive or. -/
def xorBytes (a b : List Byte) : List Byte := List.zipWith (· ^^^ ·) a b

/-! ### The constants: fractional parts of roots of primes -/

/-- The largest number whose `k`-th power is at most `n`, `x` plus the bits below `2 ^ b`. -/
def rootFrom (k n : Nat) : Nat → Nat → Nat
  | 0, x => x
  | b + 1, x => rootFrom k n b (if (x + 2 ^ b) ^ k ≤ n then x + 2 ^ b else x)

/-- The first 64 bits of the fractional part of the `k`-th root of `p`. -/
def fracRoot (k p : Nat) : Nat := rootFrom k (p * 2 ^ (64 * k)) 70 0 % 2 ^ 64

/-- The first 80 primes. -/
def shaPrimes : List Nat :=
  [2, 3, 5, 7, 11, 13, 17, 19, 23, 29, 31, 37, 41, 43, 47, 53, 59, 61, 67, 71]
    ++ [73, 79, 83, 89, 97, 101, 103, 107, 109, 113, 127, 131, 137, 139, 149, 151, 157, 163, 167, 173]
    ++ [179, 181, 191, 193, 197, 199, 211, 223, 227, 229, 233, 239, 241, 251, 257, 263, 269, 271, 277, 281]
    ++ [283, 293, 307, 311, 313, 317, 331, 337, 347, 349, 353, 359, 367, 373, 379, 383, 389, 397, 401, 409]

/-! ### The two families, by word width -/

/-- A hash function with words of `w` bits: rotations of its four functions, the last of the small ones a shift. -/
structure Sha (w : Nat) where
  big0 : Nat × Nat × Nat
  big1 : Nat × Nat × Nat
  small0 : Nat × Nat × Nat
  small1 : Nat × Nat × Nat
  k : List (BitVec w)
  h0 : List (BitVec w)
  /-- Bytes of the digest. -/
  out : Nat

/-- The upper `w` bits of a 64-bit constant. -/
def shaConst (w x : Nat) : BitVec w := BitVec.ofNat w (x / 2 ^ (64 - w))

/-- SHA-256. -/
def sha256Fn : Sha 32 :=
  { big0 := (2, 13, 22), big1 := (6, 11, 25), small0 := (7, 18, 3), small1 := (17, 19, 10)
    k := (shaPrimes.take 64).map fun p => shaConst 32 (fracRoot 3 p)
    h0 := (shaPrimes.take 8).map fun p => shaConst 32 (fracRoot 2 p), out := 32 }

/-- SHA-512. -/
def sha512Fn : Sha 64 :=
  { big0 := (28, 34, 39), big1 := (14, 18, 41), small0 := (1, 8, 7), small1 := (19, 61, 6)
    k := shaPrimes.map fun p => shaConst 64 (fracRoot 3 p)
    h0 := (shaPrimes.take 8).map fun p => shaConst 64 (fracRoot 2 p), out := 64 }

/-- SHA-384: SHA-512 from another start, cut to 48 bytes. -/
def sha384Fn : Sha 64 :=
  { sha512Fn with h0 := ((shaPrimes.drop 8).take 8).map fun p => shaConst 64 (fracRoot 2 p), out := 48 }

/-- Exclusive or of three rotations. -/
def rot3 {w : Nat} (x : BitVec w) (r : Nat × Nat × Nat) : BitVec w :=
  x.rotateRight r.1 ^^^ x.rotateRight r.2.1 ^^^ x.rotateRight r.2.2

/-- Exclusive or of two rotations and a shift. -/
def rotShift {w : Nat} (x : BitVec w) (r : Nat × Nat × Nat) : BitVec w :=
  x.rotateRight r.1 ^^^ x.rotateRight r.2.1 ^^^ (x >>> r.2.2)

/-- The message schedule, newest word first. -/
def Sha.schedule {w : Nat} (h : Sha w) : Nat → List (BitVec w) → List (BitVec w)
  | 0, ws => ws
  | n + 1, ws =>
    h.schedule n ((rotShift (ws.getD 1 0) h.small1 + ws.getD 6 0 + rotShift (ws.getD 14 0) h.small0 + ws.getD 15 0) :: ws)

/-- One round on the eight working words. -/
def Sha.round {w : Nat} (h : Sha w) (v : List (BitVec w)) (kw : BitVec w × BitVec w) : List (BitVec w) :=
  match v with
  | [a, b, c, d, e, f, g, x] =>
    let t1 := x + rot3 e h.big1 + ((e &&& f) ^^^ (~~~e &&& g)) + kw.1 + kw.2
    let t2 := rot3 a h.big0 + ((a &&& b) ^^^ (a &&& c) ^^^ (b &&& c))
    [t1 + t2, a, b, c, d + t1, e, f, g]
  | _ => v

/-- One block of sixteen words. -/
def Sha.block {w : Nat} (h : Sha w) (v : List (BitVec w)) (bs : List Byte) : List (BitVec w) :=
  let m := (chunks (w / 8) 16 bs).map fun c => BitVec.ofNat w (ofBeBytes c)
  let ws := (h.schedule (h.k.length - 16) m.reverse).reverse
  List.zipWith (· + ·) v ((h.k.zip ws).foldl h.round v)

/-- The padded message. -/
def shaPad (w : Nat) (bs : List Byte) : List Byte :=
  let n := bs.length + 1 + w / 4
  bs ++ [0x80] ++ zeros ((2 * w - n % (2 * w)) % (2 * w)) ++ beBytes (w / 4) (8 * bs.length)

/-- The digest of a byte string. -/
def Sha.hash {w : Nat} (h : Sha w) (bs : List Byte) : List Byte :=
  let p := shaPad w bs
  let v := (chunks (2 * w) (p.length / (2 * w)) p).foldl h.block h.h0
  (v.flatMap fun x => beBytes (w / 8) x.toNat).take h.out

/-- SHA-256, SHA-384 and SHA-512 of a byte string. -/
def sha256 (bs : List Byte) : List Byte := sha256Fn.hash bs
def sha384 (bs : List Byte) : List Byte := sha384Fn.hash bs
def sha512 (bs : List Byte) : List Byte := sha512Fn.hash bs

/-! ### HMAC, HKDF, MGF1 -/

/-- HMAC (RFC 2104). -/
def Sha.hmac {w : Nat} (h : Sha w) (key bs : List Byte) : List Byte :=
  let k0 := if 2 * w < key.length then h.hash key else key
  let k := k0 ++ zeros (2 * w - k0.length)
  h.hash (k.map (· ^^^ 0x5C) ++ h.hash (k.map (· ^^^ 0x36) ++ bs))

/-- The blocks of HKDF's output: the last one, the counter, the blocks left. -/
def hkdfBlocks (prk info : List Byte) : Nat → Nat → List Byte → List Byte
  | 0, _, _ => []
  | n + 1, i, t =>
    let b := sha384Fn.hmac prk (t ++ info ++ [BitVec.ofNat 8 i])
    b ++ hkdfBlocks prk info n (i + 1) b

/-- HKDF-SHA-384 without salt (RFC 5869): `n` bytes for a label. -/
def hkdf (key info : List Byte) (n : Nat) : List Byte :=
  (hkdfBlocks (sha384Fn.hmac (zeros 48) key) info ((n + 47) / 48) 1 []).take n

/-- MGF1 (RFC 8017, B.2.1). -/
def Sha.mgf1 {w : Nat} (h : Sha w) (seed : List Byte) (n : Nat) : List Byte :=
  ((List.range ((n + h.out - 1) / h.out)).flatMap fun i => h.hash (seed ++ beBytes 4 i)).take n

/-- A label as bytes. -/
def labelBytes (s : String) : List Byte := s.toList.map fun c => BitVec.ofNat 8 c.toNat

end Sys2Proof.Machine
end

