-- ==== Sys2Proof/Machine/Aes.lean ====
section
/-! DEFINITION. AES-256 (FIPS 197) in the modes that protect the memory stacks: XTS for HBM (R59), counter mode and GMAC for SCM
(R60). -/

namespace Sys2Proof.Machine

/-! ### The field of bytes -/

/-- Multiply by x. -/
def xtime (a : Byte) : Byte := if a.getLsbD 7 then (a <<< 1) ^^^ 0x1B else a <<< 1

/-- Product of two bytes, over the lowest `n` bits of the second. -/
def aesMul (a : Byte) : Nat → Byte → Byte
  | 0, _ => 0
  | n + 1, b => (if b.getLsbD 0 then a else 0) ^^^ xtime (aesMul a n (b >>> 1))

/-- Powers of a byte. -/
def aesPow (a : Byte) : Nat → Byte
  | 0 => 1
  | n + 1 => aesMul a 8 (aesPow a n)

/-- The substitution of one byte: its inverse, then the affine map. -/
def subByte (a : Byte) : Byte :=
  let i := aesPow a 254
  i ^^^ i.rotateLeft 1 ^^^ i.rotateLeft 2 ^^^ i.rotateLeft 3 ^^^ i.rotateLeft 4 ^^^ 0x63

/-! ### AES-256 -/

/-- Round constants. -/
def rcon : Nat → Byte
  | 0 => 1
  | n + 1 => xtime (rcon n)

/-- The next word of the key schedule from the eight before it, newest first; `i` is its number. -/
def keyWord (i : Nat) (ws : List (List Byte)) : List Byte :=
  let t := ws.getD 0 []
  let u := if i % 8 = 0 then xorBytes ((t.drop 1 ++ t.take 1).map subByte) (rcon (i / 8 - 1) :: zeros 3)
    else if i % 8 = 4 then t.map subByte else t
  xorBytes (ws.getD 7 []) u

/-- The key schedule, newest word first. -/
def keyWords : Nat → Nat → List (List Byte) → List (List Byte)
  | 0, _, ws => ws
  | n + 1, i, ws => keyWords n (i + 1) (keyWord i ws :: ws)

/-- The fifteen round keys of a 32-byte key. -/
def roundKeys (key : List Byte) : List (List Byte) := chunks 16 15 (keyWords 52 8 (chunks 4 8 key).reverse).reverse.flatten

/-- Rows of the state move left by their number; bytes stand column by column. -/
def shiftRows (s : List Byte) : List Byte := (List.range 16).map fun i => s.getD ((i + 4 * (i % 4)) % 16) 0

/-- One column mixed. -/
def mixColumn (c : List Byte) : List Byte :=
  (List.range 4).map fun i => aesMul (c.getD i 0) 8 2 ^^^ aesMul (c.getD ((i + 1) % 4) 0) 8 3 ^^^ c.getD ((i + 2) % 4) 0 ^^^ c.getD ((i + 3) % 4) 0

/-- The cipher on one 16-byte block. -/
def aes (key block : List Byte) : List Byte :=
  let ks := roundKeys key
  let sub := fun s : List Byte => shiftRows (s.map subByte)
  let mid := ((ks.drop 1).take 13).foldl (fun s k => xorBytes (((chunks 4 4 (sub s)).map mixColumn).flatten) k) (xorBytes block (ks.getD 0 []))
  xorBytes (sub mid) (ks.getD 14 [])

/-! ### XTS (R59) -/

/-- The tweak of the next block: times x in GF(2^128), bytes little-endian. -/
def xtsNext (t : List Byte) : List Byte :=
  let n := ofLeBytes t
  leBytes 16 ((2 * n % 2 ^ 128) ^^^ (if n / 2 ^ 127 = 1 then 0x87 else 0))

/-- Blocks encrypted under XTS from a tweak. -/
def xtsBlocks (key : List Byte) : List Byte → List (List Byte) → List Byte
  | _, [] => []
  | t, b :: r => xorBytes (aes key (xorBytes b t)) t ++ xtsBlocks key (xtsNext t) r

/-- AES-256-XTS of whole blocks: a data key, a tweak key, a 16-byte tweak. -/
def aesXts (k1 k2 tweak data : List Byte) : List Byte := xtsBlocks k1 (aes k2 tweak) (chunks 16 (data.length / 16) data)

/-! ### Counter mode and GMAC (R60) -/

/-- Exclusive or of data with one cipher block for each 16 bytes of it. -/
def aesCtr (key : List Byte) (counter : Nat → List Byte) (data : List Byte) : List Byte :=
  xorBytes data ((List.range ((data.length + 15) / 16)).flatMap fun i => aes key (counter i))

/-- Product in the field of GHASH: bit 127 of a big-endian block is the constant term. -/
def ghashMul (x : Nat) : Nat → Nat → Nat
  | 0, _ => 0
  | n + 1, v =>
    let rest := ghashMul x n (if v % 2 = 1 then v / 2 ^^^ (0xE1 * 2 ^ 120) else v / 2)
    if x.testBit n then v ^^^ rest else rest

/-- GHASH of whole blocks. -/
def ghash (h : Nat) (bs : List (List Byte)) : Nat := bs.foldl (fun y b => ghashMul (y ^^^ ofBeBytes b) 128 h) 0

/-- AES-GMAC of whole blocks under a 12-byte nonce (NIST SP 800-38D). -/
def aesGmac (key nonce data : List Byte) : List Byte :=
  let h := ofBeBytes (aes key (zeros 16))
  let y := ghash h (chunks 16 (data.length / 16) data ++ [beBytes 8 (8 * data.length) ++ zeros 8])
  xorBytes (beBytes 16 y) (aes key (nonce ++ beBytes 4 1))

end Sys2Proof.Machine
end

