-- ==== Sys2Proof/Machine/State.lean ====
section
/-! DEFINITION. Everything the manual gives the machine, as plain data: one package, with the wefts, engines, channels,
control plane and management plane of R7. What the state holds is listed in INVENTORY.md. -/

namespace Sys2Proof.Machine

/-! ### Registers of a weft -/

/-- The value of a vector register by its shape tag (R208). -/
inductive VVal where
  /-- U: every lane reads `c`. -/
  | u (c : W32)
  /-- A: lane i reads base + i * stride. -/
  | a (base stride : W32)
  /-- G: 64 independent lane values. -/
  | g (lanes : List W32)
  deriving DecidableEq, Repr

/-- A physical vector register: value, full/empty bit, poison (R205, R226, R286). -/
structure VReg where
  val : VVal
  full : Bool
  pois : Bool
  deriving DecidableEq, Repr

/-- A scalar register: value, full/empty bit, poison (R213, R226, R286). -/
structure SReg where
  val : W64
  full : Bool
  pois : Bool
  deriving DecidableEq, Repr

/-- An index register (R215). -/
structure XReg where
  base : Nat
  bound : Nat
  step : BitVec 4
  mode : BitVec 2
  /-- OFF[i] for the 64 lanes. -/
  off : List (BitVec 8)
  deriving DecidableEq, Repr

/-- One counted instruction of a completion counter (R229, R230). -/
structure CntEntry where
  op : Nat
  done : Bool
  deriving DecidableEq, Repr

/-- Trap causes (R279). -/
inductive Cause where
  | illop | illopnd | shape | bound | uniform | empty | regrange | align | spaddr | page | prot | fpx | swtrap | brk
  | preempt | debug | pfail | softerr | knot | itin | fabric | queue | nested
  deriving DecidableEq, Repr

/-- What a weft that is not ready waits on (R142, R227, R224, R249, R419, R439, R462). -/
inductive Wait where
  /-- An empty register. -/
  | register
  /-- A queue with no entry to pop (R224). -/
  | entry
  /-- A full queue (R224, R225), or the entries that a `waitq` asks for. -/
  | queue
  /-- A barrier. -/
  | barrier
  /-- A knot: its key, and the effective mask of the waiting `kwait`. -/
  | knot (key : Nat) (mask : W64)
  /-- A signal word. -/
  | swait
  /-- Earlier stores to be performed, acknowledged or replayed, or a persist point (R249, R252). -/
  | order
  /-- The completion counter that a `waitc` or `waitall` names (R428, R430). -/
  | counter
  /-- A completion counter at 1,023 (R230). -/
  | count
  /-- A place in an engine or launch queue (R446, R452, R459). -/
  | place
  /-- The itinerary's next task (R457). -/
  | task
  /-- A busy range (R220). -/
  | range
  /-- The step counter to advance (R425). -/
  | step
  /-- Ration (R90). -/
  | ration
  /-- The outstanding-request cap (R94). -/
  | cap
  deriving DecidableEq, Repr

/-- The pipes of a partition (R142, R200): two for vectors, one of each other kind. -/
inductive IssuePipe where
  | vector | scalar | memory | branch | engine
  deriving DecidableEq, Repr

/-- What a weft was found to do when it was looked at in a cycle (R142, R143): its group issued to a pipe, it is not ready, it
is ready and its partition has no issue slot or pipe left, or it has both and ration alone withholds its group from a pipe (R92). -/
inductive Look where
  | issued (p : Option IssuePipe)
  | waits
  | passed
  | withheld (p : Option IssuePipe)
  deriving DecidableEq, Repr

/-- An event held at a weft until a group boundary (R288, R491, R84). -/
inductive WeftEvent where
  /-- FABRIC with its DETAIL and lanes. -/
  | fabric (detail : Nat)
  /-- PAGE or PROT of a replayed store, with the dropped lanes. -/
  | deferred (cause : Cause) (lanes : W64)
  deriving DecidableEq, Repr

/-- A persistence instruction whose persist point is not reached (R422-R424): kind 0 `pbar.pkg`, 1 `pbar.mend`,
2 `pflush`; the range of a `pflush`; the step tag a `pbar.mend` waits for. -/
structure PBar where
  op : Nat
  kind : Nat
  lo : Nat
  len : Nat
  step : Nat
  deriving DecidableEq, Repr

/-- A `fence` that has not completed when its weft goes on: its number, kind and scope (R254, R420). -/
structure PFence where
  op : Nat
  kind : Nat
  scope : Nat
  deriving DecidableEq, Repr

/-- A weft in its slot (R202, R213, R215, R229, R232, R274, R283). -/
structure Weft where
  /-- Logical core and slot 0-63 of the core. -/
  core : Nat
  slot : Nat
  ctx : Nat
  /-- The team's number in `State.teams`. -/
  team : Nat
  /-- Weft number in the team (R128). -/
  wid : Nat
  /-- True for an execute weft (R204). -/
  execRole : Bool
  pc : W64
  em : W64
  dm : W64
  /-- Window base. -/
  wb : Nat
  sregs : List SReg
  vregs : List VReg
  xregs : List XReg
  tm : Bool
  tem : W64
  tdm : W64
  tpc : W64
  tcause : BitVec 8
  tmask : W64
  tinfo : W64
  fpmode : BitVec 9
  fpflags : BitVec 5
  seed : W32
  rctr : W32
  rgnpc : W64
  rgncnt : W32
  rgnem : W64
  err : Bool
  /-- Completion counters c0-c5, oldest entry first. -/
  cnt : List (List CntEntry)
  /-- Busy ranges of pending indirect loads: (operation, base, bound) (R220). -/
  busy : List (Nat × Nat × Nat)
  /-- The access whose fate is not settled (R52). -/
  unsettled : Option Nat
  /-- The parked access: a load, an atomic with return or a fetch (R282). -/
  parked : Option Nat
  /-- What the group at `pc` waits on, when it was found not ready. -/
  waiting : Option Wait
  /-- Cycles of a sleep left, that of its issue among them (R329). -/
  sleep : Nat
  /-- Not ready in the next cycle after `yield` (R329). -/
  yielded : Bool
  /-- Issue-age counter and the 256-cycle ready count (R143). -/
  age : Nat
  readyCnt : Nat
  /-- The model's own: what the weft was found to do in this cycle; none before it is looked at. -/
  looked : Option Look
  /-- Halted by the debugger; RELEASE mark; single STEP pending (R291, R294). -/
  halted : Bool
  /-- A debug halt has reached the weft inside a group, and waits for its boundary (R237, R288). -/
  halting : Bool
  released : Bool
  stepping : Bool
  /-- A pre-emption has reached the weft; cycles since (R289). -/
  preempt : Bool
  preemptAge : Nat
  /-- Stopped for a save: the STOP code (R297). -/
  stopped : Option Cause
  events : List WeftEvent
  /-- Step hold (R178, R425). -/
  hold : Bool
  /-- Has issued `trig` or exited (R131). -/
  triggered : Bool
  exited : Bool
  /-- Injected exit pending (R148). -/
  injected : Bool
  /-- `itn.done` issued for the current task; waiting in `itn.next`; the answer that ends the wait (R457, R162). -/
  itnDone : Bool
  itnNext : Bool
  itnAnswer : Option W64
  /-- Of a waiting `itn.next`: the scalar register that it writes, and `itnDone` as it was before it. -/
  itnReg : Option Nat
  itnWas : Bool
  /-- `shcopy` instructions issued (R445). -/
  shcopies : Nat
  /-- The barrier arrived at by the waiting `bar.team` or `bar.role` group (R462). -/
  arrived : Option Nat
  /-- Persistence instructions whose point is not reached, oldest first (R268). -/
  pbars : List PBar
  /-- Largest step tag of the weft's stores into an armed snapshot region (R423). -/
  snapStep : Nat
  /-- The latest `fence` that its weft went on past (R420). -/
  fence : Option PFence
  /-- PL re-issue after `tret`: the group issues under `em AND guard AND NOT dm` once (R276). -/
  narrow : Bool
  deriving DecidableEq, Repr

/-! ### Memory accesses -/

/-- What an access does (R410, R411, R413, R418, R419, R459). -/
inductive AccKind where
  | load
  | store
  | atomic (minor : BitVec 5) (ret : Bool)
  | sigAdd
  | sigSet
  /-- 0 ge, 1 eq, 2 ne against the value. -/
  | swait (cond : Nat) (val : W64)
  /-- The read of an instruction line over the fabric. -/
  | fetch
  /-- The read of a launch record (R459): D, and for `lnch.dep` B and its EARLY bit. -/
  | launch (d : Opnd) (b : Option Opnd) (early : Bool)
  deriving DecidableEq, Repr

/-- How far one lane's access has come (R50, R52, R54, R83). -/
inductive LaneSt where
  /-- Sent, not answered. -/
  | waiting
  /-- Accepted at the physical key. -/
  | ready (key : Nat)
  /-- Performed. -/
  | done
  /-- A non-replayable outcome, with the DETAIL of FABRIC. -/
  | bad (c : Cause) (detail : Nat)
  /-- A replayable outcome: KIND and LEVEL of the fault record. -/
  | replay (kind level : Nat)
  /-- Held in the channel's fault buffer (R54). -/
  | held
  /-- In the combining buffer, or on its way in packet `pid` (R78). -/
  | combined
  | sent (pid : Nat)
  /-- Dropped with an error reported as an event (R84, R491). -/
  | dropped
  deriving DecidableEq, Repr

/-- One lane's access: address, operand value, swap value and progress. -/
structure LaneAcc where
  lane : Nat
  ea : W64
  data : Nat
  swap : Nat
  st : LaneSt
  deriving DecidableEq, Repr

/-- Where a load's value goes (R409, R217). -/
inductive Dest where
  | discard
  | sreg (n : Nat)
  /-- Physical registers, lowest first, written whole lanes at a time. -/
  | vregs (pv : List Nat)
  /-- Per-lane physical registers of an index-register destination. -/
  | xregs (pv : List (Nat × List Nat))
  deriving DecidableEq, Repr

/-- A memory access of one group, from issue until it is performed (R52, R245). -/
structure Access where
  id : Nat
  core : Nat
  slot : Nat
  ctx : Nat
  /-- Address of the group and of the next one, and what the group adds to `rctr`. -/
  pc : W64
  next : W64
  rstep : W32
  kind : AccKind
  size : Nat
  signExt : Bool
  scalar : Bool
  dst : Dest
  /-- Effective mask at issue. -/
  mask : W64
  lanes : List LaneAcc
  /-- Fate decided (R52). -/
  settled : Bool
  /-- In the replay queue (stores) or parked with its weft (R248, R282). -/
  parked : Bool
  /-- Replayed after its weft moved on (R491). -/
  replayed : Bool
  /-- NT tier of a fabric store (R73). -/
  nt : Bool
  /-- Step number the store carries (R178). -/
  step : Nat
  /-- Counter it is counted on. -/
  cnt : Option Nat
  /-- Granule mask (R43). -/
  gm : BitVec 8
  /-- Held back by a `pbar.*` of its weft (R422). -/
  heldBy : Option Nat
  /-- An acquire: the weft goes on once it is performed (R251). -/
  acq : Bool
  /-- Offset updates of its indirect operands, applied when its fate is decided (R219): index register, lane, offset. -/
  offs : List (Nat × Nat × BitVec 8)
  /-- The operation that its counter counts (R229). -/
  op : Nat
  /-- Its place in the core store order, once it has entered it (R246). -/
  ord : Option Nat
  /-- Bytes that the core split off a combined write whose peer faulted it (R490). -/
  split : Bool
  deriving DecidableEq, Repr

/-- An entry of a source combining buffer (R78). -/
structure CombEntry where
  core : Nat
  ctx : Nat
  peer : Nat
  /-- F[53:7]. -/
  line : Nat
  nt : Bool
  /-- Offset, value and the slot of the weft that supplied it. -/
  bytes : List (Nat × Byte × Nat)
  /-- The accesses combined here. -/
  accs : List Nat
  /-- Cycles since its last write. -/
  age : Nat
  deriving DecidableEq, Repr

/-- What a request packet serves (R72). -/
inductive PktUse where
  /-- Memory accesses of wefts. -/
  | access
  /-- A sector of an engine command. -/
  | engine (cmd : Nat)
  /-- A post, credit or token of the itinerary (R167), with the slot of the weft that posted it. -/
  | itin (slot : Option Nat)
  /-- A parity delta of step `n` (R190). -/
  | delta (n : Nat)
  /-- A line of a rebuilt unit on its way to the spare, and a heartbeat (R192, R194). -/
  | rebuild
  | heartbeat
  /-- The read of a WAITV's word: its context, queue and number (R116). -/
  | waitv (c q id : Nat)
  deriving DecidableEq, Repr

/-- A request packet not yet answered (R72, R76). -/
structure Packet where
  pid : Nat
  core : Nat
  ctx : Nat
  /-- Header (R72): FJOB, the peer, its SPORT as the packet was injected (R70), the line, its granule mask. -/
  fjob : BitVec 16
  peer : Nat
  sport : BitVec 9
  line : Nat
  gm : BitVec 8
  tier : Nat
  plane : Nat
  op : FabOp
  bytes : List (Nat × Byte × Nat)
  /-- Lane operations of an atomic: offset in the line, operand, swap. -/
  ops : List (Nat × BitVec 64 × BitVec 64)
  /-- The accesses and lanes it carries. -/
  accs : List Nat
  lanes : List Nat
  use : PktUse
  /-- It has left its port; until then it stands in the request VC of its tier (R80). -/
  sent : Bool
  resent : Bool
  deriving DecidableEq, Repr

/-- An answer in the response VC of its tier at a port (R76, R80). -/
structure Resp where
  plane : Nat
  tier : Nat
  peer : Nat
  seq : Nat
  flits : Nat
  res : FabResult
  deriving DecidableEq, Repr

/-- A cached leaf of a translation unit (R49). -/
structure TlbEntry where
  chan : Nat
  ctx : Nat
  /-- Page base and size. -/
  base : Nat
  size : Nat
  leaf : W64
  deriving DecidableEq, Repr

/-- A pointer in a walk cache (R49). -/
structure WalkEntry where
  chan : Nat
  ctx : Nat
  /-- Level the pointer was read at, and VA bits above it. -/
  level : Nat
  pfx : Nat
  ptr : W64
  deriving DecidableEq, Repr

/-- A held request of a channel fault buffer, or a unit already reported (R54). -/
structure FaultHold where
  chan : Nat
  ctx : Nat
  unit : Nat
  /-- The access held, none for the report itself. -/
  acc : Option Nat
  deriving DecidableEq, Repr

/-- A line of an instruction cache (R200, R236). -/
structure ICLine where
  core : Nat
  ctx : Nat
  va : Nat
  bytes : List Byte
  deriving DecidableEq, Repr

/-- The counter block of one 4 KiB SCM group (R60, R61). -/
structure CtrBlock where
  chan : Nat
  group : Nat
  major : Nat
  minors : List Nat
  keyver : Nat
  /-- Moved ahead of the scrubber (R62). -/
  early : Bool
  deriving DecidableEq, Repr

/-- A node of a channel's counter tree (R60): level 1 stands over the counter blocks, level 8 is the root. -/
structure TreeNode where
  chan : Nat
  level : Nat
  idx : Nat
  /-- Eight 56-bit child counters, and how often what is under each child has moved to a new key version (R61). -/
  ctrs : List Nat
  moves : List Nat
  deriving DecidableEq, Repr

/-- The encryption counters of SCM: blocks and nodes that a write has changed (R60). -/
structure Counters where
  blocks : List CtrBlock
  nodes : List TreeNode
  deriving DecidableEq, Repr

/-- Scrubber state of an SCM channel: position, and per 1 GiB region VCUR and boundary (R62). -/
structure Scrub where
  chan : Nat
  pos : Nat
  vcur : List Nat
  boundary : List Nat
  /-- Key rotation has stopped, with VCUR at 0xFFFF. -/
  stopped : Bool
  /-- Oldest key version whose key is not erased. -/
  oldest : Nat
  deriving DecidableEq, Repr

/-- A frame of a snapshot unit: channel-local frame base (as a physical key) and tag (R177). -/
structure Frame where
  key : Nat
  tag : Nat
  /-- Senders and lines of the parity deltas taken in (R199). -/
  taken : List (Nat × Nat)
  deriving DecidableEq, Repr

/-- The map entry of a snapshot unit (R177). -/
structure SnapUnit where
  region : Nat
  va : Nat
  chan : Nat
  /-- Key of the home frame. -/
  home : Nat
  frames : List Frame
  /-- The home frame is served from a landing copy at this VA until backfilled (R194). -/
  landing : Option Nat
  deriving DecidableEq, Repr

/-- What a hamper entry carries besides line bytes (R60, R172, R177, R182). -/
inductive HampMeta where
  /-- A counter block with the tree nodes above it. -/
  | counter (b : CtrBlock) (path : List TreeNode)
  /-- A map entry of a snapshot unit. -/
  | unit (u : SnapUnit)
  /-- C, M and the DONE messages received: (peer, step). -/
  | steps (c m : Nat) (dones : List (Nat × Nat))
  /-- The map entries of a released region go: those of this hamper's channels. -/
  | release (region : Nat)
  /-- The region table of a channel's scrubber, with the counter block of the group that it has encrypted again (R62). -/
  | scrub (x : Scrub) (b : Option CtrBlock)
  deriving DecidableEq, Repr

/-- A hamper entry: a write accepted and not yet in the stack (R172). -/
structure HampEntry where
  stack : Nat
  /-- Physical key of each byte, with its value. -/
  bytes : List Host.Cell
  /-- Step tag of a snapshot write. -/
  tag : Nat
  data : Option HampMeta
  deriving DecidableEq, Repr

/-- What the device keeps in reserved SCM through the hampers (R60, R177, R182, R199). -/
structure Reserved where
  ctrs : Counters
  /-- Region tables of the scrubbers (R62). -/
  scrub : List Scrub
  units : List SnapUnit
  c : Nat
  m : Nat
  dones : List (Nat × Nat)
  /-- Stacks on which the seal record of a power-fail sequence stands (R103). -/
  seals : List Nat
  deriving DecidableEq, Repr

/-- Refreshes owed by an HBM bank, and the block of an alert (R64). -/
structure BankRef where
  chan : Nat
  bank : Nat
  owed : Nat
  deriving DecidableEq, Repr

/-! ### Launches and teams -/

/-- A launch record (R126). -/
structure LaunchRec where
  entry : W64
  gx : Nat
  gy : Nat
  gz : Nat
  wpt : Nat
  nacc : Nat
  rega : Nat
  rege : Nat
  refill : Nat
  cspad : Nat
  lspad : Nat
  dspad : Nat
  stage : Nat
  cosres : Bool
  lprio : Nat
  hdl : Nat
  param : W64
  pipe : W64
  dep0 : Nat
  dep1 : Nat
  early0 : Bool
  early1 : Bool
  /-- Reserved fields and bits that are not zero. -/
  badRsv : Bool
  deriving DecidableEq, Repr

/-- A dependency of a launch on another launch of its context (R130, R459). -/
structure Dep where
  serial : Nat
  early : Bool
  deriving DecidableEq, Repr

/-- A launch from its queue to completion (R130-R136). -/
structure Launch where
  ctx : Nat
  serial : Nat
  lrec : LaunchRec
  /-- VA of the launch record (s1 of its wefts). -/
  lva : W64
  deps : List Dep
  /-- Next team to claim. -/
  nextTeam : Nat
  /-- Teams placed, teams retired. -/
  placed : Nat
  retired : Nat
  /-- The die whose launch queue it entered; none for a host launch (R132). -/
  die : Option Nat
  /-- The LAUNCH command that waits on it: context, queue, command (R116). -/
  cmd : Option (Nat × Nat × Nat)
  /-- Placed for the itinerary (R161): kernel index. -/
  itn : Option Nat
  /-- The itinerary's record of its current task: slot of TASKVA. -/
  task : Option Nat
  warm : Bool
  /-- Waited for placement, in expiries of 1 ms (R145). -/
  waited : Nat
  deriving DecidableEq, Repr

/-- The matrix command a team's sequencer holds (R452, R453). -/
structure MatCmd where
  id : Nat
  /-- MMA minor. -/
  op : Nat
  rem : Nat
  total : Nat
  abase : Nat
  bbase : Nat
  cbase : Nat
  ainc : Nat
  binc : Nat
  obase : Nat
  ofmt : Nat
  /-- f32 scale of `mscal`. -/
  scale : W32
  /-- SAT and rounding mode captured at issue. -/
  sat : Bool
  rm : Nat
  tok : Option W64
  slot : Nat
  status : Nat
  deriving DecidableEq, Repr

/-- A resident team (R134, R222, R445, R447, R461). -/
structure Team where
  id : Nat
  ctx : Nat
  serial : Nat
  /-- Linear index. -/
  idx : Nat
  core : Nat
  nweft : Nat
  nacc : Nat
  /-- Bases of its allocations inside its core, cluster and die scratchpads. -/
  cbase : Nat
  csize : Nat
  lbase : Nat
  lsize : Nat
  dbase : Nat
  dsize : Nat
  refill : Nat
  q0 : List W64
  q1 : List W64
  q2 : List W64
  q5 : List W32
  q6 : List W64
  q7 : List W64
  /-- Token places reserved in q0, q1, q2 (R225). -/
  res0 : Nat
  res1 : Nat
  res2 : Nat
  /-- Arrival masks of the eight barriers. -/
  bars : List (BitVec 32)
  /-- Wefts that have exited. -/
  exitedMask : BitVec 32
  mcfg : BitVec 10
  ncfg : BitVec 2
  mcmds : List MatCmd
  deriving DecidableEq, Repr

/-- A shuttle or near-memory command (R442, R444, R454). -/
structure EngCmd where
  id : Nat
  /-- SHUT minor 0-4, or 5 for `nmv`. -/
  op : Nat
  core : Nat
  slot : Nat
  ctx : Nat
  team : Nat
  pc : W64
  /-- Descriptor registers as read at issue. -/
  desc : List W64
  /-- Effective mask and lane values of B (`shgath`, `shscat`). -/
  mask : W64
  idx : List W32
  tok : Option W64
  scope : Nat
  step : Nat
  /-- Collective number of an `shcopy` slice (R445). -/
  coll : Option Nat
  /-- An `shcopy` slice with an empty mask (R445). -/
  vacant : Bool
  started : Bool
  /-- Chunks that the skip map read at the start marks. -/
  skip : List Nat
  /-- Sectors performed or failed. -/
  sectors : List Nat
  /-- Chunks with a failed byte. -/
  failed : List Nat
  /-- Units of 4 KiB whose fault is recorded (R435). -/
  units : List Nat
  /-- The sector whose packets are out, the packets not answered, the lines answered, and whether they are its writes. -/
  cur : Option Nat
  pids : List Nat
  got : List (Nat × FabResult)
  writing : Bool
  /-- First error of that sector. -/
  secCode : Nat
  status : Nat
  ncfg : BitVec 2
  deriving DecidableEq, Repr

/-- A scratchpad allocation, or the memory of the last one: level 0 core, 1 cluster, 2 die (R133, R134). -/
structure SpadAlloc where
  level : Nat
  unit : Nat
  base : Nat
  len : Nat
  ctx : Nat
  /-- Team id (levels 0, 1) or launch serial (level 2). -/
  owner : Nat
  live : Bool
  deriving DecidableEq, Repr

/-- A running stage pipeline (R138-R141). -/
structure Pipe where
  id : Nat
  ctx : Nat
  va : W64
  nstage : Nat
  nvar : Nat
  hyst : Nat
  qdie : Nat
  qdep : List Nat
  vmin : List (List Nat)
  vmax : List (List Nat)
  /-- Serial of each stage's launch. -/
  serials : List (Option Nat)
  started : Bool
  variant : Nat
  queues : List (List W64)
  /-- Entries of the stage queues that are poisoned: stage and place from the head (R286). -/
  qpois : List (Nat × Nat)
  closed : List Bool
  /-- Base of the queues in the die scratchpad of QDIE. -/
  qbase : Nat
  /-- Cores reserved or passed on to a stage (R138, R140): logical core and stage. -/
  cores : List (Nat × Nat)
  /-- B_k of the current phase. -/
  busy : List Nat
  deriving DecidableEq, Repr

/-! ### Contexts and queues -/

/-- A context descriptor as last read (R110). -/
structure CtxDesc where
  hroot : W64
  sroot : W64
  fjob : BitVec 16
  cprio : Nat
  admin : Bool
  pdl : Nat
  tvec : W64
  save : W64
  fqbase : W64
  fqlog : Nat
  fqvec : Nat
  seed : W32
  fqwaddr : W64
  qtab : W64
  deriving DecidableEq, Repr

/-- CTXST.STATE (R111). -/
inductive CtxSt where
  | free | running | preempting | preempted | resuming | tearing
  deriving DecidableEq, Repr

/-- Why a context is pre-empted (R145, R119). -/
inductive PreReason where
  | command | slice | device
  deriving DecidableEq, Repr

/-- A fault record (R53). -/
structure FaultRec where
  va : W64
  lmask : W64
  kind : Nat
  level : Nat
  acc : Nat
  core : Nat
  slot : Nat
  seq : W32
  pclo : W32
  deriving DecidableEq, Repr

/-- The structural part of a context save record (R295). -/
structure Saved where
  wefts : List Weft
  teams : List Team
  accs : List Access
  allocs : List SpadAlloc
  spad : List Host.Cell
  /-- Poisoned scratchpad words of the allocations. -/
  pois : List Nat
  cmds : List EngCmd
  /-- Offset and length in the save area of every sealed record (R295). -/
  recs : List (Nat × Nat)
  deriving DecidableEq, Repr

/-- A context (R110, R111, R120, R130). -/
structure Context where
  st : CtxSt
  devpre : Bool
  fqovf : Bool
  lasterr : BitVec 8
  desc : CtxDesc
  /-- CTXBASE. -/
  base : W64
  /-- Fault-queue write index, FQRIDX, record number, and records that wait for space. -/
  fqwi : W32
  fqri : W32
  fqseq : W32
  fqheld : List FaultRec
  nextSerial : Nat
  /-- Launch that most recently claimed each handle. -/
  handles : List (Nat × Nat)
  reason : PreReason
  /-- The CTX commands that wait for the pre-emption, resume or teardown to end: context, queue, command. -/
  waiters : List (Nat × Nat × Nat)
  saved : Option Saved
  deriving DecidableEq, Repr

/-- A fetched command record (R115, R116), with a number of the model's own. -/
structure Cmd where
  id : Nat
  op : Nat
  flags : Nat
  tag : Nat
  sigaddr : W64
  sigval : W64
  /-- The 40 payload bytes. -/
  pay : List Byte
  /-- A started MAP or UNMAP: the accesses that used a translation it dropped (R51). -/
  pend : List Nat
  deriving DecidableEq, Repr

/-- A command queue with its registers (R112, R113). -/
structure Queue where
  en : Bool
  base : W64
  qlog : Nat
  qprio : Nat
  loc : Bool
  qvec : Nat
  riaddr : W64
  qwi : W32
  ri : W32
  st : BitVec 3
  err : BitVec 8
  /-- Fetched and not started; started and not completed. -/
  fetched : List Cmd
  running : List Cmd
  deriving DecidableEq, Repr

/-! ### Itinerary, snapshots, mending -/

/-- A running or retired task of the itinerary (R160, R162). -/
structure Task where
  /-- Record slot of TASKVA. -/
  slot : Nat
  entry : Nat
  kind : Nat
  mb : Nat
  serial : Nat
  nout : Nat
  /-- RES before the reservation. -/
  resBase : Nat
  posts : Nat
  usedA : Bool
  usedG : Bool
  freeAtEnd : Bool
  deriving DecidableEq, Repr

/-- The itinerary sequencer (R150-R168). -/
structure Itin where
  bound : Option Nat
  loaded : Bool
  /-- 0 stopped, 1 running, 2 paused, 3 error. -/
  st : Nat
  err : Nat
  errEntry : Nat
  header : List Byte
  entries : List (W64 × W64)
  head : Nat
  /-- Entries after the head that W-fill has dispatched. -/
  ahead : List Nat
  resA : Nat
  resG : Nat
  consA : Nat
  consG : Nat
  /-- Control-block words as last read. -/
  aarr : List W64
  garr : List W64
  dnfreed : W64
  upfreed : W64
  syncf : W64
  syncb : W64
  /-- Stash slot to micro-batch. -/
  stash : List (Option Nat)
  tasks : List Task
  /-- Ordinal of the current SYNC and how far it has come. -/
  syncs : Nat
  syncPhase : Nat
  /-- STEPEND: dies that have been sent n + 1 and dies that have acknowledged. -/
  stepSent : Bool
  acks : List Nat
  counters : List W64
  dispatched : Nat
  upd : Nat
  stalled : Bool
  /-- The counter that this cycle counts in, told as it starts; none where the itinerary did not run then (R166). -/
  reason : Option Nat
  /-- The STEP stop that waits: context, queue, command. -/
  stopper : Option (Nat × Nat × Nat)
  deriving DecidableEq, Repr

/-- A snapshot region (R174). -/
structure Region where
  num : Nat
  ctx : Nat
  va : Nat
  len : Nat
  pools : List (Nat × Nat)
  /-- Frames the pools have given, and the free ones: channel and physical key. -/
  given : List (Nat × Nat)
  free : List (Nat × Nat)
  deriving DecidableEq, Repr

/-- A mending group (R186). -/
structure Group where
  k : Nat
  m : Nat
  members : List Nat
  parva : Nat
  preg : Nat
  hbmiss : Nat
  hbp : Nat
  ushard : Nat
  landva : Nat
  landlen : Nat
  mstat : W64
  spares : List Nat
  /-- A spare declaration. -/
  spare : Bool
  /-- The peer id under which this package belongs to the group (R186), the lost member's on a spare that stands in for it (R194). -/
  me : Nat
  deriving DecidableEq, Repr

/-- The snapshot coordinator and the darners (R182-R197). -/
structure Snap where
  regions : List Region
  units : List SnapUnit
  c : Nat
  m : Nat
  group : Option Group
  /-- 0 none ... 6 lost (R191). -/
  st : Nat
  failed : Nat
  enc : Nat
  upd : Nat
  /-- DONE(n) messages received: (peer, n). -/
  dones : List (Nat × Nat)
  /-- Steps whose deltas this member has sent, and the lines of them that were accepted: (step, peer, line) (R199). -/
  encoded : List Nat
  accepted : List (Nat × Nat × Nat)
  /-- Members lost so far. -/
  lost : List Nat
  /-- Heartbeats that each member has missed in a row, and cycles since the last one was sent (R192). -/
  missed : List (Nat × Nat)
  beat : Nat
  /-- The rebuild as the spare sees it: lines of units received, (unit, line), and the version they are of (R194). -/
  lines : List (Nat × Nat)
  version : Nat
  /-- Start step of the latest STEP start (R181), and the last step that all four dies acknowledged (R182). -/
  startStep : Nat
  acked : Nat
  /-- SNAP awaits: context, queue, command, step. -/
  awaits : List (Nat × Nat × Nat × Nat)
  /-- The MEND command in progress: context, queue, command. -/
  mender : Option (Nat × Nat × Nat)
  deriving DecidableEq, Repr

/-! ### Power, boot, host link, debug -/

/-- The ration counter of a cluster, in 1/256 units (R89). -/
structure Ration where
  c : Int
  rate : Nat
  mthr : Int
  debits : Nat
  /-- Matrix and other debits demanded in this interval, in units, those of withheld instructions among them (R92). -/
  dm : Nat
  dv : Nat
  /-- Thermal throttle engaged on this cluster (R95). -/
  hot : Bool
  deriving DecidableEq, Repr

/-- The power-fail sequence (R103, R104). -/
inductive PfPhase where
  | idle | stopping | closed | drained | sealed | level2 | halted
  deriving DecidableEq, Repr

/-- A context that level 2 saved to reserved SCM, sealed (R104). -/
structure L2Save where
  ctx : Nat
  /-- The records in the order written, each with its seal, and the header after them if it was reached (R295); one that was cut short has no
  seal and is not listed. -/
  recs : List (List Byte)
  x : Context
  saved : Saved
  launches : List Launch
  pipes : List Pipe
  itin : Option Itin
  deriving DecidableEq, Repr

/-- Power, current and thermal control (R86-R106). -/
structure Power where
  step : Nat
  /-- Points of the clocks (VFAB: of the lanes), and of the voltages (R86, R87). -/
  mop : Nat
  vop : Nat
  fop : Nat
  mvlt : Nat
  vvlt : Nat
  fvlt : Nat
  /-- Targets of glides in progress. -/
  mopT : Nat
  vopT : Nat
  fopT : Nat
  psel : BitVec 3
  pselLatched : BitVec 3
  limiter : Nat
  pfact : Bool
  pkgcap : BitVec 12
  pcap : List (BitVec 12)
  icap : BitVec 12
  icapEn : Bool
  holdup : BitVec 16
  icclim : BitVec 24
  oreqcfg : BitVec 13
  rations : List Ration
  /-- T2 injection and SCM patrol stopped (R81, R62). -/
  t2off : Bool
  /-- A cap fell since the last control interval (R100). -/
  capFell : Bool
  /-- Cycles of this control interval (R92). -/
  icyc : Nat
  /-- Intervals in a row with room for the step below (R101). -/
  below : Nat
  /-- The thermal trip limit holds step 7 (R95). -/
  trip : Bool
  thermtripN : Bool
  pf : PfPhase
  /-- Level 2: contexts saved, and bytes it can still write (R104). -/
  l2 : List L2Save
  l2left : Nat
  /-- Line requests of each cluster in flight as this cycle started, with those of the groups issued in it (R94). -/
  reqs : List Nat
  deriving DecidableEq, Repr

/-- A firmware slot of reserved SCM (R32): the signed bytes are the header and the image. Where the header holds the version,
and how wide it is, the manual does not say (assumption 85). -/
structure FwSlot where
  header : List Byte
  image : List Byte
  sigRsa : List Byte
  sigSlh : List Byte
  deriving DecidableEq, Repr

/-- Boot states (R33). -/
inductive BootSt where
  /-- VAUX absent. -/
  | off
  | rom | brchk | ident | fwload | dies | meminit | ready | fail
  deriving DecidableEq, Repr

/-- Boot and identity (R27-R36). -/
structure Boot where
  st : BootSt
  cause : BitVec 8
  brcopy : BitVec 3
  fwslot : Bool
  fwver : BitVec 16
  scmrsv : BitVec 16
  harvest : BitVec 32
  serial : List Byte
  fwfloor : BitVec 32
  record : List Byte
  /-- The PUF SRAM as read, and the device secret once it is derived (R30). -/
  puf : List Byte
  secret : List Byte
  /-- The boot counter and its MAC in reserved SCM; no MAC before the first boot that wrote one (R32, assumption 85). -/
  bootctr : BitVec 16
  bootMac : Option (List Byte)
  slotA : Option FwSlot
  slotB : Option FwSlot
  /-- MEMINIT has ended; READY waits for PERST_N (R34). -/
  mounted : Bool
  readyPending : Bool
  /-- The XTS data key and tweak key of HBM, drawn at MEMINIT (R59). -/
  xtsData : List Byte
  xtsTweak : List Byte
  deriving DecidableEq, Repr

/-- A mailbox (R109, R124). -/
structure Mailbox where
  busy : Bool
  done : Bool
  err : Bool
  len : Nat
  data : List Host.Cell
  deriving DecidableEq, Repr

/-- What the device has sent out, newest first: what a host, a board controller, a peer or a debugger sees. -/
inductive Out where
  /-- MSI-X vector raised. -/
  | msix (vec : Nat)
  /-- A BAR0 write completed with Unsupported Request. -/
  | unsupported (off : Nat)
  /-- A configuration request answered; the device names its part (R1). -/
  | config (part : Nat)
  /-- I3C read data, an in-band interrupt byte. -/
  | i3cData (bytes : List Byte)
  | ibi (b : Byte)
  /-- A fabric answer to a peer, on the plane of its request (R76), and a request as a port sends it to a switch port (R72). -/
  | fabric (peer seq plane : Nat) (r : FabResult)
  | request (port : BitVec 9) (r : FabReq)
  /-- DONE(n) to a member. -/
  | doneMsg (peer n : Nat)
  /-- A value read by the debugger. -/
  | debug (v : W64)
  /-- A line of the management error log, with the physical place (R5): patrol, refresh, corrected errors. -/
  | log (what : String) (place : List Nat)
  /-- A failed command as the host learns of it: context, queue, the host's tag, the code (R115, R118). -/
  | error (ctx q tag code : Nat)
  deriving DecidableEq, Repr

/-- Host link, board interface, alerts (R107-R109, R122-R125). -/
structure HostIf where
  width : BitVec 5
  rate : BitVec 2
  cxl : Bool
  bar0 : W64
  perst : Bool
  mb : Mailbox
  imb : Mailbox
  /-- The mailbox whose quote runs, and whether the other waits: 0 host, 1 I3C. -/
  quote : Option Nat
  quoteWait : Option Nat
  alertst : BitVec 9
  alerten : BitVec 9
  ibiOn : Bool
  i3cAddr : BitVec 7
  /-- Register offset of the last private write, and bytes written so far of a register. -/
  i3cOff : Nat
  /-- Ranges of host physical addresses that the host does not answer: base and length (R118). -/
  holes : List (Nat × Nat)
  out : List Out
  deriving DecidableEq, Repr

/-- A peer-table entry (R69). -/
structure Peer where
  v : Bool
  sport : BitVec 9
  st : BitVec 2
  planes : BitVec 36
  deriving DecidableEq, Repr

/-- The fabric port side (R67-R84). -/
structure Fabric where
  pkgid : BitVec 9
  sport : BitVec 9
  trained : Bool
  peers : List (Nat × Peer)
  /-- Planes that are up, and those that have gone down and not come back (R123). -/
  up : BitVec 36
  fell : BitVec 36
  /-- Starvation counters of T1 and T2 per port (R81). -/
  starve : List (Nat × Nat)
  /-- The last 64 requests answered per source (R76). -/
  dup : List (Nat × Nat × FabResult)
  packets : List Packet
  resps : List Resp
  comb : List CombEntry
  deriving DecidableEq, Repr

/-! ### The whole machine -/

/-- The state of one DMN-GW5 package. -/
structure State where
  boot : Boot
  power : Power
  host : HostIf
  fab : Fabric
  ctxs : List Context
  queues : List ((Nat × Nat) × Queue)
  wefts : List Weft
  teams : List Team
  launches : List Launch
  pipes : List Pipe
  cmds : List EngCmd
  allocs : List SpadAlloc
  accs : List Access
  /-- Vector pipes that a group still holds: core, partition, cycles (R142). -/
  vbusy : List (Nat × Nat × Nat)
  icache : List ICLine
  tlb : List TlbEntry
  wcache : List WalkEntry
  holds : List FaultHold
  /-- Memory in canonical form: HBM, SCM stacks, scratchpads and host memory under disjoint keys. -/
  mem : List Host.Cell
  /-- Keys of poisoned lines and scratchpad words (R63, R286). -/
  pois : List Nat
  hamp : List HampEntry
  /-- Encryption counters as the controllers hold them, and what reserved SCM holds (R60, R172). -/
  ctrs : Counters
  rsv : Reserved
  scrub : List Scrub
  banks : List BankRef
  /-- CMPLINES and PLNLINES of the eight stacks (R58). -/
  cmplines : List W64
  plnlines : List W64
  itin : Itin
  snap : Snap
  /-- The step counter, and the `step` register of each die (R164, R165). -/
  stepCtr : W64
  dieStep : List W64
  /-- Die cycle counters (R235). -/
  clocks : List W64
  /-- The context the debugger is attached to (R291). -/
  debug : Option Nat
  /-- The model's own: operation numbers, free-value draws, the events that come next, and the weft that issues when
  none does. -/
  nextId : Nat
  draws : Nat
  agenda : List Instr
  focus : Nat × Nat
  deriving DecidableEq, Repr

/-- Why the model stops. Every reason is safe: no statement about a next state is about a state that stopped. -/
inductive Fault where
  /-- Raised by every encoded instruction when no weft issues (the slot `State.focus` names is empty). Safe: there is
  no weft whose state the instruction could change. -/
  | noWeft
  deriving DecidableEq, Repr

/-- Refusals. -/
inductive Refusal where
  /-- Raised by a dispatch arm whose instruction has no meaning yet. Safe. -/
  | notModelled (mnemonic : String)
  deriving DecidableEq, Repr

/-! ### Reset -/

/-- A context that is free (R111). -/
def CtxDesc.zero : CtxDesc :=
  { hroot := 0, sroot := 0, fjob := 0, cprio := 0, admin := false, pdl := 0, tvec := 0, save := 0, fqbase := 0,
    fqlog := 0, fqvec := 0, seed := 0, fqwaddr := 0, qtab := 0 }

/-- The registers of a context that is free (R111, R120). -/
def Context.free : Context :=
  { st := .free, devpre := false, fqovf := false, lasterr := 0, desc := CtxDesc.zero, base := 0, fqwi := 0,
    fqri := 0, fqseq := 0, fqheld := [], nextSerial := 1, handles := [], reason := .command, waiters := [],
    saved := none }

/-- A command queue that no descriptor has enabled (R112, R113). -/
def Queue.off : Queue :=
  { en := false, base := 0, qlog := 0, qprio := 0, loc := false, qvec := 0, riaddr := 0, qwi := 0, ri := 0, st := 0,
    err := 0, fetched := [], running := [] }

/-- A ration counter at reset: RATE 255.996 and MTHR 0 (R89, R92); C is the model's choice (assumption 5). -/
def Ration.init : Ration := { c := 0, rate := 65535, mthr := 0, debits := 0, dm := 0, dv := 0, hot := false }

/-- An empty mailbox (R109); the manual gives its data no reset value (assumption 6). -/
def Mailbox.init : Mailbox := { busy := false, done := false, err := false, len := 0, data := [] }

/-- Boot at reset: state ROM, every other field 0 (R35). -/
def Boot.init : Boot :=
  { st := .rom, cause := 0, brcopy := 0, fwslot := false, fwver := 0, scmrsv := 0, harvest := 0, serial := [],
    fwfloor := 0, record := [], puf := [], secret := [], bootctr := 0, bootMac := none, slotA := none, slotB := none,
    mounted := false, readyPending := false, xtsData := [], xtsTweak := [] }

/-- Power control at reset (R102). -/
def Power.init : Power :=
  { step := 0, mop := 1, vop := 0, fop := 0, mvlt := 1, vvlt := 0, fvlt := 0, mopT := 1, vopT := 0, fopT := 0, psel := 0, pselLatched := 0,
    limiter := 0, pfact := false, pkgcap := 3200,
    pcap := [3200, 2800, 2400, 2000, 1600, 1200, 1000, 800], icap := 3200, icapEn := false, holdup := 300,
    icclim := BitVec.ofNat 24 (2600 + 1200 * 4096), oreqcfg := 2048, rations := List.replicate 52 Ration.init,
    t2off := false, capFell := false, icyc := 0, below := 0, trip := false, thermtripN := true, pf := .idle, l2 := [],
    l2left := 0, reqs := List.replicate 52 0 }

/-- The host and board interfaces at reset (R108, R109, R123). The manual gives no level of PERST_N there: it is taken as released
(assumption 87). -/
def HostIf.init : HostIf :=
  { width := 0, rate := 0, cxl := false, bar0 := 0, perst := false, mb := Mailbox.init, imb := Mailbox.init,
    quote := none, quoteWait := none, alertst := 0, alerten := 0x1E7, ibiOn := false, i3cAddr := 0x4A, i3cOff := 0,
    holes := [], out := [] }

/-- The fabric side at reset (R69). -/
def Fabric.init : Fabric :=
  { pkgid := 0, sport := 0, trained := false, peers := [], up := 0, fell := 0, starve := List.replicate 36 (0, 0), dup := [],
    packets := [], resps := [], comb := [] }

/-- The itinerary sequencer at reset: stopped and unbound (R165, R167). -/
def Itin.init : Itin :=
  { bound := none, loaded := false, st := 0, err := 0, errEntry := 0, header := [], entries := [], head := 0,
    ahead := [], resA := 0, resG := 0, consA := 0, consG := 0, aarr := List.replicate 64 0,
    garr := List.replicate 64 0, dnfreed := 0, upfreed := 0, syncf := 0, syncb := 0, stash := [], tasks := [],
    syncs := 0, syncPhase := 0, stepSent := false, acks := [], counters := List.replicate 8 0, dispatched := 0,
    upd := 0, stalled := false, reason := none, stopper := none }

/-- The snapshot coordinator at reset: no region, no group, C = M = 0 (R165, R191). -/
def Snap.init : Snap :=
  { regions := [], units := [], c := 0, m := 0, group := none, st := 0, failed := 0xFFFF, enc := 0, upd := 0,
    dones := [], encoded := [], accepted := [], lost := [], missed := [], beat := 0, lines := [], version := 0, startStep := 0, acked := 0, awaits := [], mender := none }

/-- A scrubber at reset (R62): position, VCUR and boundaries 0, a choice of the model (assumption 88). -/
def Scrub.init (c : Nat) : Scrub :=
  { chan := c, pos := 0, vcur := List.replicate 32 0, boundary := List.replicate 32 0, stopped := false, oldest := 0 }

/-- No counter has been written. -/
def Counters.init : Counters := { blocks := [], nodes := [] }

/-- Reserved SCM of a package that has run nothing. -/
def Reserved.init : Reserved := { ctrs := Counters.init, scrub := (List.range 96).map Scrub.init, units := [], c := 0, m := 0, dones := [], seals := [] }

/-- The machine right after reset: boot in ROM, no context, no weft, nothing listed in memory. -/
def State.reset : State :=
  { boot := Boot.init, power := Power.init, host := HostIf.init, fab := Fabric.init,
    ctxs := List.replicate 64 Context.free, queues := [], wefts := [], teams := [], launches := [], pipes := [],
    cmds := [], allocs := [], accs := [], vbusy := [], icache := [], tlb := [], wcache := [], holds := [], mem := [], pois := [],
    hamp := [], ctrs := Counters.init, rsv := Reserved.init, scrub := (List.range 96).map Scrub.init, banks := [], cmplines := List.replicate 8 0,
    plnlines := List.replicate 8 0, itin := Itin.init, snap := Snap.init, stepCtr := 0,
    dieStep := List.replicate 4 0, clocks := List.replicate 4 0, debug := none, nextId := 0, draws := 0, agenda := [],
    focus := (0, 0) }

end Sys2Proof.Machine
end

