-- ==== Sys2Proof/Machine/Mem.lean ====
section
/-! DEFINITION. Physical memory as one list of cells in canonical form, the hampers laid over the SCM stacks (R171, R172),
poison (R63, R286), and the line counters of the stacks (R58). -/

namespace Sys2Proof.Machine

/-! ### Keys: one number per byte of every memory of the package -/

/-- A byte of HBM pseudo-channel `c` (R48): 1 GiB each. -/
def hbmKey (c off : Nat) : Nat := c * 2 ^ 30 + off

/-- A byte of SCM channel `t` (R48): 32 GiB each. -/
def scmKey (t off : Nat) : Nat := 2 ^ 40 + t * 2 ^ 35 + off

/-- A byte of a core scratchpad (R238). -/
def coreKey (core off : Nat) : Nat := 2 ^ 44 + core * 2 ^ 22 + off

/-- A byte of a cluster scratchpad (R238). -/
def clusKey (clus off : Nat) : Nat := 2 ^ 45 + clus * 2 ^ 23 + off

/-- A byte of a die scratchpad (R238). -/
def dieKey (die off : Nat) : Nat := 2 ^ 46 + die * 2 ^ 26 + off

/-- A byte of host memory, by host physical address (R107). -/
def hostKey (a : Nat) : Nat := 2 ^ 65 + a % 2 ^ 64

/-- The key lies in an SCM stack. -/
def keyIsScm (k : Nat) : Bool := 2 ^ 40 ≤ k && k < 2 ^ 40 + 96 * 2 ^ 35

/-- The key lies in HBM. -/
def keyIsHbm (k : Nat) : Bool := k < 2 ^ 39

/-- The key lies in a scratchpad. -/
def keyIsSpad (k : Nat) : Bool := 2 ^ 44 ≤ k && k < 2 ^ 47

/-- SCM channel of a key. -/
def keyScmChan (k : Nat) : Nat := (k - 2 ^ 40) / 2 ^ 35

/-- SCM stack of a key (R41). -/
def keyStack (k : Nat) : Nat := keyScmChan k / 16

/-- HBM stack of a key (R40). -/
def keyHbmStack (k : Nat) : Nat := k / 2 ^ 36

/-! ### The cells -/

/-- Memory in canonical form: keys rising, no byte equal to 0, which is what an unlisted key reads as (assumption 1). -/
abbrev Memory := List Host.Cell

/-- What an unlisted byte reads as (assumption 1). -/
def Memory.unlisted : Byte := 0

/-- Read one byte. -/
def Memory.get : Memory → Nat → Byte
  | [], _ => Memory.unlisted
  | (k, b) :: r, a => if k = a then b else if a < k then Memory.unlisted else Memory.get r a

/-- Write one byte, keeping the canonical form. -/
def Memory.set : Memory → Nat → Byte → Memory
  | [], a, b => if b = Memory.unlisted then [] else [(a, b)]
  | (k, c) :: r, a, b =>
    if a < k then (if b = Memory.unlisted then (k, c) :: r else (a, b) :: (k, c) :: r)
    else if k = a then (if b = Memory.unlisted then r else (a, b) :: r)
    else (k, c) :: Memory.set r a b

/-- Write several cells in order. -/
def Memory.setAll : Memory → List Host.Cell → Memory
  | m, [] => m
  | m, (a, b) :: r => Memory.setAll (Memory.set m a b) r

/-- Every key is above `a`. -/
def Memory.above (a : Nat) : Memory → Bool
  | [] => true
  | (k, _) :: _ => a < k

/-- The canonical form. -/
def Memory.wf : Memory → Bool
  | [] => true
  | (a, b) :: r => b != Memory.unlisted && Memory.above a r && Memory.wf r

/-! ### Bytes under the hampers -/

/-- The byte that a list of cells holds at a key. -/
def cellAt (k : Nat) : List Host.Cell → Option Byte
  | [] => none
  | (a, b) :: r => if a = k then some b else cellAt k r

/-- The newest hamper byte at a key (R172); entries stand oldest first. -/
def hampByte (k : Nat) : List HampEntry → Option Byte
  | [] => none
  | e :: r =>
    match hampByte k r with
    | some b => some b
    | none => cellAt k e.bytes

/-- The byte that a read of a key returns (R172). -/
def State.byte (s : State) (k : Nat) : Byte :=
  if keyIsScm k then
    match hampByte k s.hamp with
    | some b => b
    | none => Memory.get s.mem k
  else Memory.get s.mem k

/-- `n` bytes from a key. -/
def State.bytes (s : State) (k n : Nat) : List Byte := (List.range n).map fun i => s.byte (k + i)

/-- `n` bytes from a key as a little-endian number. -/
def State.nat (s : State) (k n : Nat) : Nat := ofLeBytes (s.bytes k n)

/-- Consecutive cells from a key. -/
def cellsFrom : Nat → List Byte → List Host.Cell
  | _, [] => []
  | k, b :: r => (k, b) :: cellsFrom (k + 1) r

/-- The distinct values of a list, first occurrences. -/
def distinct {α : Type} [DecidableEq α] : List α → List α
  | [] => []
  | x :: r => x :: (distinct r).filter (fun y => y ≠ x)

/-- Put an element into a sorted list, before the first that does not come ahead of it. -/
def insertBy {α : Type} (le : α → α → Bool) (x : α) : List α → List α
  | [] => [x]
  | y :: r => if le x y then x :: y :: r else y :: insertBy le x r

/-- A list in order; elements of one rank keep their order. -/
def sortBy {α : Type} (le : α → α → Bool) : List α → List α
  | [] => []
  | x :: r => insertBy le x (sortBy le r)

/-- Entries one hamper holds: 32 MiB of lines (R172). -/
def hampCap : Nat := 262144

/-- The hamper of a stack has room for `n` more entries (R172). -/
def State.hampRoom (s : State) (stack n : Nat) : Bool := decide ((s.hamp.filter fun e => e.stack = stack).length + n ≤ hampCap)

/-- The hamper entries of a write: one per line, with the bytes it names (R172). -/
def hampEntries (cells : List Host.Cell) (tag : Nat) : List HampEntry :=
  (distinct (cells.map fun c => c.1 / 128)).map fun l =>
    { stack := keyStack (l * 128), bytes := cells.filter (fun c => c.1 / 128 = l), tag := tag, data := none }

/-- A hamper entry that carries no line (R172). -/
def metaEntry (stack : Nat) (d : HampMeta) : HampEntry := { stack := stack, bytes := [], tag := 0, data := some d }

/-- Bytes of the unit of poison at a key: a scratchpad word or a memory line (R63, R286). -/
def poisUnit (k : Nat) : Nat := if keyIsSpad k then 8 else 128

/-- A write of every byte of a unit clears its poison (R63, R286). -/
def clearPois (pois : List Nat) (cells : List Host.Cell) : List Nat :=
  pois.filter fun p => !((List.range (poisUnit p)).all fun i => cells.any fun c => c.1 = p + i)

/-- A read of these bytes meets poison. -/
def State.poisoned (s : State) (k n : Nat) : Bool :=
  s.pois.any fun p => k < p + poisUnit p && p < k + n

/-! ### Encryption counters of SCM groups (R60, R61) -/

/-- Key version of a line: VCUR + 1 below the boundary of its 1 GiB region, else VCUR (R62). -/
def keyVersion (sc : List Scrub) (chan off : Nat) : Nat :=
  let s := sc.getD chan (Scrub.init chan)
  let r := off / 2 ^ 30
  s.vcur.getD r 0 + b2n (decide (off < s.boundary.getD r 0))

/-- A node of a channel's tree (R60); one that nothing has counted in holds zeros. -/
def Counters.node (cs : Counters) (chan level idx : Nat) : TreeNode :=
  (cs.nodes.find? fun n => n.chan == chan && n.level == level && n.idx == idx).getD
    { chan := chan, level := level, idx := idx, ctrs := List.replicate 8 0, moves := List.replicate 8 0 }

/-- The nodes above a group, the root last: a channel has 2 ^ 23 groups, so eight levels (R60). -/
def Counters.path (cs : Counters) (chan group : Nat) : List TreeNode :=
  (List.range 8).map fun l => cs.node chan (l + 1) (group / 8 ^ (l + 1))

/-- Child of a group in the node of a level. -/
def childOf (group level : Nat) : Nat := group / 8 ^ (level - 1) % 8

/-- The counter block of a group; one that nothing has written is under the scrubber's version, and what moved above it moved
it too (R60, R61). -/
def Counters.block (cs : Counters) (sc : List Scrub) (chan group : Nat) : CtrBlock :=
  match cs.blocks.find? fun b => b.chan == chan && b.group == group with
  | some b => b
  | none =>
    let moved := ((cs.path chan group).map fun n => n.moves.getD (childOf group n.level) 0).foldl (· + ·) 0
    { chan := chan, group := group, major := 0, minors := List.replicate 32 0,
      keyver := keyVersion sc chan (group * 4096) + moved, early := decide (0 < moved) }

/-- A group moves to its next key version at once, with counters 0 (R61). -/
def CtrBlock.move (b : CtrBlock) : CtrBlock :=
  { b with major := 0, minors := List.replicate 32 0, keyver := b.keyver + 1, early := true }

/-- One write of line `i` of a group (R61): the minor counts; at 127 the major counts instead and the group is encrypted
again; at its largest major the group moves, and the write then counts in its new minor (assumption 88). -/
def CtrBlock.bump (b : CtrBlock) (i : Nat) : CtrBlock :=
  if b.minors.getD i 0 != 127 then { b with minors := modAt b.minors i (· + 1) }
  else if b.major != 2 ^ 57 - 1 then { b with major := b.major + 1, minors := List.replicate 32 0 }
  else { b.move with minors := modAt b.move.minors i (· + 1) }

/-- Replace a counter block. -/
def Counters.setBlock (cs : Counters) (b : CtrBlock) : Counters :=
  { cs with blocks := b :: cs.blocks.filter fun x => !(x.chan == b.chan && x.group == b.group) }

/-- Replace a node. -/
def Counters.setNode (cs : Counters) (n : TreeNode) : Counters :=
  { cs with nodes := n :: cs.nodes.filter fun x => !(x.chan == n.chan && x.level == n.level && x.idx == n.idx) }

/-- The group lies under the child of a node that another group is under. -/
def sameChild (level g h : Nat) : Bool := g / 8 ^ (level - 1) == h / 8 ^ (level - 1)

/-- The counter of a node's child is at its largest value: every group under that child moves, and the counters of the nodes
below start at 0 (R61). -/
def Counters.moveUnder (cs : Counters) (chan group level : Nat) : Counters :=
  let n := cs.node chan level (group / 8 ^ level)
  let k := childOf group level
  let cs1 : Counters :=
    { blocks := cs.blocks.map fun b => if b.chan == chan && sameChild level b.group group then b.move else b
      nodes := cs.nodes.map fun (x : TreeNode) =>
        if x.chan == chan && decide (x.level < level) && sameChild level (x.idx * 8 ^ x.level) group then { x with ctrs := List.replicate 8 0 }
        else x }
  cs1.setNode { n with ctrs := setAt n.ctrs k 0, moves := modAt n.moves k (· + 1) }

/-- A write below the child of a node counts at that level; a counter at its largest value moves what is under it (R60, R61). -/
def Counters.countLevel (cs : Counters) (chan group level : Nat) : Counters :=
  let n := cs.node chan level (group / 8 ^ level)
  let k := childOf group level
  if n.ctrs.getD k 0 = 2 ^ 56 - 1 then cs.moveUnder chan group level else cs.setNode { n with ctrs := modAt n.ctrs k (· + 1) }

/-- One write of the SCM line at a key: the counters of its path, then its block (R60, R61). -/
def Counters.write (cs : Counters) (sc : List Scrub) (k : Nat) : Counters :=
  let t := keyScmChan k
  let off := (k - 2 ^ 40) % 2 ^ 35
  let g := off / 4096
  let cs1 := (List.range 8).foldl (fun c l => c.countLevel t g (l + 1)) cs
  cs1.setBlock ((cs1.block sc t g).bump (off / 128 % 32))

/-- The hamper entry that carries the counters of a written line (R60, R172). -/
def Counters.entry (cs : Counters) (sc : List Scrub) (k : Nat) : HampEntry :=
  let t := keyScmChan k
  let g := (k - 2 ^ 40) % 2 ^ 35 / 4096
  metaEntry (t / 16) (.counter (cs.block sc t g) (cs.path t g))

/-- Counters and hamper entries of some written lines, in order. -/
def countLines (sc : List Scrub) : Counters → List Nat → Counters × List HampEntry
  | cs, [] => (cs, [])
  | cs, l :: r =>
    let c1 := cs.write sc (l * 128)
    let t := countLines sc c1 r
    (t.1, c1.entry sc (l * 128) :: t.2)

/-- Write cells: SCM bytes enter a hamper, their lines' counters with them (R171, R172); every other byte its memory. -/
def State.write (s : State) (cells : List Host.Cell) (tag : Nat) : State :=
  let scm := cells.filter fun c => keyIsScm c.1
  let rest := cells.filter fun c => !keyIsScm c.1
  let n := countLines s.scrub s.ctrs (distinct (scm.map fun c => c.1 / 128))
  { s with
    mem := Memory.setAll s.mem rest
    hamp := s.hamp ++ hampEntries scm tag ++ n.2
    ctrs := n.1
    pois := clearPois s.pois cells }

/-- Write bytes from a key, with no step tag. -/
def State.writeBytes (s : State) (k : Nat) (bs : List Byte) : State := s.write (cellsFrom k bs) 0

/-- Bytes that one access writes clear the poison of every unit they cover together (R63, R286). -/
def State.covered (s : State) (cells : List Host.Cell) : State := { s with pois := clearPois s.pois cells }

/-! ### Reserved SCM (R60, R172, R177, R182, R199) -/

/-- What an entry without a line leaves in reserved SCM; `stack` is the one whose hamper held it. -/
def Reserved.apply (r : Reserved) (stack : Nat) : HampMeta → Reserved
  | .counter b path => { r with ctrs := path.foldl Counters.setNode (r.ctrs.setBlock b) }
  | .unit u => { r with units := (r.units.filter fun v => v.va ≠ u.va) ++ [u] }
  | .steps c m dones => { r with c := c, m := m, dones := dones }
  | .release n => { r with units := r.units.filter fun u => !(u.region == n && u.chan / 16 == stack) }
  | .scrub x b =>
    { r with scrub := setAt r.scrub x.chan x, ctrs := match b with | some b => r.ctrs.setBlock b | none => r.ctrs }

/-- A hamper entry is written to its stack (R172). -/
def State.settleEntry (s : State) (e : HampEntry) : State :=
  { s with
    mem := Memory.setAll s.mem e.bytes
    rsv := match e.data with | some d => s.rsv.apply e.stack d | none => s.rsv }

/-- The oldest entry of a stack's hamper and the rest. -/
def splitHamp (stack : Nat) : List HampEntry → Option (HampEntry × List HampEntry)
  | [] => none
  | e :: r =>
    if e.stack = stack then some (e, r)
    else match splitHamp stack r with
      | some (x, l) => some (x, e :: l)
      | none => none

/-- The oldest entry of a stack's hamper is written back (R172). -/
def State.writeBack (s : State) (stack : Nat) : State :=
  match splitHamp stack s.hamp with
  | some (e, r) => { s.settleEntry e with hamp := r }
  | none => s

/-- A hamper writes back until it has room for `n` entries. -/
def State.makeRoom (s : State) (stack n : Nat) : Nat → State
  | 0 => s
  | f + 1 => if s.hampRoom stack n then s else (s.writeBack stack).makeRoom stack n f

/-- A write of the control plane, which waits until its hampers have room (R172, assumption 91). -/
def State.writeWait (s : State) (cells : List Host.Cell) (tag : Nat) : State :=
  let lines := distinct ((cells.filter fun c => keyIsScm c.1).map fun c => c.1 / 128)
  ((distinct (lines.map fun l => keyStack (l * 128))).foldl (fun t k => t.makeRoom k (2 * lines.length) t.hamp.length) s).write cells tag

/-- An entry without a line enters a hamper, which makes room for it (R172, assumption 91). -/
def State.addMeta (s : State) (stack : Nat) (d : HampMeta) : State :=
  let t := s.makeRoom stack 1 1
  { t with hamp := t.hamp ++ [metaEntry stack d] }

/-- A change of C, M or the DONE messages goes through the hampers (R182, R199, assumption 46). -/
def State.noteSteps (s : State) : State := s.addMeta 0 (.steps s.snap.c s.snap.m s.snap.dones)

/-- The frames of a region that no unit uses: those its pools gave and the homes of units that have left them (R177, R185). -/
def freeFrames (r : Region) (units : List SnapUnit) : List (Nat × Nat) :=
  let us := units.filter fun u => u.region == r.num
  let used := us.flatMap fun u => u.frames.map (·.key)
  (distinct (r.given ++ us.map fun u => (u.chan, u.home))).filter fun f => !used.contains f.2

/-- At MEMINIT the controllers and the coordinator read back what reserved SCM holds (R36, R60, R62, R182, R199); an erased key stays so. -/
def State.recover (s : State) : State :=
  { s with
    ctrs := s.rsv.ctrs
    scrub := s.rsv.scrub.map fun (x : Scrub) => { x with oldest := max x.oldest (s.scrub.getD x.chan x).oldest }
    rsv := { s.rsv with seals := [] }
    snap := { s.snap with
      units := s.rsv.units.filter fun u => s.snap.regions.any fun r => r.num == u.region
      c := s.rsv.c, m := s.rsv.m, dones := s.rsv.dones
      regions := s.snap.regions.map fun (r : Region) => { r with free := freeFrames r s.rsv.units } } }

/-! ### Compressed lines (R56-R58) -/

/-- The 64 BF16 elements of a line. -/
def lineElems : List Byte → List Nat
  | a :: b :: r => (a.toNat + 256 * b.toNat) :: lineElems r
  | _ => []

/-- The exponent fields of the elements of a line (R56). -/
def lineExps (bs : List Byte) : List Nat := (lineElems bs).map fun e => field e 7 8

/-- A line of a CBF page is stored compressed (R56). -/
def compressible (bs : List Byte) : Bool :=
  let es := lineExps bs
  es.all (fun e => 1 ≤ e && e ≤ 254) && es.foldl max 0 ≤ es.foldl min 255 + 7

/-- An element in the line image: mantissa, exponent above the base, sign (R57). -/
def packElem (base e : Nat) : Nat := field e 0 7 + 2 ^ 7 * (field e 7 8 - base) + 2 ^ 10 * field e 15 1

/-- An element from the line image (R57). -/
def unpackElem (base p : Nat) : Nat := field p 0 7 + 2 ^ 7 * (field p 7 3 + base) + 2 ^ 15 * field p 10 1

/-- Packed elements as a number, 11 bits each. -/
def packAll (base : Nat) : List Nat → Nat
  | [] => 0
  | e :: r => packElem base e + 2 ^ 11 * packAll base r

/-- The 96 bytes of a compressed line: byte 0 the smallest exponent, then the elements, then zero bits (R57). -/
def compressLine (bs : List Byte) : List Byte :=
  let base := (lineExps bs).foldl min 255
  leBytes 96 (base + 2 ^ 8 * packAll base (lineElems bs))

/-- Elements of an image of packed elements. -/
def unpackAll (base : Nat) : Nat → Nat → List Byte
  | 0, _ => []
  | n + 1, x => leBytes 2 (unpackElem base (x % 2 ^ 11)) ++ unpackAll base n (x / 2 ^ 11)

/-- The 128 bytes of a compressed line (R57). -/
def expandLine (img : List Byte) : List Byte :=
  let x := ofLeBytes img
  unpackAll (x % 2 ^ 8) 64 (x / 2 ^ 8)

/-- Count one line transfer of an HBM line (R58). -/
def State.countLine (s : State) (k : Nat) (cbf : Bool) : State :=
  let l := k / 128 * 128
  let st := keyHbmStack k
  if cbf && compressible (s.bytes l 128) then { s with cmplines := modAt s.cmplines st (· + 1) }
  else { s with plnlines := modAt s.plnlines st (· + 1) }

end Sys2Proof.Machine
end

