-- ==== Sys2Proof/Machine/Translate.lean ====
section
/-! DEFINITION. Address windows, channel hashing and translation (R37-R51), with the snapshot units of chapter 08
(R175-R180) that a channel consults when it accepts a store. -/

namespace Sys2Proof.Machine

/-! ### Windows and channels -/

/-- The address lies in the fabric window (R37). -/
def isFabric (va : W64) : Bool := va.getLsbD 63

/-- The address is non-canonical (R38). -/
def nonCanonical (va : W64) : Bool := !va.getLsbD 63 && field va.toNat 56 7 != 0

/-- The address lies in the SCM window (R37). -/
def inScm (va : W64) : Bool := va.getLsbD 55

/-- HBM pseudo-channel of an address (R40). -/
def hbmChan (va : W64) : Nat :=
  let g := field va.toNat 8 47
  field g 0 9 ^^^ field g 9 9 ^^^ field g 18 9 ^^^ field g 27 9 ^^^ field g 36 9 ^^^ field g 45 2

/-- SCM channel of an address (R41). -/
def scmChan (va : W64) : Nat :=
  let h := field va.toNat 12 43
  (h + (field h 20 7 ^^^ field h 27 7 ^^^ field h 34 7 ^^^ field h 41 2)) % 96

/-- Channel number of a local address: 0-511 HBM, 512-607 SCM. -/
def chanOf (va : W64) : Nat := if inScm va then 512 + scmChan va else hbmChan va

/-- The local address of a fabric address at its peer (R39). -/
def peerVa (va : W64) : W64 :=
  BitVec.ofNat 64 (field va.toNat 53 1 * 2 ^ 55 + field va.toNat 0 53)

/-- The peer a fabric address names (R39). -/
def peerOf (va : W64) : Nat := field va.toNat 54 9

/-! ### Leaves -/

/-- Bytes of a page-size code (R47). -/
def pageSize (sz : Nat) : Nat :=
  match sz with
  | 0 => 2 ^ 12 | 1 => 2 ^ 14 | 2 => 2 ^ 16 | 3 => 2 ^ 18 | 4 => 2 ^ 20 | 5 => 2 ^ 21 | 6 => 2 ^ 22 | 7 => 2 ^ 24
  | 8 => 2 ^ 26 | 9 => 2 ^ 28 | 10 => 2 ^ 30 | _ => 2 ^ 32

/-- Level of a page-size code, 0 for a reserved one (R47). -/
def pageLevel (sz : Nat) : Nat := if sz < 5 then 1 else if sz < 10 then 2 else if sz < 12 then 3 else 0

/-- Entries in the run of a page-size code (R47). -/
def runLen (sz : Nat) : Nat :=
  match sz with
  | 0 => 1 | 1 => 4 | 2 => 16 | 3 => 64 | 4 => 256 | 5 => 1 | 6 => 2 | 7 => 8 | 8 => 32 | 9 => 128 | 10 => 1 | _ => 4

/-- Per-channel slice of a page (R47). -/
def sliceOf (scm : Bool) (sz : Nat) : Nat :=
  if scm then (pageSize sz / 4096 + 95) / 96 * 4096 else max 256 (pageSize sz / 512)

/-- Bytes of one channel (R48). -/
def chanCap (scm : Bool) : Nat := if scm then 2 ^ 35 else 2 ^ 30

/-- Fields of a leaf (R45). -/
def leafSz (e : W64) : Nat := field e.toNat 2 4
def leafFrame (e : W64) : Nat := field e.toNat 20 32
def leafRd (e : W64) : Bool := e.getLsbD 6
def leafWr (e : W64) : Bool := e.getLsbD 7
def leafEx (e : W64) : Bool := e.getLsbD 8
def leafGlobal (e : W64) : Bool := e.getLsbD 9
def leafSnap (e : W64) : Bool := e.getLsbD 10
def leafCbf (e : W64) : Bool := e.getLsbD 11
def leafMv (e : W64) : Bool := e.getLsbD 12
def leafSreg (e : W64) : Nat := field e.toNat 14 6

/-- A leaf at a level is malformed (R46). -/
def leafBad (e : W64) (lvl : Nat) (scm : Bool) : Bool :=
  field e.toNat 52 12 != 0 || pageLevel (leafSz e) != lvl || e.getLsbD 13 != scm || (leafSnap e && !scm)
    || ((leafCbf e || leafMv e) && scm) || (leafCbf e && leafMv e)
    || chanCap scm < (leafFrame e + 1) * sliceOf scm (leafSz e)

/-- Base of the page that a leaf maps around an address. -/
def pageBase (va : W64) (sz : Nat) : Nat := va.toNat / pageSize sz * pageSize sz

/-- Channel-local address of an access through a leaf (R48). -/
def localAddr (va : W64) (e : W64) : Nat :=
  let b := pageBase va (leafSz e)
  if inScm va then
    leafFrame e * sliceOf true (leafSz e) + (va.toNat / 4096 - b / 4096) / 96 * 4096 + va.toNat % 4096
  else
    leafFrame e * sliceOf false (leafSz e) + (va.toNat / 256 - b / 256) / 512 * 256 + va.toNat % 256

/-- Physical key of an access through a leaf (R48). -/
def leafKey (va : W64) (e : W64) : Nat :=
  if inScm va then scmKey (scmChan va) (localAddr va e) else hbmKey (hbmChan va) (localAddr va e)

/-! ### The walk -/

/-- What an access asks of its page (R50). -/
inductive Ask where
  | read | write | atomic | fetch
  deriving DecidableEq, Repr

/-- Outcome of translation and access check (R50). -/
inductive Tr where
  /-- Accepted at a physical key; compressed page or not. -/
  | ok (key : Nat) (cbf : Bool)
  | page
  | prot
  | notPres (level : Nat)
  | poolEmpty
  deriving DecidableEq, Repr

/-- What the walk found. -/
inductive Walk where
  | leaf (e : W64)
  | page
  | notPres (level : Nat)
  deriving DecidableEq, Repr

/-- The VA bits below a level's index. -/
def lvlShift (lvl : Nat) : Nat := 3 + 9 * lvl

/-- Index of a level (R45). -/
def lvlIndex (va : W64) (lvl : Nat) : Nat :=
  if lvl = 4 then field va.toNat 39 16 else field va.toNat (lvlShift lvl) 9

/-- A table entry (R44, R45). -/
def State.tableEntry (s : State) (nch node idx : Nat) : W64 :=
  BitVec.ofNat 64 (s.nat (hbmKey nch (node * 4096 + idx * 8)) 8)

/-- The entries of a run that hold a leaf of its size (R47): where a run's entries differ, one that is absent, a pointer or of another size is
never the one used (assumption 100). -/
def State.runLeaves (s : State) (nch node idx sz : Nat) : List W64 :=
  ((List.range (runLen sz)).map fun i => s.tableEntry nch node (idx / runLen sz * runLen sz + i)).filter
    fun e => e.getLsbD 0 && e.getLsbD 1 && leafSz e == sz

/-- The leaf that an access uses of a run: the entry, or, where the run's entries differ, one of them that the manual does
not fix (R47, assumption 2). -/
def State.pickLeaf (s : State) (nch node idx : Nat) (e : W64) : W64 :=
  let es := s.runLeaves nch node idx (leafSz e)
  if es.all (· == e) then e else es.getD (Config.runPick s.draws % es.length) e

/-- Walk down from a level (R45, R46, R50), with the pointers read on the way: (level, pointer entry). -/
def State.walkFrom (s : State) (va : W64) : Nat → Nat → Nat → List (Nat × W64) → Walk × List (Nat × W64)
  | 0, _, _, ps => (.page, ps)
  | l + 1, nch, node, ps =>
    let lvl := l + 1
    let idx := lvlIndex va lvl
    let e := s.tableEntry nch node idx
    if !e.getLsbD 0 then (.notPres lvl, ps)
    else if e.getLsbD 1 then
      if lvl = 4 ∨ leafBad e lvl (inScm va) then (.page, ps)
      else
        let f := s.pickLeaf nch node idx e
        if leafBad f lvl (inScm va) then (.page, ps) else (.leaf f, ps)
    else if lvl = 1 ∨ field e.toNat 29 35 ≠ 0 then (.page, ps)
    else s.walkFrom va l (field e.toNat 2 9) (field e.toNat 11 18) (ps ++ [(lvl, e)])

/-- A context. -/
def State.ctx (s : State) (c : Nat) : Context := s.ctxs.getD c Context.free

/-- Change a context. -/
def State.setCtx (s : State) (c : Nat) (x : Context) : State := { s with ctxs := setAt s.ctxs c x }

/-- Root pointer of the window of an address (R44). -/
def State.root (s : State) (c : Nat) (va : W64) : W64 :=
  if inScm va then (s.ctx c).desc.sroot else (s.ctx c).desc.hroot

/-- The walk-cache pointer of a level for an address (R49). -/
def State.cachedPtr (s : State) (ch c : Nat) (va : W64) (lvl : Nat) : Option W64 :=
  (s.wcache.find? fun w => w.chan = ch && w.ctx = c && w.level = lvl
    && w.pfx = va.toNat / 2 ^ lvlShift lvl).map (·.ptr)

/-- Walk the tables, from the lowest level whose pointer is cached (R45, R49). -/
def State.walk (s : State) (ch c : Nat) (va : W64) : Walk × List (Nat × W64) :=
  let r := s.root c va
  if !r.getLsbD 0 || 16 < field r.toNat 1 5 || 2 ^ field r.toNat 1 5 ≤ lvlIndex va 4 then (.page, [])
  else match s.cachedPtr ch c va 2, s.cachedPtr ch c va 3, s.cachedPtr ch c va 4 with
    | some e, _, _ => s.walkFrom va 1 (field e.toNat 2 9) (field e.toNat 11 18) []
    | none, some e, _ => s.walkFrom va 2 (field e.toNat 2 9) (field e.toNat 11 18) []
    | none, none, some e => s.walkFrom va 3 (field e.toNat 2 9) (field e.toNat 11 18) []
    | none, none, none => s.walkFrom va 4 (field r.toNat 6 9) (field r.toNat 15 18) []

/-- Keep the newest `n` entries that a channel holds: a full table gives up the entry that was entered first (R49, assumption 99). -/
def keepNewest {α : Type} (mine : α → Bool) (n : Nat) (l : List α) : List α :=
  if (l.filter mine).length ≤ n then l
  else
    match l.find? mine with
    | some _ => l.eraseIdx (l.findIdx mine)
    | none => l

/-- The cached leaf of an address (R49). -/
def State.tlbLeaf (s : State) (ch c : Nat) (va : W64) : Option W64 :=
  (s.tlb.find? fun t => t.chan = ch && (t.ctx = c || leafGlobal t.leaf) && t.base ≤ va.toNat
    && va.toNat < t.base + t.size).map (·.leaf)

/-- Enter pointers into the walk cache, 16 per channel (R49). -/
def fillWalk (wc : List WalkEntry) (ch c : Nat) (va : W64) : List (Nat × W64) → List WalkEntry
  | [] => wc
  | (l, e) :: r =>
    fillWalk (keepNewest (fun w => w.chan = ch) 16
      (wc ++ [{ chan := ch, ctx := c, level := l, pfx := va.toNat / 2 ^ lvlShift l, ptr := e }])) ch c va r

/-- The leaf of an address, from the translation unit or by a walk that fills it (R49). -/
def State.leafOf (s : State) (c : Nat) (va : W64) : Walk × State :=
  let ch := chanOf va
  match s.tlbLeaf ch c va with
  | some e => (.leaf e, s)
  | none =>
    let (w, ps) := s.walk ch c va
    let s1 := { s with wcache := fillWalk s.wcache ch c va ps }
    match w with
    | .leaf e =>
      (.leaf e, { s1 with
        tlb := keepNewest (fun t => t.chan = ch) 64
          (s1.tlb ++ [{ chan := ch, ctx := c, base := pageBase va (leafSz e), size := pageSize (leafSz e),
                        leaf := e }]) })
    | x => (x, s1)

/-! ### Snapshot units -/

/-- The armed region that holds an address of a context (R174, R175). -/
def State.regionAt (s : State) (c n : Nat) (va : W64) : Option Region :=
  s.snap.regions.find? fun r => r.num = n && r.ctx = c && r.va ≤ va.toNat && va.toNat < r.va + r.len

/-- A byte of a snapshot page: a number of its own, made from its address, since its frame is found only when the access is performed
(R179). -/
def snapKey (va : Nat) : Nat := 2 ^ 66 + va

/-- The number stands for a byte of a snapshot page. -/
def keyIsSnap (k : Nat) : Bool := decide (2 ^ 66 ≤ k)

/-- Its address. -/
def snapVa (k : Nat) : Nat := k - 2 ^ 66

/-- The map entry of the unit at an address of the snapshot context. -/
def State.unitAt (s : State) (va : Nat) : Option SnapUnit := s.snap.units.find? fun u => u.va = va / 4096 * 4096

/-- The map entry that lists a frame. -/
def State.unitOfKey (s : State) (k : Nat) : Option SnapUnit :=
  s.snap.units.find? fun u => u.frames.any fun f => f.key = k / 4096 * 4096

/-- The frame with the highest tag (R177). -/
def newestFrame : List Frame → Option Frame
  | [] => none
  | f :: r =>
    match newestFrame r with
    | some g => if f.tag ≤ g.tag then some g else some f
    | none => some f

/-- The map entry of a unit as the channel holds it. -/
def State.holdUnit (s : State) (u : SnapUnit) : State :=
  { s with snap := { s.snap with units := (s.snap.units.filter fun v => v.va ≠ u.va) ++ [u] } }

/-- A map entry changes: the change enters the hamper of its channel (R172, R177). -/
def State.setUnit (s : State) (u : SnapUnit) : State := (s.holdUnit u).addMeta (u.chan / 16) (.unit u)

/-- Copy a 4 KiB frame between keys, tagged (R179). -/
def State.copyFrame (s : State) (src dst tag : Nat) : State :=
  s.write (cellsFrom dst (s.bytes src 4096)) tag

/-- Key of a byte of a landing copy (R194), through the context's tables. -/
def State.landingKey (s : State) (c va : Nat) : Option Nat :=
  let a := BitVec.ofNat 64 va
  match (s.walk (chanOf a) c a).1 with
  | .leaf e => some (leafKey a e)
  | _ => none

/-- The HBM-window bytes of an unbackfilled unit's landing copy (R194). -/
def State.landingBytes (s : State) (c va : Nat) : List Byte :=
  ((List.range 16).map fun i =>
    match s.landingKey c (va + 256 * i) with
    | some k => s.bytes k 256
    | none => List.replicate 256 0).flatten

/-- Arming gives each unit its home frame with tag 0 (R177): the entry of a unit that has no other. -/
def State.enterUnit (s : State) (r : Region) (va : W64) (home : Nat) : State :=
  match s.unitAt va.toNat with
  | some _ => s
  | none => s.holdUnit { region := r.num, va := va.toNat / 4096 * 4096, chan := scmChan va, home := home / 4096 * 4096,
                         frames := [{ key := home / 4096 * 4096, tag := 0, taken := [] }], landing := none }

/-- The landing copy that stands for a frame: the home frame's, until it is backfilled (R194). -/
def SnapUnit.landingOf (u : SnapUnit) (f : Frame) : Option Nat := if f.key = u.home then u.landing else none

/-- The context that holds the regions (R174). -/
def State.regionCtx (s : State) : Nat := match s.snap.regions with | r :: _ => r.ctx | [] => 0

/-- Contents of a frame of a unit (R179, R194). -/
def State.frameBytes (s : State) (u : SnapUnit) (f : Frame) : List Byte :=
  match u.landingOf f with
  | some l => s.landingBytes s.regionCtx l
  | none => s.bytes f.key 4096

/-- Take a pool frame of a channel (R179). -/
def takeFrame (chan : Nat) : List (Nat × Nat) → Option (Nat × List (Nat × Nat))
  | [] => none
  | (c, k) :: r =>
    if c = chan then some (k, r)
    else match takeFrame chan r with
      | some (k', r') => some (k', (c, k) :: r')
      | none => none

/-- A store or atomic of step `st` asks for a unit of an armed region (R179). -/
def State.snapAccept (s : State) (r : Region) (va : W64) (st : Nat) : Tr :=
  match (s.unitAt va.toNat).bind fun u => (newestFrame u.frames).map fun f => (u, f) with
  | none => .prot
  | some (u, f) =>
    if st ≤ s.snap.m then .prot
    else if st ≤ f.tag then .ok (snapKey va.toNat) false
    else if (takeFrame u.chan r.free).isSome then .ok (snapKey va.toNat) false
    else .poolEmpty

/-- A store or atomic of step `st` is performed at a unit (R179): past the newest frame's tag, a pool frame takes a copy and its place in the
map first. None where the pool has no frame left, or the step is mended. -/
def State.openUnit (s : State) (va st : Nat) : Option State :=
  match (s.unitAt va).bind fun u => (newestFrame u.frames).map fun f => (u, f) with
  | none => none
  | some (u, f) =>
    if st ≤ s.snap.m then none
    else if st ≤ f.tag then some s
    else
      match (s.snap.regions.find? fun (r : Region) => r.num == u.region).bind fun r => (takeFrame u.chan r.free).map fun p => (r, p) with
      | none => none
      | some (r, k, free) =>
        let swap := fun q : Region => if q.num = r.num then { q with free := free } else q
        let s1 := { s with snap := { s.snap with regions := s.snap.regions.map swap } }
        let s2 := s1.write (cellsFrom k (s1.frameBytes u f)) st
        some (s2.setUnit { u with frames := u.frames ++ [{ key := k, tag := st, taken := [] }] })

/-- Where a byte lies now: a snapshot byte in the newest frame of its unit, or in that frame's landing copy (R179, R194). -/
def State.physKey (s : State) (k : Nat) : Nat :=
  if !keyIsSnap k then k
  else match s.unitAt (snapVa k) with
    | none => k
    | some u =>
      match newestFrame u.frames with
      | none => u.home + k % 4096
      | some f =>
        match u.landingOf f with
        | some l => (s.landingKey s.regionCtx (l + k % 4096)).getD (f.key + k % 4096)
        | none => f.key + k % 4096

/-- The byte that a translated access reads. -/
def State.rbyte (s : State) (k : Nat) : Byte := s.byte (s.physKey k)

/-- Bytes that a translated access reads. -/
def State.rbytes (s : State) (k n : Nat) : List Byte := (List.range n).map fun i => s.rbyte (k + i)

/-- The same as a little-endian number. -/
def State.rnat (s : State) (k n : Nat) : Nat := ofLeBytes (s.rbytes k n)

/-- A translated read of these bytes meets poison (R63). -/
def State.rpoisoned (s : State) (k n : Nat) : Bool := s.poisoned (s.physKey k) n

/-- Stack of an SCM byte. -/
def stackOf (k : Nat) : Nat := if keyIsSnap k then scmChan (BitVec.ofNat 64 (snapVa k)) / 16 else keyStack k

/-- Hamper entries that a write of one line can make: the line and its counters, and for a snapshot unit a frame's copy and its map
entry besides (R172, R179). -/
def roomOf (k : Nat) : Nat := if keyIsSnap k then 67 else 2

/-! ### Contents that the manual leaves undefined -/

/-- VAs of the units of a region. -/
def Region.unitVas (r : Region) : List Nat := (List.range (r.len / 4096)).map fun i => r.va + 4096 * i

/-- Keys of the frames of a unit (R177). -/
def State.unitFrames (s : State) (c va : Nat) : List Nat :=
  match s.unitAt va with
  | some u => u.frames.map (·.key)
  | none => (s.landingKey c va).toList

/-- The contents of some frames are undefined from here on: every byte is a free value. -/
def State.undefine (s : State) (keys : List Nat) : State :=
  let cells := keys.flatMap fun k => (List.range 4096).map fun i => (k + i, Config.freeByte s.draws (k + i))
  { s with
    draws := s.draws + 1
    mem := Memory.setAll s.mem cells
    hamp := s.hamp.map fun e => { e with bytes := e.bytes.filter fun c => !keys.contains (c.1 / 4096 * 4096) } }

/-- A frame that a pool has given (R174). -/
def State.isPool (s : State) (k : Nat) : Bool := s.snap.regions.any fun r => r.given.any fun f => f.2 == k / 4096 * 4096

/-- A program accesses the pool (R175): every snapshot frame of the context is undefined. -/
def State.poolTouched (s : State) : State :=
  s.undefine (s.snap.regions.flatMap fun r => r.unitVas.flatMap (s.unitFrames r.ctx))

/-- The parity of a group is undefined when software writes an armed region during the declaration (R187). -/
def State.parityTouched (s : State) : State :=
  match s.snap.group with
  | some g => s.undefine ((s.snap.regions.filter fun (r : Region) => r.num == g.preg).flatMap fun r => r.unitVas.flatMap (s.unitFrames r.ctx))
  | none => s

/-! ### Translation and access check -/

/-- The leaf's frame lies in reserved SCM (R48, R489). -/
def State.inReserved (s : State) (va : W64) (e : W64) : Bool :=
  inScm va && leafFrame e * sliceOf true (leafSz e) < s.boot.scmrsv.toNat * 2 ^ 20

/-- The page permits what is asked (R50). -/
def permits (e : W64) : Ask → Bool
  | .read => leafRd e
  | .write => leafWr e
  | .atomic => leafWr e
  | .fetch => leafEx e

/-- The access check of a leaf, in the order of R50; `st` is the step of a store (R178). -/
def State.checkLeaf (s : State) (c : Nat) (va : W64) (ask : Ask) (st : Nat) (e : W64) : Tr × State :=
  if !permits e ask then (.prot, s)
  else if s.inReserved va e then (.prot, s)
  else if leafSnap e then
    match ask with
    | .write | .atomic =>
      match s.regionAt c (leafSreg e) va with
      | none => (.prot, s)
      | some r =>
        let t := s.enterUnit r va (leafKey va e)
        (t.snapAccept r va st, t)
    | _ =>
      match s.regionAt c (leafSreg e) va with
      | some r => (.ok (snapKey va.toNat) false, s.enterUnit r va (leafKey va e))
      | none => (.ok (leafKey va e) false, s)
  else (.ok (leafKey va e) (leafCbf e), if inScm va && s.isPool (leafKey va e) then s.poolTouched else s)

/-- NOTPRES has been reported for the unit by the channel (R54). -/
def State.reported (s : State) (ch c unit : Nat) : Bool :=
  s.holds.any fun h => h.chan == ch && h.ctx == c && h.unit == unit && h.acc.isNone

/-- A channel reports NOTPRES for the unit of an address (R54). -/
def State.reportUnit (s : State) (c : Nat) (va : W64) : State :=
  let u := va.toNat / 4096
  if s.reported (chanOf va) c u then s
  else { s with holds := s.holds ++ [{ chan := chanOf va, ctx := c, unit := u, acc := none }] }

/-- Translate and check one access of a context to a local window (R50). -/
def State.translate (s : State) (c : Nat) (va : W64) (ask : Ask) (st : Nat) : Tr × State :=
  if nonCanonical va then (.page, s)
  else match s.leafOf c va with
    | (.page, s1) => (.page, s1)
    | (.notPres l, s1) => (.notPres l, s1.reportUnit c va)
    | (.leaf e, s1) => s1.checkLeaf c va ask st e

/-- Drop what the translation units hold of a range (R51). -/
def State.dropRange (s : State) (c : Nat) (va len : Nat) (glob : Bool) : State :=
  { s with
    tlb := s.tlb.filter fun t =>
      !(((t.ctx = c && !leafGlobal t.leaf) || (glob && leafGlobal t.leaf)) && t.base < va + len && va < t.base + t.size)
    wcache := s.wcache.filter fun w =>
      !(w.ctx = c && w.pfx * 2 ^ lvlShift w.level < va + len && va < (w.pfx + 1) * 2 ^ lvlShift w.level) }

/-- Drop everything the translation units hold of a context (R148). -/
def State.dropCtx (s : State) (c : Nat) : State :=
  { s with tlb := s.tlb.filter fun t => t.ctx ≠ c, wcache := s.wcache.filter fun w => w.ctx ≠ c }

/-! ### Bytes of a store at a channel -/

/-- Units that some cells lie in. -/
def cellUnits (cells : List Host.Cell) : List Nat :=
  distinct ((cells.filter fun c => keyIsSnap c.1).map fun c => snapVa c.1 / 4096 * 4096)

/-- Every unit that some cells lie in has a frame for step `st`. -/
def State.openUnits (s : State) (cells : List Host.Cell) (st : Nat) : State :=
  (cellUnits cells).foldl (fun t va => (t.openUnit va st).getD t) s

/-- The cells of a store at a snapshot unit go to every frame of the unit with a tag at or above the step (R179); others land where they
are. -/
def State.spread (s : State) (cells : List Host.Cell) (st : Nat) : List Host.Cell :=
  (cells.map fun c =>
    if !keyIsSnap c.1 then [c]
    else match s.unitAt (snapVa c.1) with
      | none => []
      | some u => (u.frames.filter fun f => st ≤ f.tag).map fun f => (f.key + c.1 % 4096, c.2)).flatten

/-- A write meets a declaration in progress (R187). -/
def State.declares (s : State) (cells : List Host.Cell) : State :=
  if s.snap.st = 1 ∧ cells.any (fun c => keyIsSnap c.1) then s.parityTouched else s

/-- Perform a store's cells at their channels (R171, R179). -/
def State.chanWrite (s : State) (cells : List Host.Cell) (st : Nat) : State :=
  let t := (s.declares cells).openUnits cells st
  t.write (t.spread cells st) st

/-! ### Control-plane accesses to device memory -/

/-- Cut `n` bytes from an address into pieces inside one 256-byte unit each (R40). -/
def pieces (va : Nat) : Nat → List (Nat × Nat)
  | 0 => []
  | n + 1 =>
    match pieces (va + 1) n with
    | [] => [(va, 1)]
    | (a, k) :: r => if a % 256 = 0 then (va, 1) :: (a, k) :: r else (va, k + 1) :: r

/-- HBM lines of a range of keys are transferred (R58). -/
def State.countSpan (s : State) (k n : Nat) (cbf : Bool) : State :=
  if keyIsHbm k then (distinct ((List.range n).map fun i => (k + i) / 128)).foldl (fun t l => t.countLine (l * 128) cbf) s else s

/-- Translate every piece for a control-plane access: the key ranges, or none when any piece faults. -/
def State.vaRanges (s : State) (c : Nat) (ask : Ask) : List (Nat × Nat) → Option (List (Nat × Nat) × State)
  | [] => some ([], s)
  | (a, n) :: r =>
    let va := BitVec.ofNat 64 a
    if isFabric va then none
    else match s.translate c va ask s.stepCtr.toNat with
      | (.ok k cbf, s1) =>
        let s2 := if ask = .write then (s1.openUnit (snapVa k) s.stepCtr.toNat).getD s1 else s1
        match (s2.countSpan k n cbf).vaRanges c ask r with
        | some (ks, s3) => some ((k, n) :: ks, s3)
        | none => none
      | _ => none

/-- Read `n` bytes of a context; none when any byte faults. -/
def State.vaRead (s : State) (c : Nat) (va : W64) (n : Nat) : Option (List Byte) :=
  match s.vaRanges c .read (pieces va.toNat n) with
  | none => none
  | some (ks, s1) => some (ks.map fun p => s1.rbytes p.1 p.2).flatten

/-- What a control-plane read leaves behind: translations, and line transfers counted (R49, R58). -/
def State.noteRead (s : State) (c : Nat) (va : W64) (n : Nat) : State :=
  match s.vaRanges c .read (pieces va.toNat n) with
  | none => s
  | some (_, s1) => s1

/-- A 64-bit word of a context. -/
def State.vaWord (s : State) (c : Nat) (va : W64) : Option W64 :=
  (s.vaRead c va 8).map fun bs => BitVec.ofNat 64 (ofLeBytes bs)

/-- The hampers that some keys go to write back until they have room (R172, assumption 91). -/
def State.hampersFor (s : State) (keys : List Nat) : State :=
  (keys.filter fun k => keyIsScm k || keyIsSnap k).foldl (fun t k => t.makeRoom (stackOf k) (roomOf k) t.hamp.length) s

/-- Write bytes for a context, all or none. -/
def State.vaWrite (s : State) (c : Nat) (va : W64) (bs : List Byte) : Option State :=
  let ps := pieces va.toNat bs.length
  match s.vaRanges c .write ps with
  | none => none
  | some (keys, _) =>
    match (s.hampersFor (keys.map (·.1))).vaRanges c .write ps with
    | none => none
    | some (ks, s1) => some (s1.chanWrite ((ks.map fun p => (List.range p.2).map (p.1 + ·)).flatten.zip bs) s1.stepCtr.toNat)

end Sys2Proof.Machine
end

