-- ==== Sys2Proof/Machine/Ops.lean ====
section
/-! DEFINITION. The named operations over wefts, teams and registers; taking a trap and returning from one (R275, R276),
fatal teardown (R148, R290), and how a group commits, waits or traps. -/

namespace Sys2Proof.Machine

/-- Outcome of a meaning. -/
abbrev Res := Host.Outcome State Fault Refusal

/-- A next state is changed by a function; a stop stays a stop. -/
def Res.andThen (r : Res) (f : State → State) : Res :=
  match r with
  | .next s => .next (f s)
  | .fault e => .fault e
  | .refused e => .refused e

/-- One meaning after another; a stop stays a stop. -/
def Res.bind (r : Res) (f : State → Res) : Res :=
  match r with
  | .next s => f s
  | .fault e => .fault e
  | .refused e => .refused e

/-! ### Host memory (R107, R118) -/

/-- The host answers an access to `n` bytes of its memory: the link is up, and no byte lies in a range that it does not answer
(assumption 90). -/
def State.hostOk (s : State) (a n : Nat) : Bool :=
  s.host.width != 0 && s.host.holes.all fun h => decide (a + n ≤ h.1) || decide (h.1 + h.2 ≤ a)

/-- Bytes of host memory; none when the read faults (R118). -/
def State.hostRead (s : State) (a n : Nat) : Option (List Byte) := if s.hostOk a n then some (s.bytes (hostKey a) n) else none

/-- Write host memory; none when the write faults (R115). -/
def State.hostPut (s : State) (a : Nat) (bs : List Byte) : Option State :=
  if s.hostOk a bs.length then some (s.writeBytes (hostKey a) bs) else none

/-- An index that the device writes to host memory (R114, R120); one that faults is lost. -/
def State.hostIndex (s : State) (a : Nat) (v : W32) : State := (s.hostPut a (leBytes 4 v.toNat)).getD s

/-! ### Numbering (R19) -/

/-- Cluster of a logical core. -/
def clusOf (core : Nat) : Nat := core / 4

/-- Die of a logical core. -/
def dieOf (core : Nat) : Nat := core / 52

/-! ### Finding and replacing parts -/

/-- The weft in a slot of a core. -/
def State.weft? (s : State) (core slot : Nat) : Option Weft :=
  s.wefts.find? fun w => w.core == core && w.slot == slot

/-- Replace the weft of a slot. -/
def State.setWeft (s : State) (w : Weft) : State :=
  { s with wefts := s.wefts.map fun v => if v.core = w.core ∧ v.slot = w.slot then w else v }

/-- The team of a number. -/
def State.team? (s : State) (id : Nat) : Option Team := s.teams.find? fun t => t.id == id

/-- Replace a team. -/
def State.setTeam (s : State) (t : Team) : State :=
  { s with teams := s.teams.map fun u => if u.id = t.id then t else u }

/-- The launch of a context and serial. -/
def State.launch? (s : State) (c serial : Nat) : Option Launch :=
  s.launches.find? fun l => l.ctx == c && l.serial == serial

/-- Replace a launch. -/
def State.setLaunch (s : State) (l : Launch) : State :=
  { s with launches := s.launches.map fun m => if m.ctx = l.ctx ∧ m.serial = l.serial then l else m }

/-- The launch of a weft. -/
def State.launchOf (s : State) (w : Weft) : Option Launch :=
  match s.team? w.team with
  | some t => s.launch? t.ctx t.serial
  | none => none

/-- The pipeline that a launch is a stage of (R138). -/
def State.pipeOf (s : State) (l : Launch) : Option Pipe :=
  if l.lrec.pipe = 0 then none else s.pipes.find? fun p => p.ctx == l.ctx && p.serials.contains (some l.serial)

/-- Replace a pipeline. -/
def State.setPipe (s : State) (p : Pipe) : State :=
  { s with pipes := s.pipes.map fun q => if q.id = p.id then p else q }

/-- The access of a number. -/
def State.acc? (s : State) (id : Nat) : Option Access := s.accs.find? fun a => a.id == id

/-- Replace an access. -/
def State.setAcc (s : State) (a : Access) : State :=
  { s with accs := s.accs.map fun b => if b.id = a.id then a else b }

/-- Remove an access. -/
def State.dropAcc (s : State) (id : Nat) : State := { s with accs := s.accs.filter fun a => a.id ≠ id }

/-- A fresh operation number. -/
def State.fresh (s : State) : Nat × State := (s.nextId, { s with nextId := s.nextId + 1 })

/-- A free 64-bit value (assumption 2). -/
def State.draw (s : State) : W64 × State := (Config.draw64 s.draws, { s with draws := s.draws + 1 })

/-- Put an event on the agenda: it is the next step (assumption 4). -/
def State.post (s : State) (i : Instr) : State := { s with agenda := s.agenda ++ [i] }

/-- What the device shows the outside. -/
def State.emit (s : State) (o : Out) : State := { s with host := { s.host with out := o :: s.host.out } }

/-- Set bits of ALERTST; an in-band interrupt goes out when the enabled bits rise from none (R125). -/
def State.alert (s : State) (bit : Nat) : State :=
  let old := s.host.alertst
  let new := old ||| BitVec.ofNat 9 (2 ^ bit)
  let s1 := { s with host := { s.host with alertst := new } }
  if s.host.ibiOn && (old &&& s.host.alerten) == 0 && (new &&& s.host.alerten) != 0 then
    s1.emit (.ibi ((new &&& s.host.alerten).setWidth 8))
  else s1

/-! ### Registers -/

/-- A scalar register. -/
def Weft.sreg (w : Weft) (n : Nat) : SReg := w.sregs.getD n { val := 0, full := true, pois := false }

/-- The register that an unallocated number would be: U(0), full. -/
def VReg.zero : VReg := { val := .u 0, full := true, pois := false }

/-- A physical vector register (R205). -/
def Weft.vreg (w : Weft) (n : Nat) : VReg := w.vregs.getD n VReg.zero

/-- An index register at its reset value (R215). -/
def XReg.zero : XReg := { base := 0, bound := 1, step := 0, mode := 0, off := List.replicate 64 0 }

/-- An index register (R215). -/
def Weft.xreg (w : Weft) (n : Nat) : XReg := w.xregs.getD n XReg.zero

/-- Write a scalar register; any write clears its poison (R286). -/
def Weft.setS (w : Weft) (n : Nat) (v : W64) : Weft :=
  { w with sregs := modAt w.sregs n fun r => { r with val := v, pois := false } }

/-- Mark a scalar register full or empty (R226). -/
def Weft.fillS (w : Weft) (n : Nat) (f : Bool) : Weft :=
  { w with sregs := modAt w.sregs n fun r => { r with full := f } }

/-- Mark vector registers full or empty (R226). -/
def Weft.fillV (w : Weft) (f : Bool) : List Nat → Weft
  | [] => w
  | n :: r => Weft.fillV { w with vregs := modAt w.vregs n fun x => { x with full := f } } f r

/-- Physical registers of the weft (R205). -/
def Weft.n (w : Weft) : Nat := w.vregs.length

/-- The value of a lane of a register (R208). -/
def VVal.lane : VVal → Nat → W32
  | .u c, _ => c
  | .a b d, i => b + BitVec.ofNat 32 i * d
  | .g ls, i => ls.getD i 0

/-- All 64 lane values. -/
def VVal.lanes (v : VVal) : List W32 := laneIdx.map v.lane

/-- Lane `i` is in the mask. -/
def inMask (m : W64) (i : Nat) : Bool := m.getLsbD i

/-- The active lanes in ascending order. -/
def activeLanes (m : W64) : List Nat := laneIdx.filter (inMask m)

/-- The mask of some lanes. -/
def maskOf (f : Nat → Bool) : W64 := BitVec.ofNat 64 (laneIdx.foldl (fun acc i => if f i then acc + 2 ^ i else acc) 0)

/-- A vector value written under a mask over an old one: the new value and its tag with every lane active, lane by lane
and G otherwise, nothing with none (R202, R210). -/
def mergeV (m : W64) (old new : VVal) : VVal :=
  if m = allLanes then new
  else if m = 0 then old
  else .g (laneIdx.map fun i => if inMask m i then new.lane i else old.lane i)

/-- Write a physical register under a mask; a write of every lane clears its poison (R286). -/
def Weft.setV (w : Weft) (n : Nat) (m : W64) (v : VVal) : Weft :=
  if m = 0 then w
  else { w with vregs := modAt w.vregs n fun r =>
           { r with val := mergeV m r.val v, pois := r.pois && m != allLanes } }

/-- Write one lane of a physical register through an index register: it becomes G (R221). -/
def Weft.setLane (w : Weft) (n i : Nat) (v : W32) : Weft :=
  { w with vregs := modAt w.vregs n fun r => { r with val := .g (setAt r.val.lanes i v) } }

/-! ### Prefixes -/

end Sys2Proof.Machine

namespace Sys2Proof

/-- Words of a group (R299). -/
def Pfx.len (p : Pfx) : Nat := 1 + b2n p.xg.isSome + b2n p.xl.isSome

/-! The fields of an XG prefix, 0 without one (R304). -/

def Pfx.ord (p : Pfx) : Nat := match p.xg with | some x => x.ord.toNat | none => 0
def Pfx.rnd (p : Pfx) : Nat := match p.xg with | some x => x.rnd.toNat | none => 0
def Pfx.scope (p : Pfx) : Nat := match p.xg with | some x => x.scope.toNat | none => 0
def Pfx.sat (p : Pfx) : Bool := match p.xg with | some x => x.sat | none => false
def Pfx.ea (p : Pfx) : Bool := match p.xg with | some x => x.ea | none => false
def Pfx.eb (p : Pfx) : Bool := match p.xg with | some x => x.eb | none => false
def Pfx.ed (p : Pfx) : Bool := match p.xg with | some x => x.ed | none => false
def Pfx.nt (p : Pfx) : Bool := match p.xg with | some x => x.nt | none => false

end Sys2Proof

namespace Sys2Proof.Machine

/-- The guard of a group (R305): all lanes without one. -/
def Weft.guard (w : Weft) (p : Pfx) : W64 :=
  match p.xg with
  | some x => if x.ge then (if x.gn then ~~~(w.sreg x.gs.toNat).val else (w.sreg x.gs.toNat).val) else allLanes
  | none => allLanes

/-- The effective mask: `em` AND guard, less the done lanes on a PL re-issue (R305, R276). -/
def Weft.effMask (w : Weft) (p : Pfx) : W64 :=
  let m := w.em &&& w.guard p
  if w.narrow then m &&& ~~~w.dm else m

/-- Address of the group after this one. -/
def Weft.nextPc (w : Weft) (p : Pfx) : W64 := w.pc + BitVec.ofNat 64 (4 * p.len)

/-- What the group adds to `rctr` (R306). -/
def Weft.rctrStep (w : Weft) (p : Pfx) (rounds : Bool) : W32 :=
  if p.rnd = 5 then 1
  else if p.rnd = 0 ∧ rounds ∧ field w.fpmode.toNat 0 3 = 4 then 1
  else 0

/-- The weft of a group that issued and then traps: `rctr` has advanced (R306, R385). -/
def Weft.issued (w : Weft) (p : Pfx) (rounds : Bool) : Weft := { w with rctr := w.rctr + w.rctrStep p rounds }

/-- The end of a group: nothing waits, and a single STEP halts again (R291). Its ages have cleared in the cycle of its issue (R143). -/
def Weft.afterGroup (w : Weft) : Weft :=
  { w with waiting := none, narrow := false, halted := w.halted || w.stepping, stepping := false }

/-- A group commits and control goes to `pc`. -/
def Weft.commitTo (w : Weft) (p : Pfx) (rounds : Bool) (pc : W64) : Weft :=
  { w.afterGroup with pc := pc, rctr := w.rctr + w.rctrStep p rounds }

/-- A group commits and control goes to the next group. -/
def Weft.commit (w : Weft) (p : Pfx) (rounds : Bool) : Weft := w.commitTo p rounds (w.nextPc p)

/-! ### Causes and trap information -/

/-- Code of a cause (R279). -/
def Cause.code : Cause → Nat
  | .illop => 0x01 | .illopnd => 0x02 | .shape => 0x03 | .bound => 0x04 | .uniform => 0x05 | .empty => 0x06
  | .regrange => 0x07 | .align => 0x08 | .spaddr => 0x09 | .page => 0x0A | .prot => 0x0B | .fpx => 0x0C
  | .swtrap => 0x0D | .brk => 0x0E | .preempt => 0x0F | .debug => 0x10 | .pfail => 0x11 | .softerr => 0x12
  | .knot => 0x13 | .itin => 0x14 | .fabric => 0x15 | .queue => 0x16 | .nested => 0x17

/-- The fields of `tinfo` (R277). -/
structure TInfo where
  opnd : Nat
  pl : Bool
  nxt : Bool
  reach : Nat
  detail : Nat
  preg : Nat
  imm : Nat
  deriving DecidableEq, Repr

/-- Every field 0. -/
def TInfo.none : TInfo := { opnd := 0, pl := false, nxt := false, reach := 0, detail := 0, preg := 0, imm := 0 }

/-- `tinfo` as a word (R277). -/
def TInfo.word (t : TInfo) : W64 :=
  BitVec.ofNat 64 (t.opnd + 2 ^ 3 * b2n t.pl + 2 ^ 4 * b2n t.nxt + 2 ^ 5 * t.reach + 2 ^ 8 * t.detail
    + 2 ^ 16 * t.preg + 2 ^ 32 * t.imm)

/-! ### Fatal teardown -/

/-- Release a weft of a context being torn down or rolled back: a wait sets REL (`busy` says that a read of a `swait` is under way), that of an
`itn.next` returns 0, a parked or unsettled group is dropped, and the exit is injected (R148, steps 3 and 4; R234, R431, R457). -/
def Weft.release (w : Weft) (busy : Bool) : Weft :=
  { w with
    injected := true
    err := w.err || busy || w.itnNext || (match w.waiting with
      | some (.knot _ _) | some .queue | some .entry | some .counter | some .barrier | some .swait | some .register | some .task => true
      | _ => false)
    sregs := match w.itnReg with
      | some n => if w.itnNext then modAt w.sregs n fun (r : SReg) => { r with val := 0, pois := false } else w.sregs
      | none => w.sregs
    waiting := none, parked := none, unsettled := none, sleep := 0, events := []
    pbars := [], busy := [], narrow := false, preempt := false, itnNext := false, halted := false, halting := false, stepping := false
    fence := none
    stopped := none, released := false
    cnt := List.replicate 6 [] }

/-- A weft is in a `swait` whose read is under way (R234, R419). -/
def State.inSwait (s : State) (w : Weft) : Bool :=
  match w.unsettled.bind fun i => s.accs.find? fun a => a.id == i with
  | some a => (match a.kind with | .swait _ _ => true | _ => false)
  | none => false

/-- Drop the operations of a context that are not performed (R148, step 5; R273). -/
def State.abandonOps (s : State) (c : Nat) : State :=
  { s with
    accs := s.accs.filter fun a => a.ctx ≠ c
    cmds := s.cmds.filter fun k => k.ctx ≠ c
    teams := s.teams.map fun t => if t.ctx = c then { t with mcmds := [] } else t
    holds := s.holds.filter fun h => h.ctx ≠ c
    fab := { s.fab with comb := s.fab.comb.filter (fun e => e.ctx ≠ c),
                        packets := s.fab.packets.filter (fun k => k.ctx ≠ c) } }

/-- A queue whose context is torn down: its commands are dropped (R119). -/
def Queue.stop (q : Queue) : Queue := { q with en := false, fetched := [], running := [], st := 0 }

/-- The itinerary of a context that is torn down stops and is unbound (R150). -/
def Itin.unbind (t : Itin) (c : Nat) : Itin :=
  if t.bound = some c then
    { t with bound := none, loaded := false, st := 0, tasks := [], syncPhase := 0, stepSent := false, acks := [],
             stopper := none }
  else t

/-- Teardown starts (R148, steps 1 to 5; R150). -/
def State.beginTeardown (s : State) (c : Nat) : State :=
  let s1 := { (s.dropCtx c).abandonOps c with itin := s.itin.unbind c }
  let x := s1.ctx c
  { s1.setCtx c { x with st := .tearing, fqheld := [] } with
    queues := s1.queues.map fun e => if e.1.1 = c then (e.1, e.2.stop) else e
    wefts := s1.wefts.map fun w => if w.ctx = c then w.release (s.inSwait w) else w }

/-- Bytes of the fatal record (R295). -/
def fatalBytes (w : Weft) (cause : Nat) (lanes info rpc : W64) : List Byte :=
  leBytes 2 w.core ++ leBytes 1 w.slot ++ leBytes 1 cause ++ leBytes 4 0 ++ leBytes 8 rpc.toNat
    ++ leBytes 8 lanes.toNat ++ leBytes 8 info.toNat

/-- A fatal cause at a weft (R290): LASTERR, the fatal record when SAVE is writable, and teardown. -/
def State.fatal (s : State) (w : Weft) (cause : Cause) (lanes info rpc : W64) : State :=
  let x := s.ctx w.ctx
  if x.st = .tearing ∨ x.st = .free then s
  else
    let s1 := s.setCtx w.ctx { x with lasterr := BitVec.ofNat 8 (0x80 ||| cause.code) }
    let s2 := (s1.vaWrite w.ctx (x.desc.save + 0x40) (fatalBytes w cause.code lanes info rpc)).getD s1
    s2.beginTeardown w.ctx

/-! ### Taking a trap and returning from it -/

/-- Trap entry (R275): `w` is the trapping weft with whatever its group committed, stored by this operation. -/
def State.takeTrap (s : State) (w : Weft) (cause : Cause) (lanes info rpc : W64) : State :=
  if w.tm then (s.setWeft w).fatal w .nested lanes info rpc
  else s.setWeft
    { w.afterGroup with
      tpc := rpc, tcause := BitVec.ofNat 8 cause.code, tmask := lanes, tinfo := info
      tem := w.em, tdm := w.dm, em := allLanes, tm := true, pc := (s.ctx w.ctx).desc.tvec }

/-- A trap of kind F: the group, its effective mask (R278). -/
def State.trapF (s : State) (w : Weft) (cause : Cause) (lanes : W64) (t : TInfo) : State :=
  s.takeTrap w cause lanes t.word w.pc

/-- A trap of kind L: the group and the lanes with the cause; PL is set (R278). -/
def State.trapL (s : State) (w : Weft) (cause : Cause) (lanes : W64) (t : TInfo) : State :=
  s.takeTrap w cause lanes { t with pl := true }.word w.pc

/-- A trap of kind A or E at `rpc`, the next group: NXT is set (R278). -/
def State.trapNext (s : State) (w : Weft) (cause : Cause) (lanes : W64) (t : TInfo) (rpc : W64) : State :=
  s.takeTrap w cause lanes { t with nxt := true }.word rpc

/-- `tinfo` with PL cleared. -/
def clearPl (x : W64) : W64 := x &&& ~~~(8 : W64)

/-- Return from a trap (R276). With TM = 0 it raises ILLOP with DETAIL 6. -/
def State.tret (s : State) (w : Weft) (p : Pfx) : State :=
  if !w.tm then s.trapF w .illop w.em { TInfo.none with detail := 6 }
  else s.setWeft
    { w.commitTo p false w.tpc with
      em := w.tem, dm := w.tdm, tm := false, narrow := w.tinfo.getLsbD 3, tinfo := clearPl w.tinfo }

/-! ### Waiting -/

/-- The group is not ready: nothing changes but what the weft is seen to wait on (R142). -/
def State.waits (s : State) (w : Weft) (r : Wait) : State := s.setWeft { w with waiting := some r }

/-! ### Counters -/

/-- A completion counter's value (R230). -/
def Weft.count (w : Weft) (c : Nat) : Nat := (w.cnt.getD c []).length

/-- Drop the completed entries at the head (R230). -/
def dropDone : List CntEntry → List CntEntry
  | [] => []
  | e :: r => if e.done then dropDone r else e :: r

/-- Raise a counter (R229). -/
def Weft.raise (w : Weft) (c op : Nat) : Weft :=
  { w with cnt := modAt w.cnt c fun l => l ++ [{ op := op, done := false }] }

/-- An operation of a counter completes; the counter is lowered in issue order (R230). -/
def Weft.lower (w : Weft) (c op : Nat) : Weft :=
  { w with cnt := modAt w.cnt c fun l => dropDone (l.map fun e => if e.op = op then { e with done := true } else e) }

/-- An instruction that traps leaves its counter at once (R231). -/
def Weft.uncount (w : Weft) (c op : Nat) : Weft :=
  { w with cnt := modAt w.cnt c fun l => dropDone (l.filter fun e => e.op ≠ op) }

/-! ### Barriers of a team (R461, R462) -/

/-- Members of a barrier: 0-5 every weft, 6 the access wefts, 7 the execute wefts. -/
def Team.members (t : Team) (b : Nat) : BitVec 32 :=
  BitVec.ofNat 32 (if b < 6 then 2 ^ t.nweft - 1 else if b = 6 then 2 ^ t.nacc - 1 else 2 ^ t.nweft - 2 ^ t.nacc)

/-- A barrier's mask after it opens, if it does: the mask and the exited members cover every member. -/
def Team.openBar (t : Team) (b : Nat) (m : BitVec 32) : BitVec 32 :=
  if m != 0 && (t.members b &&& ~~~(m ||| t.exitedMask)) == 0 then 0 else m

/-- Open every barrier of a team that can open. -/
def Team.openBars (t : Team) : Team := { t with bars := (List.range 8).map fun b => t.openBar b (t.bars.getD b 0) }

/-! ### Queues of a team -/

/-- Bytes of the itinerary header as a number (R151). -/
def Itin.hdr (t : Itin) (off n : Nat) : Nat := ofLeBytes ((t.header.drop off).take n)

/-- VA of a task record (R160). -/
def State.taskVa (s : State) (slot : Nat) : W64 := BitVec.ofNat 64 (s.itin.hdr 0x70 8 + 64 * slot)

/-- Input of q3 for a weft: its task record, its stage's queue, or nothing (R222, R224, R139, R161). `some none` blocks. With no current task
it is the address of record 0 (assumption 118). -/
def State.q3Head (s : State) (w : Weft) : Option (Option W64) :=
  match s.launchOf w with
  | none => some (some 0)
  | some l =>
    if l.itn.isSome then some (some (s.taskVa (l.task.getD 0)))
    else
      if l.lrec.pipe = 0 ∨ l.lrec.stage = 0 then some (some 0)
      else match s.pipeOf l with
        | none => some (some 0)
        | some p =>
          match p.queues.getD l.lrec.stage [] with
          | v :: _ => some (some v)
          | [] => if p.closed.getD l.lrec.stage false then some (some 0) else some none

/-- The poison of a stage's queue after its head is popped (R286). -/
def Pipe.popPois (p : Pipe) (k : Nat) : List (Nat × Nat) :=
  (p.qpois.filter (· ≠ (k, 0))).map fun e => if e.1 = k then (k, e.2 - 1) else e

/-- The head entry of a weft's stage queue is poisoned (R286). -/
def State.q3Poisoned (s : State) (w : Weft) : Bool :=
  match s.launchOf w with
  | none => false
  | some l =>
    if l.itn.isSome ∨ l.lrec.pipe = 0 then false
    else match s.pipeOf l with
      | none => false
      | some p => p.qpois.contains (l.lrec.stage, 0)

/-- Pop q3. -/
def State.q3Pop (s : State) (w : Weft) : State :=
  match s.launchOf w with
  | none => s
  | some l =>
    if l.itn.isSome ∨ l.lrec.pipe = 0 ∨ l.lrec.stage = 0 then s
    else match s.pipeOf l with
      | none => s
      | some p => s.setPipe { p with queues := modAt p.queues l.lrec.stage List.tail, qpois := p.popPois l.lrec.stage }

/-- The output stage of q4: the pipeline and the queue it feeds; none for the last stage and outside a pipeline (R139). -/
def State.q4Out (s : State) (w : Weft) : Option (Pipe × Nat) :=
  match s.launchOf w with
  | none => none
  | some l =>
    if l.lrec.pipe = 0 ∨ l.itn.isSome then none
    else match s.pipeOf l with
      | none => none
      | some p => if l.lrec.stage + 1 < p.nstage then some (p, l.lrec.stage + 1) else none

/-- Room in q4's queue. -/
def State.q4Room (s : State) (w : Weft) : Nat :=
  match s.q4Out w with
  | none => 0
  | some (p, k) => p.qdep.getD k 0 - (p.queues.getD k []).length

/-- Push to q4. -/
def State.q4Push (s : State) (w : Weft) (v : W64) : State :=
  match s.q4Out w with
  | none => s
  | some (p, k) => s.setPipe { p with queues := modAt p.queues k fun l => l ++ [v] }

/-- The entries of a 64-bit team queue. -/
def Team.q (t : Team) (n : Nat) : List W64 :=
  match n with
  | 0 => t.q0 | 1 => t.q1 | 2 => t.q2 | 6 => t.q6 | 7 => t.q7 | _ => []

/-- Set a 64-bit team queue. -/
def Team.setQ (t : Team) (n : Nat) (l : List W64) : Team :=
  match n with
  | 0 => { t with q0 := l } | 1 => { t with q1 := l } | 2 => { t with q2 := l }
  | 6 => { t with q6 := l } | 7 => { t with q7 := l } | _ => t

/-- The entry a pop of a scalar queue would take; none blocks. -/
def State.qHead (s : State) (w : Weft) (n : Nat) : Option W64 :=
  if n = 3 then (match s.q3Head w with | some r => r | none => none)
  else match s.team? w.team with
    | some t => (t.q n).head?
    | none => none

/-- Pop a scalar queue. -/
def State.qPop (s : State) (w : Weft) (n : Nat) : State :=
  if n = 3 then s.q3Pop w
  else match s.team? w.team with
    | some t => s.setTeam (t.setQ n (t.q n).tail)
    | none => s

/-- Depth of the role channels (R222). -/
def roleDepth : Nat := 16

/-- Depth of a token queue (R222). -/
def tokenDepth : Nat := 64

/-- A push to a scalar queue would block. -/
def State.qFull (s : State) (w : Weft) (n : Nat) : Bool :=
  if n = 4 then s.q4Room w == 0
  else match s.team? w.team with
    | some t => roleDepth ≤ (t.q n).length
    | none => false

/-- Push to a scalar queue. -/
def State.qPush (s : State) (w : Weft) (n : Nat) (v : W64) : State :=
  if n = 4 then s.q4Push w v
  else match s.team? w.team with
    | some t => s.setTeam (t.setQ n (t.q n ++ [v]))
    | none => s

end Sys2Proof.Machine
end

