-- ==== Sys2Proof/Machine/Operands.lean ====
section
/-! DEFINITION. Every operand form (R309, R310): which registers and queue entries an operand names, when an instruction is
ready (R224, R227, R220), what its operands hold, and how its results are written (R209, R210, R214, R217-R221, R354). -/

namespace Sys2Proof.Machine

/-- Operand positions (R277 OPND). -/
inductive Pos where
  | a | b | ds | d
  deriving DecidableEq, Repr

/-- OPND code of a position (R277). -/
def Pos.code : Pos → Nat
  | .a => 1 | .b => 2 | .ds => 3 | .d => 4

/-- One use of an operand by an instruction. -/
structure Use where
  pos : Pos
  o : Opnd
  /-- A vector position (R310). -/
  vec : Bool
  /-- Physical registers from the one named: 1, 2 for a pair, 4 for 16 bytes. -/
  regs : Nat
  wr : Bool
  /-- It waits on the busy ranges of R220; an index register instruction does not (R376). -/
  waits : Bool := true
  deriving DecidableEq, Repr

/-- A scalar source. -/
def srcS (pos : Pos) (o : Opnd) : Use := { pos := pos, o := o, vec := false, regs := 1, wr := false }
/-- A scalar destination. -/
def dstS (o : Opnd) : Use := { pos := .d, o := o, vec := false, regs := 1, wr := true }
/-- A vector source of `k` registers. -/
def srcV (pos : Pos) (o : Opnd) (k : Nat) : Use := { pos := pos, o := o, vec := true, regs := k, wr := false }
/-- A vector destination of `k` registers. -/
def dstV (o : Opnd) (k : Nat) : Use := { pos := .d, o := o, vec := true, regs := k, wr := true }

/-- The use makes an indirect access (R217). -/
def Use.indirect (u : Use) : Bool := u.vec && u.o.isX

/-- Number of an index or queue operand. -/
def opndNum : Opnd → Nat
  | .v n => n.val | .s n => n.val | .x n => n.val | .q n => n.val | _ => 0

/-- The XG trap-on-empty bit that covers a position (R304). -/
def trapOnEmpty (p : Pfx) : Pos → Bool
  | .a => p.ea | .b => p.eb | .ds => p.ed | .d => false

/-- Number of active lanes. -/
def popCount (m : W64) : Nat := (activeLanes m).length

/-! ### Index registers -/

/-- Access offset and next offset of one lane (R217); modulo 256. -/
def xStep (x : XReg) (wr : Bool) (off : BitVec 8) : BitVec 8 × BitVec 8 :=
  let st := x.step.signExtend 8
  match x.mode.toNat with
  | 0 => (off, off)
  | 1 => (off, off + st)
  | 2 => (off - st, off - st)
  | _ => if wr then (off, off + st) else (off - st, off - st)

/-- Offsets of an index register after an access by the lanes of a mask. -/
def xNext (x : XReg) (wr : Bool) (m : W64) : List (BitVec 8) :=
  laneIdx.map fun i => if inMask m i then (xStep x wr (x.off.getD i 0)).2 else x.off.getD i 0

/-- Physical register that each lane accesses (R217). -/
def xRegs (x : XReg) (wr : Bool) : List Nat := laneIdx.map fun i => x.base + (xStep x wr (x.off.getD i 0)).1.toNat

/-- Active lanes whose access passes the bound (R217). -/
def xBad (x : XReg) (wr : Bool) (regs : Nat) (m : W64) : W64 :=
  maskOf fun i => inMask m i && x.bound < (xStep x wr (x.off.getD i 0)).1.toNat + regs

/-- The indirect operands of an instruction resolved in order (R218): per use the registers of the 64 lanes, the index
registers with every update applied, and the lanes that pass a bound. -/
def resolve (m : W64) : List Use → List XReg → List (List Nat) × List XReg × W64
  | [], xs => ([], xs, 0)
  | u :: r, xs =>
    if u.indirect then
      let x := xs.getD (opndNum u.o) XReg.zero
      let rest := resolve m r (setAt xs (opndNum u.o) { x with off := xNext x u.wr m })
      (xRegs x u.wr :: rest.1, rest.2.1, xBad x u.wr u.regs m ||| rest.2.2)
    else
      let rest := resolve m r xs
      ([] :: rest.1, rest.2.1, rest.2.2)

/-- Offset updates are kept by the lanes of `ok` and undone for the others (R219). -/
def keepOffsets (ok : W64) : List XReg → List XReg → List XReg
  | x :: xs, y :: ys =>
    { y with off := laneIdx.map fun i => if inMask ok i then y.off.getD i 0 else x.off.getD i 0 }
      :: keepOffsets ok xs ys
  | _, ys => ys

/-! ### Readiness and operand faults -/

/-- Result of a check. -/
inductive Chk where
  | ok
  | wait (r : Wait)
  | trap (c : Cause) (t : TInfo)
  deriving DecidableEq, Repr

/-- The first check that does not pass. -/
def firstChk : List Chk → Chk
  | [] => .ok
  | .ok :: r => firstChk r
  | c :: _ => c

/-- Physical registers of a direct vector operand (R206). -/
def Weft.phys (w : Weft) (u : Use) : List Nat :=
  match u.o with
  | .v n => (List.range u.regs).map fun k => w.wb + n.val + k
  | _ => []

/-- REGRANGE of a window name (R206). -/
def rangeChk (w : Weft) (u : Use) : Chk :=
  if (w.phys u).any fun n => w.n ≤ n then .trap .regrange TInfo.none else .ok

/-- A register lies in a busy range (R220). -/
def Weft.regBusy (w : Weft) (n : Nat) : Bool := w.busy.any fun b => b.2.1 ≤ n && n < b.2.1 + b.2.2

/-- A range overlaps a busy range (R220). -/
def Weft.rangeBusy (w : Weft) (base bound : Nat) : Bool :=
  w.busy.any fun b => b.2.1 < base + bound && base < b.2.1 + b.2.2

/-- SOFTERR with reach REG on a poisoned source (R286): a read, or a write of some lanes only. -/
def poisonTrap (pos : Nat) (preg : Nat) : Chk :=
  .trap .softerr { TInfo.none with opnd := pos, reach := 1, preg := preg }

/-- Physical registers that the active lanes reach through an index register, those of lanes past the bound left out (R217). -/
def Weft.reached (w : Weft) (m : W64) (u : Use) (xs : List Nat) : List Nat :=
  let x := w.xreg (opndNum u.o)
  (((activeLanes m).map fun i => xs.getD i 0).filter fun n => decide (n + u.regs ≤ x.base + x.bound)).flatMap fun n =>
    (List.range u.regs).map (n + ·)

/-- Every lane writes the register through the index register (R286). -/
def wholeWrite (m : W64) (u : Use) (xs : List Nat) (n : Nat) : Bool :=
  m == allLanes && laneIdx.all fun i => decide (xs.getD i 0 ≤ n) && decide (n < xs.getD i 0 + u.regs)

/-- Poison of the registers that a use reads (R286). `xs` are the registers of an indirect use. -/
def poisonChk (w : Weft) (m : W64) (u : Use) (xs : List Nat) : Chk :=
  let reads := !u.wr
  match u.o with
  | .s n => if reads && (w.sreg n.val).pois then poisonTrap u.pos.code (0x100 + n.val) else .ok
  | .v _ =>
    if reads || (m != 0 && m != allLanes) then
      match (w.phys u).find? fun n => (w.vreg n).pois with
      | some n => poisonTrap u.pos.code n
      | none => .ok
    else .ok
  | .x _ =>
    if u.vec then
      match (w.reached m u xs).find? fun n => (w.vreg n).pois && (reads || !wholeWrite m u xs n) with
      | some n => poisonTrap u.pos.code n
      | none => .ok
    else .ok
  | _ => .ok

/-- An empty source traps EMPTY under its XG bit and blocks otherwise (R224, R227). -/
def emptyChk (p : Pfx) (u : Use) (r : Wait) (preg : Nat) : Chk :=
  if !u.wr && trapOnEmpty p u.pos then .trap .empty { TInfo.none with opnd := u.pos.code, preg := preg }
  else .wait r

/-- Which queue operands count with an empty effective mask: none (R327, R434), those that are popped, since nothing is
pushed (R224, R354), or all (R327). -/
inductive QRule where
  | active | sources | all
  deriving DecidableEq, Repr

/-- A use whose queue counts under a mask. -/
def QRule.counts (q : QRule) (m : W64) (u : Use) : Bool :=
  m != 0 || match q with
    | .active => false
    | .sources => !u.wr
    | .all => true

/-- Full/empty bits, busy ranges and queues of one use (R220, R224, R227). `q` says that its queue counts; `xs` are the registers of an indirect
use. A read through an index register waits for every register of its range, but only one that it reads can trap EMPTY. -/
def readyChk (s : State) (w : Weft) (p : Pfx) (m : W64) (q : Bool) (u : Use) (xs : List Nat) : Chk :=
  match u.o with
  | .s n => if (w.sreg n.val).full then .ok else emptyChk p u .register (0x100 + n.val)
  | .v _ =>
    match (w.phys u).find? fun n => !(w.vreg n).full with
    | some n => emptyChk p u .register n
    | none => if u.waits && (w.phys u).any w.regBusy then .wait .range else .ok
  | .x k =>
    if !u.vec then .ok
    else
      let x := w.xreg k.val
      let empty := fun n : Nat => !(w.vreg n).full
      match (w.reached m u xs).find? empty with
      | some n => emptyChk p u .register n
      | none =>
        if w.rangeBusy x.base x.bound || (u.wr && 4 ≤ w.busy.length) then .wait .range
        else if !u.wr && ((List.range x.bound).map (x.base + ·)).any empty then .wait .register
        else .ok
  | .q n =>
    if !q then .ok
    else if n.val = 5 then
      match s.team? w.team with
      | none => .ok
      | some t =>
        if u.wr then (if t.q5.length + popCount m ≤ t.refill then .ok else .wait .queue)
        else if popCount m ≤ t.q5.length then .ok else emptyChk p u .entry 0
    else if u.wr then (if s.qFull w n.val then .wait .queue else .ok)
    else match s.qHead w n.val with
      | some _ => .ok
      | none => emptyChk p u .entry 0
  | _ => .ok

/-- The uses that raise QUEUE in this weft (R223); the fixed ones are the decoder's (R314, step 9). -/
def queueChk (s : State) (w : Weft) (u : Use) : Chk :=
  match u.o with
  | .q n =>
    let bad :=
      match n.val with
      | 4 => u.wr && (s.q4Out w).isNone
      | 5 => (match s.team? w.team with | some t => t.refill == 0 | none => true)
      | 6 => if u.wr then w.execRole else !w.execRole
      | 7 => if u.wr then !w.execRole else w.execRole
      | _ => false
    if bad then .trap .queue TInfo.none else .ok
  | _ => .ok

/-- The guard register of a group (R305). -/
def guardReg (p : Pfx) : Option Nat :=
  match p.xg with
  | some x => if x.ge then some x.gs.toNat else none
  | none => none

/-- Poison of the guard register (R286). -/
def guardPoison (w : Weft) (p : Pfx) : Chk :=
  match guardReg p with
  | some n => if (w.sreg n).pois then poisonTrap 5 (0x100 + n) else .ok
  | none => .ok

/-- An empty guard register blocks, whatever XG says (R305). -/
def guardReady (w : Weft) (p : Pfx) : Chk :=
  match guardReg p with
  | some n => if (w.sreg n).full then .ok else .wait .register
  | none => .ok

/-- The mask under which poison is looked for: while the guard is empty, no lane is known to be active. -/
def knownMask (w : Weft) (p : Pfx) : W64 := if guardReady w p = .ok then w.effMask p else 0

/-- A group that passed stages 2 and 3: its effective mask, its resolved indirect operands, the index registers with every
update, and the lanes past a bound. -/
structure Plan where
  m : W64
  regs : List (List Nat)
  xs : List XReg
  bad : W64
  deriving DecidableEq, Repr

/-- Stages 2 and 3 of R280 for a group's operands: go on with a plan, or stop. -/
inductive Prep where
  | go (g : Plan)
  | stop (c : Chk) (lanes : W64)
  deriving DecidableEq, Repr

/-- Check a group's operands in the order of R280: queues; ranges; poison; what is empty. -/
def prep (s : State) (w : Weft) (p : Pfx) (uses : List Use) (q : QRule) : Prep :=
  let m := w.effMask p
  let r := resolve m uses w.xregs
  match firstChk (uses.map (queueChk s w)) with
  | .ok =>
    match firstChk (uses.map (rangeChk w) ++ [guardPoison w p] ++ (uses.zip r.1).map (fun u => poisonChk w (knownMask w p) u.1 u.2)
        ++ [guardReady w p] ++ (uses.zip r.1).map fun u => readyChk s w p m (q.counts m u.1) u.1 u.2) with
    | .ok => .go { m := m, regs := r.1, xs := r.2.1, bad := r.2.2 }
    | c => .stop c m
  | c => .stop c w.em

/-- Answer a stop (R142, R278). -/
def State.stopped (s : State) (w : Weft) (c : Chk) (lanes : W64) : State :=
  match c with
  | .ok => s
  | .wait r => s.waits w r
  | .trap k t => s.trapF w k lanes t

/-- The OPND code of the use that pops a poisoned stage queue entry, if one does (R286). -/
def State.popsPoison (s : State) (w : Weft) (m : W64) (q : QRule) (uses : List Use) : Option Nat :=
  (uses.find? fun u => (match u.o with | .q n => n.val == 3 | _ => false) && !u.wr && (m != 0 || q == .all) && s.q3Poisoned w).map
    fun u => u.pos.code

/-! ### Values -/

/-- A scalar source (R310). -/
def State.sVal (s : State) (w : Weft) : Opnd → W64
  | .s n => (w.sreg n.val).val
  | .em => w.em
  | .dm => w.dm
  | .q n => (s.qHead w n.val).getD 0
  | _ => 0

/-- Give the entries of a popped list to the active lanes in ascending order (R224). -/
def spreadQ (m : W64) : List Nat → List W32 → List W32
  | [], _ => []
  | i :: r, l =>
    if inMask m i then l.headD 0 :: spreadQ m r l.tail else 0 :: spreadQ m r l

/-- A vector source: one value per register it names (R353). -/
def State.vVal (s : State) (w : Weft) (m : W64) (u : Use) (xs : List Nat) : List VVal :=
  match u.o with
  | .v _ => (w.phys u).map fun n => (w.vreg n).val
  | .s n => (List.range u.regs).map fun k => .u ((w.sreg n.val).val.extractLsb' (32 * k) 32)
  | .lane => [.a 0 1]
  | .x _ => (List.range u.regs).map fun k => .g (laneIdx.map fun i => (w.vreg (xs.getD i 0 + k)).val.lane i)
  | .q _ =>
    match s.team? w.team with
    | some t => [.g (spreadQ m laneIdx t.q5)]
    | none => [.g []]
  | _ => List.replicate u.regs (.u 0)

/-- Every source of an instruction. -/
def State.vVals (s : State) (w : Weft) (g : Plan) (uses : List Use) : List (List VVal) :=
  ((uses.zip g.regs).filter fun u => !u.1.wr).map fun u =>
    if u.1.vec then s.vVal w g.m u.1 u.2
    else [.u ((s.sVal w u.1.o).extractLsb' 0 32), .u ((s.sVal w u.1.o).extractLsb' 32 32)]

/-! ### Queue and register effects of a commit -/

/-- Pop what the sources of an instruction name (R224). -/
def State.popUses (s : State) (w : Weft) (m : W64) : List Use → State
  | [] => s
  | u :: r =>
    match u.o with
    | .q n =>
      if u.wr then s.popUses w m r
      else if n.val = 5 then
        match s.team? w.team with
        | some t => (s.setTeam { t with q5 := t.q5.drop (popCount m) }).popUses w m r
        | none => s.popUses w m r
      else (s.qPop w n.val).popUses w m r
    | _ => s.popUses w m r

/-- Write a scalar destination (R214): an s register, a pushed queue, or nothing for `zero`. -/
def writeS (s : State) (w : Weft) (o : Opnd) (v : W64) : State × Weft :=
  match o with
  | .s n => (s, w.setS n.val v)
  | .q n => (s.qPush w n.val v, w)
  | _ => (s, w)

/-- Write consecutive physical registers under a mask. -/
def Weft.setVs (w : Weft) (m : W64) : List Nat → List VVal → Weft
  | n :: ns, v :: vs => Weft.setVs (w.setV n m v) m ns vs
  | _, _ => w

/-- Write the lanes of an indirect destination (R217, R221). -/
def Weft.setXs (w : Weft) (k : Nat) (regs : List Nat) (v : VVal) : List Nat → Weft
  | [] => w
  | i :: r => Weft.setXs (w.setLane (regs.getD i 0 + k) i (v.lane i)) k regs v r

/-- Write every register of an indirect destination. -/
def Weft.setXAll (w : Weft) (m : W64) (regs : List Nat) : Nat → List VVal → Weft
  | _, [] => w
  | k, v :: vs => Weft.setXAll (w.setXs k regs v (activeLanes m)) m regs (k + 1) vs

/-- A write of every lane through an index register clears the poison of a register (R286): `rs` holds the registers that each of the 64 lanes
has written. -/
def Weft.wholeWritten (w : Weft) (rs : List (List Nat)) : Weft :=
  if rs.length < 64 then w
  else (rs.headD []).foldl (fun v n =>
    if rs.all fun l => l.contains n then { v with vregs := modAt v.vregs n fun (r : VReg) => { r with pois := false } } else v) w

/-- Write a vector destination under a mask (R354). -/
def writeV (s : State) (w : Weft) (m : W64) (u : Use) (regs : List Nat) (vals : List VVal) : State × Weft :=
  match u.o with
  | .v _ => (s, w.setVs m (w.phys u) vals)
  | .x _ => (s, (w.setXAll m regs 0 vals).wholeWritten
      ((activeLanes m).map fun i => (List.range vals.length).map (regs.getD i 0 + ·)))
  | .q _ =>
    match s.team? w.team with
    | some t =>
      (s.setTeam { t with q5 := t.q5 ++ (activeLanes m).map fun i => (vals.headD (.u 0)).lane i }, w)
    | none => (s, w)
  | _ => (s, w)

/-- `dm` after an instruction that reports per-lane completion (R281): the completed lanes, or those added by a PL
re-issue; unchanged with an empty mask. -/
def Weft.report (w : Weft) (m ok : W64) : Weft :=
  if m = 0 then w else { w with dm := if w.narrow then w.dm ||| ok else ok }

/-- SOFTERR with reach DATA, in every lane, on a poisoned stage queue entry: a cause of stage 5 (R280, R286, assumption 111). -/
def State.dataTrap (s : State) (w : Weft) (p : Pfx) (rounds : Bool) (uses : List Use) (m : W64) (pos : Nat) : State :=
  let w1 := w.issued p rounds
  s.trapL (if uses.any Use.indirect then w1.report m 0 else w1) .softerr m { TInfo.none with opnd := pos, reach := 3 }

/-- The effect of a group has begun: an entry has left a stage queue, or an access has started. -/
def State.begins (s t : State) : Bool := t.pipes != s.pipes || t.accs.length != s.accs.length

/-- Issue a group: the focused weft, its operand checks, then the instruction's own effect. A poisoned stage queue entry traps once no check
of stages 3 to 5 has stopped the group first (R280, R286, assumption 111). -/
def issue (s : State) (p : Pfx) (uses : List Use) (q : QRule) (body : Weft → Plan → State) : Res :=
  match s.weft? s.focus.1 s.focus.2 with
  | none => .fault .noWeft
  | some w =>
    match prep s w p uses q with
    | .stop c lanes => .next (s.stopped w c lanes)
    | .go g =>
      match s.popsPoison w g.m q uses with
      | none => .next (body w g)
      | some pos => .next (if s.begins (body w g) then s.dataTrap w p false uses g.m pos else body w g)

/-! ### The scalar commit class (R326) -/

/-- A scalar instruction: with a non-empty mask it pops its queues and writes `f` of its sources; with an empty one it
only issues (R214, R326, R327). -/
def execScalar (s : State) (p : Pfx) (srcs : List Use) (d : Opnd) (f : Weft → List W64 → W64) : Res :=
  issue s p (srcs ++ [dstS d]) .active fun w g =>
    if g.m = 0 then s.setWeft (w.commit p false)
    else
      let v := f w (srcs.map fun u => s.sVal w u.o)
      let r := writeS (s.popUses w g.m srcs) w d v
      r.1.setWeft (r.2.commit p false)

/-- A weft-wide instruction with scalar operands: it acts whatever the mask (R326, R327). -/
def execWide (s : State) (p : Pfx) (uses : List Use) (f : State → Weft → List W64 → State) : Res :=
  issue s p uses .all fun w g =>
    f (s.popUses w g.m uses) w ((uses.filter fun u => !u.wr).map fun u => s.sVal w u.o)

/-! ### Vector instructions -/

/-- What a vector instruction computes: a value per destination register, or a scalar (none when no lane gives one), and
IEEE flags; those of each lane where lanes that do not complete still take part (R280, R370). -/
structure VRes where
  vals : List VVal
  sc : Option W64
  fl : BitVec 5
  lfl : List (BitVec 5) := []
  deriving DecidableEq, Repr

/-- The flags of the lanes that complete (R280, R389). -/
def VRes.flags (r : VRes) (ok : W64) : BitVec 5 :=
  match r.lfl with
  | [] => if ok = 0 then 0 else r.fl
  | l => (activeLanes ok).foldl (fun acc i => acc ||| l.getD i 0) 0

/-- Vector values with no flag. -/
def VRes.ofVals (l : List VVal) : VRes := { vals := l, sc := none, fl := 0 }
/-- A scalar result with no flag. -/
def VRes.ofSc (x : W64) : VRes := { vals := [], sc := some x, fl := 0 }

/-! ### Ration (R89-R91) -/

/-- The ration counter of a core's cluster. -/
def State.ration (s : State) (core : Nat) : Ration := s.power.rations.getD (clusOf core) Ration.init

/-- Units demanded in this interval: of the matrix unit, or of the others (R92). -/
def Ration.demand (r : Ration) (mat : Bool) (units : Nat) : Ration :=
  if mat then { r with dm := r.dm + units } else { r with dv := r.dv + units }

/-- Debit units at a core's cluster (R90): they are demanded too (R92). -/
def State.debitAs (mat : Bool) (s : State) (core units : Nat) : State :=
  let rs := modAt s.power.rations (clusOf core) fun r => { r.demand mat units with debits := r.debits + 256 * units }
  { s with power := { s.power with rations := rs } }

/-- A debit of the vector or engine class (R90). -/
def State.debit (s : State) (core units : Nat) : State := s.debitAs false core units

/-- A cycle withholds units: they count as demanded (R92, assumption 89). -/
def State.demand (s : State) (mat : Bool) (core units : Nat) : State :=
  let rs := modAt s.power.rations (clusOf core) fun r => r.demand mat units
  { s with power := { s.power with rations := rs } }

/-- Ration withholds a group (R90-R92), of which a cycle without withholding would have spent `units`: of a vector group the quarter that its pipe
takes in a cycle (assumption 89). -/
def State.withhold (s : State) (w : Weft) (mat : Bool) (units : Nat) : State := (s.demand mat w.core units).waits w .ration

/-- Quarters of a mask that are not empty, at least one (R90). -/
def quarters (m : W64) : Nat := max 1 (((List.range 4).filter fun q => field m.toNat (16 * q) 16 != 0).length)

/-- A vector instruction (R354, R389): ration where its major is in the vector class (R90), checks, result over the lanes
within bounds, FPX, then the writes, with a BOUND trap for the lanes that passed a bound (R219). With an empty mask it
still pops its scalar queues (R224). A poisoned stage queue entry fails every lane (R286). `folds`: the lanes that only D's bound stops still
give their sources. A group that traps is debited like one that completes (assumption 110). -/
def execLanes (debits folds : Bool) (s0 : State) (p : Pfx) (srcs : List Use) (dst : Use) (rounds : Bool)
    (f : Weft → W64 → List (List VVal) → VRes) : Res :=
  let uses := srcs ++ [dst]
  issue s0 p uses .sources fun w g =>
    let ok := g.m &&& ~~~g.bad
    let s := if debits then s0.debit w.core (quarters g.m) else s0
    if debits && decide ((s0.ration w.core).c < 0) then s0.withhold w false 1
    else if g.m = 0 then (s.popUses w 0 uses).setWeft (w.commit p rounds)
    else
      let tell := fun (v : Weft) (k : W64) => if uses.any Use.indirect then v.report g.m k else v
      let r := f w (if folds then g.m &&& ~~~(resolve g.m srcs w.xregs).2.2 else ok) (s.vVals w g uses)
      match s0.popsPoison w g.m .sources uses with
      | some pos =>
        if g.bad = 0 then s.dataTrap w p rounds uses g.m pos else s.trapL (tell (w.issued p rounds) 0) .bound g.bad TInfo.none
      | none =>
      if g.bad = 0 ∧ (r.fl.toNat &&& field w.fpmode.toNat 4 5) ≠ 0 then
        s.trapF (tell (w.issued p rounds) 0) .fpx g.m { TInfo.none with detail := r.fl.toNat }
      else
        let s1 := s.popUses w g.m uses
        let o := if dst.vec then writeV s1 w ok dst (g.regs.getLastD []) r.vals
          else match r.sc with
            | some x => writeS s1 w dst.o x
            | none => (s1, w)
        let w1 := { o.2 with fpflags := o.2.fpflags ||| r.flags ok, xregs := keepOffsets ok w.xregs g.xs }
        let w2 := tell w1 ok
        if g.bad = 0 then o.1.setWeft (w2.commit p rounds)
        else o.1.trapL (w2.issued p rounds) .bound g.bad TInfo.none

/-- A vector instruction of the vector ration class (R90). -/
def execVec (s : State) (p : Pfx) (srcs : List Use) (dst : Use) (rounds : Bool)
    (f : Weft → W64 → List (List VVal) → VRes) : Res := execLanes true false s p srcs dst rounds f

/-- A vector instruction that folds lanes (R370): every active lane whose sources are within bounds takes part. -/
def execFold (s : State) (p : Pfx) (srcs : List Use) (dst : Use) (rounds : Bool)
    (f : Weft → W64 → List (List VVal) → VRes) : Res := execLanes true true s p srcs dst rounds f

/-! ### Lane-wise functions and tags (R209) -/

/-- A function of one source: U stays U, anything else is G. -/
def lift1 (f : W32 → W32) : VVal → VVal
  | .u c => .u (f c)
  | v => .g (laneIdx.map fun i => f (v.lane i))

/-- A function of two sources: U when both are U, otherwise G. -/
def lift2 (f : W32 → W32 → W32) : VVal → VVal → VVal
  | .u a, .u b => .u (f a b)
  | a, b => .g (laneIdx.map fun i => f (a.lane i) (b.lane i))

/-- A function of three sources. -/
def lift3 (f : W32 → W32 → W32 → W32) : VVal → VVal → VVal → VVal
  | .u a, .u b, .u c => .u (f a b c)
  | a, b, c => .g (laneIdx.map fun i => f (a.lane i) (b.lane i) (c.lane i))

/-- A 64-bit lane value from its halves (R207). -/
def join64 (lo hi : W32) : W64 := hi ++ lo

/-- A 64-bit function of two pairs: G, but U in both registers when every source is U (R209). -/
def lift64 (f : W64 → W64 → W64) (alo ahi blo bhi : VVal) : List VVal :=
  match alo, ahi, blo, bhi with
  | .u a, .u b, .u c, .u d =>
    let r := f (join64 a b) (join64 c d)
    [.u (r.extractLsb' 0 32), .u (r.extractLsb' 32 32)]
  | _, _, _, _ =>
    let rs := laneIdx.map fun i => f (join64 (alo.lane i) (ahi.lane i)) (join64 (blo.lane i) (bhi.lane i))
    [.g (rs.map fun r => r.extractLsb' 0 32), .g (rs.map fun r => r.extractLsb' 32 32)]

/-- Tag code of a value (R366). -/
def VVal.tag : VVal → Nat
  | .u _ => 0 | .a _ _ => 1 | .g _ => 2

/-- The value with the narrowest tag that holds its 64 lanes (R365). -/
def VVal.narrowest (v : VVal) : VVal :=
  let b := v.lane 0
  let d := v.lane 1 - v.lane 0
  if laneIdx.all fun i => v.lane i == b then .u b
  else if laneIdx.all fun i => v.lane i == b + BitVec.ofNat 32 i * d then .a b d
  else .g v.lanes

end Sys2Proof.Machine
end

