-- ==== Sys2Proof/Machine/Flags.lean ====
section
/-! DEFINITION. Number formats, rounding and the IEEE flags (R377-R389): every flag that an instruction raises is computed
here or from what is computed here. -/

namespace Sys2Proof.Machine

/-! ### Flags (R386) -/

def flNV : Nat := 1
def flDZ : Nat := 2
def flOF : Nat := 4
def flUF : Nat := 8
def flNX : Nat := 16

/-! ### Formats (R377) -/

/-- A binary format. `kind`: 0 with infinities and NaNs, 1 e4m3, 2 e2m1. -/
structure Fmt where
  eb : Nat
  mb : Nat
  bias : Nat
  kind : Nat
  deriving DecidableEq, Repr

def fF32 : Fmt := { eb := 8, mb := 23, bias := 127, kind := 0 }
def fF16 : Fmt := { eb := 5, mb := 10, bias := 15, kind := 0 }
def fBF16 : Fmt := { eb := 8, mb := 7, bias := 127, kind := 0 }
def fE5M2 : Fmt := { eb := 5, mb := 2, bias := 15, kind := 0 }
def fE4M3 : Fmt := { eb := 4, mb := 3, bias := 7, kind := 1 }
def fE2M1 : Fmt := { eb := 2, mb := 1, bias := 1, kind := 2 }

/-- A float as a value: a finite one is (-1)^neg × m × 2^e, `e` the place of its lowest significand bit. -/
inductive FV where
  | nan (sig : Bool)
  | inf (neg : Bool)
  | fin (neg : Bool) (m : Nat) (e : Int)
  deriving DecidableEq, Repr

/-- Read a pattern (R377, R378). -/
def unpack (f : Fmt) (x : Nat) : FV :=
  let s := x.testBit (f.mb + f.eb)
  let e := field x f.mb f.eb
  let m := field x 0 f.mb
  if f.kind = 0 ∧ e = 2 ^ f.eb - 1 then (if m = 0 then .inf s else .nan (!m.testBit (f.mb - 1)))
  else if f.kind = 1 ∧ e = 2 ^ f.eb - 1 ∧ m = 2 ^ f.mb - 1 then .nan false
  else if e = 0 then .fin s m (1 - (f.bias : Int) - f.mb)
  else .fin s (2 ^ f.mb + m) ((e : Int) - f.bias - f.mb)

/-- The canonical NaN of a format (R378); e2m1 has none and reads 0. -/
def canonNaN (f : Fmt) : Nat :=
  match f.kind with
  | 0 => (2 ^ f.eb - 1) * 2 ^ f.mb + 2 ^ (f.mb - 1)
  | 1 => 0x7F
  | _ => 0

/-- The sign bit in place. -/
def signBit (f : Fmt) (neg : Bool) : Nat := if neg then 2 ^ (f.mb + f.eb) else 0

/-- The largest finite pattern, without sign. -/
def maxFin (f : Fmt) : Nat :=
  match f.kind with
  | 0 => (2 ^ f.eb - 2) * 2 ^ f.mb + (2 ^ f.mb - 1)
  | 1 => 0x7E
  | _ => 0x7

/-- The infinity pattern, without sign; only in formats of kind 0. -/
def infPat (f : Fmt) : Nat := (2 ^ f.eb - 1) * 2 ^ f.mb

/-- The lowest normal exponent. -/
def eMin (f : Fmt) : Int := 1 - (f.bias : Int)

/-! ### Rounding -/

/-- A positive magnitude before rounding: m × 2^e exactly, or strictly between it and (m + 1) × 2^e when `sticky`. -/
structure Mag where
  m : Nat
  e : Int
  sticky : Bool
  deriving DecidableEq, Repr

/-- How a result is rounded: mode 0 rne, 1 rz, 2 ru, 3 rd, 4 rs (R386), FTZ (R388), SAT (R382), the 32-bit draw of the
element (R383), and whether the source is a binary format (R384). -/
structure REnv where
  mode : Nat
  ftz : Bool
  sat : Bool
  r : Nat
  conv : Bool
  deriving DecidableEq, Repr

/-- A pattern and the flags raised. -/
structure Rd where
  bits : Nat
  fl : Nat
  deriving DecidableEq, Repr

/-- Bits of a number: 0 for 0. -/
def bitLen (n : Nat) : Nat := if n = 0 then 0 else Nat.log2 n + 1

/-- The magnitude is rounded to a multiple of 2^ue: the multiple, and whether anything was dropped (R381, R384). -/
def roundAt (env : REnv) (neg : Bool) (x : Mag) (ue : Int) : Nat × Bool :=
  if ue ≤ x.e then
    let q := x.m * 2 ^ (x.e - ue).toNat
    if !x.sticky then (q, false)
    else
      let up := match env.mode with
        | 2 => !neg
        | 3 => neg
        | _ => false
      (if up then q + 1 else q, true)
  else
    let sh := (ue - x.e).toNat
    let q := x.m >>> sh
    let f := x.m % 2 ^ sh
    let inex := f != 0 || x.sticky
    let up := match env.mode with
      | 0 =>
        let h := 2 ^ (sh - 1)
        decide (h < f) || (f == h && (x.sticky || q % 2 == 1))
      | 1 => false
      | 2 => !neg && inex
      | 3 => neg && inex
      | _ =>
        let w := if env.conv then min sh 32 else 32
        let fr := if sh ≤ w then f * 2 ^ (w - sh) else f / 2 ^ (sh - w)
        decide (2 ^ w ≤ fr + env.r % 2 ^ w)
    (if up then q + 1 else q, inex)

/-- The pattern of the magnitude q × 2^ue, which the format holds. -/
def packMag (f : Fmt) (q : Nat) (ue : Int) : Nat :=
  if q < 2 ^ f.mb then q
  else
    let l := bitLen q
    let e := ue + l - 1 + f.bias
    let m := if f.mb + 1 ≤ l then q / 2 ^ (l - 1 - f.mb) else q * 2 ^ (f.mb + 1 - l)
    e.toNat * 2 ^ f.mb + (m - 2 ^ f.mb)

/-- An infinity of the format, or what stands for it (R382, R400). -/
def infOf (f : Fmt) (sat : Bool) (neg : Bool) : Nat :=
  if f.kind = 2 then signBit f neg + maxFin f
  else if sat then signBit f neg + maxFin f
  else if f.kind = 1 then 0x7F
  else signBit f neg + infPat f

/-- The overflowed result of a mode (R382). -/
def overflowPat (f : Fmt) (env : REnv) (neg : Bool) : Nat :=
  let toInf := match env.mode with
    | 0 => true
    | 1 => false
    | 2 => !neg
    | 3 => neg
    | _ => true
  if toInf then infOf f env.sat neg else signBit f neg + maxFin f

/-- The magnitude q × 2^ue exceeds the largest finite value. -/
def tooLarge (f : Fmt) (q : Nat) (ue : Int) : Bool :=
  match unpack f (maxFin f) with
  | .fin _ m e =>
    if ue ≤ e then decide (m * 2 ^ (e - ue).toNat < q) else decide (m < q * 2 ^ (ue - e).toNat)
  | _ => false

/-- Round a non-zero magnitude into a format, with its flags (R381, R382, R387, R388). -/
def roundMag (f : Fmt) (env : REnv) (neg : Bool) (x : Mag) : Rd :=
  let p : Int := x.e + bitLen x.m - 1
  let ue : Int := max p (eMin f) - f.mb
  let r := roundAt env neg x ue
  if tooLarge f r.1 ue then { bits := overflowPat f env neg, fl := flOF ||| flNX }
  else
    let tiny : Bool :=
      if eMin f ≤ p then false
      else
        let r2 := roundAt env neg x (p - f.mb)
        decide (p - f.mb + bitLen r2.1 - 1 < eMin f)
    let sub : Bool := r.1 < 2 ^ f.mb
    if env.ftz && sub then { bits := signBit f neg, fl := flUF ||| flNX }
    else
      { bits := signBit f neg + packMag f r.1 ue
        fl := (if r.2 then flNX else 0) ||| (if tiny && r.2 then flUF else 0) }

/-- Round(x, m, fmt) of a finite value given by sign and magnitude; a zero keeps its sign (R381). -/
def roundFin (f : Fmt) (env : REnv) (neg : Bool) (x : Mag) : Rd :=
  if x.m = 0 ∧ !x.sticky then { bits := signBit f neg, fl := 0 } else roundMag f env neg x

/-- Round(|x|, m, integer): the integer and whether it differs (R381). -/
def roundInt (env : REnv) (neg : Bool) (x : Mag) : Nat × Bool :=
  if x.m = 0 ∧ !x.sticky then (0, false) else roundAt env neg x 0

/-! ### Draws (R383) -/

/-- The hash of R383. -/
def fmix32 (h0 : W32) : W32 :=
  let h1 := (h0 ^^^ (h0 >>> 16)) * 0x85EBCA6B
  let h2 := (h1 ^^^ (h1 >>> 13)) * 0xC2B2AE35
  h2 ^^^ (h2 >>> 16)

/-- The draw of a lane (R383). -/
def laneDraw (w : Weft) (i : Nat) : W32 :=
  fmix32 (w.seed ^^^ (BitVec.ofNat 32 i * 0x9E3779B1) ^^^ (w.rctr * 0x85EBCA77))

/-- The draw of an element of a lane: ROR(r_i, 16 k). -/
def elemDraw (w : Weft) (i k : Nat) : Nat := ((laneDraw w i).rotateRight (16 * k % 32)).toNat

/-! ### Mode of a group (R380) -/

/-- The rounding mode of a group (R380). -/
def rmOf (w : Weft) (p : Pfx) : Nat := if p.rnd = 0 then field w.fpmode.toNat 0 3 else p.rnd - 1

/-- FTZ (R386). -/
def ftzOf (w : Weft) : Bool := w.fpmode.getLsbD 3

/-- The rounding environment of element `k` of lane `i` in a group. -/
def envOf (w : Weft) (p : Pfx) (conv : Bool) (i k : Nat) : REnv :=
  { mode := rmOf w p, ftz := ftzOf w, sat := p.sat, r := elemDraw w i k, conv := conv }

/-! ### Special registers' defined fields (R335, R386) -/

/-- `fpmode` after a write: RM 5-7 stores 0; other bits are not changed. -/
def fpmodeWrite (x : W64) : BitVec 9 :=
  let m := x.extractLsb' 0 9
  if 5 ≤ field m.toNat 0 3 then m &&& 0x1F8 else m

end Sys2Proof.Machine
end

