-- ==== Sys2Proof/Machine/Fp.lean ====
section
/-! DEFINITION. Floating-point arithmetic on single values (R377-R402): exact results, then one rounding. -/

namespace Sys2Proof.Machine

/-! ### Operands -/

/-- A subnormal pattern of a format. -/
def isSub (f : Fmt) (x : Nat) : Bool := field x f.mb f.eb == 0 && field x 0 f.mb != 0

/-- Read an operand, with subnormals flushed under FTZ (R388). -/
def readF (f : Fmt) (ftz : Bool) (x : Nat) : FV :=
  if ftz && isSub f x then .fin (x.testBit (f.mb + f.eb)) 0 0 else unpack f x

/-- NV of a signalling operand. -/
def sigFl : FV → Nat
  | .nan true => flNV
  | _ => 0

/-- The operand is a NaN. -/
def isNaN : FV → Bool
  | .nan _ => true
  | _ => false

/-- The value is a zero. -/
def isZero : FV → Bool
  | .fin _ m _ => m == 0
  | _ => false

/-- Sign of a value. -/
def negOf : FV → Bool
  | .fin n _ _ => n
  | .inf n => n
  | .nan _ => false

/-- The value with its sign inverted. -/
def negate : FV → FV
  | .fin n m e => .fin (!n) m e
  | .inf n => .inf (!n)
  | .nan s => .nan s

/-- The canonical NaN with flags. -/
def nanRd (f : Fmt) (fl : Nat) : Rd := { bits := canonNaN f, fl := fl }

/-- An infinity with flags, in a format that has one. -/
def infRd (f : Fmt) (neg : Bool) (fl : Nat) : Rd := { bits := signBit f neg + infPat f, fl := fl }

/-- A zero with flags. -/
def zeroRd (f : Fmt) (neg : Bool) (fl : Nat) : Rd := { bits := signBit f neg, fl := fl }

/-! ### Exact sums and products -/

/-- Signed integer of a finite value at the place 2^e, which is not above its own. -/
def atPlace (neg : Bool) (m : Nat) (e0 e : Int) : Int :=
  let k := (m * 2 ^ (e0 - e).toNat : Nat)
  if neg then -(k : Int) else k

/-- The exact sum of two finite values, rounded once; an exact zero takes its sign by R381. -/
def addFin (f : Fmt) (env : REnv) (n1 : Bool) (m1 : Nat) (e1 : Int) (n2 : Bool) (m2 : Nat) (e2 : Int) : Rd :=
  let e := min e1 e2
  let s := atPlace n1 m1 e1 e + atPlace n2 m2 e2 e
  if s = 0 then zeroRd f (if n1 = n2 then n1 else env.mode == 3) 0
  else roundFin f env (decide (s < 0)) { m := s.natAbs, e := e, sticky := false }

/-- a + b (R391). -/
def fAddV (f : Fmt) (env : REnv) (a b : FV) : Rd :=
  match a, b with
  | .nan _, _ => nanRd f (sigFl a ||| sigFl b)
  | _, .nan _ => nanRd f (sigFl a ||| sigFl b)
  | .inf x, .inf y => if x = y then infRd f x 0 else nanRd f flNV
  | .inf x, _ => infRd f x 0
  | _, .inf y => infRd f y 0
  | .fin n1 m1 e1, .fin n2 m2 e2 => addFin f env n1 m1 e1 n2 m2 e2

/-- a × b (R391). -/
def fMulV (f : Fmt) (env : REnv) (a b : FV) : Rd :=
  match a, b with
  | .nan _, _ => nanRd f (sigFl a ||| sigFl b)
  | _, .nan _ => nanRd f (sigFl a ||| sigFl b)
  | .inf x, .inf y => infRd f (x != y) 0
  | .inf x, .fin n m _ => if m = 0 then nanRd f flNV else infRd f (x != n) 0
  | .fin n m _, .inf y => if m = 0 then nanRd f flNV else infRd f (n != y) 0
  | .fin n1 m1 e1, .fin n2 m2 e2 => roundFin f env (n1 != n2) { m := m1 * m2, e := e1 + e2, sticky := false }

/-- The exact product of two values as a value; a NaN for 0 × ∞ (R387). -/
def mulExact (a b : FV) : FV :=
  match a, b with
  | .nan _, _ => .nan false
  | _, .nan _ => .nan false
  | .inf x, .inf y => .inf (x != y)
  | .inf x, .fin n m _ => if m = 0 then .nan true else .inf (x != n)
  | .fin n m _, .inf y => if m = 0 then .nan true else .inf (n != y)
  | .fin n1 m1 e1, .fin n2 m2 e2 => .fin (n1 != n2) (m1 * m2) (e1 + e2)

/-- a × b + d with one rounding (R391). -/
def fFmaV (f : Fmt) (env : REnv) (a b d : FV) : Rd :=
  let p := mulExact a b
  let fl := sigFl a ||| sigFl b ||| sigFl d ||| sigFl p
  if isNaN p || isNaN d then nanRd f fl
  else
    let r := fAddV f env p d
    { r with fl := r.fl ||| fl }

/-- a0 × b0 + a1 × b1 + d with one rounding (R395). -/
def fDot2V (f : Fmt) (env : REnv) (a0 b0 a1 b1 d : FV) : Rd :=
  let p := mulExact a0 b0
  let q := mulExact a1 b1
  let fl := sigFl a0 ||| sigFl b0 ||| sigFl a1 ||| sigFl b1 ||| sigFl d ||| sigFl p ||| sigFl q
  match p, q, d with
  | .fin n1 m1 e1, .fin n2 m2 e2, .fin n3 m3 e3 =>
    let e := min e1 (min e2 e3)
    let s := atPlace n1 m1 e1 e + atPlace n2 m2 e2 e + atPlace n3 m3 e3 e
    if s = 0 then zeroRd f (if n1 = n2 ∧ n2 = n3 then n1 else env.mode == 3) 0
    else roundFin f env (decide (s < 0)) { m := s.natAbs, e := e, sticky := false }
  | _, _, _ =>
    if isNaN p || isNaN q || isNaN d then nanRd f fl
    else
      let infs := [p, q, d].filterMap fun v => match v with | .inf n => some n | _ => none
      if infs.all (· == true) then infRd f true fl
      else if infs.all (· == false) then infRd f false fl
      else nanRd f (fl ||| flNV)

/-! ### Division and roots -/

/-- Quotient of two positive magnitudes, 96 bits below the divisor's length. -/
def divMag (m1 : Nat) (e1 : Int) (m2 : Nat) (e2 : Int) : Mag :=
  let k := 96 + bitLen m2
  let n := m1 * 2 ^ k
  { m := n / m2, e := e1 - e2 - k, sticky := n % m2 != 0 }

/-- a / b (R391, R392). -/
def fDivV (f : Fmt) (env : REnv) (a b : FV) : Rd :=
  match a, b with
  | .nan _, _ => nanRd f (sigFl a ||| sigFl b)
  | _, .nan _ => nanRd f (sigFl a ||| sigFl b)
  | .inf _, .inf _ => nanRd f flNV
  | .inf x, .fin n _ _ => infRd f (x != n) 0
  | .fin n _ _, .inf y => zeroRd f (n != y) 0
  | .fin n1 m1 e1, .fin n2 m2 e2 =>
    if m2 = 0 then (if m1 = 0 then nanRd f flNV else infRd f (n1 != n2) flDZ)
    else if m1 = 0 then zeroRd f (n1 != n2) 0
    else roundFin f env (n1 != n2) (divMag m1 e1 m2 e2)

/-- Integer square root, bit by bit from bit `k`. -/
def isqrtFrom (n : Nat) : Nat → Nat → Nat
  | 0, r => if (r + 1) * (r + 1) ≤ n then r + 1 else r
  | k + 1, r =>
    let c := r + 2 ^ (k + 1)
    if c * c ≤ n then isqrtFrom n k c else isqrtFrom n k r

/-- Integer square root. -/
def isqrt (n : Nat) : Nat := isqrtFrom n (bitLen n / 2 + 1) 0

/-- √(m × 2^e) with 80 more bits. -/
def sqrtMag (m : Nat) (e : Int) : Mag :=
  let odd := e % 2 != 0
  let m1 := (if odd then m * 2 else m) * 2 ^ 160
  let e1 := if odd then e - 1 else e
  let r := isqrt m1
  { m := r, e := e1 / 2 - 80, sticky := r * r != m1 }

/-- 1 / √(m × 2^e). -/
def rsqrtMag (m : Nat) (e : Int) : Mag :=
  let odd := e % 2 != 0
  let m1 := if odd then m * 2 else m
  let e1 := if odd then e - 1 else e
  let k := 96 + bitLen m1
  let r := isqrt (2 ^ (2 * k) / m1)
  { m := r, e := -(e1 / 2) - k, sticky := r * r * m1 != 2 ^ (2 * k) }

/-- √a (R392). -/
def fSqrtV (f : Fmt) (env : REnv) (a : FV) : Rd :=
  match a with
  | .nan _ => nanRd f (sigFl a)
  | .inf n => if n then nanRd f flNV else infRd f false 0
  | .fin n m e =>
    if m = 0 then zeroRd f n 0 else if n then nanRd f flNV else roundFin f env false (sqrtMag m e)

/-- 1 / a (R392). -/
def fRcpV (f : Fmt) (env : REnv) (a : FV) : Rd :=
  match a with
  | .nan _ => nanRd f (sigFl a)
  | .inf n => zeroRd f n 0
  | .fin n m e => if m = 0 then infRd f n flDZ else roundFin f env n (divMag 1 0 m e)

/-- 1 / √a (R392). -/
def fRsqV (f : Fmt) (env : REnv) (a : FV) : Rd :=
  match a with
  | .nan _ => nanRd f (sigFl a)
  | .inf n => if n then nanRd f flNV else zeroRd f false 0
  | .fin n m e =>
    if m = 0 then infRd f n flDZ else if n then nanRd f flNV else roundFin f env false (rsqrtMag m e)

/-! ### Order -/

/-- The exact order of two values that are not NaN. -/
def fCmp (a b : FV) : Ordering :=
  match a, b with
  | .inf x, .inf y => if x = y then .eq else if x then .lt else .gt
  | .inf x, _ => if x then .lt else .gt
  | _, .inf y => if y then .gt else .lt
  | .fin n1 m1 e1, .fin n2 m2 e2 =>
    let e := min e1 e2
    compare (atPlace n1 m1 e1 e) (atPlace n2 m2 e2 e)
  | _, _ => .eq

/-- `a` stands below `b`, with −0 below +0 (R391). -/
def fBelow (a b : FV) : Bool :=
  match fCmp a b with
  | .lt => true
  | .gt => false
  | .eq => isZero a && isZero b && negOf a && !negOf b

/-- Flush a subnormal pattern under FTZ. -/
def flushPat (f : Fmt) (ftz : Bool) (x : Nat) : Nat := if ftz && isSub f x then signBit f (x.testBit (f.mb + f.eb)) else x

/-- minimum or maximum (R391, R392): a NaN operand gives NaN. -/
def fMinMax (f : Fmt) (ftz : Bool) (mx : Bool) (x y : Nat) : Rd :=
  let a := readF f ftz x
  let b := readF f ftz y
  if isNaN a || isNaN b then nanRd f (sigFl a ||| sigFl b)
  else
    let takeA := if mx then !fBelow a b else !fBelow b a
    { bits := flushPat f ftz (if takeA then x else y), fl := 0 }

/-- minimumNumber or maximumNumber (R391, R392): a NaN operand is ignored. -/
def fMinMaxNum (f : Fmt) (ftz : Bool) (mx : Bool) (x y : Nat) : Rd :=
  let a := readF f ftz x
  let b := readF f ftz y
  let fl := sigFl a ||| sigFl b
  match isNaN a, isNaN b with
  | true, true => nanRd f fl
  | true, false => { bits := flushPat f ftz y, fl := fl }
  | false, true => { bits := flushPat f ftz x, fl := fl }
  | false, false => fMinMax f ftz mx x y

/-- A compare condition on floats (R363): eq, ne, lt, le, gt, ge, un, ord; the result and the NV flag. -/
def fCond (cond : Nat) (a b : FV) : Bool × Nat :=
  let un := isNaN a || isNaN b
  let sig := sigFl a ||| sigFl b
  match cond with
  | 0 => (!un && fCmp a b == .eq, sig)
  | 1 => (un || fCmp a b != .eq, sig)
  | 2 => (!un && fCmp a b == .lt, if un then flNV else 0)
  | 3 => (!un && fCmp a b != .gt, if un then flNV else 0)
  | 4 => (!un && fCmp a b == .gt, if un then flNV else 0)
  | 5 => (!un && fCmp a b != .lt, if un then flNV else 0)
  | 6 => (un, sig)
  | _ => (!un, sig)

/-! ### Integers and scale -/

/-- A magnitude rounded by a fixed mode to an integer, exactly representable in the format (R391). -/
def fIntV (f : Fmt) (env : REnv) (a : FV) (nx : Bool) : Rd :=
  match a with
  | .nan _ => nanRd f (sigFl a)
  | .inf n => infRd f n 0
  | .fin n m e =>
    let q := roundInt env n { m := m, e := e, sticky := false }
    let r := roundFin f { env with ftz := false, mode := 1 } n { m := q.1, e := 0, sticky := false }
    { bits := r.bits, fl := if nx && q.2 then flNX else 0 }

/-- a × 2^n (R391, R392). -/
def fScaleV (f : Fmt) (env : REnv) (a : FV) (n : Int) : Rd :=
  match a with
  | .nan _ => nanRd f (sigFl a)
  | .inf s => infRd f s 0
  | .fin s m e => roundFin f env s { m := m, e := e + max (-1000) (min 1000 n), sticky := false }

/-- `fclass` (R393). -/
def fClass (f : Fmt) (x : Nat) : Nat :=
  match unpack f x with
  | .nan sig => if sig then 2 ^ 8 else 2 ^ 9
  | .inf n => if n then 2 ^ 0 else 2 ^ 7
  | .fin n m _ =>
    if m = 0 then (if n then 2 ^ 3 else 2 ^ 4)
    else if isSub f x then (if n then 2 ^ 2 else 2 ^ 5)
    else if n then 2 ^ 1 else 2 ^ 6

/-! ### Transcendental functions: fixed point with 448 bits -/

/-- Bits of the fixed point. -/
def fixP : Nat := 448

/-- Σ 2^P / (k 2^k) from k: ln 2. -/
def ln2Sum : Nat → Nat → Nat
  | 0, _ => 0
  | n + 1, k => 2 ^ fixP / (k * 2 ^ k) + ln2Sum n (k + 1)

/-- ln 2 in fixed point. -/
def ln2Fix : Nat := ln2Sum 460 1

/-- Σ of alternating 1 / ((2k+1) d^(2k+1)) in fixed point: arctan (1/d). -/
def atanSum (d : Nat) : Nat → Nat → Nat → Bool → Int
  | 0, _, _, _ => 0
  | n + 1, k, pw, neg =>
    let t : Int := ((pw / k : Nat) : Int)
    (if neg then -t else t) + atanSum d n (k + 2) (pw / (d * d)) (!neg)

/-- π in fixed point, by Machin's formula. -/
def piFix : Nat :=
  (16 * atanSum 5 110 1 (2 ^ fixP / 5) false - 4 * atanSum 239 40 1 (2 ^ fixP / 239) false).toNat

/-- Σ y^k / k!, from a term. -/
def expSum (y : Nat) : Nat → Nat → Nat → Nat
  | 0, _, _ => 0
  | n + 1, k, t => t + expSum y n (k + 1) (t * y / 2 ^ fixP / k)

/-- e^y for y below 1. -/
def expFix (y : Nat) : Nat := expSum y 130 1 (2 ^ fixP)

/-- Σ t^(2k+1) / (2k+1), from a power. -/
def atanhSum (t2 : Nat) : Nat → Nat → Nat → Nat
  | 0, _, _ => 0
  | n + 1, k, pw => pw / k + atanhSum t2 n (k + 2) (pw * t2 / 2 ^ fixP)

/-- ln z for 1 ≤ z < 2. -/
def lnFix (z : Nat) : Nat :=
  let t := (z - 2 ^ fixP) * 2 ^ fixP / (z + 2 ^ fixP)
  2 * atanhSum (t * t / 2 ^ fixP) 170 1 t

/-- Alternating Σ of a Taylor series with step k(k+1). -/
def trigSum (y2 : Nat) : Nat → Nat → Nat → Bool → Int
  | 0, _, _, _ => 0
  | n + 1, k, t, neg =>
    let v : Int := t
    (if neg then -v else v) + trigSum y2 n (k + 2) (t * y2 / 2 ^ fixP / (k * (k + 1))) (!neg)

/-- sin y and cos y for y up to π/2. -/
def sinFix (y : Nat) : Nat := (trigSum (y * y / 2 ^ fixP) 100 2 y false).toNat
def cosFix (y : Nat) : Nat := (trigSum (y * y / 2 ^ fixP) 100 1 (2 ^ fixP) false).toNat

/-- A dyadic magnitude in fixed point. -/
def toFix (m : Nat) (e : Int) : Nat :=
  if 0 ≤ e + fixP then m * 2 ^ (e + fixP).toNat else m / 2 ^ (-(e + fixP)).toNat

/-- 2^a (R391, R392). -/
def fExp2V (f : Fmt) (env : REnv) (a : FV) : Rd :=
  match a with
  | .nan _ => nanRd f (sigFl a)
  | .inf n => if n then zeroRd f false 0 else infRd f false 0
  | .fin n m e =>
    if m = 0 then roundFin f env false { m := 1, e := 0, sticky := false }
    else if 11 < e + bitLen m then
      roundFin f env false { m := 1, e := if n then -2000 else 2000, sticky := !n }
    else
      let x := toFix m e
      let i : Int := if n then -((x + 2 ^ fixP - 1) / 2 ^ fixP : Nat) else (x / 2 ^ fixP : Nat)
      let fr : Nat := if n then (2 ^ fixP - x % 2 ^ fixP) % 2 ^ fixP else x % 2 ^ fixP
      if fr = 0 then roundFin f env false { m := 1, e := i, sticky := false }
      else roundFin f env false { m := expFix (fr * ln2Fix / 2 ^ fixP), e := i - fixP, sticky := true }

/-- log2 a (R391, R392). -/
def fLog2V (f : Fmt) (env : REnv) (a : FV) : Rd :=
  match a with
  | .nan _ => nanRd f (sigFl a)
  | .inf n => if n then nanRd f flNV else infRd f false 0
  | .fin n m e =>
    if m = 0 then infRd f true flDZ
    else if n then nanRd f flNV
    else
      let l := bitLen m
      let ex : Int := e + l - 1
      if m = 2 ^ (l - 1) then roundFin f env (decide (ex < 0)) { m := ex.natAbs, e := 0, sticky := false }
      else
        let z := m * 2 ^ (fixP + 1 - l)
        let lg : Int := ((lnFix z * 2 ^ fixP / ln2Fix : Nat) : Int)
        let v : Int := ex * 2 ^ fixP + lg
        roundFin f env (decide (v < 0)) { m := if v < 0 then v.natAbs - 1 else v.natAbs, e := -(fixP : Int), sticky := true }

/-- The part of |a| beyond whole turns of 2, in fixed point, exact. -/
def turnFix (m : Nat) (e : Int) : Nat := toFix m e % 2 ^ (fixP + 1)

/-- sin (π × a) (R391, R392). -/
def fSinV (f : Fmt) (env : REnv) (a : FV) : Rd :=
  match a with
  | .nan _ => nanRd f (sigFl a)
  | .inf _ => nanRd f flNV
  | .fin n m e =>
    let t := turnFix m e
    let u := t % 2 ^ fixP
    if u = 0 then zeroRd f n 0
    else
      let neg := n != decide (2 ^ fixP ≤ t)
      let h := if 2 ^ (fixP - 1) < u then 2 ^ fixP - u else u
      if h = 2 ^ (fixP - 1) then roundFin f env neg { m := 1, e := 0, sticky := false }
      else roundFin f env neg { m := sinFix (h * piFix / 2 ^ fixP), e := -(fixP : Int), sticky := true }

/-- cos (π × a) (R391, R392). -/
def fCosV (f : Fmt) (env : REnv) (a : FV) : Rd :=
  match a with
  | .nan _ => nanRd f (sigFl a)
  | .inf _ => nanRd f flNV
  | .fin _ m e =>
    let t := turnFix m e
    let u := t % 2 ^ fixP
    let second := decide (2 ^ fixP ≤ t)
    if u = 2 ^ (fixP - 1) then zeroRd f false 0
    else if u = 0 then roundFin f env second { m := 1, e := 0, sticky := false }
    else
      let past := decide (2 ^ (fixP - 1) < u)
      let h := if past then 2 ^ fixP - u else u
      roundFin f env (past != second)
        { m := cosFix (h * piFix / 2 ^ fixP), e := -(fixP : Int), sticky := true }

/-! ### Conversions -/

/-- Convert a value into a format (R396, R400). -/
def cvtV (f : Fmt) (env : REnv) (a : FV) : Rd :=
  match a with
  | .nan s => { bits := canonNaN f, fl := if s || f.kind == 2 then flNV else 0 }
  | .inf n =>
    { bits := infOf f env.sat n, fl := if f.kind == 0 && !env.sat then 0 else flNV }
  | .fin n m e => roundFin f { env with ftz := false } n { m := m, e := e, sticky := false }

/-- An integer into a format. -/
def cvtInt (f : Fmt) (env : REnv) (x : Int) : Rd :=
  roundFin f { env with ftz := false } (decide (x < 0)) { m := x.natAbs, e := 0, sticky := false }

/-- A value to an integer between two ends (R397). -/
def toIntV (env : REnv) (lo hi : Int) (a : FV) : Int × Nat :=
  match a with
  | .nan _ => (0, flNV)
  | .inf n => (if n then lo else hi, flNV)
  | .fin n m e =>
    let q := roundInt env n { m := m, e := e, sticky := false }
    let v : Int := if n then -(q.1 : Int) else q.1
    if v < lo then (lo, flNV) else if hi < v then (hi, flNV) else (v, if q.2 then flNX else 0)

/-- `cvt.i8.f32` (R398): the signed result and the flags. -/
def toQ8 (env : REnv) (x c : FV) : Int × Nat :=
  match x, c with
  | .nan _, _ => (0, flNV)
  | _, .nan _ => (0, flNV)
  | _, .inf _ => (0, flNV)
  | .inf n, .fin k mc _ => if mc = 0 then (0, flNV) else ((if n != k then -127 else 127), flNV)
  | .fin n m e, .fin k mc ec =>
    if mc = 0 then (0, flNV)
    else if m = 0 then (0, 0)
    else
      let neg := n != k
      let q := roundInt env false (divMag m e mc ec)
      if 127 < q.1 then ((if neg then -127 else 127), flOF ||| flNX)
      else (if neg then -(q.1 : Int) else q.1, if q.2 then flNX else 0)

/-- `cvt.e8m0.f32` (R399). -/
def toE8m0 (x : Nat) : Nat :=
  match unpack fF32 x with
  | .nan _ => 0xFF
  | .inf _ => 0xFF
  | .fin _ m e =>
    if m = 0 then 0
    else
      let l : Int := e + bitLen m - 1 + 127
      (max 0 (min 254 l)).toNat

/-- Rank of a binary32 for `vargmax` and `vargmin` (R373): NaN above all; −0 below +0. -/
def rankMax (x : Nat) : Int :=
  match unpack fF32 x with
  | .nan _ => 2 ^ 33
  | _ => if x.testBit 31 then -(field x 0 31 : Int) - 1 else field x 0 31

/-- Rank with NaN below all (R373). -/
def rankMin (x : Nat) : Int :=
  match unpack fF32 x with
  | .nan _ => -(2 ^ 33)
  | _ => if x.testBit 31 then -(field x 0 31 : Int) - 1 else field x 0 31

end Sys2Proof.Machine
end

