-- ==== Sys2Proof/Machine/Launch.lean ====
section
/-! DEFINITION. Launch records (R126, R127), pipeline descriptors (R138), handles and dependencies (R130, R131), and how a
launch enters a launch queue (R132, R459). -/

namespace Sys2Proof.Machine

/-- A little-endian number inside a byte string. -/
def num (bs : List Byte) (off n : Nat) : Nat := ofLeBytes ((bs.drop off).take n)

/-- A launch record from its 64 bytes (R126). -/
def LaunchRec.ofBytes (bs : List Byte) : LaunchRec :=
  { entry := BitVec.ofNat 64 (num bs 0x00 8), gx := num bs 0x08 4, gy := num bs 0x0C 2, gz := num bs 0x0E 2
    wpt := num bs 0x10 1, nacc := num bs 0x11 1, rega := num bs 0x12 2, rege := num bs 0x14 2, refill := num bs 0x16 2
    cspad := num bs 0x18 4, lspad := num bs 0x1C 4, dspad := num bs 0x20 4, stage := num bs 0x24 1
    cosres := bitOf (num bs 0x25 1) 0, lprio := field (num bs 0x25 1) 1 3, hdl := num bs 0x26 2
    param := BitVec.ofNat 64 (num bs 0x28 8), pipe := BitVec.ofNat 64 (num bs 0x30 8), dep0 := num bs 0x38 2
    dep1 := num bs 0x3A 2, early0 := bitOf (num bs 0x3C 1) 0, early1 := bitOf (num bs 0x3C 1) 1
    badRsv := field (num bs 0x25 1) 4 4 != 0 || field (num bs 0x3C 1) 2 6 != 0 || num bs 0x3D 3 != 0 }

/-- Teams of the grid (R128). -/
def LaunchRec.total (r : LaunchRec) : Nat := r.gx * r.gy * r.gz

/-- Vector registers of weft `w` of a team (R204). -/
def LaunchRec.regsOf (r : LaunchRec) (w : Nat) : Nat := if w < r.nacc then r.rega else r.rege

/-- Core scratchpad need of a team, its refill part included (R133). -/
def LaunchRec.coreNeed (r : LaunchRec) : Nat := r.cspad + (4 * r.refill + 4095) / 4096 * 4096

/-- Bytes of the three scratchpad levels (R238). -/
def coreBytesMax : Nat := 3 * 2 ^ 20
def clusBytesMax : Nat := 8 * 2 ^ 20
def dieBytesMax : Nat := 64 * 2 ^ 20

/-! ### Partitions (R133) -/

/-- Index of the largest entry, the lowest on a tie. -/
def argMax (l : List Nat) : Nat :=
  ((List.range l.length).foldl (fun b i => if l.getD b 0 < l.getD i 0 then i else b) 0)

/-- Give wefts `w` on to consecutive partitions from `p0`: the free slots and registers left. -/
def LaunchRec.spreadWefts (r : LaunchRec) (p0 : Nat) : Nat → Nat → List Nat → List Nat → Option (List Nat × List Nat)
  | 0, _, slots, regs => some (slots, regs)
  | n + 1, w, slots, regs =>
    let p := (p0 + w) % 8
    if slots.getD p 0 = 0 ∨ regs.getD p 0 < r.regsOf w then none
    else r.spreadWefts p0 n (w + 1) (modAt slots p (· - 1)) (modAt regs p (· - r.regsOf w))

/-- The partition of weft 0 of a team: the one with the most free registers (R133). -/
def firstPart (regs : List Nat) : Nat := argMax regs

/-- Slots and registers left on a core after one more team; none if it does not fit. -/
def LaunchRec.fitParts (r : LaunchRec) (slots regs : List Nat) : Option (List Nat × List Nat) :=
  r.spreadWefts (firstPart regs) r.wpt 0 slots regs

/-- Teams that an empty core holds by slots and registers. -/
def LaunchRec.teamsFit (r : LaunchRec) : Nat → List Nat → List Nat → Nat
  | 0, _, _ => 0
  | n + 1, slots, regs =>
    match r.fitParts slots regs with
    | none => 0
    | some (a, b) => 1 + r.teamsFit n a b

/-- Teams that an empty core holds. -/
def LaunchRec.perCore (r : LaunchRec) : Nat :=
  let n := r.teamsFit 64 (List.replicate 8 8) (List.replicate 8 1024)
  if r.coreNeed = 0 then n else min n (coreBytesMax / r.coreNeed)

/-- The grid of a coresident launch could be resident in an empty package (R127). -/
def LaunchRec.couldReside (r : LaunchRec) : Bool :=
  r.total ≤ 52 * (if r.lspad = 0 then 4 * r.perCore else min (4 * r.perCore) (clusBytesMax / r.lspad))

/-! ### Validity (R127, R138) -/

/-- The address lies in the HBM window and is aligned. -/
def hbmAligned (va : W64) (n : Nat) : Bool := !isFabric va && !nonCanonical va && !inScm va && va.toNat % n == 0

/-- A register budget for a role of `n` wefts (R126). -/
def budgetOk (n regs : Nat) : Bool := if n = 0 then regs == 0 else regs % 8 == 0 && 8 ≤ regs && regs ≤ 256

/-- A pipeline descriptor is valid and has the stage (R138); QDEP of stages that it does not have is not looked at (assumption 117). -/
def pipeOk (bs : List Byte) (stage : Nat) : Bool :=
  let ns := num bs 0 1
  let nv := num bs 1 1
  let qd := fun k => num bs (8 + 2 * k) 2
  let lo := fun v k => num bs (0x20 + 16 * v + k) 1
  let hi := fun v k => num bs (0x28 + 16 * v + k) 1
  1 ≤ ns && ns ≤ 8 && 1 ≤ nv && nv ≤ 4 && num bs 3 1 < 4 && num bs 4 4 == 0 && num bs 0x18 8 == 0
    && num bs 0x60 32 == 0 && stage < ns
    && (List.range ns).all (fun k => 1 ≤ qd k && qd k ≤ 4096)
    && (List.range nv).all fun v =>
        (List.range ns).all (fun k => 1 ≤ lo v k && lo v k ≤ hi v k)
          && ((List.range ns).map (lo v)).foldl (· + ·) 0 ≤ 208

/-- The fields of a record lie in their ranges (R126, R127). -/
def LaunchRec.fieldsOk (r : LaunchRec) : Bool :=
  hbmAligned r.entry 4 && 1 ≤ r.gx && r.gx ≤ 2 ^ 24 && 1 ≤ r.gy && 1 ≤ r.gz && r.total ≤ 2 ^ 40
    && 1 ≤ r.wpt && r.wpt ≤ 32 && r.nacc ≤ r.wpt && budgetOk r.nacc r.rega && budgetOk (r.wpt - r.nacc) r.rege
    && r.refill ≤ 4096 && r.cspad % 4096 == 0 && r.lspad % 4096 == 0 && r.lspad ≤ clusBytesMax
    && r.dspad % 65536 == 0 && r.dspad ≤ dieBytesMax && r.stage ≤ 7 && (r.pipe != 0 || r.stage == 0)
    && r.hdl ≤ 4095 && r.dep0 ≤ 4095 && r.dep1 ≤ 4095 && r.param.toNat % 64 == 0 && !r.badRsv
    && r.coreNeed ≤ coreBytesMax && (!r.cosres || r.couldReside)

/-- The record is valid in a context (R127, R138): a pipeline descriptor that cannot be read makes it invalid. -/
def State.recordOk (s : State) (c : Nat) (r : LaunchRec) : Bool :=
  r.fieldsOk && (r.pipe == 0 || (hbmAligned r.pipe 128 &&
    (match s.vaRead c r.pipe 128 with | some bs => pipeOk bs r.stage | none => false)))

/-! ### Entering a queue -/

/-- Dependency on the launch that holds a handle: none for handle 0 and for a launch that is gone (R130). -/
def State.depOn (s : State) (c h : Nat) (early : Bool) : List Dep :=
  if h = 0 then []
  else match (s.ctx c).handles.lookup h with
    | some n => if (s.launch? c n).isSome then [{ serial := n, early := early }] else []
    | none => []

/-- A pipeline as its descriptor gives it, before any stage has entered (R138, R141). -/
def Pipe.ofBytes (id c : Nat) (va : W64) (bs : List Byte) : Pipe :=
  let nv := num bs 1 1
  { id := id, ctx := c, va := va, nstage := num bs 0 1, nvar := nv
    hyst := if num bs 2 1 = 0 then 16 else num bs 2 1
    qdie := num bs 3 1, qdep := (List.range 8).map fun k => num bs (8 + 2 * k) 2
    vmin := (List.range nv).map fun v => (List.range 8).map fun k => num bs (0x20 + 16 * v + k) 1
    vmax := (List.range nv).map fun v => (List.range 8).map fun k => num bs (0x28 + 16 * v + k) 1
    serials := List.replicate 8 none, started := false, variant := 0, queues := List.replicate 8 [], qpois := []
    closed := List.replicate 8 false, qbase := 0, cores := [], busy := List.replicate 8 0 }

/-- Enter a stage launch into its pipeline: the one at the VA that lacks the stage, or a new one (R138). -/
def State.joinPipe (s : State) (c serial : Nat) (r : LaunchRec) : State :=
  if r.pipe = 0 then s
  else
    let fresh := s.pipes.find? fun p =>
      p.ctx == c && p.va == r.pipe && !p.started && p.serials.getD r.stage none == none
    match fresh with
    | some p => s.setPipe { p with serials := setAt p.serials r.stage (some serial) }
    | none =>
      let p := Pipe.ofBytes s.nextId c r.pipe ((s.vaRead c r.pipe 128).getD [])
      let q : Pipe := { p with serials := setAt p.serials r.stage (some serial) }
      { s with nextId := s.nextId + 1, pipes := s.pipes ++ [q] }

/-- A launch enters a launch queue (R130, R132): it takes the next serial and its handle. -/
def State.enterLaunch (s : State) (c : Nat) (lva : W64) (r : LaunchRec) (die : Option Nat) (extra : List Dep)
    (cmd : Option (Nat × Nat × Nat)) (itn : Option Nat) : State :=
  let x := s.ctx c
  let n := x.nextSerial
  let deps := s.depOn c r.dep0 r.early0 ++ s.depOn c r.dep1 r.early1 ++ s.depOn c r.hdl false ++ extra
  let l : Launch :=
    { ctx := c, serial := n, lrec := r, lva := lva, deps := deps, nextTeam := 0, placed := 0, retired := 0, die := die,
      cmd := cmd, itn := itn, task := none, warm := false, waited := 0 }
  let hs := if r.hdl = 0 then x.handles else (r.hdl, n) :: x.handles.filter fun h => h.1 ≠ r.hdl
  let s1 := { s with launches := s.launches ++ [l] }.setCtx c { x with nextSerial := n + 1, handles := hs }
  s1.joinPipe c n r

/-- The launch has left its queue: every team is claimed. -/
def Launch.claimed (l : Launch) : Bool := l.lrec.total ≤ l.nextTeam

/-- Launches one die queue holds per context (R459). -/
def launchQueueCap : Nat := 256

/-- A die launch queue is full for a context (R459). -/
def State.launchFull (s : State) (c die : Nat) : Bool :=
  launchQueueCap ≤ (s.launches.filter fun l => l.ctx == c && l.die == some die && !l.claimed).length

/-- The launch is triggered (R131): every team is placed, and every weft has issued `trig` or exited. -/
def State.launchTriggered (s : State) (l : Launch) : Bool :=
  l.lrec.total ≤ l.placed
    && s.wefts.all fun w => w.triggered || w.exited || (match s.team? w.team with
        | some t => !(t.ctx == l.ctx && t.serial == l.serial)
        | none => true)

/-- A dependency is met (R130): its launch is gone, or triggered where the early bit is set. -/
def State.depMet (s : State) (c : Nat) (d : Dep) : Bool :=
  match s.launch? c d.serial with
  | none => true
  | some l => d.early && s.launchTriggered l

/-- All dependencies of a launch are met (R130). -/
def State.depsMet (s : State) (l : Launch) : Bool := l.deps.all (s.depMet l.ctx)

end Sys2Proof.Machine
end

