-- ==== Sys2Proof/Machine/Scalar.lean ====
section
/-! DEFINITION. Scalar arithmetic (R337-R340): every instruction of majors 0x03 to 0x08. -/

namespace Sys2Proof.Machine

/-- Clamp to the signed 64-bit range (R338). -/
def clamp64 (x : Int) : W64 :=
  if x < -(2 ^ 63) then BitVec.ofInt 64 (-(2 ^ 63)) else if 2 ^ 63 - 1 < x then BitVec.ofInt 64 (2 ^ 63 - 1)
  else BitVec.ofInt 64 x

/-- Sum, clamped under SAT (R338). -/
def satAdd (p : Pfx) (a b : W64) : W64 := if p.sat then clamp64 (a.toInt + b.toInt) else a + b
/-- Difference, clamped under SAT (R338). -/
def satSub (p : Pfx) (a b : W64) : W64 := if p.sat then clamp64 (a.toInt - b.toInt) else a - b
/-- Product, clamped under SAT (R338). -/
def satMul (p : Pfx) (a b : W64) : W64 := if p.sat then clamp64 (a.toInt * b.toInt) else a * b

/-- Lowest one bit of a 64-bit value; 64 when there is none (R337). -/
def lowestOne (a : W64) : Nat := (laneIdx.find? (inMask a)).getD 64

/-- True and false as R337 writes them. -/
def truth (c : Bool) : W64 := if c then allLanes else 0

/-- The immediate of an I-form (R307, R308): 12 bits, or 38 with XL. -/
def immI (p : Pfx) (i : BitVec 12) : W64 :=
  match p.xl with
  | some l => (l ++ i).signExtend 64
  | none => i.signExtend 64

/-- The immediate of a U-form (R307, R308): 19 bits, or 45 with XL. -/
def immU (p : Pfx) (i : BitVec 19) : W64 :=
  match p.xl with
  | some l => (l ++ i).signExtend 64
  | none => i.signExtend 64

/-- A two-source scalar operation (R337). -/
def scalar2 (p : Pfx) (d a b : Opnd) (f : W64 → W64 → W64) (s : State) : Res :=
  execScalar s p [srcS .a a, srcS .b b] d fun _ v => f (v.getD 0 0) (v.getD 1 0)

/-- A one-source scalar operation (R337). -/
def scalar1 (p : Pfx) (d a : Opnd) (f : W64 → W64) (s : State) : Res :=
  execScalar s p [srcS .a a] d fun _ v => f (v.getD 0 0)

/-- `sadd`: (a + b) mod 2^64; SAT clamps (R337, R338). -/
def execSadd (p : Pfx) (d a b : Opnd) (s : State) : Res := scalar2 p d a b (fun a b => satAdd p a b) s

/-- `ssub`: (a - b) mod 2^64; SAT clamps (R337, R338). -/
def execSsub (p : Pfx) (d a b : Opnd) (s : State) : Res := scalar2 p d a b (fun a b => satSub p a b) s

/-- `smul`: (a × b) mod 2^64; SAT clamps (R337, R338). -/
def execSmul (p : Pfx) (d a b : Opnd) (s : State) : Res := scalar2 p d a b (fun a b => satMul p a b) s

/-- `smulhi`: bits [127:64] of the signed product (R337). -/
def execSmulhi (p : Pfx) (d a b : Opnd) (s : State) : Res := scalar2 p d a b (fun a b => BitVec.ofInt 64 (a.toInt * b.toInt / 2 ^ 64)) s

/-- `smulhn`: bits [127:64] of the unsigned product (R337). -/
def execSmulhn (p : Pfx) (d a b : Opnd) (s : State) : Res := scalar2 p d a b (fun a b => BitVec.ofNat 64 (a.toNat * b.toNat / 2 ^ 64)) s

/-- `sand`: a AND b (R337). -/
def execSand (p : Pfx) (d a b : Opnd) (s : State) : Res := scalar2 p d a b (fun a b => a &&& b) s

/-- `sor`: a OR b (R337). -/
def execSor (p : Pfx) (d a b : Opnd) (s : State) : Res := scalar2 p d a b (fun a b => a ||| b) s

/-- `sxor`: a XOR b (R337). -/
def execSxor (p : Pfx) (d a b : Opnd) (s : State) : Res := scalar2 p d a b (fun a b => a ^^^ b) s

/-- `sandn`: a AND NOT b (R337). -/
def execSandn (p : Pfx) (d a b : Opnd) (s : State) : Res := scalar2 p d a b (fun a b => a &&& ~~~b) s

/-- `sshl`: shift left by b mod 64 (R337). -/
def execSshl (p : Pfx) (d a b : Opnd) (s : State) : Res := scalar2 p d a b (fun a b => a <<< (b.toNat % 64)) s

/-- `sshr`: logical shift right by b mod 64 (R337). -/
def execSshr (p : Pfx) (d a b : Opnd) (s : State) : Res := scalar2 p d a b (fun a b => a >>> (b.toNat % 64)) s

/-- `ssra`: arithmetic shift right by b mod 64 (R337). -/
def execSsra (p : Pfx) (d a b : Opnd) (s : State) : Res := scalar2 p d a b (fun a b => a.sshiftRight (b.toNat % 64)) s

/-- `smin`: signed minimum (R337). -/
def execSmin (p : Pfx) (d a b : Opnd) (s : State) : Res := scalar2 p d a b (fun a b => if a.toInt ≤ b.toInt then a else b) s

/-- `smax`: signed maximum (R337). -/
def execSmax (p : Pfx) (d a b : Opnd) (s : State) : Res := scalar2 p d a b (fun a b => if a.toInt ≤ b.toInt then b else a) s

/-- `sminn`: unsigned minimum (R337). -/
def execSminn (p : Pfx) (d a b : Opnd) (s : State) : Res := scalar2 p d a b (fun a b => if a.toNat ≤ b.toNat then a else b) s

/-- `smaxn`: unsigned maximum (R337). -/
def execSmaxn (p : Pfx) (d a b : Opnd) (s : State) : Res := scalar2 p d a b (fun a b => if a.toNat ≤ b.toNat then b else a) s

/-- `sclz`: leading zero bits (R337). -/
def execSclz (p : Pfx) (d a : Opnd) (s : State) : Res := scalar1 p d a (fun a => BitVec.ofNat 64 (64 - bitLen a.toNat)) s

/-- `spopc`: one bits (R337). -/
def execSpopc (p : Pfx) (d a : Opnd) (s : State) : Res := scalar1 p d a (fun a => BitVec.ofNat 64 (popCount a)) s

/-- `sffs`: index of the lowest one bit, 64 for 0 (R337). -/
def execSffs (p : Pfx) (d a : Opnd) (s : State) : Res := scalar1 p d a (fun a => BitVec.ofNat 64 (lowestOne a)) s

/-- `sbrev`: bits reversed (R337). -/
def execSbrev (p : Pfx) (d a : Opnd) (s : State) : Res := scalar1 p d a (fun a => a.reverse) s

/-- `seq`: true when a is equal b (R337). -/
def execSeq (p : Pfx) (d a b : Opnd) (s : State) : Res := scalar2 p d a b (fun a b => truth (a == b)) s

/-- `sne`: true when a is not equal b (R337). -/
def execSne (p : Pfx) (d a b : Opnd) (s : State) : Res := scalar2 p d a b (fun a b => truth (a != b)) s

/-- `slt`: true when a is signed below b (R337). -/
def execSlt (p : Pfx) (d a b : Opnd) (s : State) : Res := scalar2 p d a b (fun a b => truth (decide (a.toInt < b.toInt))) s

/-- `sle`: true when a is signed not above b (R337). -/
def execSle (p : Pfx) (d a b : Opnd) (s : State) : Res := scalar2 p d a b (fun a b => truth (decide (a.toInt ≤ b.toInt))) s

/-- `sltn`: true when a is unsigned below b (R337). -/
def execSltn (p : Pfx) (d a b : Opnd) (s : State) : Res := scalar2 p d a b (fun a b => truth (decide (a.toNat < b.toNat))) s

/-- `slen`: true when a is unsigned not above b (R337). -/
def execSlen (p : Pfx) (d a b : Opnd) (s : State) : Res := scalar2 p d a b (fun a b => truth (decide (a.toNat ≤ b.toNat))) s

/-- `saddi`: (a + imm); SAT as R338 (R339). -/
def execSaddi (p : Pfx) (d a : Opnd) (i : BitVec 12) (s : State) : Res :=
  scalar1 p d a (fun a => satAdd p a (immI p i)) s

/-- `sandi`: a AND imm (R339). -/
def execSandi (p : Pfx) (d a : Opnd) (i : BitVec 12) (s : State) : Res :=
  scalar1 p d a (fun a => a &&& (immI p i)) s

/-- `sori`: a OR imm (R339). -/
def execSori (p : Pfx) (d a : Opnd) (i : BitVec 12) (s : State) : Res :=
  scalar1 p d a (fun a => a ||| (immI p i)) s

/-- `sxori`: a XOR imm (R339). -/
def execSxori (p : Pfx) (d a : Opnd) (i : BitVec 12) (s : State) : Res :=
  scalar1 p d a (fun a => a ^^^ (immI p i)) s

/-- `sli`: the immediate (R340). -/
def execSli (p : Pfx) (d : Opnd) (i : BitVec 19) (s : State) : Res := execScalar s p [] d fun _ _ => immU p i

end Sys2Proof.Machine
end

