-- ==== Sys2Proof/Machine/Order.lean ====
section
/-! DEFINITION. What an ordering instruction waits on (R245-R256): the weft's own loads, its replay queue, its persist
barriers, and the writes of its core; with the peer table (R69), the plane of a line (R74), request packets (R72) and the combining buffer
(R78). One order of performance is modelled (assumption 3): loads of a weft are performed in program order, and a store enters the core
store order when its fate is decided, its weft's earlier loads being performed. -/

namespace Sys2Proof.Machine

/-! ### Accesses -/

/-- The access writes (R245). -/
def AccKind.writes : AccKind → Bool
  | .load => false
  | .store => true
  | .atomic _ _ => true
  | .sigAdd => true
  | .sigSet => true
  | .swait _ _ => false
  | .fetch => false
  | .launch _ _ _ => false

/-- The access returns a value to its weft. -/
def AccKind.reads : AccKind → Bool
  | .load => true
  | .store => false
  | .atomic _ ret => ret
  | .sigAdd => false
  | .sigSet => false
  | .swait _ _ => true
  | .fetch => true
  | .launch _ _ _ => true

/-- The access belongs to the weft. -/
def Access.isOf (a : Access) (w : Weft) : Bool := a.core == w.core && a.slot == w.slot

/-- The lane has nothing left to do. -/
def LaneAcc.closed (l : LaneAcc) : Bool :=
  match l.st with
  | .done => true
  | .dropped => true
  | _ => false

/-- The lane faulted replayably, or stands behind a parked store. -/
def LaneAcc.replaying (l : LaneAcc) : Bool :=
  match l.st with
  | .replay _ _ => true
  | _ => false

/-- The weft has a load, an atomic with return or a `swait` that is not performed. -/
def State.loadsOpen (s : State) (w : Weft) : Bool := s.accs.any fun a => a.isOf w && a.kind.reads

/-- The weft has an entry in the replay queue, or one that is being issued again (R248, R490). -/
def State.replays (s : State) (w : Weft) : Bool :=
  s.accs.any fun a => a.isOf w && a.kind.writes && !a.kind.reads && (a.parked || a.lanes.any LaneAcc.replaying)

/-- A write of the core is in the core store order and not performed (R252, step 4). -/
def State.coreWrites (s : State) (core : Nat) : Bool :=
  s.accs.any fun a => a.core == core && a.kind.writes && a.ord.isSome && a.lanes.any fun l => !l.closed && !l.replaying

/-- A write of the weft is not performed. -/
def State.weftWrites (s : State) (w : Weft) : Bool := s.accs.any fun a => a.isOf w && a.kind.writes

/-- A fabric write of the weft is neither acknowledged nor failed (R84). -/
def State.fabricWrites (s : State) (w : Weft) : Bool :=
  s.accs.any fun a => a.isOf w && a.kind.writes && a.lanes.any fun l => isFabric l.ea && !l.closed

/-- The combining buffer of a core holds an entry (R78). -/
def State.combines (s : State) (core : Nat) : Bool := s.fab.comb.any fun e => e.core == core

/-- Steps 1 to 4 of R252 hold for a release at a scope. -/
def State.relReady (s : State) (w : Weft) (scope : Nat) : Bool :=
  !s.replays w && !s.loadsOpen w && !(w.pbars.any fun b => decide (b.kind < 2))
    && (scope ≤ 1 || (!s.coreWrites w.core && !s.combines w.core))

/-- An instruction fetch starts again (R272): what has come of its line is not used. -/
def Access.refetch (a : Access) : Access :=
  { a with settled := a.settled && a.parked
           lanes := a.lanes.map fun l => match l.st with
             | .ready _ | .done | .sent _ => { l with st := .waiting }
             | _ => l }

/-- A core's instruction cache drops the lines of some contexts, those that are being fetched among them (R272). -/
def State.dropCode (s : State) (core : Nat) (pick : Nat → Bool) : State :=
  { s with
    icache := s.icache.filter fun l => !(l.core == core && pick l.ctx)
    accs := s.accs.map fun a => if a.kind = .fetch ∧ a.core = core ∧ pick a.ctx then a.refetch else a }

/-! ### Events of a weft (R288) -/

/-- Put an event at a weft, whose sleep it ends (R329); FABRIC errors make one event (R288). -/
def Weft.addEvent (w : Weft) (e : WeftEvent) : Weft :=
  match e with
  | .fabric _ =>
    if w.events.any fun x => match x with | .fabric _ => true | _ => false then { w with sleep := 0 }
    else { w with events := w.events ++ [e], sleep := 0 }
  | _ => { w with events := w.events ++ [e], sleep := 0 }

/-- Put an event at the weft of an access. -/
def State.weftEvent (s : State) (core slot : Nat) (e : WeftEvent) : State :=
  match s.weft? core slot with
  | some w => s.setWeft (w.addEvent e)
  | none => s

/-- Lanes of an access fail after its weft has moved on: an event, but a poisoned line is an error in flight, since SOFTERR of kind E has that
reach alone (R63, R279, R286, assumption 108). -/
def State.lateFault (s : State) (core slot : Nat) (c : Cause) (e : WeftEvent) : State :=
  if c = .softerr then s.post (.softError (.inflight core slot)) else s.weftEvent core slot e

/-! ### Peers and planes (R69, R74, R83) -/

/-- A peer-table entry at reset (R69). -/
def Peer.zero : Peer := { v := false, sport := 0, st := 0, planes := 0 }

/-- An entry of the peer table (R69). -/
def State.peer (s : State) (n : Nat) : Peer := (s.fab.peers.lookup n).getD Peer.zero

/-- Set an entry of the peer table. -/
def State.putPeer (s : State) (n : Nat) (f : Peer → Peer) : State :=
  { s with fab := { s.fab with peers := (n, f (s.peer n)) :: s.fab.peers.filter fun e => e.1 ≠ n } }

/-- The plane of a line toward a peer (R74): the first that is up and reaches it, from the hashed one on. -/
def State.planeOf (s : State) (peer line : Nat) : Option Nat :=
  let k := field line 0 12 ^^^ field line 12 12 ^^^ field line 24 12 ^^^ field line 36 11 ^^^ peer
  let reach := (s.peer peer).planes &&& s.fab.up
  ((List.range 36).map fun i => (k % 36 + i) % 36).find? fun n => reach.getLsbD n

/-- An error at the source (R83): 1 FJOB0, 2 PEERDOWN, 3 FENCED. Where several hold, FJOB0 comes first, then V = 0 or down, then FENCED, then
no plane; the entry of the package's own id is not looked at (assumption 92). -/
def State.fabErr (s : State) (c peer line : Nat) : Option Nat :=
  if (s.ctx c).desc.fjob = 0 then some 1
  else if peer = s.fab.pkgid.toNat then none
  else
    let e := s.peer peer
    if !e.v || e.st = 2 || e.st = 3 then some 2
    else if e.st = 1 then some 3
    else if (s.planeOf peer line).isNone then some 2
    else none

/-! ### Packets (R70, R72, R80) -/

/-- Granules of a line that some offsets lie in (R72). -/
def granulesOf (offs : List Nat) : BitVec 8 := BitVec.ofNat 8 ((distinct (offs.map (· / 16))).foldl (fun acc g => acc + 2 ^ (g % 8)) 0)

/-- A read request of some granules of a line (R72), the form that the other requests change. -/
def mkPacket (core ctx peer line tier : Nat) (gm : BitVec 8) (op : FabOp) : Packet :=
  { pid := 0, core := core, ctx := ctx, fjob := 0, peer := peer, sport := 0, line := line, gm := gm, tier := tier, plane := 0, op := op,
    bytes := [], ops := [], accs := [], lanes := [], use := .access, sent := false, resent := false }

/-- Send a request packet (R72) that R83 lets go: it takes its number, its headers and its plane, and stands in its port's request VC; one to the
package itself crosses no port (R39). A darner's packet takes its headers and its plane as it leaves (assumption 112). -/
def State.sendPacket (s : State) (k : Packet) : State :=
  { s with
    nextId := s.nextId + 1
    fab := { s.fab with packets := s.fab.packets ++
      [{ k with pid := s.nextId, fjob := (s.ctx k.ctx).desc.fjob, sport := (s.peer k.peer).sport
                plane := (s.planeOf k.peer k.line).getD 0, sent := k.peer == s.fab.pkgid.toNat }] } }

/-! ### The combining buffer (R78) -/

/-- Lanes of an access that the combining buffer held on a line. -/
def Access.combLanes (a : Access) (peer line : Nat) (st : LaneSt) : Access :=
  { a with lanes := a.lanes.map fun l =>
      if l.st = .combined ∧ peerOf l.ea = peer ∧ field l.ea.toNat 7 47 = line then { l with st := st } else l }

/-- An entry leaves its buffer; the lanes that it held go on to a state. -/
def State.leaveComb (s : State) (e : CombEntry) (st : LaneSt) : State :=
  { s with
    fab := { s.fab with comb := s.fab.comb.filter fun x => x ≠ e }
    accs := s.accs.map fun a => if a.id ∈ e.accs then a.combLanes e.peer e.line st else a }

/-- Send one entry of a combining buffer as a write request of its touched granules (R78); one that has become an error at the source
fails for every weft whose bytes it holds (R83, R84, R490). -/
def State.sendComb (s : State) (e : CombEntry) : State :=
  match s.fabErr e.ctx e.peer e.line with
  | some d => (distinct (e.bytes.map fun b => b.2.2)).foldl (fun t slot => t.weftEvent e.core slot (.fabric d)) (s.leaveComb e .dropped)
  | none =>
    (s.sendPacket { mkPacket e.core e.ctx e.peer e.line (b2n e.nt) (granulesOf (e.bytes.map (·.1))) .write with
      bytes := e.bytes, accs := e.accs }).leaveComb e (.sent s.nextId)

/-- Send the entries of a buffer that a test picks, oldest first (R78). -/
def State.flushComb (s : State) (pick : CombEntry → Bool) : State :=
  (s.fab.comb.filter pick).foldl (fun t e => t.sendComb e) s

/-- A release, fence or signal wider than core scope sends the core's whole buffer (R78). -/
def State.flushCore (s : State) (core : Nat) (scope : Nat) : State :=
  if scope ≤ 1 then s else s.flushComb fun e => e.core == core

/-- An ordering instruction of a weft does not complete yet: the buffer is sent as its scope asks, and the weft waits (R78, R249). -/
def State.waitOrder (s : State) (w : Weft) (scope : Nat) : State :=
  let t := s.flushCore w.core scope
  match t.weft? w.core w.slot with
  | some v => t.waits v .order
  | none => t

/-- Go on when the release at a scope may complete (R252, R249). -/
def State.release (s : State) (w : Weft) (scope : Nat) (k : State → State) : State :=
  if s.relReady w scope then k s else s.waitOrder w scope

/-- Go on when every earlier load of the weft is performed: an acquire that is no fence (R251, R257, R258). -/
def State.acquire (s : State) (w : Weft) (k : State → State) : State :=
  if s.loadsOpen w then s.waits w .order else k s

/-- Go on when a fence of kind acq may complete (R254): earlier loads are performed; from core scope on the replay queue is empty (R249);
wider than core the weft's fabric writes are acknowledged or have failed (R84). -/
def State.fenceAcq (s : State) (w : Weft) (scope : Nat) (k : State → State) : State :=
  if s.loadsOpen w || (decide (1 ≤ scope) && s.replays w) || (decide (2 ≤ scope) && (s.fabricWrites w || s.combines w.core)) then
    s.waitOrder w scope
  else k s

/-- A `fence` of a scope waits as an instruction (R288): from core scope on while the weft's replay queue holds an entry (R249), and wider than
core while a fabric write of the weft is not acknowledged or the core's buffer is not sent (R84, R252). -/
def State.fenceWaits (s : State) (w : Weft) (scope : Nat) : Bool :=
  (decide (1 ≤ scope) && s.replays w) || (decide (2 ≤ scope) && (s.fabricWrites w || s.combines w.core))

/-- A `fence` of a weft has completed (R254): the weft's earlier loads are performed; from core scope on none of its earlier stores is parked
(R249); for a release the earlier persist points are reached and, wider than core, every write of the core before it is performed; a full one
waits for the weft's own writes from core scope on. -/
def State.fenceDone (s : State) (w : Weft) (f : PFence) : Bool :=
  let some' := fun p : Access → Bool => s.accs.any fun a => a.isOf w && decide (a.op < f.op) && p a
  !some' (fun a => a.kind.reads)
    && (f.scope == 0 || !some' (fun a => a.kind.writes && !a.kind.reads && (a.parked || a.lanes.any LaneAcc.replaying)))
    && (f.kind == 1
      || (!(w.pbars.any fun b => decide (b.kind < 2) && decide (b.op < f.op))
        && (f.scope ≤ 1 || !(s.accs.any fun a => a.core == w.core && a.kind.writes && (match a.ord with | some o => decide (o < f.op) | none => false)
              && a.lanes.any fun l => !l.closed && !l.replaying))
        && (f.kind == 2 || f.scope == 0 || !some' (fun a => a.kind.writes))))

/-- A `fence` that the weft went on past keeps its next memory group from issuing (R420). -/
def State.fenced (s : State) (w : Weft) : Bool := match w.fence with | some f => !s.fenceDone w f | none => false

/-- Go on when a full fence may complete (R254): the release, and from core scope on every earlier write of the weft is performed. -/
def State.fullFence (s : State) (w : Weft) (scope : Nat) (k : State → State) : State :=
  if s.relReady w scope && (scope == 0 || !s.weftWrites w) then k s else s.waitOrder w scope

end Sys2Proof.Machine
end

