-- ==== Sys2Proof/Machine/Access.lean ====
section
/-! DEFINITION. A memory access from issue to completion (R52, R55, R242-R249, R403-R416): the lanes' outcomes at their
channels, fault buffers (R54), fault records (R53, R120), parking and replay (R248, R282, R491), performance, and the
combining buffer and packets of the fabric window (R72-R79, R83, R84). -/

namespace Sys2Proof.Machine

/-! ### Fault records -/

/-- The access is an atomic or a signal. -/
def AccKind.isAtomic : AccKind → Bool
  | .atomic _ _ => true
  | .sigAdd => true
  | _ => false

/-- ACC of a fault record (R53). -/
def AccKind.accBits (k : AccKind) (fab : Bool) : Nat :=
  (match k with
    | .load => 1 | .store => 2 | .atomic _ _ => 4 | .sigAdd => 4 | .sigSet => 4 | .swait _ _ => 1 | .fetch => 8
    | .launch _ _ _ => 1)
    + 16 * b2n fab

/-- A fault record as bytes (R53). -/
def FaultRec.bytes (r : FaultRec) (c : Nat) : List Byte :=
  leBytes 8 r.va.toNat ++ leBytes 8 r.lmask.toNat ++ leBytes 1 c ++ leBytes 1 r.kind ++ leBytes 1 r.level
    ++ leBytes 1 r.acc ++ leBytes 2 r.core ++ leBytes 1 r.slot ++ leBytes 1 0 ++ leBytes 4 r.seq.toNat
    ++ leBytes 4 r.pclo.toNat

/-- Records in the ring of a fault queue (R120). -/
def Context.fqUsed (x : Context) : Nat := (x.fqwi - x.fqri).toNat

/-- Write held records while the ring has space (R120); while the host does not answer they stay held (assumption 90). -/
def State.pumpRecords (s : State) (c : Nat) : Nat → State
  | 0 => s
  | n + 1 =>
    let x := s.ctx c
    match x.fqheld with
    | [] => s
    | r :: rest =>
      if 2 ^ x.desc.fqlog ≤ x.fqUsed then s.setCtx c { x with fqovf := true }
      else
        let slot := x.fqwi.toNat % 2 ^ x.desc.fqlog
        match s.hostPut (x.desc.fqbase.toNat + 32 * slot) (r.bytes c) with
        | none => s
        | some s1 =>
          let s2 := s1.hostIndex x.desc.fqwaddr.toNat (x.fqwi + 1)
          let s3 := if x.fqUsed = 0 then s2.emit (.msix x.desc.fqvec) else s2
          (s3.setCtx c { x with fqwi := x.fqwi + 1, fqheld := rest }).pumpRecords c n

/-- Write a fault record of a context, or hold it until the ring has space (R120). -/
def State.writeRecord (s : State) (c : Nat) (r : FaultRec) : State :=
  let x := s.ctx c
  let s1 := s.setCtx c { x with fqheld := x.fqheld ++ [{ r with seq := x.fqseq }], fqseq := x.fqseq + 1 }
  s1.pumpRecords c (x.fqheld.length + 1)

/-- Write the records that every context holds, as far as its ring has space. -/
def State.pumpAll (s : State) : State :=
  ((List.range 64).filter fun c => !(s.ctx c).fqheld.isEmpty).foldl (fun t c => t.pumpRecords c (t.ctx c).fqheld.length) s

/-- Write several records. -/
def State.writeRecords (s : State) (c : Nat) (rs : List FaultRec) : State := rs.foldl (fun t r => t.writeRecord c r) s

/-- KIND and LEVEL of a lane to be recorded. -/
def LaneAcc.fault (l : LaneAcc) : Option (Nat × Nat) :=
  match l.st with
  | .replay k v => if k = 0 then none else some (k, v)
  | _ => none

/-- The records of an access: one per 4 KiB unit of its replayably faulted lanes (R53). -/
def Access.records (a : Access) : List FaultRec :=
  let ls := a.lanes.filter fun l => l.fault.isSome
  (distinct (ls.map fun l => l.ea.toNat / 4096)).filterMap fun u =>
    match ls.filter fun l => l.ea.toNat / 4096 == u with
    | [] => none
    | l :: r => l.fault.map fun f =>
        { va := if a.kind = .fetch then a.pc else l.ea, lmask := if a.scalar then a.mask else maskOf fun i => (l :: r).any fun x => x.lane == i,
          kind := f.1, level := f.2, acc := a.kind.accBits (isFabric l.ea), core := a.core, slot := a.slot, seq := 0,
          pclo := a.pc.setWidth 32 }

/-! ### Atomics -/

/-- Operand bytes of an atomic minor (R412). -/
def atomSize (minor : Nat) : Nat :=
  match minor with
  | 1 => 8 | 7 => 8 | 8 => 8 | 13 => 8 | 15 => 8 | _ => 4

/-- Rounding of the float minors: rne, subnormals kept, no flag (R414). -/
def atomEnv : REnv := { mode := 0, ftz := false, sat := false, r := 0, conv := false }

/-- A 16-bit half of `add.bf16x2` (R412). -/
def bf16Half (old b k : Nat) : Nat :=
  (fAddV fBF16 atomEnv (unpack fBF16 (field old (16 * k) 16)) (unpack fBF16 (field b (16 * k) 16))).bits

/-- The new value of a minor from the old one, the operand and the swap value (R412, R415). -/
def atomNew (minor old b swap : Nat) : Nat :=
  match minor with
  | 0 => (old + b) % 2 ^ 32
  | 1 => (old + b) % 2 ^ 64
  | 2 => (fAddV fF32 atomEnv (unpack fF32 old) (unpack fF32 b)).bits
  | 3 => if signedOf 32 old ≤ signedOf 32 b then old else b
  | 4 => if signedOf 32 old ≤ signedOf 32 b then b else old
  | 5 => min old b
  | 6 => max old b
  | 7 => min old b
  | 8 => max old b
  | 9 => old &&& b
  | 10 => old ||| b
  | 11 => old ^^^ b
  | 12 => b
  | 13 => b
  | 14 => if old = b then swap else old
  | 15 => if old = b then swap else old
  | 16 => (fMinMax fF32 false false old b).bits
  | 17 => (fMinMax fF32 false true old b).bits
  | 18 => bf16Half old b 0 + 2 ^ 16 * bf16Half old b 1
  | _ => old

/-! ### Lane states -/

/-- The lane's outcome is known (R52); a fabric store, or an atomic or signal with no return, needs none (R84). -/
def LaneAcc.decided (reads : Bool) (l : LaneAcc) : Bool :=
  match l.st with
  | .waiting => !reads && isFabric l.ea
  | .held => false
  | .sent _ => !reads
  | _ => true

/-- The lane's request is held in a fault buffer (R54). -/
def LaneAcc.isHeld (l : LaneAcc) : Bool :=
  match l.st with
  | .held => true
  | _ => false

/-- The lane is in a packet that is not answered. -/
def LaneAcc.isSent (l : LaneAcc) : Bool :=
  match l.st with
  | .sent _ => true
  | _ => false

/-- The lane completes or has completed. -/
def LaneAcc.good (l : LaneAcc) : Bool :=
  match l.st with
  | .ready _ => true
  | .done => true
  | .combined => true
  | .sent _ => true
  | .waiting => true
  | _ => false

/-- The lane is at a channel, answered and not performed. -/
def LaneAcc.isReady (l : LaneAcc) : Bool :=
  match l.st with
  | .ready _ => true
  | _ => false

/-- Lanes of an access in a mask. -/
def Access.lanesWhere (a : Access) (f : LaneAcc → Bool) : W64 :=
  maskOf fun i => a.lanes.any fun l => l.lane == i && f l

/-- Cause of a lane that has a non-replayable outcome. -/
def LaneAcc.cause (l : LaneAcc) : Option (Cause × Nat) :=
  match l.st with
  | .bad c d => some (c, d)
  | _ => none

/-- The lower of two causes by code (R280). -/
def lowerCause (x y : Option (Cause × Nat)) : Option (Cause × Nat) :=
  match x, y with
  | some a, some b => if b.1.code < a.1.code then some b else some a
  | some a, none => some a
  | none, y => y

/-- The cause that decides an access: the lowest code (R280). -/
def Access.worst (a : Access) : Option (Cause × Nat) := a.lanes.foldl (fun acc l => lowerCause acc l.cause) none

/-- Two byte ranges overlap. -/
def overlaps (a n b m : Nat) : Bool := a < b + m && b < a + n

/-! ### Answers of a channel -/

/-- What an access asks of a page (R50). -/
def AccKind.ask : AccKind → Ask
  | .load => .read
  | .store => .write
  | .atomic _ _ => .atomic
  | .sigAdd => .atomic
  | .sigSet => .write
  | .swait _ _ => .read
  | .fetch => .fetch
  | .launch _ _ _ => .read

/-- Requests held in a channel's fault buffer, one for each held lane (R54, assumption 93). -/
def State.heldCount (s : State) (ch : Nat) : Nat :=
  (s.holds.filter fun h => h.chan == ch && h.acc.isSome).length

/-- A hamper takes a write at a key (R103, R172). -/
def State.accepts (s : State) (k : Nat) : Bool :=
  !(keyIsScm k || keyIsSnap k) || ((s.power.pf == .idle || s.power.pf == .stopping) && s.hampRoom (stackOf k) (roomOf k))

/-- The outcome of one lane at its local channel (R50, R54, R63); an atomic with return takes its snapshot frame now, since its weft moves on
with the answer (R179), and waits unanswered while the hamper has no room for the copy (R172). `rep` names the units that the channels had
reported before; a request that walks again or is re-issued by RESUME is not held (R54, R55). -/
def State.verdict (s : State) (rep : Nat → Bool) (a : Access) (l : LaneAcc) : State × LaneAcc :=
  match s.translate a.ctx l.ea a.kind.ask a.step with
  | (.ok k _, s1) =>
    if (a.kind.reads || a.kind.isAtomic) && s1.rpoisoned k a.size then (s1, { l with st := .bad .softerr 0 })
    else if a.kind.writes && a.kind.reads && keyIsSnap k then
      (if s1.accepts k then ((s1.openUnit (snapVa k) a.step).getD s1, { l with st := .ready k }) else (s1, { l with st := .waiting }))
    else (s1, { l with st := .ready k })
  | (.page, s1) => (s1, { l with st := .bad .page 0 })
  | (.prot, s1) => (s1, { l with st := .bad .prot 0 })
  | (.poolEmpty, s1) => (s1, { l with st := .replay 2 0 })
  | (.notPres v, s1) =>
    let ch := chanOf l.ea
    let u := l.ea.toNat / 4096
    if rep u && s1.heldCount ch < 32 then
      ({ s1 with holds := s1.holds ++ [{ chan := ch, ctx := a.ctx, unit := u, acc := some a.id }] },
        { l with st := .held })
    else (s1, { l with st := .replay 1 v })

/-- Outcomes of the lanes that a test picks. -/
def State.verdicts (s : State) (rep : Nat → Bool) (a : Access) (pick : LaneAcc → Bool) : List LaneAcc → State × List LaneAcc
  | [] => (s, [])
  | l :: r =>
    if pick l then
      let o := s.verdict rep a l
      let t := o.1.verdicts rep a pick r
      (t.1, o.2 :: t.2)
    else
      let t := s.verdicts rep a pick r
      (t.1, l :: t.2)

/-- Lanes of a list that were among those that a test picks, as they stand now. -/
def Access.answered (a : Access) (pick : LaneAcc → Bool) (ls : List LaneAcc) : List LaneAcc :=
  ls.filter fun l => (a.lanes.filter pick).any fun m => m.lane == l.lane && m.ea == l.ea

/-- HBM lines that the lanes of an access reach count as transfers, each line once (R58). -/
def State.countAccess (s : State) (a : Access) (ls : List LaneAcc) : State :=
  let keys := ls.filterMap fun l => match l.st with | .ready k => if keyIsHbm k then some (k / 128, l.ea) else none | _ => none
  (distinct (keys.map (·.1))).foldl (fun t n =>
    match keys.lookup n with
    | some ea => t.countLine (n * 128) (match (t.leafOf a.ctx ea).1 with | .leaf e => leafCbf e | _ => false)
    | none => t) s

/-! ### Performing lanes -/

/-- The byte that a store's lanes not yet performed hold at a key; where several do, the highest lane's (R262). -/
def Access.pending (a : Access) (k : Nat) : Option Byte :=
  a.lanes.foldl (fun (h : Option Byte) l =>
    match l.st with
    | .ready k0 => if k0 ≤ k ∧ k < k0 + a.size then some (BitVec.ofNat 8 (l.data >>> (8 * (k - k0)))) else h
    | _ => h) none

/-- Of two bytes with their places in the core store order, the later one. -/
def laterByte (x y : Option (Nat × Byte)) : Option (Nat × Byte) :=
  match x, y with
  | some a, some b => if a.1 ≤ b.1 then some b else some a
  | some a, none => some a
  | none, y => y

/-- The byte that the newest of some stores holds, by their places in the core store order (R246, R247). -/
def newestByte (f : Access → Option Byte) (accs : List Access) : Option Byte :=
  (accs.foldl (fun acc a => laterByte acc ((a.ord.bind fun o => (f a).map fun b => (o, b)))) none).map (·.2)

/-- The byte that the newest pending store of the core holds at a key (R246, R247). -/
def pendingByte (core k : Nat) (accs : List Access) : Option Byte :=
  newestByte (fun a => a.pending k) (accs.filter fun a => a.core == core && (a.kind == .store || a.kind == .sigSet))

/-- Bytes that a load of a core reads at a key (R246, R247). -/
def State.coreBytes (s : State) (core k n : Nat) : List Byte :=
  (List.range n).map fun i =>
    match pendingByte core (k + i) s.accs with
    | some b => b
    | none => s.rbyte (k + i)

/-- One write stands before another access in the core store order; a load comes after all that have entered it (R246). -/
def Access.before (b a : Access) : Bool :=
  match b.ord, a.ord with
  | some x, some y => decide (x < y)
  | some _, none => !a.kind.writes
  | none, _ => false

/-- An older write of the core waits at overlapping bytes. -/
def State.olderWrite (s : State) (a : Access) (k : Nat) (atomicsOnly : Bool) : Bool :=
  s.accs.any fun b => b.core == a.core && b.before a && b.kind.writes && (!atomicsOnly || b.kind.isAtomic)
    && b.lanes.any fun l => match l.st with | .ready k0 => overlaps k0 b.size k a.size | _ => false

/-- An atomic of a core that has entered its order is to be performed at some bytes. -/
def State.atomicAt (s : State) (core k n : Nat) : Bool :=
  s.accs.any fun b => b.core == core && b.ord.isSome && b.kind.isAtomic
    && b.lanes.any fun l => match l.st with | .ready k0 => overlaps k0 b.size k n | _ => false

/-- An older write of the weft is in the replay queue, or is being issued again, with a lane that a test picks (R247, R248). -/
def State.parkedBefore (s : State) (a : Access) (pick : Access → LaneAcc → Bool) : Bool :=
  s.accs.any fun b => b.core == a.core && b.slot == a.slot && decide (b.op < a.op) && b.kind.writes && !b.kind.reads
    && b.lanes.any fun l => (b.parked || l.replaying) && !l.closed && pick b l

/-- The 4 KiB unit of an address holds one of the weft's parked entries (R248). -/
def State.olderParked (s : State) (a : Access) (ea : W64) : Bool :=
  s.parkedBefore a fun _ l => l.ea.toNat / 4096 == ea.toNat / 4096

/-- Bytes of a load lie in one of the weft's own parked stores (R247). -/
def State.parkedBytes (s : State) (a : Access) (ea : W64) : Bool :=
  s.parkedBefore a fun b l => overlaps l.ea.toNat b.size ea.toNat a.size

/-- An older load of the weft is not performed. -/
def State.olderLoad (s : State) (a : Access) : Bool :=
  s.accs.any fun b => b.core == a.core && b.slot == a.slot && decide (b.id < a.id) && b.kind.reads && !b.parked

/-- A lane lies in the SCM window or in a peer's (R422). -/
def laneScm (l : LaneAcc) : Bool := if isFabric l.ea then inScm (peerVa l.ea) else inScm l.ea

/-- A `pbar.*` of the weft holds the lane back (R268): it writes, and lies in an SCM window. -/
def Access.holds (a : Access) (l : LaneAcc) : Bool := a.heldBy.isSome && a.kind.writes && laneScm l

/-- The lane may be performed now. A fetch waits for the atomics of its core that come before it (R272). -/
def State.free (s : State) (a : Access) (l : LaneAcc) (k : Nat) : Bool :=
  if a.kind = .fetch then !s.olderWrite a k true
  else if a.kind.writes then
    !a.holds l && s.accepts k && !s.olderWrite a k false && !s.olderParked a l.ea
      && (!a.kind.reads || !s.olderLoad a)
  else !s.olderWrite a k true && !s.parkedBytes a l.ea && !s.olderLoad a

/-- A write of a lane's bytes is performed: its snapshot unit has a frame for the step, or the lane faults as it would have at the channel
(R50, R179). -/
def State.performWrite (s : State) (a : Access) (l : LaneAcc) (k v data : Nat) : State × LaneAcc :=
  if keyIsSnap k && (s.openUnit (snapVa k) a.step).isNone then
    (s, { l with st := if a.kind.reads then .dropped else if a.step ≤ s.snap.m then .bad .prot 0 else .replay 2 0 })
  else (s.chanWrite (cellsFrom k (leBytes a.size v)) a.step, { l with data := data, st := .done })

/-- Perform one ready lane at its location (R242, R262). A fetch sees what its core has stored (R272). -/
def State.performLane (s : State) (a : Access) (l : LaneAcc) (k : Nat) : State × LaneAcc :=
  match a.kind with
  | .load => (s, { l with data := ofLeBytes (s.coreBytes a.core k a.size), st := .done })
  | .fetch => (s, { l with data := ofLeBytes (s.coreBytes a.core k a.size), st := .done })
  | .swait _ _ => (s, { l with data := ofLeBytes (s.coreBytes a.core k a.size), st := .done })
  | .launch _ _ _ => (s, { l with data := ofLeBytes (s.coreBytes a.core k a.size), st := .done })
  | .store => s.performWrite a l k l.data l.data
  | .sigSet => s.performWrite a l k l.data l.data
  | .sigAdd => s.performWrite a l k ((s.rnat k 8 + l.data) % 2 ^ 64) l.data
  | .atomic m _ =>
    let old := s.rnat k a.size
    s.performWrite a l k (atomNew m.toNat old l.data l.swap) old

/-- Perform the ready lanes that a test picks and nothing holds back, in ascending order (R413). -/
def State.performLanes (s : State) (a : Access) (pick : LaneAcc → Bool) : List LaneAcc → State × List LaneAcc
  | [] => (s, [])
  | l :: r =>
    match l.st with
    | .ready k =>
      if pick l && s.free a l k then
        let o := s.performLane a l k
        let t := o.1.performLanes a pick r
        (t.1, o.2 :: t.2)
      else
        let t := s.performLanes a pick r
        (t.1, l :: t.2)
    | _ =>
      let t := s.performLanes a pick r
      (t.1, l :: t.2)

/-! ### Destinations -/

/-- Word `k` of the value that a lane writes to vector registers (R409). -/
def Access.word (a : Access) (l : LaneAcc) (k : Nat) : W32 :=
  if a.size < 4 ∧ a.signExt then BitVec.ofInt 32 (signedOf (8 * a.size) l.data) else BitVec.ofNat 32 (l.data >>> (32 * k))

/-- The value that a scalar load writes (R409). -/
def Access.scalarValue (a : Access) (l : LaneAcc) : W64 :=
  if a.signExt then BitVec.ofInt 64 (signedOf (8 * a.size) l.data) else BitVec.ofNat 64 l.data

/-- The lanes' words as a G value. -/
def Access.gword (a : Access) (k : Nat) : VVal :=
  .g (laneIdx.map fun i => match a.lanes.find? fun l => l.lane == i with | some l => a.word l k | none => 0)

/-- Write consecutive words of the lanes of a mask. -/
def Weft.writeWords (w : Weft) (a : Access) (m : W64) : Nat → List Nat → Weft
  | _, [] => w
  | k, n :: r => Weft.writeWords (w.setV n m (a.gword k)) a m (k + 1) r

/-- Write one lane's words to its own registers. -/
def Weft.writeLane (w : Weft) (a : Access) (l : LaneAcc) : Nat → List Nat → Weft
  | _, [] => w
  | k, n :: r => Weft.writeLane (w.setLane n l.lane (a.word l k)) a l (k + 1) r

/-- Write the data of the performed lanes (R410, R413, R228). -/
def Weft.writeDest (w : Weft) (a : Access) : Weft :=
  if !a.kind.reads then w
  else
    let done := a.lanes.filter fun l => l.st == .done
    match a.dst with
    | .discard => w
    | .sreg n => (match done with | l :: _ => w.setS n (a.scalarValue l) | [] => w)
    | .vregs pv => w.writeWords a (maskOf fun i => done.any fun l => l.lane == i) 0 pv
    | .xregs pv =>
      let regs := fun l : LaneAcc => ((pv.find? fun e => e.1 == l.lane).map (·.2)).getD []
      (done.foldl (fun v l => v.writeLane a l 0 (regs l)) w).wholeWritten (done.map regs)

/-- Mark a destination empty or full (R226, R228). -/
def Weft.fillDest (w : Weft) (d : Dest) (f : Bool) : Weft :=
  match d with
  | .sreg n => w.fillS n f
  | .vregs pv => w.fillV f pv
  | _ => w

/-- Apply the offset updates of lanes (R219). -/
def Weft.applyOffs (w : Weft) (a : Access) (ok : W64) : Weft :=
  a.offs.foldl (fun v o => if inMask ok o.2.1 then
    { v with xregs := modAt v.xregs o.1 fun x => { x with off := setAt x.off o.2.1 o.2.2 } } else v) w

/-- The access no longer occupies its weft. -/
def Weft.detach (w : Weft) (a : Access) : Weft :=
  { w with busy := w.busy.filter fun b => b.1 ≠ a.id
           unsettled := if w.unsettled = some a.id then none else w.unsettled
           parked := if w.parked = some a.id then none else w.parked }

/-- The group of an access commits (R281). -/
def Weft.commitAcc (w : Weft) (a : Access) : Weft := { w.afterGroup with pc := a.next, rctr := w.rctr + a.rstep }

/-- `dm` after lanes of an access have completed (R281): added at a RESUME or a PL re-issue. -/
def Weft.reportAcc (w : Weft) (a : Access) (ok : W64) : Weft :=
  if a.scalar then w else if a.replayed || w.narrow then { w with dm := w.dm ||| ok } else { w with dm := ok }

/-! ### Fate (R52, R280) -/

/-- Lower the counter of an access (R229). -/
def Weft.lowerAcc (w : Weft) (a : Access) : Weft :=
  match a.cnt with
  | some c => w.lower c a.op
  | none => w

/-- Leave the counter of an access (R231). -/
def Weft.uncountAcc (w : Weft) (a : Access) : Weft :=
  match a.cnt with
  | some c => w.uncount c a.op
  | none => w

/-- An access is the last of its operation, whose lanes the replay queue may have taken apart (R229, R248). -/
def State.lastOf (s : State) (a : Access) : Bool :=
  !s.accs.any fun b => b.id != a.id && b.core == a.core && b.slot == a.slot && b.op == a.op

/-- TInfo of a lane, scalar or fetch fault (R277). -/
def Access.info (a : Access) (c : Cause) (detail : Nat) : TInfo :=
  { TInfo.none with opnd := if a.kind = .fetch then 6 else 0, detail := detail, reach := if c = .softerr then 3 else 0 }

/-- A non-replayable outcome: the weft traps precisely at the group, with the completed lanes committed (R52, R278, R408). -/
def State.settleTrap (s : State) (w : Weft) (a : Access) (c : Cause) (d : Nat) : State :=
  let w1 := ((w.uncountAcc a).detach a).fillDest a.dst true
  let w2 := { w1 with rctr := w1.rctr + a.rstep }
  if a.scalar then (s.dropAcc a.id).trapF w2 c a.mask (a.info c d)
  else
    let ok := a.lanesWhere LaneAcc.good
    let w3 := ((w2.writeDest a).applyOffs a ok).reportAcc a ok
    let bad := a.lanesWhere fun l => match l.cause with | some x => x.1 == c | none => false
    let rest := a.lanes.filter fun l => l.good && !l.closed
    let s1 := if rest.isEmpty then s.dropAcc a.id
      else s.setAcc { a with lanes := rest, settled := true, parked := false, replayed := true, cnt := none,
                             dst := .discard, offs := [] }
    s1.trapL w3 c bad (a.info c d)

/-- A replayable outcome parks the weft of a load (R52, R228, R282). -/
def State.parkLoad (s : State) (w : Weft) (a : Access) : State :=
  let ok := a.lanesWhere fun l => l.st == .done
  let w1 := (((w.writeDest a).applyOffs a ok).reportAcc a ok).detach a
  let w2 := { w1 with parked := some a.id, busy := w.busy }
  ((s.setWeft w2).setAcc { a with parked := true }).writeRecords a.ctx a.records

/-- The access goes on: the weft commits, but an acquire or a `swait` holds it until it is performed (R251, R419). Of a store or an atomic
with no return, lanes that faulted replayably stay behind, and the weft goes on (R52, R248). -/
def State.settleGo (s : State) (w : Weft) (a : Access) : State :=
  let s1 := s.setAcc { a with settled := true, parked := false, offs := if a.kind.reads then a.offs else [] }
  if a.acq || a.kind == .fetch then s1
  else
    let ok := a.lanesWhere LaneAcc.good
    let w1 := ((w.applyOffs a (if a.kind.reads then ok else allLanes)).reportAcc a ok).commitAcc a
    s1.setWeft { w1 with unsettled := if w.unsettled = some a.id then none else w.unsettled
                         parked := if w.parked = some a.id then none else w.parked }

/-- The event for the cause that decides, of an access whose lanes meet a non-replayable outcome after its weft has moved on (R491, R84). -/
def Access.lateEvent (a : Access) (c : Cause) (d : Nat) : WeftEvent :=
  match c with
  | .fabric => .fabric d
  | _ => .deferred c (a.lanesWhere fun l => match l.cause with | some x => x.1 == c | none => false)

/-- The entry of the replay queue that takes an access's faulted lanes (R248), and its place in the queue. -/
def Access.entry (a : Access) (id : Nat) : Access :=
  { a with id := id, lanes := a.lanes.filter LaneAcc.replaying, parked := true, replayed := true, settled := true, ord := none }

/-- A fabric lane of the access is to be sent, or is in a packet that is not answered. -/
def Access.fabOpen (a : Access) : Bool := a.lanes.any fun l => l.isSent || (l.st == .waiting && isFabric l.ea)

/-- A lane whose fault has been recorded: it makes no second record (R53). -/
def LaneAcc.recorded (l : LaneAcc) : LaneAcc := if l.fault.isSome then { l with st := .replay 0 1 } else l

/-- Replayably faulted lanes of an access leave it for an entry of the replay queue, and are recorded (R52, R53, R248). -/
def State.splitLanes (s : State) (a : Access) : State :=
  let e0 := a.entry s.nextId
  let e := { e0 with lanes := e0.lanes.map LaneAcc.recorded }
  let rest := a.lanes.filter fun l => !l.replaying
  let keep : Access → List Access := fun x => if x.id = a.id then (if rest.isEmpty then [e] else [{ x with lanes := rest }, e]) else [x]
  { s with nextId := s.nextId + 1, accs := s.accs.flatMap keep }.writeRecords a.ctx e0.records

/-- Lanes that faulted replayably move to the replay queue, once every fabric lane of the access is answered, so that each 4 KiB unit is
recorded once (R53). A store's packets are split by R490 instead. -/
def State.parkLanes (s : State) (a : Access) : State :=
  if a.parked || !a.lanes.any LaneAcc.replaying || (a.kind != .store && a.fabOpen) then s else s.splitLanes a

/-- What becomes of a settled write whose lanes have met faults since (R84, R248, R491). -/
def State.late (s : State) (id : Nat) : State :=
  match s.acc? id with
  | none => s
  | some a =>
    if !a.settled || a.kind.reads then s
    else match a.worst with
      | some (c, d) =>
        let b := { a with lanes := a.lanes.map fun l => if l.cause.isSome then { l with st := .dropped } else l }
        ((s.setAcc b).lateFault a.core a.slot c (a.lateEvent c d)).parkLanes b
      | none => s.parkLanes a

/-- A replayed store whose weft has moved on (R491): dropped lanes make an event, and the entry leaves the queue and its counter at once.
Lanes that are accepted leave the queue for the core store order; those that fault again stay in it, out of the order, and are recorded
(R248, R55). -/
def State.settleReplay (s : State) (w : Weft) (a : Access) : State :=
  let b := { a with settled := true, parked := false, ord := some s.nextId }
  let s0 := { s with nextId := s.nextId + 1 }
  match a.worst with
  | some (c, d) =>
    let rest := a.lanes.filter fun l => l.good && !l.closed
    let s1 := (s0.setWeft (w.uncountAcc a)).lateFault a.core a.slot c (a.lateEvent c d)
    if rest.isEmpty then s1.dropAcc a.id else s1.setAcc { b with lanes := rest, cnt := none }
  | none => (s0.setAcc b).parkLanes b

/-- The access enters the core store order as its fate is decided (R246). -/
def State.enterOrder (s : State) (a : Access) : State × Access :=
  if a.kind.writes && a.ord.isNone then ({ s with nextId := s.nextId + 1 }, { a with ord := some s.nextId }) else (s, a)

/-- Some channel has not answered (R52). A weft whose requests are all held has not faulted: it waits as on an empty register (R54). -/
def State.settleWait (s : State) (w : Weft) (a : Access) : State :=
  if a.lanes.all fun l => l.decided a.kind.reads || l.isHeld then (s.setAcc a).setWeft { w with waiting := some .register }
  else s.setAcc a

/-- Decide the fate of an access whose every lane is answered (R52). -/
def State.settle (s : State) (a : Access) : State :=
  match s.weft? a.core a.slot with
  | none => s.dropAcc a.id
  | some w =>
    if !a.lanes.all (LaneAcc.decided a.kind.reads) then s.settleWait w a
    else if a.replayed && !a.kind.reads then s.settleReplay w a
    else
      let halts := a.worst.isSome || a.lanes.any LaneAcc.replaying
      let e := s.enterOrder a
      let o := if halts && a.kind.reads then e.1.performLanes e.2 (fun _ => true) a.lanes else (e.1, a.lanes)
      let b := { e.2 with lanes := o.2 }
      if halts && a.kind.reads && b.lanes.any LaneAcc.isReady then o.1.setAcc b
      else
        match b.worst with
        | some (c, d) => o.1.settleTrap w b c d
        | none => if b.kind.reads && b.lanes.any LaneAcc.replaying then o.1.parkLoad w b else o.1.settleGo w b

/-- The condition of a `swait` (R419). -/
def swaitHolds (cond : Nat) (val : W64) (x : Nat) : Bool :=
  match cond with
  | 0 => decide (val.toNat ≤ x) | 1 => x == val.toNat | _ => x != val.toNat

/-- Lines of a core's instruction cache: 128 KiB (R200). -/
def codeLines : Nat := 1024

/-- Enter a line into the instruction cache of a core (R200, R236); a full one gives up the line entered first (assumption 94). -/
def State.fillLine (s : State) (core ctx va : Nat) (bs : List Byte) : State :=
  { s with icache := keepNewest (fun l => l.core == core) codeLines ((s.icache.filter fun l => !(l.core == core && l.ctx == ctx && l.va == va))
             ++ [{ core := core, ctx := ctx, va := va, bytes := bs }]) }

/-- The record of a `lnch` has been read: an invalid one answers 0; a valid one enters the die launch queue once it has
room, and its serial is the answer (R459). -/
def State.finishLaunch (s : State) (w : Weft) (a : Access) (d : Opnd) (b : Option Opnd) (early : Bool) : State :=
  let l := a.lanes.headD { lane := 0, ea := 0, data := 0, swap := 0, st := .done }
  let r := LaunchRec.ofBytes (leBytes 64 l.data)
  let uses := match b with | some o => [srcS .b o] | none => []
  let blocked := match d with | .q n => s.qFull w n.val | _ => false
  if blocked then s
  else if !s.recordOk a.ctx r then
    let o := writeS ((s.dropAcc a.id).popUses w a.mask uses) w d 0
    o.1.setWeft ((o.2.detach a).commitAcc a)
  else if s.launchFull a.ctx (dieOf a.core) then s
  else
    let own := match s.team? w.team with | some t => t.serial | none => 0
    let extra : List Dep := if b.isSome then [{ serial := own, early := early }] else []
    let n := (s.ctx a.ctx).nextSerial
    let o := writeS (((s.dropAcc a.id).popUses w a.mask uses).enterLaunch a.ctx l.ea r (some (dieOf a.core)) extra none none) w d
      (BitVec.ofNat 64 (n % 2 ^ 32))
    o.1.setWeft ((o.2.detach a).commitAcc a)

/-- Complete an access whose every lane is performed: the destination is written and full, the counter falls, an acquire
lets its weft go on (R228, R229, R251, R419). -/
def State.finish (s : State) (id : Nat) : State :=
  match s.acc? id with
  | none => s
  | some a =>
    if !a.settled || !a.lanes.all LaneAcc.closed then s
    else match s.weft? a.core a.slot with
      | none => s.dropAcc id
      | some w =>
        match a.kind with
        | .fetch =>
          let l := a.lanes.headD { lane := 0, ea := 0, data := 0, swap := 0, st := .done }
          ((s.dropAcc id).fillLine a.core a.ctx l.ea.toNat (leBytes a.size l.data)).setWeft (w.detach a)
        | .swait c v =>
          let l := a.lanes.headD { lane := 0, ea := 0, data := 0, swap := 0, st := .done }
          if swaitHolds c v l.data then
            (s.dropAcc id).setWeft ((((w.writeDest a).fillDest a.dst true).detach a).commitAcc a)
          else s.setWeft { w with waiting := some .swait }
        | .launch d b early => s.finishLaunch w a d b early
        | _ =>
          let w0 := (w.writeDest a).fillDest a.dst true
          let w1 := (if s.lastOf a then w0.lowerAcc a else w0).detach a
          let ok := a.lanesWhere LaneAcc.good
          (s.dropAcc id).setWeft (if a.acq then ((w1.applyOffs a ok).reportAcc a ok).commitAcc a else w1)

/-- The latest persist barrier of a weft that holds its SCM stores back (R422). -/
def Weft.holder (w : Weft) : Option Nat := ((w.pbars.filter fun b => decide (b.kind < 2)).getLast?).map (·.op)

/-- A lane's bytes meet a range modulo 2^64 (R424). -/
def inRange (lo len ea n : Nat) : Bool := (List.range n).any fun i => (ea + i + 2 ^ 64 - lo) % 2 ^ 64 < len

/-- The access holds a persist point back (R268, R424). -/
def Access.holdsBack (a : Access) (w : Weft) (b : PBar) : Bool :=
  a.isOf w && decide (a.op < b.op) && a.kind.writes
    && a.lanes.any fun l => !l.closed && laneScm l && (b.kind != 2 || inRange b.lo b.len l.ea.toNat a.size)

/-- A persistence instruction has reached its point (R268, R270, R424). -/
def State.reachedPoint (s : State) (w : Weft) (b : PBar) : Bool :=
  !(s.accs.any fun a => a.holdsBack w b) && (b.kind != 1 || decide (b.step ≤ s.snap.m))

/-- Take the persist points that a weft has reached: c5 falls, and the stores held back by them may go (R229, R422). -/
def State.checkPersist (s : State) (core slot : Nat) : State :=
  match s.weft? core slot with
  | none => s
  | some w =>
    let hit := w.pbars.filter fun b => s.reachedPoint w b
    if hit.isEmpty then s
    else
      let w1 := hit.foldl (fun v b => v.lower 5 b.op) { w with pbars := w.pbars.filter fun b => !s.reachedPoint w b }
      let left := fun op : Nat => ((w1.pbars.filter fun b => decide (b.kind < 2) && decide (b.op ≤ op)).getLast?).map (·.op)
      let free := fun a : Access => if a.isOf w then { a with heldBy := a.heldBy.bind left } else a
      { s.setWeft w1 with accs := s.accs.map free }

/-! ### The fabric window -/

/-- Line F[53:7] of a fabric address (R74). -/
def lineOf (ea : W64) : Nat := field ea.toNat 7 47

/-- The lane lies on a line of a peer. -/
def LaneAcc.onLine (l : LaneAcc) (peer line : Nat) : Bool := isFabric l.ea && peerOf l.ea == peer && lineOf l.ea == line

/-- Overwrite bytes of an entry (R78). -/
def combBytes (old new : List (Nat × Byte × Nat)) : List (Nat × Byte × Nat) :=
  (old.filter fun o => !new.any fun n => n.1 == o.1) ++ new

/-- Lines a core's buffer holds (R78). -/
def combCap : Nat := 64

/-- A write enters the combining buffer of its core (R78). -/
def State.combine (s : State) (core ctx peer line : Nat) (nt : Bool) (bytes : List (Nat × Byte × Nat)) (acc : Nat) :
    State :=
  let s1 := s.flushComb fun e => e.core == core && e.ctx == ctx && e.peer == peer && e.line == line && e.nt != nt
  match s1.fab.comb.find? fun e => e.core == core && e.ctx == ctx && e.peer == peer && e.line == line with
  | some e =>
    let e' := { e with bytes := combBytes e.bytes bytes, accs := if acc ∈ e.accs then e.accs else e.accs ++ [acc], age := 0 }
    { s1 with fab := { s1.fab with comb := s1.fab.comb.map fun x => if x = e then e' else x } }
  | none =>
    let mine := s1.fab.comb.filter fun e => e.core == core
    let s2 := if combCap ≤ mine.length then (match mine with | e :: _ => s1.sendComb e | [] => s1) else s1
    { s2 with fab := { s2.fab with comb := s2.fab.comb ++
        [{ core := core, ctx := ctx, peer := peer, line := line, nt := nt, bytes := bytes, accs := [acc], age := 0 }] } }

/-- The bytes of a lane's store in its line. -/
def laneBytes (a : Access) (l : LaneAcc) : List (Nat × Byte × Nat) :=
  (List.range a.size).map fun i =>
    (l.ea.toNat % 128 + i, BitVec.ofNat 8 (l.data >>> (8 * i)), a.slot)

/-- A store that its core shows its loads holds a lane's bytes: it is on its way to the peer, or was split off a combined write that the peer
has faulted (R79, R490). -/
def Access.shows (a : Access) (l : LaneAcc) : Bool := !l.closed && (!l.replaying || a.split)

/-- The byte that a store holds at an offset of a line. -/
def Access.lineByte (a : Access) (peer line off : Nat) : Option Byte :=
  a.lanes.foldl (fun (h : Option Byte) l =>
    if a.shows l && l.onLine peer line then
      match (laneBytes a l).find? fun b => b.1 == off with
      | some b => some b.2.1
      | none => h
    else h) none

/-- A byte that the core holds of a line: the newest of the stores that are in its order and not acknowledged (R79, R265, R490). -/
def State.heldByte (s : State) (core ctx peer line off : Nat) : Option Byte :=
  newestByte (fun a => a.lineByte peer line off) (s.accs.filter fun a => a.core == core && a.ctx == ctx && a.kind == .store)

/-- The core holds, or has sent and not seen acknowledged, a write of the line (R78). -/
def State.lineWritten (s : State) (core peer line : Nat) : Bool :=
  (s.fab.comb.any fun e => e.core == core && e.peer == peer && e.line == line)
    || s.fab.packets.any fun k => k.core == core && k.peer == peer && k.line == line && k.op == .write && k.use == .access

/-- A write of the core that stands before an access waits to be sent, with overlapping bytes (R246). -/
def State.olderUnsent (s : State) (a : Access) (l : LaneAcc) (atomicsOnly : Bool) : Bool :=
  s.accs.any fun b => b.core == a.core && b.ctx == a.ctx && b.id != a.id && b.before a && (!atomicsOnly || b.kind != .store)
    && b.lanes.any fun m => m.st == .waiting && isFabric m.ea && overlaps m.ea.toNat b.size l.ea.toNat a.size

/-- A fabric lane does not go out yet (R246-R249, R268): its write is held by a `pbar.*`, or stands behind an older one; its load stands
behind an older load, or behind the weft's own parked bytes. -/
def State.heldBack (s : State) (a : Access) (l : LaneAcc) : Bool :=
  a.holds l || s.olderUnsent a l (!a.kind.writes)
    || (if a.kind.writes then s.olderParked a l.ea else s.parkedBytes a l.ea) || (a.kind.reads && a.kind != .fetch && s.olderLoad a)

/-- The packet operation of a lane access (R72). -/
def AccKind.fabOp : AccKind → FabOp
  | .atomic m r => .atomic m r
  | .sigAdd => .atomic 1 false
  | .sigSet => .sigSet
  | .fetch => .fetch
  | _ => .read

/-- Set the state of lanes of an access in the machine. -/
def State.setLanes (s : State) (id : Nat) (pick : LaneAcc → Bool) (st : LaneSt) : State :=
  match s.acc? id with
  | some a => s.setAcc { a with lanes := a.lanes.map fun l => if pick l then { l with st := st } else l }
  | none => s

/-- The bytes that the core holds for a lane as it goes out, and a mask of them: what the load returns of them is at least as new (R79,
R247). -/
def State.forwarded (s : State) (a : Access) (l : LaneAcc) : LaneAcc :=
  let bs := (List.range a.size).map fun i => s.heldByte a.core a.ctx (peerOf l.ea) (lineOf l.ea) (l.ea.toNat % 128 + i)
  { l with data := ofLeBytes (bs.map fun b => b.getD 0), swap := ofLeBytes (bs.map fun b => if b.isSome then 1 else 0) }

/-- The packet of an access's lanes on one line (R72, R77). -/
def Access.packet (a : Access) (peer line : Nat) (ls : List LaneAcc) : Packet :=
  { mkPacket a.core a.ctx peer line 0 (granulesOf (ls.flatMap fun l => (List.range a.size).map (l.ea.toNat % 128 + ·))) a.kind.fabOp with
    accs := [a.id], lanes := ls.map (·.lane)
    ops := if a.kind.writes then ls.map fun l => (l.ea.toNat % 128, BitVec.ofNat 64 l.data, BitVec.ofNat 64 l.swap) else [] }

/-- Send the waiting lanes of one line of an access (R77, R78, R83, R84). -/
def State.sendLine (s : State) (id peer line : Nat) : State :=
  match s.acc? id with
  | none => s
  | some a =>
    let mine := fun l : LaneAcc => l.st == .waiting && l.onLine peer line && !s.heldBack a l
    let ls := a.lanes.filter mine
    if ls.isEmpty then s
    else match s.fabErr a.ctx peer line with
      | some d =>
        if a.kind.reads then s.setLanes id mine (.bad .fabric d)
        else (s.setLanes id mine .dropped).weftEvent a.core a.slot (.fabric d)
      | none =>
        if a.kind = .store then
          let bs := ls.foldl (fun acc l => combBytes acc (laneBytes a l)) []
          (s.combine a.core a.ctx peer line a.nt bs id).setLanes id mine .combined
        else if a.kind.writes && s.lineWritten a.core peer line then
          s.flushComb fun e => e.core == a.core && e.peer == peer && e.line == line
        else
          let sent := fun l : LaneAcc =>
            if mine l then { (if a.kind.writes then l else s.forwarded a l) with st := .sent s.nextId } else l
          (s.sendPacket (a.packet peer line ls)).setAcc { a with lanes := a.lanes.map sent }

/-- Send every waiting fabric lane of an access, by ascending peer and line (R77): those of a read as it issues, those of a write once its
fate is decided. -/
def State.sendFabric (s : State) (id : Nat) : State :=
  match s.acc? id with
  | none => s
  | some a =>
    if !a.kind.reads && !a.settled then s
    else
      let keys := distinct ((a.lanes.filter fun l => l.st == .waiting && isFabric l.ea).map fun l =>
        peerOf l.ea * 2 ^ 47 + lineOf l.ea)
      (sortBy (fun a b => decide (a ≤ b)) keys).foldl (fun t k => t.sendLine id (k / 2 ^ 47) (k % 2 ^ 47)) s

/-! ### Answers -/

/-- Settle an access if it is not settled, and complete it if it can be (R52). -/
def State.progress (s : State) (id : Nat) : State :=
  match s.acc? id with
  | none => s
  | some a =>
    let s1 := if a.settled || (a.parked && a.kind.reads) then s else s.settle a
    ((((if a.kind.reads then s1 else s1.sendFabric id).late id).finish id).checkPersist a.core a.slot)

/-- The number that stands for the fabric among the channels of an answer. -/
def fabChan : Nat := 608

/-- Bytes of a store whose lanes are performed clear the poison of the lines that they cover together (R63). -/
def State.coverLanes (s : State) (a : Access) (ls : List LaneAcc) (keys : List (Nat × Nat)) : State :=
  if a.kind != .store then s
  else s.covered ((ls.filter fun l => l.st == .done).flatMap fun l =>
    match keys.lookup l.lane with
    | some k => cellsFrom (s.physKey k) (leBytes a.size l.data)
    | none => [])

/-- Keys of the ready lanes of an access. -/
def Access.readyKeys (a : Access) : List (Nat × Nat) :=
  a.lanes.filterMap fun l => match l.st with | .ready k => some (l.lane, k) | _ => none

/-- A channel answers an access (R52): outcomes of its waiting lanes and, when `perform` is set, their performance. -/
def State.answer (s : State) (id ch : Nat) (perform : Bool) : State :=
  match s.acc? id with
  | none => s
  | some a =>
    if ch = fabChan then (s.sendFabric id).progress id
    else
      let here := fun l : LaneAcc => !isFabric l.ea && chanOf l.ea == ch
      let asks := fun l : LaneAcc => l.st == .waiting && here l
      let o := s.verdicts (fun u => !a.replayed && s.reported ch a.ctx u) a asks a.lanes
      let b := { a with lanes := o.2 }
      let s2 := ((o.1.countAccess a (a.answered asks o.2)).setAcc b).progress id
      match s2.acc? id with
      | none => s2
      | some b2 =>
        if perform && b2.settled then
          let o2 := s2.performLanes b2 here b2.lanes
          let s3 := (o2.1.setAcc { b2 with lanes := o2.2 }).coverLanes b2 o2.2 b2.readyKeys
          ((s3.late id).finish id).checkPersist a.core a.slot
        else s2

/-- Stores that stood behind a parked entry of their page are issued once it is gone (R248). -/
def State.wakeBehind (s : State) : State :=
  let ready := fun (a : Access) (l : LaneAcc) => a.parked && !a.split && l.st == .replay 0 0 && !s.olderParked a l.ea
  { s with accs := s.accs.map fun a =>
      if a.lanes.any (ready a) then
        { a with settled := false, lanes := a.lanes.map fun l => if ready a l then { l with st := .waiting } else l }
      else a }

/-- A weft no longer waits for a held request (R54). -/
def State.weftGoes (s : State) (core slot : Nat) : State :=
  match s.weft? core slot with
  | some w => s.setWeft { w with waiting := none }
  | none => s

/-- Requests held for a unit of a context walk again (R54). -/
def State.rewalk (s : State) (c : Nat) (covers : Nat → Bool) : State :=
  let ids := distinct ((s.holds.filter fun h => h.ctx == c && covers h.unit).filterMap (·.acc))
  let s1 := { s with holds := s.holds.filter fun h => !(h.ctx == c && covers h.unit) }
  ids.foldl (fun t id =>
    match t.acc? id with
    | none => t
    | some a =>
      let pick := fun l : LaneAcc => l.isHeld && covers (l.ea.toNat / 4096)
      let o := t.verdicts (fun _ => false) a pick a.lanes
      let t1 := ((o.1.countAccess a (a.answered pick o.2)).setAcc { a with lanes := o.2 }).weftGoes a.core a.slot
      t1.progress id) s1

/-! ### Issue -/

/-- Where on this package a lane of a weft goes: its address, or the address that its own-peer form stands for (R39). -/
def State.ownVa (s : State) (l : LaneAcc) : Nat :=
  (if isFabric l.ea && peerOf l.ea == s.fab.pkgid.toNat then peerVa l.ea else l.ea).toNat

/-- The step tag of a weft's stores into an armed snapshot region, in either form (R39, R178, R423). -/
def State.snapTag (s : State) (w : Weft) (a : Access) : Nat :=
  if a.kind.writes && a.lanes.any (fun l => s.snap.regions.any fun r =>
      r.ctx == w.ctx && decide (r.va ≤ s.ownVa l) && decide (s.ownVa l < r.va + r.len))
  then max w.snapStep a.step else w.snapStep

/-- Lines of lanes that still ask for them. -/
def openLines (ls : List LaneAcc) : Nat :=
  (distinct ((ls.filter fun l => !l.closed && l.cause.isNone && !l.replaying && l.st != .combined).map
    fun l => l.ea.toNat / 128)).length

/-- Lines that an access itself asks for: those of a store in the combining buffer, or in one of its packets, are the packet's. -/
def Access.ownLines (a : Access) : Nat := openLines (a.lanes.filter fun l => a.kind != .store || !l.isSent)

/-- The packet is a line request of a cluster's core, no instruction fetch, and not already counted with its access (R94). -/
def Packet.counts (k : Packet) (clus : Nat) : Bool :=
  clusOf k.core == clus && match k.use with | .access => k.op == .write | .engine _ => true | _ => false

/-- Line requests of a cluster in flight (R94): of its wefts, of its combining buffers as sent, and of its engines. -/
def State.inFlight (s : State) (clus : Nat) : Nat :=
  ((s.accs.filter fun a => clusOf a.core == clus && a.kind != .fetch).map Access.ownLines).foldl (· + ·) 0
    + (s.fab.packets.filter fun k => k.counts clus).length

/-- The base cap: values outside 256 to 4,096 act as the nearer bound (R102). -/
def Power.oreqBase (p : Power) : Nat := max 256 (min 4096 p.oreqcfg.toNat)

/-- The cap in force (R94). -/
def State.oreq (s : State) : Nat :=
  if 3 ≤ s.power.step then min s.power.oreqBase 1024 else s.power.oreqBase

/-- Requests that a group of a core is tested against: those in flight as the cycle started, and the lines of the groups of the cluster that
have issued in it (R94). -/
def State.requests (s : State) (core : Nat) : Nat := s.power.reqs.getD (clusOf core) 0

/-- The cap lets an instruction of these lanes issue (R94). -/
def State.capOpen (s : State) (core : Nat) (ls : List LaneAcc) : Bool :=
  s.requests core == 0 || s.requests core + openLines ls ≤ s.oreq

/-- The lines of a group that issues are added for the groups tested after it (R94). -/
def State.addRequests (s : State) (core n : Nat) : State :=
  { s with power := { s.power with reqs := modAt s.power.reqs (clusOf core) (· + n) } }

/-- Offset updates of a plan, lane by lane (R217-R219). -/
def planOffs (w : Weft) (g : Plan) : List (Nat × Nat × BitVec 8) :=
  ((List.range 8).map fun k =>
    let old := w.xreg k
    let new := g.xs.getD k old
    if old.off = new.off then []
    else (activeLanes g.m).map fun i => (k, i, new.off.getD i 0)).flatten

/-- Start an access: counters, empty destinations, the fabric lanes, and its fate when no channel has to answer. -/
def State.startAccess (s : State) (w : Weft) (a0 : Access) (range : Option (Nat × Nat)) : State :=
  let id := s.nextId
  let joins := a0.kind.writes && !a0.kind.reads
    && a0.lanes.any fun l => s.olderParked { a0 with id := id, op := id } l.ea
  let lanes := if joins then a0.lanes.map fun l => if l.cause.isNone then { l with st := .replay 0 0 } else l
    else a0.lanes
  let a := { a0 with
    id := id, lanes := lanes, op := id
    heldBy := if a0.kind.writes && a0.lanes.any laneScm then w.holder else none }
  let w1 := (match a.cnt with | some c => w.raise c id | none => w).fillDest a.dst false
  let w2 := { w1 with unsettled := some id, waiting := none, snapStep := s.snapTag w a
                      busy := match range with | some r => w1.busy ++ [(id, r.1, r.2)] | none => w1.busy }
  let s1 := (({ s with nextId := id + 1, accs := s.accs ++ [a] }).addRequests w.core (if a0.kind == AccKind.fetch then 0 else openLines a0.lanes)).setWeft w2
  (s1.sendFabric id).progress id

end Sys2Proof.Machine
end

