-- ==== Sys2Proof/Machine/Signature.lean ====
section
/-! DEFINITION. The two signature schemes of R28: RSASSA-PSS with SHA-384 under RSA-3072 keys (RFC 8017), and SLH-DSA-SHA2-192s
(FIPS 205). A signature counts only where both verify (R27, R28, R32). -/

namespace Sys2Proof.Machine

/-! ### RSASSA-PSS (RFC 8017) -/

/-- A power modulo `n`, with fuel for the bits of the exponent. -/
def powMod (b n : Nat) : Nat → Nat → Nat
  | 0, _ => 1 % n
  | f + 1, e =>
    if e = 0 then 1 % n
    else
      let h := powMod b n f (e / 2)
      if e % 2 = 1 then h * h % n * b % n else h * h % n

/-- Bytes of an RSA-3072 modulus and of a signature (R27, R109). -/
def rsaLen : Nat := 384

/-- Bytes of the salt: those of the digest (assumption 84). -/
def pssSalt : Nat := 48

/-- An RSA public key: 384 bytes of modulus, then the exponent (assumption 84). -/
structure RsaKey where
  n : Nat
  e : Nat
  deriving DecidableEq, Repr

/-- A key from its bytes. -/
def RsaKey.ofBytes (bs : List Byte) : RsaKey := { n := ofBeBytes (bs.take rsaLen), e := ofBeBytes (bs.drop rsaLen) }

/-- The digest that a PSS encoding binds: eight zero bytes, the message's digest and the salt. -/
def pssDigest (m salt : List Byte) : List Byte := sha384 (zeros 8 ++ sha384 m ++ salt)

/-- The encoded message of a salt (EMSA-PSS-ENCODE); 3,071 bits, so the top bit is 0. -/
def pssEncode (m salt : List Byte) : List Byte :=
  let h := pssDigest m salt
  let db := zeros (rsaLen - 2 * 48 - 2) ++ [0x01] ++ salt
  let mask := xorBytes db (sha384Fn.mgf1 h db.length)
  modAt mask 0 (· &&& 0x7F) ++ h ++ [0xBC]

/-- A signature checks under a key (RSASSA-PSS-VERIFY): the salt is read back and the message encoded again. -/
def rsaVerify (k : RsaKey) (m sig : List Byte) : Bool :=
  let s := ofBeBytes sig
  let em := beBytes rsaLen (powMod s k.n (2 * rsaLen * 8) k.e)
  let h := (em.drop (rsaLen - 49)).take 48
  let db := modAt (xorBytes (em.take (rsaLen - 49)) (sha384Fn.mgf1 h (rsaLen - 49))) 0 (· &&& 0x7F)
  sig.length == rsaLen && decide (s < k.n) && em == pssEncode m (db.drop (db.length - pssSalt))

/-- A signature with private exponent `d` and a salt (RSASSA-PSS-SIGN). -/
def rsaSign (n d : Nat) (m salt : List Byte) : List Byte :=
  beBytes rsaLen (powMod (ofBeBytes (pssEncode m salt)) n (rsaLen * 8) d)

/-! ### SLH-DSA-SHA2-192s (FIPS 205): n = 24, h = 63, d = 7, h' = 9, a = 14, k = 17, w = 16 -/

/-- Bytes of a hash value, chains of a WOTS key, layers, height of a layer, and the FORS sizes. -/
def slhN : Nat := 24
def slhLen : Nat := 51
def slhD : Nat := 7
def slhH : Nat := 9
def slhA : Nat := 14
def slhK : Nat := 17

/-- Bytes of a signature (R27). -/
def slhSigLen : Nat := 16224

/-- An address: layer, tree, type, and the last three words (key pair; chain or height; hash or index). -/
structure Adrs where
  layer : Nat
  tree : Nat
  type : Nat
  w1 : Nat
  w2 : Nat
  w3 : Nat
  deriving DecidableEq, Repr

/-- The 22 bytes of an address as SHA-2 takes it. -/
def Adrs.bytes (a : Adrs) : List Byte :=
  beBytes 1 a.layer ++ beBytes 8 a.tree ++ beBytes 1 a.type ++ beBytes 4 a.w1 ++ beBytes 4 a.w2 ++ beBytes 4 a.w3

/-- An address of a type; its words start at 0. -/
def Adrs.typed (a : Adrs) (t kp : Nat) : Adrs := { a with type := t, w1 := kp, w2 := 0, w3 := 0 }

/-- The hash of one block: F and PRF. -/
def slhF (pk : List Byte) (a : Adrs) (m : List Byte) : List Byte := (sha256 (pk ++ zeros (64 - slhN) ++ a.bytes ++ m)).take slhN

/-- The hash of longer inputs: H and T. -/
def slhT (pk : List Byte) (a : Adrs) (m : List Byte) : List Byte := (sha512 (pk ++ zeros (128 - slhN) ++ a.bytes ++ m)).take slhN

/-- A number as digits of `b` bits, most significant first, `n` of them from the top of `total` bits. -/
def digits (x total b n : Nat) : List Nat := (List.range n).map fun i => x / 2 ^ (total - b * (i + 1)) % 2 ^ b

/-- The 51 chain positions of a value: 48 digits and the three of its checksum. -/
def wotsDigits (m : List Byte) : List Nat :=
  let ds := digits (ofBeBytes m) (8 * slhN) 4 48
  let sum := (ds.map fun d => 15 - d).foldl (· + ·) 0
  ds ++ digits (sum * 16) 16 4 3

/-- A chain: `n` steps from position `i`. -/
def wotsChain (pk : List Byte) (a : Adrs) : Nat → Nat → List Byte → List Byte
  | 0, _, x => x
  | n + 1, i, x => wotsChain pk a n (i + 1) (slhF pk { a with w3 := i } x)

/-- The chains of a WOTS key with where each starts and how far it goes. -/
def wotsRun (pk : List Byte) (a : Adrs) (parts : List (List Byte)) (from_ steps : List Nat) : List (List Byte) :=
  (List.range slhLen).map fun i => wotsChain pk { a with w2 := i } (steps.getD i 0) (from_.getD i 0) (parts.getD i [])

/-- The compressed public key of a WOTS key. -/
def wotsCompress (pk : List Byte) (a : Adrs) (ends : List (List Byte)) : List Byte := slhT pk (a.typed 1 a.w1) ends.flatten

/-- The public key that a WOTS signature of a value gives. -/
def wotsPkFromSig (pk : List Byte) (a : Adrs) (m sig : List Byte) : List Byte :=
  let ds := wotsDigits m
  wotsCompress pk a (wotsRun pk a (chunks slhN slhLen sig) ds (ds.map fun d => 15 - d))

/-- The root over an authentication path from leaf `idx`: heights from `h` up, the index counted over the whole forest from `base`. -/
def slhClimb (pk : List Byte) (a : Adrs) : Nat → Nat → List (List Byte) → List Byte → List Byte
  | _, _, [], x => x
  | h, idx, y :: r, x =>
    let b := { a with w2 := h + 1, w3 := idx / 2 }
    slhClimb pk a (h + 1) (idx / 2) r (slhT pk b (if idx % 2 = 0 then x ++ y else y ++ x))

/-- The root that an XMSS signature gives: a WOTS signature and nine path nodes. -/
def xmssPkFromSig (pk : List Byte) (a : Adrs) (idx : Nat) (m sig : List Byte) : List Byte :=
  let leaf := wotsPkFromSig pk (a.typed 0 idx) m (sig.take (slhLen * slhN))
  slhClimb pk (a.typed 2 0) 0 idx (chunks slhN slhH (sig.drop (slhLen * slhN))) leaf

/-- Bytes of an XMSS signature. -/
def xmssSigLen : Nat := (slhLen + slhH) * slhN

/-- The root that the layers from `layer` up give. -/
def htRoot (pk : List Byte) : Nat → Nat → Nat → Nat → List Byte → List Byte → List Byte
  | 0, _, _, _, _, x => x
  | n + 1, layer, tree, leaf, sig, x =>
    let r := xmssPkFromSig pk { layer := layer, tree := tree, type := 0, w1 := 0, w2 := 0, w3 := 0 } leaf x (sig.take xmssSigLen)
    htRoot pk n (layer + 1) (tree / 2 ^ slhH) (tree % 2 ^ slhH) (sig.drop xmssSigLen) r

/-- The address of the FORS forest that a message selects. -/
def forsAdrs (tree leaf : Nat) : Adrs := { layer := 0, tree := tree, type := 3, w1 := leaf, w2 := 0, w3 := 0 }

/-- The FORS public key that a signature gives. -/
def forsPkFromSig (pk : List Byte) (a : Adrs) (idx : List Nat) (sig : List Byte) : List Byte :=
  let one := slhN * (1 + slhA)
  let roots := (List.range slhK).map fun i =>
    let s := (sig.drop (i * one)).take one
    let x := i * 2 ^ slhA + idx.getD i 0
    slhClimb pk a 0 x (chunks slhN slhA (s.drop slhN)) (slhF pk { a with w2 := 0, w3 := x } (s.take slhN))
  slhT pk (a.typed 4 a.w1) roots.flatten

/-- The pure message: no context string. -/
def slhPure (m : List Byte) : List Byte := [0, 0] ++ m

/-- What a message selects: the FORS indices, the tree, the leaf. -/
def slhSelect (r pkSeed root m : List Byte) : List Nat × Nat × Nat :=
  let d := sha512Fn.mgf1 (r ++ pkSeed ++ sha512 (r ++ pkSeed ++ root ++ m)) 39
  (digits (ofBeBytes (d.take 30)) 240 slhA slhK, ofBeBytes ((d.drop 30).take 7) % 2 ^ 54, ofBeBytes (d.drop 37) % 2 ^ 9)

/-- Bytes of a FORS signature. -/
def forsSigLen : Nat := slhK * (1 + slhA) * slhN

/-- A signature verifies under a 48-byte public key (slh_verify). -/
def slhVerify (key m sig : List Byte) : Bool :=
  let pk := key.take slhN
  let root := key.drop slhN
  let r := sig.take slhN
  let (idx, tree, leaf) := slhSelect r pk root (slhPure m)
  let fors := forsPkFromSig pk (forsAdrs tree leaf) idx ((sig.drop slhN).take forsSigLen)
  key.length == 48 && sig.length == slhSigLen
    && htRoot pk slhD 0 tree leaf (sig.drop (slhN + forsSigLen)) fors == root

/-! ### SLH-DSA keys and signing -/

/-- A private key: SK.seed, SK.prf, PK.seed; the root follows. -/
structure SlhKey where
  skSeed : List Byte
  skPrf : List Byte
  pkSeed : List Byte
  deriving DecidableEq, Repr

/-- The chain starts of a WOTS key. -/
def wotsSecrets (k : SlhKey) (a : Adrs) : List (List Byte) :=
  (List.range slhLen).map fun i => slhF k.pkSeed { a.typed 5 a.w1 with w2 := i } k.skSeed

/-- A node of an XMSS tree: height, index. -/
def xmssNode (k : SlhKey) (a : Adrs) : Nat → Nat → List Byte
  | 0, i =>
    let b := a.typed 0 i
    wotsCompress k.pkSeed b (wotsRun k.pkSeed b (wotsSecrets k b) [] (List.replicate slhLen 15))
  | h + 1, i => slhT k.pkSeed { a.typed 2 0 with w2 := h + 1, w3 := i } (xmssNode k a h (2 * i) ++ xmssNode k a h (2 * i + 1))

/-- A node of a FORS tree: height, index. -/
def forsNode (k : SlhKey) (a : Adrs) : Nat → Nat → List Byte
  | 0, i => slhF k.pkSeed { a with w2 := 0, w3 := i } (slhF k.pkSeed { a.typed 6 a.w1 with w3 := i } k.skSeed)
  | h + 1, i => slhT k.pkSeed { a with w2 := h + 1, w3 := i } (forsNode k a h (2 * i) ++ forsNode k a h (2 * i + 1))

/-- The sibling of the node above leaf `i` at height `h`. -/
def sibling (i h : Nat) : Nat := let x := i / 2 ^ h; if x % 2 = 0 then x + 1 else x - 1

/-- The top tree's root. -/
def SlhKey.root (k : SlhKey) : List Byte :=
  xmssNode k { layer := slhD - 1, tree := 0, type := 0, w1 := 0, w2 := 0, w3 := 0 } slhH 0

/-- The 48-byte public key. -/
def SlhKey.pub (k : SlhKey) : List Byte := k.pkSeed ++ k.root

/-- An XMSS signature. -/
def xmssSign (k : SlhKey) (a : Adrs) (idx : Nat) (m : List Byte) : List Byte :=
  let b := a.typed 0 idx
  (wotsRun k.pkSeed b (wotsSecrets k b) [] (wotsDigits m)).flatten
    ++ (List.range slhH).flatMap fun h => xmssNode k a h (sibling idx h)

/-- The signatures of the layers. -/
def htSign (k : SlhKey) : Nat → Nat → Nat → Nat → List Byte → List Byte
  | 0, _, _, _, _ => []
  | n + 1, layer, tree, leaf, x =>
    let a : Adrs := { layer := layer, tree := tree, type := 0, w1 := 0, w2 := 0, w3 := 0 }
    let s := xmssSign k a leaf x
    s ++ htSign k n (layer + 1) (tree / 2 ^ slhH) (tree % 2 ^ slhH) (xmssPkFromSig k.pkSeed a leaf x s)

/-- A FORS signature. -/
def forsSign (k : SlhKey) (a : Adrs) (idx : List Nat) : List Byte :=
  (List.range slhK).flatMap fun i =>
    let x := i * 2 ^ slhA + idx.getD i 0
    slhF k.pkSeed { a.typed 6 a.w1 with w3 := x } k.skSeed ++ (List.range slhA).flatMap fun h => forsNode k a h (sibling x h)

/-- A signature with randomiser `rnd` (slh_sign). -/
def slhSign (k : SlhKey) (m rnd : List Byte) : List Byte :=
  let r := (sha512Fn.hmac k.skPrf (rnd ++ slhPure m)).take slhN
  let (idx, tree, leaf) := slhSelect r k.pkSeed k.root (slhPure m)
  let f := forsSign k (forsAdrs tree leaf) idx
  r ++ f ++ htSign k slhD 0 tree leaf (forsPkFromSig k.pkSeed (forsAdrs tree leaf) idx f)

end Sys2Proof.Machine
end

