-- ==== Sys2Proof/Machine/Boot.lean ====
section
/-! DEFINITION. Boot, the birth record, identity and firmware (R22, R24, R27-R36), the loss of VAUX (R105), and the host
link's own reset (R34). -/

namespace Sys2Proof.Machine

/-- Boot stops in FAIL with a cause; ALERTST.FAIL is set (R36, R125). -/
def State.bootFail (s : State) (cause : Nat) : State :=
  ({ s with boot := { s.boot with st := .fail, cause := BitVec.ofNat 8 cause } }).alert 0

/-- Boot moves on to a state. -/
def State.bootTo (s : State) (b : BootSt) : State := { s with boot := { s.boot with st := b } }

/-- Boot is in a state, and no power failure has stopped it (R24). -/
def State.booting (s : State) (b : BootSt) : Bool := s.boot.st == b && s.power.pf == .idle

/-- The machine runs: READY, and no power-fail sequence (R33, R103). -/
def State.up (s : State) : Bool := s.booting .ready

/-! ### What survives -/

/-- The cells that outlive a power cycle: SCM and host memory (R59, R171). -/
def keptCells (m : Memory) : Memory := m.filter fun c => keyIsScm c.1 || 2 ^ 65 ≤ c.1

/-- What the hampers hold outlives the loss of VAUX, except writes accepted since SCM was mounted that the power-fail sequence
had not come to drain (R36, R105, R106, assumption 10). -/
def State.keptHamp (s : State) : List HampEntry := if s.boot.mounted && s.power.pf != .halted then [] else s.hamp

/-- The package with VAUX gone (R105): stacks, reserved SCM and host memory stay, and so does the level that the board drives on
PERST_N (assumption 87); every register is lost. -/
def State.unpowered (s : State) : State :=
  let r := State.reset
  { r with
    boot := { r.boot with st := .off, bootctr := s.boot.bootctr, bootMac := s.boot.bootMac, slotA := s.boot.slotA
                          slotB := s.boot.slotB }
    power := { r.power with l2 := s.power.l2 }
    host := { r.host with out := s.host.out, perst := s.host.perst, holes := s.host.holes }
    mem := keptCells s.mem
    pois := s.pois.filter keyIsScm
    hamp := s.keptHamp
    rsv := s.rsv
    scrub := s.scrub
    snap := { s.snap with awaits := [], mender := none, encoded := [], missed := [], beat := 0, lines := []
                          group := if s.snap.st = 1 then none else s.snap.group
                          st := if s.snap.st = 4 ∨ s.snap.st = 5 then 3 else if s.snap.st = 1 then 0 else s.snap.st }
    nextId := s.nextId
    draws := s.draws
    agenda := s.agenda }

/-- VAUX_LOSS (R105). -/
def execVauxLoss (s : State) : Res := .next s.unpowered

/-- BOOT_START (R22, R33): VAUX has returned and every rail is in range; boot enters ROM. -/
def execBootStart (s : State) : Res := .next (if s.boot.st = .off then s.bootTo .rom else s)

/-! ### The steps of boot (R33) -/

/-- Bytes of IOD SRAM that make the PUF (R30). -/
def pufLen : Nat := 8192

/-- BOOT_ROM: the PUF SRAM is read before it is initialised (R30). -/
def execBootRom (s : State) : Res :=
  .next (if s.booting .rom then
    { s with boot := { s.boot with st := .brchk, puf := padTo pufLen (Config.pufSram s.draws) }, draws := s.draws + 1 }
  else s)

/-- Bytes of a birth record copy that the boot ROM reads (R27). -/
def birthLen : Nat := 20704

/-- The birth record copy of a stack (R27, R489). -/
def State.birthCopy (s : State) (stack : Nat) : List Byte := s.bytes (scmKey (16 * stack) 0) birthLen

/-- A number in a birth record. -/
def recNum (r : List Byte) (off n : Nat) : Nat := ofLeBytes ((r.drop off).take n)

/-- The part number of a DMN-GW5 (R1, R27). -/
def partNumber : Nat := 0x605

/-- SCMRSV (R489). -/
def recScmrsv (r : List Byte) : Nat := recNum r 0x3C 2

/-- Both signatures over a message verify, each under the key shipped with it, which must hash to the ROM's value (R28). -/
def bothVerify (keyRsa keySlh m sigRsa sigSlh : List Byte) : Bool :=
  sha384 keyRsa == Config.romRsaHash && sha384 keySlh == Config.romSlhHash && rsaVerify (RsaKey.ofBytes keyRsa) m sigRsa
    && slhVerify keySlh m sigSlh

/-- The signed part of a birth record: 0x0000 to 0x0FFF (R27). -/
def recSigned (r : List Byte) : List Byte := r.take 0x1000

/-- A birth record copy verifies: SIGRSA at 0x1000, SIGSLH at 0x1180 (R27, R28). -/
def recordVerifies (r : List Byte) : Bool :=
  bothVerify (Config.shippedRsaKey r) (Config.shippedSlhKey r) (recSigned r) ((r.drop 0x1000).take rsaLen) ((r.drop 0x1180).take slhSigLen)

/-- The contents of a verified record stop boot (R29, R489). The manual names no check of MAGIC and FMT, so a verified record
with others is taken (assumption 86). -/
def recBad (r : List Byte) : Bool :=
  recNum r 0x0C 4 != partNumber
    || (List.range 4).any (fun d => decide (14 ≤ field (recNum r 0x20 4) (4 * d) 4))
    || field (recNum r 0x20 4) 16 16 != 0
    || ((r.drop 0x470).take 2960).any (· != 0)
    || recScmrsv r == 0 || decide (32768 ≤ recScmrsv r)

/-- BRCHK (R27-R29, R489): the first copy whose signatures verify is used. -/
def execBrchk (s : State) : Res :=
  .next (if s.booting .brchk then
    match (List.range 6).find? fun k => recordVerifies (s.birthCopy k) with
    | none => s.bootFail 2
    | some k =>
      let r := s.birthCopy k
      let s1 := { s with boot := { s.boot with brcopy := BitVec.ofNat 3 k } }
      if recBad r then s1.bootFail 3
      else
        { s1 with boot := { s1.boot with
            st := .ident, scmrsv := BitVec.ofNat 16 (recScmrsv r), record := r
            harvest := BitVec.ofNat 32 (recNum r 0x20 4), serial := (r.drop 0x10).take 16
            fwfloor := BitVec.ofNat 32 (recNum r 0x24 4) } }
  else s)

/-! ### Identity (R30) -/

/-- The device secret (R30): 256 bits. -/
def deviceSecret (puf help : List Byte) : List Byte := padTo 32 (Config.fuzzyExtract puf help)

/-- The RSA-3072 identity key: modulus, public and private exponent, from its seed (R30, assumption 84). -/
def idRsa (secret : List Byte) : Nat × Nat × Nat := Config.rsaKeygen (hkdf secret (labelBytes "gw5-id-rsa") 48)

/-- The SLH-DSA identity key from its three seeds (R30). -/
def idSlh (secret : List Byte) : SlhKey :=
  let s := hkdf secret (labelBytes "gw5-id-slh") 72
  { skSeed := s.take 24, skPrf := (s.drop 24).take 24, pkSeed := s.drop 48 }

/-- The two identity public keys as bytes: modulus, exponent, SLH-DSA key (assumption 84). -/
def idKeys (secret : List Byte) : List Byte :=
  beBytes rsaLen (idRsa secret).1 ++ beBytes 4 (idRsa secret).2.1 ++ (idSlh secret).pub

/-- PUFHELP and IDHASH of a birth record (R27). -/
def recHelp (r : List Byte) : List Byte := (r.drop 0x40).take 1024
def recIdHash (r : List Byte) : List Byte := (r.drop 0x440).take 48

/-- IDENT (R30): the secret is derived, and the keys that it gives must hash to IDHASH. -/
def execIdent (s : State) : Res :=
  .next (if s.booting .ident then
    let x := deviceSecret s.boot.puf (recHelp s.boot.record)
    if sha384 (idKeys x) = recIdHash s.boot.record then { s with boot := { s.boot with st := .fwload, secret := x } }
    else s.bootFail 4
  else s)

/-! ### Firmware (R32) -/

/-- FWFLOOR in force: the larger of the record's floor and the boot counter (R32). -/
def Boot.floor (b : Boot) : Nat := max b.fwfloor.toNat b.bootctr.toNat

/-- Version of a firmware slot, as its header names it. -/
def FwSlot.version (f : FwSlot) : BitVec 16 := Config.fwVersion f.header

/-- What a firmware slot's signatures cover: the header and the image (R32). -/
def FwSlot.signed (f : FwSlot) : List Byte := f.header ++ f.image

/-- Both signatures of a firmware slot verify (R28, R32). -/
def FwSlot.verifies (f : FwSlot) : Bool :=
  bothVerify (Config.shippedRsaKey f.signed) (Config.shippedSlhKey f.signed) f.signed f.sigRsa f.sigSlh

/-- A firmware slot verifies and is at or above the floor (R32). -/
def Boot.slotOk (b : Boot) (f : FwSlot) : Bool := f.verifies && decide (b.floor ≤ f.version.toNat)

/-- The boot counter still carries its MAC, or has never been written (R32, assumption 85). -/
def Boot.counterOk (b : Boot) : Bool :=
  match b.bootMac with
  | some m => m == Config.counterMac b.secret b.bootctr
  | none => true

/-- The slot to boot: false A, true B; the higher version, A on a tie (R32). -/
def Boot.chosen (b : Boot) : Option (Bool × FwSlot) :=
  let a := b.slotA.filter b.slotOk
  let c := b.slotB.filter b.slotOk
  match a, c with
  | some x, some y => if x.version.toNat < y.version.toNat then some (true, y) else some (false, x)
  | some x, none => some (false, x)
  | none, some y => some (true, y)
  | none, none => none

/-- The firmware image that runs, with its header (R31). -/
def Boot.image (b : Boot) : List Byte :=
  match (if b.fwslot then b.slotB else b.slotA) with
  | some f => f.signed
  | none => []

/-- FWLOAD (R32): the boot counter rises to the booted version, under a new MAC. -/
def execFwload (s : State) : Res :=
  .next (if s.booting .fwload then
    match s.boot.chosen with
    | none => s.bootFail 5
    | some (b, f) =>
      if s.boot.counterOk then
        { s with boot := { s.boot with st := .dies, fwslot := b, fwver := f.version, bootctr := f.version
                                       bootMac := some (Config.counterMac s.boot.secret f.version) } }
      else s.bootFail 5
  else s)

/-! ### Dies and logical numbers (R18-R20) -/

/-- The physical cluster of a die that the birth record names as harvested (R18, R27). -/
def Boot.harvested (b : Boot) (d : Nat) : Nat := field b.harvest.toNat (4 * d) 4

/-- The enabled physical clusters: die and cluster (R18). -/
def Boot.enabled (b : Boot) : List (Nat × Nat) :=
  (List.range 4).flatMap fun d => ((List.range 14).filter fun p => p != b.harvested d).map fun p => (d, p)

/-- The physical cluster of a logical one: its die, and its number with the harvested cluster skipped (R19). -/
def Boot.physClus (b : Boot) (l : Nat) : Nat × Nat :=
  let j := l % 13
  (l / 13, if j < b.harvested (l / 13) then j else j + 1)

/-- The physical place of a logical core: die, cluster, core (R19). -/
def Boot.physCore (b : Boot) (core : Nat) : Nat × Nat × Nat := ((b.physClus (core / 4)).1, (b.physClus (core / 4)).2, core % 4)

/-- The physical place of a logical core as a log line gives it (R5). -/
def Boot.placeOf (b : Boot) (core : Nat) : List Nat := [(b.physCore core).1, (b.physCore core).2.1, (b.physCore core).2.2]

/-- The physical place of a channel as a log line gives it: 0 HBM or 1 SCM, the stack, the channel in it (R5, R40, R41). -/
def chanPlace (chan : Nat) : List Nat :=
  if chan < 512 then [0, chan / 64, chan % 64] else [1, (chan - 512) / 16, (chan - 512) % 16]

/-- DIES (R19, R20, R33): links, self-test of the enabled clusters; the die counters start (R235). -/
def execDies (s : State) : Res :=
  .next (if s.booting .dies then
    let s1 := { s with draws := s.draws + 1 }
    if !Config.dieLinksTrain s.draws then s1.bootFail 6
    else if !s.boot.enabled.all (fun c => Config.clusterPasses s.draws c.1 c.2) then s1.bootFail 7
    else { s1.bootTo .meminit with clocks := List.replicate 4 0 }
  else s)

/-- Every hamper entry goes to its stack, in acceptance order (R172). -/
def State.drainHampers (s : State) : State := { s.hamp.foldl State.settleEntry s with hamp := [] }

/-- A member whose last committed step is not mend-persistent encodes it again (R199). -/
def State.restartEncode (s : State) : State :=
  match s.snap.group with
  | some g => if !g.spare && decide (s.snap.m < s.snap.c) then s.post .encodeStep else s
  | none => s

/-- MEMINIT (R33, R36, R59, R199): HBM trained, its keys drawn; SCM mounted, the hampers recovered, and the counters, maps and
coordinator words read back from reserved SCM. -/
def execMeminit (s : State) : Res :=
  .next (if s.booting .meminit && !s.boot.mounted then
    let s1 := { s with draws := s.draws + 3 }
    if !Config.hbmTrains s.draws then s1.bootFail 8
    else if !Config.scmMounts s.draws then s1.bootFail 9
    else
      let s2 := s1.drainHampers
      let s3 := { s2 with
        mem := s2.mem.filter (fun c => !keyIsHbm c.1)
        boot := { s2.boot with mounted := true, xtsData := padTo 32 (Config.random (s.draws + 1) 32)
                               xtsTweak := padTo 32 (Config.random (s.draws + 2) 32) } }
      s3.recover.restartEncode
  else s)

/-- The transition to READY (R25, R33): the latched PSTEP takes effect. -/
def State.toReady (s : State) : State :=
  ({ s with
      boot := { s.boot with st := .ready, readyPending := false }
      power := { s.power with psel := s.power.pselLatched } }).alert 1

/-- READY (R33, R34): a transition while PERST_N is asserted waits for its release. -/
def execReady (s : State) : Res :=
  .next (if s.booting .meminit && s.boot.mounted then
    if s.host.perst then { s with boot := { s.boot with readyPending := true } } else s.toReady
  else s)

/-- The next step of boot. -/
def Boot.nextStep (b : Boot) : Option Instr :=
  match b.st with
  | .rom => some .bootRom
  | .brchk => some .brchk
  | .ident => some .ident
  | .fwload => some .fwload
  | .dies => some .dies
  | .meminit => if !b.mounted then some .meminit else if b.readyPending then none else some .ready
  | _ => none

/-! ### The host link at boot (R34, R107) -/

/-- PCIE_LINK_TRAINING (R34, R107): in any boot state from ROM on, while PERST_N is released. -/
def execPcieLinkTraining (width rate : Nat) (cxl : Bool) (s : State) : Res :=
  .next (if s.boot.st ≠ .off ∧ !s.host.perst ∧ (width = 4 ∨ width = 8 ∨ width = 16) ∧ 1 ≤ rate ∧ rate ≤ 3 then
    { s with host := { s.host with width := BitVec.ofNat 5 width, rate := BitVec.ofNat 2 rate, cxl := cxl } }
  else s)

/-- CONFIG_REQUEST (R1, R34): answered once the link has trained; BAR0 may be assigned. -/
def execConfigRequest (bar0 : Option (BitVec 64)) (s : State) : Res :=
  .next (if s.boot.st ≠ .off ∧ s.host.width ≠ 0 then
    let s1 := match bar0 with
      | some a => { s with host := { s.host with bar0 := BitVec.ofNat 64 (a.toNat / 2 ^ 24 * 2 ^ 24) } }
      | none => s
    s1.emit (.config partNumber)
  else s)

/-- PERST (R34): only the host link is reset. The manual does not list its registers; the model clears WIDTH, RATE, CXL and
BAR0 and keeps the mailbox and the rest of the window (assumption 87). -/
def execPerst (s : State) : Res :=
  .next { s with host := { s.host with perst := true, width := 0, rate := 0, cxl := false, bar0 := 0 } }

/-- PERST_RELEASE (R34): a READY that waited completes. -/
def execPerstRelease (s : State) : Res :=
  let s1 := { s with host := { s.host with perst := false } }
  .next (if s.booting .meminit && s.boot.readyPending then s1.toReady else s1)

end Sys2Proof.Machine
end

