-- ==== Sys2Proof/Machine/Channel.lean ====
section
/-! DEFINITION. The memory channels' own steps: answers (R52), write-back of the hampers (R172), the patrol scrubber (R62, R63),
refresh and alert back-off (R64); and the ends of a weft's sleep and of the pause between two reads of a `swait` (R329,
R419). -/

namespace Sys2Proof.Machine

/-- ACCESS_ANSWER (R52). -/
def execAccessAnswer (id ch : Nat) (perform : Bool) (s : State) : Res := .next (if s.up then s.answer id ch perform else s)

/-- A waiting `swait` reads its word again (R419): its lane asks again. -/
def Access.again (a : Access) : Access :=
  { a with settled := false, lanes := a.lanes.map fun l => { l with st := .waiting } }

/-- SWAIT_POLL (R419). -/
def execSwaitPoll (core slot : Nat) (s : State) : Res :=
  .next (match s.weft? core slot with
  | none => s
  | some w =>
    match w.unsettled.bind s.acc? with
    | some a =>
      if s.up && w.waiting == some .swait && a.settled then (s.setAcc a.again).setWeft { w with waiting := none } else s
    | none => s)

/-- SLEEP_EXPIRY (R329). -/
def execSleepExpiry (core slot : Nat) (s : State) : Res :=
  .next (match s.weft? core slot with
  | some w => s.setWeft { w with sleep := 0 }
  | none => s)

/-! ### Hampers (R172) -/

/-- HAMPER_WRITEBACK (R172): the oldest entry is written to its stack. -/
def execHamperWriteback (stack : Nat) (s : State) : Res :=
  .next (if s.boot.st != .ready || s.power.pf == .halted then s else s.writeBack stack)

/-! ### Patrol scrub (R62, R63) -/

/-- Lines of an SCM channel. -/
def scmLines : Nat := 2 ^ 28

/-- A group as the scrubber leaves it at a good line of it: one that is on an older version than `v`, or was moved early, is encrypted
again with its counters reset; the other lines of a group that has moved are on `v` already (R62, assumption 88). -/
def CtrBlock.rekey (b : CtrBlock) (v : Nat) : CtrBlock :=
  if b.early || decide (b.keyver < v) then
    { b with major := 0, minors := List.replicate 32 0, keyver := max b.keyver v, early := false }
  else b

/-- The counter block of a group that the scrubber has encrypted again (R62); a group that nothing has written or moved has none, and follows
the boundary. -/
def Counters.rekeyed (cs : Counters) (sc : List Scrub) (chan group v : Nat) : Option CtrBlock :=
  let b := cs.block sc chan group
  if b.early || cs.blocks.any (fun x => x.chan == chan && x.group == group) then some (b.rekey v) else none

/-- The scrubber after its line (R62): it goes round; while keys rotate the boundary of the region moves, and at the end of a pass VCUR
advances and the key of the old version is erased. -/
def Scrub.advance (x : Scrub) : Scrub :=
  let off := 128 * (x.pos + 1)
  let y : Scrub := { x with pos := if x.pos + 1 < scmLines then x.pos + 1 else 0 }
  if x.stopped then y
  else
    let z : Scrub := { y with boundary := setAt x.boundary (128 * x.pos / 2 ^ 30) off }
    if x.pos + 1 < scmLines then z
    else
      let v := x.vcur.map (· + 1)
      { z with vcur := v, boundary := x.boundary.map fun _ => 0, stopped := v.any fun n => decide (0xFFFF ≤ n), oldest := x.oldest + 1 }

/-- PATROL_SCRUB (R62, R63): the line is checked, a poisoned one logged and left as it is; the others are encrypted again unless
rotation has stopped. The region table and the group's counters enter the hamper together (R172, assumption 88). -/
def execPatrolScrub (chan : Nat) (s : State) : Res :=
  let x := s.scrub.getD chan (Scrub.init chan)
  .next (if !s.up || s.power.t2off || decide (96 ≤ chan) then s
  else
    let k := scmKey chan (128 * x.pos)
    let bad := s.poisoned k 128
    let v := x.vcur.getD (128 * x.pos / 2 ^ 30) 0 + 1
    let y := x.advance
    let b := if bad || x.stopped then none else s.ctrs.rekeyed s.scrub chan (x.pos / 32) v
    let s0 := { s with scrub := setAt s.scrub chan y, ctrs := match b with | some b => s.ctrs.setBlock b | none => s.ctrs }
    let s1 := if x.stopped then s0 else s0.addMeta (chan / 16) (.scrub y b)
    let s2 := if bad then s1.emit (.log "patrol: poisoned line" (chanPlace (512 + chan) ++ [x.pos])) else s1
    if y.stopped && !x.stopped then s2.emit (.log "patrol: key rotation stopped" (chanPlace (512 + chan))) else s2)

/-! ### Refresh (R64) -/

/-- Refreshes a bank owes. -/
def State.owed (s : State) (chan bank : Nat) : Nat :=
  match s.banks.find? fun b => b.chan == chan && b.bank == bank with
  | some b => b.owed
  | none => 0

/-- Set what a bank owes. -/
def State.setOwed (s : State) (chan bank n : Nat) : State :=
  let rest := s.banks.filter fun b => !(b.chan == chan && b.bank == bank)
  { s with banks := if n = 0 then rest else rest ++ [{ chan := chan, bank := bank, owed := n }] }

/-- HBM_REFRESH (R64): a busy bank postpones at most eight; an idle one makes up what it owes. -/
def execHbmRefresh (chan bank : Nat) (busy : Bool) (s : State) : Res :=
  .next (if busy then s.setOwed chan bank (min 8 (s.owed chan bank + 1)) else s.setOwed chan bank 0)

/-- ALERT_BACKOFF (R64): with eight owed they are issued before the mitigation refresh; with fewer it goes first, and
postponement continues. -/
def execAlertBackoff (chan bank : Nat) (s : State) : Res :=
  .next ((if s.owed chan bank = 8 then s.setOwed chan bank 0 else s).emit (.log "alert back-off" (chanPlace chan ++ [bank])))

end Sys2Proof.Machine
end

