-- ==== Sys2Proof/Machine/Memory.lean ====
section
/-! DEFINITION. Loads and stores (R403-R411): addresses, the checks known at issue, scratchpad accesses (R238-R240), and
the instructions LD, ST, LDS and STS. -/

namespace Sys2Proof.Machine

/-! ### Addresses -/

/-- Displacement of an XL prefix (R307): 18 bits, signed; 0 without one. -/
def xlDisp (p : Pfx) : W64 :=
  match p.xl with
  | some l => (l.extractLsb' 8 18).signExtend 64
  | none => 0

/-- Granule mask of an XL prefix (R43, R307); 0 without one. -/
def xlGm (p : Pfx) : BitVec 8 :=
  match p.xl with
  | some l => l.extractLsb' 0 8
  | none => 0

/-- The base operand (R407): a pair in the memory windows, one register in the scratchpads. -/
def baseUse (a : Opnd) (spad : Bool) : Use :=
  match a with
  | .v _ => srcV .a a (if spad then 1 else 2)
  | .x _ => srcV .a a (if spad then 1 else 2)
  | _ => srcS .a a

/-- Address of a lane (R407). -/
def laneEa (base : List VVal) (idx : VVal) (scale : Nat) (disp : W64) (i : Nat) : W64 :=
  join64 ((base.headD (.u 0)).lane i) ((base.getD 1 (.u 0)).lane i)
    + (idx.lane i).signExtend 64 * BitVec.ofNat 64 scale + disp

/-- The access touches a granule outside the mask (R43). -/
def gmBad (gm : BitVec 8) (ea : W64) (size : Nat) : Bool :=
  gm != 0 && (List.range size).any fun k => !gm.getLsbD ((ea.toNat + k) % 128 / 16)

/-- Data of a lane from its registers, cut to the size (R411). -/
def laneData (vals : List VVal) (size i : Nat) : Nat :=
  (vals.foldr (fun v acc => (v.lane i).toNat + 2 ^ 32 * acc) 0) % 2 ^ (8 * size)

/-- A lane as it is known at issue: BOUND, ALIGN, or waiting for its channel (R408, R280). -/
def mkLane (bad : W64) (gm : BitVec 8) (size : Nat) (ea : W64) (data swap i : Nat) : LaneAcc :=
  { lane := i, ea := ea, data := data, swap := swap
    st := if inMask bad i then .bad .bound 0
      else if ea.toNat % size != 0 || gmBad gm ea size then .bad .align 0
      else .waiting }

/-- Lanes that an access makes: every active lane, or the lowest one of a scalar access (R407). -/
def accLanes (m : W64) (scalar : Bool) : List Nat := if scalar then (activeLanes m).take 1 else activeLanes m

/-! ### Scratchpads -/

/-- Physical key of `n` bytes at a unified scratchpad address of a team (R134, R238, R239). -/
def Team.spadKey (t : Team) (ea n : Nat) : Option Nat :=
  let off := ea % 2 ^ 30
  match ea / 2 ^ 30 with
  | 0 => if off + n ≤ t.csize then some (coreKey t.core (t.cbase + off)) else none
  | 1 => if off + n ≤ t.lsize then some (clusKey (clusOf t.core) (t.lbase + off)) else none
  | 2 => if off + n ≤ t.dsize then some (dieKey (dieOf t.core) (t.dbase + off)) else none
  | _ => none

/-- The outcome of a lane in a scratchpad (R239, R286). -/
def State.spadLane (s : State) (w : Weft) (a : Access) (l : LaneAcc) : LaneAcc :=
  if l.st != .waiting then l
  else match (s.team? w.team).bind fun t => t.spadKey l.ea.toNat a.size with
    | none => { l with st := .bad .spaddr 0 }
    | some k =>
      if (a.kind.reads || a.kind.isAtomic) && s.poisoned k a.size then { l with st := .bad .softerr 0 }
      else { l with st := .ready k }

/-- Perform every ready lane at its bank, in ascending order (R262). -/
def State.performSpad (s : State) (a : Access) : List LaneAcc → State × List LaneAcc
  | [] => (s, [])
  | l :: r =>
    match l.st with
    | .ready k =>
      let o := s.performLane a l k
      let t := o.1.performSpad a r
      (t.1, o.2 :: t.2)
    | _ =>
      let t := s.performSpad a r
      (t.1, l :: t.2)

/-- A scratchpad access is performed as it issues; faulted lanes trap precisely (R239, R278). -/
def State.spadIssue (s : State) (w : Weft) (a : Access) : State :=
  let a1 := { a with lanes := a.lanes.map (s.spadLane w a) }
  let o := s.performSpad a a1.lanes
  let b := { a with lanes := o.2 }
  let s1 := o.1.coverLanes a o.2 a1.readyKeys
  match b.worst with
  | some (c, d) => s1.settleTrap w b c d
  | none =>
    let ok := b.lanesWhere LaneAcc.good
    s1.setWeft ((((w.writeDest b).applyOffs b ok).reportAcc b ok).commitAcc b)

/-! ### The memory group -/

/-- An ordering prefix acts whenever the group issues; under an empty mask as a fence of its kind (R251, R252, R255). -/
def State.ordGate (s : State) (w : Weft) (p : Pfx) (empty : Bool) (k : State → State) : State :=
  match p.ord with
  | 2 => s.release w p.scope k
  | 3 => if empty then s.fullFence w p.scope k else s.release w p.scope k
  | 1 => if empty then s.fenceAcq w p.scope k else k s
  | _ => k s

/-- The counter of an access is full (R230). -/
def Weft.cntFull (w : Weft) (c : Option Nat) : Bool :=
  match c with
  | some c => 1023 ≤ w.count c
  | none => false

/-- A memory group: order, then its access; the weft's writes and scratchpad accesses wait for its earlier loads
(assumption 3). -/
def memGroup (s : State) (p : Pfx) (uses : List Use) (spad writes : Bool) (mk : State → Weft → Plan → Access)
    (range : Weft → Option (Nat × Nat)) : Res :=
  issue s p uses .active fun w g =>
    if g.m = 0 then s.ordGate w p true fun s => s.setWeft (w.commit p false)
    else s.ordGate w p false fun s =>
      if (writes || spad) && s.loadsOpen w then s.waits w .order
      else
        let a := mk s w g
        if spad then s.spadIssue w a
        else if w.cntFull a.cnt then s.waits w .count
        else if !s.capOpen w.core a.lanes then s.waits w .cap
        else s.startAccess w a (range w)

/-- The fields of an access that every form shares. -/
def baseAccess (s : State) (w : Weft) (p : Pfx) (g : Plan) (kind : AccKind) (size : Nat) (lanes : List LaneAcc) : Access :=
  { id := 0, core := w.core, slot := w.slot, ctx := w.ctx, pc := w.pc, next := w.nextPc p, rstep := w.rctrStep p false
    kind := kind, size := size, signExt := false, scalar := false, dst := .discard, mask := g.m, lanes := lanes
    settled := false, parked := false, replayed := false, nt := p.nt, step := (s.dieStep.getD (dieOf w.core) 0).toNat
    cnt := none, gm := xlGm p, heldBy := none, acq := false, offs := planOffs w g, op := 0, ord := none, split := false }

/-- Bytes of a size code (R409). -/
def sizeOf (s : BitVec 3) : Nat := 2 ^ s.toNat

/-- Registers of a size (R409). -/
def regsOf (size : Nat) : Nat := if size ≤ 4 then 1 else size / 4

/-- A register destination of `k` registers (R409, R413). -/
def destOf (w : Weft) (g : Plan) (d : Opnd) (k : Nat) : Dest :=
  match d with
  | .s n => .sreg n.val
  | .v _ => .vregs (w.phys (dstV d k))
  | .x _ => .xregs ((activeLanes g.m).map fun i =>
      (i, (List.range k).map fun j => (g.regs.getLastD []).getD i 0 + j))
  | _ => .discard

/-- The range that an indirect load keeps busy (R220). -/
def busyOf (d : Opnd) (w : Weft) : Option (Nat × Nat) :=
  match d with
  | .x n => some ((w.xreg n.val).base, (w.xreg n.val).bound)
  | _ => none

/-- The operand is a scalar register. -/
def isS : Opnd → Bool
  | .s _ => true
  | _ => false

/-- LD and LDS (R406, R410). -/
def loadOp (p : Pfx) (d a b : Opnd) (k x : BitVec 1) (sz : BitVec 3) (spad : Bool) (s : State) : Res :=
  let size := sizeOf sz
  let dst := if isS d then dstS d else dstV d (regsOf size)
  let uses := [baseUse a spad, srcV .b b 1, dst]
  memGroup s p uses spad false (fun s w g =>
    let v := s.vVals w g uses
    let lanes := (accLanes g.m (isS d)).map fun i =>
      mkLane g.bad (xlGm p) size
        (laneEa (v.getD 0 []) ((v.getD 1 []).headD (.u 0)) (if k = 1 then size else 1) (xlDisp p) i) 0 0 i
    { baseAccess s w p g .load size lanes with
      signExt := x == 1, scalar := isS d, dst := destOf w g d (regsOf size)
      cnt := if spad then none else some 0, acq := !spad && p.ord == 1 }) (busyOf d)

/-- `ld` (R410). -/
def execLd (p : Pfx) (d a b : Opnd) (k x : BitVec 1) (sz : BitVec 3) (s : State) : Res := loadOp p d a b k x sz false s

/-- `lds` (R410). -/
def execLds (p : Pfx) (d a b : Opnd) (k x : BitVec 1) (sz : BitVec 3) (s : State) : Res := loadOp p d a b k x sz true s

/-- A store is scalar (R406). -/
def scalarStore (d a b : Opnd) : Bool := (isS d || d == .zero) && (isS a || a == .zero) && b == .zero

/-- ST and STS (R406, R411). -/
def storeOp (p : Pfx) (d a b : Opnd) (k : BitVec 1) (sz : BitVec 3) (spad : Bool) (s : State) : Res :=
  let size := sizeOf sz
  let uses := [baseUse a spad, srcV .b b 1, srcV .ds d (regsOf size)]
  memGroup s p uses spad true (fun s w g =>
    let v := s.vVals w g uses
    let lanes := (accLanes g.m (scalarStore d a b)).map fun i =>
      mkLane g.bad (xlGm p) size
        (laneEa (v.getD 0 []) ((v.getD 1 []).headD (.u 0)) (if k = 1 then size else 1) (xlDisp p) i)
        (laneData (v.getD 2 []) size i) 0 i
    { baseAccess s w p g .store size lanes with
      scalar := scalarStore d a b, cnt := if spad then none else some 1 }) (fun _ => none)

/-- `st` (R411). -/
def execSt (p : Pfx) (d a b : Opnd) (k : BitVec 1) (sz : BitVec 3) (s : State) : Res := storeOp p d a b k sz false s

/-- `sts` (R411). -/
def execSts (p : Pfx) (d a b : Opnd) (k : BitVec 1) (sz : BitVec 3) (s : State) : Res := storeOp p d a b k sz true s

end Sys2Proof.Machine
end

