-- ==== Sys2Proof/Machine/Knot.lean ====
section
/-! DEFINITION. Knots (R437-R441). -/

namespace Sys2Proof.Machine

/-- A knot's 16 bytes as a number (R437). -/
structure Knot where
  phase : Nat
  pend : Nat
  exp : Nat
  sect : Nat
  valid : Bool
  err : Bool
  ecode : Nat
  rsv : Nat
  deriving DecidableEq, Repr

/-- A knot from the number its bytes hold (R437). -/
def Knot.ofNat (x : Nat) : Knot :=
  { phase := field x 0 4, pend := field x 4 20, exp := field x 24 20, sect := field x 44 32, valid := bitOf x 76
    err := bitOf x 77, ecode := field x 78 8, rsv := field x 86 42 }

/-- The number that a knot's bytes hold (R437). -/
def Knot.toNat (k : Knot) : Nat :=
  k.phase + 2 ^ 4 * k.pend + 2 ^ 24 * k.exp + 2 ^ 44 * k.sect + 2 ^ 76 * b2n k.valid + 2 ^ 77 * b2n k.err
    + 2 ^ 78 * k.ecode + 2 ^ 86 * k.rsv

/-- The phase closes when nothing is due (R438). -/
def Knot.advance (k : Knot) : Knot :=
  if k.pend = 0 ∧ k.sect = 0 then { k with phase := (k.phase + 1) % 16, pend := k.exp } else k

/-- An engine adds sectors (R438). -/
def Knot.add (k : Knot) (n : Nat) : Knot := { k with sect := (k.sect + n) % 2 ^ 32 }.advance

/-- An engine leaves its code on its knot, the first one it met (R286, R438); code 0 is no failure. -/
def Knot.fail (k : Knot) (code : Nat) : Knot :=
  if code = 0 then k else { k with err := true, ecode := if k.err then k.ecode else code }

/-- An engine lowers SECT by one; a failure leaves its code (R438). -/
def Knot.lower (k : Knot) (code : Nat) : Knot :=
  let k1 := k.fail code
  { k1 with sect := (k1.sect + 2 ^ 32 - 1) % 2 ^ 32 }.advance

/-- An abandoned command leaves its error on its knot and takes its `n` unperformed sectors from SECT (R286, R465). -/
def Knot.abandon (k : Knot) (n : Nat) : Knot :=
  let k1 := k.fail 0x12
  if n = 0 then k1 else { k1 with sect := k1.sect - n }.advance

/-- The knot at a key. -/
def State.knot (s : State) (key : Nat) : Knot := Knot.ofNat (s.nat key 16)

/-- Store a knot. -/
def State.setKnot (s : State) (key : Nat) (k : Knot) : State := s.writeBytes key (leBytes 16 k.toNat)

/-- Key of a knot address: 16-byte aligned and inside an allocation of the team (R439, R239). -/
def State.knotKey (s : State) (team ea : Nat) : Option Nat :=
  if ea % 16 ≠ 0 then none else (s.team? team).bind fun t => t.spadKey ea 16

/-- Scope of a knot: the level of its address (R258). -/
def knotScope (ea : Nat) : Nat := ea / 2 ^ 30 % 4 + 1

/-- KNOT with a DETAIL (R439). -/
def State.knotTrap (s : State) (w : Weft) (m : W64) (d : Nat) : State :=
  s.trapF w .knot m { TInfo.none with detail := d }

/-- A knot instruction with a non-empty mask: the address check, poison (R286), then its effect on the knot. -/
def State.onKnot (s : State) (w : Weft) (m : W64) (ea : Nat) (f : Nat → Knot → State) : State :=
  match s.knotKey w.team ea with
  | none => s.knotTrap w m 1
  | some key =>
    if s.poisoned key 16 then s.trapF w .softerr m { TInfo.none with reach := 3 } else f key (s.knot key)

/-- A count of `kinit` and `kexpect` outside 1 to 2^20 - 1 (R439). -/
def badCount (n : W64) : Bool := n == 0 || 2 ^ 20 ≤ n.toNat

/-- `kinit` (R439). -/
def execKinit (p : Pfx) (a b : Opnd) (s : State) : Res :=
  let uses := [srcS .a a, srcS .b b]
  issue s p uses .active fun w g =>
    if g.m = 0 then s.setWeft (w.commit p false)
    else s.onKnot (w.issued p false) g.m (s.sVal w a).toNat fun key k =>
      let n := s.sVal w b
      if badCount n then s.knotTrap (w.issued p false) g.m 5
      else if k.valid && k.sect != 0 then s.knotTrap (w.issued p false) g.m 4
      else
        let k1 : Knot := { phase := 0, pend := n.toNat, exp := n.toNat, sect := 0, valid := true, err := false,
                           ecode := 0, rsv := 0 }
        ((s.popUses w g.m uses).setKnot key k1).setWeft (w.commit p false)

/-- An earlier command of the weft names the knot and has not added its sectors (R438, R445). -/
def State.knotUnstarted (s : State) (w : Weft) (key : Nat) : Bool :=
  s.cmds.any fun c => c.core == w.core && c.slot == w.slot && !c.started && decide (c.op < 5)
    && (c.desc.getD 4 0).getLsbD 32 && s.knotKey c.team (field (c.desc.getD 4 0).toNat 0 32) == some key

/-- `karrive` (R439): a release at the knot's scope, then the checks and the decrement at the bank. -/
def execKarrive (p : Pfx) (a : Opnd) (s : State) : Res :=
  issue s p [srcS .a a] .active fun w g =>
    let ea := (s.sVal w a).toNat
    if g.m = 0 then s.release w (knotScope ea) fun s => s.setWeft (w.commit p false)
    else match s.knotKey w.team ea with
      | none => s.knotTrap (w.issued p false) g.m 1
      | some key =>
        if s.knotUnstarted w key then s.waits w .order
        else s.release w (knotScope ea) fun s =>
          s.onKnot (w.issued p false) g.m ea fun key k =>
            if !k.valid then s.knotTrap (w.issued p false) g.m 2
            else if k.pend = 0 then s.knotTrap (w.issued p false) g.m 3
            else (s.setKnot key { k with pend := k.pend - 1 }.advance).setWeft (w.commit p false)

/-- `kexpect` (R439). -/
def execKexpect (p : Pfx) (a b : Opnd) (s : State) : Res :=
  let uses := [srcS .a a, srcS .b b]
  issue s p uses .active fun w g =>
    if g.m = 0 then s.setWeft (w.commit p false)
    else s.onKnot (w.issued p false) g.m (s.sVal w a).toNat fun key k =>
      let n := s.sVal w b
      if badCount n then s.knotTrap (w.issued p false) g.m 5
      else if !k.valid then s.knotTrap (w.issued p false) g.m 2
      else ((s.popUses w g.m uses).setKnot key { k with exp := n.toNat }).setWeft (w.commit p false)

/-- `kwait` (R439, R440): an acquire once the phase differs from B; with an empty mask a fence of kind acq at its scope (R434). -/
def execKwait (p : Pfx) (d a b : Opnd) (s : State) : Res :=
  let uses := [srcS .a a, srcS .b b, dstS d]
  issue s p uses .active fun w g =>
    if g.m = 0 then s.fenceAcq w (knotScope (s.sVal w a).toNat) fun s => s.setWeft (w.commit p false)
    else s.onKnot (w.issued p false) g.m (s.sVal w a).toNat fun key k =>
      if !k.valid then s.knotTrap (w.issued p false) g.m 2
      else if k.phase = field (s.sVal w b).toNat 0 4 then s.waits w (.knot key g.m)
      else
        let r := writeS (s.popUses w g.m uses) w d (BitVec.ofNat 64 k.phase)
        r.1.setWeft (r.2.commit p false)

/-- The word that `ktest` returns (R439). -/
def Knot.word (k : Knot) : W64 :=
  BitVec.ofNat 64 (k.phase + 2 ^ 4 * k.pend + 2 ^ 24 * b2n k.valid + 2 ^ 25 * b2n k.err + 2 ^ 32 * k.sect)

/-- `ktest` (R439). -/
def execKtest (p : Pfx) (d a : Opnd) (s : State) : Res :=
  issue s p [srcS .a a, dstS d] .active fun w g =>
    if g.m = 0 then s.setWeft (w.commit p false)
    else s.onKnot (w.issued p false) g.m (s.sVal w a).toNat fun _ k =>
      let r := writeS s w d k.word
      r.1.setWeft (r.2.commit p false)

/-- Every `kwait` at a knot traps when the knot becomes invalid (R440). -/
def State.failWaiters (s : State) (key : Nat) : State :=
  s.wefts.foldl (fun t w =>
    match w.waiting with
    | some (.knot k m) => if k = key then t.knotTrap w m 2 else t
    | _ => t) s

/-- `kinval` (R439, R440). -/
def execKinval (p : Pfx) (a : Opnd) (s : State) : Res :=
  issue s p [srcS .a a] .active fun w g =>
    if g.m = 0 then s.setWeft (w.commit p false)
    else s.onKnot (w.issued p false) g.m (s.sVal w a).toNat fun key k =>
      if !k.valid then s.knotTrap (w.issued p false) g.m 2
      else if k.sect ≠ 0 then s.knotTrap (w.issued p false) g.m 4
      else ((s.setWeft (w.commit p false)).setKnot key { k with valid := false }).failWaiters key

end Sys2Proof.Machine
end

