-- ==== Sys2Proof/Machine/Shuttle.lean ====
section
/-! DEFINITION. The shuttle (R435, R436, R441-R446, R266, R267). -/

namespace Sys2Proof.Machine

/-! ### Descriptors (R442) -/

/-- A field of a descriptor register. -/
def EngCmd.fld (c : EngCmd) (n lo width : Nat) : Nat := field (c.desc.getD n 0).toNat lo width

def EngCmd.rowb (c : EngCmd) : Nat := c.fld 2 0 32
def EngCmd.kn (c : EngCmd) : Bool := c.fld 4 32 1 == 1
def EngCmd.ssp (c : EngCmd) : Bool := c.fld 4 33 1 == 1 && c.op != 4
def EngCmd.dsp (c : EngCmd) : Bool := c.fld 4 34 1 == 1
/-- A host COPY (R116): SRC, DST, LEN, its flags, the queue and the command stand in place of a descriptor. -/
def EngCmd.isCopy (c : EngCmd) : Bool := c.op == 6
def EngCmd.srcHost (c : EngCmd) : Bool := c.isCopy && c.fld 3 0 1 == 1
def EngCmd.dstHost (c : EngCmd) : Bool := c.isCopy && c.fld 3 1 1 == 1
def EngCmd.t2 (c : EngCmd) : Bool := if c.isCopy then c.fld 3 2 1 == 1 else c.fld 4 35 1 == 1
def EngCmd.useSkip (c : EngCmd) : Bool := c.fld 4 36 1 == 1
def EngCmd.st (c : EngCmd) : Bool := c.fld 4 37 1 == 1

/-- Rows of the transfer (R442, R443). -/
def EngCmd.rows (c : EngCmd) : Nat := if c.op = 2 ∨ c.op = 3 then popCount c.mask else c.fld 2 32 32

/-- Total bytes T (R442); LEN of a COPY (R116). -/
def EngCmd.total (c : EngCmd) : Nat := if c.isCopy then c.fld 2 0 64 else c.rows * c.rowb

/-- Chunks NC (R442). -/
def EngCmd.chunks (c : EngCmd) : Nat := (c.total + 4095) / 4096

/-- Words of the skip map and of DONE (R444). -/
def EngCmd.mapWords (c : EngCmd) : Nat := (c.chunks + 63) / 64

/-- Bytes of the status record (R444). -/
def EngCmd.statLen (c : EngCmd) : Nat := 16 + 8 * c.mapWords

/-- Sectors of a chunk (R442). -/
def EngCmd.chunkSectors (c : EngCmd) (k : Nat) : Nat := (min c.total (4096 * (k + 1)) - 4096 * k + 31) / 32

/-- An address on one side: modulo 2^32 in scratchpad, else modulo 2^64 (R443). -/
def sideAddr (spad : Bool) (base pitch mult : Int) : Nat := wrapInt (if spad then 32 else 64) (base + mult * pitch)

/-- The lane behind row `r` of a gather or scatter (R443). -/
def EngCmd.laneOf (c : EngCmd) (r : Nat) : Nat := (activeLanes c.mask).getD r 0

/-- Signed index of a lane of vB (R443). -/
def EngCmd.idxOf (c : EngCmd) (i : Nat) : Int := signedOf 32 (c.idx.getD i 0).toNat

/-- Source address of row `r` (R443). -/
def EngCmd.srcRow (c : EngCmd) (r : Nat) : Nat :=
  let m : Int := if c.op = 2 then c.idxOf (c.laneOf r) else if c.op = 3 then c.laneOf r else r
  sideAddr c.ssp ((c.desc.getD 0 0).toNat) (signedOf 32 (c.fld 3 0 32)) m

/-- Destination address of row `r` (R443). -/
def EngCmd.dstRow (c : EngCmd) (r : Nat) : Nat :=
  let m : Int := if c.op = 2 then c.laneOf r else if c.op = 3 then c.idxOf (c.laneOf r) else r
  sideAddr c.dsp ((c.desc.getD 1 0).toNat) (signedOf 32 (c.fld 3 32 32)) m

/-- Source address of linear byte `x` (R442). -/
def EngCmd.srcAddr (c : EngCmd) (x : Nat) : Nat :=
  if c.isCopy then (c.fld 0 0 64 + x) % 2 ^ 64 else (c.srcRow (x / c.rowb) + x % c.rowb) % 2 ^ (if c.ssp then 32 else 64)

/-- Destination address of linear byte `x` (R442). -/
def EngCmd.dstAddr (c : EngCmd) (x : Nat) : Nat :=
  if c.isCopy then (c.fld 1 0 64 + x) % 2 ^ 64 else (c.dstRow (x / c.rowb) + x % c.rowb) % 2 ^ (if c.dsp then 32 else 64)

/-- The source, or destination, byte at an address is reached over the fabric. -/
def EngCmd.srcFab (c : EngCmd) (va : Nat) : Bool := !c.ssp && !c.srcHost && isFabric (BitVec.ofNat 64 va)
def EngCmd.dstFab (c : EngCmd) (va : Nat) : Bool := !c.dsp && !c.dstHost && isFabric (BitVec.ofNat 64 va)

/-! ### Checks at issue (R436, R441) -/

/-- Step 1: a reserved bit, or a count outside its range. -/
def EngCmd.badDesc (c : EngCmd) : Bool :=
  c.fld 4 38 26 != 0 || c.rowb == 0 || 2 ^ 26 < c.rowb
    || (c.op != 2 && c.op != 3 && (c.fld 2 32 32 == 0 || 2 ^ 20 < c.fld 2 32 32)) || 2 ^ 26 < c.total

/-- Step 2: a misaligned knot, status or skip address. -/
def EngCmd.badAlign (c : EngCmd) : Bool :=
  (c.kn && c.fld 4 0 32 % 16 != 0) || (c.st && c.fld 5 0 32 % 8 != 0) || (c.useSkip && c.fld 5 32 32 % 8 != 0)

/-- Step 3: every scratchpad range lies in the team's allocations. -/
def EngCmd.badSpad (c : EngCmd) (t : Team) : Bool :=
  let bad := fun ea n => (t.spadKey ea n).isNone
  (c.ssp && (List.range c.rows).any fun r => bad (c.srcRow r) c.rowb)
    || (c.dsp && (List.range c.rows).any fun r => bad (c.dstRow r) c.rowb)
    || (c.kn && bad (c.fld 4 0 32) 16) || (c.st && bad (c.fld 5 0 32) c.statLen)
    || (c.useSkip && bad (c.fld 5 32 32) (8 * c.mapWords))

/-- Key of the knot that a command counts on. -/
def EngCmd.knotAt (c : EngCmd) (s : State) : Option Nat := if c.kn then s.knotKey c.team (c.fld 4 0 32) else none

/-- The first check that fails (R436, R441): cause and DETAIL. -/
def State.shuttleCheck (s : State) (t : Team) (c : EngCmd) : Option (Cause × Nat) :=
  if c.badDesc then some (.illop, 3)
  else if c.badAlign then some (.align, 0)
  else if c.badSpad t then some (.spaddr, 0)
  else match c.knotAt s with
    | none => none
    | some key =>
      if !(s.knot key).valid then some (.knot, 2)
      else if 2 ^ 32 ≤ (s.knot key).sect + (c.total + 31) / 32 then some (.knot, 6)
      else none

/-! ### Issue -/

/-- The token that a command delivers: s[D][55:0] (R435). -/
def State.tokenOf (s : State) (w : Weft) (d : Opnd) : Option W64 :=
  match d with
  | .s _ => some ((s.sVal w d) &&& 0x00FFFFFFFFFFFFFF)
  | _ => none

/-- A place for a token in q0, q1 or q2 (R225). -/
def Team.tokenRoom (t : Team) (q : Nat) : Bool :=
  (t.q q).length + (match q with | 0 => t.res0 | 1 => t.res1 | _ => t.res2) < tokenDepth

/-- Reserve or return token places. -/
def Team.reserve (t : Team) (q : Nat) (up : Bool) : Team :=
  let f := fun n : Nat => if up then n + 1 else n - 1
  match q with
  | 0 => { t with res0 := f t.res0 }
  | 1 => { t with res1 := f t.res1 }
  | _ => { t with res2 := f t.res2 }

/-- The queue keeps a place for a token, if there is one to deliver. -/
def State.reserveToken (s : State) (team q : Nat) (tok : Option W64) : State :=
  match tok, s.team? team with
  | some _, some t => s.setTeam (t.reserve q true)
  | _, _ => s

/-- Deliver a token with its status code (R435). -/
def State.pushToken (s : State) (team q : Nat) (tok : Option W64) (status : Nat) : State :=
  match tok, s.team? team with
  | some v, some t =>
    let t1 := t.reserve q false
    s.setTeam (t1.setQ q (t1.q q ++ [v ||| BitVec.ofNat 64 (status * 2 ^ 56)]))
  | _, _ => s

/-- Commands that one shuttle accepts (R446). -/
def shuttleCap : Nat := 16

/-- The shuttle of a core has no place. -/
def State.shuttleFull (s : State) (core : Nat) : Bool :=
  shuttleCap ≤ (s.cmds.filter fun c => c.core == core && decide (c.op < 5)).length

/-- The six registers of a descriptor from A (R432). -/
def descUses (a : Opnd) (n : Nat) : List Use :=
  (List.range n).map fun j =>
    srcS .a (match a with | .s k => if h : k.val + j < 32 then .s ⟨k.val + j, h⟩ else a | o => o)

/-- A command before it is accepted. -/
def mkCmd (s : State) (w : Weft) (p : Pfx) (op : Nat) (m : W64) (desc : List W64) (idx : List W32) (tok : Option W64) :
    EngCmd :=
  { id := s.nextId, op := op, core := w.core, slot := w.slot, ctx := w.ctx, team := w.team, pc := w.pc, desc := desc,
    mask := m, idx := idx, tok := tok, scope := p.scope, step := (s.dieStep.getD (dieOf w.core) 0).toNat, coll := none,
    vacant := false, started := false, skip := [], sectors := [], failed := [], units := [], cur := none, pids := [],
    got := [], writing := false, secCode := 0, status := 0
    ncfg := (match s.team? w.team with | some t => t.ncfg | none => 0) }

/-- Accept a command: it is counted, its token place reserved. -/
def State.acceptCmd (s : State) (w : Weft) (c : EngCmd) (cnt q : Nat) : State :=
  ({ s with nextId := s.nextId + 1, cmds := s.cmds ++ [c] }.setWeft (w.raise cnt c.id)).reserveToken w.team q c.tok

/-- A shuttle command (R434, R436, R443, R445, R446); one that traps at its own checks is not debited (assumption 110). -/
def shuttleOp (op : Nat) (p : Pfx) (d a : Opnd) (b : Option Opnd) (s : State) : Res :=
  let bu := match b with | some o => [srcV .b o 1] | none => []
  issue s p (descUses a 6 ++ bu ++ [srcS .ds d]) .active fun w g =>
    let desc := (descUses a 6).map fun u => s.sVal w u.o
    let idx := match b with | some o => ((s.vVal w g.m (srcV .b o 1) []).headD (.u 0)).lanes | none => []
    let tok := s.tokenOf w d
    match s.team? w.team with
    | none => s.setWeft (w.commit p false)
    | some t =>
      if (g.m != 0 || op == 0) && s.shuttleFull w.core then s.waits w .place
      else if g.m != 0 && w.cntFull (some 2) then s.waits w .count
      else if g.m != 0 && tok.isSome && !t.tokenRoom 0 then s.waits w .queue
      else if (s.ration w.core).c < 0 then s.withhold w false 4
      else if g.m = 0 ∧ op ≠ 0 then (s.debit w.core 4).setWeft (w.commit p false)
      else if g.m = 0 then
        let c : EngCmd := { mkCmd s w p op 0 desc idx none with coll := some w.shcopies, vacant := true }
        { s.debit w.core 4 with nextId := s.nextId + 1, cmds := s.cmds ++ [c] }.setWeft
          { w.commit p false with shcopies := w.shcopies + 1 }
      else
        let c := mkCmd s w p op g.m desc idx tok
        match s.shuttleCheck t c with
        | some (k, n) => s.trapF (w.issued p false) k g.m { TInfo.none with detail := n }
        | none =>
          let w1 := w.commit p false
          if op = 0 then
            (s.debit w.core 4).acceptCmd { w1 with shcopies := w.shcopies + 1 } { c with coll := some w.shcopies } 2 0
          else (s.debit w.core 4).acceptCmd w1 c 2 0

/-- `shcopy` (R445). -/
def execShcopy (p : Pfx) (d a : Opnd) (s : State) : Res := shuttleOp 0 p d a none s

/-- `shtile` (R443). -/
def execShtile (p : Pfx) (d a : Opnd) (s : State) : Res := shuttleOp 1 p d a none s

/-- `shgath` (R443). -/
def execShgath (p : Pfx) (d a b : Opnd) (s : State) : Res := shuttleOp 2 p d a (some b) s

/-- `shscat` (R443). -/
def execShscat (p : Pfx) (d a b : Opnd) (s : State) : Res := shuttleOp 3 p d a (some b) s

/-- `shfill` (R443). -/
def execShfill (p : Pfx) (d a : Opnd) (s : State) : Res := shuttleOp 4 p d a none s

/-! ### Running -/

/-- The command of a number. -/
def State.cmd? (s : State) (id : Nat) : Option EngCmd := s.cmds.find? fun c => c.id == id

/-- Replace a command. -/
def State.setCmd (s : State) (c : EngCmd) : State :=
  { s with cmds := s.cmds.map fun d => if d.id = c.id then c else d }

/-- Every weft of the team has issued its `shcopy` number `n` or has exited (R445). -/
def State.collReady (s : State) (team n : Nat) : Bool :=
  s.wefts.all fun w => w.team != team || w.exited || decide (n < w.shcopies)

/-- SHCOPY_COLLECTIVE_START (R445): the slices may start; empty ones are done. -/
def execShcopyCollectiveStart (team n : Nat) (s : State) : Res :=
  let mine := fun c : EngCmd => c.team == team && c.coll == some n
  if s.collReady team n && s.cmds.any mine then
    .next { s with cmds := (s.cmds.filter fun c => !(mine c && c.vacant)).map fun c =>
              if mine c then { c with coll := none } else c }
  else .next s

/-- The access stands before an engine command: its own weft's, by issue; from core scope on another weft's write, by its place in the core
store order (R252, R266). -/
def EngCmd.awaits (c : EngCmd) (a : Access) : Bool :=
  a.core == c.core
    && ((a.slot == c.slot && decide (a.op < c.id))
      || (decide (1 ≤ c.scope) && a.kind.writes && (match a.ord with | some o => decide (o < c.id) | none => false)
          && a.lanes.any fun l => !l.closed && !l.replaying))

/-- What an engine command waits for before it reads (R252, R266): every earlier access of its weft is performed, its persist barriers have
reached their points, and the writes that its scope covers are performed. -/
def State.engineWaits (s : State) (c : EngCmd) : Bool :=
  s.accs.any c.awaits
    || match s.weft? c.core c.slot with
      | some w => w.pbars.any fun b => decide (b.kind < 2) && decide (b.op < c.id)
      | none => false

/-- A command that waits sends the combining buffer as a release at its scope does (R78, R266). -/
def State.engineFlush (s : State) (c : EngCmd) : State := s.flushCore c.core c.scope

/-- The chunks that a skip map marks. -/
def EngCmd.mapChunks (c : EngCmd) (bs : List Byte) : List Nat :=
  (List.range c.chunks).filter fun k => bitOf (bs.getD (k / 8) 0).toNat (k % 8)

/-- SHUTTLE_START (R444, R446): in acceptance order, once the writes before the command are performed. -/
def execShuttleStart (id : Nat) (s : State) : Res :=
  match s.cmd? id with
  | none => .next s
  | some c =>
    if c.started || c.coll.isSome || decide (5 ≤ c.op)
        || s.cmds.any (fun e => e.core == c.core && decide (e.op < 5) && !e.started && e.coll.isNone
            && decide (e.id < c.id)) then .next s
    else if s.engineWaits c then .next (s.engineFlush c)
    else
      let key := (s.team? c.team).bind fun t => t.spadKey (c.fld 5 32 32) (8 * c.mapWords)
      let c1 := match key with
        | some k =>
          if c.useSkip then
            { c with skip := c.mapChunks (s.bytes k (8 * c.mapWords))
                     status := if s.poisoned k (8 * c.mapWords) then 0x12 else 0 }
          else c
        | none => c
      let n := ((List.range c.chunks).filter fun k => !c1.skip.contains k).foldl (fun acc k => acc + c.chunkSectors k) 0
      let s1 := s.setCmd { c1 with started := true }
      .next (match c.knotAt s with
        | some k => s1.setKnot k (((s1.knot k).fail c1.status).add n)
        | none => s1)

/-! #### Sectors -/

/-- An engine's failure on one byte: status code, KIND and LEVEL of its record (KIND 0: none), and the address. -/
structure EngErr where
  code : Nat
  kind : Nat
  level : Nat
  acc : Nat
  va : Nat
  deriving DecidableEq, Repr

/-- The status of a translation that failed (R435). -/
def Tr.engErr (t : Tr) (acc va : Nat) : EngErr :=
  match t with
  | .ok _ _ => { code := 0, kind := 0, level := 0, acc := acc, va := va }
  | .page => { code := 0x0A, kind := 0, level := 0, acc := acc, va := va }
  | .prot => { code := 0x0B, kind := 0, level := 0, acc := acc, va := va }
  | .notPres l => { code := 1, kind := 1, level := l, acc := acc, va := va }
  | .poolEmpty => { code := 2, kind := 2, level := 0, acc := acc, va := va }

/-- The status of a fabric answer (R435, R84). -/
def fabEngErr (r : FabResult) (acc va : Nat) : EngErr :=
  match r with
  | .ok _ => { code := 0, kind := 0, level := 0, acc := acc, va := va }
  | .notPres l => { code := 1, kind := 1, level := l, acc := acc + 16, va := va }
  | .poolEmpty => { code := 2, kind := 2, level := 0, acc := acc + 16, va := va }
  | .page => { code := 0x0A, kind := 0, level := 0, acc := acc + 16, va := va }
  | .prot => { code := 0x0B, kind := 0, level := 0, acc := acc + 16, va := va }
  | .fenced => { code := 0x15, kind := 0, level := 0, acc := acc + 16, va := va }
  | .noBind => { code := 0x15, kind := 0, level := 0, acc := acc + 16, va := va }
  | .softErr => { code := 0x12, kind := 0, level := 0, acc := acc + 16, va := va }
  | .peerDown => { code := 0x15, kind := 0, level := 0, acc := acc + 16, va := va }
  | .timeout => { code := 0x15, kind := 0, level := 0, acc := acc + 16, va := va }

/-- Line key of a fabric address: peer and line. -/
def lineKey (va : Nat) : Nat := peerOf (BitVec.ofNat 64 va) * 2 ^ 47 + lineOf (BitVec.ofNat 64 va)

/-- Where one byte of a side lies: a key and whether its page is compressed, or an error. A write has its snapshot frame from here on. -/
def State.engByte (s : State) (c : EngCmd) (spad host : Bool) (va : Nat) (ask : Ask) : State × ((Nat × Bool) ⊕ EngErr) :=
  if host then
    (s, if s.hostOk va 1 then .inl (hostKey va, false) else .inr { code := 0x0B, kind := 0, level := 0, acc := 0, va := va })
  else if spad then
    match (s.team? c.team).bind fun t => t.spadKey va 1 with
    | some k => (s, .inl (k, false))
    | none => (s, .inr { code := 0x0B, kind := 0, level := 0, acc := 0, va := va })
  else match s.translate c.ctx (BitVec.ofNat 64 va) ask c.step with
    | (.ok k cbf, s1) => (if ask = .write then (s1.openUnit (snapVa k) c.step).getD s1 else s1, .inl (k, cbf))
    | (t, s1) => (s1, .inr (t.engErr (if ask = .write then 2 else 1) va))

/-- The value of one source byte with the place that gave it, or its error (R443, R435). -/
def State.engRead (s : State) (c : EngCmd) (x : Nat) : State × ((Byte × Option (Nat × Bool)) ⊕ EngErr) :=
  if c.op = 4 then (s, .inl (BitVec.ofNat 8 ((c.desc.getD 0 0).toNat >>> (8 * (x % c.rowb % 8))), none))
  else
    let va := c.srcAddr x
    if c.srcFab va then
      match c.got.lookup (lineKey va) with
      | some (.ok bs) => (s, .inl (bs.getD (va % 128) 0, none))
      | some r => (s, .inr (fabEngErr r 1 va))
      | none => (s, .inr (fabEngErr .noBind 1 va))
    else match s.engByte c c.ssp c.srcHost va .read with
      | (s1, .inl k) =>
        if s1.rpoisoned k.1 1 then (s1, .inr { code := 0x12, kind := 0, level := 0, acc := 1, va := va })
        else (s1, .inl (s1.rbyte k.1, some k))
      | (s1, .inr e) => (s1, .inr e)

/-- What the bytes of a sector come to: cells to write, bytes for the fabric (line key, offset, value), errors, and the local places read
and written. -/
structure SecPlan where
  cells : List Host.Cell
  fab : List (Nat × Nat × Byte)
  errs : List EngErr
  places : List (Nat × Bool)
  deriving DecidableEq, Repr

/-- Read the bytes of a sector and find where they go. -/
def State.planSector (s : State) (c : EngCmd) : List Nat → SecPlan → State × SecPlan
  | [], acc => (s, acc)
  | x :: r, acc =>
    match s.engRead c x with
    | (s1, .inr e) => s1.planSector c r { acc with errs := acc.errs ++ [e] }
    | (s1, .inl (b, p)) =>
      let va := c.dstAddr x
      let acc1 := { acc with places := acc.places ++ p.toList }
      if c.dstFab va then
        s1.planSector c r { acc1 with fab := acc1.fab ++ [(lineKey va, va % 128, b)] }
      else match s1.engByte c c.dsp c.dstHost va .write with
        | (s2, .inl k) => s2.planSector c r { acc1 with cells := acc1.cells ++ [(k.1, b)], places := acc1.places ++ [k] }
        | (s2, .inr e) => s2.planSector c r { acc1 with errs := acc1.errs ++ [e] }

/-- Send an engine's packet for a line, or answer its error at the source (R83). -/
def State.engPacket (s : State) (id : Nat) (key : Nat) (gm : BitVec 8) (op : FabOp) (bytes : List (Nat × Byte × Nat)) : State :=
  match s.cmd? id with
  | none => s
  | some c =>
    let peer := key / 2 ^ 47
    let line := key % 2 ^ 47
    match s.fabErr c.ctx peer line with
    | some _ => s.setCmd { c with got := c.got ++ [(key, .noBind)] }
    | none =>
      (s.sendPacket { mkPacket c.core c.ctx peer line (if c.t2 then 2 else 1) gm op with bytes := bytes, use := .engine id }).setCmd
        { c with pids := c.pids ++ [s.nextId] }

/-- Write the fault records of an engine's errors: one per 4 KiB unit (R435); a COPY writes none (R118). -/
def State.engRecords (s : State) (c : EngCmd) : List EngErr → State × EngCmd
  | [] => (s, c)
  | e :: r =>
    let u := e.va / 4096
    if e.kind = 0 ∨ c.isCopy ∨ u ∈ c.units then s.engRecords c r
    else
      let rec0 : FaultRec :=
        { va := BitVec.ofNat 64 (u * 4096), lmask := 0, kind := e.kind, level := e.level, acc := e.acc, core := c.core,
          slot := c.slot, seq := 0, pclo := c.pc.setWidth 32 }
      (s.writeRecord c.ctx rec0).engRecords { c with units := c.units ++ [u] } r

/-- Take errors into a command: its status is the first one, and the chunk has failed (R435, R444). -/
def State.engErrors (s : State) (c : EngCmd) (sector : Nat) (errs : List EngErr) : State × EngCmd :=
  let o := s.engRecords c errs
  match errs with
  | [] => o
  | e :: _ =>
    let c1 := o.2
    (o.1, { c1 with status := if c1.status = 0 then e.code else c1.status
                    secCode := if c1.secCode = 0 then e.code else c1.secCode
                    failed := if sector / 128 ∈ c1.failed then c1.failed else c1.failed ++ [sector / 128] })

/-- Sectors that a command has to perform. -/
def EngCmd.work (c : EngCmd) : Nat :=
  ((List.range c.chunks).filter fun k => !c.skip.contains k).foldl (fun acc k => acc + c.chunkSectors k) 0

/-- A sector is performed or has failed: its knot falls by one (R438). -/
def State.endSector (s : State) (c : EngCmd) (sector : Nat) : State :=
  let c1 := { c with sectors := c.sectors ++ [sector], cur := none, pids := [], got := [], writing := false,
                     secCode := 0 }
  let s1 := s.setCmd c1
  if c.isCopy then (if c1.sectors.length < c1.work then s1 else s1.post (.copy c.ctx (c.fld 4 0 8)))
  else
  match c.knotAt s with
  | some k => s1.setKnot k ((s1.knot k).lower c.secCode)
  | none => s1

/-- HBM lines that a sector reads and writes count as transfers, each once (R58). -/
def State.countLines (s : State) (places : List (Nat × Bool)) : State :=
  ((distinct ((places.filter fun p => keyIsHbm p.1).map fun p => (p.1 / 128, p.2))).foldl (fun t l => t.countLine (l.1 * 128) l.2) s)

/-- Linear bytes of a sector. -/
def EngCmd.secBytes (c : EngCmd) (sector : Nat) : List Nat :=
  (List.range (min c.total (32 * sector + 32) - 32 * sector)).map (32 * sector + ·)

/-- The fabric lines that a sector reads, and the granules that it reads of one. -/
def EngCmd.readLines (c : EngCmd) (sector : Nat) : List Nat :=
  if c.op = 4 then []
  else distinct (((c.secBytes sector).filter fun x => c.srcFab (c.srcAddr x)).map fun x =>
    lineKey (c.srcAddr x))
def EngCmd.readGranules (c : EngCmd) (sector key : Nat) : BitVec 8 :=
  granulesOf (((c.secBytes sector).filter fun x => c.srcFab (c.srcAddr x) && lineKey (c.srcAddr x) == key).map fun x => c.srcAddr x % 128)

/-- Lines of memory or of the fabric that a sector asks for (R94). -/
def EngCmd.memLines (c : EngCmd) (sector : Nat) : Nat :=
  let bs := c.secBytes sector
  (distinct ((if c.op = 4 ∨ c.ssp ∨ c.srcHost then [] else bs.map fun x => c.srcAddr x / 128)
    ++ (if c.dsp ∨ c.dstHost then [] else bs.map fun x => 2 ^ 64 + c.dstAddr x / 128))).length

/-- The engine of a cluster is at the cap of outstanding requests and pauses (R94). -/
def State.engPaused (s : State) (c : EngCmd) (sector : Nat) : Bool :=
  let n := s.inFlight (clusOf c.core)
  !c.isCopy && n != 0 && decide (0 < c.memLines sector) && decide (s.oreq < n + c.memLines sector)

/-- The cells of a sector's destination bytes, as far as they lie in local memory. -/
def State.sectorKeys (s : State) (c : EngCmd) (sector : Nat) : List Nat :=
  (c.secBytes sector).filterMap fun x =>
    let va := c.dstAddr x
    if c.dstFab va then none
    else match (s.engByte c c.dsp c.dstHost va .read).2 with
      | .inl k => some (s.physKey k.1)
      | .inr _ => none

/-- Lines and words that the sectors of a command have written in full are poisoned no longer (R63, R286). -/
def State.coverSectors (s : State) (c : EngCmd) (sector : Nat) : State :=
  if s.pois.isEmpty then s
  else
    let near := (List.range 7).filterMap fun i => if 3 ≤ sector + i ∧ (c.sectors.contains (sector + i - 3) ∨ i = 3)
      ∧ ¬ c.failed.contains ((sector + i - 3) / 128) then some (sector + i - 3) else none
    s.covered ((near.flatMap (s.sectorKeys c)).map fun k => (k, 0))

/-- Perform the reads of a sector, its local writes, and send its fabric writes. -/
def State.runSector (s : State) (c : EngCmd) (sector : Nat) : State :=
  let o := s.planSector c (c.secBytes sector) { cells := [], fab := [], errs := [], places := [] }
  if o.2.cells.any fun k => !s.accepts k.1 then s
  else
    let s1 := (o.1.chanWrite o.2.cells c.step).countLines o.2.places
    let e0 := s1.engErrors { c with got := [], pids := [], cur := some sector, writing := true } sector o.2.errs
    let e := (e0.1.coverSectors e0.2 sector, e0.2)
    if o.2.fab.isEmpty then e.1.endSector e.2 sector
    else
      (distinct (o.2.fab.map (·.1))).foldl (fun t key =>
        let bs := (o.2.fab.filter fun b => b.1 == key).map fun b => (b.2.1, b.2.2, c.slot)
        t.engPacket c.id key (granulesOf (bs.map (·.1))) .write bs)
        (e.1.setCmd e.2)

/-- The T2 traffic of the command is held back (R81, R446). -/
def State.t2Held (s : State) (c : EngCmd) : Bool :=
  s.power.t2off && c.t2 && !(c.dsp && (c.ssp || c.op == 4))
    && (!c.isCopy || c.srcFab (c.srcAddr 0) || c.dstFab (c.dstAddr 0))

/-- The sector may be worked on. -/
def EngCmd.mayRun (c : EngCmd) (sector : Nat) : Bool :=
  c.started && c.op != 5 && decide (32 * sector < c.total) && !c.skip.contains (sector / 128)
    && !c.sectors.contains sector && (c.cur.isNone || c.cur == some sector) && c.pids.isEmpty

/-- SECTOR_PERFORMED (R438, R443, R444): a sector's reads, its writes, and its count at the knot; fabric lines are asked
for, and their answers awaited, by further calls. -/
def execSectorPerformed (id sector : Nat) (s : State) : Res :=
  match s.cmd? id with
  | none => .next s
  | some c =>
    if !c.mayRun sector || s.t2Held c || (c.cur.isNone && s.engPaused c sector) then .next s
    else if c.cur.isNone && !(c.readLines sector).isEmpty then
      .next ((c.readLines sector).foldl (fun t key => t.engPacket id key (c.readGranules sector key) .read [])
        (s.setCmd { c with cur := some sector }))
    else if !c.writing then .next (s.runSector c sector)
    else
      let errs := (c.got.filter fun r => match r.2 with | .ok _ => false | _ => true).map fun r =>
        fabEngErr r.2 2 (2 ^ 63 + r.1 * 128 % 2 ^ 54 + r.1 / 2 ^ 47 * 2 ^ 54)
      let e := s.engErrors c sector errs
      .next (e.1.endSector e.2 sector)

/-- The status record (R444). -/
def EngCmd.record (c : EngCmd) : List Byte :=
  let done := (List.range c.chunks).filter fun k => !c.failed.contains k
  leBytes 8 c.total ++ leBytes 4 done.length ++ leBytes 4 c.status
    ++ leBytes (8 * c.mapWords) (done.foldl (fun acc k => acc + 2 ^ k) 0)

/-- A command leaves: its token is delivered and its counter falls (R229, R435). -/
def State.endCmd (s : State) (c : EngCmd) (cnt q : Nat) (tokenFirst : Bool) : State :=
  let s1 := { s with cmds := s.cmds.filter fun d => d.id ≠ c.id }
  let low := fun t : State => match t.weft? c.core c.slot with
    | some w => t.setWeft (w.lower cnt c.id)
    | none => t
  if tokenFirst then low (s1.pushToken c.team q c.tok c.status) else (low s1).pushToken c.team q c.tok c.status

/-- SHUTTLE_COMPLETE (R444, steps 4 to 6). -/
def execShuttleComplete (id : Nat) (s : State) : Res :=
  match s.cmd? id with
  | none => .next s
  | some c =>
    if !c.started || decide (5 ≤ c.op) || c.cur.isSome || decide (c.sectors.length < c.work) then .next s
    else
      let s1 := match (s.team? c.team).bind fun t => t.spadKey (c.fld 5 0 32) c.statLen with
        | some k => if c.st then s.writeBytes k c.record else s
        | none => s
      .next (s1.endCmd c 2 0 true)

end Sys2Proof.Machine
end

