-- ==== Sys2Proof/Machine/Matrix.lean ====
section
/-! DEFINITION. The matrix sequencer (R447-R453). -/

namespace Sys2Proof.Machine

/-! ### Configuration (R447) -/

/-- Format codes of a configuration: A, B, INT32 accumulation, tile, K-slab. -/
def mcfgA (c : BitVec 10) : Nat := field c.toNat 0 3
def mcfgB (c : BitVec 10) : Nat := field c.toNat 3 3
def mcfgInt (c : BitVec 10) : Bool := c.getLsbD 6
def mcfgTile (c : BitVec 10) : Nat := field c.toNat 7 2
def mcfgKs (c : BitVec 10) : Nat := field c.toNat 9 1

/-- Class of a format: 0 16-bit, 1 8-bit float, 2 e2m1, 3 i8, 4 reserved. -/
def fmtClass (f : Nat) : Nat := if f < 2 then 0 else if f < 4 then 1 else if f = 4 then 2 else if f = 5 then 3 else 4

/-- A configuration word that `mcfg` refuses. -/
def badMcfg (v : W64) : Bool :=
  let c := v.setWidth 10
  field v.toNat 10 54 != 0 || fmtClass (mcfgA c) == 4 || fmtClass (mcfgA c) != fmtClass (mcfgB c)
    || mcfgInt c != (fmtClass (mcfgA c) == 3) || mcfgTile c == 3

/-- Rows, columns and K of a step. -/
def tileM (c : BitVec 10) : Nat := if mcfgTile c = 0 then 64 else 128
def tileN (c : BitVec 10) : Nat := if mcfgTile c = 2 then 256 else 128
def tileK (c : BitVec 10) : Nat :=
  (match fmtClass (mcfgA c) with | 0 => 32 | 2 => 128 | _ => 64) * (1 + mcfgKs c)

/-- Bits of an element. -/
def elemBits (f : Nat) : Nat := match fmtClass f with | 0 => 16 | 2 => 4 | _ => 8

/-- Bytes of a slab of `n` rows or columns, with its scales (R448). -/
def slabBytes (c : BitVec 10) (n : Nat) : Nat :=
  n * tileK c * elemBits (mcfgA c) / 8 + (if fmtClass (mcfgA c) = 2 then n * tileK c / 32 else 0)

/-- Bytes of the C tile. -/
def tileBytes (c : BitVec 10) : Nat := 4 * tileM c * tileN c

/-! ### Elements and sums (R448, R449) -/

/-- The float of a format code. -/
def elemFmt (f : Nat) : Fmt :=
  match f with | 0 => fBF16 | 1 => fF16 | 2 => fE4M3 | 3 => fE5M2 | _ => fE2M1

/-- The pattern of element `k` of row or column `r` of a slab, and whether it is poisoned. -/
def State.slabElem (s : State) (c : BitVec 10) (f key r k : Nat) : Nat × Bool :=
  let i := tileK c * r + k
  match elemBits f with
  | 16 => (s.nat (key + 2 * i) 2, s.poisoned (key + 2 * i) 2)
  | 8 => (s.nat (key + i) 1, s.poisoned (key + i) 1)
  | _ => (field (s.nat (key + i / 2) 1) (4 * (i % 2)) 4, s.poisoned (key + i / 2) 1)

/-- Scale of element `k` of row or column `r` of an e2m1 slab of `n` rows, and whether it is poisoned. -/
def State.slabScale (s : State) (c : BitVec 10) (n key r k : Nat) : Nat × Bool :=
  let at_ := key + n * tileK c / 2 + r * tileK c / 32 + k / 32
  (s.nat at_ 1, s.poisoned at_ 1)

/-- The value of a float element with its scale; NaN for the scale 0xFF. -/
def State.slabValue (s : State) (c : BitVec 10) (f n key r k : Nat) : FV × Bool :=
  let x := s.slabElem c f key r k
  let v := unpack (elemFmt f) x.1
  if fmtClass f = 2 then
    let sc := s.slabScale c n key r k
    (match v with
      | .fin g m e => if sc.1 = 0xFF then .nan false else .fin g m (e + sc.1 - 127)
      | y => y, x.2 || sc.2)
  else (v, x.2)

/-- The exact sum of values: NaN on a NaN or on infinities of both signs; a zero sum keeps the sign that all share. -/
def exactSum (l : List FV) : FV :=
  if l.any isNaN then .nan false
  else
    let infs := l.filterMap fun v => match v with | .inf n => some n | _ => none
    match infs with
    | n :: r => if r.all (· == n) then .inf n else .nan false
    | [] =>
      let e := l.foldl (fun (acc : Int) v => match v with | .fin _ _ e => min acc e | _ => acc) 0
      let t := l.foldl (fun (acc : Int) v => match v with | .fin n m e0 => acc + atPlace n m e0 e | _ => acc) 0
      if t = 0 then .fin (!l.isEmpty && l.all negOf) 0 0 else .fin (decide (t < 0)) t.natAbs e

/-- Round to nearest even, subnormals kept, no flag (R449). -/
def rneEnv : REnv := atomEnv

/-- A value rounded into a format by rne. -/
def roundV (f : Fmt) (v : FV) : Nat :=
  match v with
  | .nan _ => canonNaN f
  | .inf n => signBit f n + infPat f
  | .fin n m e => (roundFin f rneEnv n { m := m, e := e, sticky := false }).bits

/-- One element of C after a float K-step, and whether poison reached it. -/
def State.stepFloat (s : State) (c : BitVec 10) (a b cb r col : Nat) : Nat × Bool :=
  let ps := (List.range (tileK c)).map fun k =>
    let x := s.slabValue c (mcfgA c) (tileM c) a r k
    let y := s.slabValue c (mcfgB c) (tileN c) b col k
    (mulExact x.1 y.1, x.2 || y.2)
  let at_ := cb + 4 * (tileN c * r + col)
  let bad := (ps.any fun p => p.2) || s.poisoned at_ 4
  if bad then (canonNaN fF32, true)
  else
    let p := roundV fF32 (exactSum (ps.map (·.1)))
    ((fAddV fF32 rneEnv (unpack fF32 (s.nat at_ 4)) (unpack fF32 p)).bits, false)

/-- One element of C after an integer K-step. -/
def State.stepInt (s : State) (c : BitVec 10) (sat : Bool) (a b cb r col : Nat) : Nat × Bool :=
  let ps := (List.range (tileK c)).map fun k =>
    let x := s.slabElem c 5 a r k
    let y := s.slabElem c 5 b col k
    (signedOf 8 x.1 * signedOf 8 y.1, x.2 || y.2)
  let at_ := cb + 4 * (tileN c * r + col)
  if (ps.any fun p => p.2) || s.poisoned at_ 4 then (0x80000000, true)
  else
    let t := signedOf 32 (s.nat at_ 4) + ps.foldl (fun (acc : Int) p => acc + p.1) 0
    (wrapInt 32 (if sat then max (-(2 ^ 31)) (min (2 ^ 31 - 1) t) else t), false)

/-- Write the elements of a tile, `n` bytes each, row-major. -/
def State.writeTile (s : State) (key n : Nat) (els : List Nat) : State :=
  s.writeBytes key (els.map (leBytes n)).flatten

/-- Coordinates of a tile, row-major. -/
def tileIdx (c : BitVec 10) : List (Nat × Nat) :=
  (List.range (tileM c)).flatMap fun r => (List.range (tileN c)).map fun k => (r, k)

/-! ### Operations of the sequencer (R449-R451) -/

/-- New contents of a tile and whether poison was read. -/
def State.kStep (s : State) (c : BitVec 10) (sat : Bool) (a b cb : Nat) : List (Nat × Bool) :=
  (tileIdx c).map fun x => if mcfgInt c then s.stepInt c sat a b cb x.1 x.2 else s.stepFloat c a b cb x.1 x.2

/-- Format of `mcvt` (R451). -/
def cvtFmt (o : Nat) : Fmt := match o with | 0 => fBF16 | 1 => fF16 | 2 => fE4M3 | _ => fE5M2

/-- Bytes of an `mcvt` element. -/
def cvtBytes (o : Nat) : Nat := if o < 2 then 2 else 1

/-- One element of `mcvt` (R451). -/
def State.cvtElem (s : State) (c : BitVec 10) (o : Nat) (sat : Bool) (rm key : Nat) : Nat × Bool :=
  let f := cvtFmt o
  let env : REnv := { mode := if rm = 4 then 0 else rm, ftz := false, sat := sat, r := 0, conv := true }
  let x := s.nat key 4
  if s.poisoned key 4 then (canonNaN f, true)
  else ((if mcfgInt c then cvtInt f env (signedOf 32 x) else cvtV f env (unpack fF32 x)).bits, false)

/-- An integer as a value. -/
def intV (x : Int) : FV := .fin (decide (x < 0)) x.natAbs 0

/-- One element of `mscal` (R451). -/
def State.scalElem (s : State) (c : BitVec 10) (f : W32) (key : Nat) : Nat × Bool :=
  let x := s.nat key 4
  if s.poisoned key 4 then (canonNaN fF32, true)
  else ((fMulV fF32 rneEnv (if mcfgInt c then intV (signedOf 32 x) else unpack fF32 x) (unpack fF32 f.toNat)).bits, false)

/-! ### Checks at issue (R436, R450) -/

/-- A core scratchpad range of a team. -/
def Team.coreRange (t : Team) (ea n : Nat) : Bool := decide (ea < 2 ^ 30) && (t.spadKey ea n).isSome

/-- Every slab of the steps of an `mloop` lies in the core allocation; both bases move by their increments. -/
def Team.slabsOk (t : Team) (ainc binc : Nat) : Nat → Nat → Nat → Bool
  | 0, _, _ => true
  | n + 1, a, b =>
    t.coreRange a (slabBytes t.mcfg (tileM t.mcfg)) && t.coreRange b (slabBytes t.mcfg (tileN t.mcfg))
      && t.slabsOk ainc binc n ((a + ainc) % 2 ^ 32) ((b + binc) % 2 ^ 32)

/-- Steps whose slabs have to be looked at: one when the bases do not move. -/
def stepsToCheck (ainc binc n : Nat) : Nat := if ainc % 2 ^ 32 = 0 ∧ binc % 2 ^ 32 = 0 then min n 1 else n

/-- The first check that a matrix command fails (R436). -/
def Team.matCheck (t : Team) (op : Nat) (v : List W64) : Option Cause :=
  let x := fun n => (v.getD n 0).toNat
  let wide := fun n => 2 ^ 32 ≤ x n
  let off := fun n => x n % 256 != 0
  let c := t.mcfg
  let tile := fun n => t.coreRange (x n) (tileBytes c)
  match op with
  | 1 => if wide 0 then some .illop else if off 0 then some .align else if !tile 0 then some .spaddr else none
  | 2 =>
    let ai := x 3 % 2 ^ 32
    let bi := x 4 % 2 ^ 32
    if wide 0 || wide 1 || wide 2 || wide 5 then some .illop
    else if off 0 || off 1 || off 2 || (2 ≤ x 5 && (ai % 256 != 0 || bi % 256 != 0)) then some .align
    else if x 5 != 0 && !(tile 2 && t.slabsOk ai bi (stepsToCheck ai bi (x 5)) (x 0) (x 1)) then some .spaddr
    else none
  | 3 =>
    if wide 0 || wide 1 || wide 2 then some .illop
    else if off 0 || off 1 || off 2 then some .align
    else if !(tile 2 && t.slabsOk 0 0 1 (x 0) (x 1)) then some .spaddr
    else none
  | 4 =>
    if wide 0 || wide 1 || 4 ≤ x 2 then some .illop
    else if off 0 || off 1 then some .align
    else if !(tile 0 && t.coreRange (x 1) (tileM c * tileN c * cvtBytes (x 2))) then some .spaddr
    else none
  | _ => if wide 0 then some .illop else if off 0 then some .align else if !tile 0 then some .spaddr else none

/-! ### Issue -/

/-- Matrix issue is withheld while C < MTHR (R90). -/
def State.matHeld (s : State) (core : Nat) : Bool := decide ((s.ration core).c < (s.ration core).mthr)

/-- The command that a team's sequencer holds with steps still to start (R452). -/
def Team.matBusy (t : Team) : Bool := t.mcmds.any fun m => m.rem != 0

/-- The command that a minor makes of its registers (R450). -/
def mkMat (s : State) (w : Weft) (p : Pfx) (op : Nat) (v : List W64) (tok : Option W64) : MatCmd :=
  let x := fun n => (v.getD n 0).toNat
  let m : MatCmd := { id := s.nextId, op := op, rem := 1, total := 1, abase := 0, bbase := 0, cbase := x 0, ainc := 0, binc := 0,
                      obase := 0, ofmt := 0, scale := 0, sat := p.sat, rm := rmOf w p, tok := tok, slot := w.slot,
                      status := 0 }
  match op with
  | 2 => { m with abase := x 0, bbase := x 1, cbase := x 2, ainc := x 3 % 2 ^ 32, binc := x 4 % 2 ^ 32, rem := x 5, total := x 5 }
  | 3 => { m with abase := x 0, bbase := x 1, cbase := x 2 }
  | 4 => { m with obase := x 1, ofmt := x 2 }
  | 5 => { m with scale := (v.getD 1 0).setWidth 32 }
  | _ => m

/-- A matrix command (R434, R436, R450, R452): ration withholds one that is ready but for it (R92), and one that traps at its own checks is
not debited (R90, assumption 110). -/
def matOp (op n : Nat) (p : Pfx) (d a : Opnd) (s : State) : Res :=
  issue s p (descUses a n ++ [srcS .ds d]) .active fun w g =>
    let v := (descUses a n).map fun u => s.sVal w u.o
    let tok := s.tokenOf w d
    let pay := fun s : State => if op = 2 then s else s.debitAs true w.core 32
    match s.team? w.team with
    | none => s.setWeft (w.commit p false)
    | some t =>
      if g.m != 0 && t.matBusy then s.waits w .place
      else if g.m != 0 && w.cntFull (some 3) then s.waits w .count
      else if g.m != 0 && tok.isSome && !t.tokenRoom 1 then s.waits w .queue
      else if s.matHeld w.core then s.withhold w true (if op = 2 then 0 else 32)
      else if g.m = 0 then (pay s).setWeft (w.commit p (op == 4))
      else match t.matCheck op v with
        | some c => s.trapF (w.issued p (op == 4)) c g.m
            { TInfo.none with detail := if c = .illop then 3 else 0 }
        | none =>
          let m := mkMat s w p op v tok
          let s1 := (pay { s with nextId := s.nextId + 1 }).setTeam { t with mcmds := t.mcmds ++ [m] }
          (s1.setWeft ((w.commit p (op == 4)).raise 3 m.id)).reserveToken w.team 1 tok

/-- `mcfg` (R447, R452). -/
def execMcfg (p : Pfx) (a : Opnd) (s : State) : Res :=
  issue s p (descUses a 1) .active fun w g =>
    let v := s.sVal w a
    match s.team? w.team with
    | none => s.setWeft (w.commit p false)
    | some t =>
      if g.m != 0 && !t.mcmds.isEmpty then s.waits w .place
      else if s.matHeld w.core then s.withhold w true 0
      else if g.m = 0 then s.setWeft (w.commit p false)
      else if badMcfg v then s.trapF (w.issued p false) .illop g.m { TInfo.none with detail := 3 }
      else (s.setTeam { t with mcfg := v.setWidth 10 }).setWeft (w.commit p false)

/-- `mzero` (R450). -/
def execMzero (p : Pfx) (d a : Opnd) (s : State) : Res := matOp 1 1 p d a s

/-- `mloop` (R450). -/
def execMloop (p : Pfx) (d a : Opnd) (s : State) : Res := matOp 2 6 p d a s

/-- `mstep` (R450). -/
def execMstep (p : Pfx) (d a : Opnd) (s : State) : Res := matOp 3 3 p d a s

/-- `mcvt` (R451). -/
def execMcvt (p : Pfx) (d a : Opnd) (s : State) : Res := matOp 4 3 p d a s

/-- `mscal` (R451). -/
def execMscal (p : Pfx) (d a : Opnd) (s : State) : Res := matOp 5 2 p d a s

/-! ### Running -/

/-- Key of a core scratchpad address of a team. -/
def Team.key (t : Team) (ea : Nat) : Nat := coreKey t.core (t.cbase + ea)

/-- The effect of one step of a command on memory, and whether poison was read (R449-R451). -/
def State.matStep (s : State) (t : Team) (m : MatCmd) : State × Bool :=
  let c := t.mcfg
  let cb := t.key m.cbase
  match m.op with
  | 1 => (s.writeTile cb 4 ((tileIdx c).map fun _ => 0), false)
  | 4 =>
    let r := (tileIdx c).map fun x => s.cvtElem c m.ofmt m.sat m.rm (cb + 4 * (tileN c * x.1 + x.2))
    (s.writeTile (t.key m.obase) (cvtBytes m.ofmt) (r.map (·.1)), r.any (·.2))
  | 5 =>
    let r := (tileIdx c).map fun x => s.scalElem c m.scale (cb + 4 * (tileN c * x.1 + x.2))
    (s.writeTile cb 4 (r.map (·.1)), r.any (·.2))
  | _ =>
    let r := s.kStep c m.sat (t.key m.abase) (t.key m.bbase) cb
    (s.writeTile cb 4 (r.map (·.1)), r.any (·.2))

/-- The command after one step. -/
def MatCmd.next (m : MatCmd) (poison : Bool) : MatCmd :=
  { m with rem := m.rem - 1, abase := (m.abase + m.ainc) % 2 ^ 32, bbase := (m.bbase + m.binc) % 2 ^ 32
           status := if m.status = 0 && poison then 0x12 else m.status }

/-- The context of a team runs: its sequencer starts no step under a pre-emption (R146). -/
def State.runs (s : State) (c : Nat) : Bool := (s.ctx c).st == .running

/-- Writes of the issuing weft before the command (R266). -/
def State.matWaits (s : State) (t : Team) (m : MatCmd) : Bool :=
  s.accs.any fun a => a.core == t.core && a.slot == m.slot && decide (a.op < m.id) && a.kind.writes

/-- MATRIX_KSTEP (R452): the ration check, then the next step of the team's command. -/
def execMatrixKstep (team : Nat) (s : State) : Res :=
  match s.team? team with
  | none => .next s
  | some t =>
    match t.mcmds with
    | [] => .next s
    | m :: rest =>
      if m.rem = 0 || s.matWaits t m || !s.runs t.ctx || s.power.pf != .idle then .next s
      else if m.op == 2 && s.matHeld t.core then .next (s.demand true t.core 32)
      else
        let s1 := if m.op = 2 then s.debitAs true t.core 32 else s
        let o := s1.matStep t m
        .next (o.1.setTeam { t with mcmds := m.next o.2 :: rest })

/-- MATRIX_COMPLETE (R452): c3 falls, then the token is pushed. -/
def execMatrixComplete (team : Nat) (s : State) : Res :=
  match s.team? team with
  | none => .next s
  | some t =>
    match t.mcmds with
    | [] => .next s
    | m :: rest =>
      if m.rem ≠ 0 || s.power.pf != .idle then .next s
      else
        let s1 := s.setTeam { t with mcmds := rest }
        let s2 := match s1.weft? t.core m.slot with
          | some w => s1.setWeft (w.lower 3 m.id)
          | none => s1
        .next (s2.pushToken team 1 m.tok m.status)

end Sys2Proof.Machine
end

