-- ==== Sys2Proof/Machine/Itin.lean ====
section
/-! DEFINITION. What the itinerary sequencer does inside other steps: its status block and errors (R167, R168), the
atomics it sends (R155-R157), and the retirement of a task (R162). -/

namespace Sys2Proof.Machine

/-! ### Header fields (R151) -/

def Itin.pos (t : Itin) : Nat := t.hdr 0x00 2
def Itin.npos (t : Itin) : Nat := t.hdr 0x02 2
def Itin.upeer (t : Itin) : Nat := t.hdr 0x04 2
def Itin.dpeer (t : Itin) : Nat := t.hdr 0x06 2
def Itin.naslot (t : Itin) : Nat := t.hdr 0x08 1
def Itin.ngslot (t : Itin) : Nat := t.hdr 0x09 1
def Itin.nstash (t : Itin) : Nat := t.hdr 0x0A 2
def Itin.maxrun (t : Itin) : Nat := t.hdr 0x0C 1
def Itin.wfill (t : Itin) : Bool := bitOf (t.hdr 0x0D 1) 0
def Itin.hstloc (t : Itin) : Bool := bitOf (t.hdr 0x0D 1) 1
def Itin.stepirq (t : Itin) : Bool := bitOf (t.hdr 0x0D 1) 2
def Itin.hvec (t : Itin) : Nat := t.hdr 0x0E 1
def Itin.asz (t : Itin) : Nat := t.hdr 0x14 4
def Itin.gsz (t : Itin) : Nat := t.hdr 0x18 4
def Itin.stsz (t : Itin) : Nat := t.hdr 0x1C 4
def Itin.stashva (t : Itin) : Nat := t.hdr 0x30 8
def Itin.ctlva (t : Itin) : Nat := t.hdr 0x38 8
def Itin.dnctlva (t : Itin) : Nat := t.hdr 0x48 8
def Itin.upctlva (t : Itin) : Nat := t.hdr 0x58 8
def Itin.dnaslot (t : Itin) : Nat := t.hdr 0x60 1
def Itin.upgslot (t : Itin) : Nat := t.hdr 0x61 1
def Itin.hstat (t : Itin) : Nat := t.hdr 0x68 8

/-! ### Entries (R152) -/

/-- An entry. -/
abbrev Entry := W64 × W64

def entKind (e : Entry) : Nat := field e.1.toNat 0 3
def entNua (e : Entry) : Bool := e.1.getLsbD 3
def entNdg (e : Entry) : Bool := e.1.getLsbD 4
def entStop (e : Entry) : Nat := field e.1.toNat 5 2
def entMb (e : Entry) : Nat := field e.1.toNat 8 12
def entKidx (e : Entry) : Nat := field e.1.toNat 20 6
def entOut (e : Entry) : Nat := field e.1.toNat 32 7

/-- The head entry. -/
def Itin.headEntry (t : Itin) : Entry := t.entries.getD t.head (0, 0)

/-- Free credit of the receiving inbox of a kind (R156). -/
def Itin.credit (t : Itin) (kind : Nat) : Int :=
  if kind = 0 then (t.dnaslot : Int) - ((t.resA : Int) - t.dnfreed.toNat)
  else (t.upgslot : Int) - ((t.resG : Int) - t.upfreed.toNat)

/-- The slot to consume next has arrived (R156). -/
def Itin.actArrived (t : Itin) : Bool := t.aarr.getD (t.consA % t.naslot) 0 == BitVec.ofNat 64 (t.consA + 1)
def Itin.gradArrived (t : Itin) : Bool := t.garr.getD (t.consG % t.ngslot) 0 == BitVec.ofNat 64 (t.consG + 1)

/-- A stash slot is free (R158). -/
def Itin.stashFree (t : Itin) : Bool := t.stash.contains none

/-- The reason that holds an entry back: a counter index 0-3, or none (R158, R166). -/
def Itin.entryReason (t : Itin) (e : Entry) : Option Nat :=
  if entNua e && !t.actArrived then some 0
  else if entNdg e && !t.gradArrived then some 1
  else if decide (t.credit (entKind e) < entOut e) && entOut e != 0 then some 2
  else if entStop e == 1 && !t.stashFree then some 3
  else none

/-- The reason that holds the head back (R166): 4 for a drained SYNC, 5 for a drained STEPEND. -/
def Itin.headReason (t : Itin) : Option Nat :=
  let e := t.headEntry
  if entKind e = 3 then (if t.tasks.isEmpty then some 4 else none)
  else if entKind e = 4 then (if t.tasks.isEmpty then some 5 else none)
  else t.entryReason e

/-- What the conditions of the head stand on: the head, the free run slots and stash slots that it needs, and the credit, arrival and token
words that affect it (R158, R163, R168). -/
def Itin.headView (t : Itin) : List Nat :=
  let e := t.headEntry
  let k := entKind e
  let w := fun (on : Bool) (v : W64) => if on then v.toNat else 0
  [t.head, t.syncPhase, b2n (decide (k < 3) && decide (t.tasks.length < t.maxrun)), b2n (entStop e == 1 && t.stashFree),
    w (entNua e) (t.aarr.getD (t.consA % t.naslot) 0), w (entNdg e) (t.garr.getD (t.consG % t.ngslot) 0),
    w (decide (k < 3) && entOut e != 0) (if k = 0 then t.dnfreed else t.upfreed), w (k == 3) t.syncf, w (k == 3) t.syncb]

/-- A sequencer that takes a new value: a stall that was reported is over once something that the head stands on has changed (R168). -/
def Itin.rearm (old new : Itin) : Itin := { new with stalled := new.stalled && old.headView == new.headView }

/-! ### Status block (R167) -/

/-- The status block. -/
def State.itinStatus (s : State) : List Byte :=
  let t := s.itin
  leBytes 8 s.stepCtr.toNat ++ (t.counters.flatMap fun c => leBytes 8 c.toNat) ++ leBytes 2 t.head ++ leBytes 1 t.st
    ++ leBytes 1 t.err ++ leBytes 2 t.errEntry ++ leBytes 1 (t.headReason.getD 0xFF) ++ leBytes 1 0
    ++ leBytes 8 t.dispatched ++ leBytes 8 t.upd ++ leBytes 32 0

/-- Write the status block and count the write; a fault drops it (R167). -/
def State.writeStatus (s : State) : State :=
  let s1 := { s with itin := { s.itin with upd := s.itin.upd + 1 } }
  if s1.itin.hstloc then
    match s1.itin.bound with
    | some c => (s1.vaWrite c (BitVec.ofNat 64 s1.itin.hstat) s1.itinStatus).getD s1
    | none => s1
  else (s1.hostPut s1.itin.hstat s1.itinStatus).getD s1

/-- Raise HVEC. -/
def State.raiseHvec (s : State) : State := s.emit (.msix s.itin.hvec)

/-- An itinerary error: dispatch stops, STATE 3, status block and HVEC (R168). -/
def State.itinError (s : State) (code entry : Nat) : State :=
  if s.itin.st = 1 ∨ s.itin.st = 2 then
    ({ s with itin := { s.itin with st := 3, err := code, errEntry := entry } }.writeStatus).raiseHvec
  else s

/-! ### Atomics to peers (R155) -/

/-- Fabric-window form of a peer's VA (R39). -/
def fabricVa (peer va : Nat) : W64 :=
  BitVec.ofNat 64 (2 ^ 63 + peer % 512 * 2 ^ 54 + field va 55 1 * 2 ^ 53 + va % 2 ^ 53)

/-- The core number that stands for the control plane in a packet. -/
def ctlCore : Nat := 208

/-- Send a T0 atomic of the itinerary to a word of a peer: store, or add (R155-R157); an error at the source is LINK
of the entry that is the head then (assumption 52). -/
def State.sendControl (s : State) (core : Nat) (slot : Option Nat) (peer va : Nat) (add : Bool) (v : Nat) : State :=
  let c := s.itin.bound.getD 0
  let ea := fabricVa peer va
  let fail := fun (t : State) (d : Nat) =>
    let t1 := t.itinError 4 t.itin.head
    match slot with
    | some n => t1.weftEvent core n (.fabric d)
    | none => t1
  match s.fabErr c peer (lineOf ea) with
  | some d => fail s d
  | none =>
    let off := ea.toNat % 128
    s.sendPacket { mkPacket core c peer (lineOf ea) 0 (granulesOf ((List.range 8).map (off + ·))) (if add then .atomic 1 false else .sigSet) with
      ops := [(off, BitVec.ofNat 64 v, 0)], use := .itin slot }

/-- Post to slot `q` of the receiving inbox of a task's kind: its arrival word becomes q + 1 (R156). -/
def State.postSlot (s : State) (core : Nat) (slot : Option Nat) (kind q : Nat) : State :=
  if kind = 0 then s.sendControl core slot s.itin.dpeer (s.itin.dnctlva + 8 * (q % s.itin.dnaslot)) false (q + 1)
  else s.sendControl core slot s.itin.upeer (s.itin.upctlva + 0x200 + 8 * (q % s.itin.upgslot)) false (q + 1)

/-! ### Stash -/

/-- The stash slot of a micro-batch (R160). -/
def Itin.stashOf (t : Itin) (mb : Nat) : Option Nat :=
  let i := t.stash.findIdx fun x => x == some mb
  if i < t.stash.length then some i else none

/-- Free the stash slot of a micro-batch. -/
def Itin.freeStash (t : Itin) (mb : Nat) : Itin :=
  { t with stash := t.stash.map fun x => if x = some mb then none else x }

/-! ### Retirement (R162, R157) -/

/-- Wefts of a launch. -/
def State.weftsOf (s : State) (l : Launch) : List Weft :=
  s.wefts.filter fun w => match s.team? w.team with
    | some t => t.ctx == l.ctx && t.serial == l.serial
    | none => false

/-- Post the slots that a task left unposted; each counts in ERRCNT (R157). -/
def State.fillPosts (s : State) (k : Task) : Nat → Nat → State
  | 0, _ => s
  | n + 1, j =>
    let s1 := s.postSlot ctlCore none k.kind (k.resBase + j)
    { s1 with itin := { s1.itin with counters := modAt s1.itin.counters 7 (· + 1) } }.fillPosts k n (j + 1)

/-- The credits that a task returns (R157). -/
def State.returnCredits (s : State) (k : Task) : State :=
  let s1 := if k.usedA then s.sendControl ctlCore none s.itin.upeer (s.itin.upctlva + 0x400) true 1 else s
  if k.usedG then s1.sendControl ctlCore none s1.itin.dpeer (s1.itin.dnctlva + 0x408) true 1 else s1

/-- A task retires: unposted slots, credits, stash (R157, R160, R162). -/
def State.retireTask (s : State) (k : Task) : State :=
  let s1 := (s.fillPosts k (k.nout - k.posts) k.posts).returnCredits k
  let t := if k.freeAtEnd then s1.itin.freeStash k.mb else s1.itin
  { s1 with itin := { t with tasks := t.tasks.filter fun (x : Task) => x.slot ≠ k.slot, stalled := false } }

/-- Answer the waiting `itn.next` wefts of a launch with a value. -/
def State.answerNext (s : State) (l : Launch) (v : W64) : State :=
  let mine := s.weftsOf l
  let give := fun w : Weft =>
    if w.itnNext && w.itnAnswer.isNone && mine.any (fun x => x.core == w.core && x.slot == w.slot) then
      { w with itnAnswer := some v }
    else w
  { s with wefts := s.wefts.map give }

/-- Every team of a launch is placed. -/
def Launch.allPlaced (l : Launch) : Bool := l.lrec.total ≤ l.placed

/-- A weft of the launch has exited (R162). -/
def State.someExited (s : State) (l : Launch) : Bool :=
  s.teams.any fun t => t.ctx == l.ctx && t.serial == l.serial && t.exitedMask != 0

/-- Settle a task launch: its task retires when every weft is done, and it becomes warm, or its waiting wefts get 0; once a STEP stop has come
a weft that waits gets 0 at once (R162). -/
def State.settleTask (s0 : State) (l : Launch) : State :=
  let s := if l.itn.isSome && s0.itin.stopper.isSome then s0.answerNext l 0 else s0
  let ws := s.weftsOf l
  if l.itn.isNone || !l.allPlaced || !ws.all (fun w => w.itnDone || w.exited) then s
  else
    let s1 := match l.task with
      | none => s
      | some k =>
        let t := match s.itin.tasks.find? fun (x : Task) => x.slot == k && x.serial == l.serial with
          | some x => s.retireTask x
          | none => s
        t.setLaunch { l with task := none }
    match s1.launch? l.ctx l.serial with
    | none => s1
    | some l1 =>
      if !ws.all (fun w => w.exited || (w.itnNext && w.itnAnswer.isNone)) then s1
      else if decide (0 < l1.retired) || s1.someExited l1 || s1.itin.stopper.isSome || s1.itin.bound != some l.ctx then
        s1.answerNext l1 0
      else s1.setLaunch { l1 with warm := true }

/-- Settle the task launch of a weft, if it is in one. -/
def State.taskOf (s : State) (w : Weft) : State :=
  match s.launchOf w with
  | some l => s.settleTask l
  | none => s

end Sys2Proof.Machine
end

