-- ==== Sys2Proof/Machine/System.lean ====
section
/-! DEFINITION. System instructions and the software trap (R328-R336). -/

namespace Sys2Proof.Machine

/-- A weft-wide instruction with no operand of its own but its guard. -/
def execBare (s : State) (p : Pfx) (f : State → Weft → State) : Res := execWide s p [] fun s w _ => f s w

/-- `nop` (R329). -/
def execNop (p : Pfx) (s : State) : Res := execBare s p fun s w => s.setWeft (w.commit p false)

/-- `brk` (R330, R293): halts under an attached debugger, else BRK after the instruction. -/
def execBrk (p : Pfx) (b : BitVec 7) (s : State) : Res :=
  issue s p [] .active fun w g =>
    let w1 := w.commit p false
    if g.m = 0 then s.setWeft w1
    else if s.debug = some w.ctx then s.setWeft { w1 with halted := true, stopped := some .debug }
    else s.trapNext { w with rctr := w1.rctr } .brk g.m { TInfo.none with imm := b.toNat } (w.nextPc p)

/-- A weft leaves: it issues nothing further, its hold and its share of a knotless wait end (R331, R148). -/
def State.leave (s : State) (w : Weft) : State :=
  let s1 := s.setWeft { w.afterGroup with exited := true, triggered := true, hold := false, halted := false }
  let s2 := match s1.team? w.team with
    | some t => s1.setTeam ({ t with exitedMask := t.exitedMask ||| BitVec.ofNat 32 (2 ^ w.wid) }.openBars)
    | none => s1
  s2.taskOf w

/-- `exit` (R331, R260): a release at pkg and, for fabric stores, sys scope; then the weft ends. -/
def execExit (p : Pfx) (s : State) : Res :=
  execBare s p fun s w => s.release w 5 fun s => s.leave (w.commit p false)

/-- `tret` (R276, R332): with TM = 0 it is an ILLOP of stage 2, ahead of its guard (R280). -/
def execTret (p : Pfx) (s : State) : Res :=
  match s.weft? s.focus.1 s.focus.2 with
  | some w => if w.tm then execBare s p fun s w => s.tret w p else .next (s.tret w p)
  | none => .fault .noWeft

/-- `yield` (R329). -/
def execYield (p : Pfx) (s : State) : Res :=
  execBare s p fun s w => s.setWeft { w.commit p false with yielded := true, age := 0, readyCnt := 0 }

/-- `trig` (R131, R260): a release, then the weft counts as triggered. -/
def execTrig (p : Pfx) (s : State) : Res :=
  execBare s p fun s w => s.release w 5 fun s => s.setWeft { w.commit p false with triggered := true }

/-- `rgn` (R283). -/
def execRgn (p : Pfx) (s : State) : Res :=
  execBare s p fun s w =>
    s.setWeft { w.commit p false with rgnpc := w.nextPc p, rgncnt := w.rgncnt + 1, rgnem := w.em }

/-- `ifence` (R272): an acquire fence, then every line of the core's instruction cache is dropped, and with it what is being fetched. -/
def execIfence (p : Pfx) (s : State) : Res :=
  execBare s p fun s w => s.fenceAcq w p.scope fun s => (s.dropCode w.core fun _ => true).setWeft (w.commit p false)

/-- `win` (R333). -/
def execWin (p : Pfx) (b : BitVec 7) (s : State) : Res :=
  execBare s p fun s w =>
    let n := 8 * b.toNat
    if (64 ≤ w.n ∧ w.n < n + 64) ∨ (w.n < 64 ∧ n ≠ 0) then s.trapF w .regrange (w.effMask p) TInfo.none
    else s.setWeft { w.commit p false with wb := n }

/-- What a `sleep` of `n` cycles leaves to run as its group issues: the rest of this cycle, and `n` more (R329). -/
def sleepFor (n : Nat) : Nat := if n = 0 then 0 else n + 1

/-- `sleep` (R329). -/
def execSleep (p : Pfx) (a : Opnd) (s : State) : Res :=
  execWide s p [srcS .a a] fun s w v =>
    s.setWeft { w.commit p false with sleep := sleepFor (field (v.getD 0 0).toNat 0 20) }

/-- The value of a special register (R232). -/
def State.special (s : State) (w : Weft) (n : Nat) : W64 :=
  let t := s.team? w.team
  let l := s.launchOf w
  match n with
  | 1 => BitVec.ofNat 64 w.wid
  | 2 => BitVec.ofNat 64 ((t.map Team.idx).getD 0)
  | 3 => BitVec.ofNat 64 ((l.map fun l => l.lrec.gx * l.lrec.gy * l.lrec.gz).getD 0)
  | 4 => BitVec.ofNat 64 w.core
  | 5 => BitVec.ofNat 64 (clusOf w.core)
  | 6 => BitVec.ofNat 64 (dieOf w.core)
  | 7 => s.fab.pkgid.setWidth 64
  | 8 => ((s.dieStep.getD (dieOf w.core) 0).setWidth 32).setWidth 64
  | 9 => w.seed.setWidth 64
  | 10 => w.fpmode.setWidth 64
  | 11 => w.fpflags.setWidth 64
  | 12 => w.tpc
  | 13 => w.tcause.setWidth 64
  | 14 => w.tmask
  | 15 => w.tinfo
  | 16 => w.rgnpc
  | 17 => w.rgncnt.setWidth 64
  | 18 => s.clocks.getD (dieOf w.core) 0
  | 19 => BitVec.ofNat 64 (b2n w.err)
  | 20 => BitVec.ofNat 64 (b2n w.execRole)
  | 21 => BitVec.ofNat 64 w.wb
  | 22 => BitVec.ofNat 64 w.n
  | 23 => BitVec.ofNat 64 ((t.map Team.serial).getD 0 % 2 ^ 32)
  | 24 => w.rctr.setWidth 64
  | _ => 0

/-- `getsr` (R334): lane into a vector destination, every other register into a scalar one. -/
def execGetsr (p : Pfx) (d : Opnd) (b : BitVec 7) (s : State) : Res :=
  if b.toNat = 0 then execLanes false false s p [] (dstV d 1) false fun _ _ _ => VRes.ofVals [.a 0 1]
  else execScalar s p [] d fun w _ => s.special w b.toNat

/-- A special register written to its field width (R335, R233, R386); the caller has dealt with `rctr`. -/
def Weft.setSpecial (w : Weft) (n : Nat) (v : W64) : Weft :=
  match n with
  | 9 => { w with seed := v.setWidth 32 }
  | 10 => { w with fpmode := fpmodeWrite v }
  | 11 => { w with fpflags := v.setWidth 5 }
  | 12 => { w with tpc := v &&& ~~~(3 : W64) }
  | 13 => { w with tcause := v.setWidth 8 }
  | 14 => { w with tmask := v }
  | 15 => { w with tinfo := (v &&& ~~~(0xFE000000 : W64)) ||| (w.tinfo &&& 0xFE000000) }
  | 19 => { w with err := v.getLsbD 0 }
  | 24 => { w with rctr := v.setWidth 32 }
  | _ => w

/-- `setsr` (R335): takes effect for the next group; a written `rctr` is not advanced by its own group. -/
def execSetsr (p : Pfx) (a : Opnd) (b : BitVec 7) (s : State) : Res :=
  issue s p [srcS .a a] .active fun w g =>
    if g.m = 0 then s.setWeft (w.commit p false)
    else (s.popUses w g.m [srcS .a a]).setWeft ((w.commit p false).setSpecial b.toNat (s.sVal w a))

/-- `trap` (R336): SWTRAP after the instruction. -/
def execTrap (p : Pfx) (i : BitVec 12) (s : State) : Res :=
  issue s p [] .active fun w g =>
    let w1 := w.commit p false
    if g.m = 0 then s.setWeft w1
    else s.trapNext { w with rctr := w1.rctr } .swtrap g.m
      { TInfo.none with imm := ((immI p i).setWidth 32).toNat } (w.nextPc p)

end Sys2Proof.Machine
end

