-- ==== Sys2Proof/Machine/VectorInt.lean ====
section
/-! DEFINITION. Vector integer instructions (R356-R362) and float compares (R363). -/

namespace Sys2Proof.Machine

/-- Source `n` of a vector instruction, its first register. -/
def arg (v : List (List VVal)) (n : Nat) : VVal := (v.getD n []).headD (.u 0)

/-- Source `n`, its second register. -/
def argHi (v : List (List VVal)) (n : Nat) : VVal := (v.getD n []).getD 1 (.u 0)

/-- A one-source lane instruction. -/
def vec1 (p : Pfx) (d a : Opnd) (f : VVal → VVal) (s : State) : Res :=
  execVec s p [srcV .a a 1] (dstV d 1) false fun _ _ v => VRes.ofVals [f (arg v 0)]

/-- A two-source lane instruction. -/
def vec2 (p : Pfx) (d a b : Opnd) (f : VVal → VVal → VVal) (s : State) : Res :=
  execVec s p [srcV .a a 1, srcV .b b 1] (dstV d 1) false fun _ _ v => VRes.ofVals [f (arg v 0) (arg v 1)]

/-- A lane instruction that reads D as its third source. -/
def vec3 (p : Pfx) (d a b : Opnd) (f : VVal → VVal → VVal → VVal) (s : State) : Res :=
  execVec s p [srcV .a a 1, srcV .b b 1, srcV .ds d 1] (dstV d 1) false fun _ _ v =>
    VRes.ofVals [f (arg v 0) (arg v 1) (arg v 2)]

/-- An immediate lane instruction: imm[31:0] is a U source (R360). -/
def vecI (p : Pfx) (d a : Opnd) (i : BitVec 12) (f : VVal → VVal → VVal) (s : State) : Res :=
  vec1 p d a (fun x => f x (.u ((immI p i).setWidth 32))) s

/-! ### Lane functions -/

/-- Clamp to the signed 32-bit range (R357). -/
def clamp32 (x : Int) : W32 :=
  if x < -(2 ^ 31) then BitVec.ofInt 32 (-(2 ^ 31)) else if 2 ^ 31 - 1 < x then BitVec.ofInt 32 (2 ^ 31 - 1)
  else BitVec.ofInt 32 x

/-- Clamp to 0 … 2^32 − 1 (R356). -/
def clampN32 (x : Int) : W32 := if x < 0 then 0 else if 2 ^ 32 - 1 < x then BitVec.allOnes 32 else BitVec.ofInt 32 x

/-- Addition with its affine tags (R209); SAT clamps (R357). -/
def addT (sat : Bool) (x y : VVal) : VVal :=
  if sat then lift2 (fun a b => clamp32 (a.toInt + b.toInt)) x y
  else match x, y with
    | .a b1 d1, .u c => .a (b1 + c) d1
    | .u c, .a b1 d1 => .a (b1 + c) d1
    | .a b1 d1, .a b2 d2 => .a (b1 + b2) (d1 + d2)
    | x, y => lift2 (· + ·) x y

/-- Subtraction with its affine tags (R209); SAT clamps. -/
def subT (sat : Bool) (x y : VVal) : VVal :=
  if sat then lift2 (fun a b => clamp32 (a.toInt - b.toInt)) x y
  else match x, y with
    | .a b1 d1, .u c => .a (b1 - c) d1
    | .u c, .a b2 d2 => .a (c - b2) (-d2)
    | .a b1 d1, .a b2 d2 => .a (b1 - b2) (d1 - d2)
    | x, y => lift2 (· - ·) x y

/-- Multiplication with its affine tags (R209); SAT clamps. -/
def mulT (sat : Bool) (x y : VVal) : VVal :=
  if sat then lift2 (fun a b => clamp32 (a.toInt * b.toInt)) x y
  else match x, y with
    | .a b d, .u c => .a (b * c) (d * c)
    | .u c, .a b d => .a (b * c) (d * c)
    | x, y => lift2 (· * ·) x y

/-- Left shift with its affine tag (R209). -/
def shlT (x y : VVal) : VVal :=
  match x, y with
  | .a b d, .u k => .a (b <<< (k.toNat % 32)) (d <<< (k.toNat % 32))
  | x, y => lift2 (fun a k => a <<< (k.toNat % 32)) x y

/-- Logical right shift. -/
def shrT : VVal → VVal → VVal := lift2 fun a k => a >>> (k.toNat % 32)

/-- Arithmetic right shift. -/
def sraT : VVal → VVal → VVal := lift2 fun a k => a.sshiftRight (k.toNat % 32)

/-- Leading zero bits of a 32-bit value (R356). -/
def lead32 (a : W32) : W32 := BitVec.ofNat 32 (32 - bitLen a.toNat)

/-- One bits of a 32-bit value. -/
def pop32 (a : W32) : W32 := BitVec.ofNat 32 (((List.range 32).filter a.getLsbD).length)

/-- Bit reversal of a 32-bit value. -/
def rev32 (a : W32) : W32 := BitVec.ofNat 32 ((List.range 32).foldl (fun r i => 2 * r + b2n (a.getLsbD i)) 0)

/-- Position and width of a bit field (R358). -/
def bfPos (b : W32) : Nat := field b.toNat 0 5
def bfWidth (b : W32) : Nat := min (field b.toNat 8 6) (32 - bfPos b)

/-- `vbfe` on a lane (R358). -/
def bfExtract (a b : W32) : W32 := BitVec.ofNat 32 (field a.toNat (bfPos b) (bfWidth b))

/-- `vbfes` on a lane (R358). -/
def bfExtractS (a b : W32) : W32 :=
  if bfWidth b = 0 then 0 else BitVec.ofInt 32 (signedOf (bfWidth b) (a.toNat >>> bfPos b))

/-- `vbfi` on a lane (R358). -/
def bfInsert (a b d : W32) : W32 :=
  let m : W32 := BitVec.ofNat 32 ((2 ^ bfWidth b - 1) * 2 ^ bfPos b)
  (d &&& ~~~m) ||| ((a <<< bfPos b) &&& m)

/-- A 64-bit pair operation (R359). -/
def wide2 (p : Pfx) (d a b : Opnd) (f : W64 → W64 → W64) (s : State) : Res :=
  execVec s p [srcV .a a 2, srcV .b b 2] (dstV d 2) false fun _ _ v =>
    VRes.ofVals (lift64 f (arg v 0) (argHi v 0) (arg v 1) (argHi v 1))

/-! ### The minors of VINT -/

/-- `vadd`: (a + b) mod 2^32, clamped under SAT (R356). -/
def execVadd (p : Pfx) (d a b : Opnd) (s : State) : Res := vec2 p d a b (addT p.sat) s

/-- `vsub`: (a − b) mod 2^32, clamped under SAT (R356). -/
def execVsub (p : Pfx) (d a b : Opnd) (s : State) : Res := vec2 p d a b (subT p.sat) s

/-- `vmul`: (a × b) mod 2^32, clamped under SAT (R356). -/
def execVmul (p : Pfx) (d a b : Opnd) (s : State) : Res := vec2 p d a b (mulT p.sat) s

/-- `vmulhi`: bits [63:32] of the signed product (R356). -/
def execVmulhi (p : Pfx) (d a b : Opnd) (s : State) : Res := vec2 p d a b (lift2 fun a b => BitVec.ofInt 32 (a.toInt * b.toInt / 2 ^ 32)) s

/-- `vmulhn`: bits [63:32] of the unsigned product (R356). -/
def execVmulhn (p : Pfx) (d a b : Opnd) (s : State) : Res := vec2 p d a b (lift2 fun a b => BitVec.ofNat 32 (a.toNat * b.toNat / 2 ^ 32)) s

/-- `vand`: a AND b (R356). -/
def execVand (p : Pfx) (d a b : Opnd) (s : State) : Res := vec2 p d a b (lift2 fun a b => a &&& b) s

/-- `vor`: a OR b (R356). -/
def execVor (p : Pfx) (d a b : Opnd) (s : State) : Res := vec2 p d a b (lift2 fun a b => a ||| b) s

/-- `vxor`: a XOR b (R356). -/
def execVxor (p : Pfx) (d a b : Opnd) (s : State) : Res := vec2 p d a b (lift2 fun a b => a ^^^ b) s

/-- `vandn`: a AND NOT b (R356). -/
def execVandn (p : Pfx) (d a b : Opnd) (s : State) : Res := vec2 p d a b (lift2 fun a b => a &&& ~~~b) s

/-- `vshl`: left shift by b mod 32 (R356). -/
def execVshl (p : Pfx) (d a b : Opnd) (s : State) : Res := vec2 p d a b (shlT) s

/-- `vshr`: right shift by b mod 32, zeros in (R356). -/
def execVshr (p : Pfx) (d a b : Opnd) (s : State) : Res := vec2 p d a b (shrT) s

/-- `vsra`: right shift by b mod 32, copies of the sign in (R356). -/
def execVsra (p : Pfx) (d a b : Opnd) (s : State) : Res := vec2 p d a b (sraT) s

/-- `vmin`: signed minimum (R356). -/
def execVmin (p : Pfx) (d a b : Opnd) (s : State) : Res := vec2 p d a b (lift2 fun a b => if a.toInt ≤ b.toInt then a else b) s

/-- `vmax`: signed maximum (R356). -/
def execVmax (p : Pfx) (d a b : Opnd) (s : State) : Res := vec2 p d a b (lift2 fun a b => if a.toInt ≤ b.toInt then b else a) s

/-- `vminn`: unsigned minimum (R356). -/
def execVminn (p : Pfx) (d a b : Opnd) (s : State) : Res := vec2 p d a b (lift2 fun a b => if a.toNat ≤ b.toNat then a else b) s

/-- `vmaxn`: unsigned maximum (R356). -/
def execVmaxn (p : Pfx) (d a b : Opnd) (s : State) : Res := vec2 p d a b (lift2 fun a b => if a.toNat ≤ b.toNat then b else a) s

/-- `vabsd`: abs(sa − sb) as an unsigned value (R356). -/
def execVabsd (p : Pfx) (d a b : Opnd) (s : State) : Res := vec2 p d a b (lift2 fun a b => BitVec.ofNat 32 (a.toInt - b.toInt).natAbs) s

/-- `vsadd`: sum clamped to signed (R356). -/
def execVsadd (p : Pfx) (d a b : Opnd) (s : State) : Res := vec2 p d a b (lift2 fun a b => clamp32 (a.toInt + b.toInt)) s

/-- `vssub`: difference clamped to signed (R356). -/
def execVssub (p : Pfx) (d a b : Opnd) (s : State) : Res := vec2 p d a b (lift2 fun a b => clamp32 (a.toInt - b.toInt)) s

/-- `vsaddn`: sum clamped to 0 … 2^32 − 1 (R356). -/
def execVsaddn (p : Pfx) (d a b : Opnd) (s : State) : Res := vec2 p d a b (lift2 fun a b => clampN32 (a.toNat + b.toNat)) s

/-- `vssubn`: difference clamped to 0 … 2^32 − 1 (R356). -/
def execVssubn (p : Pfx) (d a b : Opnd) (s : State) : Res := vec2 p d a b (lift2 fun a b => clampN32 ((a.toNat : Int) - b.toNat)) s

/-- `vbfe`: bit-field extract (R358) (R356). -/
def execVbfe (p : Pfx) (d a b : Opnd) (s : State) : Res := vec2 p d a b (lift2 bfExtract) s

/-- `vbfes`: signed bit-field extract (R358) (R356). -/
def execVbfes (p : Pfx) (d a b : Opnd) (s : State) : Res := vec2 p d a b (lift2 bfExtractS) s

/-- `vabs`: abs(sa), clamped under SAT (R356). -/
def execVabs (p : Pfx) (d a : Opnd) (s : State) : Res := vec1 p d a (lift1 fun a => if p.sat then clamp32 a.toInt.natAbs else BitVec.ofNat 32 a.toInt.natAbs) s

/-- `vclz`: leading zero bits (R356). -/
def execVclz (p : Pfx) (d a : Opnd) (s : State) : Res := vec1 p d a (lift1 lead32) s

/-- `vpopc`: one bits (R356). -/
def execVpopc (p : Pfx) (d a : Opnd) (s : State) : Res := vec1 p d a (lift1 pop32) s

/-- `vbrev`: bit reversal (R356). -/
def execVbrev (p : Pfx) (d a : Opnd) (s : State) : Res := vec1 p d a (lift1 rev32) s

/-- `vmad`: (a × b + d) mod 2^32, clamped under SAT (R356). -/
def execVmad (p : Pfx) (d a b : Opnd) (s : State) : Res :=
  vec3 p d a b
    (lift3 fun a b d => if p.sat then clamp32 (a.toInt * b.toInt + d.toInt) else a * b + d) s

/-- `vbfi`: bit-field insert (R358). -/
def execVbfi (p : Pfx) (d a b : Opnd) (s : State) : Res := vec3 p d a b (lift3 bfInsert) s

/-- `vaddw`: 64-bit sum of pairs, clamped under SAT (R359). -/
def execVaddw (p : Pfx) (d a b : Opnd) (s : State) : Res := wide2 p d a b (satAdd p) s

/-- `vsubw`: 64-bit difference of pairs, clamped under SAT (R359). -/
def execVsubw (p : Pfx) (d a b : Opnd) (s : State) : Res := wide2 p d a b (satSub p) s

/-! ### Immediate forms (R360) -/

/-- `vaddi`: as `vadd` with an immediate (R360). -/
def execVaddi (p : Pfx) (d a : Opnd) (i : BitVec 12) (s : State) : Res := vecI p d a i (addT p.sat) s

/-- `vandi`: as `vand` with an immediate (R360). -/
def execVandi (p : Pfx) (d a : Opnd) (i : BitVec 12) (s : State) : Res := vecI p d a i (lift2 fun a b => a &&& b) s

/-- `vshli`: as `vshl` with an immediate (R360). -/
def execVshli (p : Pfx) (d a : Opnd) (i : BitVec 12) (s : State) : Res := vecI p d a i (shlT) s

/-- `vshri`: as `vshr` with an immediate (R360). -/
def execVshri (p : Pfx) (d a : Opnd) (i : BitVec 12) (s : State) : Res := vecI p d a i (shrT) s

/-- `vsrai`: as `vsra` with an immediate (R360). -/
def execVsrai (p : Pfx) (d a : Opnd) (i : BitVec 12) (s : State) : Res := vecI p d a i (sraT) s

/-- `vmuli`: as `vmul` with an immediate (R360). -/
def execVmuli (p : Pfx) (d a : Opnd) (i : BitVec 12) (s : State) : Res := vecI p d a i (mulT p.sat) s

/-! ### Compares (R361-R363) -/

/-- An integer condition (R362): eq, ne, lt, le, gt, ge, un, ord. -/
def intCond (c : Nat) (a b : Int) : Bool :=
  match c with
  | 0 => a == b | 1 => a != b | 2 => a < b | 3 => a ≤ b | 4 => b < a | 5 => b ≤ a | 6 => false | _ => true

/-- A compare of one lane and the NV flag it raises. -/
def cmpLane (c t : Nat) (a b : W32) : Bool × Nat :=
  match t with
  | 0 => (intCond c a.toInt b.toInt, 0)
  | 1 => (intCond c a.toNat b.toNat, 0)
  | _ => fCond c (unpack fF32 a.toNat) (unpack fF32 b.toNat)

/-- A packed compare of one lane (R363). -/
def cmphLane (c t : Nat) (a b : W32) : Bool × Nat :=
  let f := if t < 2 then fF16 else fBF16
  let k := 16 * (t % 2)
  fCond c (unpack f (field a.toNat k 16)) (unpack f (field b.toNat k 16))

/-- A compare into a lane mask (R361): bits of inactive lanes are 0. -/
def compare2 (p : Pfx) (d a b : Opnd) (f : W32 → W32 → Bool × Nat) (s : State) : Res :=
  execVec s p [srcV .a a 1, srcV .b b 1] (dstS d) false fun _ m v =>
    let r := fun i => f ((arg v 0).lane i) ((arg v 1).lane i)
    { vals := [], sc := some (maskOf fun i => inMask m i && (r i).1)
      fl := BitVec.ofNat 5 ((activeLanes m).foldl (fun acc i => acc ||| (r i).2) 0) }

/-- `vcmp` (R361-R363): types 0 i32, 1 n32, 2 f32. -/
def execVcmp (p : Pfx) (d a b : Opnd) (c : BitVec 3) (t : BitVec 2) (s : State) : Res :=
  compare2 p d a b (cmpLane c.toNat t.toNat) s

/-- `vcmph` (R361, R363). -/
def execVcmph (p : Pfx) (d a b : Opnd) (c : BitVec 3) (t : BitVec 2) (s : State) : Res :=
  compare2 p d a b (cmphLane c.toNat t.toNat) s

end Sys2Proof.Machine
end

