-- ==== Sys2Proof/Machine/Lane.lean ====
section
/-! DEFINITION. Lane moves (R364-R368). -/

namespace Sys2Proof.Machine

/-- The low 6 bits of a scalar: a lane number (R364). -/
def laneNo (x : VVal) : Nat := field (x.lane 0).toNat 0 6

/-- The lane values of a source rearranged: U when it is U, else G (R365). -/
def moveLanes (x : VVal) (f : Nat → Nat) : VVal :=
  match x with
  | .u c => .u c
  | x => .g (laneIdx.map fun i => x.lane (f i))

/-- A move of lanes by a scalar amount (R365). -/
def shiftLanes (p : Pfx) (d a b : Opnd) (f : Nat → Nat → Nat) (s : State) : Res :=
  execVec s p [srcV .a a 1, srcS .b b] (dstV d 1) false fun _ _ v =>
    VRes.ofVals [moveLanes (arg v 0) (f (laneNo (arg v 1)))]

/-- The operand is a vector destination (R310). -/
def isVecDst : Opnd → Bool
  | .v _ => true
  | .x _ => true
  | .q n => n.val == 5
  | _ => false

/-- `vmov`: r[i] := A[i], with A's tag (R365). -/
def execVmov (p : Pfx) (d a : Opnd) (s : State) : Res := vec1 p d a (fun x => x) s

/-- `vbcast`: lane L of A in every lane, read whatever the mask (R365). -/
def execVbcast (p : Pfx) (d a b : Opnd) (s : State) : Res :=
  execVec s p [srcV .a a 1, srcS .b b] (dstV d 1) false fun _ _ v =>
    VRes.ofVals [.u ((arg v 0).lane (laneNo (arg v 1)))]

/-- `vlget`: lane L of A, zero-extended (R367). -/
def execVlget (p : Pfx) (d a b : Opnd) (s : State) : Res :=
  execVec s p [srcV .a a 1, srcS .b b] (dstS d) false fun _ _ v =>
    VRes.ofSc (((arg v 0).lane (laneNo (arg v 1))).setWidth 64)

/-- `vlset`: writes lane L of D when it is active; D becomes G (R367). -/
def execVlset (p : Pfx) (d a b : Opnd) (s : State) : Res :=
  issue s p [srcS .a a, srcS .b b, srcV .d d 1] .active fun w g =>
    let l := field (s.sVal w b).toNat 0 6
    let s0 := s.debit w.core (quarters g.m)
    let s1 := if g.m = 0 then s0 else s0.popUses w g.m [srcS .a a, srcS .b b]
    if (s.ration w.core).c < 0 then s.withhold w false 1
    else if inMask g.m l then
      s1.setWeft ((w.setLane (w.wb + opndNum d) l ((s.sVal w a).setWidth 32)).commit p false)
    else s1.setWeft (w.commit p false)

/-- `vshape`: with a vector D the narrowest tag (R365), with an s register the tag codes (R366). -/
def execVshape (p : Pfx) (d a : Opnd) (s : State) : Res :=
  if isVecDst d then vec1 p d a VVal.narrowest s
  else execVec s p [srcV .a a 1] (dstS d) false fun _ _ v =>
    VRes.ofSc (BitVec.ofNat 64 ((arg v 0).tag + 4 * (arg v 0).narrowest.tag))

/-- `vaffine`: A(s[A][31:0], s[B][31:0]) (R365). -/
def execVaffine (p : Pfx) (d a b : Opnd) (s : State) : Res :=
  execVec s p [srcS .a a, srcS .b b] (dstV d 1) false fun _ _ v =>
    VRes.ofVals [.a ((arg v 0).lane 0) ((arg v 1).lane 0)]

/-- `vperm`: r[i] := A[B[i][5:0]]; U when both sources are U (R365). -/
def execVperm (p : Pfx) (d a b : Opnd) (s : State) : Res :=
  vec2 p d a b (fun x y =>
    match x, y with
    | .u c, .u _ => .u c
    | x, y => .g (laneIdx.map fun i => x.lane (field (y.lane i).toNat 0 6))) s

/-- `vshup` (R365). -/
def execVshup (p : Pfx) (d a b : Opnd) (s : State) : Res :=
  shiftLanes p d a b (fun k i => if k ≤ i then i - k else i) s

/-- `vshdn` (R365). -/
def execVshdn (p : Pfx) (d a b : Opnd) (s : State) : Res :=
  shiftLanes p d a b (fun k i => if i + k ≤ 63 then i + k else i) s

/-- `vshxor` (R365). -/
def execVshxor (p : Pfx) (d a b : Opnd) (s : State) : Res := shiftLanes p d a b (fun k i => i ^^^ k) s

/-- `vballot`: the active lanes that are not 0 (R368). -/
def execVballot (p : Pfx) (d a : Opnd) (s : State) : Res :=
  execVec s p [srcV .a a 1] (dstS d) false fun _ m v =>
    VRes.ofSc (maskOf fun i => inMask m i && (arg v 0).lane i != 0)

/-- `vbits`: bit `b` of the active lanes (R368). -/
def execVbits (p : Pfx) (d a : Opnd) (b : BitVec 7) (s : State) : Res :=
  execVec s p [srcV .a a 1] (dstS d) false fun _ m v =>
    VRes.ofSc (maskOf fun i => inMask m i && ((arg v 0).lane i).getLsbD b.toNat)

end Sys2Proof.Machine
end

