-- ==== Sys2Proof/Machine/Xreg.lean ====
section
/-! DEFINITION. Index register instructions (R374-R376). The operand that names the index register makes no indirect
access, so it is no use of R217. -/

namespace Sys2Proof.Machine

/-- Change an index register. -/
def Weft.setX (w : Weft) (k : Nat) (f : XReg → XReg) : Weft := { w with xregs := modAt w.xregs k f }

/-- The descriptor word of an index register (R216). -/
def XReg.word (x : XReg) : W64 :=
  BitVec.ofNat 64 (x.base + 2 ^ 9 * x.bound + 2 ^ 18 * x.step.toNat + 2 ^ 22 * x.mode.toNat)

/-- A descriptor word that `xset` refuses in a weft of `n` registers (R216). -/
def xdescBad (n : Nat) (v : W64) : Bool :=
  field v.toNat 24 40 != 0 || field v.toNat 9 9 == 0 || n < field v.toNat 0 9 + field v.toNat 9 9

/-- An index register with the fields of a descriptor word (R216). -/
def XReg.load (x : XReg) (v : W64) : XReg :=
  { x with base := field v.toNat 0 9, bound := field v.toNat 9 9, step := v.extractLsb' 18 4,
           mode := v.extractLsb' 22 2 }

/-- Offsets of the active lanes changed (R375). -/
def XReg.offsets (x : XReg) (m : W64) (f : Nat → BitVec 8 → BitVec 8) : XReg :=
  { x with off := laneIdx.map fun i => if inMask m i then f i (x.off.getD i 0) else x.off.getD i 0 }

/-- `xset` (R375). -/
def execXset (p : Pfx) (d a : Opnd) (s : State) : Res :=
  issue s p [srcS .a a] .active fun w g =>
    let v := s.sVal w a
    if g.m = 0 then s.setWeft (w.commit p false)
    else if xdescBad w.n v then s.trapF w .regrange g.m TInfo.none
    else (s.popUses w g.m [srcS .a a]).setWeft ((w.setX (opndNum d) (·.load v)).commit p false)

/-- A use that waits on no busy range (R376). -/
def Use.xreg (u : Use) : Use := { u with waits := false }

/-- Offsets written from a vector source in the active lanes. -/
def xWrite (p : Pfx) (d a : Opnd) (f : BitVec 8 → BitVec 8 → BitVec 8) (s : State) : Res :=
  issue s p [(srcV .a a 1).xreg] .active fun w g =>
    let v := (s.vVal w g.m (srcV .a a 1) []).headD (.u 0)
    let s1 := if g.m = 0 then s else s.popUses w g.m [srcV .a a 1]
    s1.setWeft ((w.setX (opndNum d) fun x => x.offsets g.m fun i o => f o ((v.lane i).setWidth 8)).commit p false)

/-- `xoff` (R375). -/
def execXoff (p : Pfx) (d a : Opnd) (s : State) : Res := xWrite p d a (fun _ v => v) s

/-- `xadd` (R375). -/
def execXadd (p : Pfx) (d a : Opnd) (s : State) : Res := xWrite p d a (fun o v => o + v) s

/-- `xclr` (R375). -/
def execXclr (p : Pfx) (d : Opnd) (s : State) : Res :=
  issue s p [] .active fun w g =>
    s.setWeft ((w.setX (opndNum d) fun x => x.offsets g.m fun _ _ => 0).commit p false)

/-- `xget` (R375). -/
def execXget (p : Pfx) (d a : Opnd) (s : State) : Res :=
  execScalar s p [] d fun w _ => (w.xreg (opndNum a)).word

/-- `xgetc` (R375): its result is G. -/
def execXgetc (p : Pfx) (d a : Opnd) (s : State) : Res :=
  execLanes false false s p [] (dstV d 1).xreg false fun w _ _ =>
    VRes.ofVals [.g (laneIdx.map fun i => ((w.xreg (opndNum a)).off.getD i 0).setWidth 32)]

end Sys2Proof.Machine
end

