-- ==== Sys2Proof/Machine/Save.lean ====
section
/-! DEFINITION. How a weft stops for a save (R146, R288, R294, R431, R465), and the context save record (R295-R298). -/

namespace Sys2Proof.Machine

/-! ### Backing a group out -/

/-- A read of a wait leaves the machine, and the channel that holds its request gives it up. -/
def State.dropWait (s : State) (id : Nat) : State :=
  { s.dropAcc id with holds := s.holds.filter fun h => h.acc ≠ some id }

/-- The wait of a weft counts as not issued (R288, R431, R465), and one that is blocked on a register is marked for its record (R146): a
`swait` and a `lnch` check leave the machine, and the destination of a `swait` is full with its old value; an `itn.next` without an answer has
not ended its part of the task. -/
def State.backOut (s : State) (w : Weft) : State × Weft :=
  let w0 := { w with waiting := if w.waiting = some .register then w.waiting else none, itnNext := false
                     itnDone := if w.itnNext && w.itnAnswer.isNone then w.itnWas else w.itnDone }
  match w.unsettled.bind s.acc? with
  | none => (s, w0)
  | some a =>
    match a.kind with
    | .swait _ _ => (s.dropWait a.id, ({ w0 with waiting := none }.fillDest a.dst true).detach a)
    | .launch _ _ _ => (s.dropWait a.id, { w0 with waiting := none }.detach a)
    | _ => (s, w)

/-- A weft is at a group boundary, or waits in an instruction that can be backed out. -/
def State.atBoundary (s : State) (w : Weft) : Bool := (s.backOut w).2.unsettled.isNone

/-- The weft is parked on a fault (R282). -/
def Weft.isParked (w : Weft) : Bool := w.parked.isSome

/-- The pre-emption that has reached a weft is not held (R288, R289, R294): a weft that steps is a halted one. -/
def Weft.preemptFree (w : Weft) : Bool :=
  w.preempt && (!w.tm || w.isParked) && (!(w.halted || w.halting || w.stepping) || w.released)

/-- A weft is stopped for the save (R297): halted by `brk` under a debugger it keeps that STOP code. -/
def Weft.saved (w : Weft) : Bool :=
  match w.stopped with
  | some .preempt => true
  | some .pfail => true
  | some .debug => w.preemptFree && w.released
  | _ => false

/-- Stop a weft for a pre-emption that is not held (R146). -/
def State.stopWeft (s : State) (w : Weft) : State :=
  let r := s.backOut w
  r.1.setWeft { r.2 with stopped := if w.stopped = some .debug then w.stopped else some .preempt, sleep := 0,
                         yielded := false }

/-- Stop every weft of a context that a pre-emption stops (R146, R288). Requests that a fault buffer holds walk again first, so that a weft
which waits for one is parked on a fault or goes on (R54, assumption 97). -/
def State.stopWefts (s : State) (c : Nat) : State :=
  let s1 := s.rewalk c fun _ => true
  (s1.wefts.filter fun w => w.ctx == c && !w.exited && w.preemptFree && !w.saved && s1.atBoundary w).foldl
    (fun t w => t.stopWeft w) s1

/-- A pre-emption of a running context starts (R119, R146, R170): its dispatch stops, and it reaches every weft, whose sleep it ends (R329). -/
def State.startPreempt (s : State) (c : Nat) (r : PreReason) : State :=
  let x := s.ctx c
  if x.st ≠ .running then s
  else
    let s1 := s.setCtx c { x with st := .preempting, reason := r, devpre := x.devpre || r == .device }
    let reach := fun w : Weft => if w.ctx = c ∧ !w.exited then { w with preempt := true, preemptAge := 0, sleep := 0 } else w
    { s1 with
      wefts := s1.wefts.map reach
      itin := if s1.itin.bound = some c ∧ s1.itin.st = 1 then { s1.itin with st := 2 } else s1.itin }.stopWefts c

/-! ### Region restart (R284) -/

/-- The weft's part of a region restart: registers left empty are full, busy ranges and counters clear, and control is at
the region entry. -/
def Weft.regionRestart (w : Weft) : Weft :=
  { w with
    sregs := w.sregs.map fun (r : SReg) => { r with full := true }
    vregs := w.vregs.map fun (r : VReg) => { r with full := true }
    busy := [], cnt := List.replicate 6 [], pc := w.rgnpc, em := w.rgnem, unsettled := none, parked := none
    waiting := none, sleep := 0, yielded := false, itnNext := false, arrived := none, pbars := []
    fence := none, narrow := false }

/-- What a region restart leaves of an access of its weft (R284, step 1): the lanes that are in the core store order at a local channel, which
are still performed; an atomic among them no longer answers. -/
def Access.restarted (a : Access) : List Access :=
  let left := a.lanes.filter LaneAcc.isReady
  if a.kind.writes && a.settled && !left.isEmpty then
    [{ a with lanes := left, parked := false, cnt := none, dst := .discard, heldBy := none, offs := [] }]
  else []

/-- The queue gives back the place kept for a token that will not come (R225). -/
def State.returnToken (s : State) (team q : Nat) (tok : Option W64) : State :=
  match tok, s.team? team with
  | some _, some t => s.setTeam (t.reserve q false)
  | _, _ => s

/-- A command is abandoned: its knot takes the error and loses the sectors not performed (R286, R465), its token place is free. -/
def State.abandonCmd (s : State) (c : EngCmd) : State :=
  let s1 := match (if c.op < 5 then c.knotAt s else none) with
    | some k => s.setKnot k ((s.knot k).abandon (if c.started then c.work - c.sectors.length else 0))
    | none => s
  s1.returnToken c.team (if c.op = 5 then 2 else 0) c.tok

/-- The matrix commands that a weft has in its team's sequencer give back their token places. -/
def State.abandonMats (s : State) (w : Weft) : State :=
  match s.team? w.team with
  | some t => (t.mcmds.filter fun m => m.slot == w.slot).foldl (fun u m => u.returnToken t.id 1 m.tok) s
  | none => s

/-- The operations of a weft that a region restart discards (R284, step 1), its bytes in the combining buffer among them; the knot of an
abandoned command carries the error flag (R286, R438). -/
def State.discardOps (s : State) (w : Weft) : State :=
  let mine := fun c : EngCmd => c.core == w.core && c.slot == w.slot && decide (c.op < 6)
  let s1 := ((s.cmds.filter mine).foldl State.abandonCmd s).abandonMats w
  let accs := s1.accs.flatMap fun a => if a.isOf w then a.restarted else [a]
  let cut := fun e : CombEntry => if e.core = w.core then { e with bytes := e.bytes.filter fun b => b.2.2 ≠ w.slot } else e
  { s1 with
    accs := accs
    cmds := s1.cmds.filter fun c => !mine c
    holds := s1.holds.filter fun h => match h.acc with | some i => accs.any fun a => a.id == i | none => true
    teams := s1.teams.map fun t => if t.id = w.team then { t with mcmds := t.mcmds.filter fun m => m.slot ≠ w.slot } else t
    fab := { s1.fab with comb := (s1.fab.comb.map cut).filter fun e => !e.bytes.isEmpty } }

/-! ### Seals (R295) -/

/-- One bit of the reflected CRC-64. -/
def crcBit (c : Nat) : Nat := if c % 2 = 1 then (c / 2) ^^^ 0xC96C5795D7870F42 else c / 2

/-- One byte of the CRC-64. -/
def crcByte (c : Nat) (b : Byte) : Nat := (List.range 8).foldl (fun x _ => crcBit x) (c ^^^ b.toNat)

/-- CRC-64 with the parameters of R295. -/
def crc64 (bs : List Byte) : Nat := bs.foldl crcByte (2 ^ 64 - 1) ^^^ (2 ^ 64 - 1)

/-- A record with its seal. -/
def sealRec (bs : List Byte) : List Byte := bs ++ leBytes 8 (crc64 bs)

/-- A record's seal matches. -/
def sealed (bs : List Byte) : Bool :=
  let n := bs.length - 8
  decide (8 ≤ bs.length) && ofLeBytes (bs.drop n) == crc64 (bs.take n)

/-- A record whose first four bytes give its length, seal included. -/
def lenRec (body : List Byte) : List Byte := sealRec (leBytes 4 (body.length + 12) ++ body)

/-! ### Records (R296, R297, R453) -/

/-- A number whose bit `i` says whether `f i` holds, for the first `n` numbers. -/
def bitsOf (n : Nat) (f : Nat → Bool) : Nat := (List.range n).foldl (fun acc i => if f i then acc + 2 ^ i else acc) 0

/-- MSEQ (R453). -/
def Team.mseq (t : Team) : List Byte :=
  let head := leBytes 2 t.mcfg.toNat ++ leBytes 1 t.ncfg.toNat
  match t.mcmds with
  | [] => head ++ zeros 61
  | m :: _ =>
    head ++ leBytes 1 m.op ++ leBytes 4 m.rem ++ leBytes 4 m.abase ++ leBytes 4 m.bbase ++ leBytes 4 m.cbase
      ++ leBytes 4 m.ainc ++ leBytes 4 m.binc ++ leBytes 4 (if m.op = 5 then m.scale.toNat else m.obase)
      ++ leBytes 8 (match m.tok with | some v => v.toNat + 2 ^ 63 | none => 0) ++ leBytes 1 m.slot ++ leBytes 1 m.ofmt
      ++ zeros 22

/-- A saved queue: a count and the entries, oldest first. -/
def queueBytes (n : Nat) (l : List Nat) : List Byte := leBytes 4 l.length ++ l.flatMap fun v => leBytes n v

/-- The queues of a team record (R296). -/
def Team.queueRec (t : Team) : List Byte :=
  queueBytes 8 (t.q0.map BitVec.toNat) ++ queueBytes 8 (t.q1.map BitVec.toNat) ++ queueBytes 8 (t.q2.map BitVec.toNat)
    ++ queueBytes 4 (t.q5.map BitVec.toNat) ++ queueBytes 8 (t.q6.map BitVec.toNat) ++ queueBytes 8 (t.q7.map BitVec.toNat)

/-- A team record (R296). -/
def State.teamRec (s : State) (t : Team) (nweft : Nat) : List Byte :=
  let q := t.queueRec
  lenRec (leBytes 4 t.serial ++ leBytes 8 t.idx ++ leBytes 2 t.core ++ leBytes 1 nweft ++ zeros 1 ++ leBytes 4 t.csize
    ++ leBytes 4 t.lsize ++ leBytes 4 q.length ++ t.mseq ++ t.bars.flatMap (fun b => leBytes 4 b.toNat) ++ zeros 896
    ++ s.bytes (coreKey t.core t.cbase) t.csize ++ s.bytes (clusKey (clusOf t.core) t.lbase) t.lsize ++ q)

/-- A die record (R296). -/
def State.dieRec (s : State) (a : SpadAlloc) : List Byte :=
  lenRec (leBytes 4 a.owner ++ leBytes 4 a.unit ++ leBytes 4 a.len ++ zeros 48 ++ s.bytes (dieKey a.unit a.base) a.len)

/-- VDATA of one register (R211, R297). -/
def VVal.saveBytes (v : VVal) : List Byte :=
  match v with
  | .u c => leBytes 4 c.toNat
  | .a b d => leBytes 4 b.toNat ++ leBytes 4 d.toNat
  | .g l => laneIdx.flatMap fun i => leBytes 4 (l.getD i 0).toNat

/-- Pad to a multiple of 8. -/
def pad8 (bs : List Byte) : List Byte := bs ++ zeros ((8 - bs.length % 8) % 8)

/-- A replay entry (R297): it holds the remaining lanes; the others of the group's mask are done. -/
def Access.replayRec (a : Access) : List Byte :=
  let at_ := fun i : Nat => a.lanes.find? fun l => l.lane == i
  let left := a.lanesWhere fun l => !l.closed
  leBytes 8 a.pc.toNat ++ leBytes 8 left.toNat ++ leBytes 8 (a.mask &&& ~~~left).toNat
    ++ laneIdx.flatMap (fun i => leBytes 8 (match at_ i with | some l => l.ea.toNat | none => 0))
    ++ laneIdx.flatMap fun i => leBytes 16 (match at_ i with | some l => l.data + 2 ^ 64 * l.swap | none => 0)

/-- Replay entries of a weft, oldest first. -/
def State.replaysOf (s : State) (w : Weft) : List Access :=
  s.accs.filter fun a => a.isOf w && a.parked && a.kind.writes && !a.kind.reads

/-- A weft is saved as parked: on a fault, or on a blocked register (R146). -/
def Weft.savedParked (w : Weft) : Bool := w.isParked || w.waiting == some .register

/-- The lanes that a parked weft still has to complete (R282); every lane of `em` where it was stopped on a blocked register (R146,
assumption 22). -/
def State.parkMask (s : State) (w : Weft) : W64 :=
  match w.parked.bind s.acc? with
  | some a => if a.kind = .fetch then a.mask else a.lanesWhere fun l => !l.closed
  | none => if w.savedParked then w.em else 0

/-- A weft record (R297). -/
def State.weftRec (s : State) (w : Weft) (reason : Nat) : List Byte :=
  let stop := match w.stopped with | some .debug => 0x10 | _ => reason
  let flags := b2n w.tm + 2 * b2n w.savedParked + 4 * b2n (w.preempt && w.tm && !w.isParked) + 8 * b2n w.halted + 16 * b2n w.hold
  let reps := s.replaysOf w
  let vdata := pad8 (w.vregs.flatMap fun r => r.val.saveBytes)
  lenRec (leBytes 2 w.core ++ leBytes 1 w.slot ++ leBytes 1 stop ++ leBytes 8 w.pc.toNat ++ leBytes 8 w.em.toNat
    ++ leBytes 8 w.dm.toNat ++ leBytes 8 w.tem.toNat ++ leBytes 8 w.tdm.toNat ++ leBytes 8 w.tpc.toNat
    ++ leBytes 8 w.tmask.toNat ++ leBytes 8 w.tinfo.toNat ++ leBytes 4 w.fpmode.toNat ++ leBytes 4 w.fpflags.toNat
    ++ leBytes 4 w.seed.toNat ++ leBytes 4 w.rctr.toNat ++ leBytes 8 w.rgnpc.toNat ++ leBytes 8 w.rgnem.toNat
    ++ leBytes 4 w.rgncnt.toNat ++ leBytes 4 (bitsOf 32 fun i => (w.sreg i).full)
    ++ (List.range 6).flatMap (fun c => leBytes 2 (w.count c)) ++ leBytes 1 w.tcause.toNat ++ leBytes 1 (b2n w.err)
    ++ leBytes 1 w.wb ++ leBytes 1 flags
    ++ (List.range 32).flatMap (fun i => leBytes 8 (w.sreg i).val.toNat)
    ++ (List.range 8).flatMap (fun k => leBytes 8 (w.xreg k).word.toNat)
    ++ (List.range 8).flatMap (fun k => laneIdx.map fun i => (w.xreg k).off.getD i 0)
    ++ leBytes 8 (if w.savedParked then w.pc.toNat else 0) ++ leBytes 8 (s.parkMask w).toNat ++ leBytes 4 reps.length
    ++ leBytes 1 (w.n / 8) ++ leBytes 1 w.wid ++ zeros 2 ++ leBytes 8 (bitsOf 32 fun i => (w.sreg i).pois)
    ++ leBytes 32 (bitsOf w.n fun i => (w.vreg i).pois)
    ++ leBytes 64 ((List.range w.n).foldl (fun acc i => acc + 4 ^ i * (w.vreg i).val.tag) 0)
    ++ leBytes 32 (bitsOf w.n fun i => (w.vreg i).full) ++ zeros 32 ++ vdata ++ reps.flatMap Access.replayRec)

/-- The save header (R295). -/
def saveHeader (c reason total nteams nwefts offItn offCtx offDie offTeam : Nat) (fatal : List Byte) : List Byte :=
  sealRec (([0x44, 0x4D, 0x4E, 0x53, 0x41, 0x56, 0x45, 0x31] : List Byte) ++ leBytes 4 1 ++ leBytes 1 c ++ leBytes 1 reason
    ++ zeros 2 ++ leBytes 8 total ++ leBytes 4 nteams ++ leBytes 4 nwefts ++ leBytes 8 offItn ++ leBytes 8 offCtx
    ++ leBytes 8 offDie ++ leBytes 8 offTeam ++ fatal ++ zeros 3992)

/-! ### The sections of a context -/

/-- Wefts of a team to be saved, in slot order. -/
def State.savedWefts (s : State) (t : Team) : List Weft :=
  sortBy (fun a b => decide (a.slot ≤ b.slot)) (s.wefts.filter fun w => w.team == t.id && !w.exited)

/-- Teams of a context in logical core order, then placement order (R295). -/
def State.ctxTeams (s : State) (c : Nat) : List Team :=
  sortBy (fun a b => decide (a.core < b.core) || (a.core == b.core && decide (a.id ≤ b.id)))
    (s.teams.filter fun t => t.ctx == c)

/-- Die allocations of a context. -/
def State.ctxDies (s : State) (c : Nat) : List SpadAlloc :=
  sortBy (fun a b => decide (a.unit ≤ b.unit)) (s.allocs.filter fun a => a.live && a.level == 2 && a.ctx == c)

/-- A sealed record of a layout that the manual does not give (R295, assumption 2). -/
def freeRec (n : Nat) : List Byte := sealRec (Config.contextRecord n)

/-- The sections of a context's save record before the header, in order (R295): the itinerary record, the context record,
the die records and the team records. -/
structure Sections where
  itn : List Byte
  ctx : List Byte
  dies : List (List Byte)
  teams : List (List Byte × List (List Byte))
  deriving DecidableEq, Repr

/-- The sections of a context as it stands. -/
def State.sections (s : State) (c reason : Nat) : Sections :=
  { itn := if s.itin.bound = some c then freeRec s.draws else []
    ctx := freeRec (s.draws + 1)
    dies := (s.ctxDies c).map s.dieRec
    teams := (s.ctxTeams c).map fun t =>
      let ws := s.savedWefts t
      (s.teamRec t ws.length, ws.map fun w => s.weftRec w reason) }

/-- Every record in order. -/
def Sections.records (x : Sections) : List (List Byte) :=
  (if x.itn = [] then [] else [x.itn]) ++ [x.ctx] ++ x.dies ++ x.teams.flatMap fun t => t.1 :: t.2

/-- Offsets and lengths of records that follow one another. -/
def recSpans : Nat → List (List Byte) → List (Nat × Nat)
  | _, [] => []
  | o, r :: rs => (o, r.length) :: recSpans (o + r.length) rs

/-- Bytes of some records. -/
def recsLen (l : List (List Byte)) : Nat := (l.map List.length).foldl (· + ·) 0

/-- The header over sections (R295). -/
def Sections.header (x : Sections) (c reason : Nat) (fatal : List Byte) : List Byte :=
  let offCtx := 4096 + x.itn.length
  let offDie := offCtx + x.ctx.length
  let offTeam := offDie + recsLen x.dies
  saveHeader c reason (recsLen x.records) x.teams.length ((x.teams.map fun t => t.2.length).foldl (· + ·) 0)
    (if x.itn = [] then 0 else 4096) offCtx offDie offTeam fatal

/-! ### The structural copy -/

/-- A byte range of scratchpad with what poison it holds. -/
def State.spadCells (s : State) (key n : Nat) : List Host.Cell := cellsFrom key (s.bytes key n)

/-- Key of an allocation's first byte. -/
def SpadAlloc.key (a : SpadAlloc) : Nat :=
  match a.level with
  | 0 => coreKey a.unit a.base
  | 1 => clusKey a.unit a.base
  | _ => dieKey a.unit a.base

/-- The key lies in an allocation. -/
def SpadAlloc.holds (a : SpadAlloc) (k : Nat) : Bool := a.key ≤ k && k < a.key + a.len

/-- Live allocations of a context. -/
def State.ctxAllocs (s : State) (c : Nat) : List SpadAlloc := s.allocs.filter fun a => a.live && a.ctx == c

/-- What a save keeps of a context, with the places of its records. -/
def State.saveOf (s : State) (c : Nat) (recs : List (Nat × Nat)) : Saved :=
  let al := s.ctxAllocs c
  { wefts := s.wefts.filter (fun w => w.ctx == c && !w.exited), teams := s.teams.filter (fun t => t.ctx == c)
    accs := s.accs.filter (fun a => a.ctx == c), allocs := al, spad := al.flatMap fun a => s.spadCells a.key a.len
    pois := s.pois.filter (fun k => al.any fun a => a.holds k), cmds := s.cmds.filter (fun k => k.ctx == c), recs := recs }

/-- The context's resident parts leave the machine: slots, registers and scratchpad are free again. -/
def State.vacate (s : State) (c : Nat) : State :=
  { s with
    wefts := s.wefts.filter fun w => w.ctx ≠ c
    teams := s.teams.filter fun t => t.ctx ≠ c
    accs := s.accs.filter fun a => a.ctx ≠ c
    cmds := s.cmds.filter fun k => k.ctx ≠ c
    allocs := s.allocs.map fun a => if a.ctx = c then { a with live := false } else a }

end Sys2Proof.Machine
end

