-- ==== Sys2Proof/Machine/Debug.lean ====
section
/-! DEFINITION. The debug port (R237, R291, R292, R294). -/

namespace Sys2Proof.Machine

/-- A logical core is the one that the debug port names, by its number or by its physical place (R5). -/
def State.isCore (s : State) (k : DebugCore) (core : Nat) : Bool :=
  match k with
  | .logical n => core == n
  | .physical die clus j => s.boot.physCore core == (die, clus, j)

/-- A weft of the attached context is named by a target (R291). -/
def State.named (s : State) (t : DebugTarget) (w : Weft) : Bool :=
  s.debug == some w.ctx && !w.exited
    && match t with
      | .weft k slot => s.isCore k w.core && w.slot == slot
      | .team id => w.team == id
      | .core k => s.isCore k w.core
      | .context => true

/-- ATTACH (R291): one context at a time. -/
def execAttach (c : Nat) (s : State) : Res :=
  .next (if s.up && (s.debug).isNone && decide (c < 64) then { s with debug := some c } else s)

/-- A halt is lifted (R291). -/
def Weft.unhalt (w : Weft) : Weft :=
  { w with halted := false, halting := false, stepping := false, released := false
           stopped := if w.stopped = some .debug then none else w.stopped }

/-- DETACH (R291): every halt is released. -/
def execDetach (s : State) : Res :=
  .next { s with wefts := s.wefts.map (fun w => if s.debug = some w.ctx then w.unhalt else w), debug := none }

/-- One weft halts at its next group boundary (R237, R288, R292, R431, R465): a wait that a pre-emption would back out is backed out; inside a
group whose fate is not settled the halt is pending. -/
def State.haltWeft (s : State) (w : Weft) : State :=
  let r := s.backOut w
  if r.2.unsettled.isSome then s.setWeft { w with halting := true }
  else r.1.setWeft { r.2 with halted := true, halting := false, sleep := 0, yielded := false }

/-- Halts that were pending are taken where the group has come to its boundary (R288). -/
def State.haltDue (s : State) : State := (s.wefts.filter fun w => w.halting && !w.exited).foldl (fun t w => t.haltWeft w) s

/-- DEBUG_HALT (R291, R292). -/
def execDebugHalt (t : DebugTarget) (s : State) : Res :=
  .next (if s.up then (s.wefts.filter fun w => s.named t w && !w.halted).foldl (fun u w => u.haltWeft w) s
  else s)

/-- RUN (R291). -/
def execRun (t : DebugTarget) (s : State) : Res :=
  .next { s with wefts := s.wefts.map fun w => if s.named t w && (w.halted || w.halting) then w.unhalt else w }

/-- STEP (R291): one group issues, and the weft halts again. -/
def execDebugStep (core : DebugCore) (slot : Nat) (s : State) : Res :=
  .next { s with wefts := s.wefts.map fun (w : Weft) =>
            if s.named (.weft core slot) w && w.halted then { w.unhalt with stepping := true } else w }

/-- RELEASE (R294). -/
def execRelease (t : DebugTarget) (s : State) : Res :=
  .next { s with wefts := s.wefts.map fun w => if s.named t w && w.halted then { w with released := true } else w }

/-! ### Reading and writing a halted weft (R237, R291, R292) -/

/-- Contents of a queue of a weft's team, oldest first: of q3 and q4 the stage queues, or the task record (R139, R161, R222). -/
def State.queueOf (s : State) (w : Weft) (q : Nat) : List W64 :=
  match q with
  | 3 =>
    (match s.launchOf w with
      | none => []
      | some l => if l.itn.isSome then [s.taskVa (l.task.getD 0)]
        else match s.pipeOf l with | some p => if l.lrec.pipe = 0 then [] else p.queues.getD l.lrec.stage [] | none => [])
  | 4 => (match s.q4Out w with | some (p, k) => p.queues.getD k [] | none => [])
  | 5 => (match s.team? w.team with | some t => t.q5.map (·.setWidth 64) | none => [])
  | _ => (match s.team? w.team with | some t => t.q q | none => [])

/-- The register that a lane accesses through an index register as it stands (R217, R237): as a source of a READ, as a destination of a WRITE
(assumption 109). -/
def Weft.through (w : Weft) (n lane : Nat) (wr : Bool) : Nat := (xRegs (w.xreg n) wr).getD lane 0

/-- A value of a halted weft. -/
def State.peek (s : State) (w : Weft) (d : DebugPlace) : W64 :=
  let bit := fun b : Bool => BitVec.ofNat 64 (b2n b)
  match d with
  | .pv n lane => ((w.vreg n).val.lane lane).setWidth 64
  | .tag n => BitVec.ofNat 64 (w.vreg n).val.tag
  | .vfull n => bit (w.vreg n).full
  | .s n => (w.sreg n).val
  | .sfull n => bit (w.sreg n).full
  | .xdesc n => (w.xreg n).word
  | .xoff n lane => ((w.xreg n).off.getD lane 0).setWidth 64
  | .tm => bit w.tm
  | .tem => w.tem
  | .tdm => w.tdm
  | .sr n => s.special w n
  | .pc => w.pc
  | .em => w.em
  | .dm => w.dm
  | .xpv n lane => BitVec.ofNat 64 (((w.vreg (w.through n lane false)).val.lane lane).toNat + 2 ^ 32 * w.through n lane false)
  | .queue q i => (s.queueOf w q).getD i 0
  | .qcount q => BitVec.ofNat 64 (s.queueOf w q).length

/-- A halted weft with one value written: a register becomes G and full (R292). -/
def Weft.poke (w : Weft) (d : DebugPlace) (v : W64) : Weft :=
  match d with
  | .pv n lane => (w.setLane n lane (v.setWidth 32)).fillV true [n]
  | .tag n => { w with vregs := modAt w.vregs n fun (r : VReg) =>
      { r with val := if v = 0 then .u (r.val.lane 0) else if v = 1 then .a (r.val.lane 0) (r.val.lane 1 - r.val.lane 0)
                      else .g r.val.lanes } }
  | .vfull n => w.fillV (v.getLsbD 0) [n]
  | .s n => (w.setS n v).fillS n true
  | .sfull n => w.fillS n (v.getLsbD 0)
  | .xdesc n => w.setX n fun x => x.load v
  | .xoff n lane => w.setX n fun x => { x with off := setAt x.off lane (v.setWidth 8) }
  | .tm => { w with tm := v.getLsbD 0 }
  | .tem => { w with tem := v }
  | .tdm => { w with tdm := v }
  | .sr n => w.setSpecial n v
  | .pc => { w with pc := v &&& ~~~(3 : W64) }
  | .em => { w with em := v }
  | .dm => { w with dm := v }
  | .xpv n lane => (w.setLane (w.through n lane true) lane (v.setWidth 32)).fillV true [w.through n lane true]
  | .queue _ _ => w
  | .qcount _ => w

/-- Write an entry of a queue. -/
def State.pokeQueue (s : State) (w : Weft) (q i : Nat) (v : W64) : State :=
  match q, (s.launchOf w).bind s.pipeOf, s.q4Out w, s.team? w.team with
  | 3, some p, _, _ => (match s.launchOf w with
      | some l => if l.lrec.pipe = 0 then s else s.setPipe { p with queues := modAt p.queues l.lrec.stage fun x => setAt x i v }
      | none => s)
  | 4, _, some (p, k), _ => s.setPipe { p with queues := modAt p.queues k fun x => setAt x i v }
  | _, _, _, none => s
  | _, _, _, some t => s.setTeam (if q = 5 then { t with q5 := setAt t.q5 i (v.setWidth 32) } else t.setQ q (setAt (t.q q) i v))

/-- The halted weft that a READ or WRITE names. -/
def State.halted? (s : State) (core : DebugCore) (slot : Nat) : Option Weft :=
  s.wefts.find? fun w => s.named (.weft core slot) w && w.halted

/-- DEBUG_READ (R237, R291). -/
def execDebugRead (core : DebugCore) (slot : Nat) (w : DebugPlace) (s : State) : Res :=
  .next (match s.halted? core slot with
  | some v => s.emit (.debug (s.peek v w))
  | none => s)

/-- DEBUG_WRITE (R291, R292). -/
def execDebugWrite (core : DebugCore) (slot : Nat) (w : DebugPlace) (v : BitVec 64) (s : State) : Res :=
  .next (match s.halted? core slot with
  | none => s
  | some x =>
    match w with
    | .queue q i => s.pokeQueue x q i v
    | _ => s.setWeft (x.poke w v))

end Sys2Proof.Machine
end

