-- ==== Sys2Proof/Machine/Power.lean ====
section
/-! DEFINITION. Power, current and thermal control (R86-R102) and the power-fail sequence (R103-R106). -/

namespace Sys2Proof.Machine

/-! ### Caps (R25, R99, R102) -/

/-- A cap register's value as it acts (R102). -/
def capActs (v : BitVec 12) : Nat := max 400 (min 3200 v.toNat)

/-- The effective cap, watts: 400 before READY (R25, R99). -/
def State.effCap (s : State) : Nat :=
  if s.boot.st ≠ .ready then 400
  else
    let p := min (capActs s.power.pkgcap) (capActs (s.power.pcap.getD s.power.psel.toNat 3200))
    if s.power.icapEn then min p (capActs s.power.icap) else p

/-- Note a fall of the effective cap from an older value (R99, R100). -/
def State.noteCap (s : State) (old : Nat) : State :=
  if s.effCap < old then { s with power := { s.power with capFell := true } } else s

/-- PSTEP_ACCEPT (R23, R25): latched before READY, in force from then on, ignored in a power-fail sequence (R103). -/
def execPstepAccept (v : BitVec 3) (s : State) : Res :=
  .next (if s.boot.st = .off ∨ s.power.pf ≠ .idle then s
  else if s.boot.st = .ready then
    { s with power := { s.power with psel := v, pselLatched := v } }.noteCap s.effCap
  else { s with power := { s.power with pselLatched := v } })

/-- CAP_WRITE (R99, R102): PKGCAP, PCAPn or ICAP, by its I3C offset. -/
def execCapWrite (off : Nat) (v : BitVec 64) (s : State) : Res :=
  let w := v.setWidth 12
  .next (if s.boot.st = .off ∨ s.power.pf ≠ .idle then s
  else if off = 0x108 then { s with power := { s.power with pkgcap := w } }.noteCap s.effCap
  else if 0x110 ≤ off ∧ off ≤ 0x148 ∧ off % 8 = 0 then
    { s with power := { s.power with pcap := setAt s.power.pcap ((off - 0x110) / 8) w } }.noteCap s.effCap
  else if off = 0x150 then
    { s with power := { s.power with icap := w, icapEn := v.getLsbD 12 } }.noteCap s.effCap
  else s)

/-! ### Ration counters (R89, R92, R93, R95) -/

/-- The burst cap and the lower bound of C, in 1/256 units (R89). -/
def rationCap : Int := 4096 * 256
def rationMin : Int := -(2 ^ 15 * 256)

/-- RATE never falls below 0.25 (R91) and holds 16 bits (R89). -/
def clampRate (x : Nat) : Nat := max 64 (min 65535 x)

/-- RATE that a throttle step sets from a cluster's demanded debits (R92). -/
def stepRate (step dm dv : Nat) : Nat :=
  if step < 4 then 65535 else if step < 6 then clampRate (dv + 3 * dm / 4) else clampRate (3 * (dv + dm) / 4)

/-- MTHR that a throttle step sets, in 1/256 units (R92). -/
def stepMthr (step : Nat) : Int := if step < 4 then 0 else 1024 * 256

/-- RATION_CYCLE_END (R89). -/
def execRationCycleEnd (cluster : Nat) (s : State) : Res :=
  let f := fun r : Ration => { r with c := max rationMin (min rationCap (r.c - r.debits + r.rate)), debits := 0 }
  .next { s with power := { s.power with rations := modAt s.power.rations cluster f } }

/-- DROOP_DETECT (R93): C is forced to -64. -/
def execDroopDetect (cluster : Nat) (s : State) : Res :=
  let f := fun r : Ration => { r with c := -64 * 256 }
  .next { s with power := { s.power with rations := modAt s.power.rations cluster f } }

/-- Debits of an interval as a rate, in 1/256 units per cycle (R92). -/
def perCycle (units cycles : Nat) : Nat := 256 * units / max 1 cycles

/-- One cluster's ration for an interval: the step's settings for what its last interval demanded, and an eighth off the rate in
force while its thermal throttle is engaged (R92, R95). The count of demanded debits starts again. -/
def Ration.interval (r : Ration) (step temp cycles : Nat) : Ration :=
  let hot := decide (105 ≤ temp) || (r.hot && decide (102 ≤ temp))
  let base := stepRate step (perCycle r.dm cycles) (perCycle r.dv cycles)
  { r with hot := hot, mthr := stepMthr step, dm := 0, dv := 0
           rate := if hot then clampRate (min base (r.rate - r.rate / 8)) else base }

/-! ### The throttle order (R86, R92, R100) -/

/-- VMAT, VVEC and VFAB points of a step (R100): 1 is M1, V0 is 0, F0 is 0. -/
def stepMop (step : Nat) : Nat := if step < 5 then 1 else 2
def stepVop (step : Nat) : Nat := if step < 7 then 0 else 1
def stepFop (step : Nat) : Nat := if step < 8 then 0 else 1

/-- The clock and the voltage of a rail as a glide to a target starts (R87): down, the clock is lowered first; up, the voltage is
raised first. Points count downwards in speed. -/
def glideStart (clk vlt target : Nat) : Nat × Nat := if clk ≤ target then (target, vlt) else (clk, min vlt target)

/-- The settings of a step that do not depend on counters; a new target replaces that of a glide in progress (R87). -/
def Power.atStep (p : Power) (step : Nat) (boost : Bool) : Power :=
  let mt := if step = 0 ∧ boost then 0 else stepMop step
  let m := glideStart p.mop p.mvlt mt
  let v := glideStart p.vop p.vvlt (stepVop step)
  let f := glideStart p.fop p.fvlt (stepFop step)
  { p with step := step, mopT := mt, vopT := stepVop step, fopT := stepFop step, mop := m.1, mvlt := m.2, vop := v.1, vvlt := v.2
           fop := f.1, fvlt := f.2, t2off := decide (2 ≤ step) }

/-- The clock rule of R86: the matrix clock does not exceed the main clock, except at M0 with V0. -/
def clocksOk (mop vop : Nat) : Bool := if mop = 0 then vop == 0 else decide (vop < mop)

/-- What a glide of a rail still has to do may be done: its target keeps the clock rule. -/
def Power.mayGlide (p : Power) (rail : Nat) : Bool :=
  match rail with
  | 0 => clocksOk p.mopT p.vop
  | 1 => clocksOk p.mop p.vopT
  | _ => true

/-- OP_GLIDE_COMPLETE (R86, R87): rail 0 VMAT, 1 VVEC with VSRAM, 2 VFAB. The second half of the glide: up, the clock; down, the
voltage. -/
def execOpGlideComplete (rail : Nat) (s : State) : Res :=
  let p := s.power
  .next (if p.pf ≠ .idle ∨ !p.mayGlide rail then s
  else match rail with
    | 0 => { s with power := { p with mop := p.mopT, mvlt := p.mopT } }
    | 1 => { s with power := { p with vop := p.vopT, vvlt := p.vopT } }
    | 2 => { s with power := { p with fop := p.fopT, fvlt := p.fopT } }
    | _ => s)

/-! ### Demands of the limits (R95, R96, R98, R100) -/

/-- A limit's demand: its code in PWRST.LIMITER and the step it asks for. -/
abbrev Demand := Nat × Nat

/-- Lowest step whose predicted power is within a cap; 9 if none is (R100). -/
def targetStep (pred : List Nat) (cap : Nat) : Nat :=
  ((List.range 10).find? fun n => decide (pred.getD n 0 ≤ cap)).getD 9

/-- Step that the current limit asks for (R96): VMAT 4 then 5, VVEC 6 then 7, where it stays (R98); none within the limits. -/
def currentStep (p : Power) (m : Telemetry) : Nat :=
  let lim := p.icclim.toNat
  let next := fun (high : Bool) (a : Nat) => if !high then 0 else if p.step < a then a else a + 1
  max (next (decide (95 * field lim 0 12 < 100 * m.imat)) 4) (next (decide (95 * field lim 12 12 < 100 * m.ivec)) 6)

/-- The demands of an interval in the order of R98, those above none. -/
def State.demands (s : State) (m : Telemetry) (trip : Bool) : List Demand :=
  let p := s.power
  let target := if p.capFell then targetStep m.predicted s.effCap else 0
  let cap := if !p.capFell ∧ s.effCap < m.predicted.getD p.step 0 then min 9 (p.step + 1) else 0
  [(2, target), (3, if trip then 7 else 0), (4, currentStep p m), (6, cap)].filter fun d => 0 < d.2

/-- The first demand for the highest step. -/
def topDemand (l : List Demand) : Option Demand :=
  l.foldl (fun acc d => match acc with
    | some a => if a.2 < d.2 then some d else some a
    | none => some d) none

/-- PWRST.LIMITER: the limit behind the step in force, else the thermal throttle, else none at step 0 (R98, R102). -/
def newLimiter (old step : Nat) (top : Option Demand) (hot : Bool) : Nat :=
  match top with
  | some d => if d.2 = step then d.1 else old
  | none => if hot then 5 else if step = 0 then 0 else old

/-- Boost is granted (R97). -/
def boostOk (p : Power) (m : Telemetry) (step cap : Nat) (demanded : Bool) : Bool :=
  step == 0 && !demanded && p.vop == 0 && m.temps.all (fun t => decide (t < 95))
    && decide (m.boostPower + 100 ≤ cap) && decide (100 * m.imat ≤ 90 * field p.icclim.toNat 0 12)

/-- The running contexts of the lowest context priority (R100, step 9). -/
def State.lowestRunning (s : State) : List Nat :=
  let run := (List.range 64).filter fun c => (s.ctx c).st == .running
  let low := (run.map fun c => (s.ctx c).desc.cprio).foldl min 7
  run.filter fun c => (s.ctx c).desc.cprio == low

/-- Set several alert bits. -/
def State.alerts (s : State) (l : List (Bool × Nat)) : State :=
  l.foldl (fun t b => if b.1 then t.alert b.2 else t) s

/-! ### Power fail (R103) -/

/-- What a power failure leaves of an access: the lanes of SCM writes that had left their core (R103). -/
def Access.leftCore (a : Access) : Option Access :=
  let ls := a.lanes.filter fun l => match l.st with | .ready k => keyIsScm k | _ => false
  if a.kind.writes && a.heldBy.isNone && !ls.isEmpty then
    some { a with lanes := ls, settled := true, parked := false, dst := .discard, cnt := none, offs := [] }
  else none

/-- A weft stops with PFAIL recorded; every event it held is discarded (R103, R288). -/
def Weft.pfailStop (w : Weft) : Weft := if w.exited then w else { w with stopped := some .pfail, events := [], sleep := 0 }

/-- Every weft stops for a power failure, its wait counted as not issued (R103, R431, R465). -/
def State.pfailStop (s : State) : State :=
  (s.wefts.filter fun w => !w.exited).foldl (fun t w => let r := t.backOut w; r.1.setWeft r.2.pfailStop) s

/-- The power-fail sequence starts (R103, R106); before READY it only drains the hampers (R24). -/
def State.startPfail (s0 : State) : State :=
  let s := s0.pfailStop
  let p := s.power
  let s1 := { s with
    power := { p with pf := .stopping, pfact := true, limiter := 1, mopT := p.mop, vopT := p.vop, fopT := p.fop }
    accs := s.accs.filterMap Access.leftCore
    teams := s.teams.map fun (t : Team) => { t with mcmds := [] }
    cmds := [], holds := []
    fab := { s.fab with comb := [], packets := [] }
    snap := { s.snap with mender := none } }
  s1.alert 7

/-- Boot has reached MEMINIT (R24). -/
def Boot.persists (b : Boot) : Bool :=
  b.st == .meminit || b.st == .ready || (b.st == .fail && decide (8 ≤ b.cause.toNat))

/-- Power is about to fail (R24, R103): before MEMINIT boot only stops. -/
def State.powerFails (s : State) : State :=
  if s.boot.st = .off ∨ s.power.pf ≠ .idle then s
  else if s.boot.persists then s.startPfail
  else { s with power := { s.power with pf := .halted } }

/-- PFAIL (R24, R103). -/
def execPfail (s : State) : Res := .next s.powerFails

/-- The device stops writing at once (R105): what the hampers hold stays there for MEMINIT (R36, R106). -/
def State.stopWriting (s : State) : State := { s with power := { s.power with pf := .halted } }

/-- RAIL_FAULT (R21, R22, R35, R105): row 0 is VAUX, row 6 VSCM, after which nothing is written. From MEMINIT on the fault acts as
PFAIL_N does; before it, boot fails. -/
def execRailFault (rail : Nat) (s : State) : Res :=
  .next (if s.boot.st = .off ∨ 7 ≤ rail then s
  else if rail = 0 then s.unpowered
  else if s.power.pf ≠ .idle then (if rail = 6 then s.stopWriting else s)
  else if s.boot.persists then (if rail = 6 then s.startPfail.stopWriting else s.startPfail)
  else if s.boot.st = .fail then s
  else s.bootFail 1)

/-- Perform what has left the cores, in order (R103). -/
def State.landAll (s : State) (l : List Access) : State :=
  l.foldl (fun t a => (t.performLanes a (fun _ => true) a.lanes).1.dropAcc a.id) s

/-- HAMPER_ACCEPTANCE_CLOSE (R103): writes that had left their core reach the hampers, and acceptance closes. -/
def execHamperAcceptanceClose (s : State) : Res :=
  .next (if s.power.pf = .stopping then
    let s1 := s.landAll s.accs
    { s1 with accs := [], power := { s1.power with pf := .closed } }
  else s)

/-- HAMPER_DRAINED (R103, R172). -/
def execHamperDrained (s : State) : Res :=
  .next (if s.power.pf = .closed then
    let s1 := s.drainHampers
    { s1 with power := { s1.power with pf := .drained } }
  else s)

/-- SEAL_RECORD_WRITE (R103): the seal record stands in reserved SCM on every stack, and level 1 ends. -/
def execSealRecordWrite (s : State) : Res :=
  .next (if s.power.pf = .drained then
    { s with power := { s.power with pf := .sealed }, rsv := { s.rsv with seals := List.range 6 } }
  else s)

/-! ### Level 2 (R104, R105) -/

/-- Bytes that level 2 can write for a hold-up energy in units of 10 mJ (R104). -/
def l2Bytes (ej : Nat) : Nat := (ej - 24) * 1600000000 / 450 - 80000000

/-- The context has something to save: it is live. -/
def Context.live (x : Context) : Bool :=
  x.st == .running || x.st == .preempting || x.st == .preempted || x.st == .resuming

/-- The next context of level 2: highest context priority, then the lowest number (R104). -/
def State.l2Next (s : State) : Option Nat :=
  let l := (List.range 64).filter fun c => (s.ctx c).live && !s.power.l2.any fun e => e.ctx == c
  let top := (l.map fun c => (s.ctx c).desc.cprio).foldl max 0
  l.find? fun c => (s.ctx c).desc.cprio == top

/-- The context with a saved copy laid out as if it were resident. -/
def State.expand (s : State) (c : Nat) : State :=
  match (s.ctx c).saved with
  | some v => { s with wefts := s.wefts ++ v.wefts, teams := s.teams ++ v.teams, accs := s.accs ++ v.accs,
                       allocs := s.allocs ++ v.allocs }
  | none => s

/-- How many records of a list fit in some bytes, from the first. -/
def fitRecs : Nat → List (List Byte) → Nat
  | _, [] => 0
  | b, r :: rs => if r.length ≤ b then 1 + fitRecs (b - r.length) rs else 0

/-- The sealed part of the team records: team ids and weft slots, `n` records long (R105). -/
def sealedParts (s : State) : Nat → List Team → List (Nat × List Nat)
  | _, [] => []
  | n, t :: r =>
    if n = 0 then []
    else
      let ws := (s.savedWefts t).map (·.slot)
      (t.id, ws.take (n - 1)) :: sealedParts s (n - 1 - ws.length) r

/-- The restorable part of a context: its sealed wefts, at their region entries, and the allocations with a sealed record (R105,
R284, R298). The first `nd` die records are sealed. -/
def State.l2Saved (s : State) (c : Nat) (nd : Nat) (parts : List (Nat × List Nat)) : Saved :=
  let v := match (s.ctx c).saved with | some v => v | none => s.saveOf c []
  let has := fun w : Weft => parts.any fun p => p.1 == w.team && p.2.contains w.slot
  let dies := (v.allocs.filter fun a => a.level = 2).take nd
  let al := v.allocs.filter fun a => match a.level with
    | 2 => dies.contains a
    | 3 => true
    | _ => parts.any fun p => p.1 == a.owner
  { v with
    wefts := (v.wefts.filter has).map fun (w : Weft) => { w.regionRestart with stopped := none, preempt := false }
    teams := (v.teams.filter fun (t : Team) => parts.any fun p => p.1 == t.id).map fun (t : Team) => { t with mcmds := [] }
    allocs := al, spad := v.spad.filter fun x => al.any fun a => a.holds x.1
    pois := v.pois.filter fun k => al.any fun a => a.holds k
    accs := [], cmds := [], recs := [] }

/-- Save one context to reserved SCM as far as the bytes last, each record with its seal and the header last (R104, R295). Without its
itinerary and context records nothing of it can be restored; without a die record no weft behind it can (R105). -/
def State.l2One (s0 : State) (c : Nat) : State :=
  let s := { s0 with draws := s0.draws + 2 }
  let e := s0.expand c
  let x := e.sections c 0x11
  let p := s.power
  let n := fitRecs p.l2left x.records
  let left := p.l2left - recsLen (x.records.take n)
  let more := n = x.records.length ∧ 4096 ≤ left
  let p1 : Power := { p with l2left := if more then left - 4096 else 0, pf := if more then .level2 else .halted }
  let head := 1 + b2n (x.itn != [])
  if n < head then { s with power := p1 }
  else
    let nd := n - head
    let parts := if nd < x.dies.length then [] else sealedParts e (nd - x.dies.length) (e.ctxTeams c)
    let d : L2Save :=
      { ctx := c, recs := x.records.take n ++ (if more then [x.header c 0x11 (zeros 32)] else []), x := { s.ctx c with saved := none, waiters := [] }, saved := s.l2Saved c nd parts
        launches := s.launches.filter (fun l => l.ctx == c), pipes := s.pipes.filter (fun q => q.ctx == c)
        itin := if s.itin.bound = some c then some s.itin else none }
    { s with power := { p1 with l2 := p.l2 ++ [d] } }

/-- LEVEL2_SAVE (R104): one context of the order, once level 2 runs. -/
def execLevel2Save (s : State) : Res :=
  let p := s.power
  .next (match p.pf with
  | .sealed =>
    if 24 < p.holdup.toNat ∧ s.boot.st = .ready then
      { s with power := { p with pf := .level2, l2 := [], l2left := l2Bytes p.holdup.toNat } }
    else { s with power := { p with pf := .halted } }
  | .level2 =>
    match s.l2Next with
    | some c => s.l2One c
    | none => { s with power := { p with pf := .halted } }
  | _ => s)

/-- The next step of a power-fail sequence. -/
def Power.nextStep (p : Power) : Option Instr :=
  match p.pf with
  | .stopping => some .hamperAcceptanceClose
  | .closed => some .hamperDrained
  | .drained => some .sealRecordWrite
  | .sealed => some .level2Save
  | .level2 => some .level2Save
  | _ => none

/-! ### The control interval (R88) -/

/-- CONTROL_INTERVAL (R88, R95-R98, R100, R101). -/
def execControlInterval (m : Telemetry) (s : State) : Res :=
  let hottest := m.temps.foldl max 0
  if !s.up then
    .next (if s.boot.st ≠ .off ∧ 115 ≤ hottest then
      { s with power := { s.power with thermtripN := false } }.powerFails else s)
  else
    let p := s.power
    let trip := p.trip || decide (110 ≤ hottest)
    let ds := s.demands m trip
    let top := topDemand ds
    let step := min 9 (max p.step (match top with | some d => d.2 | none => 0))
    let temp := fun k => m.temps.getD k 0
    let rs := (List.range 52).map fun k =>
      (p.rations.getD k Ration.init).interval step (temp k) p.icyc
    let hot := rs.any Ration.hot
    let engaged := (List.range 52).any fun k => (rs.getD k Ration.init).hot && !(p.rations.getD k Ration.init).hot
    let boost := boostOk p m step s.effCap (!ds.isEmpty || hot)
    let free := ds.all fun d => decide (d.2 < step)
    let below := if 0 < step ∧ step = p.step ∧ free ∧ 100 * m.predicted.getD (step - 1) 0 ≤ 95 * s.effCap then p.below + 1 else 0
    let p1 : Power := { p.atStep step boost with rations := rs, trip := trip, capFell := false, icyc := 0, below := below,
                                                 limiter := newLimiter p.limiter step top hot }
    let s1 := { s with power := p1 }.alerts
      [(decide (p.step < step), 3), (engaged, 4), (trip && !p.trip, 5), (decide (p.step < currentStep p m), 6)]
    let s2 := if step = 9 ∧ (p.step < 9 ∨ s.effCap < m.predicted.getD 9 0) then
        s1.lowestRunning.foldl (fun t c => t.startPreempt c .device) s1
      else s1
    let s3 := if 100 ≤ below then s2.post .stepLeave else s2
    .next (if 115 ≤ hottest then { s3 with power := { s3.power with thermtripN := false } }.startPfail else s3)

/-- STEP_LEAVE (R98, R101): one step back, once 100 intervals in a row had room and no limit that asked for the step. -/
def execStepLeave (s : State) : Res :=
  let p := s.power
  .next (if !s.up || p.below < 100 || p.step = 0 || (p.trip && p.step ≤ 7) then s
  else
    let step := p.step - 1
    let rs := p.rations.map fun (r : Ration) =>
      { r with mthr := stepMthr step, rate := if step < 4 ∧ !r.hot then 65535 else r.rate }
    { s with power := { p.atStep step false with rations := rs, below := 0, limiter := if step = 0 then 0 else p.limiter } })

/-- THERMAL_TRIP_RELEASE (R95): every sensor reads below 100 degrees, at least 1 ms on. -/
def execThermalTripRelease (m : Telemetry) (s : State) : Res :=
  .next (if s.up && m.temps.all (fun t => decide (t < 100)) then { s with power := { s.power with trip := false } } else s)

end Sys2Proof.Machine
end

