-- ==== Sys2Proof/Machine/Commands.lean ====
section
/-! DEFINITION. Command queues and doorbells (R112-R114), command records from fetch to completion or failure (R115-R119,
R492), and the commands LAUNCH, COPY, SIGNAL, WAITV, MAP, UNMAP and RESUME (R51, R55, R116). -/

namespace Sys2Proof.Machine

/-! ### Queues -/

/-- A queue of a context (R112). -/
def State.queue (s : State) (c q : Nat) : Queue := (s.queues.lookup (c, q)).getD Queue.off

/-- Replace a queue, keeping its place in the round-robin order. -/
def State.setQueue (s : State) (c q : Nat) (x : Queue) : State :=
  if s.queues.any fun e => e.1 == (c, q) then
    { s with queues := s.queues.map fun e => if e.1 = (c, q) then (e.1, x) else e }
  else { s with queues := s.queues ++ [((c, q), x)] }

/-- Replace a queue and move it to the end of the round-robin order (R117). -/
def State.turnQueue (s : State) (c q : Nat) (x : Queue) : State :=
  { s with queues := (s.queues.filter fun e => e.1 ≠ (c, q)) ++ [((c, q), x)] }

/-- The command is a WAITV. -/
def Cmd.isWaitv (k : Cmd) : Bool := k.op == 4

/-- FLAGS.BARRIER. -/
def Cmd.barrier (k : Cmd) : Bool := bitOf k.flags 0

/-- QST.STATE of a queue that is not stopped (R113): waiting on a WAITV or a BARRIER, active, or idle. -/
def Queue.restat (x : Queue) : Queue :=
  if x.st = 3 then x
  else
    let waits := x.running.any Cmd.isWaitv
      || (match x.fetched with | k :: _ => k.barrier && !x.running.isEmpty | [] => false)
    let work := !x.fetched.isEmpty || !x.running.isEmpty || x.ri != x.qwi
    { x with st := if waits then 2 else if work then 1 else 0 }

/-- DOORBELL (R113). -/
def execDoorbell (c q : Nat) (w : BitVec 32) (s : State) : Res :=
  let x := s.queue c q
  let refuse := fun e : BitVec 8 => if x.st = 3 then s else s.setQueue c q { x with err := e }
  .next (if !s.up || decide (64 ≤ c) || decide (64 ≤ q) then s
  else if !(s.ctx c).live then refuse 8
  else if !x.en then refuse 7
  else if w = x.qwi then s
  else if 2 ^ x.qlog < (w - x.qwi).toNat + (x.qwi - x.ri).toNat then refuse 6
  else s.setQueue c q { x with qwi := w }.restat)

/-- ERR_CLEAR (R113): an empty ERR restarts a queue in state 3. -/
def execErrClear (c q : Nat) (v : BitVec 8) (s : State) : Res :=
  let x := s.queue c q
  let e := x.err &&& ~~~v
  .next (if !s.up || decide (64 ≤ c) || decide (64 ≤ q) then s
  else if x.st = 3 ∧ e = 0 then s.setQueue c q { x with err := e, st := 0 }.restat
  else s.setQueue c q { x with err := e })

/-! ### Ending a command -/

/-- The command leaves its queue. -/
def Queue.drop (x : Queue) (id : Nat) : Queue :=
  { x with fetched := x.fetched.filter (fun k => k.id ≠ id), running := x.running.filter fun k => k.id ≠ id }

/-- A queue stops in state 3 with a code, and FQVEC is raised (R118). -/
def State.stopQueue (s : State) (c q : Nat) (code : Nat) : State :=
  let x := s.queue c q
  (s.setQueue c q { x with st := 3, err := BitVec.ofNat 8 code }).emit (.msix (s.ctx c).desc.fqvec)

/-- A command record fails (R118): its queue stops, and the host's TAG goes with the error (R115). A CTX command leaves its code in
LASTERR of its target (R111). -/
def State.failRec (s : State) (c q : Nat) (k : Cmd) (code : Nat) : State :=
  let s1 := ((s.setQueue c q ((s.queue c q).drop k.id)).stopQueue c q code).emit (.error c q k.tag code)
  let t := num k.pay 4 4
  if k.op = 7 then s1.setCtx t { s1.ctx t with lasterr := BitVec.ofNat 8 code } else s1

/-- A fetched or started command fails (R118); one that is no longer there has been abandoned (R119). -/
def State.failCmd (s : State) (c q id code : Nat) : State :=
  let x := s.queue c q
  match (x.fetched ++ x.running).find? fun k => k.id == id with
  | some k => s.failRec c q k code
  | none => s

/-- Write a completion word: none when a byte of it faults (R115). -/
def State.completionWord (s : State) (c : Nat) (k : Cmd) : Option State :=
  if k.sigaddr = 0 then some s
  else if bitOf k.flags 3 then
    if bitOf k.flags 2 then s.vaWrite c k.sigaddr (leBytes 8 k.sigval.toNat)
    else match s.vaWord c k.sigaddr with
      | some v => (s.noteRead c k.sigaddr 8).vaWrite c k.sigaddr (leBytes 8 (v + k.sigval).toNat)
      | none => none
  else
    let a := k.sigaddr.toNat
    match s.hostRead a 8 with
    | none => none
    | some bs =>
      let v := if bitOf k.flags 2 then k.sigval else BitVec.ofNat 64 (ofLeBytes bs) + k.sigval
      s.hostPut a (leBytes 8 v.toNat)

/-- Every waiting WAITV of a running context is to be tested again (R117). -/
def State.retestAll (s : State) : State :=
  (s.queues.filter fun e => e.2.running.any Cmd.isWaitv).foldl (fun t e => t.post (.waitvRetest e.1.1 e.1.2)) s

/-- A command completes (R115): its completion word, then its interrupt; a word that faults stops the queue. Once a power-fail
sequence has begun none is written (R119). -/
def State.completeCmd (s : State) (c q id : Nat) : State :=
  let x := s.queue c q
  match x.running.find? fun k => k.id == id with
  | none => s
  | some k =>
    let s1 := s.setQueue c q (x.drop id).restat
    if s.power.pf != .idle then s
    else match s1.completionWord c k with
    | none => (s1.stopQueue c q 3).emit (.error c q k.tag 3)
    | some s2 =>
      let s3 := if bitOf k.flags 1 then s2.emit (.msix x.qvec) else s2
      if k.sigaddr = 0 then s3 else s3.retestAll

/-! ### Records (R114, R115, R492) -/

/-- A command record from its 64 bytes. -/
def Cmd.ofBytes (id : Nat) (bs : List Byte) : Cmd :=
  { id := id, op := num bs 0 1, flags := num bs 1 1, tag := num bs 4 4, sigaddr := BitVec.ofNat 64 (num bs 8 8)
    sigval := BitVec.ofNat 64 (num bs 16 8), pay := (bs.drop 0x18).take 40, pend := [] }

/-- A payload field by its offset in the record. -/
def Cmd.fld (k : Cmd) (off n : Nat) : Nat := num k.pay (off - 0x18) n

/-- SUB. -/
def Cmd.sub (k : Cmd) : Nat := k.fld 0x18 4

/-- OP is undefined or SUB is out of range (R118, R492). -/
def Cmd.badOp (k : Cmd) : Bool :=
  k.op == 0 || decide (12 < k.op)
    || (match k.op with
      | 7 => decide (3 < k.sub) | 9 => decide (2 < k.sub) | 10 => decide (2 < k.sub) | 11 => decide (1 < k.sub) | _ => false)

/-- The payload fields that a command uses: offset and width (R492). -/
def Cmd.fields (k : Cmd) : List (Nat × Nat) :=
  match k.op with
  | 1 => [(0x18, 8)]
  | 2 => [(0x18, 8), (0x20, 8), (0x28, 8), (0x30, 8)]
  | 4 => [(0x18, 8), (0x20, 8), (0x28, 8)]
  | 5 => [(0x18, 8), (0x20, 8), (0x28, 8)]
  | 6 => [(0x18, 8), (0x20, 8), (0x28, 8)]
  | 7 => [(0x18, 4), (0x1C, 4)]
  | 8 => [(0x18, 8)]
  | 9 => (match k.sub with
      | 0 => [(0x18, 4), (0x20, 8), (0x28, 4)] | 1 => [(0x18, 4), (0x2C, 4)] | _ => [(0x18, 4)])
  | 10 => (match k.sub with
      | 0 => [(0x18, 4), (0x1C, 1), (0x20, 8), (0x28, 8), (0x30, 8)] | 1 => [(0x18, 4), (0x1C, 1)]
      | _ => [(0x18, 4), (0x30, 8)])
  | 11 => (match k.sub with
      | 0 => [(0x18, 4), (0x1C, 1), (0x1D, 1), (0x20, 8)] | _ => [(0x18, 4), (0x28, 8)])
  | 12 => if bitOf (k.fld 0x18 2) 0 then [(0x18, 2)] else [(0x18, 2), (0x1A, 2), (0x1C, 1)]
  | _ => []

/-- A byte outside the fields in use is not zero (R492). -/
def Cmd.strayByte (k : Cmd) : Bool :=
  (List.range 40).any fun i =>
    num k.pay i 1 != 0 && !k.fields.any fun f => decide (f.1 ≤ i + 0x18) && decide (i + 0x18 < f.1 + f.2)

/-- A value outside its range (R492). -/
def Cmd.badValue (k : Cmd) : Bool :=
  match k.op with
  | 1 => !hbmAligned (BitVec.ofNat 64 (k.fld 0x18 8)) 64
  | 2 => k.fld 0x28 8 == 0 || decide (2 ^ 40 < k.fld 0x28 8) || decide (8 ≤ k.fld 0x30 8)
  | 4 => k.fld 0x18 8 % 8 != 0 || decide (2 < k.fld 0x28 8)
  | 5 => k.fld 0x20 8 % 4096 != 0 || decide (1 < k.fld 0x28 8)
  | 6 => k.fld 0x20 8 % 4096 != 0 || decide (1 < k.fld 0x28 8)
  | 7 => decide (63 < k.fld 0x1C 4)
  | 10 => k.sub != 2 && decide (63 < k.fld 0x1C 1)
  | 11 => k.sub == 1 && decide (511 < k.fld 0x28 8) && k.fld 0x28 8 != 2 ^ 64 - 1
  | 12 => decide (1 < k.fld 0x18 2) || (!bitOf (k.fld 0x18 2) 0 && (decide (207 < k.fld 0x1A 2) || decide (63 < k.fld 0x1C 1)))
  | _ => false

/-- The header breaks R115: reserved flags, a misaligned completion word, or one outside the HBM window (assumption 116). -/
def Cmd.badHeader (k : Cmd) : Bool :=
  decide (16 ≤ k.flags) || k.sigaddr.toNat % 8 != 0
    || (k.sigaddr != 0 && bitOf k.flags 3 && (isFabric k.sigaddr || nonCanonical k.sigaddr || inScm k.sigaddr))

/-- The command fails with BADFIELD as it stands (R115, R492). -/
def Cmd.badField (k : Cmd) : Bool := k.badHeader || k.strayByte || k.badValue

/-- The reserved bytes of a record's header are not zero. -/
def recordRsv (bs : List Byte) : Bool := num bs 2 2 != 0

/-- The 64 bytes of the next record of a queue, none on a fault. -/
def State.nextRecord (s : State) (c : Nat) (x : Queue) : Option (List Byte) :=
  let a := x.base.toNat + 64 * (x.ri.toNat % 2 ^ x.qlog)
  if x.loc then s.vaRead c (BitVec.ofNat 64 a) 64 else s.hostRead a 64

/-- What fetching the next record leaves behind in device memory (R58). -/
def State.noteRecord (s : State) (c : Nat) (x : Queue) : State :=
  if x.loc then s.noteRead c (BitVec.ofNat 64 (x.base.toNat + 64 * (x.ri.toNat % 2 ^ x.qlog))) 64 else s

/-- A record may be fetched: the queue's last record has started, and its context runs (R114, R117, R119). -/
def State.canFetch (s : State) (c q : Nat) : Bool :=
  let x := s.queue c q
  s.up && (s.ctx c).st == .running && x.en && x.st != 3 && x.fetched.isEmpty && x.ri != x.qwi

/-- RECORD_FETCH (R114): RI advances and is written to RIADDR; a record that cannot be read, or whose code is undefined,
fails (R118). -/
def execRecordFetch (c q : Nat) (s : State) : Res :=
  .next (if !s.canFetch c q then s
  else
    let x := s.queue c q
    let x1 := { x with ri := x.ri + 1 }
    let s1 := { ((s.noteRecord c x).setQueue c q x1).hostIndex x.riaddr.toNat x1.ri with nextId := s.nextId + 1 }
    match s.nextRecord c x with
    | none => s1.stopQueue c q 3
    | some bs =>
      let k := Cmd.ofBytes s.nextId bs
      if k.badOp then s1.failRec c q k 1
      else if recordRsv bs then s1.failRec c q k 2
      else s1.setQueue c q { x1 with fetched := [k] }.restat)

/-! ### Starting a command (R117) -/

/-- The head command of a queue may start: nothing of a BARRIER's is left, and no WAITV of the queue waits. -/
def Queue.startable (x : Queue) : Bool :=
  x.st != 3 && !x.running.any Cmd.isWaitv
    && (match x.fetched with | k :: _ => !k.barrier || x.running.isEmpty | [] => false)

/-- Start the head command of a queue when it is of the kind named; a bad field fails it, else `f` acts. -/
def State.start (s : State) (c q : Nat) (is : Cmd → Bool) (f : State → Cmd → State) : Res :=
  let x := s.queue c q
  .next (match x.fetched with
  | [] => s
  | k :: rest =>
    if !s.up || (s.ctx c).st != .running || !x.startable || !is k then s
    else if k.badField then s.failRec c q k 2
    else f (s.turnQueue c q { x with fetched := rest, running := x.running ++ [k] }.restat) k)

/-- A command of one code. -/
def State.startOp (s : State) (c q op : Nat) (f : State → Cmd → State) : Res := s.start c q (fun k => k.op == op) f

/-- A command of one code and SUB. -/
def State.startSub (s : State) (c q op sub : Nat) (f : State → Cmd → State) : Res :=
  s.start c q (fun k => k.op == op && k.sub == sub) f

/-! ### LAUNCH, SIGNAL, WAITV (R116) -/

/-- LAUNCH (R116, R127, R132). -/
def execLaunch (c q : Nat) (s : State) : Res :=
  s.startOp c q 1 fun s k =>
    let va := BitVec.ofNat 64 (k.fld 0x18 8)
    match s.vaRead c va 64 with
    | none => s.failCmd c q k.id 3
    | some bs =>
      let r := LaunchRec.ofBytes bs
      let t := s.noteRead c va 64
      if !t.recordOk c r then t.failCmd c q k.id 2
      else t.enterLaunch c va r none [] (some (c, q, k.id)) none

/-- SIGNAL (R116). -/
def execSignal (c q : Nat) (s : State) : Res := s.startOp c q 3 fun s k => s.completeCmd c q k.id

/-- A WAITV's condition (R116). -/
def condHolds (cond v x : Nat) : Bool :=
  match cond with
  | 0 => decide (v ≤ x) | 1 => x == v | _ => x != v

/-- A WAITV has read its word: it completes, or waits for its next test (R116). -/
def State.judgeWaitv (s : State) (c q : Nat) (k : Cmd) (x : W64) : State :=
  if condHolds (k.fld 0x28 8) (k.fld 0x20 8) x.toNat then s.completeCmd c q k.id else s

/-- A WAITV reads its word over the fabric (R83, R116), one read at a time. -/
def State.askWaitv (s : State) (c q : Nat) (k : Cmd) : State :=
  let va := BitVec.ofNat 64 (k.fld 0x18 8)
  if s.fab.packets.any fun p => p.use == .waitv c q k.id then s
  else if (s.fabErr c (peerOf va) (lineOf va)).isSome then s.failCmd c q k.id 3
  else s.sendPacket { mkPacket ctlCore c (peerOf va) (lineOf va) 0 (granulesOf ((List.range 8).map (va.toNat % 128 + ·))) .read with
    use := .waitv c q k.id }

/-- Test a started WAITV: it completes, fails on a fault, or waits (R116, R117). -/
def State.testWaitv (s : State) (c q : Nat) (k : Cmd) : State :=
  let va := BitVec.ofNat 64 (k.fld 0x18 8)
  if isFabric va then s.askWaitv c q k
  else match s.vaWord c va with
    | none => s.failCmd c q k.id 3
    | some x => (s.noteRead c va 8).judgeWaitv c q k x

/-- WAITV (R116). -/
def execWaitv (c q : Nat) (s : State) : Res := s.startOp c q 4 fun s k => s.testWaitv c q k

/-- WAITV_RETEST (R117, R119). -/
def execWaitvRetest (c q : Nat) (s : State) : Res :=
  .next (match (s.queue c q).running.find? Cmd.isWaitv with
  | some k => if s.up && (s.ctx c).st == .running then s.testWaitv c q k else s
  | none => s)

/-! ### COPY (R116, R271) -/

/-- The engine command that moves the bytes of a COPY, in sectors. -/
def copyCmd (s : State) (c q : Nat) (k : Cmd) : EngCmd :=
  let w := fun n => BitVec.ofNat 64 n
  { id := s.nextId, op := 6, core := ctlCore, slot := 0, ctx := c, team := s.nextId, pc := 0
    desc := [w (k.fld 0x18 8), w (k.fld 0x20 8), w (k.fld 0x28 8), w (k.fld 0x30 8), w q, w k.id], mask := 0, idx := []
    tok := none, scope := 5, step := s.stepCtr.toNat, coll := none, vacant := false, started := true, skip := []
    sectors := [], failed := [], units := [], cur := none, pids := [], got := [], writing := false, secCode := 0
    status := 0, ncfg := 0 }

/-- The finished COPY of a queue. -/
def State.copyDone (s : State) (c q : Nat) : Option EngCmd :=
  s.cmds.find? fun e => e.isCopy && e.ctx == c && e.fld 4 0 8 == q && e.cur.isNone && decide (e.work ≤ e.sectors.length)

/-- COPY (R116): a finished one completes, or fails with FAULT; otherwise the head command starts. -/
def execCopy (c q : Nat) (s : State) : Res :=
  match s.copyDone c q with
  | some e =>
    let s1 := { s with cmds := s.cmds.filter fun d => d.id ≠ e.id }
    let id := e.fld 5 0 64
    .next (if e.status = 0 then s1.completeCmd c q id else s1.failCmd c q id 3)
  | none => s.startOp c q 2 fun s k => { s with nextId := s.nextId + 1, cmds := s.cmds ++ [copyCmd s c q k] }

/-! ### MAP, UNMAP (R51, R54) -/

/-- The command's range covers an address. -/
def Cmd.covers (k : Cmd) (a : Nat) : Bool := decide (k.fld 0x18 8 ≤ a) && decide (a < k.fld 0x18 8 + k.fld 0x20 8)

/-- The range of a command overlaps another. -/
def Cmd.overlaps (k : Cmd) (lo len : Nat) : Bool := decide (k.fld 0x18 8 < lo + len) && decide (lo < k.fld 0x18 8 + k.fld 0x20 8)

/-- The page of a local address that a channel holds in its translation unit: base and size; the 4 KiB unit where it holds none. -/
def State.pageAt (s : State) (c : Nat) (va : W64) : Nat × Nat :=
  match s.tlbLeaf (chanOf va) c va with
  | some e => (pageBase va (leafSz e), pageSize (leafSz e))
  | none => (va.toNat / 4096 * 4096, 4096)

/-- The lane used a translation of the range and is not performed (R51). -/
def State.usesRange (s : State) (c : Nat) (k : Cmd) (l : LaneAcc) : Bool :=
  l.isReady && !isFabric l.ea && k.overlaps (s.pageAt c l.ea).1 (s.pageAt c l.ea).2

/-- The accesses that used a translation which a MAP or UNMAP drops, and have still to complete at their channels (R51). -/
def State.rangeUsers (s : State) (c : Nat) (k : Cmd) : List Nat :=
  (s.accs.filter fun a => (a.ctx == c || bitOf (k.fld 0x28 8) 0) && a.lanes.any (s.usesRange a.ctx k)).map (·.id)

/-- The accesses that a started MAP or UNMAP waits for have completed at their channels. -/
def State.mapDone (s : State) (k : Cmd) : Bool :=
  (k.op == 5 || k.op == 6) && s.accs.all fun a => !k.pend.contains a.id || !a.lanes.any LaneAcc.isReady

/-- Drop the translations of a range and let held requests walk again (R51, R54). -/
def State.fence (s : State) (c : Nat) (k : Cmd) : State :=
  let glob := bitOf (k.fld 0x28 8) 0
  let unit := fun u : Nat => k.overlaps (4096 * u) 4096
  let s1 := s.dropRange c (k.fld 0x18 8) (k.fld 0x20 8) glob
  if glob then (List.range 64).foldl (fun t d => t.rewalk d unit) s1 else s1.rewalk c unit

/-- A MAP or UNMAP starts (R51): translations of the range go, and what used them is noted. -/
def State.startMap (s : State) (c q : Nat) (k : Cmd) : State :=
  let x := s.queue c q
  let k1 : Cmd := { k with pend := s.rangeUsers c k }
  (s.dropRange c (k.fld 0x18 8) (k.fld 0x20 8) (bitOf (k.fld 0x28 8) 0)).setQueue c q
    { x with running := x.running.map fun (j : Cmd) => if j.id = k.id then k1 else j }

/-- MAP and UNMAP (R51, R116): a started one whose fence holds completes; otherwise the head command starts, and completes at once
where nothing is to wait for. -/
def State.mapOp (s : State) (c q op : Nat) : Res :=
  match (s.queue c q).running.find? fun k => k.op == op && s.mapDone k with
  | some k => .next (if s.up then (s.fence c k).completeCmd c q k.id else s)
  | none =>
    s.startOp c q op fun s k =>
      if s.rangeUsers c k = [] then (s.fence c k).completeCmd c q k.id else s.startMap c q k

/-- MAP (R51). -/
def execMap (c q : Nat) (s : State) : Res := s.mapOp c q 5

/-- UNMAP (R51). -/
def execUnmap (c q : Nat) (s : State) : Res := s.mapOp c q 6

/-! ### RESUME (R55, R282, R491) -/

/-- Lanes that faulted replayably ask again. -/
def Access.reissue (a : Access) : Access :=
  { a with lanes := a.lanes.map fun l => if l.replaying then { l with st := .waiting } else l }

/-- A parked entry is issued again: a store in the replay queue, or a load with its weft. -/
def Access.resume (a : Access) : Access :=
  if !a.parked then a
  else if a.kind.reads then { a.reissue with parked := false, replayed := true }
  else if a.lanes.any LaneAcc.replaying then { a.reissue with settled := false }
  else a

/-- A parked weft goes on with its load or its fetch; one that a resume parked again with nothing to complete issues its group (R298). -/
def State.resumeWeft (s : State) (w : Weft) : Weft :=
  { w with parked := none
           unsettled := match w.parked.bind s.acc? with | some a => some a.id | none => w.unsettled }

/-- Issue again what the named wefts have parked (R55). -/
def State.resumeWhere (s : State) (who : Nat → Nat → Bool) (c : Nat) : State :=
  { s with
    accs := s.accs.map fun a => if a.ctx = c ∧ who a.core a.slot then a.resume else a
    wefts := s.wefts.map fun w => if w.ctx = c ∧ who w.core w.slot then s.resumeWeft w else w }

/-- RESUME (R55, R116). -/
def execResume (c q : Nat) (s : State) : Res :=
  s.startOp c q 12 fun s k =>
    let all := bitOf (k.fld 0x18 2) 0
    (s.resumeWhere (fun core slot => all || (core == k.fld 0x1A 2 && slot == k.fld 0x1C 1)) c).completeCmd c q k.id

/-! ### Fault queue (R120) -/

/-- FQ_READ_INDEX (R120): a value that would pass the write index is ignored; held records then follow. -/
def execFqReadIndex (c : Nat) (v : BitVec 32) (s : State) : Res :=
  let x := s.ctx c
  .next (if !s.up || decide (64 ≤ c) || decide ((x.fqwi - x.fqri).toNat < (v - x.fqri).toNat) then s
  else (s.setCtx c { x with fqri := v }).pumpRecords c x.fqheld.length)

end Sys2Proof.Machine
end

