-- ==== Sys2Proof/Machine/Context.lean ====
section
/-! DEFINITION. Contexts: creation, destruction, pre-emption, save and resume (R110-R112, R118, R119, R145-R149, R289, R290,
R294-R298). -/

namespace Sys2Proof.Machine

/-! ### Descriptors (R110-R112) -/

/-- A context descriptor from its 128 bytes (R110). -/
def CtxDesc.ofBytes (bs : List Byte) : CtxDesc :=
  let w := fun off : Nat => BitVec.ofNat 64 (num bs off 8)
  { hroot := w 0x00, sroot := w 0x08, fjob := BitVec.ofNat 16 (num bs 0x10 2), cprio := num bs 0x12 1 % 8
    admin := bitOf (num bs 0x13 1) 0, pdl := num bs 0x14 4, tvec := w 0x18, save := w 0x20, fqbase := w 0x30
    fqlog := num bs 0x38 1, fqvec := num bs 0x39 1, seed := BitVec.ofNat 32 (num bs 0x3C 4), fqwaddr := w 0x40
    qtab := w 0x28 }

/-- A descriptor breaks R111 in itself: a reserved field, FQLOG, a misaligned address. -/
def descBad (bs : List Byte) : Bool :=
  field (num bs 0x13 1) 1 7 != 0 || num bs 0x3A 2 != 0 || ((bs.drop 0x48).take 56).any (· != 0)
    || decide (num bs 0x38 1 < 6) || decide (20 < num bs 0x38 1)
    || num bs 0x18 8 % 4 != 0 || num bs 0x20 8 % 4096 != 0 || num bs 0x30 8 % 4096 != 0 || num bs 0x40 8 % 4 != 0

/-- A queue descriptor with EN = 1 breaks R111. -/
def qdescBad (bs : List Byte) : Bool :=
  bitOf (num bs 0x0A 1) 0
    && (field (num bs 0x0A 1) 2 6 != 0 || num bs 0x0C 4 != 0 || ((bs.drop 0x18).take 8).any (· != 0)
      || decide (num bs 0x08 1 < 4) || decide (16 < num bs 0x08 1) || num bs 0x00 8 % 4096 != 0 || num bs 0x10 8 % 4 != 0)

/-- The queue descriptors of QTAB (R112). -/
def State.qdescs (s : State) (d : CtxDesc) : List (List Byte) :=
  (List.range 64).map fun q => s.bytes (hostKey (d.qtab.toNat + 32 * q)) 32

/-- Bytes of a context descriptor and of QTAB (R110, R112). -/
def ctxDescLen : Nat := 128
def qtabLen : Nat := 2048

/-- A queue with the fields of its descriptor; its counts and its state stay (R112, R113). A QPRIO above 7 is kept as it is (assumption 115). -/
def Queue.load (x : Queue) (bs : List Byte) : Queue :=
  { x with en := bitOf (num bs 0x0A 1) 0, base := BitVec.ofNat 64 (num bs 0x00 8), qlog := num bs 0x08 1
           qprio := num bs 0x09 1, loc := bitOf (num bs 0x0A 1) 1, qvec := num bs 0x0B 1
           riaddr := BitVec.ofNat 64 (num bs 0x10 8) }

/-- The descriptor of a context as host memory holds it, with its checks, or the code of its failure: FAULT when it or QTAB cannot be
read, BADDESC when it is rejected (R111, R118). -/
def State.readDesc (s : State) (c : Nat) : Nat ⊕ CtxDesc :=
  let base := (s.ctx c).base.toNat
  if base % 128 ≠ 0 then .inl 5
  else match s.hostRead base ctxDescLen with
    | none => .inl 3
    | some bs =>
      let d := CtxDesc.ofBytes bs
      let twin := (List.range 64).any fun e => e != c && (s.ctx e).st != .free && (s.ctx e).desc.fjob == d.fjob
      if descBad bs || (d.fjob != 0 && twin) then .inl 5
      else if !s.hostOk d.qtab.toNat qtabLen then .inl 3
      else if (s.qdescs d).any qdescBad then .inl 5
      else .inr d

/-- Load every queue of a context from QTAB, each from a base given by `f`. -/
def State.loadQueues (s : State) (c : Nat) (d : CtxDesc) (f : Queue → Queue) : State :=
  ((List.range 64).zip (s.qdescs d)).foldl (fun t e => t.setQueue c e.1 ((f (t.queue c e.1)).load e.2)) s

/-! ### Creation (R110, R111) -/

/-- A level-2 save of the context in reserved SCM, whose records carry their seals (R104, R295, R298). -/
def State.l2Of (s : State) (c : Nat) : Option L2Save := s.power.l2.find? fun e => e.ctx == c && e.recs.all sealed

/-- A created context takes up its level-2 save: it is resumed by the device (assumption 21). -/
def State.adoptL2 (s : State) (c : Nat) : State :=
  match s.l2Of c with
  | none => s
  | some e =>
    let x := s.ctx c
    let s1 := s.setCtx c { x with st := .resuming, saved := some e.saved, nextSerial := e.x.nextSerial
                                  handles := e.x.handles }
    { s1 with
      power := { s1.power with l2 := s1.power.l2.filter fun d => d.ctx ≠ c }
      launches := s1.launches ++ e.launches.map (fun (l : Launch) => { l with cmd := none })
      pipes := s1.pipes ++ e.pipes
      itin := match e.itin with | some t => { t with st := if t.st = 1 then 2 else t.st, stopper := none } | none => s1.itin }

/-- Create a context from its descriptor (R110, R111); FQOVF starts clear (assumption 14). -/
def State.createCtx (s : State) (c : Nat) (d : CtxDesc) : State :=
  let x := s.ctx c
  let s1 := s.setCtx c { Context.free with st := .running, desc := d, base := x.base, lasterr := x.lasterr }
  (s1.loadQueues c d fun _ => Queue.off).adoptL2 c

/-- CONTEXT0_CREATE (R110): ignored once context 0 exists; a rejected descriptor sets LASTERR. -/
def execContext0Create (s : State) : Res :=
  .next (if !s.up || (s.ctx 0).st != .free then s
  else match s.readDesc 0 with
    | .inr d => s.createCtx 0 d
    | .inl e => s.setCtx 0 { s.ctx 0 with lasterr := BitVec.ofNat 8 e })

/-- A CTX command of one SUB: only from a context with ADMIN (R110, R118). -/
def State.ctxOp (s : State) (c q sub : Nat) (f : State → Cmd → Nat → State) : Res :=
  s.startSub c q 7 sub fun s k =>
    let t := k.fld 0x1C 4
    if !(s.ctx c).desc.admin then s.failCmd c q k.id 4 else f s k t

/-- CTX_CREATE (R111). -/
def execCtxCreate (c q : Nat) (s : State) : Res :=
  s.ctxOp c q 0 fun s k t =>
    if (s.ctx t).st ≠ .free then s.failCmd c q k.id 5
    else match s.readDesc t with
      | .inl e => s.failCmd c q k.id e
      | .inr d => (s.createCtx t d).completeCmd c q k.id

/-! ### Commands that wait on a context -/

/-- The command waits for the context's change to end. -/
def State.awaitCtx (s : State) (t c q id : Nat) : State :=
  s.setCtx t { s.ctx t with waiters := (s.ctx t).waiters ++ [(c, q, id)] }

/-- Complete every command that waits on a context. -/
def State.wakeCtx (s : State) (t : Nat) : State :=
  let ws := (s.ctx t).waiters
  ws.foldl (fun u w => u.completeCmd w.1 w.2.1 w.2.2) (s.setCtx t { s.ctx t with waiters := [] })

/-- The SUB of a running CTX command. -/
def State.waiterSub (s : State) (c q id : Nat) : Nat :=
  match (s.queue c q).running.find? fun k => k.id == id with
  | some k => k.sub
  | none => 4

/-- The context is gone: a destroy completes, what else waited on it fails (R118), and a command that the teardown itself abandoned does
neither (R119). -/
def State.wakeDestroyed (s : State) (t : Nat) : State :=
  let ws := (s.ctx t).waiters
  ws.foldl (fun u w => if u.waiterSub w.1 w.2.1 w.2.2 = 1 then u.completeCmd w.1 w.2.1 w.2.2
    else u.failCmd w.1 w.2.1 w.2.2 9) (s.setCtx t { s.ctx t with waiters := [] })

/-! ### Destruction and teardown (R119, R148, R149) -/

/-- CTX_DESTROY (R119, R148). -/
def execCtxDestroy (c q : Nat) (s : State) : Res :=
  s.ctxOp c q 1 fun s k t =>
    if (s.ctx t).st = .free then s.failCmd c q k.id 8
    else if (s.ctx t).st = .tearing then s.awaitCtx t c q k.id
    else (s.beginTeardown t).awaitCtx t c q k.id

/-- Every weft of the context has exited. -/
def State.ctxQuiet (s : State) (c : Nat) : Bool := s.wefts.all fun w => w.ctx != c || w.exited

/-- The holder of scratchpad whose contents are discarded: no context (R148, step 5). -/
def noCtx : Nat := 64

/-- TEARDOWN_COMPLETE (R148, step 6): allocations, handles and pipelines go, and CTXST returns to free. -/
def execTeardownComplete (c : Nat) (s : State) : Res :=
  let x := s.ctx c
  .next (if !s.up ∨ x.st ≠ .tearing ∨ !s.ctxQuiet c then s
  else
    let s1 := (s.vacate c).dropCtx c
    let s2 := { s1 with
      launches := s1.launches.filter fun l => l.ctx ≠ c
      pipes := s1.pipes.filter fun p => p.ctx ≠ c
      holds := s1.holds.filter fun h => h.ctx ≠ c
      allocs := s1.allocs.map fun (a : SpadAlloc) => if a.ctx = c then { a with ctx := noCtx } else a
      debug := if s1.debug = some c then none else s1.debug }
    let s3 := s2.setCtx c { Context.free with base := x.base, lasterr := x.lasterr, fqovf := x.fqovf, waiters := x.waiters }
    s3.wakeDestroyed c)

/-! ### Pre-emption (R145, R146, R289) -/

/-- CTX_PREEMPT (R118, R146). -/
def execCtxPreempt (c q : Nat) (s : State) : Res :=
  s.ctxOp c q 2 fun s k t =>
    if (s.ctx t).st = .free then s.failCmd c q k.id 8
    else if (s.ctx t).st ≠ .running then s.failCmd c q k.id 9
    else (s.startPreempt t .command).awaitCtx t c q k.id

/-- LPRIO of the resident teams of a context. -/
def State.residentPrios (s : State) (c : Nat) : List Nat :=
  (s.teams.filter fun t => t.ctx == c).filterMap fun t => (s.launch? t.ctx t.serial).map fun l => l.lrec.lprio

/-- The context that a slice expiry of a launch of priority `p` in context `x` pre-empts (R145). -/
def State.sliceVictim (s : State) (x p : Nat) : Option Nat :=
  let cand := (List.range 64).filter fun c =>
    c != x && (s.ctx c).st == .running && (s.residentPrios c).any fun n => decide (n < p)
  let high := fun c => (s.residentPrios c).foldl max 0
  cand.foldl (fun acc c => match acc with
    | none => some c
    | some b => if high c ≤ high b then some c else some b) none

/-- The launch waits for placement: dependencies met, teams unclaimed, context running (R130, R145). -/
def State.waiting (s : State) (l : Launch) : Bool := (s.ctx l.ctx).st == .running && !l.claimed && s.depsMet l

/-- TIME_SLICE_EXPIRY (R145). -/
def execTimeSliceExpiry (ctx serial : Nat) (s : State) : Res :=
  .next (match s.launch? ctx serial with
  | none => s
  | some l =>
    if !s.up || !s.waiting l then s
    else
      let s1 := s.setLaunch { l with waited := l.waited + 1 }
      match s1.sliceVictim ctx l.lrec.lprio with
      | some v => s1.startPreempt v .slice
      | none => s1)

/-- Cycles of the pre-emption deadline (R110, R289). -/
def CtxDesc.deadline (d : CtxDesc) : Nat := if d.pdl = 0 then 65536 else d.pdl

/-- The deadline runs at a weft: pre-empted with traps masked, not parked, not halted (R289). -/
def Weft.deadlineRuns (w : Weft) : Bool := w.preempt && w.tm && !w.isParked && !w.halted && !w.exited && w.stopped.isNone

/-- PDL_EXPIRY (R289, R290). -/
def execPdlExpiry (core slot : Nat) (s : State) : Res :=
  .next (match s.weft? core slot with
  | none => s
  | some w =>
    if w.deadlineRuns && decide ((s.ctx w.ctx).desc.deadline ≤ w.preemptAge) then
      s.fatal w .preempt w.em TInfo.none.word w.pc
    else s)

/-! ### Saving (R146, R147, R273, R295) -/

/-- A packet that a save waits for: one of a weft's or an engine's (R273). -/
def PktUse.holdsSave : PktUse → Bool
  | .access => true
  | .engine _ => true
  | _ => false

/-- An access is where a save may take it: it is parked, and nothing of it is on its way to be performed (R146, R273, R490). -/
def State.atRest (s : State) (a : Access) : Bool :=
  a.lanes.all fun l => l.closed || (a.parked && l.replaying)
    || match l.st with | .sent i => s.accs.any (fun b => b.id == i && b.split) | _ => false

/-- Every weft and operation of a context has come to where its save may be written (R146, R228, R273, R431, R465). -/
def State.canSave (s : State) (c : Nat) : Bool :=
  (s.ctx c).st == .preempting
    && s.wefts.all (fun w => w.ctx != c || w.exited || (w.saved && (w.pbars.isEmpty || s.replays w)))
    && s.accs.all (fun a => a.ctx != c || s.atRest a)
    && s.cmds.all (fun k => k.ctx != c || (k.coll.isSome && !k.started))
    && s.teams.all (fun t => t.ctx != c || t.mcmds.all fun m => m.rem != 0)
    && s.fab.comb.all (fun e => e.ctx != c) && s.fab.packets.all (fun k => k.ctx != c || !k.use.holdsSave)

/-- Write records into the save area; bytes that fault are not written (assumption 20). -/
def State.writeRecs (s : State) (c : Nat) (base : W64) : List ((Nat × Nat) × List Byte) → State
  | [] => s
  | (p, bs) :: r => ((s.vaWrite c (base + BitVec.ofNat 64 p.1) bs).getD s).writeRecs c base r

/-- A context makes ready for its save: its wefts stop, and the combining buffers send what they hold of it (R146, R273). -/
def State.drainFor (s : State) (c : Nat) : State :=
  if (s.ctx c).st = .preempting then (s.stopWefts c).flushComb fun e => e.ctx == c else s

/-- CONTEXT_SAVE (R146, R273, R295): the sections, then the header; the context's resources are free, and it is preempted. -/
def execContextSave (c : Nat) (s0 : State) : Res :=
  let s := if s0.up then s0.drainFor c else s0
  .next (if !s.up || !s.canSave c then s
  else
    let x := s.sections c 0x0F
    let base := (s.ctx c).desc.save
    let spans := recSpans 4096 x.records
    let s1 := { s with draws := s.draws + 2 }.writeRecs c base (spans.zip x.records)
    let s2 := (s1.vaWrite c base (x.header c 0x0F (zeros 32))).getD s1
    let keep := s2.saveOf c ((0, 4096) :: spans)
    let s3 := s2.vacate c
    (s3.setCtx c { s3.ctx c with st := .preempted, saved := some keep }).wakeCtx c)

/-! ### Restoring (R137, R145, R146, R294, R298) -/

/-- Vector registers that a partition of a core has free (R204). -/
def State.freeRegs (s : State) (core part : Nat) : Nat :=
  1024 - ((s.wefts.filter fun w => w.core == core && w.slot / 8 == part).map Weft.n).foldl (· + ·) 0

/-- A weft slot is free. -/
def State.slotFree (s : State) (core slot : Nat) : Bool := (s.weft? core slot).isNone

/-- Bytes of a scratchpad of a level (R238). -/
def levelBytes (level : Nat) : Nat :=
  match level with
  | 0 => coreBytesMax
  | 1 => clusBytesMax
  | _ => dieBytesMax

/-- Live ranges of a scratchpad: base and length. Level 3 stands for the stage queues of a pipeline, which lie in a die
scratchpad (R139). -/
def State.liveRanges (s : State) (level unit : Nat) : List (Nat × Nat) :=
  (s.allocs.filter fun a => a.live && min a.level 2 == min level 2 && a.unit == unit).map fun a => (a.base, a.len)

/-- Lowest base of a contiguous free range (R133). -/
def State.findRange (s : State) (level unit len : Nat) : Option Nat :=
  let live := s.liveRanges level unit
  let fits := fun b : Nat => decide (b + len ≤ levelBytes level) && live.all fun r => !(decide (b < r.1 + r.2) && decide (r.1 < b + len))
  (sortBy (fun a b => decide (a ≤ b)) (0 :: live.map fun r => r.1 + r.2)).find? fits

/-- Put the allocations of a save back, each in a free range of its scratchpad: the old and the new ones (R146). -/
def State.placeAllocs (s : State) : List SpadAlloc → Option (State × List (SpadAlloc × SpadAlloc))
  | [] => some (s, [])
  | a :: r =>
    match s.findRange a.level a.unit a.len with
    | none => none
    | some b =>
      let n : SpadAlloc := { a with base := b, live := true }
      match { s with allocs := s.allocs ++ [n] }.placeAllocs r with
      | none => none
      | some (t, ps) => some (t, (a, n) :: ps)

/-- The wefts of a save find their slots and registers free (R146). -/
def State.roomFor (s : State) (ws : List Weft) : Bool :=
  ws.all fun w => s.slotFree w.core w.slot
    && decide (((ws.filter fun v => v.core == w.core && v.slot / 8 == w.slot / 8).map Weft.n).foldl (· + ·) 0
      ≤ s.freeRegs w.core (w.slot / 8))

/-- New base of an allocation of a team or launch. -/
def newBase (ps : List (SpadAlloc × SpadAlloc)) (level unit owner old : Nat) : Nat :=
  match ps.find? fun p => p.1.level == level && p.1.unit == unit && p.1.owner == owner with
  | some p => p.2.base
  | none => old

/-- A team with the new bases of its allocations. -/
def Team.rebase (t : Team) (ps : List (SpadAlloc × SpadAlloc)) : Team :=
  { t with cbase := newBase ps 0 t.core t.id t.cbase, lbase := newBase ps 1 (clusOf t.core) t.id t.lbase
           dbase := newBase ps 2 (dieOf t.core) t.serial t.dbase }

/-- A key of an old allocation as a key of the new one. -/
def moveKey (ps : List (SpadAlloc × SpadAlloc)) (k : Nat) : Nat :=
  match ps.find? fun p => p.1.holds k with
  | some p => p.2.key + (k - p.1.key)
  | none => k

/-- A weft as a resume restores it (R294, R298): one saved as parked on a blocked register is parked again, under a number that no access
has. -/
def Weft.restore (w : Weft) (attached : Bool) (n : Nat) : Weft :=
  { w with stopped := none, preempt := false, released := false, halted := w.halted && attached, halting := false, looked := none
           waiting := none, parked := if w.savedParked && !w.isParked then some n else w.parked }

/-- Restore a context whose resources are free: every weft where it was (R137, R146, R298); none when they are not. -/
def State.restore (s : State) (c : Nat) : Option State :=
  match (s.ctx c).saved with
  | none => none
  | some v =>
    if !s.roomFor v.wefts then none
    else match s.placeAllocs v.allocs with
      | none => none
      | some (s1, ps) =>
        let s2 := s1.write (v.spad.map fun x => (moveKey ps x.1, x.2)) 0
        let s3 := { s2 with
          nextId := s2.nextId + 1
          pois := s2.pois ++ v.pois.map (moveKey ps)
          wefts := s2.wefts ++ v.wefts.map fun (w : Weft) => w.restore (s.debug == some c) s2.nextId
          teams := s2.teams ++ v.teams.map fun (t : Team) => t.rebase ps
          pipes := s2.pipes.map fun (p : Pipe) => if p.ctx = c then { p with qbase := newBase ps 3 p.qdie p.id p.qbase } else p
          accs := s2.accs ++ v.accs, cmds := s2.cmds ++ v.cmds
          itin := if s2.itin.bound = some c ∧ s2.itin.st = 2 then { s2.itin with st := 1 } else s2.itin }
        some (s3.setCtx c { s3.ctx c with st := .running, devpre := false, saved := none })

/-- PREEMPT_AUTO_RESUME (R145, R146): the resources of a context that is being resumed, or was pre-empted for time slice,
are free, and every weft is restored. -/
def execPreemptAutoResume (c : Nat) (s : State) : Res :=
  let x := s.ctx c
  .next (if !s.up || !(x.st == .resuming || (x.st == .preempted && x.reason == .slice)) then s
  else match s.restore c with
    | some t => (t.wakeCtx c).retestAll
    | none => s)

/-- Every record of a save still carries its seal (R298). -/
def State.sealsHold (s : State) (c : Nat) (v : Saved) : Bool :=
  v.recs.all fun r =>
    match s.vaRead c ((s.ctx c).desc.save + BitVec.ofNat 64 r.1) r.2 with
    | some bs => sealed bs
    | none => false

/-- CTX_RESUME (R110-R112, R118, R146, R298): the descriptor and QTAB are read again; the command completes once every weft
is restored. -/
def execCtxResume (c q : Nat) (s : State) : Res :=
  s.ctxOp c q 3 fun s k t =>
    let x := s.ctx t
    if x.st = .free then s.failCmd c q k.id 8
    else if x.st ≠ .preempted then s.failCmd c q k.id 9
    else match s.readDesc t with
      | .inl e => s.failCmd c q k.id e
      | .inr d =>
        match x.saved with
        | none => s.failCmd c q k.id 9
        | some v =>
          let s1 := (s.setCtx t { x with desc := d }).loadQueues t d id
          if !s1.sealsHold t v then s.failCmd c q k.id 9
          else
            let s2 := s1.setCtx t { s1.ctx t with st := .resuming, devpre := false }
            (s2.awaitCtx t c q k.id).post (.preemptAutoResume t)

end Sys2Proof.Machine
end

