-- ==== Sys2Proof/Machine/Fabric.lean ====
section
/-! DEFINITION. The Apzin fabric: requests of peers (R39, R71, R76, R83), answers at the source (R76-R79, R84, R490), planes and
ports (R67-R70, R74, R76, R81), and the events that a weft takes at a group boundary (R288, R84, R491). -/

namespace Sys2Proof

/-- DETAIL of FABRIC for an answer (R83, R84). -/
def FabResult.detail (r : FabResult) : Nat :=
  match r with
  | .page => 6 | .prot => 7 | .peerDown => 2 | .fenced => 3 | .noBind => 4 | .timeout => 5 | _ => 0

/-- KIND and LEVEL of a replayable answer (R53). -/
def FabResult.replay (r : FabResult) : Option (Nat × Nat) :=
  match r with
  | .notPres v => some (1, v)
  | .poolEmpty => some (2, 0)
  | _ => none

/-- The request was performed. -/
def FabResult.isOk (r : FabResult) : Bool :=
  match r with
  | .ok _ => true
  | _ => false

/-- What a request asks of its page (R50). -/
def FabReq.asks (r : FabReq) : Machine.Ask :=
  match r.op with
  | .read => .read
  | .fetch => .fetch
  | .write => .write
  | .sigSet => .write
  | _ => .atomic

/-- Local address of a request (R39). -/
def FabReq.va (r : FabReq) : W64 := Machine.peerVa (r.addr.setWidth 64)

end Sys2Proof

namespace Sys2Proof.Machine

/-- The package serves requests (R33, R103): until the hampers close, a power failure stops only what the package issues. -/
def State.serving (s : State) : Bool := s.boot.st == .ready && (s.power.pf == .idle || s.power.pf == .stopping)

/-! ### Ports (R72, R76, R80, R81) -/

/-- Flits of a packet that moves `n` granules (R72). -/
def granuleFlits (gm : BitVec 8) : Nat := 1 + (popCount (gm.setWidth 64) + 1) / 2

/-- Flits of a request (R72); a compare and swap has two operands a lane. -/
def Packet.flits (k : Packet) : Nat :=
  match k.op with
  | .read => 1
  | .fetch => 1
  | .atomic m _ => 1 + (k.ops.length * atomSize m.toNat * (if m = 14 ∨ m = 15 then 2 else 1) + 31) / 32
  | .sigSet => 1 + (8 * k.ops.length + 31) / 32
  | .heartbeat => 2
  | _ => granuleFlits k.gm

/-- Flits of the answer to a request (R72). -/
def FabReq.flits (r : FabReq) (x : FabResult) : Nat :=
  match r.op, x with
  | .read, .ok _ => granuleFlits r.gm
  | .fetch, .ok _ => granuleFlits r.gm
  | .atomic _ true, .ok bs => 1 + (bs.length + 31) / 32
  | _, _ => 1

/-- A packet as the request that its peer sees (R72). -/
def State.asRequest (s : State) (k : Packet) : FabReq :=
  { src := s.fab.pkgid.toNat, seq := k.pid, sport := s.fab.sport, fjob := k.fjob, addr := BitVec.ofNat 54 (k.line * 128), gm := k.gm
    tier := k.tier, plane := k.plane, op := k.op, bytes := k.bytes.map fun b => (b.1, b.2.1), ops := k.ops }

/-- A packet of a darner, which is sent until it is taken in (R190, R194). -/
def PktUse.darns : PktUse → Bool
  | .delta _ | .rebuild => true
  | _ => false

/-- The port at which a packet waits; a darner's, the one that R74 gives now, and none while R83 gives an error (assumption 112). -/
def State.portOf (s : State) (k : Packet) : Option Nat :=
  if !k.use.darns then some k.plane
  else if (s.fabErr k.ctx k.peer k.line).isSome then none else s.planeOf k.peer k.line

/-- A packet stays behind an earlier one to its peer, line and tier that is not answered and went out on another plane (R75). -/
def State.overtakes (s : State) (k : Packet) (port : Nat) : Bool :=
  s.fab.packets.any fun j => decide (j.pid < k.pid) && j.peer == k.peer && j.line == k.line && j.tier == k.tier && j.sent && j.plane != port

/-- The first answer, and the first request that may go, in the VCs of a tier at a port. -/
def State.respAt (s : State) (port tier : Nat) : Option Resp := s.fab.resps.find? fun r => r.plane == port && r.tier == tier
def State.reqAt (s : State) (port tier : Nat) : Option Packet :=
  s.fab.packets.find? fun k => !k.sent && s.portOf k == some port && k.tier == tier && !s.overtakes k port

/-- A packet as it leaves its port (R72, R74). -/
def State.leaving (s : State) (k : Packet) (port : Nat) : Packet :=
  if !k.use.darns then { k with sent := true }
  else { k with sent := true, plane := port, fjob := (s.ctx k.ctx).desc.fjob, sport := (s.peer k.peer).sport }

/-- A port has a packet of a tier ready; throttle step 2 holds what would be injected in T2 (R81), answers to
peers among it (assumption 114). -/
def State.tierReady (s : State) (port tier : Nat) : Bool :=
  ((s.respAt port tier).isSome || (s.reqAt port tier).isSome) && !(tier == 2 && s.power.t2off)

/-- The starvation counters of a port after it has sent `n` flits of a tier (R81). -/
def State.starveAfter (s : State) (port tier n : Nat) : State :=
  let next := fun (t c : Nat) => if t = tier then 0 else if s.tierReady port t then c + n else c
  { s with fab := { s.fab with starve := modAt s.fab.starve port fun c => (next 1 c.1, next 2 c.2) } }

/-- A port sends the next packet of a tier whole, response before request (R80). -/
def State.sendTier (s : State) (port tier : Nat) : State :=
  match s.respAt port tier, s.reqAt port tier with
  | some r, _ =>
    let t := (s.starveAfter port tier r.flits).emit (.fabric r.peer r.seq r.plane r.res)
    { t with fab := { t.fab with resps := t.fab.resps.eraseIdx (t.fab.resps.findIdx (· == r)) } }
  | none, some k =>
    let j := s.leaving k port
    let t := (s.starveAfter port tier k.flits).emit (.request j.sport (s.asRequest j))
    let go := fun x : Packet => if x.pid = k.pid then j else x
    { t with fab := { t.fab with packets := t.fab.packets.map go } }
  | none, none => s

/-- Thresholds of the starvation counters (R81). -/
def starveLimit (tier : Nat) : Nat := if tier = 1 then 64 else 256

/-- The next packet slot of a port goes to a tier that has starved; T1 takes the first of two (R81). -/
def State.forced (s : State) (port tier : Nat) : Bool :=
  let c := s.fab.starve.getD port (0, 0)
  let due := fun t : Nat => s.tierReady port t && decide (starveLimit t ≤ if t = 1 then c.1 else c.2)
  if tier = 1 then due 1 else tier == 2 && due 2 && !due 1

/-- STARVATION_FORCE (R81): the forced slot; the counter of the tier clears as it sends. -/
def execStarvationForce (port tier : Nat) (s : State) : Res := .next (if s.forced port tier then s.sendTier port tier else s)

/-- An ordinary packet slot of a port (R80): T0 before T1 before T2. -/
def State.sendPort (s : State) (port : Nat) : State :=
  if s.forced port 1 || s.forced port 2 then s
  else match [0, 1, 2].find? (s.tierReady port) with
    | some t => s.sendTier port t
    | none => s

/-- Every port that is up sends a packet (assumption 95). -/
def State.sendPorts (s : State) : State :=
  ((List.range 36).filter fun p => s.fab.up.getLsbD p).foldl (fun t p => t.sendPort p) s

/-- Forced slots that are due. -/
def State.dueForced (s : State) : List Instr :=
  (List.range 36).flatMap fun p =>
    if !s.fab.up.getLsbD p then [] else if s.forced p 1 then [.starvationForce p 1] else if s.forced p 2 then [.starvationForce p 2] else []

/-! ### Answers -/

/-- Close the lanes that went out in a packet, or wait on a replay entry, and with each access so finished the lanes that
wait on it (R84, R490). -/
def State.closeSent : Nat → State → Nat → LaneSt → State
  | 0, s, _, _ => s
  | n + 1, s, src, st =>
    ((s.accs.filter fun a => a.lanes.any fun l => l.st == LaneSt.sent src).map (·.id)).foldl (fun t id =>
      let t1 := (t.setLanes id (fun l => l.st == LaneSt.sent src) st).progress id
      if (t1.acc? id).isNone then State.closeSent n t1 id st else t1) s

/-- Slots whose stores supplied bytes of a packet. -/
def Packet.slots (k : Packet) : List Nat := distinct (k.bytes.map fun b => b.2.2)

/-- Fabric-window address of a packet's line. -/
def Packet.lineVa (k : Packet) : W64 := BitVec.ofNat 64 (2 ^ 63 + k.peer * 2 ^ 54 + k.line * 128)

/-- The replay entry of one weft of a packet, under the number of its latest store there (R490). -/
def Packet.replayEntry (k : Packet) (id op slot step : Nat) (ord : Option Nat) : Access :=
  let mine := k.bytes.filter fun b => b.2.2 == slot
  { id := id, core := k.core, slot := slot, ctx := k.ctx, pc := 0, next := 0, rstep := 0, kind := .store, size := 1
    signExt := false, scalar := true, dst := .discard, mask := 0
    lanes := mine.map fun b => { lane := 0, ea := k.lineVa + BitVec.ofNat 64 b.1, data := b.2.1.toNat, swap := 0, st := .replay 0 0 }
    settled := true, parked := true, replayed := true, nt := k.tier == 1, step := step, cnt := none, gm := 0, heldBy := none
    acq := false, offs := [], op := op, ord := ord, split := true }

/-- The core splits a packet for one weft: the replay entry, the lanes that wait on it, and the fault record (R490). -/
def State.splitFor (s : State) (k : Packet) (kind level slot : Nat) : State :=
  let id := s.nextId
  let move := fun a : Access =>
    if a.core = k.core ∧ a.slot = slot then
      { a with lanes := a.lanes.map fun (l : LaneAcc) => if l.st = .sent k.pid then { l with st := .sent id } else l }
    else a
  let own := s.accs.filter fun a => a.core == k.core && a.slot == slot && a.lanes.any fun l => l.st == .sent k.pid
  let ord := (own.filterMap (·.ord)).foldl (fun m o => some (max o (m.getD 0))) none
  let rec0 : FaultRec :=
    { va := k.lineVa, lmask := 0, kind := kind, level := level, acc := 18, core := k.core, slot := slot, seq := 0, pclo := 0 }
  { s with nextId := id + 1, accs := s.accs.map move ++ [k.replayEntry id ((own.map Access.op).foldl max 0) slot s.stepCtr.toNat ord] }.writeRecord k.ctx rec0

/-- The answer of a combined write (R78, R84, R490). -/
def State.answerWrite (s : State) (k : Packet) (r : FabResult) : State :=
  let n := s.accs.length + 1
  match r with
  | .ok _ => State.closeSent n s k.pid .done
  | _ =>
    match r.replay with
    | some (kind, level) =>
      State.closeSent n (k.slots.foldl (fun t slot => t.splitFor k kind level slot) s) k.pid .done
    | none =>
      State.closeSent n (k.slots.foldl (fun t slot => t.weftEvent k.core slot (.fabric r.detail)) s) k.pid .dropped

/-- The value that a lane gets from a line answered by the peer (R79): bytes that the core holds now, or held as the request went out, in place
of the peer's. -/
def State.fabValue (s : State) (a : Access) (k : Packet) (bs : List Byte) (l : LaneAcc) : Nat :=
  let off := l.ea.toNat % 128
  ofLeBytes ((List.range a.size).map fun i =>
    match s.heldByte k.core k.ctx k.peer k.line (off + i) with
    | some b => b
    | none => if l.swap / 256 ^ i % 256 = 1 then BitVec.ofNat 8 (l.data / 256 ^ i) else bs.getD (off + i) 0)

/-- A lane with its answer: old values of an atomic stand in lane order (R77), bytes of a line at their offsets. -/
def State.laneAnswer (s : State) (a : Access) (k : Packet) (bs : List Byte) (l : LaneAcc) : LaneAcc :=
  match a.kind with
  | .atomic _ _ =>
    let i := k.lanes.findIdx (· == l.lane)
    { l with data := ofLeBytes ((bs.drop (a.size * i)).take a.size), st := .done }
  | .load => { l with data := s.fabValue a k bs l, st := .done }
  | .swait _ _ => { l with data := s.fabValue a k bs l, st := .done }
  | .launch _ _ _ => { l with data := s.fabValue a k bs l, st := .done }
  | .fetch => { l with data := s.fabValue a k bs l, st := .done }
  | _ => { l with st := .done }

/-- The state of a lane whose access needs an answer, after an error (R52, R63, R84). -/
def errorLane (r : FabResult) : LaneSt :=
  match r with
  | .page => .bad .page 0
  | .prot => .bad .prot 0
  | .softErr => .bad .softerr 0
  | r => .bad .fabric r.detail

/-- The answer of a read or an atomic (R76, R84). -/
def State.answerAccess (s : State) (k : Packet) (r : FabResult) : State :=
  match k.accs.head?.bind s.acc? with
  | none => s
  | some a =>
    let mine := fun l : LaneAcc => l.st == LaneSt.sent k.pid
    let put := fun f : LaneAcc → LaneAcc => s.setAcc { a with lanes := a.lanes.map fun l => if mine l then f l else l }
    match r, r.replay with
    | .ok bs, _ => (put (s.laneAnswer a k bs)).progress a.id
    | _, some (kind, level) => (put fun l => { l with st := .replay kind level }).progress a.id
    | _, none =>
      if a.kind.reads then (put fun l => { l with st := errorLane r }).progress a.id
      else
        let c : Cause := if r = .softErr then .softerr else .fabric
        ((put fun l => { l with st := .dropped }).lateFault a.core a.slot c (.fabric r.detail)).progress a.id

/-- The answer of an itinerary atomic: any failure is LINK, and a post's weft takes FABRIC (R167, R84). -/
def State.answerItin (s : State) (k : Packet) (slot : Option Nat) (r : FabResult) : State :=
  match r with
  | .ok _ => s
  | _ =>
    let s1 := s.itinError 4 s.itin.head
    match slot with
    | some n => s1.weftEvent k.core n (.fabric r.detail)
    | none => s1

/-- A darner's packet that was not taken in stands in its port's VC again (R180, R190, R194). -/
def State.sendAgain (s : State) (k : Packet) : State :=
  let up := fun x : Packet => if x.pid = k.pid then { x with sent := false } else x
  { s with fab := { s.fab with packets := s.fab.packets.map up } }

/-- A line of a parity delta has been accepted (R199). -/
def State.noteAccepted (s : State) (n : Nat) (k : Packet) : State :=
  { s with snap := { s.snap with accepted := (n, k.peer, k.line) :: s.snap.accepted } }

/-- The word of a WAITV has come from the fabric window (R116): it completes the command, leaves it to its next test, or has faulted. -/
def State.answerWaitv (s : State) (c q id : Nat) (r : FabResult) : State :=
  match (s.queue c q).running.find? fun x => x.id == id, r with
  | none, _ => s
  | some x, .ok bs => s.judgeWaitv c q x (BitVec.ofNat 64 (ofLeBytes ((bs.drop (x.fld 0x18 8 % 128)).take 8)))
  | some x, _ => s.failCmd c q x.id 3

/-- The answer of a packet (R76). -/
def State.respond (s : State) (pid : Nat) (r : FabResult) : State :=
  match s.fab.packets.find? fun (k : Packet) => k.pid == pid with
  | none => s
  | some k =>
    let s1 := { s with fab := { s.fab with packets := s.fab.packets.filter fun (x : Packet) => x.pid ≠ pid } }
    match k.use with
    | .engine id =>
      (match s1.cmd? id with
        | some c => s1.setCmd { c with got := c.got ++ [(k.peer * 2 ^ 47 + k.line, r)], pids := c.pids.filter (· ≠ pid) }
        | none => s1)
    | .itin slot => s1.answerItin k slot r
    | .access => if k.op = .write then s1.answerWrite k r else s1.answerAccess k r
    | .delta n => if r.isOk then (s1.noteAccepted n k).post .encodeStep else s.sendAgain k
    | .rebuild => if r.isOk then s1 else s.sendAgain k
    | .heartbeat => s1
    | .waitv c q id => s1.answerWaitv c q id r

/-- The packet of a number is on its way. -/
def State.isOut (s : State) (pid : Nat) : Bool := s.fab.packets.any fun k => k.pid == pid && k.sent

/-- FABRIC_RESPONSE (R76, R79, R84, R490). -/
def execFabricResponse (pid : Nat) (r : FabResult) (s : State) : Res := .next (if s.up && s.isOut pid then s.respond pid r else s)

/-- FABRIC_TIMEOUT (R83). -/
def execFabricTimeout (pid : Nat) (s : State) : Res := .next (if s.up && s.isOut pid then s.respond pid .timeout else s)

/-- Cycles without a write after which an entry of a combining buffer is sent (R78). -/
def combIdle : Nat := 1024

/-- COMBINE_IDLE_FLUSH (R78). -/
def execCombineIdleFlush (core i : Nat) (s : State) : Res :=
  .next (match (s.fab.comb.filter fun e => e.core == core)[i]? with
  | some e => if s.up && decide (combIdle ≤ e.age) then s.sendComb e else s
  | none => s)

/-! ### Planes and ports -/

/-- A request that no plane can carry any more ends with PEERDOWN (R74, R83). -/
def State.respondDown (s : State) (pid : Nat) : State := s.respond pid .peerDown

/-- Unanswered requests of a plane go out again on the plane that R74 gives now, in issue order and before later ones; without one they end
with PEERDOWN; answers that the plane has not carried are lost (R76). -/
def State.resend (s : State) (plane : Nat) : State :=
  (s.fab.packets.filter fun k => k.plane == plane && k.peer != s.fab.pkgid.toNat).foldl (fun t k =>
    match t.planeOf k.peer k.line with
    | some p =>
      let up := fun x : Packet => if x.pid = k.pid then { x with plane := p, sent := false, resent := true } else x
      { t with fab := { t.fab with packets := t.fab.packets.map up } }
    | none => t.respondDown k.pid) { s with fab := { s.fab with resps := s.fab.resps.filter fun r => r.plane ≠ plane } }

/-- Requests that wait take the plane that R74 gives now: all those to one peer, line and tier the same (R75). -/
def State.replan (s : State) : State :=
  let f := fun k : Packet => if k.sent then k else { k with plane := (s.planeOf k.peer k.line).getD k.plane }
  { s with fab := { s.fab with packets := s.fab.packets.map f } }

/-- Members to which every plane is down are lost (R192). -/
def State.postLosses (s : State) : State :=
  match s.snap.group with
  | none => s
  | some g =>
    let gone := (g.members.take (g.k + g.m)).filter fun p =>
      p != g.me && !s.snap.lost.contains p && ((s.peer p).planes &&& s.fab.up) == 0
    if g.spare then s else gone.foldl (fun t p => t.post (.memberLoss p)) s

/-- A plane goes down (R76, R125, R192). -/
def State.planeDown (s : State) (plane : Nat) : State :=
  if !s.fab.up.getLsbD plane then s
  else
    let one := BitVec.ofNat 36 (2 ^ plane)
    (({ s with fab := { s.fab with up := s.fab.up &&& ~~~one, fell := s.fab.fell ||| one } }.resend plane).alert 8).postLosses

/-- PLANE_SILENCE_TIMEOUT (R76). -/
def execPlaneSilenceTimeout (plane : Nat) (s : State) : Res := .next (if s.serving then s.planeDown plane else s)

/-- SWITCH_PORT_FAILED (R76). -/
def execSwitchPortFailed (plane : Nat) (s : State) : Res := .next (if s.serving then s.planeDown plane else s)

/-- SWITCH_REACHABILITY_REPORT (R76): the PLANES bits of a peer; packets on planes that no longer reach it are resent. -/
def execSwitchReachabilityReport (peer : Nat) (planes : BitVec 36) (s : State) : Res :=
  .next (if !s.serving || decide (512 ≤ peer) then s
  else
    let s1 := s.putPeer peer fun e => { e with planes := planes }
    let lost := (s1.fab.packets.filter fun k => k.peer == peer && k.peer != s1.fab.pkgid.toNat && !planes.getLsbD k.plane)
    (lost.foldl (fun t k =>
      match t.planeOf peer k.line with
      | some p =>
        let up := fun x : Packet => if x.pid = k.pid then { x with plane := p, sent := false, resent := true } else x
        { t with fab := { t.fab with packets := t.fab.packets.map up } }
      | none => t.respondDown k.pid) s1).postLosses.replan)

/-- FABRIC_LINK_TRAINED (R67, R69): SPORT and TRAINED are learned; a plane that went down and comes back is an event of R125. -/
def execFabricLinkTrained (plane : Nat) (sport : BitVec 9) (s : State) : Res :=
  .next (if s.boot.st == .off || decide (36 ≤ plane) then s
  else
    let one := BitVec.ofNat 36 (2 ^ plane)
    let s1 := { s with fab := { s.fab with sport := sport, trained := true, up := s.fab.up ||| one, fell := s.fab.fell &&& ~~~one } }
    (if s.fab.fell.getLsbD plane then s1.alert 8 else s1).replan)

/-- PKGID_WRITE (R70). -/
def execPkgidWrite (v : BitVec 9) (s : State) : Res :=
  .next (if !s.up || s.ctxs.any fun x => x.st != .free && x.desc.fjob != 0 then s
  else { s with fab := { s.fab with pkgid := v } })

/-! ### Events of a weft (R288, R491) -/

/-- The weft waits in an instruction that an event backs out, as against before its issue (R288). -/
def Weft.inside (w : Weft) : Bool :=
  w.unsettled.isSome || match w.waiting with
    | some .barrier | some (.knot _ _) | some .swait | some .order | some .counter | some .queue | some .task => true
    | some .register | some .entry | some .count | some .place | some .range | some .step | some .ration | some .cap | none => false

/-- A weft may take an event of rank 6: nothing of R288 holds it, and no higher event is due. An event waits for the re-issue
of a `tret` with PL. -/
def State.eventFree (s : State) (w : Weft) : Bool :=
  !w.exited && !w.injected && w.stopped.isNone && !w.tm && !w.isParked && !w.halted && !w.halting && !w.stepping && !w.preemptFree && !w.narrow
    && s.atBoundary w

/-- A weft takes an event of kind E (R278, R288): a waiting instruction is backed out, and the rest of a sleep dropped. -/
def State.takeEvent (s : State) (w : Weft) (cause : Cause) (lanes : W64) (detail : Nat) (rest : List WeftEvent) : State :=
  let r := s.backOut { w with events := rest, sleep := 0, yielded := false }
  r.1.takeTrap r.2 cause lanes { TInfo.none with nxt := !w.inside, detail := detail }.word w.pc

/-- FABRIC_EVENT (R84, R288). -/
def execFabricEvent (core slot : Nat) (s : State) : Res :=
  .next (match s.weft? core slot with
  | none => s
  | some w =>
    match w.events with
    | .fabric d :: rest => if s.up && s.eventFree w then s.takeEvent w .fabric 0 d rest else s
    | _ => s)

/-- DEFERRED_FAULT_EVENT (R491, R288). -/
def execDeferredFaultEvent (core slot : Nat) (s : State) : Res :=
  .next (match s.weft? core slot with
  | none => s
  | some w =>
    match w.events with
    | .deferred c lanes :: rest => if s.up && s.eventFree w then s.takeEvent w c lanes 0 rest else s
    | _ => s)

end Sys2Proof.Machine
end

