-- ==== Sys2Proof/Machine/HostLink.lean ====
section
/-! DEFINITION. The host register window (R108), the board management interface (R26, R122-R125), and the attestation mailboxes
(R31, R109, R124). -/

namespace Sys2Proof.Machine

/-! ### Alerts (R123, R125) -/

/-- The alert registers change; an in-band interrupt goes out when the enabled bits rise from none (R125). -/
def State.setAlert (s : State) (st en : BitVec 9) : State :=
  let s1 := { s with host := { s.host with alertst := st, alerten := en } }
  if s.host.ibiOn && (s.host.alertst &&& s.host.alerten) == 0 && (st &&& en) != 0 then s1.emit (.ibi ((st &&& en).setWidth 8))
  else s1

/-- ALERT_CLEAR (R125). -/
def execAlertClear (v : BitVec 64) (s : State) : Res :=
  .next (s.setAlert (s.host.alertst &&& ~~~(v.setWidth 9)) s.host.alerten)

/-- I3C_DYNAMIC_ADDRESS_ASSIGNMENT (R26). -/
def execI3cDynamicAddressAssignment (a : BitVec 7) (s : State) : Res :=
  .next { s with host := { s.host with i3cAddr := a } }

/-- I3C_EVENT_ENABLE (R26, R125). -/
def execI3cEventEnable (on : Bool) (s : State) : Res := .next { s with host := { s.host with ibiOn := on } }

/-- I3C_RESET (R26): the interface is at its static address with in-band interrupts off. -/
def execI3cReset (s : State) : Res := .next { s with host := { s.host with i3cAddr := 0x4A, ibiOn := false, i3cOff := 0 } }

/-! ### Quotes (R31, R109, R124) -/

/-- A mailbox: 0 the host's, 1 I3C's. -/
def HostIf.box (h : HostIf) (i : Nat) : Mailbox := if i = 0 then h.mb else h.imb

/-- Replace a mailbox. -/
def State.setBox (s : State) (i : Nat) (m : Mailbox) : State :=
  { s with host := if i = 0 then { s.host with mb := m } else { s.host with imb := m } }

/-- Bytes of a mailbox. -/
def Mailbox.bytes (m : Mailbox) (off n : Nat) : List Byte := (List.range n).map fun i => Memory.get m.data (off + i)

/-- An I3C quote has ended (R124). -/
def State.quoteAlert (s : State) (i : Nat) : State := if i = 1 then s.alert 2 else s

/-- GO on a mailbox (R109, R124): refused with ERR, started, or left waiting for the shared engine. -/
def State.goQuote (s : State) (i : Nat) : State :=
  let m := s.host.box i
  let n := ofLeBytes (m.bytes 0 2)
  if !s.up || m.busy || n < 32 || 64 < n then (s.setBox i { m with err := true }).quoteAlert i
  else
    let s1 := s.setBox i { m with busy := true }
    if s.host.quote.isNone then { s1 with host := { s1.host with quote := some i } }
    else { s1 with host := { s1.host with quoteWait := some i } }

/-- QUOTE_GO (R109). -/
def execQuoteGo (s : State) : Res := .next (s.goQuote 0)

/-- IMB_QUOTE_GO (R124). -/
def execImbQuoteGo (s : State) : Res := .next (s.goQuote 1)

/-- The signed part of a quote (R109). -/
def State.quoteBody (s : State) (nonce : List Byte) : List Byte :=
  padTo 64 nonce ++ padTo 16 s.boot.serial ++ padTo 48 (sha384 s.boot.record) ++ padTo 48 (sha384 s.boot.image)
    ++ leBytes 4 s.boot.fwver.toNat ++ leBytes 4 s.boot.floor

/-- A quote (R109): 16,792 bytes, signed under both identity keys (R30, R31); salt and signing seed are random (assumption 84). -/
def State.quoteBytes (s : State) (nonce : List Byte) : List Byte :=
  let b := s.quoteBody nonce
  let k := idRsa s.boot.secret
  b ++ padTo rsaLen (rsaSign k.1 k.2.2 b (padTo 48 (Config.random s.draws 48)))
    ++ padTo slhSigLen (slhSign (idSlh s.boot.secret) b (padTo 24 (Config.random (s.draws + 1) 24)))

/-- LEN of a quote (R109). -/
def quoteLen : Nat := 16792

/-- QUOTE_DONE (R109, R124): the running quote is written, and a waiting one starts. -/
def execQuoteDone (s : State) : Res :=
  .next (match s.host.quote with
  | none => s
  | some i =>
    if !s.up then s
    else
      let m := s.host.box i
      let q := s.quoteBytes (m.bytes 8 (ofLeBytes (m.bytes 0 2)))
      let s1 := { s with draws := s.draws + 2 }.setBox i { m with busy := false, done := true, len := quoteLen, data := Memory.setAll m.data (cellsFrom 0 q) }
      { s1 with host := { s1.host with quote := s1.host.quoteWait, quoteWait := none } }.quoteAlert i)

/-- W1C bits of MBCTL or IMBCTL, then GO (R109). -/
def State.writeMbctl (s : State) (i : Nat) (v : W64) : State :=
  let m := s.host.box i
  let s1 := s.setBox i { m with done := m.done && !v.getLsbD 2, err := m.err && !v.getLsbD 3 }
  if v.getLsbD 0 then s1.goQuote i else s1

/-- MBCTL as a word (R109). -/
def Mailbox.ctl (m : Mailbox) : Nat := 2 * b2n m.busy + 4 * b2n m.done + 8 * b2n m.err + 16 * m.len

/-! ### The host register window (R108) -/

/-- Bytes from an offset are written to a mailbox. -/
def State.writeMbdata (s : State) (i off : Nat) (bs : List Byte) : State :=
  let m := s.host.box i
  s.setBox i { m with data := Memory.setAll m.data (cellsFrom off bs) }

/-- Write a peer-table entry (R69, R70). -/
def State.writePeer (s : State) (n : Nat) (v : W64) : State :=
  s.putPeer n fun e => { e with v := v.getLsbD 0, sport := v.extractLsb' 1 9, st := v.extractLsb' 10 2 }

/-- The registers of a context (R110, R111, R120). -/
def writeCtxReg (c k : Nat) (v : W64) (s : State) : Res :=
  let x := s.ctx c
  match k with
  | 0 => .next (s.setCtx c { x with base := v })
  | 1 => .next (s.setCtx c { x with fqovf := x.fqovf && !v.getLsbD 4 })
  | 2 => execFqReadIndex c (v.setWidth 32) s
  | _ => if c = 0 ∧ v.getLsbD 0 then execContext0Create s else .next s

/-- A write to a defined offset; none for an offset that the window does not define (R108). -/
def hostWrite (off : Nat) (v : W64) (s : State) : Option Res :=
  if off = 0 ∨ off = 8 ∨ off = 0x10 then some (.next s)
  else if off = 0x100 then some (execPkgidWrite (v.setWidth 9) s)
  else if 0x1000 ≤ off ∧ off < 0x2000 then some (.next (s.writePeer ((off - 0x1000) / 8) v))
  else if 0x2000 ≤ off ∧ off < 0x2080 then some (.next s)
  else if off = 0x4000 then some (.next (s.writeMbctl 0 v))
  else if 0x8000 ≤ off ∧ off < 0x10000 then some (.next (s.writeMbdata 0 (off - 0x8000) (leBytes 8 v.toNat)))
  else if 0x10000 ≤ off ∧ off < 0x10800 then some (writeCtxReg ((off - 0x10000) / 32) (off / 8 % 4) v s)
  else if 0x100000 ≤ off ∧ off < 0x108000 then
    some (execDoorbell ((off - 0x100000) / 0x200) (off / 8 % 64) (v.setWidth 32) s)
  else if 0x200000 ≤ off ∧ off < 0x208000 then
    some (execErrClear ((off - 0x200000) / 0x200) (off / 8 % 64) (v.extractLsb' 35 8) s)
  else none

/-- A BAR0 write of the host (R108, R34): aligned 8-byte writes; before READY only MBCTL is written. -/
def writeHost (off : Nat) (data : List Byte) (s : State) : Res :=
  if s.host.width = 0 ∨ s.boot.st = .off then .next s
  else if data.length ≠ 8 ∨ off % 8 ≠ 0 ∨ (s.boot.st ≠ .ready ∧ off ≠ 0x4000) then .next (s.emit (.unsupported off))
  else (hostWrite off (BitVec.ofNat 64 (ofLeBytes data)) s).getD (.next (s.emit (.unsupported off)))

/-! ### Reads of the host register window (R108) -/

/-- Code of a boot state (R33). -/
def BootSt.code : BootSt → Nat
  | .off => 0 | .rom => 1 | .brchk => 2 | .ident => 3 | .fwload => 4 | .dies => 5 | .meminit => 6 | .ready => 7 | .fail => 15

/-- BOOTST (R35). -/
def Boot.word (b : Boot) : Nat :=
  b.st.code + 2 ^ 4 * b.cause.toNat + 2 ^ 12 * b.brcopy.toNat + 2 ^ 15 * b2n b.fwslot + 2 ^ 16 * b.fwver.toNat
    + 2 ^ 32 * b.scmrsv.toNat

/-- PWRST (R102). -/
def State.pwrst (s : State) : Nat :=
  let p := s.power
  p.step + 2 ^ 4 * p.mop + 2 ^ 6 * p.vop + 2 ^ 8 * p.fop + 2 ^ 9 * p.psel.toNat + 2 ^ 12 * s.effCap + 2 ^ 24 * p.limiter
    + 2 ^ 27 * b2n p.pfact

/-- LINKST (R108). -/
def HostIf.linkst (h : HostIf) : Nat := h.width.toNat + 2 ^ 5 * h.rate.toNat + 2 ^ 7 * b2n h.cxl

/-- FABSELF (R69). -/
def Fabric.fabself (f : Fabric) : Nat := f.pkgid.toNat + 2 ^ 9 * f.sport.toNat + 2 ^ 18 * b2n f.trained

/-- PEER[n] (R69). -/
def Peer.word (p : Peer) : Nat := b2n p.v + 2 * p.sport.toNat + 2 ^ 10 * p.st.toNat + 2 ^ 12 * p.planes.toNat

/-- CTXST.STATE (R111). -/
def CtxSt.code : CtxSt → Nat
  | .free => 0 | .running => 1 | .preempting => 2 | .preempted => 3 | .resuming => 4 | .tearing => 5

/-- CTXST (R111). -/
def Context.ctxst (x : Context) : Nat := x.st.code + 8 * b2n x.devpre + 16 * b2n x.fqovf + 2 ^ 8 * x.lasterr.toNat

/-- QST (R113). -/
def Queue.qst (x : Queue) : Nat := x.ri.toNat + 2 ^ 32 * x.st.toNat + 2 ^ 35 * x.err.toNat

/-- A register of a context (R108, R110, R111, R120); CTXCMD is only written. -/
def Context.reg (x : Context) (k : Nat) : Nat :=
  match k with
  | 0 => x.base.toNat
  | 1 => x.ctxst
  | 2 => x.fqri.toNat
  | _ => 0

/-- What a defined offset of the window reads as, write-only and reserved fields as 0 (R12, R13); none for an offset that the window
does not define (R108). -/
def State.hostReg (s : State) (off : Nat) : Option Nat :=
  if off = 0 then some s.boot.word
  else if off = 8 then some s.host.linkst
  else if off = 0x10 then some s.pwrst
  else if off = 0x100 then some s.fab.fabself
  else if 0x1000 ≤ off ∧ off < 0x2000 then some (s.peer ((off - 0x1000) / 8)).word
  else if 0x2000 ≤ off ∧ off < 0x2080 then
    some ((if off % 16 = 0 then s.cmplines else s.plnlines).getD ((off - 0x2000) / 16) 0).toNat
  else if off = 0x4000 then some s.host.mb.ctl
  else if 0x8000 ≤ off ∧ off < 0x10000 then some (ofLeBytes (s.host.mb.bytes (off - 0x8000) 8))
  else if 0x10000 ≤ off ∧ off < 0x10800 then some ((s.ctx ((off - 0x10000) / 32)).reg (off / 8 % 4))
  else if 0x100000 ≤ off ∧ off < 0x108000 then some (s.queue ((off - 0x100000) / 0x200) (off / 8 % 64)).qwi.toNat
  else if 0x200000 ≤ off ∧ off < 0x208000 then some (s.queue ((off - 0x200000) / 0x200) (off / 8 % 64)).qst
  else none

/-- What a BAR0 read of the host returns (R34, R108): none is Unsupported Request. Before READY only the BOOTST mirror and MBCTL are
read. A read that is no aligned one of 8 bytes is not answered, as a write is not (assumption 80). -/
def State.hostLoad (s : State) (off size : Nat) : Option W64 :=
  if size ≠ 8 ∨ off % 8 ≠ 0 ∨ (s.boot.st ≠ .ready ∧ off ≠ 0 ∧ off ≠ 0x4000) then none
  else (s.hostReg off).map (BitVec.ofNat 64)

/-- The level of ALERT_N, true when it is released (R23, R125). -/
def State.alertN (s : State) : Bool := (s.host.alertst &&& s.host.alerten) == 0

/-! ### The I3C register map (R102, R122-R124) -/

/-- A whole register written over I3C; an offset that the map does not define ignores it. -/
def i3cWrite (off : Nat) (v : W64) (s : State) : Res :=
  if off = 0x0008 then execAlertClear v s
  else if off = 0x0010 then .next (s.setAlert s.host.alertst (v.setWidth 9))
  else if 0x0108 ≤ off ∧ off ≤ 0x0150 then execCapWrite off v s
  else if off = 0x0158 then .next { s with power := { s.power with holdup := v.setWidth 16 } }
  else if off = 0x0160 then .next { s with power := { s.power with icclim := v.setWidth 24 } }
  else if off = 0x0168 then .next { s with power := { s.power with oreqcfg := v.setWidth 13 } }
  else if off = 0x0400 then .next (s.writeMbctl 1 v)
  else .next s

/-- One byte of a private write, `i` bytes in: IMBDATA takes it; a register takes effect with its last byte, when the transfer has
written all eight (R122). -/
def i3cByteIn (off : Nat) (data : List Byte) (i : Nat) (s : State) : Res :=
  let a := (off + i) % 2 ^ 16
  if 0x8000 ≤ a then .next (s.writeMbdata 1 (a - 0x8000) [data.getD i 0])
  else if a % 8 = 7 ∧ 7 ≤ i then i3cWrite (a - 7) (BitVec.ofNat 64 (ofLeBytes ((data.drop (i - 7)).take 8))) s
  else .next s

/-- An I3C private write (R122): the offset is set and advances over the data. -/
def writeI3c (off : Nat) (data : List Byte) (s : State) : Res :=
  if s.boot.st = .off then .next s
  else
    (List.range data.length).foldl (fun r i => r.bind (i3cByteIn off data i))
      (.next { s with host := { s.host with i3cOff := (off + data.length) % 2 ^ 16 } })

/-- REGISTER_WRITE (R108, R122). -/
def execRegisterWrite (port : Port) (off size v : Nat) (s : State) : Res :=
  match port with
  | .host => writeHost off (leBytes size v) s
  | .i3c => writeI3c off (leBytes size v) s

/-- An I3C register; one that the map does not define reads 0 (R122). -/
def State.i3cReg (s : State) (off : Nat) : Nat :=
  let p := s.power
  if off = 0 then s.boot.word
  else if off = 0x0008 then s.host.alertst.toNat
  else if off = 0x0010 then s.host.alerten.toNat
  else if off = 0x0100 then s.pwrst
  else if off = 0x0108 then p.pkgcap.toNat
  else if 0x0110 ≤ off ∧ off < 0x0150 then (p.pcap.getD ((off - 0x0110) / 8) 0).toNat
  else if off = 0x0150 then p.icap.toNat + 2 ^ 12 * b2n p.icapEn
  else if off = 0x0158 then p.holdup.toNat
  else if off = 0x0160 then p.icclim.toNat
  else if off = 0x0168 then p.oreqcfg.toNat
  else if off = 0x0400 then s.host.imb.ctl
  else 0

/-- A byte of the I3C map. -/
def State.i3cByte (s : State) (off : Nat) : Byte :=
  if 0x8000 ≤ off then Memory.get s.host.imb.data (off - 0x8000) else BitVec.ofNat 8 (s.i3cReg (off / 8 * 8) >>> (8 * (off % 8)))

/-- I3C_PRIVATE_READ (R122). -/
def execI3cPrivateRead (n : Nat) (s : State) : Res :=
  .next (if s.boot.st == .off then s
  else
    let o := s.host.i3cOff
    let bs := (List.range n).map fun i => s.i3cByte ((o + i) % 2 ^ 16)
    { s with host := { s.host with i3cOff := (o + n) % 2 ^ 16 } }.emit (.i3cData bs))

end Sys2Proof.Machine
end

