-- ==== Sys2Proof/Machine/Sched.lean ====
section
/-! DEFINITION. Placement, stage pipelines and retirement (R128, R129, R132-R134, R136-R141). -/

namespace Sys2Proof.Machine

/-! ### What a core has free (R133) -/

/-- Free weft slots of the partitions of a core. -/
def State.freeSlots (s : State) (core : Nat) : List Nat :=
  (List.range 8).map fun p => ((List.range 8).filter fun i => s.slotFree core (8 * p + i)).length

/-- Free vector registers of the partitions of a core. -/
def State.freeRegsOf (s : State) (core : Nat) : List Nat := (List.range 8).map fun p => s.freeRegs core p

/-- Contexts that are being resumed: what they need is kept for them (R146). -/
def State.resumingSaves (s : State) : List Saved :=
  s.ctxs.filterMap fun x => if x.st = .resuming then x.saved else none

/-- The range that a resume needs of a scratchpad is held: where it would go now, or all of the scratchpad while it does not fit
(R146). -/
def State.keepAlloc (s : State) (a : SpadAlloc) : State :=
  let n : SpadAlloc := match s.findRange a.level a.unit a.len with
    | some b => { a with base := b, live := true }
    | none => { a with base := 0, len := levelBytes a.level, live := true }
  { s with allocs := s.allocs ++ [n] }

/-- The machine as the dispatchers see it: the slots, registers and scratchpad that resumes need are taken (R146). -/
def State.withKept (s : State) : State :=
  s.resumingSaves.foldl (fun t v => let u := v.allocs.foldl State.keepAlloc t; { u with wefts := u.wefts ++ v.wefts }) s

/-- The launch has a team on a die. -/
def State.onDie (s : State) (l : Launch) (die : Nat) : Bool :=
  s.teams.any fun t => t.ctx == l.ctx && t.serial == l.serial && dieOf t.core == die

/-- The die allocation of a launch (R134). -/
def State.dieAlloc (s : State) (l : Launch) (die : Nat) : Option SpadAlloc :=
  s.allocs.find? fun a => a.live && a.level == 2 && a.unit == die && a.ctx == l.ctx && a.owner == l.serial

/-- Bases for a team's three allocations on a core, when each need has a contiguous free range (R133) that no resume needs (R146). -/
def State.teamBases (s0 : State) (l : Launch) (core : Nat) : Option (Nat × Nat × Nat) :=
  let s := s0.withKept
  let die := dieOf core
  let need := fun (level unit len : Nat) => if len = 0 then some 0 else s.findRange level unit len
  match need 0 core l.lrec.coreNeed, need 1 (clusOf core) l.lrec.lspad,
      (if s.onDie l die then some ((s.dieAlloc l die).map (·.base) |>.getD 0) else need 2 die l.lrec.dspad) with
  | some a, some b, some d => some (a, b, d)
  | _, _, _ => none

/-! ### Reservations of pipelines (R138, R140) -/

/-- Stage launch `k` of a pipeline. -/
def State.stageLaunch (s : State) (p : Pipe) (k : Nat) : Option Launch :=
  match p.serials.getD k none with
  | some n => s.launch? p.ctx n
  | none => none

/-- The stage has unclaimed teams. -/
def State.stageOpen (s : State) (p : Pipe) (k : Nat) : Bool :=
  match s.stageLaunch p k with
  | some l => !l.claimed
  | none => false

/-- Cores that hold a resident team of a stage (R140). -/
def State.stageCores (s : State) (p : Pipe) (k : Nat) : List Nat :=
  match p.serials.getD k none with
  | some n => distinct ((s.teams.filter fun t => t.ctx == p.ctx && t.serial == n).map (·.core))
  | none => []

/-- The stage that a core is reserved for: pipeline and stage; a claimed grid holds nothing (R138), nor does a context that is
pre-empted (R145). -/
def State.reservedFor (s : State) (core : Nat) : Option (Pipe × Nat) :=
  (s.pipes.filterMap fun p =>
    if !p.started || (s.ctx p.ctx).st == .preempted then none
    else match p.cores.find? fun e => e.1 == core && s.stageOpen p e.2 with
      | some e => some (p, e.2)
      | none => none).head?

/-- Cores of a stage with its reserved ones. -/
def State.stageHeld (s : State) (p : Pipe) (k : Nat) : List Nat :=
  distinct (s.stageCores p k ++ (p.cores.filter fun e => e.2 == k).map (·.1))

/-- The core may take a team of the launch as far as pipelines go: a reserved core only its stage; an unreserved one a stage
that has started and is below its maximum (R138, R140). -/
def State.coreAllows (s : State) (core : Nat) (l : Launch) : Bool :=
  match s.reservedFor core with
  | some (p, k) => p.ctx == l.ctx && p.serials.getD k none == some l.serial
  | none =>
    if l.lrec.pipe = 0 ∨ l.itn.isSome then true
    else match s.pipeOf l with
      | none => false
      | some p =>
        let held := s.stageHeld p l.lrec.stage
        p.started && (held.contains core || decide (held.length < (p.vmax.getD p.variant []).getD l.lrec.stage 0))

/-- The team fits the core (R133). -/
def State.fits (s : State) (l : Launch) (core : Nat) : Bool :=
  (l.lrec.fitParts (s.withKept.freeSlots core) (s.withKept.freeRegsOf core)).isSome && (s.teamBases l core).isSome
    && s.coreAllows core l

/-- Logical cores of a die. -/
def dieCores (die : Nat) : List Nat := (List.range 52).map (die * 52 + ·)

/-- The core that takes the next team of a launch on a die: the most free weft slots, the lowest on a tie (R133). -/
def State.chooseCore (s : State) (l : Launch) (die : Nat) : Option Nat :=
  let free := fun c => (s.freeSlots c).foldl (· + ·) 0
  ((dieCores die).filter (s.fits l)).foldl (fun acc c => match acc with
    | none => some c
    | some b => if free b < free c then some c else some b) none

/-! ### Choosing the launch (R130, R132, R137) -/

/-- Waiting launches in a dispatcher's order: LPRIO highest first, then arrival (R132). -/
def State.dispatchOrder (s : State) : List Launch :=
  sortBy (fun a b => decide (b.lrec.lprio ≤ a.lrec.lprio)) (s.launches.filter s.waiting)

/-- The first launch that fits, and its core; a coresident launch at the head holds back what ranks with or below it (R137). -/
def State.pickFrom (s : State) (die : Nat) : List Launch → Option (Launch × Nat)
  | [] => none
  | l :: r =>
    match s.chooseCore l die with
    | some c => some (l, c)
    | none => State.pickFrom s die r

/-- The launch and core of the next placement on a die. -/
def State.nextPlacement (s : State) (die : Nat) : Option (Launch × Nat) :=
  match s.dispatchOrder with
  | [] => none
  | l :: r =>
    match s.chooseCore l die with
    | some c => some (l, c)
    | none => if l.lrec.cosres then none else s.pickFrom die r

/-! ### Placing a team (R129, R133, R134) -/

/-- The context that last held a byte of a scratchpad unit, if any. -/
def State.lastHolder (s : State) (level unit off : Nat) : Option Nat :=
  ((s.allocs.filter fun a => min a.level 2 == level && a.unit == unit && decide (a.base ≤ off)
    && decide (off < a.base + a.len)).getLast?).map (·.ctx)

/-- Take an allocation: bytes that another context held last are cleared to zero (R134). -/
def State.allocate (s : State) (n : SpadAlloc) : State :=
  if n.len = 0 then s
  else
    let other := fun k : Nat => n.holds k && (match s.lastHolder (min n.level 2) n.unit (k - n.key + n.base) with
      | some c => c != n.ctx
      | none => false)
    let inside := fun a : SpadAlloc => !a.live && a.level == n.level && a.unit == n.unit && decide (n.base ≤ a.base)
      && decide (a.base + a.len ≤ n.base + n.len)
    { s with
      mem := s.mem.filter fun c => !other c.1
      pois := s.pois.filter fun k => !other k
      allocs := (s.allocs.filter fun a => !inside a) ++ [n] }

/-- A weft as placement makes it (R129). -/
def Weft.placed (l : Launch) (seed : W32) (core slot team wid : Nat) : Weft :=
  let sreg := fun v : W64 => ({ val := v, full := true, pois := false } : SReg)
  { core := core, slot := slot, ctx := l.ctx, team := team, wid := wid, execRole := decide (l.lrec.nacc ≤ wid)
    pc := l.lrec.entry, em := allLanes, dm := 0, wb := 0
    sregs := [sreg l.lrec.param, sreg l.lva] ++ List.replicate 30 (sreg 0)
    vregs := List.replicate (l.lrec.regsOf wid) VReg.zero, xregs := List.replicate 8 XReg.zero, tm := false, tem := 0, tdm := 0
    tpc := 0, tcause := 0, tmask := 0, tinfo := 0, fpmode := 0, fpflags := 0, seed := seed, rctr := 0
    rgnpc := l.lrec.entry, rgncnt := 0, rgnem := allLanes, err := false, cnt := List.replicate 6 [], busy := []
    unsettled := none, parked := none, waiting := none, sleep := 0, yielded := false, age := 0, looked := none
    readyCnt := 0, halted := false, halting := false, released := false, stepping := false, preempt := false, preemptAge := 0
    stopped := none, events := [], hold := false, triggered := false, exited := false, injected := false
    itnDone := false, itnNext := false, itnAnswer := none, itnReg := none, itnWas := false, shcopies := 0, arrived := none, pbars := [], snapStep := 0
    fence := none, narrow := false }

/-- Place wefts on consecutive partitions from `p0`, each in the lowest free slot (R133) that no resume needs (R146). -/
def State.placeWefts (s : State) (l : Launch) (seed : W32) (core team p0 : Nat) : List Nat → State
  | [] => s
  | w :: r =>
    let part := (p0 + w) % 8
    let slot := ((List.range 8).map (8 * part + ·)).find? (s.withKept.slotFree core)
    let v := Weft.placed l seed core (slot.getD 0) team w
    { s with wefts := s.wefts ++ [v] }.placeWefts l seed core team p0 r

/-- A new team on a core (R129, R447). -/
def Team.placed (id : Nat) (l : Launch) (core : Nat) (b : Nat × Nat × Nat) : Team :=
  { id := id, ctx := l.ctx, serial := l.serial, idx := l.nextTeam, core := core, nweft := l.lrec.wpt, nacc := l.lrec.nacc
    cbase := b.1, csize := l.lrec.cspad, lbase := b.2.1, lsize := l.lrec.lspad, dbase := b.2.2, dsize := l.lrec.dspad
    refill := l.lrec.refill, q0 := [], q1 := [], q2 := [], q5 := [], q6 := [], q7 := [], res0 := 0, res1 := 0, res2 := 0
    bars := List.replicate 8 0, exitedMask := 0, mcfg := 0, ncfg := 0, mcmds := [] }

/-- Place the next team of a launch on a core (R129, R133, R134, R272). -/
def State.placeTeam (s : State) (l : Launch) (core : Nat) : State :=
  match s.teamBases l core with
  | none => s
  | some b =>
    let id := s.nextId
    let die := dieOf core
    let al := fun (level unit base len owner : Nat) =>
      ({ level := level, unit := unit, base := base, len := len, ctx := l.ctx, owner := owner, live := true } : SpadAlloc)
    let first := !s.teams.any fun t => t.ctx == l.ctx && t.serial == l.serial && t.core == core
    let s1 := (s.allocate (al 0 core b.1 l.lrec.coreNeed id)).allocate (al 1 (clusOf core) b.2.1 l.lrec.lspad id)
    let s2 := if s.onDie l die then s1 else s1.allocate (al 2 die b.2.2 l.lrec.dspad l.serial)
    let s3 := { s2 with nextId := id + 1, teams := s2.teams ++ [Team.placed id l core b] }
    let s4 := (if first then s3.dropCode core (· == l.ctx) else s3).placeWefts l (s.ctx l.ctx).desc.seed core id (firstPart (s.withKept.freeRegsOf core)) (List.range l.lrec.wpt)
    s4.setLaunch { l with nextTeam := l.nextTeam + 1, placed := l.placed + 1, waited := 0 }

/-- TEAM_PLACE (R132, R133, R137). -/
def execTeamPlace (die : Nat) (s : State) : Res :=
  .next (if !s.up || decide (4 ≤ die) then s
  else match s.nextPlacement die with
    | some (l, core) => s.placeTeam l core
    | none => s)

/-! ### Starting a pipeline (R138, R139) -/

/-- Bytes of a pipeline's stage queues. -/
def Pipe.queueBytes (p : Pipe) : Nat := ((List.range p.nstage).map fun k => if k = 0 then 0 else 8 * p.qdep.getD k 0).foldl (· + ·) 0

/-- Every stage's launch has entered a launch queue (R138). -/
def Pipe.whole (p : Pipe) : Bool := (List.range p.nstage).all fun k => (p.serials.getD k none).isSome

/-- Reserve the minimum of every stage from `k` on: cores that are free for it, lowest first; none if a minimum is not met. -/
def State.reserveStages (s : State) (p : Pipe) : List Nat → List (Nat × Nat) → Option (List (Nat × Nat))
  | [], acc => some acc
  | k :: r, acc =>
    let need := (p.vmin.getD p.variant []).getD k 0
    match s.stageLaunch p k with
    | none => none
    | some l =>
      let can := fun c : Nat => !acc.any (fun e => e.1 == c) && (s.reservedFor c).isNone
        && (l.lrec.fitParts (s.withKept.freeSlots c) (s.withKept.freeRegsOf c)).isSome && (s.teamBases l c).isSome
      let cs := ((List.range 208).filter can).take need
      if cs.length < need then none else s.reserveStages p r (acc ++ cs.map fun c => (c, k))

/-- PIPELINE_START (R138). -/
def execPipelineStart (ctx : Nat) (pipe : BitVec 64) (s : State) : Res :=
  .next (match s.pipes.find? fun p => p.ctx == ctx && p.va == pipe && !p.started && p.whole with
  | none => s
  | some p =>
    if !s.up || (s.ctx ctx).st != .running then s
    else match s.reserveStages p (List.range p.nstage) [], (if p.queueBytes = 0 then some 0 else s.findRange 3 p.qdie p.queueBytes) with
      | some cores, some b =>
        let a : SpadAlloc := { level := 3, unit := p.qdie, base := b, len := p.queueBytes, ctx := ctx, owner := p.id, live := true }
        (s.allocate a).setPipe { p with started := true, cores := cores, qbase := b }
      | _, _ => s)

/-! ### The variant selector (R141) -/

/-- A fraction is below another. -/
def fracLt (x y : Nat × Nat) : Bool := decide (x.1 * y.2 < y.1 * x.2)

/-- T(v): the largest B_k / VMAX[v][k], as a fraction. -/
def Pipe.predict (p : Pipe) (v : Nat) : Nat × Nat :=
  (List.range p.nstage).foldl (fun acc k =>
    let f := (p.busy.getD k 0, (p.vmax.getD v []).getD k 1)
    if fracLt acc f then f else acc) (0, 1)

/-- The variant with the lowest T, the lowest index on a tie. -/
def Pipe.best (p : Pipe) : Nat :=
  (List.range p.nvar).foldl (fun b v => if fracLt (p.predict v) (p.predict b) then v else b) 0

/-- The variant selector at a phase boundary: the phase's busy cycles start again at 0 (R141). -/
def Pipe.select (p : Pipe) : Pipe :=
  let b := p.best
  let tb := p.predict b
  let tc := p.predict p.variant
  let switch := p.busy.any (· != 0) && decide (256 * tb.1 * tc.2 ≤ (256 - p.hyst) * tc.1 * tb.2)
  { p with variant := if switch then b else p.variant, busy := p.busy.map fun _ => 0 }

/-- PHASE (R116, R141): a VA that names no running pipeline of the context changes nothing. -/
def execPhase (c q : Nat) (s : State) : Res :=
  s.startOp c q 8 fun s k =>
    let va := BitVec.ofNat 64 (k.fld 0x18 8)
    let hit := fun p : Pipe => p.ctx == c && p.va == va && p.started
    { s with pipes := s.pipes.map fun p => if hit p then p.select else p }.completeCmd c q k.id

/-! ### Retirement (R136, R139, R140) -/

/-- Nothing of a team is left to do: its wefts have exited, and their operations are complete. -/
def State.teamDone (s : State) (t : Team) : Bool :=
  (s.wefts.all fun w => w.team != t.id || (w.exited && w.pbars.isEmpty))
    && (s.accs.all fun a => s.wefts.all fun w => !(w.team == t.id && a.isOf w))
    && (s.cmds.all fun c => c.team != t.id) && t.mcmds.isEmpty

/-- Nothing that an exited weft issued is left to complete: its slot and registers return to its partition (R200, R331). -/
def State.gone (s : State) (w : Weft) : Bool :=
  w.exited && w.pbars.isEmpty && s.accs.all (fun a => !a.isOf w) && s.cmds.all (fun c => !(c.core == w.core && c.slot == w.slot))
    && s.teams.all fun t => t.id != w.team || t.mcmds.all fun m => m.slot != w.slot

/-- The wefts that are gone leave their slots (R331). -/
def State.freeExited (s : State) : State := { s with wefts := s.wefts.filter fun w => !s.gone w }

/-- The team's resources return to the pool (R133, R136). -/
def State.freeTeam (s : State) (t : Team) : State :=
  let s1 := { s with wefts := s.wefts.filter fun w => w.team ≠ t.id, teams := s.teams.filter fun u => u.id ≠ t.id }
  let lastOnDie := !s1.teams.any fun u => u.ctx == t.ctx && u.serial == t.serial && dieOf u.core == dieOf t.core
  let mine := fun a : SpadAlloc => (decide (a.level < 2) && a.owner == t.id)
    || (lastOnDie && a.level == 2 && a.unit == dieOf t.core && a.ctx == t.ctx && a.owner == t.serial)
  { s1 with allocs := s1.allocs.map fun a => if a.live && mine a then { a with live := false } else a }

/-- Occupancy of a stage (R140). -/
def State.occupancy (s : State) (p : Pipe) (k : Nat) : Nat :=
  let dep := p.qdep.getD k 1
  let e := if k = 0 then
      (match s.stageLaunch p 0 with | some l => min dep (l.lrec.total - l.nextTeam) | none => 0)
    else (p.queues.getD k []).length
  256 * e / dep

/-- The stage that a core freed by the pipeline works for next (R140). -/
def State.nextStage (s : State) (p : Pipe) : Option Nat :=
  let unclaimed := (List.range p.nstage).filter fun k => s.stageOpen p k
  let n := fun k => (s.stageCores p k).length
  match unclaimed.find? fun k => decide (n k < (p.vmin.getD p.variant []).getD k 0) with
  | some k => some k
  | none =>
    (unclaimed.filter fun k => decide (n k < (p.vmax.getD p.variant []).getD k 0)).foldl (fun acc k => match acc with
      | none => some k
      | some b => if s.occupancy p b < s.occupancy p k then some k else some b) none

/-- A pipeline after a team of it has retired from a core (R140). -/
def State.reassign (s : State) (p : Pipe) (core : Nat) : State :=
  let rest := p.cores.filter fun e => e.1 ≠ core
  match s.nextStage p with
  | some k => s.setPipe { p with cores := rest ++ [(core, k)] }
  | none => s.setPipe { p with cores := rest }

/-- A launch completes (R136): it leaves, its handles' dependents are free, its stage queue closes, its command completes. -/
def State.completeLaunch (s : State) (l : Launch) : State :=
  let s1 := match s.pipeOf l with
    | none => s
    | some p =>
      let p1 : Pipe := { p with closed := setAt p.closed (l.lrec.stage + 1) true }
      let ended := (List.range p.nstage).all fun k => k == l.lrec.stage || (s.stageLaunch p k).isNone
      if ended then
        { s with pipes := s.pipes.filter (fun q => q.id ≠ p.id)
                 allocs := s.allocs.map fun (a : SpadAlloc) => if a.level = 3 ∧ a.owner = p.id then { a with live := false } else a }
      else s.setPipe p1
  let s2 := { s1 with launches := s1.launches.filter fun m => !(m.ctx == l.ctx && m.serial == l.serial) }
  match l.cmd with
  | some (c, q, id) => s2.completeCmd c q id
  | none => s2

/-- TEAM_RETIRE (R136, R139, R140). -/
def execTeamRetire (id : Nat) (s : State) : Res :=
  .next (match s.team? id with
  | none => s
  | some t =>
    if !s.up || (s.ctx t.ctx).st == .tearing || !s.teamDone t then s
    else
      let s1 := s.freeTeam t
      match s1.launch? t.ctx t.serial with
      | none => s1
      | some l =>
        let l1 := { l with retired := l.retired + 1 }
        let s2 := s1.setLaunch l1
        let s3 := match s2.pipeOf l1 with | some p => s2.reassign p t.core | none => s2
        if l1.retired < l1.lrec.total then s3 else s3.completeLaunch l1)

end Sys2Proof.Machine
end

