-- ==== Sys2Proof/Machine/Itinerary.lean ====
section
/-! DEFINITION. The itinerary sequencer: STEP load, start and stop (R150, R151, R154), dispatch (R158-R161), SYNC and STEPEND
(R163, R164, R181), the control block (R155), and stall reports (R168). -/

namespace Sys2Proof.Machine

/-! ### Load (R150, R151, R154) -/

/-- A count lies in a range. -/
def inside (lo hi n : Nat) : Bool := decide (lo ≤ n) && decide (n ≤ hi)

/-- The package is not at the head, not at the tail, of the chain. -/
def Itin.hasUp (t : Itin) : Bool := t.pos != 0
def Itin.hasDown (t : Itin) : Bool := t.pos + 1 != t.npos

/-- A VA of the HBM window, 4 KiB aligned (R151). -/
def hbmPage (va : Nat) : Bool := hbmAligned (BitVec.ofNat 64 va) 4096

/-- A peer's VA has a fabric-window form (R39, R151). -/
def peerForm (va : Nat) : Bool := decide (va < 2 ^ 56) && decide (va % 2 ^ 55 < 2 ^ 53)

/-- HSTAT passes its own check (R151). -/
def Itin.hstatOk (t : Itin) : Bool :=
  if t.hstloc then hbmAligned (BitVec.ofNat 64 t.hstat) 128 else t.hstat % 128 == 0

/-- The zero fields of the header are zero (R151). -/
def Itin.zerosOk (t : Itin) : Bool :=
  field (t.hdr 0x0D 1) 3 5 == 0 && t.hdr 0x0F 1 == 0 && t.hdr 0x62 6 == 0 && t.hdr 0x78 136 == 0 && t.hdr 0x300 256 == 0

/-- The header keeps the rules of R151 (assumption 45). -/
def Itin.headerOk (t : Itin) : Bool :=
  inside 1 128 t.npos && decide (t.pos < t.npos) && inside 1 64 t.naslot && inside 1 64 t.ngslot && inside 0 256 t.nstash
    && inside 1 16 t.maxrun && t.zerosOk && t.hdr 0x10 4 != 0 && t.asz % 256 == 0 && t.gsz % 256 == 0 && t.stsz % 256 == 0
    && hbmPage (t.hdr 0x20 8) && hbmPage (t.hdr 0x28 8) && hbmPage t.stashva && hbmPage t.ctlva
    && [t.hdr 0x40 8, t.dnctlva, t.hdr 0x50 8, t.upctlva].all peerForm
    && (!t.hasUp || (decide (t.upeer < 512) && inside 1 64 t.upgslot))
    && (!t.hasDown || (decide (t.dpeer < 512) && inside 1 64 t.dnaslot))
    && t.hstatOk && hbmAligned (BitVec.ofNat 64 (t.hdr 0x70 8)) 1024

/-- Launch record VA of a kernel index (R151). -/
def Itin.ktab (t : Itin) (k : Nat) : W64 := BitVec.ofNat 64 (t.hdr (0x100 + 8 * k) 8)

/-- Capacity of the receiving inbox of a kind (R153). -/
def Itin.outCap (t : Itin) (kind : Nat) : Nat := if kind = 0 then t.dnaslot else t.upgslot

/-- The receiving inbox of a kind exists. -/
def Itin.hasOut (t : Itin) (kind : Nat) : Bool := if kind = 0 then t.hasDown else t.hasUp

/-- An entry keeps the rules of R152 and R154. -/
def Itin.entryOk (t : Itin) (e : Entry) : Bool :=
  let k := entKind e
  let x := e.1.toNat
  if 5 ≤ k then false
  else if 3 ≤ k then x == k && e.2 == 0
  else
    entStop e != 3 && field x 7 1 == 0 && field x 26 6 == 0 && field x 39 25 == 0 && t.ktab (entKidx e) != 0
      && (!entNua e || t.hasUp) && (!entNdg e || t.hasDown) && (entOut e == 0 || t.hasOut k)
      && (entOut e == 0 || decide (entOut e ≤ t.outCap k)) && decide (entOut e ≤ 64)
      && (k != 2 || (!entNua e && !entNdg e && entOut e == 0)) && (entStop e == 0 || t.nstash != 0)

/-- The first entry that breaks a rule; the last must be STEPEND. -/
def Itin.badEntry (t : Itin) : Option Nat :=
  let n := t.entries.length
  (List.range n).find? fun i =>
    let e := t.entries.getD i (0, 0)
    !t.entryOk e || (i + 1 == n && entKind e != 4)

/-- The entries of a table. -/
def entriesOf (bs : List Byte) (n : Nat) : List Entry :=
  (List.range n).map fun i => (BitVec.ofNat 64 (num bs (16 * i) 8), BitVec.ofNat 64 (num bs (16 * i + 8) 8))

/-- A table just loaded and bound to a context, with its eight counters clear (R150, R166); UPD and the tasks dispatched go on (R167), and so
does a stop that waits. -/
def Itin.bind (t : Itin) (c : Nat) (hdr : List Byte) (es : List Entry) : Itin :=
  { Itin.init with bound := some c, loaded := true, header := hdr, entries := es,
                     upd := t.upd, dispatched := t.dispatched, stopper := t.stopper }

/-- A failed load check: STATE 3, ERR 5, the status block at the new HSTAT when that is valid (R151, R168). -/
def State.loadCheckFail (s : State) (t : Itin) (entry : Nat) : State :=
  let s1 := { s with itin := { t with loaded := false, st := 3, err := 5, errEntry := entry } }
  (if t.hstatOk then s1.writeStatus else s1).raiseHvec

/-- Another context's itinerary is not stopped (R150). -/
def State.stepElse (s : State) (c : Nat) : Bool := s.itin.bound.isSome && s.itin.bound != some c && s.itin.st != 0

/-- STEP_LOAD (R150, R151, R154): a count outside 1 to 1,024 fails the load check as a header rule does. -/
def execStepLoad (c q : Nat) (s : State) : Res :=
  s.startSub c q 9 0 fun s k =>
    let va := BitVec.ofNat 64 (k.fld 0x20 8)
    let ok := inside 1 1024 (k.fld 0x28 4)
    let n := if ok then k.fld 0x28 4 else 0
    let t := s.itin
    if s.stepElse c || t.st == 1 || t.st == 2 || (t.st == 3 && !t.tasks.isEmpty) || !hbmAligned va 1024 then
      s.failCmd c q k.id 2
    else match s.vaRead c va 1024, s.vaRead c (va + 0x400) (16 * n) with
      | some h, some es =>
        let s := (s.noteRead c va 1024).noteRead c (va + 0x400) (16 * n)
        let u := t.bind c h (entriesOf es n)
        if !ok || !u.headerOk then (s.loadCheckFail u 0xFFFF).failCmd c q k.id 2
        else match u.badEntry with
          | some i => (s.loadCheckFail u i).failCmd c q k.id 2
          | none => { s with itin := u }.completeCmd c q k.id
      | _, _ => s.failCmd c q k.id 3

/-! ### The control block (R155) -/

/-- Words of the control block. -/
def wordsOf (bs : List Byte) (off n : Nat) : List W64 := (List.range n).map fun i => BitVec.ofNat 64 (num bs (off + 8 * i) 8)

/-- The sequencer takes in its control block (R155). -/
def State.readControl (s : State) : State :=
  match s.itin.bound with
  | none => s
  | some c =>
    match s.vaRead c (BitVec.ofNat 64 s.itin.ctlva) 0x420 with
    | none => s
    | some bs =>
      let w := fun off => BitVec.ofNat 64 (num bs off 8)
      let t : Itin := { s.itin with aarr := wordsOf bs 0 64, garr := wordsOf bs 0x200 64, dnfreed := w 0x400,
                                    upfreed := w 0x408, syncf := w 0x410, syncb := w 0x418 }
      { s.noteRead c (BitVec.ofNat 64 s.itin.ctlva) 0x420 with itin := s.itin.rearm t }

/-- The itinerary runs, and its context runs (R158, R166, R170). -/
def State.itinRuns (s : State) : Bool :=
  s.up && s.itin.st == 1 && (match s.itin.bound with | some c => (s.ctx c).st == .running | none => false)

/-- The itinerary may take its next step of dispatch: no STEP stop waits (R150). -/
def State.dispatching (s : State) : Bool := s.itinRuns && s.itin.stopper.isNone

/-- CONTROL_BLOCK_REREAD (R155). -/
def execControlBlockReread (s : State) : Res := .next (if s.itinRuns then s.readControl else s)

/-! ### Start and stop (R150) -/

/-- STEP_START (R150, R165): the step counter is written, and RES, CONS, stash and token state are as new. At STATE 0 any context may start
what is loaded. -/
def execStepStart (c q : Nat) (s : State) : Res :=
  s.startSub c q 9 1 fun s k =>
    let t := s.itin
    if !t.loaded || t.st != 0 || !t.tasks.isEmpty then s.failCmd c q k.id 2
    else
      let n := BitVec.ofNat 64 (k.fld 0x2C 4)
      let u : Itin :=
        { t with st := 1, err := 0, errEntry := 0, head := 0, ahead := [], resA := 0, resG := 0, consA := 0, consG := 0,
                 stash := List.replicate t.nstash none, syncs := 0, syncPhase := 0, stepSent := false, acks := [],
                 stalled := false, stopper := none }
      ({ s with itin := u, stepCtr := n, dieStep := s.dieStep.map fun _ => n,
                snap := { s.snap with startStep := n.toNat } }.readControl).completeCmd c q k.id

/-- Task launches of the bound context. -/
def State.taskLaunches (s : State) : List Launch :=
  s.launches.filter fun l => l.itn.isSome && s.itin.bound == some l.ctx

/-- At a STEP stop every waiting weft gets 0: those of warm launches, and those of launches whose task runs (R162). -/
def State.endWarm (s : State) : State :=
  s.taskLaunches.foldl (fun t l => (t.answerNext l 0).setLaunch { l with warm := false }) s

/-- Every task has retired, and no `itn.next` waits (R150). -/
def State.itinQuiet (s : State) : Bool :=
  s.itin.tasks.isEmpty && s.taskLaunches.all fun l => (s.weftsOf l).all fun w => !w.itnNext

/-- A waiting STEP stop completes (R150, R167): STATE 0, except that an error stays (R168). -/
def State.stopEnds (s : State) (c q id : Nat) : State :=
  let t := s.itin
  ({ s with itin := { t with st := if t.st = 3 then 3 else 0, stopper := none } }.writeStatus).completeCmd c q id

/-- A stop starts (R150): another context's fails, one of a stopped itinerary changes nothing, and any other ends dispatch. -/
def State.startStop (s : State) (c q : Nat) (k : Cmd) : State :=
  let t := s.itin
  if s.stepElse c then s.failCmd c q k.id 2
  else if t.bound = none ∨ t.st = 0 ∨ t.st = 3 then s.completeCmd c q k.id
  else
    let s1 := { s with itin := { t with stopper := some (c, q, k.id) } }.endWarm
    if s1.itinQuiet then s1.stopEnds c q k.id else s1

/-- STEP_STOP (R150): the head command starts the stop; the event comes again when the stop can complete. A second stop of the same context
follows the first. -/
def execStepStop (c q : Nat) (s : State) : Res :=
  let start := s.startSub c q 9 2 fun s k => s.startStop c q k
  match s.itin.stopper with
  | some (c1, q1, id) =>
    if c1 = c ∧ (q1 = q ∨ s.itin.st ≠ 3) then .next (if s.up && s.itinQuiet then s.stopEnds c1 q1 id else s) else start
  | none => start

/-- A stop that waits for an earlier one of its context (R150). -/
def State.stopHeld (s : State) (c q : Nat) (k : Cmd) : Bool :=
  k.op == 9 && k.sub == 2 && match s.itin.stopper with
    | some (c1, q1, _) => c1 == c && (q1 == q || s.itin.st != 3)
    | none => false

/-! ### Dispatch (R158-R161) -/

/-- Pass over the entries at the head that W-fill has dispatched (R158). -/
def Itin.skip (t : Itin) : Nat → Itin
  | 0 => t
  | n + 1 => if t.ahead.contains t.head then
      { t with head := t.head + 1, ahead := t.ahead.filter (· ≠ t.head) }.skip n else t

/-- Entry `i` has been dispatched. -/
def Itin.passed (t : Itin) (i : Nat) : Itin :=
  if i = t.head then { t with head := t.head + 1 }.skip t.entries.length else { t with ahead := t.ahead ++ [i] }

/-- The conditions of an F, B or W entry hold (R158). -/
def Itin.entryReady (t : Itin) (e : Entry) : Bool :=
  decide (entKind e < 3) && (t.entryReason e).isNone && decide (t.tasks.length < t.maxrun)

/-- Entries after the head and before the next SYNC or STEPEND. -/
def Itin.window (t : Itin) : List Nat :=
  ((List.range t.entries.length).filter (t.head < ·)).takeWhile fun i => decide (entKind (t.entries.getD i (0, 0)) < 3)

/-- The W entry that W-fill dispatches (R159). -/
def Itin.fillEntry (t : Itin) : Option Nat :=
  if !t.wfill || decide (3 ≤ entKind t.headEntry) then none
  else t.window.find? fun i =>
    let e := t.entries.getD i (0, 0)
    let earlier := (t.head :: t.window.filter (· < i)).map fun j => t.entries.getD j (0, 0)
    entKind e == 2 && !t.ahead.contains i && t.entryReady e
      && !earlier.any fun x => decide (entKind x < 2) && entMb x == entMb e

/-- The entry to dispatch: the head, or one that W-fill picks (R158, R159). -/
def Itin.nextEntry (t : Itin) : Option Nat := if t.entryReady t.headEntry then some t.head else t.fillEntry

/-- The oldest warm launch of a kernel index (R161). -/
def State.warmOf (s : State) (k : Nat) : Option Launch := s.taskLaunches.find? fun l => l.warm && l.itn == some k

/-- The launch record of a kernel index; none when it is a KERNEL error (R161). -/
def State.kernelRec (s : State) (c k : Nat) : Option LaunchRec :=
  match s.vaRead c (s.itin.ktab k) 64 with
  | none => none
  | some bs =>
    let r := LaunchRec.ofBytes bs
    if hbmAligned (s.itin.ktab k) 64 && s.recordOk c r && r.pipe == 0 && r.hdl == 0 && r.dep0 == 0 && r.dep1 == 0 then some r else none

/-- The lowest free record of TASKVA (R160). -/
def Itin.freeRecord (t : Itin) : Nat :=
  ((List.range 16).find? fun i => !t.tasks.any fun (x : Task) => x.slot == i).getD 0

/-- The stash of an entry: its slot and the slots after step 3 of R160, or the error. -/
def Itin.stashStep (t : Itin) (e : Entry) : Except Nat (Option Nat × List (Option Nat)) :=
  let mine := t.stashOf (entMb e)
  match entStop e with
  | 1 =>
    if mine.isSome then .error 1
    else
      let i := t.stash.findIdx (· == none)
      .ok (some i, setAt t.stash i (some (entMb e)))
  | 2 => if mine.isNone then .error 2 else .ok (mine, t.stash)
  | _ => .ok (mine, t.stash)

/-- VA of an inbox slot, 0 when the entry takes none. -/
def slotVa (used : Bool) (base size i : Nat) : Nat := if used then base + i * size else 0

/-- The task record (R160). -/
def State.taskRecord (s : State) (i : Nat) (e : Entry) (stash : Option Nat) : List Byte :=
  let t := s.itin
  let k := entKind e
  let a := t.consA % t.naslot
  let g := t.consG % t.ngslot
  let n := t.outCap k
  let res := if k = 0 then t.resA else t.resG
  let outb := if entOut e = 0 then 0
    else if k = 0 then (fabricVa t.dpeer (t.hdr 0x40 8)).toNat else (fabricVa t.upeer (t.hdr 0x50 8)).toNat
  leBytes 8 s.stepCtr.toNat ++ leBytes 2 i ++ leBytes 1 k ++ leBytes 1 (entKidx e) ++ leBytes 2 (entMb e) ++ leBytes 2 0
    ++ leBytes 8 (slotVa (entNua e) (t.hdr 0x20 8) t.asz a) ++ leBytes 8 (slotVa (entNdg e) (t.hdr 0x28 8) t.gsz g)
    ++ leBytes 8 (slotVa stash.isSome t.stashva t.stsz (stash.getD 0)) ++ leBytes 8 outb ++ leBytes 1 (entOut e)
    ++ leBytes 1 (stash.getD 0) ++ leBytes 1 (if entNua e then a else 0) ++ leBytes 1 (if entNdg e then g else 0)
    ++ leBytes 1 (if entOut e = 0 then 0 else res % n) ++ leBytes 3 0 ++ leBytes 8 e.2.toNat

/-- Hand the task in record `slot` to a warm launch (R161, R162). -/
def State.handTask (s : State) (l : Launch) (slot : Nat) : State :=
  let mine := s.weftsOf l
  let give := fun w : Weft =>
    if mine.any (fun x => x.core == w.core && x.slot == w.slot) then
      { w with itnAnswer := some (s.taskVa slot), itnDone := false }
    else w
  { s with wefts := s.wefts.map give }.setLaunch { l with warm := false, task := some slot }

/-- Steps 1 to 3 and 5 of R160, once the task record is written. -/
def State.startTask (s : State) (c i : Nat) (e : Entry) (stash : List (Option Nat)) (how : Launch ⊕ LaunchRec) : State :=
  let t := s.itin
  let slot := t.freeRecord
  let k := entKind e
  let serial := match how with | .inl l => l.serial | .inr _ => (s.ctx c).nextSerial
  let task : Task :=
    { slot := slot, entry := i, kind := k, mb := entMb e, serial := serial, nout := entOut e
      resBase := if k = 0 then t.resA else t.resG, posts := 0, usedA := entNua e, usedG := entNdg e
      freeAtEnd := entStop e == 2 }
  let u : Itin :=
    { t with consA := t.consA + b2n (entNua e), consG := t.consG + b2n (entNdg e)
             resA := if k = 0 then t.resA + entOut e else t.resA, resG := if k = 1 then t.resG + entOut e else t.resG
             stash := stash, tasks := t.tasks ++ [task], dispatched := t.dispatched + 1, stalled := false }
  let s1 := { s with itin := u.passed i }
  match how with
  | .inl l => s1.handTask l slot
  | .inr r =>
    let s2 := s1.enterLaunch c (t.ktab (entKidx e)) r none [] none (some (entKidx e))
    match s2.launch? c serial with
    | some l => s2.setLaunch { l with task := some slot }
    | none => s2

/-- Dispatch entry `i` (R160, R161); an error leaves the head undispatched (R168). -/
def State.dispatchEntry (s : State) (c i : Nat) : State :=
  let t := s.itin
  let e := t.entries.getD i (0, 0)
  match t.stashStep e with
  | .error code => s.itinError code i
  | .ok (mine, stash) =>
    let how := match s.warmOf (entKidx e) with
      | some l => some (Sum.inl l)
      | none => (s.kernelRec c (entKidx e)).map Sum.inr
    match how with
    | none => s.itinError 3 i
    | some h =>
      let s := match h with | .inl _ => s | .inr _ => s.noteRead c (t.ktab (entKidx e)) 64
      match s.vaWrite c (s.taskVa t.freeRecord) (s.taskRecord i e mine) with
      | none => s.itinError 6 i
      | some s1 => s1.startTask c i e stash h

/-- ITINERARY_DISPATCH (R158-R161). -/
def execItineraryDispatch (s : State) : Res :=
  .next (match s.itin.bound, s.itin.nextEntry with
  | some c, some i => if s.dispatching then s.dispatchEntry c i else s
  | _, _ => s)

/-! ### SYNC (R163) -/

/-- The package's own SYNCB is set at the last position. -/
def State.setOwnSyncb (s : State) (n : Nat) : State :=
  let c := s.itin.bound.getD 0
  let s1 := (s.vaWrite c (BitVec.ofNat 64 (s.itin.ctlva + 0x418)) (leBytes 8 n)).getD s
  { s1 with itin := { s1.itin with syncb := BitVec.ofNat 64 n } }

/-- SYNC: the next step of the entry at the head (R163). -/
def execSync (s : State) : Res :=
  let t := s.itin
  let n := t.syncs + 1
  .next (if !s.dispatching || entKind t.headEntry != 3 || !t.tasks.isEmpty then s
  else if t.syncPhase = 0 then
    if t.hasUp && decide (t.syncf.toNat < n) then s
    else
      let s1 := { s with itin := { t with syncPhase := 1, stalled := false } }
      if t.hasDown then s1.sendControl ctlCore none t.dpeer (t.dnctlva + 0x410) false n else s1.setOwnSyncb n
  else if t.syncb.toNat < n then s
  else
    let s1 := if t.hasUp then s.sendControl ctlCore none t.upeer (t.upctlva + 0x418) false n else s
    { s1 with itin := { s1.itin.passed s1.itin.head with syncs := n, syncPhase := 0, stalled := false } })

/-! ### STEPEND (R164, R181) -/

/-- STEPEND: drained, n + 1 is sent (R164, steps 1 and 2). -/
def execStepend (s : State) : Res :=
  let t := s.itin
  .next (if !s.dispatching || entKind t.headEntry != 4 || !t.tasks.isEmpty || t.stepSent then s
  else { s with itin := { t with stepSent := true, acks := [], stalled := false } })

/-- The snapshot context (R174). -/
def State.snapCtx (s : State) : Option Nat := s.snap.regions.head?.map (·.ctx)

/-- A store from a die with step `n` or lower is not complete (R181). -/
def storeOpen (die n : Nat) (a : Access) : Bool :=
  dieOf a.core == die && a.kind.writes && decide (a.step ≤ n) && a.lanes.any fun l => !l.closed

/-- An engine command of a die with step `n` or lower has not ended. -/
def engineOpen (die n : Nat) (k : EngCmd) : Bool := dieOf k.core == die && decide (k.step ≤ n)

/-- A weft of the snapshot context holds the step on a die (R178). -/
def State.holdsStep (s : State) (die : Nat) (w : Weft) : Bool :=
  w.hold && !w.exited && dieOf w.core == die && s.snapCtx == some w.ctx

/-- Saves of pre-empted contexts. -/
def State.saves (s : State) : List Saved := s.ctxs.filterMap (·.saved)

/-- Step n - 1 is as R181 asks, where the steps that a STEP start skipped count as committed and mend-persistent. -/
def State.priorStepDone (s : State) (n : Nat) : Bool :=
  let p := if n ≤ s.snap.startStep then min (s.snap.startStep - 1) s.snap.c else n - 1
  match s.snap.group with
  | some g => if g.spare then decide (p ≤ s.snap.c) else decide (p ≤ s.snap.m)
  | none => decide (p ≤ s.snap.c)

/-- A die may acknowledge STEPEND n (R181). -/
def State.mayAck (s : State) (die n : Nat) : Bool :=
  !s.accs.any (storeOpen die n) && !s.cmds.any (engineOpen die n) && !s.wefts.any (s.holdsStep die)
    && s.saves.all (fun v => !v.accs.any (storeOpen die n) && !v.cmds.any (engineOpen die n) && !v.wefts.any (s.holdsStep die))
    && s.priorStepDone n && !s.snap.units.any fun u => u.landing.isSome

/-- After the fourth acknowledgement (R164, steps 4 to 6): the counter advances on every die, the status block is written,
and dispatch goes on at entry 0; the variant selectors of the context's pipelines run (R141). -/
def State.advanceStep (s : State) : State :=
  let n := s.stepCtr + 1
  let s1 := { s with
    stepCtr := n
    dieStep := s.dieStep.map fun _ => n
    snap := { s.snap with acked := max s.snap.acked s.stepCtr.toNat }
    pipes := s.pipes.map fun (p : Pipe) => if s.itin.bound = some p.ctx ∧ p.started then p.select else p }
  let s2 := s1.writeStatus
  let s3 := if s2.itin.stepirq then s2.raiseHvec else s2
  { s3 with itin := { s3.itin with head := 0, ahead := [], stepSent := false, acks := [], stalled := false } }

/-- STEPEND_ACK (R164, R181). -/
def execStependAck (die : Nat) (s : State) : Res :=
  let t := s.itin
  .next (if !s.itinRuns || !t.stepSent || decide (4 ≤ die) || t.acks.contains die || !s.mayAck die s.stepCtr.toNat then s
  else
    let s1 := { s with itin := { t with acks := t.acks ++ [die], stalled := false } }
    if s1.itin.acks.length < 4 then s1 else s1.advanceStep)

/-! ### Stall (R168) -/

/-- STALL_REPORT (R168): the report counts in ERRCNT, writes the status block and raises HVEC; the itinerary runs on. -/
def execStallReport (s : State) : Res :=
  .next (if !s.itinRuns || s.itin.stalled then s
  else
    let t : Itin := { s.itin with counters := modAt s.itin.counters 7 (· + 1), stalled := true }
    ({ s with itin := t }.writeStatus).raiseHvec)

end Sys2Proof.Machine
end

