-- ==== Sys2Proof/Machine/Snapshot.lean ====
section
/-! DEFINITION. Snapshot regions (R174-R176), step commit (R182, R184), the advance of M (R185), and SNAP SUB 2 with the mend
status block (R191). -/

namespace Sys2Proof.Machine

/-! ### Arming a region (R174, R175) -/

/-- Two ranges of addresses have a byte in common. -/
def rangesMeet (a n b m : Nat) : Bool := decide (a < b + m) && decide (b < a + n)

/-- A range keeps the alignment and length rules of R174. -/
def snapRange (va len : Nat) : Bool :=
  inScm (BitVec.ofNat 64 va) && decide (va < 2 ^ 56) && va % 4096 == 0 && len % 4096 == 0 && inside 4096 (2 ^ 44) len

/-- The pool range meets no armed region and no pool (R174); `reg` is the region that the command arms. -/
def State.poolClear (s : State) (pva plen : Nat) (reg : Nat × Nat) : Bool :=
  !rangesMeet pva plen reg.1 reg.2
    && s.snap.regions.all fun r => !rangesMeet pva plen r.va r.len && r.pools.all fun p => !rangesMeet pva plen p.1 p.2

/-- The frame that a pool unit gives: its channel and key; none when the unit is passed over (R174), as one past the SCM window is. -/
def State.poolFrame (s : State) (c va : Nat) : State × Option (Nat × Nat) :=
  let a := BitVec.ofNat 64 va
  if !inScm a then (s, none)
  else match s.leafOf c a with
  | (.leaf e, s1) => (s1, if leafWr e && !leafSnap e && !s1.inReserved a e then some (scmChan a, leafKey a e) else none)
  | (_, s1) => (s1, none)

/-- The frames of `n` units of a pool range. -/
def State.poolFrames (s : State) (c : Nat) : Nat → Nat → State × List (Nat × Nat)
  | 0, _ => (s, [])
  | n + 1, va =>
    let o := s.poolFrame c va
    let t := o.1.poolFrames c n (va + 4096)
    (t.1, match o.2 with | some f => f :: t.2 | none => t.2)

/-- Give a pool range to a region, which is armed by that if it was not. -/
def State.addPool (s : State) (c num va len pva plen : Nat) : State :=
  let o := s.poolFrames c (plen / 4096) pva
  let r : Region := match o.1.snap.regions.find? fun (r : Region) => r.num == num with
    | some r => { r with pools := r.pools ++ [(pva, plen)], given := r.given ++ o.2, free := r.free ++ o.2 }
    | none => { num := num, ctx := c, va := va, len := len, pools := [(pva, plen)], given := o.2, free := o.2 }
  let rest := o.1.snap.regions.filter fun (q : Region) => q.num ≠ num
  { o.1 with snap := { o.1.snap with regions := rest ++ [r] } }

/-- SNAP SUB 0 may arm, or extend, the region as far as the regions go (R174, R175). -/
def State.regionOk (s : State) (c num va len : Nat) : Bool :=
  match s.snap.regions.find? fun (r : Region) => r.num == num with
  | some r => r.ctx == c && r.va == va && r.len == len
  | none => snapRange va len
      && s.snap.regions.all fun (r : Region) => r.ctx == c && !rangesMeet va len r.va r.len

/-- SNAP_DEFINE_REGION (R174, R175). -/
def execSnapDefineRegion (c q : Nat) (s : State) : Res :=
  s.startSub c q 10 0 fun s k =>
    let rn := k.fld 0x1C 1
    let va := k.fld 0x20 8
    let len := k.fld 0x28 8
    let pd := BitVec.ofNat 64 (k.fld 0x30 8)
    if !s.regionOk c rn va len || !hbmAligned pd 64 then s.failCmd c q k.id 2
    else match s.vaRead c pd 64 with
      | none => s.failCmd c q k.id 3
      | some bs =>
        let pva := num bs 0 8
        let plen := num bs 8 8
        if !snapRange pva plen || num bs 16 48 != 0 || !s.poolClear pva plen (va, len) then s.failCmd c q k.id 2
        else ((s.noteRead c pd 64).addPool c rn va len pva plen).completeCmd c q k.id

/-! ### Releasing a region (R176) -/

/-- What a unit's home frame takes at the release: the newest frame's contents, where that frame is not the home frame itself. -/
def State.homeCells (s : State) (u : SnapUnit) : List Host.Cell :=
  match newestFrame u.frames with
  | none => []
  | some f => if f.key = u.home ∧ u.landing.isNone then [] else cellsFrom u.home (s.frameBytes u f)

/-- Release a region (R176): every newest frame goes home as it stood, since a frame may be the home of another unit; the map entries and the
pool go. -/
def State.releaseRegion (s : State) (n : Nat) : State :=
  let us := s.snap.units.filter fun u => u.region == n
  let s1 := (us.map s.homeCells).foldl (fun t cs => t.writeWait cs 0) s
  let keepR := s1.snap.regions.filter fun (r : Region) => r.num ≠ n
  let keepU := s1.snap.units.filter fun (u : SnapUnit) => u.region ≠ n
  let gone := us.map fun u => u.chan / 16
  (distinct gone).foldl (fun t k => t.addMeta k (.release n)) { s1 with snap := { s1.snap with regions := keepR, units := keepU } }

/-- SNAP_RELEASE_REGION (R176). -/
def execSnapReleaseRegion (c q : Nat) (s : State) : Res :=
  s.startSub c q 10 1 fun s k =>
    let rn := k.fld 0x1C 1
    let held := s.snap.regions.any fun (r : Region) => r.num == rn && r.ctx == c
    if !held || s.snap.group.isSome then s.failCmd c q k.id 2
    else (s.releaseRegion rn).completeCmd c q k.id

/-! ### The mend status block (R191) -/

/-- The mend status block. -/
def Snap.status (p : Snap) : List Byte :=
  leBytes 8 p.c ++ leBytes 8 p.m ++ leBytes 1 p.st ++ leBytes 1 0 ++ leBytes 2 p.failed ++ leBytes 4 0 ++ leBytes 8 p.enc
    ++ leBytes 8 p.upd ++ leBytes 24 0

/-- Write the mend status block, where a group names one (R191). -/
def State.writeMend (s : State) : State :=
  match s.snap.group with
  | none => s
  | some g =>
    let s1 := { s with snap := { s.snap with upd := s.snap.upd + 1 } }
    match s1.snapCtx with
    | some c => (s1.vaWrite c g.mstat s1.snap.status).getD s1
    | none => s1

/-- STATE changes (R191). -/
def State.mendState (s : State) (st failed : Nat) : State :=
  { s with snap := { s.snap with st := st, failed := failed } }.writeMend

/-! ### The advance of M (R184, R185) -/

/-- Frames that a unit keeps when M is `n`, and those it returns to the pool (R185). -/
def SnapUnit.prune (u : SnapUnit) (n : Nat) : List Frame × List Frame :=
  match newestFrame (u.frames.filter fun f => decide (f.tag ≤ n)) with
  | none => (u.frames, [])
  | some k => (u.frames.filter fun f => decide (n < f.tag) || f == k, u.frames.filter fun f => !(decide (n < f.tag) || f == k))

/-- Keep some frames of every unit; the others return to the pools of their regions (R185, R193). Entries that change do so through the
hampers (R177). -/
def State.pruneUnits (s : State) (f : SnapUnit → List Frame × List Frame) : State :=
  let back := fun r : Region => (s.snap.units.filter fun (u : SnapUnit) => u.region == r.num).flatMap fun (u : SnapUnit) =>
    (f u).2.map fun (x : Frame) => (u.chan, x.key)
  let left := fun u : SnapUnit =>
    let k := (f u).1
    { u with frames := k, landing := if k.any fun (x : Frame) => x.key == u.home then u.landing else none }
  let moved := (s.snap.units.filter fun u => !(f u).2.isEmpty).map left
  moved.foldl (fun t u => t.addMeta (u.chan / 16) (.unit u)) { s with
    snap := { s.snap with units := s.snap.units.map left,
                          regions := s.snap.regions.map fun (r : Region) => { r with free := r.free ++ back r } } }

/-- Complete the SNAP awaits whose step is mend-persistent (R191). -/
def State.endAwaits (s : State) : State :=
  let ready := s.snap.awaits.filter fun (a : Nat × Nat × Nat × Nat) => decide (a.2.2.2 ≤ s.snap.m)
  let rest := s.snap.awaits.filter fun (a : Nat × Nat × Nat × Nat) => !decide (a.2.2.2 ≤ s.snap.m)
  ready.foldl (fun t a => t.completeCmd a.1 a.2.1 a.2.2.1) { s with snap := { s.snap with awaits := rest } }

/-- M becomes `n` (R185): frames return to the pools, the status block is written, awaits and persist points complete. -/
def State.setM (s : State) (n : Nat) : State :=
  let s1 := { s with snap := { s.snap with m := n, accepted := s.snap.accepted.filter fun a => decide (n < a.1) } }.noteSteps.pruneUnits
    fun u => u.prune n
  let s2 := s1.writeMend.endAwaits
  (s2.wefts.map fun w => (w.core, w.slot)).foldl (fun t w => t.checkPersist w.1 w.2) s2

/-! ### Commit (R182, R184) -/

/-- A hamper holds a snapshot write of step `n` or lower (R182). -/
def State.hampHolds (s : State) (n : Nat) : Bool :=
  s.hamp.any fun h => decide (h.tag ≤ n) && h.bytes.any fun c => (s.unitOfKey c.1).isSome

/-- This package is a member of a declared group (R186). -/
def State.isMember (s : State) : Bool :=
  match s.snap.group with | some g => !g.spare | none => false

/-- STEP_COMMIT (R182, R184): the step that all dies have acknowledged commits; with no group, M follows. -/
def execStepCommit (s : State) : Res :=
  let n := s.snap.acked
  .next (if !s.up || decide (n ≤ s.snap.c) || s.hampHolds n then s
  else
    let s1 := { s with snap := { s.snap with c := n } }.noteSteps.writeMend
    if s1.isMember then s1 else s1.setM n)

/-- SNAP_AWAIT_STEP (R191). -/
def execSnapAwaitStep (c q : Nat) (s : State) : Res :=
  s.startSub c q 10 2 fun s k =>
    let n := k.fld 0x30 8
    if n ≤ s.snap.m then s.completeCmd c q k.id
    else { s with snap := { s.snap with awaits := s.snap.awaits ++ [(c, q, k.id, n)] } }

end Sys2Proof.Machine
end

