-- ==== Sys2Proof/Machine/Mend.lean ====
section
/-! DEFINITION. Mending groups: their declaration and code (R186-R189), the encoding of a step (R190), heartbeats and the loss
of a member (R192, R193, R197), the rebuild and the group rollback (R194-R196). -/

namespace Sys2Proof.Machine

/-! ### The code (R189) -/

/-- Multiply by x in GF(2^8) with polynomial 0x11D. -/
def gfX (a : Nat) : Nat := if 128 ≤ a then (2 * a) ^^^ 0x11D else 2 * a

/-- Mul over the low `n` bits of `b`. -/
def gfMulBits : Nat → Nat → Nat → Nat
  | 0, _, _ => 0
  | n + 1, a, b => (if b % 2 = 1 then a else 0) ^^^ gfMulBits n (gfX a) (b / 2)

/-- Mul (R189). -/
def gfMul (a b : Nat) : Nat := gfMulBits 8 a b

/-- Inv (R189). -/
def gfInv (a : Nat) : Nat := ((List.range 256).find? fun b => gfMul a b == 1).getD 0

/-- The coefficient c[i][d] of a group of k data units (R189). -/
def coef (k i d : Nat) : Nat := gfInv ((k + i) ^^^ d)

/-- A unit times a coefficient. -/
def gfUnit (c : Nat) (bs : List Byte) : List Byte := bs.map fun b => BitVec.ofNat 8 (gfMul c b.toNat)

/-! ### Stripes (R188) -/

def Group.g (g : Group) : Nat := g.k + g.m

/-- A member holds parity in stripe residue `r`. -/
def Group.isParity (g : Group) (member r : Nat) : Bool := (List.range g.m).any fun i => (r + i) % g.g == member

/-- Stripe of shard unit `u` of a member. -/
def Group.stripeOf (g : Group) (member u : Nat) : Nat :=
  let rs := (List.range g.g).filter fun r => !g.isParity member r
  g.g * (u / g.k) + rs.getD (u % g.k) 0

/-- Data position of a member in a stripe. -/
def Group.rank (g : Group) (member z : Nat) : Nat :=
  ((List.range member).filter fun x => !g.isParity x (z % g.g)).length

/-- The member that holds parity `i` of stripe `z`, and its parity unit. -/
def Group.parityAt (g : Group) (z i : Nat) : Nat × Nat := ((z + i) % g.g, g.m * (z / g.g) + i)

/-- Parity units of a member. -/
def Group.parityUnits (g : Group) : Nat := g.m * ((g.ushard + g.k - 1) / g.k)

/-- Place of a peer among the members. -/
def Group.indexOf (g : Group) (peer : Nat) : Nat := (g.members.take g.g).findIdx (· == peer)

/-- A peer is a member. -/
def Group.has (g : Group) (peer : Nat) : Bool := (g.members.take g.g).contains peer

/-! ### The shard (R187) -/

/-- Armed regions that hold data, in ascending number. -/
def State.shardRegions (s : State) (preg : Nat) : List Region :=
  sortBy (fun (a b : Region) => decide (a.num ≤ b.num)) (s.snap.regions.filter fun (r : Region) => r.num != preg)

/-- VAs of the shard's units, in order. -/
def State.shardUnits (s : State) (preg : Nat) : List Nat :=
  (s.shardRegions preg).flatMap fun r => (List.range (r.len / 4096)).map fun i => r.va + 4096 * i

/-- Units of the shard. -/
def State.shardLen (s : State) (preg : Nat) : Nat := ((s.shardRegions preg).map fun r => r.len / 4096).foldl (· + ·) 0

/-- The 4 KiB contents of a unit as a read returns them (R179, R194); zeros where nothing is mapped. -/
def State.unitBytes (s : State) (c va : Nat) : List Byte :=
  match s.translate c (BitVec.ofNat 64 va) .read 0 with
  | (.ok k _, s1) => s1.rbytes k 4096
  | _ => zeros 4096

/-- The contents of a unit at version `v`: its newest frame with a tag not above it (R194). -/
def State.unitAtVersion (s : State) (c v va : Nat) : List Byte :=
  match (s.unitAt va).bind fun u => (newestFrame (u.frames.filter fun f => decide (f.tag ≤ v))).map fun f => s.frameBytes u f with
  | some bs => bs
  | none => s.unitBytes c va

/-- A parity delta: the peer that holds the parity, the parity unit, and the bytes to XOR (R190). -/
abbrev Delta := Nat × Nat × List Byte

/-- The parity deltas of a change to shard unit `u` of a member. -/
def Group.deltas (g : Group) (member u : Nat) (bs : List Byte) : List Delta :=
  let z := g.stripeOf member u
  (List.range g.m).map fun i =>
    let p := g.parityAt z i
    (g.members.getD p.1 0, p.2, gfUnit (coef g.k i (g.rank member z)) bs)

/-! ### The group descriptor (R186) -/

/-- A group as its descriptor gives it, at a package of peer id `me`. -/
def Group.ofBytes (k m me : Nat) (bs : List Byte) : Group :=
  let dflt := fun x d : Nat => if x = 0 then d else x
  { k := k, m := m, members := (List.range 16).map fun g => num bs (2 * g) 2, parva := num bs 0x20 8, preg := num bs 0x28 1
    hbmiss := dflt (num bs 0x29 1) 10, hbp := dflt (num bs 0x2A 2) 100, ushard := num bs 0x30 8, landva := num bs 0x38 8
    landlen := num bs 0x40 8, mstat := BitVec.ofNat 64 (num bs 0x48 8)
    spares := (List.range 4).map fun j => num bs (0x50 + 2 * j) 2, spare := false, me := me }

/-- The rules of R186 that the descriptor alone can break, but for its fields' own ranges. -/
def Group.shapeOk (g : Group) : Bool :=
  inside 1 3 g.m && decide (1 ≤ g.k) && decide (g.g ≤ 16) && !(g.members.take g.g).contains 0xFFFF
    && decide ((distinct (g.members.take g.g)).length = g.g)

/-- The fields of a descriptor keep the ranges and alignments of R186's table, and its zero fields are zero. -/
def Group.fieldsOk (g : Group) (bs : List Byte) : Bool :=
  (g.members.drop g.g).all (· == 0xFFFF) && (num bs 0x2A 2 == 0 || inside 10 10000 (num bs 0x2A 2)) && num bs 0x2C 4 == 0
    && ((bs.drop 0x58).take 168).all (· == 0) && hbmAligned (BitVec.ofNat 64 g.landva) (2 ^ 21) && g.landlen % 2 ^ 21 == 0
    && hbmAligned g.mstat 64 && decide (g.preg < 64)

/-- The rules of R186 that concern this package; PARVA is the base of region PREG. -/
def State.groupOk (s : State) (c : Nat) (g : Group) : Bool :=
  g.shapeOk && (g.has s.fab.pkgid.toNat || g.spares.contains s.fab.pkgid.toNat)
    && s.snap.regions.any (fun (r : Region) => r.num == g.preg && r.ctx == c && r.va == g.parva && decide (g.parityUnits * 4096 ≤ r.len))
    && decide (s.shardLen g.preg ≤ g.ushard) && (s.snap.group.isNone || s.snap.st == 6)

/-- VA of a parity unit of this member (R186, R188). -/
def Group.parityVa (g : Group) (w : Nat) : Nat := g.parva + 4096 * w

/-- A parity unit is cleared, and no sender is noted in it. -/
def State.clearUnit (s : State) (c va : Nat) : State :=
  match s.translate c (BitVec.ofNat 64 va) .read 0 with
  | (.ok k _, s1) =>
    let s2 := s1.writeWait (cellsFrom (s1.physKey k) (zeros 4096)) 0
    match s2.unitAt va with
    | some u => s2.setUnit { u with frames := u.frames.map fun f => { f with taken := [] } }
    | none => s2
  | _ => s

/-- Clear the parity units: a declaration encodes them in full (R187). -/
def State.clearParity (s : State) (c : Nat) (g : Group) : State :=
  (List.range g.parityUnits).foldl (fun t w => t.clearUnit c (g.parityVa w)) s

/-- Deltas that encode every unit of the shard in full (R187). -/
def State.fullDeltas (s : State) (c : Nat) (g : Group) : List Delta :=
  let us := s.shardUnits g.preg
  (List.range us.length).flatMap fun u => g.deltas (g.indexOf g.me) u (s.unitBytes c (us.getD u 0))

/-- A darner's packet: one line of a unit to a peer, in T2 (R72, R190, R194). -/
def State.sendDarner (s : State) (c peer line : Nat) (bs : List Byte) (op : FabOp) (use : PktUse) : State :=
  s.sendPacket { mkPacket ctlCore c peer line 2 0xFF op with
    bytes := (List.range 128).map fun i => (i, bs.getD i 0, 0), use := use }

/-- The 32 lines of a unit, in packets. -/
def State.sendUnit (s : State) (c peer unit : Nat) (bs : List Byte) (op : FabOp) (use : PktUse) : State :=
  (List.range 32).foldl (fun t i => t.sendDarner c peer (32 * unit + i) ((bs.drop (128 * i)).take 128) op use) s

/-- The deltas of step `n` go out (R190, step 3), but for lines that have been accepted (R199, assumption 113). -/
def State.sendDeltas (s : State) (c n units : Nat) (ds : List Delta) : State :=
  let s1 := { s with snap := { s.snap with encoded := n :: s.snap.encoded, enc := s.snap.enc + units } }
  let lines := (ds.flatMap fun d => (List.range 32).map fun i => (d.1, 32 * d.2.1 + i, (d.2.2.drop (128 * i)).take 128)).filter
    fun l => !s.snap.accepted.contains (n, l.1, l.2.1)
  lines.foldl (fun t l => t.sendDarner c l.1 l.2.1 l.2.2 (.delta n) (.delta n)) s1

/-- Complete the MEND command in progress. -/
def State.endMend (s : State) : State :=
  match s.snap.mender with
  | some (c, q, id) => { s with snap := { s.snap with mender := none } }.completeCmd c q id
  | none => s

/-- DONE(n) has come from every member. -/
def State.allDone (s : State) (g : Group) (n : Nat) : Bool := (g.members.take g.g).all fun p => s.snap.dones.contains (p, n)

/-- The declaration completes when every member's parity is accepted (R187): C and M are 0. -/
def State.declared (s : State) (g : Group) : State :=
  if s.snap.st = 1 ∧ s.allDone g 0 then
    ({ s with snap := { s.snap with c := 0, m := 0, acked := 0, dones := [], encoded := [], accepted := [] } }.noteSteps.mendState 2
      0xFFFF).endMend
  else s

/-- Step `n` is mend-persistent when DONE(n) has come from every member and `n` has committed here (R190); step 0 stands for the declaration. -/
def State.mended (s : State) (g : Group) (n : Nat) : State :=
  if n = 0 then s.declared g else if s.snap.m < n ∧ n ≤ s.snap.c ∧ s.allDone g n then s.setM n else s

/-- DONE(n) is sent to every member once every delta of the step has been accepted (R190, step 5); the package has its own. -/
def State.finishEncode (s : State) (g : Group) (n : Nat) : State :=
  if s.fab.packets.any fun k => k.use == .delta n then s
  else
    let s1 := { s with snap := { s.snap with dones := (g.me, n) :: s.snap.dones } }.noteSteps
    (((g.members.take g.g).filter (· != g.me)).foldl (fun t p => t.emit (.doneMsg p n)) s1).mended g n

/-- A group is declared (R186, R187): a spare records it; a member's darners encode its shard in full. -/
def State.declareGroup (s : State) (c q id : Nat) (g : Group) : State :=
  if !g.has g.me then
    { s with snap := { s.snap with group := some { g with spare := true }, st := 0, enc := 0, lost := [], missed := [], beat := 0 } }.completeCmd
      c q id
  else
    let s1 := { s with snap := { s.snap with group := some g, enc := 0, dones := s.snap.dones.filter (fun d => d.2 == 0), encoded := [], accepted := []
                                             lost := [], missed := [], beat := 0, mender := some (c, q, id) } }.mendState 1 0xFFFF
    let s2 := s1.clearParity c g
    (s2.sendDeltas c 0 (s2.shardLen g.preg) (s2.fullDeltas c g)).finishEncode g 0

/-- MEND_DECLARE_GROUP (R186, R187). -/
def execMendDeclareGroup (c q : Nat) (s : State) : Res :=
  s.startSub c q 11 0 fun s k =>
    let va := BitVec.ofNat 64 (k.fld 0x20 8)
    if !hbmAligned va 256 then s.failCmd c q k.id 2
    else match s.vaRead c va 256 with
      | none => s.failCmd c q k.id 3
      | some bs =>
        let g := Group.ofBytes (k.fld 0x1C 1) (k.fld 0x1D 1) s.fab.pkgid.toNat bs
        if !s.groupOk c g || !g.fieldsOk bs then s.failCmd c q k.id 2
        else (s.noteRead c va 256).declareGroup c q k.id g

/-! ### Encoding a step (R190) -/

/-- The change that step `n` made to a unit: its frame of step `n` XOR the newest frame below it. -/
def State.unitDelta (s : State) (n : Nat) (u : SnapUnit) : Option (List Byte) :=
  match u.frames.find? (fun f => f.tag == n), newestFrame (u.frames.filter fun f => decide (f.tag < n)) with
  | some f, some o => some (xorBytes (s.frameBytes u f) (s.frameBytes u o))
  | _, _ => none

/-- Deltas of step `n` with the units that they encode. -/
def State.stepDeltas (s : State) (g : Group) (n : Nat) : Nat × List Delta :=
  let us := s.shardUnits g.preg
  let me := g.indexOf g.me
  let hit := (List.range us.length).filterMap fun i =>
    (s.snap.units.find? fun u => u.va == us.getD i 0).bind fun u => (s.unitDelta n u).map fun d => (i, d)
  (hit.length, hit.flatMap fun p => g.deltas me p.1 p.2)

/-- The coordinator and the darners run: from MEMINIT on (R199). -/
def State.darning (s : State) : Bool := s.up || (s.booting .meminit && s.boot.mounted)

/-- The step that the darners of a member encode: 0 in a declaration, else the last one committed, until it is mend-persistent. -/
def State.encodeStep (s : State) : Option Nat :=
  if s.snap.st = 1 then some 0 else if (s.snap.st = 2 ∨ s.snap.st = 5) ∧ s.snap.m < s.snap.c then some s.snap.c else none

/-- ENCODE_STEP (R190): the deltas go out, and once every one has been accepted, DONE(n). -/
def execEncodeStep (s : State) : Res :=
  .next (match s.snap.group, s.snapCtx, s.encodeStep with
  | some g, some c, some n =>
    if !s.darning || g.spare then s
    else if s.snap.dones.contains (g.me, n) then s.mended g n
    else if s.snap.encoded.contains n then s.finishEncode g n
    else
      let o := s.stepDeltas g n
      (s.sendDeltas c n o.1 o.2).finishEncode g n
  | _, _, _ => s)

/-- A DONE(n) message is taken: those of step 0 before and while the package declares its group, later ones from members; a spare takes none
(R186). -/
def Snap.takesDone (p : Snap) (peer n : Nat) : Bool :=
  !p.dones.contains (peer, n) && match p.group with
    | some g => !g.spare && (if n = 0 then decide (p.st ∈ [0, 1, 6]) else g.has peer)
    | none => n == 0 && decide (p.st ∈ [0, 1, 6])

/-- The context of a job (R71). -/
def State.jobCtx (s : State) (job : BitVec 16) : Option Nat :=
  (List.range 64).find? fun c => job != 0 && (s.ctx c).st != .free && (s.ctx c).desc.fjob == job

/-- A message of the group comes under the job of the snapshot context, or of any context while there is none (R71, R186). -/
def State.ownJob (s : State) (job : BitVec 16) : Bool :=
  match s.jobCtx job with
  | some c => s.snapCtx.getD c == c
  | none => false

/-- DONE_MESSAGE (R190): with the last DONE(n), step n is mend-persistent, or the declaration completes. -/
def execDoneMessage (peer n : Nat) (job : BitVec 16) (s : State) : Res :=
  .next (if !s.darning || !s.ownJob job || !s.snap.takesDone peer n then s
  else
    let s1 := { s with snap := { s.snap with dones := (peer, n) :: s.snap.dones } }.noteSteps
    match s1.snap.group with
    | some g => s1.mended g n
    | none => s1)

/-! ### Heartbeats and loss (R192, R193, R197) -/

/-- A package takes part in its group: heartbeats go out and are awaited (R192). -/
def State.inGroup (s : State) : Option Group :=
  match s.snap.group with
  | some g => if g.spare || s.snap.st == 0 || s.snap.st == 6 then none else some g
  | none => none

/-- Members of a group that a package looks after: the others, as far as they are not lost; in a rebuild, the spare that stands in for the
failed one among them (R192, R194). -/
def State.others (s : State) (g : Group) : List Nat :=
  (g.members.take g.g).filter fun p => p != g.me && (!s.snap.lost.contains p || (s.snap.st == 4 && p == s.snap.failed))

/-- A heartbeat period ends for a member: heard of since the last one, or one more heartbeat missed (R192). -/
def Snap.miss (p : Snap) (peer : Nat) : Snap :=
  match p.missed.lookup peer with
  | some n => { p with missed := (peer, n + 1) :: p.missed.filter fun e => e.1 ≠ peer }
  | none => { p with missed := (peer, 0) :: p.missed }

/-- A heartbeat of a member has come (R192). -/
def Snap.heard (p : Snap) (peer : Nat) : Snap := { p with missed := p.missed.filter fun e => e.1 ≠ peer }

/-- A heartbeat is sent to a member, a T0 atomic (R192); none where R83 gives an error. -/
def State.sendBeat (s : State) (c peer : Nat) : State :=
  if (s.fabErr c peer 0).isSome then s else s.sendPacket { mkPacket ctlCore c peer 0 0 0x01 .heartbeat with use := .heartbeat }

/-- HEARTBEAT_SEND (R192): every other member is sent one, and members that have missed HBMISS in a row are lost. -/
def execHeartbeatSend (s : State) : Res :=
  .next (match s.inGroup, s.snapCtx with
  | some g, some c =>
    if !s.up then s
    else
      let ps := s.others g
      let s1 := { s with snap := { ps.foldl Snap.miss s.snap with beat := 0 } }
      let s2 := ps.foldl (fun t p => t.sendBeat c p) s1
      let gone := ps.filter fun p => match s2.snap.missed.lookup p with | some n => decide (g.hbmiss ≤ n) | none => false
      gone.foldl (fun t p => t.post (.memberLoss p)) s2
  | _, _ => s)

/-- The itinerary stops without awaiting its wefts (R193, step 3). -/
def State.haltItinerary (s : State) : State :=
  let t := s.itin
  if t.st = 1 ∨ t.st = 2 then
    let s1 := { s with itin := { t with st := 0, tasks := [], stepSent := false, acks := [], syncPhase := 0 } }
    match t.stopper with
    | some (c, q, id) => s1.stopEnds c q id
    | none => s1.writeStatus
  else { s with itin := { t with tasks := [] } }

/-- A settled write that the halt leaves to be performed: lanes in snapshot units go, since what they would write is rolled back (R193). -/
def Access.leaveHalt (a : Access) : Access :=
  { a with lanes := a.lanes.map fun l => match l.st with | .ready k => if keyIsSnap k then { l with st := .dropped } else l | _ => l }

/-- The wefts of a context exit, and its launches are dropped without completion (R193, step 4). -/
def State.exitWefts (s : State) (c : Nat) : State :=
  let stays := fun a : Access => a.ctx != c || (a.kind.writes && a.settled && !a.parked)
  let x := s.ctx c
  let out := fun w : Weft => if w.ctx = c ∧ !w.exited then w.release (s.inSwait w) else w
  let saved := x.saved.map fun v => { v with wefts := v.wefts.map (fun (w : Weft) => w.release false), accs := [] }
  { s with
    wefts := s.wefts.map out
    accs := (s.accs.filter stays).map fun (a : Access) => if a.ctx = c then a.leaveHalt else a
    launches := s.launches.filter fun (l : Launch) => l.ctx ≠ c
    pipes := s.pipes.filter fun (p : Pipe) => p.ctx ≠ c
    allocs := s.allocs.map fun (a : SpadAlloc) => if a.level = 3 ∧ a.ctx = c then { a with live := false } else a
    queues := s.queues.map fun (e : (Nat × Nat) × Queue) =>
      if e.1.1 = c then (e.1, { e.2 with running := e.2.running.filter fun (k : Cmd) => k.op != 1 }.restat)
      else e }.setCtx c { x with saved := saved, handles := [] }

/-- Every frame above M is dropped, and C is M (R193, step 5); deltas of steps above M are not sent any more. -/
def State.rollBack (s : State) : State :=
  let m := s.snap.m
  let s1 := s.pruneUnits fun u => (u.frames.filter fun f => decide (f.tag ≤ m), u.frames.filter fun f => decide (m < f.tag))
  let stale := fun k : Packet => match k.use with | .delta n => decide (m < n) | _ => false
  { s1 with
    snap := { s1.snap with c := m, acked := m, encoded := s1.snap.encoded.filter (· ≤ m)
                           accepted := s1.snap.accepted.filter fun a => decide (a.1 ≤ m)
                           dones := s1.snap.dones.filter fun (d : Nat × Nat) => decide (d.2 ≤ m) }
    fab := { s1.fab with packets := s1.fab.packets.filter fun k => !stale k } }.noteSteps

/-- Steps 3 to 6 of R193. -/
def State.groupHalt (s : State) : State :=
  match s.snapCtx with
  | none => s
  | some c => ((((s.haltItinerary.exitWefts c).rollBack).writeMend).emit (.msix (s.ctx c).desc.fqvec))

/-! ### Solving a lost unit (R189, R194) -/

/-- What a member holds in stripe `z` as a combination of its data units: a data unit is one of them, a parity unit R189's sum. -/
def Group.row (g : Group) (z member : Nat) : List Nat :=
  match (List.range g.m).find? fun i => (z + i) % g.g == member with
  | some i => (List.range g.k).map (coef g.k i)
  | none => (List.range g.k).map fun d => b2n (d == g.rank member z)

/-- Row `a` less `x` times row `b`. -/
def gfSubtract (x : Nat) (a b : List Nat) : List Nat := (a.zip b).map fun p => p.1 ^^^ gfMul x p.2

/-- One column of Gauss-Jordan elimination over GF(2^8): the rows already solved, in column order, and the rest. -/
def gfColumn (st : List (List Nat) × List (List Nat)) (col : Nat) : List (List Nat) × List (List Nat) :=
  match st.2.find? fun r => r.getD col 0 != 0 with
  | none => st
  | some p =>
    let q := p.map (gfMul (gfInv (p.getD col 0)))
    let clear := fun r : List Nat => gfSubtract (r.getD col 0) r q
    (st.1.map clear ++ [q], (st.2.eraseIdx (st.2.findIdx (· == p))).map clear)

/-- The members that solve: the k lowest-numbered survivors (R194, step 3). -/
def Group.solvers (g : Group) (lost : List Nat) : List Nat :=
  ((List.range g.g).filter fun i => !lost.contains (g.members.getD i 0)).take g.k

/-- Decoding coefficients of the solvers of stripe `z` for what member `f` holds in it: the multipliers whose sum of the solvers' rows is
the lost row. -/
def Group.decode (g : Group) (z f : Nat) (by_ : List Nat) : List Nat :=
  let lost := g.row z f
  let eqs := (List.range g.k).map fun d => by_.map (fun x => (g.row z x).getD d 0) ++ [lost.getD d 0]
  ((List.range g.k).foldl gfColumn ([], eqs)).1.map fun r => r.getD g.k 0

/-- Stripe of unit `x` of a member: shard units count first, then parity units (R188). -/
def Group.stripeAt (g : Group) (member x : Nat) : Nat :=
  if x < g.ushard then g.stripeOf member x
  else
    let w := x - g.ushard
    g.g * (w / g.m) + (member + g.g - w % g.m) % g.g

/-- The unit of a member that lies in stripe `z`, counted as in `stripeAt` (R188). -/
def Group.unitIn (g : Group) (member z : Nat) : Nat :=
  match (List.range g.m).find? fun i => (z + i) % g.g == member with
  | some i => g.ushard + (g.parityAt z i).2
  | none =>
    let rs := (List.range g.g).filter fun r => !g.isParity member r
    g.k * (z / g.g) + rs.findIdx (· == z % g.g)

/-- VA of a unit of this package; none for one that the shard does not reach. -/
def State.unitVa (s : State) (g : Group) (x : Nat) : Option Nat :=
  if x < g.ushard then (s.shardUnits g.preg)[x]? else some (g.parityVa (x - g.ushard))

/-- What this member adds to the partial of lost unit `x` of member `f`: its own unit at version `v`, times its decoding coefficient
(R194, step 3). -/
def State.contribution (s : State) (c : Nat) (g : Group) (f v x : Nat) : List Byte :=
  let z := g.stripeAt f x
  let me := g.indexOf g.me
  let by_ := g.solvers s.snap.lost
  let k := (g.decode z f by_).getD (by_.findIdx (· == me)) 0
  match s.unitVa g (g.unitIn me z) with
  | some va => gfUnit k (s.unitAtVersion c v va)
  | none => zeros 4096

/-- The peer that takes a partial after this member: the next solver, or the spare, which stands in the peer table as the lost member. -/
def State.nextSolver (s : State) (g : Group) : Nat :=
  let me := g.indexOf g.me
  match (g.solvers s.snap.lost).find? (me < ·) with
  | some i => g.members.getD i 0
  | none => s.snap.failed

/-- The first solver starts the partial of every unit of the lost member; the others wait for it (R194, step 3). -/
def State.startPartials (s : State) (c : Nat) (g : Group) (f : Nat) : State :=
  if (g.solvers s.snap.lost).head? != some (g.indexOf g.me) then s
  else (List.range (g.ushard + g.parityUnits)).foldl (fun t x =>
    t.sendUnit c (t.nextSolver g) x (s.contribution c g (g.indexOf f) s.snap.m x) (.rebuild s.snap.m) .rebuild) s

/-- A rebuild starts again among the members that are left (R197). -/
def State.restartPartials (s : State) : State :=
  match s.snap.group, s.snapCtx with
  | some g, some c =>
    let s1 := { s with fab := { s.fab with packets := s.fab.packets.filter fun k => k.use != .rebuild } }
    if s.snap.failed = g.me then s1 else s1.startPartials c g s.snap.failed
  | _, _ => s

/-- MEMBER_LOSS (R193, R197, R199). -/
def execMemberLoss (peer : Nat) (s : State) : Res :=
  .next (match s.inGroup with
  | none => s
  | some g =>
    let p := s.snap
    if !s.up || !g.has peer || peer == g.me || p.lost.contains peer then s
    else if p.st = 1 then
      ({ s with snap := { p with dones := p.dones.filter fun d => d.2 != 0 } }.noteSteps.mendState 6 peer).endMend
    else
      let n := p.lost.length + 1
      let s1 := { s with snap := { p with lost := p.lost ++ [peer] } }
      let s2 := if g.m < n then s1.mendState 6 peer else if p.st = 4 then s1 else s1.mendState 3 peer
      let s3 := (s2.putPeer peer fun e => { e with st := 1 }).groupHalt
      if g.m < n then s3.endMend else if p.st = 4 then s3.restartPartials else s3)

/-! ### The rebuild (R194) -/

/-- The first SPARE entry that is up (R194). -/
def State.spareUp (s : State) (g : Group) : Option Peer :=
  ((g.spares.filter (· != 0xFFFF)).map s.peer).find? fun e => e.v && e.st == 0

/-- The sequence starts on a survivor or on the spare (R194, steps 1 to 3); the spare is a member from here on. -/
def State.startRebuild (s : State) (c q : Nat) (k : Cmd) : State :=
  let f := k.fld 0x28 8
  match s.snap.group, s.snapCtx with
  | some g, some d =>
    let s1 := { s with snap := { s.snap with mender := some (c, q, k.id), lines := [], missed := s.snap.missed.filter fun e => e.1 ≠ f } }
    if g.spare then
      if !g.has f then s.failCmd c q k.id 2
      else { s1 with
        fab := { s1.fab with pkgid := BitVec.ofNat 9 f }
        snap := { s1.snap with group := some { g with spare := false, me := f }, lost := [f] } }.mendState 4 f
    else if !s.snap.lost.contains f then s.failCmd c q k.id 2
    else match s.spareUp g with
      | none => s.failCmd c q k.id 2
      | some e => ((s1.putPeer f fun x => { x with sport := e.sport, st := 0 }).mendState 4 f).startPartials d g f
  | _, _ => s.failCmd c q k.id 2

/-- This package is the spare of a rebuild in progress. -/
def State.isSpareNow (s : State) : Bool := s.snap.st == 4 && s.snap.group.any fun g => s.snap.failed == g.me

/-- The units that the spare waits for: its shard, and its parity. -/
def State.wanted (s : State) (g : Group) : List Nat :=
  List.range (s.shardLen g.preg) ++ (List.range g.parityUnits).map (g.ushard + ·)

/-- Every line of a unit is there. -/
def Snap.holdsUnit (p : Snap) (x : Nat) : Bool := (List.range 32).all fun i => p.lines.contains (x, i)

/-- The rebuild is done as far as this package can tell: the spare holds every unit; a survivor has passed on what it had to. -/
def State.rebuilt (s : State) (g : Group) : Bool :=
  if s.isSpareNow then (s.wanted g).all s.snap.holdsUnit
  else s.snap.st == 4 && !s.fab.packets.any fun k => k.use == .rebuild

/-- The spare holds every unit (R194, step 5): survivors are protected again, or degraded by a further loss (R197); the spare
is backfilling, and its M is the version that it was given. -/
def State.endRebuild (s : State) : State :=
  let left := s.snap.lost.filter (· ≠ s.snap.failed)
  let s1 := { s with snap := { s.snap with lost := left } }
  if s.isSpareNow then
    let v := s.snap.version
    (({ s1 with snap := { s1.snap with c := v, acked := v, lines := [] } }.setM v).mendState 5 0xFFFF).endMend
  else
    (match left with
      | [] => s1.mendState 2 0xFFFF
      | p :: _ => s1.mendState 3 p).endMend

/-- The sequence in progress is the one of a queue's MEND command for peer `f`, and is at its end (R194, step 5). -/
def State.rebuildEnds (s : State) (c q f : Nat) : Bool :=
  match s.snap.mender, s.snap.group with
  | some (c1, q1, _), some g => c1 == c && q1 == q && s.snap.st == 4 && s.snap.failed == f && s.up && s.rebuilt g
  | _, _ => false

/-- MEND_REBUILD (R194): the head command starts the sequence, and the rebuilt units in place end it. -/
def execMendRebuild (c q f : Nat) (placed : Bool) (s : State) : Res :=
  if placed then .next (if s.rebuildEnds c q f then s.endRebuild else s)
  else s.start c q (fun k => k.op == 11 && k.sub == 1 && k.fld 0x28 8 == f && f != 2 ^ 64 - 1) fun s k => s.startRebuild c q k

/-- A MEND command waits while another one is in progress (assumption 98). -/
def State.mendHeld (s : State) (k : Cmd) : Bool :=
  k.op == 11 && match s.snap.mender with
    | some (c, q, id) => (s.queue c q).running.any fun x => x.id == id
    | none => false

/-- MEND_GROUP_ROLLBACK (R195). -/
def execMendGroupRollback (c q : Nat) (s : State) : Res :=
  s.start c q (fun k => k.op == 11 && k.sub == 1 && k.fld 0x28 8 == 2 ^ 64 - 1) fun s k =>
    if s.isMember then s.groupHalt.completeCmd c q k.id else s.failCmd c q k.id 2

/-- Landing copies wait to be written home. -/
def State.backfills (s : State) : Bool := s.snap.units.any fun u => u.landing.isSome

/-- BACKFILL_COMPLETE (R194): every landing copy is at its home frame; a spare that was backfilling is protected. -/
def execBackfillComplete (s : State) : Res :=
  .next (if !s.up then s
  else
    let home := fun (t : State) (u : SnapUnit) => match u.landing with
      | some l => (t.writeWait (cellsFrom u.home (t.landingBytes t.regionCtx l)) 0).setUnit { u with landing := none }
      | none => t
    let s1 := s.snap.units.foldl home s
    if s.snap.st = 5 then s1.mendState 2 0xFFFF else s1)

end Sys2Proof.Machine
end

