-- ==== Sys2Proof/Machine/Target.lean ====
section
/-! DEFINITION. Requests of peers at this package (R39, R71, R76, R77, R80, R83): those of wefts and engines, and those of other members'
darners and coordinators (R190, R192, R194). -/

namespace Sys2Proof

/-- The request changes memory. -/
def FabReq.changes (r : FabReq) : Bool := r.op != .read && r.op != .fetch

/-- Line number of a darner's request: 32 for each unit. -/
def FabReq.line (r : FabReq) : Nat := r.addr.toNat / 128

/-- An earlier request of the source to the same line and tier waits for its hamper: later ones stay behind it (R75). -/
def FabReq.behind (r : FabReq) (i : Instr) : Bool :=
  match i with
  | .fabricRequest q => q.src == r.src && q.addr == r.addr && q.tier == r.tier && decide (q.seq < r.seq)
  | _ => false

end Sys2Proof

namespace Sys2Proof.Machine

/-- The mending sequence has fenced a peer from a context (R83, R193). -/
def State.fences (s : State) (c src : Nat) : Bool :=
  s.snap.lost.contains src && (s.peer src).st == 1 && s.snapCtx == some c

/-! ### Requests of wefts and engines -/

/-- Lane operations of an atomic packet at a line, in order, with their old values (R77, R412). -/
def State.serveOps (s : State) (k minor st : Nat) : List (Nat × W64 × W64) → State × List Byte
  | [] => (s, [])
  | (off, b, w) :: r =>
    let n := atomSize minor
    let old := s.rnat (k + off) n
    let s1 := s.chanWrite (cellsFrom (k + off) (leBytes n (atomNew minor old (b.toNat % 2 ^ (8 * n)) (w.toNat % 2 ^ (8 * n))))) st
    let t := s1.serveOps k minor st r
    (t.1, leBytes n old ++ t.2)

/-- The granules of a line that a read asks for (R72); the other bytes of its answer are 0. -/
def State.lineBytes (s : State) (k : Nat) (gm : BitVec 8) : List Byte :=
  (List.range 128).map fun i => if gm.getLsbD (i / 16) then s.rbyte (k + i) else 0

/-- The newest of some accesses in the core store order. -/
def newestAcc (l : List Access) : Option Access :=
  l.foldl (fun acc a => match acc with
    | some b => if b.ord.getD 0 ≤ a.ord.getD 0 then some a else some b
    | none => some a) none

/-- The step that a byte of a request carries at this package (R178): a peer's, the step counter as the channel takes it; the package's own,
that of the store or engine command that it is of. -/
def State.reqStep (s : State) (r : FabReq) (off : Nat) : Nat :=
  match s.fab.packets.find? fun k => r.src == s.fab.pkgid.toNat && k.pid == r.seq with
  | none => s.stepCtr.toNat
  | some k =>
    let mine := s.accs.filter fun a => k.accs.contains a.id && (k.op != .write || (a.lineByte k.peer k.line off).isSome)
    match k.use with
    | .engine id => ((s.cmd? id).map EngCmd.step).getD s.stepCtr.toNat
    | _ => ((newestAcc mine).map Access.step).getD s.stepCtr.toNat

/-- The steps of a request, ascending. -/
def State.reqSteps (s : State) (r : FabReq) : List Nat :=
  sortBy (fun a b => decide (a ≤ b)) (distinct (match r.op with
    | .write => r.bytes.map fun b => s.reqStep r b.1
    | _ => [s.reqStep r 0]))

/-- Perform a request at the line's key (R72, R77): of a write, the bytes of each step. -/
def State.serveAt (s : State) (r : FabReq) (k : Nat) : State × FabResult :=
  let st := s.reqStep r 0
  match r.op with
  | .write => ((s.reqSteps r).foldl (fun t n => t.chanWrite ((r.bytes.filter fun b => s.reqStep r b.1 == n).map fun b => (k + b.1, b.2)) n) s,
      .ok [])
  | .sigSet => (s.chanWrite (r.ops.flatMap fun o => cellsFrom (k + o.1) (leBytes 8 o.2.1.toNat)) st, .ok [])
  | .atomic m ret =>
    if s.rpoisoned k 128 then (s, .softErr)
    else
      let t := s.serveOps k m.toNat st r.ops
      (t.1, .ok (if ret then t.2 else []))
  | _ => (s, if s.rpoisoned k 128 then .softErr else .ok (s.lineBytes k r.gm))

/-- The page of a request answers for each of its steps, the lowest first (R50, R179). -/
def State.reqTranslate (s : State) (c : Nat) (r : FabReq) : List Nat → Tr × State
  | [] => s.translate c r.va r.asks s.stepCtr.toNat
  | [n] => s.translate c r.va r.asks n
  | n :: ns =>
    match s.translate c r.va r.asks n with
    | (.ok _ _, s1) => s1.reqTranslate c r ns
    | x => x

/-- The outcome of a request of a weft or an engine; none when its hamper has no room yet (R172). -/
def State.serveAccess (s : State) (r : FabReq) : State × Option FabResult :=
  match s.jobCtx r.fjob with
  | none => (s, some .noBind)
  | some c =>
    if s.fences c r.src then (s, some .fenced)
    else if (s.ctx c).st = .tearing then (s, some .page)
    else match s.reqTranslate c r (s.reqSteps r) with
      | (.page, s1) => (s1, some .page)
      | (.prot, s1) => (s1, some .prot)
      | (.notPres v, s1) => (s1, some (.notPres v))
      | (.poolEmpty, s1) => (s1, some .poolEmpty)
      | (.ok k cbf, s1) =>
        if r.changes && !s1.accepts k then (s, none)
        else
          let o := s1.serveAt r k
          (if keyIsHbm k then o.1.countLine k cbf else o.1, some o.2)

/-! ### Parity deltas (R190, R199) -/

/-- The frame that a delta of step `n` goes to: that of the step, or the newest one. -/
def SnapUnit.deltaFrame (u : SnapUnit) (n : Nat) : Option Frame :=
  match u.frames.find? fun f => f.tag == n && n != 0 with
  | some f => some f
  | none => newestFrame u.frames

/-- The frame notes the sender of a delta, so that it is taken once (R199). -/
def SnapUnit.note (u : SnapUnit) (f : Frame) (src line : Nat) : SnapUnit :=
  { u with frames := u.frames.map fun x => if x.key = f.key then { x with taken := x.taken ++ [(src, line)] } else x }

/-- A delta is XORed into a unit, under R179 with its step; in a declaration into the newest frame as it stands. -/
def State.xorLine (s : State) (k n : Nat) (bs : List Byte) : State :=
  let new := xorBytes (s.rbytes k 128) bs
  if n = 0 then s.write (cellsFrom (s.physKey k) new) 0 else s.chanWrite (cellsFrom k new) n

/-- A parity delta of step `n` at a member (R190, step 4); a step that is mended has been taken. -/
def State.serveDelta (s : State) (c : Nat) (g : Group) (r : FabReq) (n : Nat) : State × Option FabResult :=
  let va := g.parityVa 0 + 128 * r.line
  if g.parityUnits ≤ r.line / 32 then (s, some .prot)
  else if n ≠ 0 ∧ n ≤ s.snap.m then (s, some (.ok []))
  else match s.translate c (BitVec.ofNat 64 va) (if n = 0 then .read else .atomic) n with
    | (.page, s1) => (s1, some .page)
    | (.prot, s1) => (s1, some .prot)
    | (.notPres v, s1) => (s1, some (.notPres v))
    | (.poolEmpty, s1) => (s1, some .poolEmpty)
    | (.ok k _, s1) =>
      if !s1.accepts k || !s1.hampRoom (stackOf k) (roomOf k + 1) then (s, none)
      else
        let s2 := if n = 0 then s1 else (s1.openUnit va n).getD s1
        match (s2.unitAt va).bind fun u => (u.deltaFrame n).map fun f => (u, f) with
        | none => (s, some .prot)
        | some (u, f) =>
          if f.taken.contains (r.src, r.line) then (s2, some (.ok []))
          else ((s2.xorLine k n (r.bytes.map (·.2))).setUnit (u.note f r.src r.line), some (.ok []))

/-! ### Rebuilt units (R194) -/

/-- Home frame of a unit (R177): none in reserved SCM (R489). -/
def State.homeOf (s : State) (c va : Nat) : Option Nat :=
  let a := BitVec.ofNat 64 va
  match (s.walk (chanOf a) c a).1 with
  | .leaf e => if s.inReserved a e then none else some (leafKey a e / 4096 * 4096)
  | _ => none

/-- VA of a rebuilt unit's landing copy, if it has one (R194, step 4). -/
def Group.landsAt (g : Group) (x : Nat) : Option Nat :=
  if x < g.ushard ∧ 4096 * (x + 1) ≤ g.landlen then some (g.landva + 4096 * x) else none

/-- The spare puts a line of a rebuilt unit in its place: into the landing area, or into the home frame. -/
def State.placeLine (s : State) (c : Nat) (g : Group) (v x i home : Nat) (bs : List Byte) : Option State :=
  match g.landsAt x with
  | some l => s.vaWrite c (BitVec.ofNat 64 (l + 128 * i)) bs
  | none => some (s.writeWait (cellsFrom (home + 128 * i) bs) v)

/-- The map entry of a rebuilt unit, once it is whole: its home frame holds version `v`, or its landing copy does (R194, step 4). -/
def State.mapUnit (s : State) (g : Group) (v x va home : Nat) : State :=
  match s.snap.regions.find? fun r => decide (r.va ≤ va) && decide (va < r.va + r.len) with
  | none => s
  | some r =>
    if !s.snap.holdsUnit x then s
    else s.setUnit { region := r.num, va := va, chan := scmChan (BitVec.ofNat 64 va), home := home
                     frames := [{ key := home, tag := v, taken := [] }], landing := g.landsAt x }

/-- The MEND command in progress is at its end. -/
def State.postMend (s : State) : State :=
  match s.snap.mender with
  | some (c, q, _) => s.post (.mendRebuild c q s.snap.failed true)
  | none => s

/-- The spare takes in a line of a rebuilt unit (R194, step 4). -/
def State.takeLine (s : State) (c : Nat) (g : Group) (v x i : Nat) (bs : List Byte) : State × FabResult :=
  match s.unitVa g x with
  | none => (s, .ok [])
  | some va =>
    if s.snap.lines.contains (x, i) then (s, .ok [])
    else match s.homeOf c va with
      | none => (s, .page)
      | some home =>
        match s.placeLine c g v x i home bs with
        | none => (s, .page)
        | some s1 =>
          let s2 := { s1 with snap := { s1.snap with lines := (x, i) :: s1.snap.lines, version := v } }.mapUnit g v x va home
          (if s2.rebuilt g then s2.postMend else s2, .ok [])

/-- A partial of a lost unit's line at this member: the spare keeps it, a solver adds its part and passes it on (R194, step 3). -/
def State.serveRebuild (s : State) (c : Nat) (g : Group) (r : FabReq) (v : Nat) : State × FabResult :=
  let x := r.line / 32
  let i := r.line % 32
  let bs := r.bytes.map (·.2)
  if s.isSpareNow then s.takeLine c g v x i bs
  else if s.snap.st = 4 ∧ (g.solvers s.snap.lost).contains (g.indexOf g.me) then
    let mine := ((s.contribution c g (g.indexOf s.snap.failed) v x).drop (128 * i)).take 128
    (s.sendDarner c (s.nextSolver g) r.line (xorBytes bs mine) (.rebuild v) .rebuild, .ok [])
  else (s, .noBind)

/-! ### FABRIC_REQUEST -/

/-- The outcome of a request. Those of darners name the job of the snapshot context (R71); a package that is not in the state to take one
answers NOBIND, and the sender's darner sends it again (assumption 98). -/
def State.serve (s : State) (r : FabReq) : State × Option FabResult :=
  let member := match s.snap.group, s.jobCtx r.fjob with
    | some g, some c => if s.snapCtx = some c ∧ g.has r.src ∧ !g.spare then some (g, c) else none
    | _, _ => none
  match r.op, member with
  | .delta n, some (g, c) =>
    if s.fences c r.src then (s, some .fenced)
    else if n = 0 ∧ s.snap.st ≠ 1 then (s, some .noBind)
    else s.serveDelta c g r n
  | .delta _, none => (s, some .noBind)
  | .rebuild v, some (g, c) =>
    let o := s.serveRebuild c g r v
    (o.1, some o.2)
  | .rebuild _, none => (s, some .noBind)
  | .heartbeat, _ =>
    match s.jobCtx r.fjob with
    | none => (s, some .noBind)
    | some c => if s.fences c r.src then (s, some .fenced) else ({ s with snap := s.snap.heard r.src }, some (.ok []))
  | _, _ => s.serveAccess r

/-- Answer a request (R76, R80): the answer enters the response VC of its tier at the port of the plane that the request came on, and is lost
with a plane that has gone down; the package's own core has it at once (R39). -/
def State.reply (s : State) (r : FabReq) (x : FabResult) : State :=
  if r.src = s.fab.pkgid.toNat then s.post (.fabricResponse r.seq x)
  else if !s.fab.up.getLsbD r.plane then s
  else { s with fab := { s.fab with resps := s.fab.resps ++
    [{ plane := r.plane, tier := r.tier, peer := r.src, seq := r.seq, flits := FabReq.flits r x, res := x }] } }

/-- The request writes the control block of the itinerary (R155). -/
def State.hitsControl (s : State) (r : FabReq) : Bool :=
  match s.itin.bound with
  | some c => s.itin.loaded && r.changes && s.jobCtx r.fjob == some c
      && decide (s.itin.ctlva ≤ r.va.toNat) && decide (r.va.toNat < s.itin.ctlva + 4096)
  | none => false

/-- Put an event right after the last of some events. -/
def putAfter (p : Instr → Bool) (i : Instr) (l : List Instr) : List Instr :=
  let n := (l.reverse.findIdx p)
  l.take (l.length - n) ++ i :: l.drop (l.length - n)

/-- The stack whose hamper takes in a request: that of its address, and of a delta, of its parity unit. -/
def State.reqStack (s : State) (r : FabReq) : Nat :=
  match r.op, s.snap.group with
  | .delta _, some g => scmChan (BitVec.ofNat 64 (g.parityVa 0 + 128 * r.line)) / 16
  | _, _ => scmChan r.va / 16

/-- The channel performs a request, and answers; one whose hamper is full waits for a write-back, ahead of everything later (R75, R172). -/
def State.takeRequest (s : State) (r : FabReq) : State :=
  match s.serve r with
  | (s1, none) =>
    if s1.power.pf = .idle then { s1 with agenda := .hamperWriteback (s.reqStack r) :: .fabricRequest r :: s1.agenda } else s1
  | (s1, some x) =>
    let dup := keepNewest (fun (d : Nat × Nat × FabResult) => d.1 == r.src) 64 (s1.fab.dup ++ [(r.src, r.seq, x)])
    let s2 := { s1 with fab := { s1.fab with dup := dup } }.reply r x
    if s.hitsControl r then s2.post .controlBlockReread else s2

/-- FABRIC_REQUEST (R39, R71, R75, R76, R83): a resent request is answered from the duplicate filter. -/
def execFabricRequest (r : FabReq) (s : State) : Res :=
  .next (if !s.serving then s
  else match s.fab.dup.find? fun (d : Nat × Nat × FabResult) => d.1 == r.src && d.2.1 == r.seq with
    | some d => s.reply r d.2.2
    | none => if s.agenda.any r.behind then { s with agenda := putAfter r.behind (.fabricRequest r) s.agenda } else s.takeRequest r)

end Sys2Proof.Machine
end

