-- ==== Sys2Proof/Machine/Cycle.lean ====
section
/-! DEFINITION. Which weft issues next (R142, R143) and which of the device's own steps are due (assumption 4). A cycle of the
model: the steps that are due, one by one; then every partition issues from its ready wefts; then the cycle ends. -/

namespace Sys2Proof.Machine

/-! ### Issue (R142, R143) -/

/-- The weft's context and launch let it issue: the context is running, or its pre-emption has yet to stop the weft (R146);
every team of a coresident launch is placed (R137). -/
def State.mayIssue (s : State) (w : Weft) : Bool :=
  ((s.ctx w.ctx).st == .running || (s.ctx w.ctx).st == .preempting)
    && (match s.launchOf w with | some l => !l.lrec.cosres || l.allPlaced | none => true)

/-- The weft has an event to take before its next group (R288). -/
def State.eventDue (s : State) (w : Weft) : Bool := !w.events.isEmpty && s.eventFree w

/-- Nothing that can be told without its next group keeps the weft from issuing (R142). -/
def State.issuable (s : State) (w : Weft) : Bool :=
  !w.exited && !w.injected && w.stopped.isNone && !w.halted && !w.halting && w.parked.isNone && w.unsettled.isNone && w.sleep == 0
    && !w.yielded && !w.preemptFree && !s.eventDue w && s.mayIssue w

/-- The weft's group issued in this cycle. -/
def Weft.hasIssued (w : Weft) : Bool := match w.looked with | some (.issued _) => true | _ => false

/-- Two wefts share a partition (R204). -/
def Weft.beside (w v : Weft) : Bool := v.core == w.core && v.slot / 8 == w.slot / 8

/-- Groups that the partition of a weft has issued in this cycle. -/
def State.issuedIn (s : State) (w : Weft) : Nat := (s.wefts.filter fun v => w.beside v && v.hasIssued).length

/-- Groups that the partition of a weft has issued to a pipe in this cycle. -/
def State.issuedTo (s : State) (w : Weft) (p : IssuePipe) : Nat :=
  (s.wefts.filter fun v => w.beside v && v.looked == some (.issued (some p))).length

/-- The pipe that takes a group (R142, R352, R403, R432). -/
def issuePipe (i : Instr) : Option IssuePipe :=
  match i.shape with
  | none => none
  | some (_, maj, body) =>
    let m := maj.toNat
    let f := field body.bits.toNat 0 5
    some (if m ≤ 0x08 then .scalar
      else if m ≤ 0x16 then .vector
      else if m = 0x17 then (if f = 0 ∨ f = 2 then .scalar else .vector)
      else if m = 0x18 then .scalar
      else if m ≤ 0x20 then .branch
      else if m ≤ 0x29 ∨ m = 0x2C then .memory
      else .engine)

/-- The prefixes of an encoded instruction. -/
def groupPfx (i : Instr) : Pfx := match i.shape with | some (p, _, _) => p | none => Pfx.plain

/-- Vector pipes of a partition that earlier cycles' groups still hold. -/
def State.heldPipes (s : State) (w : Weft) : Nat :=
  (s.vbusy.filter fun b => b.1 == w.core && b.2.1 == w.slot / 8).length

/-- No pipe for the group was free at the start of the cycle: the weft is not ready (R142). -/
def State.pipesHeld (s : State) (w : Weft) (p : Option IssuePipe) : Bool :=
  p == some .vector && decide (2 + s.issuedTo w .vector ≤ s.heldPipes w)

/-- The partition of a weft has an issue slot and a pipe for its group (R143). -/
def State.roomToIssue (s : State) (w : Weft) (p : Option IssuePipe) : Bool :=
  decide (s.issuedIn w < 2) && match p with
    | none => true
    | some .vector => decide (s.heldPipes w < 2)
    | some q => s.issuedTo w q == 0

/-- The weft is still to be looked at in this cycle. -/
def State.candidate (s : State) (w : Weft) : Bool := w.looked.isNone && s.issuable w

/-- LPRIO of a weft's launch. -/
def State.prio (s : State) (w : Weft) : Nat := match s.launchOf w with | some l => l.lrec.lprio | none => 0

/-- Weft `a` comes before `b` in the order of one partition (R143). -/
def State.ahead (s : State) (a b : Weft) : Bool :=
  let old := fun w : Weft => decide (256 ≤ w.readyCnt)
  if old a != old b then old a
  else if old a then (if a.age = b.age then decide (a.slot < b.slot) else decide (b.age < a.age))
  else if s.prio a ≠ s.prio b then decide (s.prio b < s.prio a)
  else if a.execRole != b.execRole then b.execRole
  else if a.age ≠ b.age then decide (b.age < a.age)
  else decide (a.slot < b.slot)

/-- Weft `a` is looked at before `b`: partitions in order of core and number, then R143. -/
def State.sooner (s : State) (a b : Weft) : Bool :=
  let part := fun w : Weft => 8 * w.core + w.slot / 8
  if part a = part b then s.ahead a b else decide (part a < part b)

/-- The first of some wefts in the order of issue. -/
def State.firstOf (s : State) : List Weft → Option Weft
  | [] => none
  | w :: r =>
    match s.firstOf r with
    | some v => if s.sooner v w then some v else some w
    | none => some w

/-- The weft to be looked at next (R143); none when the cycle has no more. A partition has one memory pipe, so that of its groups the request
cap tests one that issues in a cycle, and partitions come in the order of R94 (assumption 103). -/
def State.nextWeft (s : State) : Option Weft := s.firstOf (s.wefts.filter s.candidate)

/-- What the weft of the focus is marked as in this cycle. -/
def State.mark (s : State) (l : Look) : State :=
  match s.weft? s.focus.1 s.focus.2 with
  | some w => s.setWeft { w with looked := some l }
  | none => s

/-- What the group of the weft of the focus was found to wait on, if it is not ready. -/
def State.waitsOn (s : State) : Option Wait := (s.weft? s.focus.1 s.focus.2).bind Weft.waiting

/-- A vector group holds its pipe for one cycle per non-empty quarter of its effective mask (R142, R202). -/
def State.holdPipe (s : State) (w : Weft) (p : Option IssuePipe) (m : W64) : State :=
  if p = some .vector then { s with vbusy := s.vbusy ++ [(w.core, w.slot / 8, quarters m)] } else s

/-- The weft of the focus has been looked at: it issued to a pipe under an effective mask, unless it was found to wait. -/
def State.lookedAt (s : State) (w : Weft) (p : Option IssuePipe) (m : W64) : State :=
  if s.waitsOn.isSome then s.mark .waits else (s.holdPipe w p m).mark (.issued p)

/-- The weft of the focus has been looked at in a partition without an issue slot or pipe left: `s` is the state before, `t` what issuing the
group would make of it. It waits as it would have waited, or it is ready and passed over (R143). -/
def State.passedOver (s t : State) : State := if t.waitsOn.isSome then t.mark .waits else s.mark .passed

/-- A test picks how many groups of a partition that ration alone has withheld in this cycle. -/
def State.withheldIn (s : State) (w : Weft) (f : Option IssuePipe → Bool) : Nat :=
  (s.wefts.filter fun v => w.beside v && match v.looked with | some (.withheld q) => f q | _ => false).length

/-- A group would have had an issue slot and a pipe had ration withheld none of its partition (R92, assumption 89). -/
def State.roomUnrationed (s : State) (w : Weft) (p : Option IssuePipe) : Bool :=
  decide (s.issuedIn w + s.withheldIn w (fun _ => true) < 2) && match p with
    | none => true
    | some .vector => decide (s.heldPipes w + s.withheldIn w (· == some .vector) < 2)
    | some q => s.issuedTo w q + s.withheldIn w (· == some q) == 0

/-- Ration withholds the group of the weft of the focus: `s` is the state before, `t` the one that counts what it demands. It demands nothing
in a cycle in which it would not have issued anyway (R92, assumption 89). -/
def State.rationed (s : State) (w : Weft) (p : Option IssuePipe) (t : State) : State :=
  if s.roomUnrationed w p then t.mark (.withheld p)
  else { t with power := { t.power with rations := s.power.rations } }.mark .waits

/-- What becomes of a group looked at in a cycle: `s` is the state before, `t` what issuing it makes of it. -/
def State.after (s : State) (w : Weft) (p : Option IssuePipe) (m : W64) (t : State) : State :=
  if t.waitsOn == some .ration then s.rationed w p t
  else if s.roomToIssue w p then t.lookedAt w p m else s.passedOver t

/-! ### Commands that are due (R114, R117) -/

/-- The head command of a queue may start now. -/
def State.canStart (s : State) (e : (Nat × Nat) × Queue) : Bool :=
  e.2.startable && (s.ctx e.1.1).st == .running
    && match e.2.fetched with | k :: _ => !s.stopHeld e.1.1 e.1.2 k && !s.mendHeld k | [] => false

/-- The step that starts a command (R116). -/
def Cmd.starter (k : Cmd) (c q : Nat) : Instr :=
  match k.op with
  | 1 => .launch c q
  | 2 => .copy c q
  | 3 => .signal c q
  | 4 => .waitv c q
  | 5 => .map c q
  | 6 => .unmap c q
  | 7 => (match k.sub with | 0 => .ctxCreate c q | 1 => .ctxDestroy c q | 2 => .ctxPreempt c q | _ => .ctxResume c q)
  | 8 => .phase c q
  | 9 => (match k.sub with | 0 => .stepLoad c q | 1 => .stepStart c q | _ => .stepStop c q)
  | 10 => (match k.sub with | 0 => .snapDefineRegion c q | 1 => .snapReleaseRegion c q | _ => .snapAwaitStep c q)
  | 11 => (match k.sub with
      | 0 => .mendDeclareGroup c q
      | _ => if k.fld 0x28 8 = 2 ^ 64 - 1 then .mendGroupRollback c q else .mendRebuild c q (k.fld 0x28 8) false)
  | _ => .resume c q

/-- The command that the front end starts next: the highest QPRIO, then the queue that has waited longest (R117). -/
def State.nextStart (s : State) : Option Instr :=
  ((s.queues.filter s.canStart).foldl (fun (acc : Option ((Nat × Nat) × Queue)) e => match acc with
    | none => some e
    | some b => if b.2.qprio < e.2.qprio then some e else some b) none).bind fun e =>
      e.2.fetched.head?.map fun k => k.starter e.1.1 e.1.2

/-- Steps of the queues: fetches, tests of waiting WAITVs, finished COPYs, and one start (R114, R116, R117). -/
def State.dueQueues (s : State) : List Instr :=
  s.queues.flatMap (fun e =>
    (if s.canFetch e.1.1 e.1.2 then [Instr.recordFetch e.1.1 e.1.2] else [])
      ++ (if e.2.running.any Cmd.isWaitv then [Instr.waitvRetest e.1.1 e.1.2] else [])
      ++ (match e.2.running.find? s.mapDone with
          | some k => [if k.op = 5 then Instr.map e.1.1 e.1.2 else Instr.unmap e.1.1 e.1.2]
          | none => [])
      ++ (if (s.copyDone e.1.1 e.1.2).isSome then [Instr.copy e.1.1 e.1.2] else []))
    ++ s.nextStart.toList

/-! ### Memory and engines -/

/-- The channels that an access waits for, the fabric among them; one that is performed and has yet to end is looked at again. -/
def Access.chans (a : Access) : List Nat :=
  if a.settled && a.lanes.all LaneAcc.closed then [fabChan]
  else distinct (a.lanes.filterMap fun l =>
    match l.st with
    | .waiting => some (if isFabric l.ea then fabChan else chanOf l.ea)
    | .ready _ => if a.settled || (a.kind.reads && a.lanes.all (LaneAcc.decided true)) then some (chanOf l.ea) else none
    | _ => none)

/-- The first sector that a command may work on (R442). -/
def EngCmd.nextSector (c : EngCmd) : Option Nat :=
  match c.cur with
  | some k => if c.pids.isEmpty then some k else none
  | none => (List.range (c.chunks * 128)).find? c.mayRun

/-- The next step of an engine command (R435, R444, R445, R455). -/
def EngCmd.due (c : EngCmd) : List Instr :=
  if c.op = 5 then [.nmvComplete c.id]
  else
    match c.coll with
    | some n => [.shcopyCollectiveStart c.team n]
    | none =>
      if !c.started then [.shuttleStart c.id]
      else match c.nextSector with
        | some k => [.sectorPerformed c.id k]
        | none => if c.isCopy then [] else [.shuttleComplete c.id]

/-- Steps of the channels, the packets to this package itself (R70), and the engines. -/
def State.dueMemory (s : State) : List Instr :=
  s.accs.flatMap (fun a => if a.parked && a.kind.reads then [] else a.chans.map fun ch => .accessAnswer a.id ch true)
    ++ ((s.fab.packets.filter fun k => k.peer == s.fab.pkgid.toNat).map fun k => .fabricRequest (s.asRequest k))
    ++ s.cmds.flatMap EngCmd.due
    ++ s.teams.flatMap fun t => match t.mcmds with
      | [] => []
      | m :: _ => if m.rem = 0 then [.matrixComplete t.id] else [.matrixKstep t.id]

/-! ### Teams, contexts, the itinerary and snapshots -/

/-- Steps of retirement, placement and the contexts (R133, R136, R138, R145, R146, R148). -/
def State.dueTeams (s : State) : List Instr :=
  ((s.teams.filter s.teamDone).map fun t => .teamRetire t.id)
    ++ ((s.pipes.filter fun p => !p.started && p.whole).map fun p => .pipelineStart p.ctx p.va)
    ++ (if s.launches.any s.waiting then
        ((List.range 4).filter fun d => (s.nextPlacement d).isSome).map fun d => .teamPlace d else [])
    ++ ((List.range 64).filter fun c => (s.ctx c).st != .free).flatMap fun c =>
      let x := s.ctx c
      match x.st with
      | .preempting => [.contextSave c]
      | .resuming => [.preemptAutoResume c]
      | .preempted => if x.reason = .slice then [.preemptAutoResume c] else []
      | .tearing => if s.ctxQuiet c then [.teardownComplete c] else []
      | _ => []

/-- Steps of the itinerary (R155, R158, R163, R164, R181, R150). Its checks come before the control block is read again: they use the words as
they stood at the start of the cycle (R156). -/
def State.dueItin (s : State) : List Instr :=
  if !s.itinRuns then (match s.itin.stopper with | some (c, q, _) => [.stepStop c q] | none => [])
  else
    (match s.itin.stopper with
        | some (c, q, _) => [.stepStop c q]
        | none =>
          let k := entKind s.itin.headEntry
          (if s.itin.nextEntry.isSome then [.itineraryDispatch] else []) ++ (if k = 3 then [.sync] else [])
            ++ (if k = 4 ∧ !s.itin.stepSent then [.stepend] else []))
      ++ [.controlBlockReread]
      ++ (if s.itin.stepSent then ((List.range 4).filter fun d => !s.itin.acks.contains d).map fun d => .stependAck d else [])

/-- The darners have a step to encode, to end, or to find mend-persistent (R190). -/
def State.encodes (s : State) : Bool :=
  match s.snap.group, s.encodeStep with
  | some g, some n =>
    !g.spare && (!s.snap.encoded.contains n || !s.fab.packets.any fun k => k.use == .delta n)
      && (!s.snap.dones.contains (g.me, n) || s.allDone g n)
  | _, _ => false

/-- Main clocks in a microsecond (R86). -/
def Power.mhz (p : Power) : Nat := if p.vop = 0 then 1900 else 1600

/-- The period of the heartbeats has passed (R192). -/
def State.beatDue (s : State) : Bool :=
  match s.inGroup with
  | some g => decide (g.hbp * s.power.mhz ≤ s.snap.beat)
  | none => false

/-- Steps of the snapshot coordinator, the hampers and the mailboxes (R172, R182, R190, R192, R194, R109). -/
def State.dueSnap (s : State) : List Instr :=
  (distinct (s.hamp.map (·.stack))).map (fun k => .hamperWriteback k)
    ++ (if s.snap.c < s.snap.acked then [.stepCommit] else [])
    ++ (if s.encodes then [.encodeStep] else []) ++ (if s.beatDue then [.heartbeatSend] else [])
    ++ (if s.backfills || s.snap.st == 5 then [.backfillComplete] else [])
    ++ (if s.host.quote.isSome then [.quoteDone] else [])

/-- Steps of the wefts: events (R288), and the next read of a `swait` (R419). -/
def State.dueWefts (s : State) : List Instr :=
  s.wefts.flatMap fun w =>
    (if s.eventDue w then
      (match w.events with
        | .fabric _ :: _ => [Instr.fabricEvent w.core w.slot]
        | _ => [Instr.deferredFaultEvent w.core w.slot]) else [])
      ++ (if w.waiting = some .swait then [Instr.swaitPoll w.core w.slot] else [])
      ++ (if w.deadlineRuns && decide ((s.ctx w.ctx).desc.deadline ≤ w.preemptAge) then [Instr.pdlExpiry w.core w.slot] else [])
      ++ (if w.sleep = 1 then [Instr.sleepExpiry w.core w.slot] else [])

/-- Steps of power control: cycle ends at the ration counters that change (R89), and glides (R87). -/
def State.duePower (s : State) : List Instr :=
  let p := s.power
  let moves := fun r : Ration => r.debits != 0 || (r.rate != 0 && decide (r.c < rationCap))
  (((List.range 52).filter fun k => moves (p.rations.getD k Ration.init)).map fun k => .rationCycleEnd k)
    ++ (if (p.mop = p.mopT ∧ p.mvlt = p.mopT) ∨ !p.mayGlide 0 then [] else [.opGlideComplete 0])
    ++ (if (p.vop = p.vopT ∧ p.vvlt = p.vopT) ∨ !p.mayGlide 1 then [] else [.opGlideComplete 1])
    ++ (if p.fop = p.fopT ∧ p.fvlt = p.fopT then [] else [.opGlideComplete 2])

/-- Steps of the ports and the combining buffers: forced slots (R81), and entries that nothing has written for a time, the last of a core first
(R78). -/
def State.dueFabric (s : State) : List Instr :=
  let idle := fun (core : Nat) => ((List.range (s.fab.comb.filter fun e => e.core == core).length).filter fun i =>
    match (s.fab.comb.filter fun e => e.core == core)[i]? with | some e => decide (combIdle ≤ e.age) | none => false).reverse
  s.dueForced ++ (distinct (s.fab.comb.map (·.core))).flatMap fun core => (idle core).map fun i => .combineIdleFlush core i

/-- Every step that is due at the end of a cycle, in order. -/
def State.due (s : State) : List Instr :=
  s.dueItin ++ s.dueWefts ++ s.dueMemory ++ s.dueFabric ++ s.dueTeams ++ s.dueSnap ++ s.dueQueues ++ s.duePower

/-! ### The end of a cycle -/

/-- A weft at the end of a cycle of `n` clock cycles: ages (R143), sleep and yield (R329), the deadline (R289). -/
def Weft.cycleEnd (w : Weft) (n : Nat) : Weft :=
  let issued := w.hasIssued
  { w with
    looked := none
    age := if issued then 0 else w.age + n
    readyCnt := if issued then 0
      else if w.looked = some .passed then w.readyCnt + n
      else if w.waiting = some .ration then w.readyCnt else 0
    sleep := if issued ∨ w.sleep ≤ 1 then w.sleep else max 1 (w.sleep - n)
    yielded := w.yielded && issued
    preemptAge := if w.deadlineRuns then w.preemptAge + n else w.preemptAge }

/-- The counter of a cycle that starts (R166): BUSY with a task that runs or an entry to dispatch, else what the head waits on. -/
def State.cycleReason (s : State) : Option Nat :=
  if !s.itinRuns then none
  else if !s.itin.tasks.isEmpty || s.itin.nextEntry.isSome then some 6
  else some (s.itin.headReason.getD 6)

/-- The itinerary's counter takes the cycles that end (R166). -/
def Itin.countCycles (t : Itin) (n : Nat) : Itin :=
  match t.reason with
  | some k => { t with counters := modAt t.counters k (· + BitVec.ofNat 64 n) }
  | none => t

/-- Core-cycles of a pipeline's stages (R141). -/
def State.countBusy (s : State) (n : Nat) (p : Pipe) : Pipe :=
  if !p.started then p
  else { p with busy := (List.range p.nstage).map fun k => p.busy.getD k 0 + n * (s.stageCores p k).length }

/-- Wefts whose exit is injected leave (R148). -/
def State.leaveInjected (s : State) : State :=
  (s.wefts.filter fun w => w.injected && !w.exited).foldl (fun t w => t.leave w) s

/-- The fabric side and the coordinator at the end of a cycle of `n` clock cycles: entries of the combining buffers age (R78), and so does the
last heartbeat (R192). -/
def State.ageFabric (s : State) (n : Nat) : State :=
  { s with
    fab := { s.fab with comb := s.fab.comb.map fun (e : CombEntry) => { e with age := e.age + n } }
    snap := { s.snap with beat := s.snap.beat + n } }

/-- A cycle ends, after a number of clock cycles that the model leaves free (assumption 3): the ports send, counters advance, and the steps
that are due go on the agenda. -/
def State.endCycle (s0 : State) : State :=
  let n := 1 + Config.cycles s0.draws 0
  let s : State := ({ s0 with draws := s0.draws + 1 }.leaveInjected.freeExited.pumpAll.wakeBehind.sendPorts.haltDue).ageFabric n
  let s1 := { s with
    clocks := (List.range 4).map fun d => s.clocks.getD d 0 + BitVec.ofNat 64 (1 + Config.cycles s0.draws d)
    vbusy := (s.vbusy.map fun (b : Nat × Nat × Nat) => (b.1, b.2.1, b.2.2 - n)).filter fun b => b.2.2 != 0
    power := { s.power with icyc := s.power.icyc + 1, reqs := (List.range 52).map s.inFlight }
    wefts := s.wefts.map fun (w : Weft) => w.cycleEnd n
    pipes := s.pipes.map (s.countBusy n)
    itin := if s.itinRuns then s.itin.countCycles n else s.itin }
  { s1 with agenda := s1.agenda ++ s1.due, itin := { s1.itin with reason := s1.cycleReason } }

/-! ### A state that fetches a given group next -/

/-- The launch of the weft that `State.arm` places: one team of one execute weft with 64 registers. -/
def armLaunch : Launch :=
  { ctx := 0, serial := 1
    lrec := { entry := 0x10000, gx := 1, gy := 1, gz := 1, wpt := 1, nacc := 0, rega := 0, rege := 64, refill := 0, cspad := 4096,
              lspad := 0, dspad := 0, stage := 0, cosres := false, lprio := 0, hdl := 0, param := 0, pipe := 0, dep0 := 0,
              dep1 := 0, early0 := false, early1 := false, badRsv := false }
    lva := 0x8000, deps := [], nextTeam := 1, placed := 1, retired := 0, die := none, cmd := none, itn := none, task := none
    warm := false, waited := 0 }

/-- HROOT, the level-4 and level-3 entries that lead to one 1 GiB HBM page at VA 0, and its leaf: frame 1, RD, WR and EX
(R44, R45, R47). -/
def armRoot : W64 := 1
def armPointer : W64 := 0x801
def armLeaf : W64 := 0x1001EB

/-- The machine with these bytes at VA 0x10000 of context 0, and one weft of context 0 about to fetch there. -/
def State.arm (s : State) (bs : List Byte) : State :=
  let x := s.ctx 0
  let va : W64 := 0x10000
  let s1 := ((s.writeBytes (hbmKey 0 0) (leBytes 8 armPointer.toNat)).writeBytes (hbmKey 0 4096) (leBytes 8 armLeaf.toNat)).writeBytes
    (leafKey va armLeaf) bs
  { s1.setCtx 0 { x with st := .running, desc := { x.desc with hroot := armRoot } } with
    boot := { s.boot with st := .ready }
    power := { s.power with pf := .idle }
    wefts := [Weft.placed armLaunch 0 0 0 0 0]
    teams := [Team.placed 0 armLaunch 0 (0, 0, 0)]
    launches := [armLaunch]
    allocs := [{ level := 0, unit := 0, base := 0, len := 4096, ctx := 0, owner := 0, live := true }]
    vbusy := [], icache := [], tlb := [], wcache := [], agenda := [], focus := (0, 0), nextId := s.nextId + 1 }

end Sys2Proof.Machine
end

