-- ==== Sys2Proof/Machine/Atomic.lean ====
section
/-! DEFINITION. Atomics ATOM and ATOMS (R412-R416). -/

namespace Sys2Proof.Machine

/-- An atomic of a minor with one operand (R412, R413, R416). -/
def atomOp (p : Pfx) (d a b : Opnd) (minor : BitVec 5) (spad : Bool) (s : State) : Res :=
  let size := atomSize minor.toNat
  let uses := [baseUse a spad, srcV .b b (regsOf size), dstV d (regsOf size)]
  let ret := d != .zero
  memGroup s p uses spad true (fun s w g =>
    let v := s.vVals w g uses
    let lanes := (activeLanes g.m).map fun i =>
      mkLane g.bad (xlGm p) size (laneEa (v.getD 0 []) (.u 0) 0 (xlDisp p) i) (laneData (v.getD 1 []) size i) 0 i
    { baseAccess s w p g (.atomic minor ret) size lanes with
      dst := destOf w g d (regsOf size), cnt := if spad then none else some (if ret then 0 else 1)
      acq := !spad && p.ord == 3 || !spad && p.ord == 1 }) (busyOf d)

/-- A compare and swap (R415): D holds the compare value and, above it, the swap value; both are read at issue. -/
def casOp (p : Pfx) (d a : Opnd) (minor : BitVec 5) (spad : Bool) (s : State) : Res :=
  let size := atomSize minor.toNat
  let k := regsOf size
  let uses := [baseUse a spad, srcV .ds d (2 * k), dstV d k]
  memGroup s p uses spad true (fun s w g =>
    let v := s.vVals w g uses
    let lanes := (activeLanes g.m).map fun i =>
      mkLane g.bad (xlGm p) size (laneEa (v.getD 0 []) (.u 0) 0 (xlDisp p) i)
        (laneData ((v.getD 1 []).take k) size i) (laneData ((v.getD 1 []).drop k) size i) i
    { baseAccess s w p g (.atomic minor true) size lanes with
      dst := destOf w g d k, cnt := if spad then none else some 0
      acq := !spad && p.ord == 3 || !spad && p.ord == 1 }) (fun _ => none)

/-- `atom.add.i32` (R413). -/
def execAtomAddI32 (p : Pfx) (d a b : Opnd) (s : State) : Res := atomOp p d a b 0 false s

/-- `atom.add.i64` (R413). -/
def execAtomAddI64 (p : Pfx) (d a b : Opnd) (s : State) : Res := atomOp p d a b 1 false s

/-- `atom.add.f32` (R414). -/
def execAtomAddF32 (p : Pfx) (d a b : Opnd) (s : State) : Res := atomOp p d a b 2 false s

/-- `atom.min.i32` (R413). -/
def execAtomMinI32 (p : Pfx) (d a b : Opnd) (s : State) : Res := atomOp p d a b 3 false s

/-- `atom.max.i32` (R413). -/
def execAtomMaxI32 (p : Pfx) (d a b : Opnd) (s : State) : Res := atomOp p d a b 4 false s

/-- `atom.min.n32` (R413). -/
def execAtomMinN32 (p : Pfx) (d a b : Opnd) (s : State) : Res := atomOp p d a b 5 false s

/-- `atom.max.n32` (R413). -/
def execAtomMaxN32 (p : Pfx) (d a b : Opnd) (s : State) : Res := atomOp p d a b 6 false s

/-- `atom.min.n64` (R413). -/
def execAtomMinN64 (p : Pfx) (d a b : Opnd) (s : State) : Res := atomOp p d a b 7 false s

/-- `atom.max.n64` (R413). -/
def execAtomMaxN64 (p : Pfx) (d a b : Opnd) (s : State) : Res := atomOp p d a b 8 false s

/-- `atom.and.b32` (R413). -/
def execAtomAndB32 (p : Pfx) (d a b : Opnd) (s : State) : Res := atomOp p d a b 9 false s

/-- `atom.or.b32` (R413). -/
def execAtomOrB32 (p : Pfx) (d a b : Opnd) (s : State) : Res := atomOp p d a b 10 false s

/-- `atom.xor.b32` (R413). -/
def execAtomXorB32 (p : Pfx) (d a b : Opnd) (s : State) : Res := atomOp p d a b 11 false s

/-- `atom.xchg.b32` (R413). -/
def execAtomXchgB32 (p : Pfx) (d a b : Opnd) (s : State) : Res := atomOp p d a b 12 false s

/-- `atom.xchg.b64` (R413). -/
def execAtomXchgB64 (p : Pfx) (d a b : Opnd) (s : State) : Res := atomOp p d a b 13 false s

/-- `atom.cas.b32` (R415). -/
def execAtomCasB32 (p : Pfx) (d a : Opnd) (s : State) : Res := casOp p d a 14 false s

/-- `atom.cas.b64` (R415). -/
def execAtomCasB64 (p : Pfx) (d a : Opnd) (s : State) : Res := casOp p d a 15 false s

/-- `atom.fmin.f32` (R414). -/
def execAtomFminF32 (p : Pfx) (d a b : Opnd) (s : State) : Res := atomOp p d a b 16 false s

/-- `atom.fmax.f32` (R414). -/
def execAtomFmaxF32 (p : Pfx) (d a b : Opnd) (s : State) : Res := atomOp p d a b 17 false s

/-- `atom.add.bf16x2` (R414). -/
def execAtomAddBf16x2 (p : Pfx) (d a b : Opnd) (s : State) : Res := atomOp p d a b 18 false s

/-- `atoms.add.i32` (R413). -/
def execAtomsAddI32 (p : Pfx) (d a b : Opnd) (s : State) : Res := atomOp p d a b 0 true s

/-- `atoms.add.i64` (R413). -/
def execAtomsAddI64 (p : Pfx) (d a b : Opnd) (s : State) : Res := atomOp p d a b 1 true s

/-- `atoms.add.f32` (R414). -/
def execAtomsAddF32 (p : Pfx) (d a b : Opnd) (s : State) : Res := atomOp p d a b 2 true s

/-- `atoms.min.i32` (R413). -/
def execAtomsMinI32 (p : Pfx) (d a b : Opnd) (s : State) : Res := atomOp p d a b 3 true s

/-- `atoms.max.i32` (R413). -/
def execAtomsMaxI32 (p : Pfx) (d a b : Opnd) (s : State) : Res := atomOp p d a b 4 true s

/-- `atoms.min.n32` (R413). -/
def execAtomsMinN32 (p : Pfx) (d a b : Opnd) (s : State) : Res := atomOp p d a b 5 true s

/-- `atoms.max.n32` (R413). -/
def execAtomsMaxN32 (p : Pfx) (d a b : Opnd) (s : State) : Res := atomOp p d a b 6 true s

/-- `atoms.min.n64` (R413). -/
def execAtomsMinN64 (p : Pfx) (d a b : Opnd) (s : State) : Res := atomOp p d a b 7 true s

/-- `atoms.max.n64` (R413). -/
def execAtomsMaxN64 (p : Pfx) (d a b : Opnd) (s : State) : Res := atomOp p d a b 8 true s

/-- `atoms.and.b32` (R413). -/
def execAtomsAndB32 (p : Pfx) (d a b : Opnd) (s : State) : Res := atomOp p d a b 9 true s

/-- `atoms.or.b32` (R413). -/
def execAtomsOrB32 (p : Pfx) (d a b : Opnd) (s : State) : Res := atomOp p d a b 10 true s

/-- `atoms.xor.b32` (R413). -/
def execAtomsXorB32 (p : Pfx) (d a b : Opnd) (s : State) : Res := atomOp p d a b 11 true s

/-- `atoms.xchg.b32` (R413). -/
def execAtomsXchgB32 (p : Pfx) (d a b : Opnd) (s : State) : Res := atomOp p d a b 12 true s

/-- `atoms.xchg.b64` (R413). -/
def execAtomsXchgB64 (p : Pfx) (d a b : Opnd) (s : State) : Res := atomOp p d a b 13 true s

/-- `atoms.cas.b32` (R415). -/
def execAtomsCasB32 (p : Pfx) (d a : Opnd) (s : State) : Res := casOp p d a 14 true s

/-- `atoms.cas.b64` (R415). -/
def execAtomsCasB64 (p : Pfx) (d a : Opnd) (s : State) : Res := casOp p d a 15 true s

/-- `atoms.fmin.f32` (R414). -/
def execAtomsFminF32 (p : Pfx) (d a b : Opnd) (s : State) : Res := atomOp p d a b 16 true s

/-- `atoms.fmax.f32` (R414). -/
def execAtomsFmaxF32 (p : Pfx) (d a b : Opnd) (s : State) : Res := atomOp p d a b 17 true s

/-- `atoms.add.bf16x2` (R414). -/
def execAtomsAddBf16x2 (p : Pfx) (d a b : Opnd) (s : State) : Res := atomOp p d a b 18 true s

end Sys2Proof.Machine
end

