-- ==== Sys2Proof/Machine/Barrier.lean ====
section
/-! DEFINITION. Team and role barriers (R461, R462). -/

namespace Sys2Proof.Machine

/-- Bit of a weft in its team's masks. -/
def Weft.bit (w : Weft) : BitVec 32 := BitVec.ofNat 32 (2 ^ w.wid)

/-- The weft's arrival at a barrier is pending. -/
def State.pendingAt (s : State) (w : Weft) (b : Nat) : Bool :=
  match s.team? w.team with
  | some t => (t.bars.getD b 0 &&& w.bit) != 0
  | none => false

/-- An arrival: the bit is set, and the barrier opens if every member is covered. -/
def State.arrive (s : State) (w : Weft) (b : Nat) : State :=
  match s.team? w.team with
  | some t => s.setTeam { t with bars := modAt t.bars b fun m => t.openBar b (m ||| w.bit) }
  | none => s

/-- An arrival followed by a wait (R462): the group stays until the weft's bit is clear. -/
def barBoth (p : Pfx) (s : State) (num : Weft → Nat) : Res :=
  execBare s p fun s w =>
    let b := num w
    if w.arrived = some b then
      (if s.pendingAt w b then s.waits w .barrier else s.setWeft { w.commit p false with arrived := none })
    else s.release w 1 fun s =>
      if s.pendingAt w b then s.waits w .barrier
      else
        let s1 := s.arrive w b
        if s1.pendingAt w b then s1.waits { w with arrived := some b } .barrier else s1.setWeft (w.commit p false)

/-- `bar.team` (R462). -/
def execBarTeam (p : Pfx) (b : BitVec 7) (s : State) : Res := barBoth p s fun _ => b.toNat

/-- `bar.role` (R462): 6 for access wefts, 7 for execute wefts. -/
def execBarRole (p : Pfx) (s : State) : Res := barBoth p s fun w => if w.execRole then 7 else 6

/-- `bar.arrive` (R462): a second arrival waits until the mask clears. -/
def execBarArrive (p : Pfx) (b : BitVec 7) (s : State) : Res :=
  execBare s p fun s w =>
    s.release w 1 fun s =>
      if s.pendingAt w b.toNat then s.waits w .barrier else (s.arrive w b.toNat).setWeft (w.commit p false)

/-- `bar.wait` (R462, R249): an acquire once the weft has no pending arrival. -/
def execBarWait (p : Pfx) (b : BitVec 7) (s : State) : Res :=
  execBare s p fun s w =>
    if s.replays w then s.waits w .order
    else if s.pendingAt w b.toNat then s.waits w .barrier else s.setWeft (w.commit p false)

end Sys2Proof.Machine
end

