-- ==== Sys2Proof/Machine/Mask.lean ====
section
/-! DEFINITION. Mask instructions (R341-R344): weft-wide, every source read before anything is written. -/

namespace Sys2Proof.Machine

/-- A mask instruction: sources, destination, and what it does to the weft and the value it writes. -/
def maskOp (s : State) (p : Pfx) (srcs : List Use) (d : Opnd) (f : Weft → W64 → Weft × W64) : Res :=
  execWide s p (srcs ++ [dstS d]) fun s1 w v =>
    let r := f w (v.getD 0 0)
    let o := writeS s1 (r.1.commit p false) d r.2
    o.1.setWeft o.2

/-- `mif` (R342). -/
def execMif (p : Pfx) (d a : Opnd) (s : State) : Res :=
  maskOp s p [srcS .a a] d fun w x => ({ w with em := w.em &&& x }, w.em)

/-- `melse` (R342). -/
def execMelse (p : Pfx) (a : Opnd) (s : State) : Res :=
  maskOp s p [srcS .a a] .zero fun w x => ({ w with em := x &&& ~~~w.em }, 0)

/-- `mend` (R342). -/
def execMend (p : Pfx) (a : Opnd) (s : State) : Res :=
  maskOp s p [srcS .a a] .zero fun w x => ({ w with em := x }, 0)

/-- `mset` (R342): 0 `em`, 1 TEM, 2 TDM. -/
def execMset (p : Pfx) (a : Opnd) (b : BitVec 7) (s : State) : Res :=
  maskOp s p [srcS .a a] .zero fun w x =>
    (match b.toNat with
      | 0 => { w with em := x }
      | 1 => { w with tem := x }
      | _ => { w with tdm := x }, 0)

/-- `mget` (R342): 0 `em`, 1 TEM, 2 TDM, 3 RGNEM. -/
def execMget (p : Pfx) (d : Opnd) (b : BitVec 7) (s : State) : Res :=
  maskOp s p [] d fun w _ =>
    (w, match b.toNat with
      | 0 => w.em
      | 1 => w.tem
      | 2 => w.tdm
      | _ => w.rgnem)

/-- `elect` (R342): the lowest lane of `em` stays. -/
def execElect (p : Pfx) (d : Opnd) (s : State) : Res :=
  maskOp s p [] d fun w _ => ({ w with em := w.em &&& (0 - w.em) }, w.em)

/-- `mwhile` (R342). -/
def execMwhile (p : Pfx) (d a : Opnd) (s : State) : Res :=
  maskOp s p [srcS .a a] d fun w x => ({ w with em := w.em &&& x }, w.em &&& ~~~x)

end Sys2Proof.Machine
end

