-- ==== Sys2Proof/Machine/Branch.lean ====
section
/-! DEFINITION. Branches and jumps (R345-R350): weft-wide; a queue they name is popped whenever they issue. -/

namespace Sys2Proof.Machine

/-- The target of a J-form (R302). -/
def jTarget (w : Weft) (o : BitVec 19) : W64 := w.pc + (o.signExtend 64 <<< 2)

/-- A register target, with bits [1:0] taken as 0 (R302). -/
def regTarget (x : W64) : W64 := x &&& ~~~(3 : W64)

/-- Go to the target or to the next group (R346). -/
def branchTo (s : State) (w : Weft) (p : Pfx) (taken : Bool) (target : W64) : State :=
  s.setWeft (w.commitTo p false (if taken then target else w.nextPc p))

/-- `br` (R345). -/
def execBr (p : Pfx) (o : BitVec 19) (s : State) : Res :=
  execWide s p [] fun s w _ => branchTo s w p true (jTarget w o)

/-- `brz` (R345). -/
def execBrz (p : Pfx) (r : Opnd) (o : BitVec 19) (s : State) : Res :=
  execWide s p [srcS .a r] fun s w v => branchTo s w p (v.getD 0 0 == 0) (jTarget w o)

/-- `brnz` (R345). -/
def execBrnz (p : Pfx) (r : Opnd) (o : BitVec 19) (s : State) : Res :=
  execWide s p [srcS .a r] fun s w v => branchTo s w p (v.getD 0 0 != 0) (jTarget w o)

/-- `brem`: taken when `em` is empty (R345). -/
def execBrem (p : Pfx) (o : BitVec 19) (s : State) : Res :=
  execWide s p [] fun s w _ => branchTo s w p (w.em == 0) (jTarget w o)

/-- `loop`: counts s[R] down and branches while it is not 0 (R345, R346). -/
def execLoop (p : Pfx) (r : Opnd) (o : BitVec 19) (s : State) : Res :=
  execWide s p [srcS .a r, dstS r] fun s w v =>
    let x := v.getD 0 0 - 1
    let q := writeS s w r x
    branchTo q.1 q.2 p (x != 0) (jTarget w o)

/-- `call`: links and branches (R345). -/
def execCall (p : Pfx) (r : Opnd) (o : BitVec 19) (s : State) : Res :=
  execWide s p [dstS r] fun s w _ =>
    let q := writeS s w r (w.nextPc p)
    branchTo q.1 q.2 p true (jTarget w o)

/-- How a uniform operand is judged (R347): not uniform by its tag, differing lanes, or its common value. -/
inductive Uni where
  | none
  | shape
  | differ
  | all (x : W32)
  deriving DecidableEq, Repr

/-- The lane values of a uniform operand through a map, over the active lanes (R347, R212). -/
def uniJudge (em : W64) (v : VVal) (f : W32 → W32) : Uni :=
  if em = 0 then .none
  else match v with
    | .g _ => .shape
    | v =>
      match (activeLanes em).map fun i => f (v.lane i) with
      | [] => .none
      | x :: r => if r.all (· == x) then .all x else .differ

/-- The vector operand that decides a `bru` or `jmpv`; one through an index register or q5 supplies general values and is
not read (R347). -/
def uniOperand (s : State) (w : Weft) (u : Use) : VVal :=
  match u.o with
  | .x _ | .q _ => .g []
  | _ => (s.vVal w w.em u []).headD (.u 0)

/-- A branch on a uniform operand: SHAPE at stage 3, after what `issue` checks there, UNIFORM at stage 4, nothing committed; with `em` empty the
next group (R280, R347, R348). The operand itself is not popped. -/
def execUniform (s : State) (p : Pfx) (others : List Use) (u : Use) (f : W32 → W32)
    (go : State → Weft → List W64 → W32 → State) : Res :=
  issue s p (others ++ [u]) .all fun w _ =>
    let vs := others.map fun o => s.sVal w o.o
    match uniJudge w.em (uniOperand s w u) f with
    | .none => (s.popUses w w.em others).setWeft (w.commit p false)
    | .shape => s.trapF w .shape w.em { TInfo.none with opnd := u.pos.code }
    | .differ =>
      s.trapF (w.issued p false) .uniform w.em { TInfo.none with opnd := u.pos.code }
    | .all x => go (s.popUses w w.em others) w vs x

/-- `bru` (R347): taken when the active lanes agree on a non-zero value. -/
def execBru (p : Pfx) (r : Opnd) (o : BitVec 19) (s : State) : Res :=
  execUniform s p [] (srcV .a r 1) (fun x => if x = 0 then 0 else 1)
    fun s w _ x => branchTo s w p (x != 0) (jTarget w o)

/-- `jmp` (R348). -/
def execJmp (p : Pfx) (a : Opnd) (s : State) : Res :=
  execWide s p [srcS .a a] fun s w v => branchTo s w p true (regTarget (v.getD 0 0))

/-- `jmpv` (R348): the table entry that the common value selects. -/
def execJmpv (p : Pfx) (a b : Opnd) (s : State) : Res :=
  execUniform s p [srcS .a a] (srcV .b b 1) id
    fun s w v x => branchTo s w p true (regTarget (v.getD 0 0 + (x.signExtend 64 <<< 2)))

/-- `callr` (R348): jumps to s[A] as it was and links. -/
def execCallr (p : Pfx) (d a : Opnd) (s : State) : Res :=
  execWide s p [srcS .a a, dstS d] fun s w v =>
    let q := writeS s w d (w.nextPc p)
    branchTo q.1 q.2 p true (regTarget (v.getD 0 0))

end Sys2Proof.Machine
end

