-- ==== Sys2Proof/Machine/VectorFloat.lean ====
section
/-! DEFINITION. Binary32 arithmetic VF32 (R391-R393). -/

namespace Sys2Proof.Machine

/-- A float result over the active lanes: U when every source is U and no draw is used (R209, R385), else G; the flags are
the OR over the active lanes (R387). -/
def floatVals (draws : Bool) (m : W64) (srcs : List VVal) (f : Nat → Rd) : VRes :=
  if !draws && srcs.all (fun v => v.tag == 0) then
    { vals := [.u (BitVec.ofNat 32 (f 0).bits)], sc := none, fl := BitVec.ofNat 5 (f 0).fl }
  else
    let rs := laneIdx.map fun i => if inMask m i then f i else { bits := 0, fl := 0 }
    { vals := [.g (rs.map fun r => BitVec.ofNat 32 r.bits)], sc := none
      fl := BitVec.ofNat 5 (rs.foldl (fun acc r => acc ||| r.fl) 0) }

/-- The environment of a lane's element in arithmetic: SAT acts in conversions only (R390). -/
def arith (w : Weft) (p : Pfx) (i k : Nat) : REnv := { envOf w p false i k with sat := false }

/-- A float instruction on the lanes of its sources (R389, R390). -/
def float (p : Pfx) (d : Opnd) (srcs : List Use) (rounds : Bool) (f : Weft → Nat → List Nat → Rd) (s : State) : Res :=
  execVec s p srcs (dstV d 1) rounds fun w m v =>
    let xs := v.map fun l => l.headD (.u 0)
    floatVals (rounds && rmOf w p == 4) m xs fun i => f w i (xs.map fun x => (x.lane i).toNat)

/-- Source `n` of a lane as a binary32 value. -/
def f32At (w : Weft) (l : List Nat) (n : Nat) : FV := readF fF32 (ftzOf w) (l.getD n 0)

/-- A rounding minor of one source. -/
def f1 (p : Pfx) (d a : Opnd) (f : REnv → FV → Rd) (s : State) : Res :=
  float p d [srcV .a a 1] true (fun w i l => f (arith w p i 0) (f32At w l 0)) s

/-- A rounding minor of two sources. -/
def f2 (p : Pfx) (d a b : Opnd) (f : REnv → FV → FV → Rd) (s : State) : Res :=
  float p d [srcV .a a 1, srcV .b b 1] true (fun w i l => f (arith w p i 0) (f32At w l 0) (f32At w l 1)) s

/-- A fused minor. -/
def f3 (p : Pfx) (d a b : Opnd) (f : REnv → FV → FV → FV → Rd) (s : State) : Res :=
  float p d [srcV .a a 1, srcV .b b 1, srcV .ds d 1] true
    (fun w i l => f (arith w p i 0) (f32At w l 0) (f32At w l 1) (f32At w l 2)) s

/-- A minor of two patterns that does not round. -/
def f2raw (p : Pfx) (d a b : Opnd) (f : Weft → Nat → Nat → Rd) (s : State) : Res :=
  float p d [srcV .a a 1, srcV .b b 1] false (fun w _ l => f w (l.getD 0 0) (l.getD 1 0)) s

/-- An integer-valued minor with a fixed mode (R391). -/
def fInt (p : Pfx) (d a : Opnd) (mode : Nat) (s : State) : Res :=
  float p d [srcV .a a 1] false
    (fun w i l => fIntV fF32 { arith w p i 0 with mode := mode } (f32At w l 0) false) s

/-- `fadd`: a + b (R391, R392). -/
def execFadd (p : Pfx) (d a b : Opnd) (s : State) : Res := f2 p d a b (fAddV fF32) s

/-- `fsub`: a − b (R391, R392). -/
def execFsub (p : Pfx) (d a b : Opnd) (s : State) : Res := f2 p d a b (fun e x y => fAddV fF32 e x (negate y)) s

/-- `fmul`: a × b (R391, R392). -/
def execFmul (p : Pfx) (d a b : Opnd) (s : State) : Res := f2 p d a b (fMulV fF32) s

/-- `ffma`: a × b + d, one rounding (R391, R392). -/
def execFfma (p : Pfx) (d a b : Opnd) (s : State) : Res := f3 p d a b (fFmaV fF32) s

/-- `ffms`: a × b − d (R391, R392). -/
def execFfms (p : Pfx) (d a b : Opnd) (s : State) : Res := f3 p d a b (fun e x y z => fFmaV fF32 e x y (negate z)) s

/-- `fnma`: −(a × b) + d (R391, R392). -/
def execFnma (p : Pfx) (d a b : Opnd) (s : State) : Res := f3 p d a b (fun e x y z => fFmaV fF32 e (negate x) y z) s

/-- `fnms`: −(a × b) − d (R391, R392). -/
def execFnms (p : Pfx) (d a b : Opnd) (s : State) : Res := f3 p d a b (fun e x y z => fFmaV fF32 e (negate x) y (negate z)) s

/-- `fmin`: minimum (R391, R392). -/
def execFmin (p : Pfx) (d a b : Opnd) (s : State) : Res := f2raw p d a b (fun w x y => fMinMax fF32 (ftzOf w) false x y) s

/-- `fmax`: maximum (R391, R392). -/
def execFmax (p : Pfx) (d a b : Opnd) (s : State) : Res := f2raw p d a b (fun w x y => fMinMax fF32 (ftzOf w) true x y) s

/-- `fminn`: minimumNumber (R391, R392). -/
def execFminn (p : Pfx) (d a b : Opnd) (s : State) : Res := f2raw p d a b (fun w x y => fMinMaxNum fF32 (ftzOf w) false x y) s

/-- `fmaxn`: maximumNumber (R391, R392). -/
def execFmaxn (p : Pfx) (d a b : Opnd) (s : State) : Res := f2raw p d a b (fun w x y => fMinMaxNum fF32 (ftzOf w) true x y) s

/-- `fabs`: a with S := 0; no flag (R391, R392). -/
def execFabs (p : Pfx) (d a : Opnd) (s : State) : Res := vec1 p d a (lift1 fun x => x &&& 0x7FFFFFFF) s

/-- `fneg`: a with S inverted; no flag (R391, R392). -/
def execFneg (p : Pfx) (d a : Opnd) (s : State) : Res := vec1 p d a (lift1 fun x => x ^^^ 0x80000000) s

/-- `fcpys`: a with S of b; no flag (R391, R392). -/
def execFcpys (p : Pfx) (d a b : Opnd) (s : State) : Res := vec2 p d a b (lift2 fun x y => (x &&& 0x7FFFFFFF) ||| (y &&& 0x80000000)) s

/-- `fdiv`: a / b (R391, R392). -/
def execFdiv (p : Pfx) (d a b : Opnd) (s : State) : Res := f2 p d a b (fDivV fF32) s

/-- `fsqrt`: √a (R391, R392). -/
def execFsqrt (p : Pfx) (d a : Opnd) (s : State) : Res := f1 p d a (fSqrtV fF32) s

/-- `frcp`: 1 / a (R391, R392). -/
def execFrcp (p : Pfx) (d a : Opnd) (s : State) : Res := f1 p d a (fRcpV fF32) s

/-- `frsq`: 1 / √a (R391, R392). -/
def execFrsq (p : Pfx) (d a : Opnd) (s : State) : Res := f1 p d a (fRsqV fF32) s

/-- `fexp2`: 2^a (R391, R392). -/
def execFexp2 (p : Pfx) (d a : Opnd) (s : State) : Res := f1 p d a (fExp2V fF32) s

/-- `flog2`: log2 a (R391, R392). -/
def execFlog2 (p : Pfx) (d a : Opnd) (s : State) : Res := f1 p d a (fLog2V fF32) s

/-- `fsin`: sin (π × a) (R391, R392). -/
def execFsin (p : Pfx) (d a : Opnd) (s : State) : Res := f1 p d a (fSinV fF32) s

/-- `fcos`: cos (π × a) (R391, R392). -/
def execFcos (p : Pfx) (d a : Opnd) (s : State) : Res := f1 p d a (fCosV fF32) s

/-- `ffloor`: largest integer ≤ a (R391, R392). -/
def execFfloor (p : Pfx) (d a : Opnd) (s : State) : Res := fInt p d a 3 s

/-- `fceil`: smallest integer ≥ a (R391, R392). -/
def execFceil (p : Pfx) (d a : Opnd) (s : State) : Res := fInt p d a 2 s

/-- `ftrunc`: a rounded toward zero (R391, R392). -/
def execFtrunc (p : Pfx) (d a : Opnd) (s : State) : Res := fInt p d a 1 s

/-- `frint`: Round(a, m, integer) (R391, R392). -/
def execFrint (p : Pfx) (d a : Opnd) (s : State) : Res := f1 p d a (fun e x => fIntV fF32 e x true) s

/-- `fscale`: a × 2^n, with n the integer in the lane of b (R391, R392). -/
def execFscale (p : Pfx) (d a b : Opnd) (s : State) : Res :=
  float p d [srcV .a a 1, srcV .b b 1] true
    (fun w i l => fScaleV fF32 (arith w p i 0) (f32At w l 0) (signedOf 32 (l.getD 1 0))) s

/-- `fclass`: one bit of its class (R393). -/
def execFclass (p : Pfx) (d a : Opnd) (s : State) : Res :=
  vec1 p d a (lift1 fun x => BitVec.ofNat 32 (fClass fF32 x.toNat)) s

end Sys2Proof.Machine
end

