-- ==== Sys2Proof/Machine/Half.lean ====
section
/-! DEFINITION. Packed 16-bit arithmetic VH (R394, R395). -/

namespace Sys2Proof.Machine

/-- The element format: 0 f16, 1 bf16 (R394). -/
def halfFmt (t : BitVec 1) : Fmt := if t = 0 then fF16 else fBF16

/-- Element `k` of a lane. -/
def elem (x k : Nat) : Nat := field x (16 * k) 16

/-- Both elements computed and joined. -/
def pack2 (f : Nat → Rd) : Rd :=
  { bits := (f 0).bits + 2 ^ 16 * (f 1).bits, fl := (f 0).fl ||| (f 1).fl }

/-- Element `k` of source `n` as a value. -/
def halfAt (w : Weft) (t : BitVec 1) (l : List Nat) (n k : Nat) : FV :=
  readF (halfFmt t) (ftzOf w) (elem (l.getD n 0) k)

/-- A rounding minor of two sources. -/
def h2 (p : Pfx) (d a b : Opnd) (t : BitVec 1) (f : Fmt → REnv → FV → FV → Rd) (s : State) : Res :=
  float p d [srcV .a a 1, srcV .b b 1] true
    (fun w i l => pack2 fun k => f (halfFmt t) (arith w p i k) (halfAt w t l 0 k) (halfAt w t l 1 k)) s

/-- A minor of two patterns that does not round. -/
def h2raw (p : Pfx) (d a b : Opnd) (t : BitVec 1) (f : Fmt → Bool → Nat → Nat → Rd) (s : State) : Res :=
  float p d [srcV .a a 1, srcV .b b 1] false
    (fun w _ l => pack2 fun k => f (halfFmt t) (ftzOf w) (elem (l.getD 0 0) k) (elem (l.getD 1 0) k)) s

/-- `hadd`: a + b per element (R394). -/
def execHadd (p : Pfx) (d a b : Opnd) (t : BitVec 1) (s : State) : Res := h2 p d a b t fAddV s

/-- `hsub`: a − b per element (R394). -/
def execHsub (p : Pfx) (d a b : Opnd) (t : BitVec 1) (s : State) : Res :=
  h2 p d a b t (fun f e x y => fAddV f e x (negate y)) s

/-- `hmul`: a × b per element (R394). -/
def execHmul (p : Pfx) (d a b : Opnd) (t : BitVec 1) (s : State) : Res := h2 p d a b t fMulV s

/-- `hfma`: a × b + d per element, one rounding (R394). -/
def execHfma (p : Pfx) (d a b : Opnd) (t : BitVec 1) (s : State) : Res :=
  float p d [srcV .a a 1, srcV .b b 1, srcV .ds d 1] true
    (fun w i l => pack2 fun k =>
      fFmaV (halfFmt t) (arith w p i k) (halfAt w t l 0 k) (halfAt w t l 1 k) (halfAt w t l 2 k)) s

/-- `hmin`: as `fmin` (R394). -/
def execHmin (p : Pfx) (d a b : Opnd) (t : BitVec 1) (s : State) : Res :=
  h2raw p d a b t (fun f z x y => fMinMax f z false x y) s

/-- `hmax`: as `fmax` (R394). -/
def execHmax (p : Pfx) (d a b : Opnd) (t : BitVec 1) (s : State) : Res :=
  h2raw p d a b t (fun f z x y => fMinMax f z true x y) s

/-- `hminn`: as `fminn` (R394). -/
def execHminn (p : Pfx) (d a b : Opnd) (t : BitVec 1) (s : State) : Res :=
  h2raw p d a b t (fun f z x y => fMinMaxNum f z false x y) s

/-- `hmaxn`: as `fmaxn` (R394). -/
def execHmaxn (p : Pfx) (d a b : Opnd) (t : BitVec 1) (s : State) : Res :=
  h2raw p d a b t (fun f z x y => fMinMaxNum f z true x y) s

/-- `habs`: S := 0 in both elements; the same in either format (R394). -/
def execHabs (p : Pfx) (d a : Opnd) (_t : BitVec 1) (s : State) : Res := vec1 p d a (lift1 fun x => x &&& 0x7FFF7FFF) s

/-- `hneg`: S inverted in both elements (R394). -/
def execHneg (p : Pfx) (d a : Opnd) (_t : BitVec 1) (s : State) : Res := vec1 p d a (lift1 fun x => x ^^^ 0x80008000) s

/-- `hdot2`: Round(a0 × b0 + a1 × b1 + d) to binary32 (R395). -/
def execHdot2 (p : Pfx) (d a b : Opnd) (t : BitVec 1) (s : State) : Res :=
  float p d [srcV .a a 1, srcV .b b 1, srcV .ds d 1] true
    (fun w i l => fDot2V fF32 (arith w p i 0) (halfAt w t l 0 0) (halfAt w t l 1 0) (halfAt w t l 0 1)
      (halfAt w t l 1 1) (f32At w l 2)) s

/-- `hcpys`: a with S of b in both elements (R394). -/
def execHcpys (p : Pfx) (d a b : Opnd) (_t : BitVec 1) (s : State) : Res :=
  vec2 p d a b (lift2 fun x y => (x &&& 0x7FFF7FFF) ||| (y &&& 0x80008000)) s

end Sys2Proof.Machine
end

