-- ==== Sys2Proof/Machine/Convert.lean ====
section
/-! DEFINITION. Conversions VCVT (R396-R400). -/

namespace Sys2Proof.Machine

/-- An integer of the source, 32 bits, to binary32 (R396). -/
def cvtFromInt (p : Pfx) (d a : Opnd) (signed : Bool) (s : State) : Res :=
  float p d [srcV .a a 1] true
    (fun w i l =>
      let x := l.getD 0 0
      cvtInt fF32 { envOf w p true i 0 with sat := false } (if signed then signedOf 32 x else (x : Int))) s

/-- Binary32 to an integer between two ends (R397). -/
def cvtToInt (p : Pfx) (d a : Opnd) (lo hi : Int) (s : State) : Res :=
  float p d [srcV .a a 1] true
    (fun w i l =>
      let r := toIntV { envOf w p true i 0 with sat := false } lo hi (unpack fF32 (l.getD 0 0))
      { bits := wrapInt 32 r.1, fl := r.2 }) s

/-- An exact conversion of the element that operand B selects (R396). -/
def cvtSelect (p : Pfx) (d a b : Opnd) (bits sel : Nat) (f : Nat → Rd) (s : State) : Res :=
  float p d [srcV .a a 1, srcV .b b 1] false
    (fun _ _ l => f (field (l.getD 0 0) (bits * field (l.getD 1 0) 0 sel) bits)) s

/-- An exact conversion of a binary format to binary32 (R396). -/
def widen (f : Fmt) (x : Nat) : Rd :=
  cvtV fF32 { mode := 0, ftz := false, sat := false, r := 0, conv := true } (unpack f x)

/-- Element `k` of a narrowing conversion of source `k` (R400). -/
def narrow (w : Weft) (p : Pfx) (f : Fmt) (i : Nat) (l : List Nat) (k : Nat) : Rd :=
  cvtV f (envOf w p true i k) (unpack fF32 (l.getD k 0))

/-- Two sources to two elements of `bits` bits (R396). -/
def cvtPack (p : Pfx) (d a b : Opnd) (f : Fmt) (s : State) : Res :=
  float p d [srcV .a a 1, srcV .b b 1] true (fun w i l => pack2 (narrow w p f i l)) s

/-- A shift-in conversion of two sources (R396): the old bits move up, the new ones enter at the bottom. -/
def cvtShiftIn (p : Pfx) (d a b : Opnd) (f : Fmt) (bits : Nat) (s : State) : Res :=
  float p d [srcV .a a 1, srcV .b b 1, srcV .ds d 1] true
    (fun w i l =>
      let x := narrow w p f i l 0
      let y := narrow w p f i l 1
      { bits := (l.getD 2 0 * 2 ^ (2 * bits) + y.bits * 2 ^ bits + x.bits) % 2 ^ 32, fl := x.fl ||| y.fl }) s

/-- `cvt.f32.i32` (R396). -/
def execCvtF32I32 (p : Pfx) (d a : Opnd) (s : State) : Res := cvtFromInt p d a true s

/-- `cvt.f32.n32` (R396). -/
def execCvtF32N32 (p : Pfx) (d a : Opnd) (s : State) : Res := cvtFromInt p d a false s

/-- `cvt.i32.f32` (R397). -/
def execCvtI32F32 (p : Pfx) (d a : Opnd) (s : State) : Res := cvtToInt p d a (-(2 ^ 31)) (2 ^ 31 - 1) s

/-- `cvt.n32.f32` (R397). -/
def execCvtN32F32 (p : Pfx) (d a : Opnd) (s : State) : Res := cvtToInt p d a 0 (2 ^ 32 - 1) s

/-- `cvt.f32.f16` (R396). -/
def execCvtF32F16 (p : Pfx) (d a b : Opnd) (s : State) : Res := cvtSelect p d a b 16 1 (widen fF16) s

/-- `cvt.f32.bf16` (R396). -/
def execCvtF32Bf16 (p : Pfx) (d a b : Opnd) (s : State) : Res := cvtSelect p d a b 16 1 (widen fBF16) s

/-- `cvt.f16x2.f32` (R396, R400). -/
def execCvtF16x2F32 (p : Pfx) (d a b : Opnd) (s : State) : Res := cvtPack p d a b fF16 s

/-- `cvt.bf16x2.f32` (R396, R400). -/
def execCvtBf16x2F32 (p : Pfx) (d a b : Opnd) (s : State) : Res := cvtPack p d a b fBF16 s

/-- `cvt.e4m3.f32` (R396, R400). -/
def execCvtE4m3F32 (p : Pfx) (d a b : Opnd) (s : State) : Res := cvtShiftIn p d a b fE4M3 8 s

/-- `cvt.e5m2.f32` (R396, R400). -/
def execCvtE5m2F32 (p : Pfx) (d a b : Opnd) (s : State) : Res := cvtShiftIn p d a b fE5M2 8 s

/-- `cvt.f32.e4m3` (R396). -/
def execCvtF32E4m3 (p : Pfx) (d a b : Opnd) (s : State) : Res := cvtSelect p d a b 8 2 (widen fE4M3) s

/-- `cvt.f32.e5m2` (R396). -/
def execCvtF32E5m2 (p : Pfx) (d a b : Opnd) (s : State) : Res := cvtSelect p d a b 8 2 (widen fE5M2) s

/-- `cvt.e2m1.f32` (R396, R400). -/
def execCvtE2m1F32 (p : Pfx) (d a b : Opnd) (s : State) : Res := cvtShiftIn p d a b fE2M1 4 s

/-- `cvt.f32.e2m1` (R396). -/
def execCvtF32E2m1 (p : Pfx) (d a b : Opnd) (s : State) : Res := cvtSelect p d a b 4 3 (widen fE2M1) s

/-- `cvt.i8.f32` (R398): shift-in of the quantised quotient. -/
def execCvtI8F32 (p : Pfx) (d a b : Opnd) (s : State) : Res :=
  float p d [srcV .a a 1, srcV .b b 1, srcV .ds d 1] true
    (fun w i l =>
      let q := toQ8 (arith w p i 0) (unpack fF32 (l.getD 0 0)) (unpack fF32 (l.getD 1 0))
      { bits := (l.getD 2 0 * 2 ^ 8 + wrapInt 8 q.1) % 2 ^ 32, fl := q.2 }) s

/-- An integer that binary32 holds exactly. -/
def exactInt (x : Int) : Rd := cvtInt fF32 { mode := 0, ftz := false, sat := false, r := 0, conv := true } x

/-- 2^(E − 127) as binary32; 0xFF is NaN (R377). -/
def fromE8m0 (x : Nat) : Rd :=
  if x = 0xFF then nanRd fF32 0
  else roundFin fF32 { mode := 0, ftz := false, sat := false, r := 0, conv := true } false
    { m := 1, e := (x : Int) - 127, sticky := false }

/-- `cvt.f32.i8` (R396). -/
def execCvtF32I8 (p : Pfx) (d a b : Opnd) (s : State) : Res := cvtSelect p d a b 8 2 (fun x => exactInt (signedOf 8 x)) s

/-- `cvt.e8m0.f32` (R399): no flag. -/
def execCvtE8m0F32 (p : Pfx) (d a : Opnd) (s : State) : Res :=
  vec1 p d a (lift1 fun x => BitVec.ofNat 32 (toE8m0 x.toNat)) s

/-- `cvt.f32.e8m0` (R396). -/
def execCvtF32E8m0 (p : Pfx) (d a b : Opnd) (s : State) : Res := cvtSelect p d a b 8 2 fromE8m0 s

/-- `cvt.f32.n8` (R396). -/
def execCvtF32N8 (p : Pfx) (d a b : Opnd) (s : State) : Res := cvtSelect p d a b 8 2 (fun x => exactInt x) s

end Sys2Proof.Machine
end

