-- ==== Sys2Proof/Machine/ItinIsa.lean ====
section
/-! DEFINITION. Itinerary instructions (R456, R457). -/

namespace Sys2Proof.Machine

/-- The weft belongs to a task launch (R161). -/
def State.inTask (s : State) (w : Weft) : Bool :=
  match s.launchOf w with
  | some l => l.itn.isSome
  | none => false

/-- The current task of a weft. -/
def State.curTask (s : State) (w : Weft) : Option Task :=
  match s.launchOf w with
  | some l => l.task.bind fun k => s.itin.tasks.find? fun (x : Task) => x.slot == k && x.serial == l.serial
  | none => none

/-- ITIN, kind F, DETAIL 0 (R456). -/
def State.itinTrap (s : State) (w : Weft) (m : W64) : State := s.trapF w .itin m TInfo.none

/-- `itn.done` (R457): a release at pkg scope, then the weft's part of the task ends. -/
def execItnDone (p : Pfx) (s : State) : Res :=
  execBare s p fun s w =>
    if !s.inTask w then s.itinTrap (w.issued p false) (w.effMask p)
    else s.release w 4 fun s =>
      let w1 := { w.commit p false with itnDone := true }
      (s.setWeft w1).taskOf w1

/-- The scalar register that an operand names. -/
def sregOf : Opnd → Option Nat
  | .s n => some n.val
  | _ => none

/-- `itn.next` (R457, R162): as `itn.done`, then the weft waits for a task or 0. -/
def execItnNext (p : Pfx) (d : Opnd) (s : State) : Res :=
  issue s p [dstS d] .all fun w g =>
    if !s.inTask w then s.itinTrap (w.issued p false) g.m
    else match w.itnAnswer with
      | some v =>
        let r := writeS s w d v
        r.1.setWeft { r.2.commit p false with itnNext := false, itnAnswer := none, itnDone := v == 0 }
      | none =>
        if w.itnNext then s.waits w .task
        else s.release w 4 fun s =>
          let w1 := { w with itnDone := true, itnNext := true, itnReg := sregOf d, itnWas := w.itnDone, waiting := some .task }
          (s.setWeft w1).taskOf w1

/-- A minor that needs a task in progress: outside one, and after `itn.done`, it raises ITIN (R456, R457). -/
def needsTask (s : State) (w : Weft) (m : W64) (f : Task → State) : State :=
  if !s.inTask w || w.itnDone then s.itinTrap w m
  else match s.curTask w with
    | some k => f k
    | none => s.itinTrap w m

/-- `itn.stash` (R457). -/
def execItnStash (p : Pfx) (d a : Opnd) (s : State) : Res :=
  issue s p [srcS .a a, dstS d] .active fun w g =>
    if g.m = 0 then s.setWeft (w.commit p false)
    else needsTask s (w.issued p false) g.m fun _ =>
      let mb := field (s.sVal w a).toNat 0 12
      let v := match s.itin.stashOf mb with
        | some i => BitVec.ofNat 64 (s.itin.stashva + i * s.itin.stsz)
        | none => 0
      let r := writeS (s.popUses w g.m [srcS .a a]) w d v
      r.1.setWeft (r.2.commit p false)

/-- `itn.free` (R457): the slot is not freed again at retirement. -/
def execItnFree (p : Pfx) (a : Opnd) (s : State) : Res :=
  issue s p [srcS .a a] .active fun w g =>
    if g.m = 0 then s.setWeft (w.commit p false)
    else needsTask s (w.issued p false) g.m fun _ =>
      let mb := field (s.sVal w a).toNat 0 12
      let s1 := s.popUses w g.m [srcS .a a]
      let t := s1.itin.freeStash mb
      let t1 : Itin := { t with tasks := t.tasks.map fun k => if k.mb = mb then { k with freeAtEnd := false } else k }
      { s1 with itin := s.itin.rearm t1 }.setWeft (w.commit p false)

/-- `itn.post` (R457): a release at sys scope, then the arrival word of the next reserved slot. -/
def execItnPost (p : Pfx) (d : Opnd) (s : State) : Res :=
  issue s p [dstS d] .active fun w g =>
    if g.m = 0 then s.release w 5 fun s => s.setWeft (w.commit p false)
    else needsTask s (w.issued p false) g.m fun k =>
      if k.nout ≤ k.posts then s.itinTrap (w.issued p false) g.m
      else s.release w 5 fun s =>
        let up := fun x : Task => if x.slot = k.slot then { x with posts := x.posts + 1 } else x
        let s1 := { s with itin := { s.itin with tasks := s.itin.tasks.map up } }
        let r := writeS s1 w d (BitVec.ofNat 64 k.posts)
        (r.1.setWeft (r.2.commit p false)).postSlot w.core (some w.slot) k.kind (k.resBase + k.posts)

/-- `itn.stat` (R457, R166). -/
def execItnStat (p : Pfx) (d : Opnd) (b : BitVec 7) (s : State) : Res :=
  execScalar s p [] d fun w _ =>
    if s.itin.bound = some w.ctx then s.itin.counters.getD b.toNat 0 else 0

end Sys2Proof.Machine
end

