-- ==== Sys2Proof/Machine/Signal.lean ====
section
/-! DEFINITION. Signals (R417-R419). -/

namespace Sys2Proof.Machine

/-- The one lane of a signal access. -/
def sigLane (ea : W64) (data : Nat) (m : W64) : List LaneAcc :=
  (accLanes m true).map fun i => mkLane 0 0 8 ea data 0 i

/-- `sig.add` and `sig.set`: a release at their scope, then one write (R418, R256). -/
def sigOp (p : Pfx) (a b : Opnd) (kind : AccKind) (s : State) : Res :=
  issue s p [srcS .a a, srcS .b b] .active fun w g =>
    s.release w p.scope fun s =>
      if g.m = 0 then s.setWeft (w.commit p false)
      else
        let acc := { baseAccess s w p g kind 8 (sigLane (s.sVal w a) (s.sVal w b).toNat g.m) with scalar := true, gm := 0 }
        if !s.capOpen w.core acc.lanes then s.waits w .cap else s.startAccess w acc none

/-- `sig.add` (R418). -/
def execSigAdd (p : Pfx) (a b : Opnd) (s : State) : Res := sigOp p a b .sigAdd s

/-- `sig.set` (R418). -/
def execSigSet (p : Pfx) (a b : Opnd) (s : State) : Res := sigOp p a b .sigSet s

/-- `swait.*`: D is empty until the first read that satisfies the condition (R419); with an empty mask an acquire. -/
def swaitOp (p : Pfx) (d a b : Opnd) (cond : Nat) (s : State) : Res :=
  issue s p [srcS .a a, srcS .b b, dstS d] .active fun w g =>
    if g.m = 0 then s.fenceAcq w p.scope fun s => s.setWeft (w.commit p false)
    else
      let acc := { baseAccess s w p g (.swait cond (s.sVal w b)) 8 (sigLane (s.sVal w a) 0 g.m) with
        scalar := true, gm := 0, acq := true, dst := destOf w g d 1 }
      if !s.capOpen w.core acc.lanes then s.waits w .cap else s.startAccess w acc none

/-- `swait.ge` (R419). -/
def execSwaitGe (p : Pfx) (d a b : Opnd) (s : State) : Res := swaitOp p d a b 0 s

/-- `swait.eq` (R419). -/
def execSwaitEq (p : Pfx) (d a b : Opnd) (s : State) : Res := swaitOp p d a b 1 s

/-- `swait.ne` (R419). -/
def execSwaitNe (p : Pfx) (d a b : Opnd) (s : State) : Res := swaitOp p d a b 2 s

end Sys2Proof.Machine
end

