-- ==== Sys2Proof/Machine/LaunchIsa.lean ====
section
/-! DEFINITION. Device-side launches (R458-R460). -/

namespace Sys2Proof.Machine

/-- `lnch` and `lnch.dep` (R459): the descriptor check, the release, room in the die launch queue, then the record is read
as a scalar load and the weft issues nothing further until its check ends. -/
def launchOp (p : Pfx) (d a : Opnd) (b : Option Opnd) (s : State) : Res :=
  let uses := [srcS .a a] ++ (match b with | some o => [srcS .b o] | none => []) ++ [dstS d]
  issue s p uses .active fun w g =>
    let v := match b with | some o => s.sVal w o | none => 0
    if g.m = 0 then s.setWeft (w.commit p false)
    else if 1 < v.toNat then s.trapF (w.issued p false) .illop g.m { TInfo.none with detail := 3 }
    else s.release w 5 fun s =>
      if s.launchFull w.ctx (dieOf w.core) then s.waits w .queue
      else
        let lanes := (accLanes g.m true).map fun i => mkLane 0 0 64 (s.sVal w a) 0 0 i
        let acc := { baseAccess s w p g (.launch d b (v.getLsbD 0)) 64 lanes with scalar := true, gm := 0, acq := true }
        if !s.capOpen w.core acc.lanes then s.waits w .cap
        else s.startAccess w acc none

/-- `lnch` (R459). -/
def execLnch (p : Pfx) (d a : Opnd) (s : State) : Res := launchOp p d a none s

/-- `lnch.dep` (R459). -/
def execLnchDep (p : Pfx) (d a b : Opnd) (s : State) : Res := launchOp p d a (some b) s

/-- The state of a launch (R460). -/
def State.launchState (s : State) (c n : Nat) : Nat :=
  match s.launches.find? fun l => l.ctx == c && l.serial % 2 ^ 32 == n with
  | none => 0
  | some l => if l.nextTeam = 0 then 1 else if s.launchTriggered l then 3 else 2

/-- `lnchq` (R460). -/
def execLnchq (p : Pfx) (d a : Opnd) (s : State) : Res :=
  execScalar s p [srcS .a a] d fun w v => BitVec.ofNat 64 (s.launchState w.ctx (field (v.getD 0 0).toNat 0 32))

end Sys2Proof.Machine
end

