-- ==== Sys2Proof/Machine/Nmv.lean ====
section
/-! DEFINITION. Near-memory matrix-vector (R65, R66, R454, R455). -/

namespace Sys2Proof.Machine

/-- Bytes of a B element (R455). -/
def EngCmd.bBytes (c : EngCmd) : Nat := if c.ncfg.getLsbD 0 then 1 else 2

def EngCmd.nRows (c : EngCmd) : Nat := c.fld 2 0 32
def EngCmd.nLen (c : EngCmd) : Nat := c.fld 2 32 32
def EngCmd.pitch (c : EngCmd) : Nat := c.fld 3 0 64
def EngCmd.vec (c : EngCmd) : Nat := c.fld 1 0 32
def EngCmd.res (c : EngCmd) : Nat := c.fld 1 32 32

/-- Elements of a 256-byte segment (R65). -/
def EngCmd.segLen (c : EngCmd) : Nat := 256 / c.bBytes

/-- Step 1 of R436: rows, length or pitch outside its range. -/
def EngCmd.badNmv (c : EngCmd) : Bool :=
  c.nRows == 0 || 2 ^ 20 < c.nRows || c.nLen == 0 || 2 ^ 20 < c.nLen || c.nLen % c.segLen != 0
    || c.pitch % 256 != 0 || decide (c.pitch < c.nLen * c.bBytes)

/-- The first check that an `nmv` fails (R436, R454). -/
def EngCmd.nmvCheck (c : EngCmd) (t : Team) : Option Cause :=
  if c.badNmv then some .illop
  else if c.vec % 256 != 0 || c.res % 64 != 0 then some .align
  else if (t.spadKey c.vec (2 * c.nLen)).isNone || (t.spadKey c.res (4 * c.nRows)).isNone then some .spaddr
  else none

/-- `nmv` (R434, R436, R454, R455); one that traps at its own checks is not debited (assumption 110). -/
def execNmv (p : Pfx) (d a : Opnd) (s : State) : Res :=
  issue s p (descUses a 4 ++ [srcS .ds d]) .active fun w g =>
    let tok := s.tokenOf w d
    match s.team? w.team with
    | none => s.setWeft (w.commit p false)
    | some t =>
      if g.m != 0 && w.cntFull (some 4) then s.waits w .count
      else if g.m != 0 && tok.isSome && !t.tokenRoom 2 then s.waits w .queue
      else if (s.ration w.core).c < 0 then s.withhold w false 4
      else if g.m = 0 then (s.debit w.core 4).setWeft (w.commit p false)
      else
        let c := mkCmd s w p 5 g.m ((descUses a 4).map fun u => s.sVal w u.o) [] tok
        match c.nmvCheck t with
        | some k => s.trapF (w.issued p false) k g.m { TInfo.none with detail := if k = .illop then 3 else 0 }
        | none => (s.debit w.core 4).acceptCmd (w.commit p false) c 4 2

/-- `nmvcfg` (R455). -/
def execNmvcfg (p : Pfx) (a : Opnd) (s : State) : Res :=
  issue s p (descUses a 1) .active fun w g =>
    let v := s.sVal w a
    match s.team? w.team with
    | none => s.setWeft (w.commit p false)
    | some t =>
      if (s.ration w.core).c < 0 then s.withhold w false 4
      else if g.m = 0 then (s.debit w.core 4).setWeft (w.commit p false)
      else if 4 ≤ v.toNat then s.trapF (w.issued p false) .illop g.m { TInfo.none with detail := 3 }
      else ((s.debit w.core 4).setTeam { t with ncfg := v.setWidth 2 }).setWeft (w.commit p false)

/-- Key of a row segment: PROT in a page with MV = 0, and the faults of a read (R455). A base that is not 256-byte aligned is read as 256 bytes
from its first byte's pseudo-channel (assumption 96). -/
def State.segKey (s : State) (c : EngCmd) (va : W64) : State × (Nat ⊕ EngErr) :=
  if isFabric va then (s, .inr (Tr.engErr .prot 1 va.toNat))
  else match s.translate c.ctx va .read c.step with
    | (.ok k _, s1) =>
      (match s1.leafOf c.ctx va with
        | (.leaf e, s2) =>
          if !leafMv e then (s2, .inr (Tr.engErr .prot 1 va.toNat))
          else if s2.rpoisoned k 256 then (s2, .inr { code := 0x12, kind := 0, level := 0, acc := 1, va := va.toNat })
          else (s2.countSpan k 256 false, .inl k)
        | (_, s2) => (s2, .inr (Tr.engErr .page 1 va.toNat)))
    | (t, s1) => (s1, .inr (t.engErr 1 va.toNat))

/-- Keys of a row's segments, and the errors of those that have none: an engine goes on past a fault (R435). -/
def State.segKeys (s : State) (c : EngCmd) (va : Nat) : Nat → Nat → State × (List Nat × List EngErr)
  | 0, _ => (s, [], [])
  | n + 1, j =>
    match s.segKey c (BitVec.ofNat 64 (va + 256 * j)) with
    | (s1, .inr e) => let r := s1.segKeys c va n (j + 1); (r.1, r.2.1, e :: r.2.2)
    | (s1, .inl k) => let r := s1.segKeys c va n (j + 1); (r.1, k :: r.2.1, r.2.2)

/-- Exact products of segment `j` with its vector elements (R66). -/
def State.segProducts (s : State) (c : EngCmd) (vk key j : Nat) : List FV :=
  (List.range c.segLen).map fun i =>
    let b := if c.ncfg.getLsbD 0 then unpack fE4M3 (s.nat (key + i) 1) else unpack fBF16 (s.nat (key + 2 * i) 2)
    mulExact b (unpack fBF16 (s.nat (vk + 2 * (c.segLen * j + i)) 2))

/-- The value of a row: each stack's exact sum rounded once, the stacks added in ascending order (R66). -/
def State.rowValue (s : State) (c : EngCmd) (vk : Nat) (keys : List Nat) : Nat :=
  let segs := (List.range keys.length).zip keys
  let sums := (List.range 8).filterMap fun st =>
    let mine := segs.filter fun x => keyHbmStack x.2 == st
    if mine.isEmpty then none else some (roundV fF32 (exactSum (mine.flatMap fun x => s.segProducts c vk x.2 x.1)))
  match sums with
  | [] => 0
  | x :: r => r.foldl (fun acc y => (fAddV fF32 rneEnv (unpack fF32 acc) (unpack fF32 y)).bits) x

/-- Rows `r` on, in ascending order (R455). -/
def State.nmvRows (s : State) (c : EngCmd) (vk rk : Nat) : Nat → Nat → State × EngCmd
  | 0, _ => (s, c)
  | n + 1, r =>
    match s.segKeys c ((c.desc.getD 0 0).toNat + r * c.pitch) (c.nLen / c.segLen) 0 with
    | (s1, _, e :: es) =>
      let o := s1.engErrors c 0 (e :: es)
      o.1.nmvRows o.2 vk rk n (r + 1)
    | (s1, keys, []) =>
      if s1.poisoned vk (2 * c.nLen) || (c.ncfg.getLsbD 1 && s1.poisoned (rk + 4 * r) 4) then
        let o := s1.engErrors c 0 [{ code := 0x12, kind := 0, level := 0, acc := 1, va := 0 }]
        o.1.nmvRows o.2 vk rk n (r + 1)
      else
        let y := s1.rowValue c vk keys
        let k := rk + 4 * r
        let v := if c.ncfg.getLsbD 1 then (fAddV fF32 rneEnv (unpack fF32 (s1.nat k 4)) (unpack fF32 y)).bits else y
        (s1.writeBytes k (leBytes 4 v)).nmvRows c vk rk n (r + 1)

/-- The near-memory engine of a cluster asks for a segment of two lines at a time, and pauses at the cap of outstanding requests (R94). -/
def State.nmvPaused (s : State) (core : Nat) : Bool := s.inFlight (clusOf core) != 0 && decide (s.oreq < s.inFlight (clusOf core) + 2)

/-- NMV_COMPLETE (R455): once the writes before the command are performed (R266), the rows are formed and written, c4 falls
and the token goes to q2. -/
def execNmvComplete (id : Nat) (s : State) : Res :=
  match s.cmd? id with
  | none => .next s
  | some c =>
    if c.op ≠ 5 then .next s
    else if s.engineWaits c then .next (s.engineFlush c)
    else if s.nmvPaused c.core then .next s
    else match s.team? c.team with
      | none => .next s
      | some t =>
        match t.spadKey c.vec (2 * c.nLen), t.spadKey c.res (4 * c.nRows) with
        | some vk, some rk =>
          let o := s.nmvRows c vk rk c.nRows 0
          .next (o.1.endCmd o.2 4 2 false)
        | _, _ => .next s

end Sys2Proof.Machine
end

