-- ==== Sys2Proof/Machine/Persist.lean ====
section
/-! DEFINITION. Fences (R254, R420) and persistence instructions (R421-R426). -/

namespace Sys2Proof.Machine

/-- `fence` (R254, R420): kinds 0 full, 1 acq, 2 rel. It waits on the replay queue and on acknowledgements (R249, R84, R288); on what else it
has to complete, only the weft's next memory group waits (assumption 102). -/
def execFence (p : Pfx) (k : BitVec 2) (c : BitVec 3) (s : State) : Res :=
  execBare s p fun s w =>
    if s.fenceWaits w c.toNat then s.waitOrder w c.toNat
    else
      let f : PFence := { op := s.nextId, kind := k.toNat, scope := c.toNat }
      { s with nextId := s.nextId + 1 }.setWeft { w.commit p false with fence := if s.fenceDone w f then none else some f }

/-- A persistence instruction enters c5 and the weft's list of open points (R229, R422-R424). -/
def State.openPoint (s : State) (w : Weft) (counted : Bool) (kind lo len step : Nat) : State :=
  let op := s.nextId
  let w1 := if counted then w.raise 5 op else w
  let w2 := { w1 with pbars := w1.pbars ++ [{ op := op, kind := kind, lo := lo, len := len, step := step }] }
  ({ s with nextId := op + 1 }.setWeft w2).checkPersist w.core w.slot

/-- The context has an armed snapshot region (R423, R426). -/
def State.armed (s : State) (c : Nat) : Bool := s.snap.regions.any fun r => r.ctx == c

/-- A `pbar.*`: it waits for the replay queue (R249), and the weft goes on. -/
def pbarOp (p : Pfx) (mend : Bool) (s : State) : Res :=
  execBare s p fun s w =>
    let counted := w.effMask p != 0
    if s.replays w then s.waits w .order
    else if counted && w.cntFull (some 5) then s.waits w .count
    else s.openPoint (w.commit p false) counted (b2n (mend && s.armed w.ctx)) 0 0 w.snapStep

/-- `pbar.pkg` (R422). -/
def execPbarPkg (p : Pfx) (s : State) : Res := pbarOp p false s

/-- `pbar.mend` (R423). -/
def execPbarMend (p : Pfx) (s : State) : Res := pbarOp p true s

/-- An entry of the combining buffer with bytes of a weft on SCM lines of a peer in a range (R424). -/
def flushes (w : Weft) (lo len : Nat) (e : CombEntry) : Bool :=
  let base := 2 ^ 63 + e.peer * 2 ^ 54 + e.line * 128
  e.core == w.core && e.ctx == w.ctx && inScm (peerVa (BitVec.ofNat 64 base))
    && e.bytes.any fun b => b.2.2 == w.slot && inRange lo len (base + b.1) 1

/-- `pflush` (R424): asks for the persistence of a range and orders nothing. -/
def execPflush (p : Pfx) (a b : Opnd) (s : State) : Res :=
  issue s p [srcS .a a, srcS .b b] .active fun w g =>
    if g.m = 0 then s.setWeft (w.commit p false)
    else if w.cntFull (some 5) then s.waits w .count
    else
      let lo := (s.sVal w a).toNat
      let len := (s.sVal w b).toNat
      let t := s.flushComb (flushes w lo len)
      match t.weft? w.core w.slot with
      | some v => t.openPoint (v.commit p false) true 2 lo len 0
      | none => t

/-- `stepmark` (R425): takes or releases the step hold and returns the die's step. -/
def execStepmark (p : Pfx) (d : Opnd) (b : BitVec 7) (s : State) : Res :=
  issue s p [dstS d] .active fun w g =>
    if g.m = 0 then s.setWeft (w.commit p false)
    else if b = 1 ∧ dieOf w.core ∈ s.itin.acks then s.waits w .step
    else
      let o := writeS s w d (s.dieStep.getD (dieOf w.core) 0)
      o.1.setWeft ({ o.2 with hold := b == 1 }.commit p false)

/-- `stepq` (R426): C or M in the snapshot context, else 0. -/
def execStepq (p : Pfx) (d : Opnd) (b : BitVec 7) (s : State) : Res :=
  execScalar s p [] d fun w _ =>
    if s.armed w.ctx then BitVec.ofNat 64 (if b = 0 then s.snap.c else s.snap.m) else 0

end Sys2Proof.Machine
end

