-- ==== Sys2Proof/Machine/Wait.lean ====
section
/-! DEFINITION. Waits on counters and queues (R427-R430). -/

namespace Sys2Proof.Machine

/-- `waitc` (R428): a target below the count of c1 sends the weft's combined stores (R78). -/
def execWaitc (p : Pfx) (a : Opnd) (b : BitVec 7) (s : State) : Res :=
  execWide s p [srcS .a a] fun s w v =>
    if w.count b.toNat ≤ (v.getD 0 0).toNat then s.setWeft (w.commit p false)
    else
      let mine := fun e : CombEntry => e.core == w.core && e.accs.any fun i => s.accs.any fun x => x.id == i && x.isOf w
      let s1 := if b = 1 then s.flushComb mine else s
      match s1.weft? w.core w.slot with
      | some v => s1.waits v .counter
      | none => s1

/-- What a wait on a queue counts: entries or free places, and the depth (R222, R429); none is satisfied at once. -/
def State.queueServes (s : State) (w : Weft) (n : Nat) : Option (Nat × Nat) :=
  match s.team? w.team with
  | none => none
  | some t =>
    match n with
    | 3 =>
      (match s.launchOf w with
        | none => none
        | some l =>
          if l.itn.isSome ∨ l.lrec.pipe = 0 ∨ l.lrec.stage = 0 then none
          else match s.pipeOf l with
            | none => none
            | some q =>
              if q.closed.getD l.lrec.stage false then none
              else some ((q.queues.getD l.lrec.stage []).length, q.qdep.getD l.lrec.stage 0))
    | 4 => (match s.q4Out w with | some (q, k) => some (s.q4Room w, q.qdep.getD k 0) | none => none)
    | 5 => some (t.q5.length, t.refill)
    | 6 => some (if w.execRole then t.q6.length else roleDepth - t.q6.length, roleDepth)
    | 7 => some (if w.execRole then roleDepth - t.q7.length else t.q7.length, roleDepth)
    | n => some ((t.q n).length, tokenDepth)

/-- The queue of a wait raises QUEUE (R429). -/
def State.waitqBad (s : State) (w : Weft) (n : Nat) : Bool :=
  match n with
  | 4 => (s.q4Out w).isNone
  | 5 => (match s.team? w.team with | some t => t.refill == 0 | none => true)
  | _ => false

/-- `waitq` (R429): issues once the queue can serve s[B] operations, taken as at most its depth. -/
def execWaitq (p : Pfx) (a b : Opnd) (s : State) : Res :=
  match s.weft? s.focus.1 s.focus.2 with
  | none => .fault .noWeft
  | some w0 =>
    if s.waitqBad w0 (opndNum a) then .next (s.trapF w0 .queue w0.em TInfo.none)
    else execWide s p [srcS .b b] fun s w v =>
      match s.queueServes w (opndNum a) with
      | none => s.setWeft (w.commit p false)
      | some (have_, depth) =>
        if min (v.getD 0 0).toNat depth ≤ have_ then s.setWeft (w.commit p false) else s.waits w .queue

/-- `waitall` (R430): every counter is 0; the weft's scratchpad writes are performed as they issue. -/
def execWaitall (p : Pfx) (s : State) : Res :=
  execWide s p [] fun s w _ =>
    if w.cnt.all List.isEmpty then s.setWeft (w.commit p false) else s.waits w .counter

end Sys2Proof.Machine
end

