-- ==== Sys2Proof/Machine/QueueOps.lean ====
section
/-! DEFINITION. Non-blocking queue operations (R463, R464). -/

namespace Sys2Proof.Machine

/-- The role, REFILL and direction rules of R223 and R464 for a queue operation. -/
def qopBad (s : State) (w : Weft) (a : Opnd) (push : Bool) : Bool :=
  (if push then decide (opndNum a < 4) else opndNum a == 4)
    || queueChk s w { srcS .a a with wr := push } != .ok

/-- A queue operation that QUEUE does not stop. -/
def queueOp (s : State) (p : Pfx) (uses : List Use) (bad : Weft → Bool) (body : Weft → Plan → State) : Res :=
  match s.weft? s.focus.1 s.focus.2 with
  | none => .fault .noWeft
  | some w0 => if bad w0 then .next (s.trapF w0 .queue w0.em TInfo.none) else issue s p uses .active body

/-- The `n` lowest active lanes of a mask. -/
def lowLanes (m : W64) (n : Nat) : W64 := maskOf fun i => ((activeLanes m).take n).contains i

/-- `qtry` (R464): pops without blocking; s[B] reports what was served. -/
def execQtry (p : Pfx) (d a b : Opnd) (s : State) : Res :=
  if opndNum a = 5 then
    queueOp s p [dstV d 1, { dstS b with pos := .b }] (fun w => qopBad s w a false) fun w g =>
      match s.team? w.team with
      | none => s.setWeft (w.commit p false)
      | some t =>
        let m := lowLanes g.m t.q5.length
        let o := writeV s w m (dstV d 1) [] [.g (spreadQ m laneIdx t.q5)]
        let s1 := o.1.setTeam { t with q5 := t.q5.drop (popCount m) }
        let r := if g.m = 0 then (s1, o.2) else writeS s1 o.2 b m
        r.1.setWeft (r.2.commit p false)
  else
    queueOp s p [dstS d, { dstS b with pos := .b }] (fun w => qopBad s w a false) fun w g =>
      if g.m = 0 then s.setWeft (w.commit p false)
      else match s.qHead w (opndNum a) with
        | some v =>
          if opndNum a = 3 && s.q3Poisoned w then s.dataTrap w p false [] g.m 1 else
          let r := writeS (s.qPop w (opndNum a)) w d v
          let r2 := writeS r.1 r.2 b 1
          r2.1.setWeft (r2.2.commit p false)
        | none =>
          let r := writeS s w b 0
          r.1.setWeft (r.2.commit p false)

/-- What `qcount` returns (R464). -/
def State.qcountOf (s : State) (w : Weft) (n : Nat) : Nat :=
  match n with
  | 3 =>
    (match s.launchOf w with
      | none => 0
      | some l =>
        if l.itn.isSome then 1
        else if l.lrec.pipe = 0 ∨ l.lrec.stage = 0 then 0
        else match s.pipeOf l with
          | some q => (q.queues.getD l.lrec.stage []).length
          | none => 0)
  | n => (match s.queueServes w n with | some x => x.1 | none => 0)

/-- The QUEUE rule of `qcount` (R223, R463): REFILL for q5, an output queue for q4. -/
def qcountBad (s : State) (w : Weft) (n : Nat) : Bool := s.waitqBad w n

/-- `qcount` (R464). -/
def execQcount (p : Pfx) (d a : Opnd) (s : State) : Res :=
  queueOp s p [dstS d] (fun w => qcountBad s w (opndNum a)) fun w g =>
    if g.m = 0 then s.setWeft (w.commit p false)
    else
      let r := writeS s w d (BitVec.ofNat 64 (s.qcountOf w (opndNum a)))
      r.1.setWeft (r.2.commit p false)

/-- `qputtry` (R464): pushes without blocking; s[D] reports what was served. -/
def execQputtry (p : Pfx) (d a b : Opnd) (s : State) : Res :=
  if opndNum a = 5 then
    queueOp s p [srcV .b b 1, dstS d] (fun w => qopBad s w a true) fun w g =>
      match s.team? w.team with
      | none => s.setWeft (w.commit p false)
      | some t =>
        let m := lowLanes g.m (t.refill - t.q5.length)
        let v := (s.vVal w g.m (srcV .b b 1) []).headD (.u 0)
        let s1 := s.setTeam { t with q5 := t.q5 ++ (activeLanes m).map v.lane }
        let r := if g.m = 0 then (s1, w) else writeS s1 w d m
        r.1.setWeft (r.2.commit p false)
  else
    queueOp s p [srcS .b b, dstS d] (fun w => qopBad s w a true) fun w g =>
      if g.m = 0 then s.setWeft (w.commit p false)
      else
        let v := s.sVal w b
        let s1 := s.popUses w g.m [srcS .b b]
        let r := if s1.qFull w (opndNum a) then writeS s1 w d 0 else writeS (s1.qPush w (opndNum a) v) w d 1
        r.1.setWeft (r.2.commit p false)

end Sys2Proof.Machine
end

