-- ==== Sys2Proof/Machine/Reduce.lean ====
section
/-! DEFINITION. Reductions, scans and index of extremum (R369-R373, R401, R402). -/

namespace Sys2Proof.Machine

/-! ### The tree of R370 -/

/-- Combine two nodes; an absent one passes the other up. -/
def combine {α : Type} (f : α → α → α) : Option α → Option α → Option α
  | some x, some y => some (f x y)
  | some x, none => some x
  | none, y => y

/-- One level of the tree from the level below. -/
def treeUp {α : Type} (f : α → α → α) : List (Option α) → List (Option α)
  | x :: y :: r => combine f x y :: treeUp f r
  | l => l

/-- The levels from a leaf level upward. -/
def treeLevels {α : Type} (f : α → α → α) : Nat → List (Option α) → List (List (Option α))
  | 0, l => [l]
  | n + 1, l => l :: treeLevels f n (treeUp f l)

/-- The leaves of a mask. -/
def leaves {α : Type} (m : W64) (v : Nat → α) : List (Option α) :=
  laneIdx.map fun i => if inMask m i then some (v i) else none

/-- The root of the tree (R370). -/
def treeRoot {α : Type} (f : α → α → α) (m : W64) (v : Nat → α) : Option α :=
  ((treeLevels f 6 (leaves m v)).getD 6 []).headD none

/-- The scan of R402 for one lane: nodes of the tree, from the widest down. -/
def scanLane {α : Type} (f : α → α → α) (lv : List (List (Option α))) (p : Nat) : Nat → Nat → Option α → Option α
  | 0, start, acc => if bitOf p 0 then combine f acc ((lv.getD 0 []).getD start none) else acc
  | l + 1, start, acc =>
    if bitOf p (l + 1) then
      scanLane f lv p l (start + 2 ^ (l + 1)) (combine f acc ((lv.getD (l + 1) []).getD (start / 2 ^ (l + 1)) none))
    else scanLane f lv p l start acc

/-! ### Writing a reduction -/

/-- A reduction: every active lane of a vector D, or an s register through `ext` (R371, R401). -/
def reduceOp (p : Pfx) (d a : Opnd) (rounds : Bool) (f : Weft → W64 → VVal → Rd) (ext : Nat → W64) (s : State) : Res :=
  execFold s p [srcV .a a 1] (if isVecDst d then dstV d 1 else dstS d) rounds fun w m v =>
    let r := f w m (arg v 0)
    { vals := [.u (BitVec.ofNat 32 r.bits)], sc := if m = 0 then none else some (ext r.bits), fl := BitVec.ofNat 5 r.fl }

/-- An integer reduction (R371). -/
def reduceInt (p : Pfx) (d a : Opnd) (f : W32 → W32 → W32) (signed : Bool) (s : State) : Res :=
  reduceOp p d a false (fun _ m v => { bits := ((treeRoot f m v.lane).getD 0).toNat, fl := 0 })
    (fun x => if signed then (BitVec.ofNat 32 x).signExtend 64 else BitVec.ofNat 64 x) s

/-- `vred.add.i32` (R371). -/
def execVredAddI32 (p : Pfx) (d a : Opnd) (s : State) : Res := reduceInt p d a (· + ·) true s

/-- `vred.min.i32` (R371). -/
def execVredMinI32 (p : Pfx) (d a : Opnd) (s : State) : Res :=
  reduceInt p d a (fun x y => if x.toInt ≤ y.toInt then x else y) true s

/-- `vred.max.i32` (R371). -/
def execVredMaxI32 (p : Pfx) (d a : Opnd) (s : State) : Res :=
  reduceInt p d a (fun x y => if x.toInt ≤ y.toInt then y else x) true s

/-- `vred.and` (R371). -/
def execVredAnd (p : Pfx) (d a : Opnd) (s : State) : Res := reduceInt p d a (· &&& ·) false s

/-- `vred.or` (R371). -/
def execVredOr (p : Pfx) (d a : Opnd) (s : State) : Res := reduceInt p d a (· ||| ·) false s

/-- `vred.xor` (R371). -/
def execVredXor (p : Pfx) (d a : Opnd) (s : State) : Res := reduceInt p d a (· ^^^ ·) false s

/-- Values and flags of a float node (R401): rs acts as rne. -/
def addNode (w : Weft) (p : Pfx) (x y : Rd) : Rd :=
  let env : REnv := { mode := if rmOf w p = 4 then 0 else rmOf w p, ftz := ftzOf w, sat := false, r := 0, conv := false }
  let r := fAddV fF32 env (readF fF32 env.ftz x.bits) (readF fF32 env.ftz y.bits)
  { r with fl := r.fl ||| x.fl ||| y.fl }

/-- A min or max node (R401). -/
def minNode (w : Weft) (mx : Bool) (x y : Rd) : Rd :=
  let r := fMinMax fF32 (ftzOf w) mx x.bits y.bits
  { r with fl := r.fl ||| x.fl ||| y.fl }

/-- A lane of a source as a leaf. -/
def leafRdOf (v : VVal) (i : Nat) : Rd := { bits := (v.lane i).toNat, fl := 0 }

/-- No value. -/
def Rd.zero : Rd := { bits := 0, fl := 0 }

/-- `vred.add.f32` (R401). -/
def execVredAddF32 (p : Pfx) (d a : Opnd) (s : State) : Res :=
  reduceOp p d a true (fun w m v => (treeRoot (addNode w p) m (leafRdOf v)).getD Rd.zero) (BitVec.ofNat 64) s

/-- `vred.min.f32` (R401). -/
def execVredMinF32 (p : Pfx) (d a : Opnd) (s : State) : Res :=
  reduceOp p d a false (fun w m v => (treeRoot (minNode w false) m (leafRdOf v)).getD Rd.zero) (BitVec.ofNat 64) s

/-- `vred.max.f32` (R401). -/
def execVredMaxF32 (p : Pfx) (d a : Opnd) (s : State) : Res :=
  reduceOp p d a false (fun w m v => (treeRoot (minNode w true) m (leafRdOf v)).getD Rd.zero) (BitVec.ofNat 64) s

/-- `vscan.add.i32`: inclusive sums over the active lanes (R372); the result is G. -/
def execVscanAddI32 (p : Pfx) (d a : Opnd) (s : State) : Res :=
  execFold s p [srcV .a a 1] (dstV d 1) false fun _ m v =>
    VRes.ofVals [.g (laneIdx.map fun i =>
      (List.range (i + 1)).foldl (fun acc k => if inMask m k then acc + (arg v 0).lane k else acc) 0)]

/-- `vscan.add.f32` (R402); the result is G. -/
def execVscanAddF32 (p : Pfx) (d a : Opnd) (s : State) : Res :=
  execFold s p [srcV .a a 1] (dstV d 1) true fun w m v =>
    let lv := treeLevels (addNode w p) 6 (leaves m (leafRdOf (arg v 0)))
    let rs := laneIdx.map fun i =>
      if inMask m i then (scanLane (addNode w p) lv (i + 1) 6 0 none).getD Rd.zero else Rd.zero
    { vals := [.g (rs.map fun r => BitVec.ofNat 32 r.bits)], sc := none
      fl := BitVec.ofNat 5 (rs.foldl (fun acc r => acc ||| r.fl) 0), lfl := rs.map fun r => BitVec.ofNat 5 r.fl }

/-- The active lane with the best rank, the lowest among equals (R373). -/
def bestLane (rank : Nat → Int) (better : Int → Int → Bool) : List Nat → Nat
  | [] => 0
  | i :: r => r.foldl (fun b k => if better (rank k) (rank b) then k else b) i

/-- An extremum (R373): its lane in a vector D, its bits and lane in an s register. -/
def extremum (p : Pfx) (d a : Opnd) (rank : Nat → Int) (better : Int → Int → Bool) (s : State) : Res :=
  execFold s p [srcV .a a 1] (if isVecDst d then dstV d 1 else dstS d) false fun _ m v =>
    let x := arg v 0
    let l := bestLane (fun i => rank (x.lane i).toNat) better (activeLanes m)
    { vals := [.u (BitVec.ofNat 32 l)]
      sc := if m = 0 then none else some (BitVec.ofNat 64 ((x.lane l).toNat * 2 ^ 32 + l))
      fl := 0 }

/-- `vargmax.f32` (R373). -/
def execVargmaxF32 (p : Pfx) (d a : Opnd) (s : State) : Res :=
  extremum p d a rankMax (fun x y => decide (y < x)) s

/-- `vargmin.f32` (R373). -/
def execVargminF32 (p : Pfx) (d a : Opnd) (s : State) : Res :=
  extremum p d a rankMin (fun x y => decide (x < y)) s

end Sys2Proof.Machine
end

