-- ==== Sys2Proof/Machine/SoftError.lean ====
section
/-! DEFINITION. Uncorrectable soft errors (R284, R286, R287, R290). -/

namespace Sys2Proof.Machine

/-- A fatal soft error of a context (R286, R290): the fatal record names its first weft. -/
def State.fatalSoft (s : State) (c : Nat) : State :=
  match s.wefts.find? fun w => w.ctx == c && !w.exited with
  | some w => s.fatal w .softerr w.em TInfo.none.word w.pc
  | none =>
    let x := s.ctx c
    if x.st = .free ∨ x.st = .tearing then s
    else (s.setCtx c { x with lasterr := BitVec.ofNat 8 (0x80 ||| Cause.softerr.code) }).beginTeardown c

/-- A soft error in the in-flight state of a weft: region restart, then SOFTERR INFLIGHT, or NESTED in a handler (R284,
R287). What a weft that has exited left in flight is discarded (R465). -/
def State.softInflight (s : State) (w : Weft) : State :=
  let info := { TInfo.none with reach := 2, nxt := true }.word
  if w.exited then s.discardOps w else (s.discardOps w).takeTrap w.regionRestart .softerr 0 info w.rgnpc

/-- The wefts that own an engine command: the issuing one, or every weft of the team of a collective, which every `shcopy` is (R286, R445). -/
def State.ownersOf (s : State) (c : EngCmd) : List Weft :=
  s.wefts.filter fun w => w.team == c.team && (c.op == 0 || (w.core == c.core && w.slot == c.slot))

/-- A command that no weft of the machine is left to own is abandoned (R465). -/
def State.dropOrphan (s : State) (id : Nat) : State :=
  match s.cmd? id with
  | some c => { s.abandonCmd c with cmds := s.cmds.filter fun d => d.id ≠ id }
  | none => s

/-- The same of a matrix command in a team's sequencer. -/
def State.dropOrphanMat (s : State) (id : Nat) : State :=
  s.teams.foldl (fun u t => match t.mcmds.find? fun m => m.id == id with
    | some m =>
      let v := u.returnToken t.id 1 m.tok
      (match v.team? t.id with | some x => v.setTeam { x with mcmds := x.mcmds.filter fun y => y.id ≠ id } | none => v)
    | none => u) s

/-- A soft error in the state of an engine command (R286, R465): its owners start their regions again, and the command is abandoned. -/
def State.softEngine (s : State) (id : Nat) : State :=
  match s.cmd? id with
  | some c =>
    if c.op = 6 then s.setCmd { c with status := 0x12 }
    else ((s.ownersOf c).foldl (fun t w => t.softInflight w) s).dropOrphan id
  | none =>
    let own := s.wefts.filter fun w => s.teams.any fun t => t.id == w.team && t.mcmds.any fun m => m.id == id && m.slot == w.slot
    (own.foldl (fun t w => t.softInflight w) s).dropOrphanMat id

/-- Poison the unit at a key (R63, R286). -/
def State.poison (s : State) (k : Nat) : State :=
  let u := k / poisUnit k * poisUnit k
  if u ∈ s.pois then s else { s with pois := s.pois ++ [u] }

/-- A translation structure of a channel drops what it holds, which is walked again (R286, R54). -/
def State.softTranslation (s : State) (chan : Nat) : State :=
  let mine := s.holds.filter fun h => h.chan == chan
  let s1 := { s with tlb := s.tlb.filter fun t => t.chan ≠ chan, wcache := s.wcache.filter fun w => w.chan ≠ chan }
  (distinct (mine.map (·.ctx))).foldl (fun t c => t.rewalk c fun u => mine.any fun h => h.ctx == c && h.unit == u) s1

/-- SOFT_ERROR (R286): a corrected error is counted in the management error log. -/
def execSoftError (place : SoftPlace) (s : State) : Res :=
  .next (if !s.up then s
  else match place with
    | .sreg core slot n =>
      (match s.weft? core slot with
        | some w => s.setWeft { w with sregs := modAt w.sregs n fun (r : SReg) => { r with pois := true } }
        | none => s)
    | .vreg core slot n =>
      (match s.weft? core slot with
        | some w => s.setWeft { w with vregs := modAt w.vregs n fun (r : VReg) => { r with pois := true } }
        | none => s)
    | .control core slot =>
      (match s.weft? core slot with | some w => s.fatal w .softerr w.em TInfo.none.word w.pc | none => s)
    | .queue team => (match s.team? team with | some t => s.fatalSoft t.ctx | none => s)
    | .inflight core slot => (match s.weft? core slot with | some w => s.softInflight w | none => s)
    | .engine id => s.softEngine id
    | .spad key => s.poison key
    | .icache core =>
      { s with icache := s.icache.filter fun l => l.core ≠ core }.emit (.log "corrected: instruction cache" (s.boot.placeOf core))
    | .translation chan => (s.softTranslation chan).emit (.log "corrected: translation" (chanPlace chan))
    | .ctrl ctx => s.fatalSoft ctx
    | .tags ctxs => ctxs.foldl State.fatalSoft s
    | .line key => s.poison key
    | .stageQueue pipe k i =>
      { s with pipes := s.pipes.map fun (p : Pipe) =>
          if p.id = pipe ∧ i < (p.queues.getD k []).length ∧ (k, i) ∉ p.qpois then { p with qpois := (k, i) :: p.qpois } else p }
    | .corrected place => s.emit (.log "corrected: array" place))

end Sys2Proof.Machine
end

