-- ==== Sys2Proof/Machine/Dispatch.lean ====
section
/-! DEFINITION. One arm per instruction and step: each is one call of its own meaning. -/

namespace Sys2Proof.Machine

def exec (i : Instr) (s : State) : Host.Outcome State Fault Refusal :=
  match i with
  | .bootStart => Sys2Proof.Machine.execBootStart s
  | .bootRom => Sys2Proof.Machine.execBootRom s
  | .brchk => Sys2Proof.Machine.execBrchk s
  | .ident => Sys2Proof.Machine.execIdent s
  | .fwload => Sys2Proof.Machine.execFwload s
  | .dies => Sys2Proof.Machine.execDies s
  | .meminit => Sys2Proof.Machine.execMeminit s
  | .ready => Sys2Proof.Machine.execReady s
  | .pcieLinkTraining width rate cxl => Sys2Proof.Machine.execPcieLinkTraining width rate cxl s
  | .configRequest bar0 => Sys2Proof.Machine.execConfigRequest bar0 s
  | .perst => Sys2Proof.Machine.execPerst s
  | .perstRelease => Sys2Proof.Machine.execPerstRelease s
  | .pfail => Sys2Proof.Machine.execPfail s
  | .railFault rail => Sys2Proof.Machine.execRailFault rail s
  | .hamperAcceptanceClose => Sys2Proof.Machine.execHamperAcceptanceClose s
  | .hamperDrained => Sys2Proof.Machine.execHamperDrained s
  | .sealRecordWrite => Sys2Proof.Machine.execSealRecordWrite s
  | .level2Save => Sys2Proof.Machine.execLevel2Save s
  | .vauxLoss => Sys2Proof.Machine.execVauxLoss s
  | .pstepAccept v => Sys2Proof.Machine.execPstepAccept v s
  | .controlInterval m => Sys2Proof.Machine.execControlInterval m s
  | .thermalTripRelease m => Sys2Proof.Machine.execThermalTripRelease m s
  | .stepLeave => Sys2Proof.Machine.execStepLeave s
  | .opGlideComplete rail => Sys2Proof.Machine.execOpGlideComplete rail s
  | .droopDetect cluster => Sys2Proof.Machine.execDroopDetect cluster s
  | .capWrite off v => Sys2Proof.Machine.execCapWrite off v s
  | .registerWrite port off size v => Sys2Proof.Machine.execRegisterWrite port off size v s
  | .pkgidWrite v => Sys2Proof.Machine.execPkgidWrite v s
  | .doorbell c q w => Sys2Proof.Machine.execDoorbell c q w s
  | .recordFetch c q => Sys2Proof.Machine.execRecordFetch c q s
  | .errClear c q v => Sys2Proof.Machine.execErrClear c q v s
  | .context0Create => Sys2Proof.Machine.execContext0Create s
  | .fqReadIndex c v => Sys2Proof.Machine.execFqReadIndex c v s
  | .quoteGo => Sys2Proof.Machine.execQuoteGo s
  | .imbQuoteGo => Sys2Proof.Machine.execImbQuoteGo s
  | .quoteDone => Sys2Proof.Machine.execQuoteDone s
  | .alertClear v => Sys2Proof.Machine.execAlertClear v s
  | .i3cDynamicAddressAssignment a => Sys2Proof.Machine.execI3cDynamicAddressAssignment a s
  | .i3cEventEnable on => Sys2Proof.Machine.execI3cEventEnable on s
  | .i3cReset => Sys2Proof.Machine.execI3cReset s
  | .launch c q => Sys2Proof.Machine.execLaunch c q s
  | .copy c q => Sys2Proof.Machine.execCopy c q s
  | .signal c q => Sys2Proof.Machine.execSignal c q s
  | .waitv c q => Sys2Proof.Machine.execWaitv c q s
  | .waitvRetest c q => Sys2Proof.Machine.execWaitvRetest c q s
  | .map c q => Sys2Proof.Machine.execMap c q s
  | .unmap c q => Sys2Proof.Machine.execUnmap c q s
  | .ctxCreate c q => Sys2Proof.Machine.execCtxCreate c q s
  | .ctxDestroy c q => Sys2Proof.Machine.execCtxDestroy c q s
  | .ctxPreempt c q => Sys2Proof.Machine.execCtxPreempt c q s
  | .ctxResume c q => Sys2Proof.Machine.execCtxResume c q s
  | .phase c q => Sys2Proof.Machine.execPhase c q s
  | .stepLoad c q => Sys2Proof.Machine.execStepLoad c q s
  | .stepStart c q => Sys2Proof.Machine.execStepStart c q s
  | .stepStop c q => Sys2Proof.Machine.execStepStop c q s
  | .snapDefineRegion c q => Sys2Proof.Machine.execSnapDefineRegion c q s
  | .snapReleaseRegion c q => Sys2Proof.Machine.execSnapReleaseRegion c q s
  | .snapAwaitStep c q => Sys2Proof.Machine.execSnapAwaitStep c q s
  | .mendDeclareGroup c q => Sys2Proof.Machine.execMendDeclareGroup c q s
  | .mendRebuild c q f placed => Sys2Proof.Machine.execMendRebuild c q f placed s
  | .mendGroupRollback c q => Sys2Proof.Machine.execMendGroupRollback c q s
  | .resume c q => Sys2Proof.Machine.execResume c q s
  | .deferredFaultEvent core slot => Sys2Proof.Machine.execDeferredFaultEvent core slot s
  | .accessAnswer id ch perform => Sys2Proof.Machine.execAccessAnswer id ch perform s
  | .combineIdleFlush core imm => Sys2Proof.Machine.execCombineIdleFlush core imm s
  | .fabricRequest r => Sys2Proof.Machine.execFabricRequest r s
  | .fabricResponse pid r => Sys2Proof.Machine.execFabricResponse pid r s
  | .fabricTimeout pid => Sys2Proof.Machine.execFabricTimeout pid s
  | .fabricEvent core slot => Sys2Proof.Machine.execFabricEvent core slot s
  | .planeSilenceTimeout plane => Sys2Proof.Machine.execPlaneSilenceTimeout plane s
  | .switchPortFailed plane => Sys2Proof.Machine.execSwitchPortFailed plane s
  | .switchReachabilityReport peer planes => Sys2Proof.Machine.execSwitchReachabilityReport peer planes s
  | .fabricLinkTrained plane sport => Sys2Proof.Machine.execFabricLinkTrained plane sport s
  | .starvationForce port tier => Sys2Proof.Machine.execStarvationForce port tier s
  | .hamperWriteback stack => Sys2Proof.Machine.execHamperWriteback stack s
  | .patrolScrub chan => Sys2Proof.Machine.execPatrolScrub chan s
  | .hbmRefresh chan bank busy => Sys2Proof.Machine.execHbmRefresh chan bank busy s
  | .alertBackoff chan bank => Sys2Proof.Machine.execAlertBackoff chan bank s
  | .teamPlace die => Sys2Proof.Machine.execTeamPlace die s
  | .pipelineStart ctx pipe => Sys2Proof.Machine.execPipelineStart ctx pipe s
  | .teamRetire id => Sys2Proof.Machine.execTeamRetire id s
  | .timeSliceExpiry ctx serial => Sys2Proof.Machine.execTimeSliceExpiry ctx serial s
  | .preemptAutoResume c => Sys2Proof.Machine.execPreemptAutoResume c s
  | .contextSave c => Sys2Proof.Machine.execContextSave c s
  | .pdlExpiry core slot => Sys2Proof.Machine.execPdlExpiry core slot s
  | .teardownComplete c => Sys2Proof.Machine.execTeardownComplete c s
  | .softError place => Sys2Proof.Machine.execSoftError place s
  | .sleepExpiry core slot => Sys2Proof.Machine.execSleepExpiry core slot s
  | .swaitPoll core slot => Sys2Proof.Machine.execSwaitPoll core slot s
  | .shuttleStart id => Sys2Proof.Machine.execShuttleStart id s
  | .shcopyCollectiveStart team n => Sys2Proof.Machine.execShcopyCollectiveStart team n s
  | .sectorPerformed id sector => Sys2Proof.Machine.execSectorPerformed id sector s
  | .shuttleComplete id => Sys2Proof.Machine.execShuttleComplete id s
  | .matrixKstep team => Sys2Proof.Machine.execMatrixKstep team s
  | .matrixComplete team => Sys2Proof.Machine.execMatrixComplete team s
  | .nmvComplete id => Sys2Proof.Machine.execNmvComplete id s
  | .itineraryDispatch => Sys2Proof.Machine.execItineraryDispatch s
  | .sync => Sys2Proof.Machine.execSync s
  | .stepend => Sys2Proof.Machine.execStepend s
  | .stependAck die => Sys2Proof.Machine.execStependAck die s
  | .controlBlockReread => Sys2Proof.Machine.execControlBlockReread s
  | .stallReport => Sys2Proof.Machine.execStallReport s
  | .stepCommit => Sys2Proof.Machine.execStepCommit s
  | .encodeStep => Sys2Proof.Machine.execEncodeStep s
  | .doneMessage peer n job => Sys2Proof.Machine.execDoneMessage peer n job s
  | .heartbeatSend => Sys2Proof.Machine.execHeartbeatSend s
  | .memberLoss peer => Sys2Proof.Machine.execMemberLoss peer s
  | .backfillComplete => Sys2Proof.Machine.execBackfillComplete s
  | .attach c => Sys2Proof.Machine.execAttach c s
  | .detach => Sys2Proof.Machine.execDetach s
  | .debugHalt t => Sys2Proof.Machine.execDebugHalt t s
  | .run t => Sys2Proof.Machine.execRun t s
  | .debugStep core slot => Sys2Proof.Machine.execDebugStep core slot s
  | .release t => Sys2Proof.Machine.execRelease t s
  | .debugRead core slot w => Sys2Proof.Machine.execDebugRead core slot w s
  | .debugWrite core slot w v => Sys2Proof.Machine.execDebugWrite core slot w v s
  | .rationCycleEnd cluster => Sys2Proof.Machine.execRationCycleEnd cluster s
  | .i3cPrivateRead n => Sys2Proof.Machine.execI3cPrivateRead n s
  | .nop p => Sys2Proof.Machine.execNop p s
  | .brk p b => Sys2Proof.Machine.execBrk p b s
  | .exit p => Sys2Proof.Machine.execExit p s
  | .tret p => Sys2Proof.Machine.execTret p s
  | .yield p => Sys2Proof.Machine.execYield p s
  | .trig p => Sys2Proof.Machine.execTrig p s
  | .rgn p => Sys2Proof.Machine.execRgn p s
  | .ifence p => Sys2Proof.Machine.execIfence p s
  | .win p b => Sys2Proof.Machine.execWin p b s
  | .sleep p a => Sys2Proof.Machine.execSleep p a s
  | .getsr p d b => Sys2Proof.Machine.execGetsr p d b s
  | .setsr p a b => Sys2Proof.Machine.execSetsr p a b s
  | .trap p imm => Sys2Proof.Machine.execTrap p imm s
  | .sadd p d a b => Sys2Proof.Machine.execSadd p d a b s
  | .ssub p d a b => Sys2Proof.Machine.execSsub p d a b s
  | .smul p d a b => Sys2Proof.Machine.execSmul p d a b s
  | .smulhi p d a b => Sys2Proof.Machine.execSmulhi p d a b s
  | .smulhn p d a b => Sys2Proof.Machine.execSmulhn p d a b s
  | .sand p d a b => Sys2Proof.Machine.execSand p d a b s
  | .sor p d a b => Sys2Proof.Machine.execSor p d a b s
  | .sxor p d a b => Sys2Proof.Machine.execSxor p d a b s
  | .sandn p d a b => Sys2Proof.Machine.execSandn p d a b s
  | .sshl p d a b => Sys2Proof.Machine.execSshl p d a b s
  | .sshr p d a b => Sys2Proof.Machine.execSshr p d a b s
  | .ssra p d a b => Sys2Proof.Machine.execSsra p d a b s
  | .smin p d a b => Sys2Proof.Machine.execSmin p d a b s
  | .smax p d a b => Sys2Proof.Machine.execSmax p d a b s
  | .sminn p d a b => Sys2Proof.Machine.execSminn p d a b s
  | .smaxn p d a b => Sys2Proof.Machine.execSmaxn p d a b s
  | .sclz p d a => Sys2Proof.Machine.execSclz p d a s
  | .spopc p d a => Sys2Proof.Machine.execSpopc p d a s
  | .sffs p d a => Sys2Proof.Machine.execSffs p d a s
  | .sbrev p d a => Sys2Proof.Machine.execSbrev p d a s
  | .seq p d a b => Sys2Proof.Machine.execSeq p d a b s
  | .sne p d a b => Sys2Proof.Machine.execSne p d a b s
  | .slt p d a b => Sys2Proof.Machine.execSlt p d a b s
  | .sle p d a b => Sys2Proof.Machine.execSle p d a b s
  | .sltn p d a b => Sys2Proof.Machine.execSltn p d a b s
  | .slen p d a b => Sys2Proof.Machine.execSlen p d a b s
  | .saddi p d a imm => Sys2Proof.Machine.execSaddi p d a imm s
  | .sandi p d a imm => Sys2Proof.Machine.execSandi p d a imm s
  | .sori p d a imm => Sys2Proof.Machine.execSori p d a imm s
  | .sxori p d a imm => Sys2Proof.Machine.execSxori p d a imm s
  | .sli p d imm => Sys2Proof.Machine.execSli p d imm s
  | .vadd p d a b => Sys2Proof.Machine.execVadd p d a b s
  | .vsub p d a b => Sys2Proof.Machine.execVsub p d a b s
  | .vmul p d a b => Sys2Proof.Machine.execVmul p d a b s
  | .vmulhi p d a b => Sys2Proof.Machine.execVmulhi p d a b s
  | .vmulhn p d a b => Sys2Proof.Machine.execVmulhn p d a b s
  | .vmad p d a b => Sys2Proof.Machine.execVmad p d a b s
  | .vand p d a b => Sys2Proof.Machine.execVand p d a b s
  | .vor p d a b => Sys2Proof.Machine.execVor p d a b s
  | .vxor p d a b => Sys2Proof.Machine.execVxor p d a b s
  | .vandn p d a b => Sys2Proof.Machine.execVandn p d a b s
  | .vshl p d a b => Sys2Proof.Machine.execVshl p d a b s
  | .vshr p d a b => Sys2Proof.Machine.execVshr p d a b s
  | .vsra p d a b => Sys2Proof.Machine.execVsra p d a b s
  | .vmin p d a b => Sys2Proof.Machine.execVmin p d a b s
  | .vmax p d a b => Sys2Proof.Machine.execVmax p d a b s
  | .vminn p d a b => Sys2Proof.Machine.execVminn p d a b s
  | .vmaxn p d a b => Sys2Proof.Machine.execVmaxn p d a b s
  | .vabs p d a => Sys2Proof.Machine.execVabs p d a s
  | .vabsd p d a b => Sys2Proof.Machine.execVabsd p d a b s
  | .vsadd p d a b => Sys2Proof.Machine.execVsadd p d a b s
  | .vssub p d a b => Sys2Proof.Machine.execVssub p d a b s
  | .vsaddn p d a b => Sys2Proof.Machine.execVsaddn p d a b s
  | .vssubn p d a b => Sys2Proof.Machine.execVssubn p d a b s
  | .vclz p d a => Sys2Proof.Machine.execVclz p d a s
  | .vpopc p d a => Sys2Proof.Machine.execVpopc p d a s
  | .vbrev p d a => Sys2Proof.Machine.execVbrev p d a s
  | .vbfe p d a b => Sys2Proof.Machine.execVbfe p d a b s
  | .vbfes p d a b => Sys2Proof.Machine.execVbfes p d a b s
  | .vbfi p d a b => Sys2Proof.Machine.execVbfi p d a b s
  | .vaddw p d a b => Sys2Proof.Machine.execVaddw p d a b s
  | .vsubw p d a b => Sys2Proof.Machine.execVsubw p d a b s
  | .vaddi p d a imm => Sys2Proof.Machine.execVaddi p d a imm s
  | .vandi p d a imm => Sys2Proof.Machine.execVandi p d a imm s
  | .vshli p d a imm => Sys2Proof.Machine.execVshli p d a imm s
  | .vshri p d a imm => Sys2Proof.Machine.execVshri p d a imm s
  | .vsrai p d a imm => Sys2Proof.Machine.execVsrai p d a imm s
  | .vmuli p d a imm => Sys2Proof.Machine.execVmuli p d a imm s
  | .vcmp p d a b c t => Sys2Proof.Machine.execVcmp p d a b c t s
  | .vcmph p d a b c t => Sys2Proof.Machine.execVcmph p d a b c t s
  | .fadd p d a b => Sys2Proof.Machine.execFadd p d a b s
  | .fsub p d a b => Sys2Proof.Machine.execFsub p d a b s
  | .fmul p d a b => Sys2Proof.Machine.execFmul p d a b s
  | .ffma p d a b => Sys2Proof.Machine.execFfma p d a b s
  | .ffms p d a b => Sys2Proof.Machine.execFfms p d a b s
  | .fnma p d a b => Sys2Proof.Machine.execFnma p d a b s
  | .fnms p d a b => Sys2Proof.Machine.execFnms p d a b s
  | .fmin p d a b => Sys2Proof.Machine.execFmin p d a b s
  | .fmax p d a b => Sys2Proof.Machine.execFmax p d a b s
  | .fminn p d a b => Sys2Proof.Machine.execFminn p d a b s
  | .fmaxn p d a b => Sys2Proof.Machine.execFmaxn p d a b s
  | .fabs p d a => Sys2Proof.Machine.execFabs p d a s
  | .fneg p d a => Sys2Proof.Machine.execFneg p d a s
  | .fcpys p d a b => Sys2Proof.Machine.execFcpys p d a b s
  | .fdiv p d a b => Sys2Proof.Machine.execFdiv p d a b s
  | .fsqrt p d a => Sys2Proof.Machine.execFsqrt p d a s
  | .frcp p d a => Sys2Proof.Machine.execFrcp p d a s
  | .frsq p d a => Sys2Proof.Machine.execFrsq p d a s
  | .fexp2 p d a => Sys2Proof.Machine.execFexp2 p d a s
  | .flog2 p d a => Sys2Proof.Machine.execFlog2 p d a s
  | .fsin p d a => Sys2Proof.Machine.execFsin p d a s
  | .fcos p d a => Sys2Proof.Machine.execFcos p d a s
  | .ffloor p d a => Sys2Proof.Machine.execFfloor p d a s
  | .fceil p d a => Sys2Proof.Machine.execFceil p d a s
  | .ftrunc p d a => Sys2Proof.Machine.execFtrunc p d a s
  | .frint p d a => Sys2Proof.Machine.execFrint p d a s
  | .fscale p d a b => Sys2Proof.Machine.execFscale p d a b s
  | .fclass p d a => Sys2Proof.Machine.execFclass p d a s
  | .hadd p d a b p1 => Sys2Proof.Machine.execHadd p d a b p1 s
  | .hsub p d a b p1 => Sys2Proof.Machine.execHsub p d a b p1 s
  | .hmul p d a b p1 => Sys2Proof.Machine.execHmul p d a b p1 s
  | .hfma p d a b p1 => Sys2Proof.Machine.execHfma p d a b p1 s
  | .hmin p d a b p1 => Sys2Proof.Machine.execHmin p d a b p1 s
  | .hmax p d a b p1 => Sys2Proof.Machine.execHmax p d a b p1 s
  | .hminn p d a b p1 => Sys2Proof.Machine.execHminn p d a b p1 s
  | .hmaxn p d a b p1 => Sys2Proof.Machine.execHmaxn p d a b p1 s
  | .habs p d a p1 => Sys2Proof.Machine.execHabs p d a p1 s
  | .hneg p d a p1 => Sys2Proof.Machine.execHneg p d a p1 s
  | .hdot2 p d a b p1 => Sys2Proof.Machine.execHdot2 p d a b p1 s
  | .hcpys p d a b p1 => Sys2Proof.Machine.execHcpys p d a b p1 s
  | .cvtF32I32 p d a => Sys2Proof.Machine.execCvtF32I32 p d a s
  | .cvtF32N32 p d a => Sys2Proof.Machine.execCvtF32N32 p d a s
  | .cvtI32F32 p d a => Sys2Proof.Machine.execCvtI32F32 p d a s
  | .cvtN32F32 p d a => Sys2Proof.Machine.execCvtN32F32 p d a s
  | .cvtF32F16 p d a b => Sys2Proof.Machine.execCvtF32F16 p d a b s
  | .cvtF32Bf16 p d a b => Sys2Proof.Machine.execCvtF32Bf16 p d a b s
  | .cvtF16x2F32 p d a b => Sys2Proof.Machine.execCvtF16x2F32 p d a b s
  | .cvtBf16x2F32 p d a b => Sys2Proof.Machine.execCvtBf16x2F32 p d a b s
  | .cvtE4m3F32 p d a b => Sys2Proof.Machine.execCvtE4m3F32 p d a b s
  | .cvtE5m2F32 p d a b => Sys2Proof.Machine.execCvtE5m2F32 p d a b s
  | .cvtF32E4m3 p d a b => Sys2Proof.Machine.execCvtF32E4m3 p d a b s
  | .cvtF32E5m2 p d a b => Sys2Proof.Machine.execCvtF32E5m2 p d a b s
  | .cvtE2m1F32 p d a b => Sys2Proof.Machine.execCvtE2m1F32 p d a b s
  | .cvtF32E2m1 p d a b => Sys2Proof.Machine.execCvtF32E2m1 p d a b s
  | .cvtI8F32 p d a b => Sys2Proof.Machine.execCvtI8F32 p d a b s
  | .cvtF32I8 p d a b => Sys2Proof.Machine.execCvtF32I8 p d a b s
  | .cvtE8m0F32 p d a => Sys2Proof.Machine.execCvtE8m0F32 p d a s
  | .cvtF32E8m0 p d a b => Sys2Proof.Machine.execCvtF32E8m0 p d a b s
  | .cvtF32N8 p d a b => Sys2Proof.Machine.execCvtF32N8 p d a b s
  | .vmov p d a => Sys2Proof.Machine.execVmov p d a s
  | .vbcast p d a b => Sys2Proof.Machine.execVbcast p d a b s
  | .vlget p d a b => Sys2Proof.Machine.execVlget p d a b s
  | .vlset p d a b => Sys2Proof.Machine.execVlset p d a b s
  | .vshape p d a => Sys2Proof.Machine.execVshape p d a s
  | .vaffine p d a b => Sys2Proof.Machine.execVaffine p d a b s
  | .vperm p d a b => Sys2Proof.Machine.execVperm p d a b s
  | .vshup p d a b => Sys2Proof.Machine.execVshup p d a b s
  | .vshdn p d a b => Sys2Proof.Machine.execVshdn p d a b s
  | .vshxor p d a b => Sys2Proof.Machine.execVshxor p d a b s
  | .vballot p d a => Sys2Proof.Machine.execVballot p d a s
  | .vbits p d a b => Sys2Proof.Machine.execVbits p d a b s
  | .vredAddI32 p d a => Sys2Proof.Machine.execVredAddI32 p d a s
  | .vredAddF32 p d a => Sys2Proof.Machine.execVredAddF32 p d a s
  | .vredMinI32 p d a => Sys2Proof.Machine.execVredMinI32 p d a s
  | .vredMaxI32 p d a => Sys2Proof.Machine.execVredMaxI32 p d a s
  | .vredMinF32 p d a => Sys2Proof.Machine.execVredMinF32 p d a s
  | .vredMaxF32 p d a => Sys2Proof.Machine.execVredMaxF32 p d a s
  | .vredAnd p d a => Sys2Proof.Machine.execVredAnd p d a s
  | .vredOr p d a => Sys2Proof.Machine.execVredOr p d a s
  | .vredXor p d a => Sys2Proof.Machine.execVredXor p d a s
  | .vscanAddI32 p d a => Sys2Proof.Machine.execVscanAddI32 p d a s
  | .vscanAddF32 p d a => Sys2Proof.Machine.execVscanAddF32 p d a s
  | .vargmaxF32 p d a => Sys2Proof.Machine.execVargmaxF32 p d a s
  | .vargminF32 p d a => Sys2Proof.Machine.execVargminF32 p d a s
  | .xset p d a => Sys2Proof.Machine.execXset p d a s
  | .xoff p d a => Sys2Proof.Machine.execXoff p d a s
  | .xget p d a => Sys2Proof.Machine.execXget p d a s
  | .xgetc p d a => Sys2Proof.Machine.execXgetc p d a s
  | .xadd p d a => Sys2Proof.Machine.execXadd p d a s
  | .xclr p d => Sys2Proof.Machine.execXclr p d s
  | .mif p d a => Sys2Proof.Machine.execMif p d a s
  | .melse p a => Sys2Proof.Machine.execMelse p a s
  | .mend p a => Sys2Proof.Machine.execMend p a s
  | .mset p a b => Sys2Proof.Machine.execMset p a b s
  | .mget p d b => Sys2Proof.Machine.execMget p d b s
  | .elect p d => Sys2Proof.Machine.execElect p d s
  | .mwhile p d a => Sys2Proof.Machine.execMwhile p d a s
  | .br p o => Sys2Proof.Machine.execBr p o s
  | .brz p r o => Sys2Proof.Machine.execBrz p r o s
  | .brnz p r o => Sys2Proof.Machine.execBrnz p r o s
  | .brem p o => Sys2Proof.Machine.execBrem p o s
  | .loop p r o => Sys2Proof.Machine.execLoop p r o s
  | .call p r o => Sys2Proof.Machine.execCall p r o s
  | .bru p r o => Sys2Proof.Machine.execBru p r o s
  | .jmp p a => Sys2Proof.Machine.execJmp p a s
  | .jmpv p a b => Sys2Proof.Machine.execJmpv p a b s
  | .callr p d a => Sys2Proof.Machine.execCallr p d a s
  | .ld p d a b k x sz => Sys2Proof.Machine.execLd p d a b k x sz s
  | .st p d a b k sz => Sys2Proof.Machine.execSt p d a b k sz s
  | .lds p d a b k x sz => Sys2Proof.Machine.execLds p d a b k x sz s
  | .sts p d a b k sz => Sys2Proof.Machine.execSts p d a b k sz s
  | .atomAddI32 p d a b => Sys2Proof.Machine.execAtomAddI32 p d a b s
  | .atomAddI64 p d a b => Sys2Proof.Machine.execAtomAddI64 p d a b s
  | .atomAddF32 p d a b => Sys2Proof.Machine.execAtomAddF32 p d a b s
  | .atomMinI32 p d a b => Sys2Proof.Machine.execAtomMinI32 p d a b s
  | .atomMaxI32 p d a b => Sys2Proof.Machine.execAtomMaxI32 p d a b s
  | .atomMinN32 p d a b => Sys2Proof.Machine.execAtomMinN32 p d a b s
  | .atomMaxN32 p d a b => Sys2Proof.Machine.execAtomMaxN32 p d a b s
  | .atomMinN64 p d a b => Sys2Proof.Machine.execAtomMinN64 p d a b s
  | .atomMaxN64 p d a b => Sys2Proof.Machine.execAtomMaxN64 p d a b s
  | .atomAndB32 p d a b => Sys2Proof.Machine.execAtomAndB32 p d a b s
  | .atomOrB32 p d a b => Sys2Proof.Machine.execAtomOrB32 p d a b s
  | .atomXorB32 p d a b => Sys2Proof.Machine.execAtomXorB32 p d a b s
  | .atomXchgB32 p d a b => Sys2Proof.Machine.execAtomXchgB32 p d a b s
  | .atomXchgB64 p d a b => Sys2Proof.Machine.execAtomXchgB64 p d a b s
  | .atomCasB32 p d a => Sys2Proof.Machine.execAtomCasB32 p d a s
  | .atomCasB64 p d a => Sys2Proof.Machine.execAtomCasB64 p d a s
  | .atomFminF32 p d a b => Sys2Proof.Machine.execAtomFminF32 p d a b s
  | .atomFmaxF32 p d a b => Sys2Proof.Machine.execAtomFmaxF32 p d a b s
  | .atomAddBf16x2 p d a b => Sys2Proof.Machine.execAtomAddBf16x2 p d a b s
  | .atomsAddI32 p d a b => Sys2Proof.Machine.execAtomsAddI32 p d a b s
  | .atomsAddI64 p d a b => Sys2Proof.Machine.execAtomsAddI64 p d a b s
  | .atomsAddF32 p d a b => Sys2Proof.Machine.execAtomsAddF32 p d a b s
  | .atomsMinI32 p d a b => Sys2Proof.Machine.execAtomsMinI32 p d a b s
  | .atomsMaxI32 p d a b => Sys2Proof.Machine.execAtomsMaxI32 p d a b s
  | .atomsMinN32 p d a b => Sys2Proof.Machine.execAtomsMinN32 p d a b s
  | .atomsMaxN32 p d a b => Sys2Proof.Machine.execAtomsMaxN32 p d a b s
  | .atomsMinN64 p d a b => Sys2Proof.Machine.execAtomsMinN64 p d a b s
  | .atomsMaxN64 p d a b => Sys2Proof.Machine.execAtomsMaxN64 p d a b s
  | .atomsAndB32 p d a b => Sys2Proof.Machine.execAtomsAndB32 p d a b s
  | .atomsOrB32 p d a b => Sys2Proof.Machine.execAtomsOrB32 p d a b s
  | .atomsXorB32 p d a b => Sys2Proof.Machine.execAtomsXorB32 p d a b s
  | .atomsXchgB32 p d a b => Sys2Proof.Machine.execAtomsXchgB32 p d a b s
  | .atomsXchgB64 p d a b => Sys2Proof.Machine.execAtomsXchgB64 p d a b s
  | .atomsCasB32 p d a => Sys2Proof.Machine.execAtomsCasB32 p d a s
  | .atomsCasB64 p d a => Sys2Proof.Machine.execAtomsCasB64 p d a s
  | .atomsFminF32 p d a b => Sys2Proof.Machine.execAtomsFminF32 p d a b s
  | .atomsFmaxF32 p d a b => Sys2Proof.Machine.execAtomsFmaxF32 p d a b s
  | .atomsAddBf16x2 p d a b => Sys2Proof.Machine.execAtomsAddBf16x2 p d a b s
  | .sigAdd p a b => Sys2Proof.Machine.execSigAdd p a b s
  | .sigSet p a b => Sys2Proof.Machine.execSigSet p a b s
  | .swaitGe p d a b => Sys2Proof.Machine.execSwaitGe p d a b s
  | .swaitEq p d a b => Sys2Proof.Machine.execSwaitEq p d a b s
  | .swaitNe p d a b => Sys2Proof.Machine.execSwaitNe p d a b s
  | .fence p k c => Sys2Proof.Machine.execFence p k c s
  | .pbarPkg p => Sys2Proof.Machine.execPbarPkg p s
  | .pbarMend p => Sys2Proof.Machine.execPbarMend p s
  | .pflush p a b => Sys2Proof.Machine.execPflush p a b s
  | .stepmark p d b => Sys2Proof.Machine.execStepmark p d b s
  | .stepq p d b => Sys2Proof.Machine.execStepq p d b s
  | .shcopy p d a => Sys2Proof.Machine.execShcopy p d a s
  | .shtile p d a => Sys2Proof.Machine.execShtile p d a s
  | .shgath p d a b => Sys2Proof.Machine.execShgath p d a b s
  | .shscat p d a b => Sys2Proof.Machine.execShscat p d a b s
  | .shfill p d a => Sys2Proof.Machine.execShfill p d a s
  | .kinit p a b => Sys2Proof.Machine.execKinit p a b s
  | .karrive p a => Sys2Proof.Machine.execKarrive p a s
  | .kexpect p a b => Sys2Proof.Machine.execKexpect p a b s
  | .kwait p d a b => Sys2Proof.Machine.execKwait p d a b s
  | .ktest p d a => Sys2Proof.Machine.execKtest p d a s
  | .kinval p a => Sys2Proof.Machine.execKinval p a s
  | .waitc p a b => Sys2Proof.Machine.execWaitc p a b s
  | .waitq p a b => Sys2Proof.Machine.execWaitq p a b s
  | .waitall p => Sys2Proof.Machine.execWaitall p s
  | .mcfg p a => Sys2Proof.Machine.execMcfg p a s
  | .mzero p d a => Sys2Proof.Machine.execMzero p d a s
  | .mloop p d a => Sys2Proof.Machine.execMloop p d a s
  | .mstep p d a => Sys2Proof.Machine.execMstep p d a s
  | .mcvt p d a => Sys2Proof.Machine.execMcvt p d a s
  | .mscal p d a => Sys2Proof.Machine.execMscal p d a s
  | .nmv p d a => Sys2Proof.Machine.execNmv p d a s
  | .nmvcfg p a => Sys2Proof.Machine.execNmvcfg p a s
  | .itnNext p d => Sys2Proof.Machine.execItnNext p d s
  | .itnDone p => Sys2Proof.Machine.execItnDone p s
  | .itnStash p d a => Sys2Proof.Machine.execItnStash p d a s
  | .itnFree p a => Sys2Proof.Machine.execItnFree p a s
  | .itnPost p d => Sys2Proof.Machine.execItnPost p d s
  | .itnStat p d b => Sys2Proof.Machine.execItnStat p d b s
  | .lnch p d a => Sys2Proof.Machine.execLnch p d a s
  | .lnchDep p d a b => Sys2Proof.Machine.execLnchDep p d a b s
  | .lnchq p d a => Sys2Proof.Machine.execLnchq p d a s
  | .barTeam p b => Sys2Proof.Machine.execBarTeam p b s
  | .barRole p => Sys2Proof.Machine.execBarRole p s
  | .barArrive p b => Sys2Proof.Machine.execBarArrive p b s
  | .barWait p b => Sys2Proof.Machine.execBarWait p b s
  | .qtry p d a b => Sys2Proof.Machine.execQtry p d a b s
  | .qcount p d a => Sys2Proof.Machine.execQcount p d a s
  | .qputtry p d a b => Sys2Proof.Machine.execQputtry p d a b s

end Sys2Proof.Machine
end

