-- ==== Sys2Proof/Machine/Fetch.lean ====
section
/-! DEFINITION. Fetching a group (R236, R299-R301): its words from the instruction cache, a missing line from its channel, and
what a group that is no instruction does (R314). -/

namespace Sys2Proof.Machine

/-- The bytes of a cached instruction line (R236). -/
def State.cachedLine (s : State) (w : Weft) (va : Nat) : Option (List Byte) :=
  (s.icache.find? fun l => l.core == w.core && l.ctx == w.ctx && l.va == va).map (·.bytes)

/-- The instruction line at a 128-byte boundary, entered into the cache when its channel gives it. None when the line lies in
the fabric window, faults or is poisoned, or an atomic of the core is to be performed there: it is then asked for by an access of its own (R52). The line has the bytes that the core has stored (R272). -/
def State.codeLine (s : State) (w : Weft) (va : Nat) : State × Option (List Byte) :=
  match s.cachedLine w va with
  | some bs => (s, some bs)
  | none =>
    let a := BitVec.ofNat 64 va
    if isFabric a then (s, none)
    else match s.translate w.ctx a .fetch 0 with
      | (.ok k cbf, s1) =>
        if s1.rpoisoned k 128 || s1.atomicAt w.core k 128 then (s, none)
        else
          let bs := s1.coreBytes w.core k 128
          ((if keyIsHbm k then s1.countLine k cbf else s1).fillLine w.core w.ctx va bs, some bs)
      | _ => (s, none)

/-- The word at a byte offset of a line, little-endian (R299). -/
def wordAt (bs : List Byte) (off : Nat) : W32 := BitVec.ofNat 32 (ofLeBytes ((bs.drop off).take 4))

/-- The word at an address: the state with its line cached, or the line that is missing. -/
def State.codeWord (s : State) (w : Weft) (va : Nat) : State × (W32 ⊕ Nat) :=
  match s.codeLine w (va / 128 * 128) with
  | (s1, some bs) => (s1, .inl (wordAt bs (va % 128)))
  | (s1, none) => (s1, .inr (va / 128 * 128))

/-- The group goes on after these words: behind an XG, or an XL that follows nothing or an XG (R299). -/
def groupOpen (ws : List W32) : Bool :=
  match ws with
  | [a] => majorOf a == 0x3F || majorOf a == 0x3E
  | [a, b] => majorOf a == 0x3F && majorOf b == 0x3E
  | _ => false

/-- Fetch the words of a group, at most `n` more; none past the end of the 4 KiB page (R301). -/
def State.fetchWords (s : State) (w : Weft) : Nat → Nat → List W32 → State × (List W32 ⊕ Nat)
  | 0, _, ws => (s, .inl ws)
  | n + 1, va, ws =>
    match s.codeWord w va with
    | (s1, .inr l) => (s1, .inr l)
    | (s1, .inl x) =>
      if groupOpen (ws ++ [x]) && (va + 4) % 4096 != 0 then s1.fetchWords w n (va + 4) (ws ++ [x])
      else (s1, .inl (ws ++ [x]))

/-- Fetch the group at a weft's program counter (R300): its words, or the line that is missing. -/
def State.fetchGroup (s : State) (w : Weft) : State × (List W32 ⊕ Nat) := s.fetchWords w 3 w.pc.toNat []

/-- Ask for an instruction line (R52, R236): the weft waits for it as for a load. -/
def State.startFetch (s : State) (w : Weft) (line : Nat) : State :=
  s.startAccess w
    { id := 0, core := w.core, slot := w.slot, ctx := w.ctx, pc := w.pc, next := w.pc, rstep := 0, kind := .fetch, size := 128
      signExt := false, scalar := true, dst := .discard, mask := w.em
      lanes := [{ lane := 0, ea := BitVec.ofNat 64 line, data := 0, swap := 0, st := .waiting }]
      settled := false, parked := false, replayed := false, nt := false, step := 0, cnt := none, gm := 0, heldBy := none
      acq := false, offs := [], op := 0, ord := none, split := false } none

/-- A group that is no instruction (R301, R314, R278): the cause and its DETAIL, with `em` as the lanes. -/
def State.decodeTrap (s : State) (w : Weft) (f : Fate) : State :=
  match f with
  | .illop d => s.trapF w .illop w.em { TInfo.none with detail := d }
  | .illopnd => s.trapF w .illopnd w.em TInfo.none
  | .queue => s.trapF w .queue w.em TInfo.none

end Sys2Proof.Machine
end

