-- ==== Sys2Proof/Machine/Step.lean ====
section
/-! DEFINITION. One step of the machine (assumption 4): the next event of the agenda; a step of a power-fail sequence or of
boot; the issue of one weft's next group; or the end of a cycle. -/

namespace Sys2Proof.Machine

/-- One weft's next group is fetched, decoded and executed (R280, R300). -/
noncomputable def issueWeft (w : Weft) (s : State) : Host.Outcome State Fault Refusal :=
  match { s with focus := (w.core, w.slot) }.fetchGroup w with
  | (s1, .inr line) => .next ((s1.startFetch w line).mark .waits)
  | (s1, .inl ws) =>
    match decodeGroup ws with
    | .instr i _ =>
      let p := issuePipe i
      if s1.pipesHeld w p || (p == some .memory && s1.fenced w) then .next (s1.mark .waits)
      else Res.andThen (exec i s1) (s1.after w p (w.effMask (groupPfx i)))
    | .fate f => .next (s1.after w none 0 (s1.decodeTrap w f))
    | .short => .next (s1.after w none 0 (s1.decodeTrap w (.illop 4)))

/-- One step. -/
noncomputable def step (s : State) : Host.Outcome State Fault Refusal :=
  match s.agenda with
  | i :: r => exec i { s with agenda := r }
  | [] =>
    if s.power.pf ≠ .idle then
      match s.power.nextStep with
      | some i => exec i s
      | none => .next s
    else if s.boot.st ≠ .ready then
      match s.boot.nextStep with
      | some i => exec i s
      | none => .next s
    else
      match s.nextWeft with
      | some w => issueWeft w s
      | none => .next s.endCycle

/-- The machine with an instruction stored where the next step fetches (assumption 7): its `nbits` bits `w`, and zeros up to
the longest group. -/
def State.withFetchWord (s : State) (nbits w : Nat) : State := s.arm (tableBytes nbits w)

end Sys2Proof.Machine
end

