-- ==== Sys2Proof/Laws/Dispatch.lean ====
section
/-! SUPPORT. Dispatch, one lemma per constructor: executing an instruction is its meaning. -/

namespace Sys2Proof.Machine

@[simp] theorem exec_bootStart (s : State) : exec (.bootStart) s = execBootStart s := rfl
@[simp] theorem exec_bootRom (s : State) : exec (.bootRom) s = execBootRom s := rfl
@[simp] theorem exec_brchk (s : State) : exec (.brchk) s = execBrchk s := rfl
@[simp] theorem exec_ident (s : State) : exec (.ident) s = execIdent s := rfl
@[simp] theorem exec_fwload (s : State) : exec (.fwload) s = execFwload s := rfl
@[simp] theorem exec_dies (s : State) : exec (.dies) s = execDies s := rfl
@[simp] theorem exec_meminit (s : State) : exec (.meminit) s = execMeminit s := rfl
@[simp] theorem exec_ready (s : State) : exec (.ready) s = execReady s := rfl
@[simp] theorem exec_pcieLinkTraining (width rate : Nat) (cxl : Bool) (s : State) : exec (.pcieLinkTraining width rate cxl) s = execPcieLinkTraining width rate cxl s := rfl
@[simp] theorem exec_configRequest (bar0 : Option (BitVec 64)) (s : State) : exec (.configRequest bar0) s = execConfigRequest bar0 s := rfl
@[simp] theorem exec_perst (s : State) : exec (.perst) s = execPerst s := rfl
@[simp] theorem exec_perstRelease (s : State) : exec (.perstRelease) s = execPerstRelease s := rfl
@[simp] theorem exec_pfail (s : State) : exec (.pfail) s = execPfail s := rfl
@[simp] theorem exec_railFault (rail : Nat) (s : State) : exec (.railFault rail) s = execRailFault rail s := rfl
@[simp] theorem exec_hamperAcceptanceClose (s : State) : exec (.hamperAcceptanceClose) s = execHamperAcceptanceClose s := rfl
@[simp] theorem exec_hamperDrained (s : State) : exec (.hamperDrained) s = execHamperDrained s := rfl
@[simp] theorem exec_sealRecordWrite (s : State) : exec (.sealRecordWrite) s = execSealRecordWrite s := rfl
@[simp] theorem exec_level2Save (s : State) : exec (.level2Save) s = execLevel2Save s := rfl
@[simp] theorem exec_vauxLoss (s : State) : exec (.vauxLoss) s = execVauxLoss s := rfl
@[simp] theorem exec_pstepAccept (v : BitVec 3) (s : State) : exec (.pstepAccept v) s = execPstepAccept v s := rfl
@[simp] theorem exec_controlInterval (m : Telemetry) (s : State) : exec (.controlInterval m) s = execControlInterval m s := rfl
@[simp] theorem exec_thermalTripRelease (m : Telemetry) (s : State) : exec (.thermalTripRelease m) s = execThermalTripRelease m s := rfl
@[simp] theorem exec_stepLeave (s : State) : exec (.stepLeave) s = execStepLeave s := rfl
@[simp] theorem exec_opGlideComplete (rail : Nat) (s : State) : exec (.opGlideComplete rail) s = execOpGlideComplete rail s := rfl
@[simp] theorem exec_droopDetect (cluster : Nat) (s : State) : exec (.droopDetect cluster) s = execDroopDetect cluster s := rfl
@[simp] theorem exec_capWrite (off : Nat) (v : BitVec 64) (s : State) : exec (.capWrite off v) s = execCapWrite off v s := rfl
@[simp] theorem exec_registerWrite (port : Port) (off size v : Nat) (s : State) : exec (.registerWrite port off size v) s = execRegisterWrite port off size v s := rfl
@[simp] theorem exec_pkgidWrite (v : BitVec 9) (s : State) : exec (.pkgidWrite v) s = execPkgidWrite v s := rfl
@[simp] theorem exec_doorbell (c q : Nat) (w : BitVec 32) (s : State) : exec (.doorbell c q w) s = execDoorbell c q w s := rfl
@[simp] theorem exec_recordFetch (c q : Nat) (s : State) : exec (.recordFetch c q) s = execRecordFetch c q s := rfl
@[simp] theorem exec_errClear (c q : Nat) (v : BitVec 8) (s : State) : exec (.errClear c q v) s = execErrClear c q v s := rfl
@[simp] theorem exec_context0Create (s : State) : exec (.context0Create) s = execContext0Create s := rfl
@[simp] theorem exec_fqReadIndex (c : Nat) (v : BitVec 32) (s : State) : exec (.fqReadIndex c v) s = execFqReadIndex c v s := rfl
@[simp] theorem exec_quoteGo (s : State) : exec (.quoteGo) s = execQuoteGo s := rfl
@[simp] theorem exec_imbQuoteGo (s : State) : exec (.imbQuoteGo) s = execImbQuoteGo s := rfl
@[simp] theorem exec_quoteDone (s : State) : exec (.quoteDone) s = execQuoteDone s := rfl
@[simp] theorem exec_alertClear (v : BitVec 64) (s : State) : exec (.alertClear v) s = execAlertClear v s := rfl
@[simp] theorem exec_i3cDynamicAddressAssignment (a : BitVec 7) (s : State) : exec (.i3cDynamicAddressAssignment a) s = execI3cDynamicAddressAssignment a s := rfl
@[simp] theorem exec_i3cEventEnable (on : Bool) (s : State) : exec (.i3cEventEnable on) s = execI3cEventEnable on s := rfl
@[simp] theorem exec_i3cReset (s : State) : exec (.i3cReset) s = execI3cReset s := rfl
@[simp] theorem exec_launch (c q : Nat) (s : State) : exec (.launch c q) s = execLaunch c q s := rfl
@[simp] theorem exec_copy (c q : Nat) (s : State) : exec (.copy c q) s = execCopy c q s := rfl
@[simp] theorem exec_signal (c q : Nat) (s : State) : exec (.signal c q) s = execSignal c q s := rfl
@[simp] theorem exec_waitv (c q : Nat) (s : State) : exec (.waitv c q) s = execWaitv c q s := rfl
@[simp] theorem exec_waitvRetest (c q : Nat) (s : State) : exec (.waitvRetest c q) s = execWaitvRetest c q s := rfl
@[simp] theorem exec_map (c q : Nat) (s : State) : exec (.map c q) s = execMap c q s := rfl
@[simp] theorem exec_unmap (c q : Nat) (s : State) : exec (.unmap c q) s = execUnmap c q s := rfl
@[simp] theorem exec_ctxCreate (c q : Nat) (s : State) : exec (.ctxCreate c q) s = execCtxCreate c q s := rfl
@[simp] theorem exec_ctxDestroy (c q : Nat) (s : State) : exec (.ctxDestroy c q) s = execCtxDestroy c q s := rfl
@[simp] theorem exec_ctxPreempt (c q : Nat) (s : State) : exec (.ctxPreempt c q) s = execCtxPreempt c q s := rfl
@[simp] theorem exec_ctxResume (c q : Nat) (s : State) : exec (.ctxResume c q) s = execCtxResume c q s := rfl
@[simp] theorem exec_phase (c q : Nat) (s : State) : exec (.phase c q) s = execPhase c q s := rfl
@[simp] theorem exec_stepLoad (c q : Nat) (s : State) : exec (.stepLoad c q) s = execStepLoad c q s := rfl
@[simp] theorem exec_stepStart (c q : Nat) (s : State) : exec (.stepStart c q) s = execStepStart c q s := rfl
@[simp] theorem exec_stepStop (c q : Nat) (s : State) : exec (.stepStop c q) s = execStepStop c q s := rfl
@[simp] theorem exec_snapDefineRegion (c q : Nat) (s : State) : exec (.snapDefineRegion c q) s = execSnapDefineRegion c q s := rfl
@[simp] theorem exec_snapReleaseRegion (c q : Nat) (s : State) : exec (.snapReleaseRegion c q) s = execSnapReleaseRegion c q s := rfl
@[simp] theorem exec_snapAwaitStep (c q : Nat) (s : State) : exec (.snapAwaitStep c q) s = execSnapAwaitStep c q s := rfl
@[simp] theorem exec_mendDeclareGroup (c q : Nat) (s : State) : exec (.mendDeclareGroup c q) s = execMendDeclareGroup c q s := rfl
@[simp] theorem exec_mendRebuild (c q f : Nat) (placed : Bool) (s : State) : exec (.mendRebuild c q f placed) s = execMendRebuild c q f placed s := rfl
@[simp] theorem exec_mendGroupRollback (c q : Nat) (s : State) : exec (.mendGroupRollback c q) s = execMendGroupRollback c q s := rfl
@[simp] theorem exec_resume (c q : Nat) (s : State) : exec (.resume c q) s = execResume c q s := rfl
@[simp] theorem exec_deferredFaultEvent (core slot : Nat) (s : State) : exec (.deferredFaultEvent core slot) s = execDeferredFaultEvent core slot s := rfl
@[simp] theorem exec_accessAnswer (id ch : Nat) (perform : Bool) (s : State) : exec (.accessAnswer id ch perform) s = execAccessAnswer id ch perform s := rfl
@[simp] theorem exec_combineIdleFlush (core imm : Nat) (s : State) : exec (.combineIdleFlush core imm) s = execCombineIdleFlush core imm s := rfl
@[simp] theorem exec_fabricRequest (r : FabReq) (s : State) : exec (.fabricRequest r) s = execFabricRequest r s := rfl
@[simp] theorem exec_fabricResponse (pid : Nat) (r : FabResult) (s : State) : exec (.fabricResponse pid r) s = execFabricResponse pid r s := rfl
@[simp] theorem exec_fabricTimeout (pid : Nat) (s : State) : exec (.fabricTimeout pid) s = execFabricTimeout pid s := rfl
@[simp] theorem exec_fabricEvent (core slot : Nat) (s : State) : exec (.fabricEvent core slot) s = execFabricEvent core slot s := rfl
@[simp] theorem exec_planeSilenceTimeout (plane : Nat) (s : State) : exec (.planeSilenceTimeout plane) s = execPlaneSilenceTimeout plane s := rfl
@[simp] theorem exec_switchPortFailed (plane : Nat) (s : State) : exec (.switchPortFailed plane) s = execSwitchPortFailed plane s := rfl
@[simp] theorem exec_switchReachabilityReport (peer : Nat) (planes : BitVec 36) (s : State) : exec (.switchReachabilityReport peer planes) s = execSwitchReachabilityReport peer planes s := rfl
@[simp] theorem exec_fabricLinkTrained (plane : Nat) (sport : BitVec 9) (s : State) : exec (.fabricLinkTrained plane sport) s = execFabricLinkTrained plane sport s := rfl
@[simp] theorem exec_starvationForce (port tier : Nat) (s : State) : exec (.starvationForce port tier) s = execStarvationForce port tier s := rfl
@[simp] theorem exec_hamperWriteback (stack : Nat) (s : State) : exec (.hamperWriteback stack) s = execHamperWriteback stack s := rfl
@[simp] theorem exec_patrolScrub (chan : Nat) (s : State) : exec (.patrolScrub chan) s = execPatrolScrub chan s := rfl
@[simp] theorem exec_hbmRefresh (chan bank : Nat) (busy : Bool) (s : State) : exec (.hbmRefresh chan bank busy) s = execHbmRefresh chan bank busy s := rfl
@[simp] theorem exec_alertBackoff (chan bank : Nat) (s : State) : exec (.alertBackoff chan bank) s = execAlertBackoff chan bank s := rfl
@[simp] theorem exec_teamPlace (die : Nat) (s : State) : exec (.teamPlace die) s = execTeamPlace die s := rfl
@[simp] theorem exec_pipelineStart (ctx : Nat) (pipe : BitVec 64) (s : State) : exec (.pipelineStart ctx pipe) s = execPipelineStart ctx pipe s := rfl
@[simp] theorem exec_teamRetire (id : Nat) (s : State) : exec (.teamRetire id) s = execTeamRetire id s := rfl
@[simp] theorem exec_timeSliceExpiry (ctx serial : Nat) (s : State) : exec (.timeSliceExpiry ctx serial) s = execTimeSliceExpiry ctx serial s := rfl
@[simp] theorem exec_preemptAutoResume (c : Nat) (s : State) : exec (.preemptAutoResume c) s = execPreemptAutoResume c s := rfl
@[simp] theorem exec_contextSave (c : Nat) (s : State) : exec (.contextSave c) s = execContextSave c s := rfl
@[simp] theorem exec_pdlExpiry (core slot : Nat) (s : State) : exec (.pdlExpiry core slot) s = execPdlExpiry core slot s := rfl
@[simp] theorem exec_teardownComplete (c : Nat) (s : State) : exec (.teardownComplete c) s = execTeardownComplete c s := rfl
@[simp] theorem exec_softError (place : SoftPlace) (s : State) : exec (.softError place) s = execSoftError place s := rfl
@[simp] theorem exec_sleepExpiry (core slot : Nat) (s : State) : exec (.sleepExpiry core slot) s = execSleepExpiry core slot s := rfl
@[simp] theorem exec_swaitPoll (core slot : Nat) (s : State) : exec (.swaitPoll core slot) s = execSwaitPoll core slot s := rfl
@[simp] theorem exec_shuttleStart (id : Nat) (s : State) : exec (.shuttleStart id) s = execShuttleStart id s := rfl
@[simp] theorem exec_shcopyCollectiveStart (team n : Nat) (s : State) : exec (.shcopyCollectiveStart team n) s = execShcopyCollectiveStart team n s := rfl
@[simp] theorem exec_sectorPerformed (id sector : Nat) (s : State) : exec (.sectorPerformed id sector) s = execSectorPerformed id sector s := rfl
@[simp] theorem exec_shuttleComplete (id : Nat) (s : State) : exec (.shuttleComplete id) s = execShuttleComplete id s := rfl
@[simp] theorem exec_matrixKstep (team : Nat) (s : State) : exec (.matrixKstep team) s = execMatrixKstep team s := rfl
@[simp] theorem exec_matrixComplete (team : Nat) (s : State) : exec (.matrixComplete team) s = execMatrixComplete team s := rfl
@[simp] theorem exec_nmvComplete (id : Nat) (s : State) : exec (.nmvComplete id) s = execNmvComplete id s := rfl
@[simp] theorem exec_itineraryDispatch (s : State) : exec (.itineraryDispatch) s = execItineraryDispatch s := rfl
@[simp] theorem exec_sync (s : State) : exec (.sync) s = execSync s := rfl
@[simp] theorem exec_stepend (s : State) : exec (.stepend) s = execStepend s := rfl
@[simp] theorem exec_stependAck (die : Nat) (s : State) : exec (.stependAck die) s = execStependAck die s := rfl
@[simp] theorem exec_controlBlockReread (s : State) : exec (.controlBlockReread) s = execControlBlockReread s := rfl
@[simp] theorem exec_stallReport (s : State) : exec (.stallReport) s = execStallReport s := rfl
@[simp] theorem exec_stepCommit (s : State) : exec (.stepCommit) s = execStepCommit s := rfl
@[simp] theorem exec_encodeStep (s : State) : exec (.encodeStep) s = execEncodeStep s := rfl
@[simp] theorem exec_doneMessage (peer n : Nat) (job : BitVec 16) (s : State) : exec (.doneMessage peer n job) s = execDoneMessage peer n job s := rfl
@[simp] theorem exec_heartbeatSend (s : State) : exec (.heartbeatSend) s = execHeartbeatSend s := rfl
@[simp] theorem exec_memberLoss (peer : Nat) (s : State) : exec (.memberLoss peer) s = execMemberLoss peer s := rfl
@[simp] theorem exec_backfillComplete (s : State) : exec (.backfillComplete) s = execBackfillComplete s := rfl
@[simp] theorem exec_attach (c : Nat) (s : State) : exec (.attach c) s = execAttach c s := rfl
@[simp] theorem exec_detach (s : State) : exec (.detach) s = execDetach s := rfl
@[simp] theorem exec_debugHalt (t : DebugTarget) (s : State) : exec (.debugHalt t) s = execDebugHalt t s := rfl
@[simp] theorem exec_run (t : DebugTarget) (s : State) : exec (.run t) s = execRun t s := rfl
@[simp] theorem exec_debugStep (core : DebugCore) (slot : Nat) (s : State) : exec (.debugStep core slot) s = execDebugStep core slot s := rfl
@[simp] theorem exec_release (t : DebugTarget) (s : State) : exec (.release t) s = execRelease t s := rfl
@[simp] theorem exec_debugRead (core : DebugCore) (slot : Nat) (w : DebugPlace) (s : State) : exec (.debugRead core slot w) s = execDebugRead core slot w s := rfl
@[simp] theorem exec_debugWrite (core : DebugCore) (slot : Nat) (w : DebugPlace) (v : BitVec 64) (s : State) : exec (.debugWrite core slot w v) s = execDebugWrite core slot w v s := rfl
@[simp] theorem exec_rationCycleEnd (cluster : Nat) (s : State) : exec (.rationCycleEnd cluster) s = execRationCycleEnd cluster s := rfl
@[simp] theorem exec_i3cPrivateRead (n : Nat) (s : State) : exec (.i3cPrivateRead n) s = execI3cPrivateRead n s := rfl
@[simp] theorem exec_nop (p : Pfx) (s : State) : exec (.nop p) s = execNop p s := rfl
@[simp] theorem exec_brk (p : Pfx) (b : BitVec 7) (s : State) : exec (.brk p b) s = execBrk p b s := rfl
@[simp] theorem exec_exit (p : Pfx) (s : State) : exec (.exit p) s = execExit p s := rfl
@[simp] theorem exec_tret (p : Pfx) (s : State) : exec (.tret p) s = execTret p s := rfl
@[simp] theorem exec_yield (p : Pfx) (s : State) : exec (.yield p) s = execYield p s := rfl
@[simp] theorem exec_trig (p : Pfx) (s : State) : exec (.trig p) s = execTrig p s := rfl
@[simp] theorem exec_rgn (p : Pfx) (s : State) : exec (.rgn p) s = execRgn p s := rfl
@[simp] theorem exec_ifence (p : Pfx) (s : State) : exec (.ifence p) s = execIfence p s := rfl
@[simp] theorem exec_win (p : Pfx) (b : BitVec 7) (s : State) : exec (.win p b) s = execWin p b s := rfl
@[simp] theorem exec_sleep (p : Pfx) (a : Opnd) (s : State) : exec (.sleep p a) s = execSleep p a s := rfl
@[simp] theorem exec_getsr (p : Pfx) (d : Opnd) (b : BitVec 7) (s : State) : exec (.getsr p d b) s = execGetsr p d b s := rfl
@[simp] theorem exec_setsr (p : Pfx) (a : Opnd) (b : BitVec 7) (s : State) : exec (.setsr p a b) s = execSetsr p a b s := rfl
@[simp] theorem exec_trap (p : Pfx) (imm : BitVec 12) (s : State) : exec (.trap p imm) s = execTrap p imm s := rfl
@[simp] theorem exec_sadd (p : Pfx) (d a b : Opnd) (s : State) : exec (.sadd p d a b) s = execSadd p d a b s := rfl
@[simp] theorem exec_ssub (p : Pfx) (d a b : Opnd) (s : State) : exec (.ssub p d a b) s = execSsub p d a b s := rfl
@[simp] theorem exec_smul (p : Pfx) (d a b : Opnd) (s : State) : exec (.smul p d a b) s = execSmul p d a b s := rfl
@[simp] theorem exec_smulhi (p : Pfx) (d a b : Opnd) (s : State) : exec (.smulhi p d a b) s = execSmulhi p d a b s := rfl
@[simp] theorem exec_smulhn (p : Pfx) (d a b : Opnd) (s : State) : exec (.smulhn p d a b) s = execSmulhn p d a b s := rfl
@[simp] theorem exec_sand (p : Pfx) (d a b : Opnd) (s : State) : exec (.sand p d a b) s = execSand p d a b s := rfl
@[simp] theorem exec_sor (p : Pfx) (d a b : Opnd) (s : State) : exec (.sor p d a b) s = execSor p d a b s := rfl
@[simp] theorem exec_sxor (p : Pfx) (d a b : Opnd) (s : State) : exec (.sxor p d a b) s = execSxor p d a b s := rfl
@[simp] theorem exec_sandn (p : Pfx) (d a b : Opnd) (s : State) : exec (.sandn p d a b) s = execSandn p d a b s := rfl
@[simp] theorem exec_sshl (p : Pfx) (d a b : Opnd) (s : State) : exec (.sshl p d a b) s = execSshl p d a b s := rfl
@[simp] theorem exec_sshr (p : Pfx) (d a b : Opnd) (s : State) : exec (.sshr p d a b) s = execSshr p d a b s := rfl
@[simp] theorem exec_ssra (p : Pfx) (d a b : Opnd) (s : State) : exec (.ssra p d a b) s = execSsra p d a b s := rfl
@[simp] theorem exec_smin (p : Pfx) (d a b : Opnd) (s : State) : exec (.smin p d a b) s = execSmin p d a b s := rfl
@[simp] theorem exec_smax (p : Pfx) (d a b : Opnd) (s : State) : exec (.smax p d a b) s = execSmax p d a b s := rfl
@[simp] theorem exec_sminn (p : Pfx) (d a b : Opnd) (s : State) : exec (.sminn p d a b) s = execSminn p d a b s := rfl
@[simp] theorem exec_smaxn (p : Pfx) (d a b : Opnd) (s : State) : exec (.smaxn p d a b) s = execSmaxn p d a b s := rfl
@[simp] theorem exec_sclz (p : Pfx) (d a : Opnd) (s : State) : exec (.sclz p d a) s = execSclz p d a s := rfl
@[simp] theorem exec_spopc (p : Pfx) (d a : Opnd) (s : State) : exec (.spopc p d a) s = execSpopc p d a s := rfl
@[simp] theorem exec_sffs (p : Pfx) (d a : Opnd) (s : State) : exec (.sffs p d a) s = execSffs p d a s := rfl
@[simp] theorem exec_sbrev (p : Pfx) (d a : Opnd) (s : State) : exec (.sbrev p d a) s = execSbrev p d a s := rfl
@[simp] theorem exec_seq (p : Pfx) (d a b : Opnd) (s : State) : exec (.seq p d a b) s = execSeq p d a b s := rfl
@[simp] theorem exec_sne (p : Pfx) (d a b : Opnd) (s : State) : exec (.sne p d a b) s = execSne p d a b s := rfl
@[simp] theorem exec_slt (p : Pfx) (d a b : Opnd) (s : State) : exec (.slt p d a b) s = execSlt p d a b s := rfl
@[simp] theorem exec_sle (p : Pfx) (d a b : Opnd) (s : State) : exec (.sle p d a b) s = execSle p d a b s := rfl
@[simp] theorem exec_sltn (p : Pfx) (d a b : Opnd) (s : State) : exec (.sltn p d a b) s = execSltn p d a b s := rfl
@[simp] theorem exec_slen (p : Pfx) (d a b : Opnd) (s : State) : exec (.slen p d a b) s = execSlen p d a b s := rfl
@[simp] theorem exec_saddi (p : Pfx) (d a : Opnd) (imm : BitVec 12) (s : State) : exec (.saddi p d a imm) s = execSaddi p d a imm s := rfl
@[simp] theorem exec_sandi (p : Pfx) (d a : Opnd) (imm : BitVec 12) (s : State) : exec (.sandi p d a imm) s = execSandi p d a imm s := rfl
@[simp] theorem exec_sori (p : Pfx) (d a : Opnd) (imm : BitVec 12) (s : State) : exec (.sori p d a imm) s = execSori p d a imm s := rfl
@[simp] theorem exec_sxori (p : Pfx) (d a : Opnd) (imm : BitVec 12) (s : State) : exec (.sxori p d a imm) s = execSxori p d a imm s := rfl
@[simp] theorem exec_sli (p : Pfx) (d : Opnd) (imm : BitVec 19) (s : State) : exec (.sli p d imm) s = execSli p d imm s := rfl
@[simp] theorem exec_vadd (p : Pfx) (d a b : Opnd) (s : State) : exec (.vadd p d a b) s = execVadd p d a b s := rfl
@[simp] theorem exec_vsub (p : Pfx) (d a b : Opnd) (s : State) : exec (.vsub p d a b) s = execVsub p d a b s := rfl
@[simp] theorem exec_vmul (p : Pfx) (d a b : Opnd) (s : State) : exec (.vmul p d a b) s = execVmul p d a b s := rfl
@[simp] theorem exec_vmulhi (p : Pfx) (d a b : Opnd) (s : State) : exec (.vmulhi p d a b) s = execVmulhi p d a b s := rfl
@[simp] theorem exec_vmulhn (p : Pfx) (d a b : Opnd) (s : State) : exec (.vmulhn p d a b) s = execVmulhn p d a b s := rfl
@[simp] theorem exec_vmad (p : Pfx) (d a b : Opnd) (s : State) : exec (.vmad p d a b) s = execVmad p d a b s := rfl
@[simp] theorem exec_vand (p : Pfx) (d a b : Opnd) (s : State) : exec (.vand p d a b) s = execVand p d a b s := rfl
@[simp] theorem exec_vor (p : Pfx) (d a b : Opnd) (s : State) : exec (.vor p d a b) s = execVor p d a b s := rfl
@[simp] theorem exec_vxor (p : Pfx) (d a b : Opnd) (s : State) : exec (.vxor p d a b) s = execVxor p d a b s := rfl
@[simp] theorem exec_vandn (p : Pfx) (d a b : Opnd) (s : State) : exec (.vandn p d a b) s = execVandn p d a b s := rfl
@[simp] theorem exec_vshl (p : Pfx) (d a b : Opnd) (s : State) : exec (.vshl p d a b) s = execVshl p d a b s := rfl
@[simp] theorem exec_vshr (p : Pfx) (d a b : Opnd) (s : State) : exec (.vshr p d a b) s = execVshr p d a b s := rfl
@[simp] theorem exec_vsra (p : Pfx) (d a b : Opnd) (s : State) : exec (.vsra p d a b) s = execVsra p d a b s := rfl
@[simp] theorem exec_vmin (p : Pfx) (d a b : Opnd) (s : State) : exec (.vmin p d a b) s = execVmin p d a b s := rfl
@[simp] theorem exec_vmax (p : Pfx) (d a b : Opnd) (s : State) : exec (.vmax p d a b) s = execVmax p d a b s := rfl
@[simp] theorem exec_vminn (p : Pfx) (d a b : Opnd) (s : State) : exec (.vminn p d a b) s = execVminn p d a b s := rfl
@[simp] theorem exec_vmaxn (p : Pfx) (d a b : Opnd) (s : State) : exec (.vmaxn p d a b) s = execVmaxn p d a b s := rfl
@[simp] theorem exec_vabs (p : Pfx) (d a : Opnd) (s : State) : exec (.vabs p d a) s = execVabs p d a s := rfl
@[simp] theorem exec_vabsd (p : Pfx) (d a b : Opnd) (s : State) : exec (.vabsd p d a b) s = execVabsd p d a b s := rfl
@[simp] theorem exec_vsadd (p : Pfx) (d a b : Opnd) (s : State) : exec (.vsadd p d a b) s = execVsadd p d a b s := rfl
@[simp] theorem exec_vssub (p : Pfx) (d a b : Opnd) (s : State) : exec (.vssub p d a b) s = execVssub p d a b s := rfl
@[simp] theorem exec_vsaddn (p : Pfx) (d a b : Opnd) (s : State) : exec (.vsaddn p d a b) s = execVsaddn p d a b s := rfl
@[simp] theorem exec_vssubn (p : Pfx) (d a b : Opnd) (s : State) : exec (.vssubn p d a b) s = execVssubn p d a b s := rfl
@[simp] theorem exec_vclz (p : Pfx) (d a : Opnd) (s : State) : exec (.vclz p d a) s = execVclz p d a s := rfl
@[simp] theorem exec_vpopc (p : Pfx) (d a : Opnd) (s : State) : exec (.vpopc p d a) s = execVpopc p d a s := rfl
@[simp] theorem exec_vbrev (p : Pfx) (d a : Opnd) (s : State) : exec (.vbrev p d a) s = execVbrev p d a s := rfl
@[simp] theorem exec_vbfe (p : Pfx) (d a b : Opnd) (s : State) : exec (.vbfe p d a b) s = execVbfe p d a b s := rfl
@[simp] theorem exec_vbfes (p : Pfx) (d a b : Opnd) (s : State) : exec (.vbfes p d a b) s = execVbfes p d a b s := rfl
@[simp] theorem exec_vbfi (p : Pfx) (d a b : Opnd) (s : State) : exec (.vbfi p d a b) s = execVbfi p d a b s := rfl
@[simp] theorem exec_vaddw (p : Pfx) (d a b : Opnd) (s : State) : exec (.vaddw p d a b) s = execVaddw p d a b s := rfl
@[simp] theorem exec_vsubw (p : Pfx) (d a b : Opnd) (s : State) : exec (.vsubw p d a b) s = execVsubw p d a b s := rfl
@[simp] theorem exec_vaddi (p : Pfx) (d a : Opnd) (imm : BitVec 12) (s : State) : exec (.vaddi p d a imm) s = execVaddi p d a imm s := rfl
@[simp] theorem exec_vandi (p : Pfx) (d a : Opnd) (imm : BitVec 12) (s : State) : exec (.vandi p d a imm) s = execVandi p d a imm s := rfl
@[simp] theorem exec_vshli (p : Pfx) (d a : Opnd) (imm : BitVec 12) (s : State) : exec (.vshli p d a imm) s = execVshli p d a imm s := rfl
@[simp] theorem exec_vshri (p : Pfx) (d a : Opnd) (imm : BitVec 12) (s : State) : exec (.vshri p d a imm) s = execVshri p d a imm s := rfl
@[simp] theorem exec_vsrai (p : Pfx) (d a : Opnd) (imm : BitVec 12) (s : State) : exec (.vsrai p d a imm) s = execVsrai p d a imm s := rfl
@[simp] theorem exec_vmuli (p : Pfx) (d a : Opnd) (imm : BitVec 12) (s : State) : exec (.vmuli p d a imm) s = execVmuli p d a imm s := rfl
@[simp] theorem exec_vcmp (p : Pfx) (d a b : Opnd) (c : BitVec 3) (t : BitVec 2) (s : State) : exec (.vcmp p d a b c t) s = execVcmp p d a b c t s := rfl
@[simp] theorem exec_vcmph (p : Pfx) (d a b : Opnd) (c : BitVec 3) (t : BitVec 2) (s : State) : exec (.vcmph p d a b c t) s = execVcmph p d a b c t s := rfl
@[simp] theorem exec_fadd (p : Pfx) (d a b : Opnd) (s : State) : exec (.fadd p d a b) s = execFadd p d a b s := rfl
@[simp] theorem exec_fsub (p : Pfx) (d a b : Opnd) (s : State) : exec (.fsub p d a b) s = execFsub p d a b s := rfl
@[simp] theorem exec_fmul (p : Pfx) (d a b : Opnd) (s : State) : exec (.fmul p d a b) s = execFmul p d a b s := rfl
@[simp] theorem exec_ffma (p : Pfx) (d a b : Opnd) (s : State) : exec (.ffma p d a b) s = execFfma p d a b s := rfl
@[simp] theorem exec_ffms (p : Pfx) (d a b : Opnd) (s : State) : exec (.ffms p d a b) s = execFfms p d a b s := rfl
@[simp] theorem exec_fnma (p : Pfx) (d a b : Opnd) (s : State) : exec (.fnma p d a b) s = execFnma p d a b s := rfl
@[simp] theorem exec_fnms (p : Pfx) (d a b : Opnd) (s : State) : exec (.fnms p d a b) s = execFnms p d a b s := rfl
@[simp] theorem exec_fmin (p : Pfx) (d a b : Opnd) (s : State) : exec (.fmin p d a b) s = execFmin p d a b s := rfl
@[simp] theorem exec_fmax (p : Pfx) (d a b : Opnd) (s : State) : exec (.fmax p d a b) s = execFmax p d a b s := rfl
@[simp] theorem exec_fminn (p : Pfx) (d a b : Opnd) (s : State) : exec (.fminn p d a b) s = execFminn p d a b s := rfl
@[simp] theorem exec_fmaxn (p : Pfx) (d a b : Opnd) (s : State) : exec (.fmaxn p d a b) s = execFmaxn p d a b s := rfl
@[simp] theorem exec_fabs (p : Pfx) (d a : Opnd) (s : State) : exec (.fabs p d a) s = execFabs p d a s := rfl
@[simp] theorem exec_fneg (p : Pfx) (d a : Opnd) (s : State) : exec (.fneg p d a) s = execFneg p d a s := rfl
@[simp] theorem exec_fcpys (p : Pfx) (d a b : Opnd) (s : State) : exec (.fcpys p d a b) s = execFcpys p d a b s := rfl
@[simp] theorem exec_fdiv (p : Pfx) (d a b : Opnd) (s : State) : exec (.fdiv p d a b) s = execFdiv p d a b s := rfl
@[simp] theorem exec_fsqrt (p : Pfx) (d a : Opnd) (s : State) : exec (.fsqrt p d a) s = execFsqrt p d a s := rfl
@[simp] theorem exec_frcp (p : Pfx) (d a : Opnd) (s : State) : exec (.frcp p d a) s = execFrcp p d a s := rfl
@[simp] theorem exec_frsq (p : Pfx) (d a : Opnd) (s : State) : exec (.frsq p d a) s = execFrsq p d a s := rfl
@[simp] theorem exec_fexp2 (p : Pfx) (d a : Opnd) (s : State) : exec (.fexp2 p d a) s = execFexp2 p d a s := rfl
@[simp] theorem exec_flog2 (p : Pfx) (d a : Opnd) (s : State) : exec (.flog2 p d a) s = execFlog2 p d a s := rfl
@[simp] theorem exec_fsin (p : Pfx) (d a : Opnd) (s : State) : exec (.fsin p d a) s = execFsin p d a s := rfl
@[simp] theorem exec_fcos (p : Pfx) (d a : Opnd) (s : State) : exec (.fcos p d a) s = execFcos p d a s := rfl
@[simp] theorem exec_ffloor (p : Pfx) (d a : Opnd) (s : State) : exec (.ffloor p d a) s = execFfloor p d a s := rfl
@[simp] theorem exec_fceil (p : Pfx) (d a : Opnd) (s : State) : exec (.fceil p d a) s = execFceil p d a s := rfl
@[simp] theorem exec_ftrunc (p : Pfx) (d a : Opnd) (s : State) : exec (.ftrunc p d a) s = execFtrunc p d a s := rfl
@[simp] theorem exec_frint (p : Pfx) (d a : Opnd) (s : State) : exec (.frint p d a) s = execFrint p d a s := rfl
@[simp] theorem exec_fscale (p : Pfx) (d a b : Opnd) (s : State) : exec (.fscale p d a b) s = execFscale p d a b s := rfl
@[simp] theorem exec_fclass (p : Pfx) (d a : Opnd) (s : State) : exec (.fclass p d a) s = execFclass p d a s := rfl
@[simp] theorem exec_hadd (p : Pfx) (d a b : Opnd) (p1 : BitVec 1) (s : State) : exec (.hadd p d a b p1) s = execHadd p d a b p1 s := rfl
@[simp] theorem exec_hsub (p : Pfx) (d a b : Opnd) (p1 : BitVec 1) (s : State) : exec (.hsub p d a b p1) s = execHsub p d a b p1 s := rfl
@[simp] theorem exec_hmul (p : Pfx) (d a b : Opnd) (p1 : BitVec 1) (s : State) : exec (.hmul p d a b p1) s = execHmul p d a b p1 s := rfl
@[simp] theorem exec_hfma (p : Pfx) (d a b : Opnd) (p1 : BitVec 1) (s : State) : exec (.hfma p d a b p1) s = execHfma p d a b p1 s := rfl
@[simp] theorem exec_hmin (p : Pfx) (d a b : Opnd) (p1 : BitVec 1) (s : State) : exec (.hmin p d a b p1) s = execHmin p d a b p1 s := rfl
@[simp] theorem exec_hmax (p : Pfx) (d a b : Opnd) (p1 : BitVec 1) (s : State) : exec (.hmax p d a b p1) s = execHmax p d a b p1 s := rfl
@[simp] theorem exec_hminn (p : Pfx) (d a b : Opnd) (p1 : BitVec 1) (s : State) : exec (.hminn p d a b p1) s = execHminn p d a b p1 s := rfl
@[simp] theorem exec_hmaxn (p : Pfx) (d a b : Opnd) (p1 : BitVec 1) (s : State) : exec (.hmaxn p d a b p1) s = execHmaxn p d a b p1 s := rfl
@[simp] theorem exec_habs (p : Pfx) (d a : Opnd) (p1 : BitVec 1) (s : State) : exec (.habs p d a p1) s = execHabs p d a p1 s := rfl
@[simp] theorem exec_hneg (p : Pfx) (d a : Opnd) (p1 : BitVec 1) (s : State) : exec (.hneg p d a p1) s = execHneg p d a p1 s := rfl
@[simp] theorem exec_hdot2 (p : Pfx) (d a b : Opnd) (p1 : BitVec 1) (s : State) : exec (.hdot2 p d a b p1) s = execHdot2 p d a b p1 s := rfl
@[simp] theorem exec_hcpys (p : Pfx) (d a b : Opnd) (p1 : BitVec 1) (s : State) : exec (.hcpys p d a b p1) s = execHcpys p d a b p1 s := rfl
@[simp] theorem exec_cvtF32I32 (p : Pfx) (d a : Opnd) (s : State) : exec (.cvtF32I32 p d a) s = execCvtF32I32 p d a s := rfl
@[simp] theorem exec_cvtF32N32 (p : Pfx) (d a : Opnd) (s : State) : exec (.cvtF32N32 p d a) s = execCvtF32N32 p d a s := rfl
@[simp] theorem exec_cvtI32F32 (p : Pfx) (d a : Opnd) (s : State) : exec (.cvtI32F32 p d a) s = execCvtI32F32 p d a s := rfl
@[simp] theorem exec_cvtN32F32 (p : Pfx) (d a : Opnd) (s : State) : exec (.cvtN32F32 p d a) s = execCvtN32F32 p d a s := rfl
@[simp] theorem exec_cvtF32F16 (p : Pfx) (d a b : Opnd) (s : State) : exec (.cvtF32F16 p d a b) s = execCvtF32F16 p d a b s := rfl
@[simp] theorem exec_cvtF32Bf16 (p : Pfx) (d a b : Opnd) (s : State) : exec (.cvtF32Bf16 p d a b) s = execCvtF32Bf16 p d a b s := rfl
@[simp] theorem exec_cvtF16x2F32 (p : Pfx) (d a b : Opnd) (s : State) : exec (.cvtF16x2F32 p d a b) s = execCvtF16x2F32 p d a b s := rfl
@[simp] theorem exec_cvtBf16x2F32 (p : Pfx) (d a b : Opnd) (s : State) : exec (.cvtBf16x2F32 p d a b) s = execCvtBf16x2F32 p d a b s := rfl
@[simp] theorem exec_cvtE4m3F32 (p : Pfx) (d a b : Opnd) (s : State) : exec (.cvtE4m3F32 p d a b) s = execCvtE4m3F32 p d a b s := rfl
@[simp] theorem exec_cvtE5m2F32 (p : Pfx) (d a b : Opnd) (s : State) : exec (.cvtE5m2F32 p d a b) s = execCvtE5m2F32 p d a b s := rfl
@[simp] theorem exec_cvtF32E4m3 (p : Pfx) (d a b : Opnd) (s : State) : exec (.cvtF32E4m3 p d a b) s = execCvtF32E4m3 p d a b s := rfl
@[simp] theorem exec_cvtF32E5m2 (p : Pfx) (d a b : Opnd) (s : State) : exec (.cvtF32E5m2 p d a b) s = execCvtF32E5m2 p d a b s := rfl
@[simp] theorem exec_cvtE2m1F32 (p : Pfx) (d a b : Opnd) (s : State) : exec (.cvtE2m1F32 p d a b) s = execCvtE2m1F32 p d a b s := rfl
@[simp] theorem exec_cvtF32E2m1 (p : Pfx) (d a b : Opnd) (s : State) : exec (.cvtF32E2m1 p d a b) s = execCvtF32E2m1 p d a b s := rfl
@[simp] theorem exec_cvtI8F32 (p : Pfx) (d a b : Opnd) (s : State) : exec (.cvtI8F32 p d a b) s = execCvtI8F32 p d a b s := rfl
@[simp] theorem exec_cvtF32I8 (p : Pfx) (d a b : Opnd) (s : State) : exec (.cvtF32I8 p d a b) s = execCvtF32I8 p d a b s := rfl
@[simp] theorem exec_cvtE8m0F32 (p : Pfx) (d a : Opnd) (s : State) : exec (.cvtE8m0F32 p d a) s = execCvtE8m0F32 p d a s := rfl
@[simp] theorem exec_cvtF32E8m0 (p : Pfx) (d a b : Opnd) (s : State) : exec (.cvtF32E8m0 p d a b) s = execCvtF32E8m0 p d a b s := rfl
@[simp] theorem exec_cvtF32N8 (p : Pfx) (d a b : Opnd) (s : State) : exec (.cvtF32N8 p d a b) s = execCvtF32N8 p d a b s := rfl
@[simp] theorem exec_vmov (p : Pfx) (d a : Opnd) (s : State) : exec (.vmov p d a) s = execVmov p d a s := rfl
@[simp] theorem exec_vbcast (p : Pfx) (d a b : Opnd) (s : State) : exec (.vbcast p d a b) s = execVbcast p d a b s := rfl
@[simp] theorem exec_vlget (p : Pfx) (d a b : Opnd) (s : State) : exec (.vlget p d a b) s = execVlget p d a b s := rfl
@[simp] theorem exec_vlset (p : Pfx) (d a b : Opnd) (s : State) : exec (.vlset p d a b) s = execVlset p d a b s := rfl
@[simp] theorem exec_vshape (p : Pfx) (d a : Opnd) (s : State) : exec (.vshape p d a) s = execVshape p d a s := rfl
@[simp] theorem exec_vaffine (p : Pfx) (d a b : Opnd) (s : State) : exec (.vaffine p d a b) s = execVaffine p d a b s := rfl
@[simp] theorem exec_vperm (p : Pfx) (d a b : Opnd) (s : State) : exec (.vperm p d a b) s = execVperm p d a b s := rfl
@[simp] theorem exec_vshup (p : Pfx) (d a b : Opnd) (s : State) : exec (.vshup p d a b) s = execVshup p d a b s := rfl
@[simp] theorem exec_vshdn (p : Pfx) (d a b : Opnd) (s : State) : exec (.vshdn p d a b) s = execVshdn p d a b s := rfl
@[simp] theorem exec_vshxor (p : Pfx) (d a b : Opnd) (s : State) : exec (.vshxor p d a b) s = execVshxor p d a b s := rfl
@[simp] theorem exec_vballot (p : Pfx) (d a : Opnd) (s : State) : exec (.vballot p d a) s = execVballot p d a s := rfl
@[simp] theorem exec_vbits (p : Pfx) (d a : Opnd) (b : BitVec 7) (s : State) : exec (.vbits p d a b) s = execVbits p d a b s := rfl
@[simp] theorem exec_vredAddI32 (p : Pfx) (d a : Opnd) (s : State) : exec (.vredAddI32 p d a) s = execVredAddI32 p d a s := rfl
@[simp] theorem exec_vredAddF32 (p : Pfx) (d a : Opnd) (s : State) : exec (.vredAddF32 p d a) s = execVredAddF32 p d a s := rfl
@[simp] theorem exec_vredMinI32 (p : Pfx) (d a : Opnd) (s : State) : exec (.vredMinI32 p d a) s = execVredMinI32 p d a s := rfl
@[simp] theorem exec_vredMaxI32 (p : Pfx) (d a : Opnd) (s : State) : exec (.vredMaxI32 p d a) s = execVredMaxI32 p d a s := rfl
@[simp] theorem exec_vredMinF32 (p : Pfx) (d a : Opnd) (s : State) : exec (.vredMinF32 p d a) s = execVredMinF32 p d a s := rfl
@[simp] theorem exec_vredMaxF32 (p : Pfx) (d a : Opnd) (s : State) : exec (.vredMaxF32 p d a) s = execVredMaxF32 p d a s := rfl
@[simp] theorem exec_vredAnd (p : Pfx) (d a : Opnd) (s : State) : exec (.vredAnd p d a) s = execVredAnd p d a s := rfl
@[simp] theorem exec_vredOr (p : Pfx) (d a : Opnd) (s : State) : exec (.vredOr p d a) s = execVredOr p d a s := rfl
@[simp] theorem exec_vredXor (p : Pfx) (d a : Opnd) (s : State) : exec (.vredXor p d a) s = execVredXor p d a s := rfl
@[simp] theorem exec_vscanAddI32 (p : Pfx) (d a : Opnd) (s : State) : exec (.vscanAddI32 p d a) s = execVscanAddI32 p d a s := rfl
@[simp] theorem exec_vscanAddF32 (p : Pfx) (d a : Opnd) (s : State) : exec (.vscanAddF32 p d a) s = execVscanAddF32 p d a s := rfl
@[simp] theorem exec_vargmaxF32 (p : Pfx) (d a : Opnd) (s : State) : exec (.vargmaxF32 p d a) s = execVargmaxF32 p d a s := rfl
@[simp] theorem exec_vargminF32 (p : Pfx) (d a : Opnd) (s : State) : exec (.vargminF32 p d a) s = execVargminF32 p d a s := rfl
@[simp] theorem exec_xset (p : Pfx) (d a : Opnd) (s : State) : exec (.xset p d a) s = execXset p d a s := rfl
@[simp] theorem exec_xoff (p : Pfx) (d a : Opnd) (s : State) : exec (.xoff p d a) s = execXoff p d a s := rfl
@[simp] theorem exec_xget (p : Pfx) (d a : Opnd) (s : State) : exec (.xget p d a) s = execXget p d a s := rfl
@[simp] theorem exec_xgetc (p : Pfx) (d a : Opnd) (s : State) : exec (.xgetc p d a) s = execXgetc p d a s := rfl
@[simp] theorem exec_xadd (p : Pfx) (d a : Opnd) (s : State) : exec (.xadd p d a) s = execXadd p d a s := rfl
@[simp] theorem exec_xclr (p : Pfx) (d : Opnd) (s : State) : exec (.xclr p d) s = execXclr p d s := rfl
@[simp] theorem exec_mif (p : Pfx) (d a : Opnd) (s : State) : exec (.mif p d a) s = execMif p d a s := rfl
@[simp] theorem exec_melse (p : Pfx) (a : Opnd) (s : State) : exec (.melse p a) s = execMelse p a s := rfl
@[simp] theorem exec_mend (p : Pfx) (a : Opnd) (s : State) : exec (.mend p a) s = execMend p a s := rfl
@[simp] theorem exec_mset (p : Pfx) (a : Opnd) (b : BitVec 7) (s : State) : exec (.mset p a b) s = execMset p a b s := rfl
@[simp] theorem exec_mget (p : Pfx) (d : Opnd) (b : BitVec 7) (s : State) : exec (.mget p d b) s = execMget p d b s := rfl
@[simp] theorem exec_elect (p : Pfx) (d : Opnd) (s : State) : exec (.elect p d) s = execElect p d s := rfl
@[simp] theorem exec_mwhile (p : Pfx) (d a : Opnd) (s : State) : exec (.mwhile p d a) s = execMwhile p d a s := rfl
@[simp] theorem exec_br (p : Pfx) (o : BitVec 19) (s : State) : exec (.br p o) s = execBr p o s := rfl
@[simp] theorem exec_brz (p : Pfx) (r : Opnd) (o : BitVec 19) (s : State) : exec (.brz p r o) s = execBrz p r o s := rfl
@[simp] theorem exec_brnz (p : Pfx) (r : Opnd) (o : BitVec 19) (s : State) : exec (.brnz p r o) s = execBrnz p r o s := rfl
@[simp] theorem exec_brem (p : Pfx) (o : BitVec 19) (s : State) : exec (.brem p o) s = execBrem p o s := rfl
@[simp] theorem exec_loop (p : Pfx) (r : Opnd) (o : BitVec 19) (s : State) : exec (.loop p r o) s = execLoop p r o s := rfl
@[simp] theorem exec_call (p : Pfx) (r : Opnd) (o : BitVec 19) (s : State) : exec (.call p r o) s = execCall p r o s := rfl
@[simp] theorem exec_bru (p : Pfx) (r : Opnd) (o : BitVec 19) (s : State) : exec (.bru p r o) s = execBru p r o s := rfl
@[simp] theorem exec_jmp (p : Pfx) (a : Opnd) (s : State) : exec (.jmp p a) s = execJmp p a s := rfl
@[simp] theorem exec_jmpv (p : Pfx) (a b : Opnd) (s : State) : exec (.jmpv p a b) s = execJmpv p a b s := rfl
@[simp] theorem exec_callr (p : Pfx) (d a : Opnd) (s : State) : exec (.callr p d a) s = execCallr p d a s := rfl
@[simp] theorem exec_ld (p : Pfx) (d a b : Opnd) (k x : BitVec 1) (sz : BitVec 3) (s : State) : exec (.ld p d a b k x sz) s = execLd p d a b k x sz s := rfl
@[simp] theorem exec_st (p : Pfx) (d a b : Opnd) (k : BitVec 1) (sz : BitVec 3) (s : State) : exec (.st p d a b k sz) s = execSt p d a b k sz s := rfl
@[simp] theorem exec_lds (p : Pfx) (d a b : Opnd) (k x : BitVec 1) (sz : BitVec 3) (s : State) : exec (.lds p d a b k x sz) s = execLds p d a b k x sz s := rfl
@[simp] theorem exec_sts (p : Pfx) (d a b : Opnd) (k : BitVec 1) (sz : BitVec 3) (s : State) : exec (.sts p d a b k sz) s = execSts p d a b k sz s := rfl
@[simp] theorem exec_atomAddI32 (p : Pfx) (d a b : Opnd) (s : State) : exec (.atomAddI32 p d a b) s = execAtomAddI32 p d a b s := rfl
@[simp] theorem exec_atomAddI64 (p : Pfx) (d a b : Opnd) (s : State) : exec (.atomAddI64 p d a b) s = execAtomAddI64 p d a b s := rfl
@[simp] theorem exec_atomAddF32 (p : Pfx) (d a b : Opnd) (s : State) : exec (.atomAddF32 p d a b) s = execAtomAddF32 p d a b s := rfl
@[simp] theorem exec_atomMinI32 (p : Pfx) (d a b : Opnd) (s : State) : exec (.atomMinI32 p d a b) s = execAtomMinI32 p d a b s := rfl
@[simp] theorem exec_atomMaxI32 (p : Pfx) (d a b : Opnd) (s : State) : exec (.atomMaxI32 p d a b) s = execAtomMaxI32 p d a b s := rfl
@[simp] theorem exec_atomMinN32 (p : Pfx) (d a b : Opnd) (s : State) : exec (.atomMinN32 p d a b) s = execAtomMinN32 p d a b s := rfl
@[simp] theorem exec_atomMaxN32 (p : Pfx) (d a b : Opnd) (s : State) : exec (.atomMaxN32 p d a b) s = execAtomMaxN32 p d a b s := rfl
@[simp] theorem exec_atomMinN64 (p : Pfx) (d a b : Opnd) (s : State) : exec (.atomMinN64 p d a b) s = execAtomMinN64 p d a b s := rfl
@[simp] theorem exec_atomMaxN64 (p : Pfx) (d a b : Opnd) (s : State) : exec (.atomMaxN64 p d a b) s = execAtomMaxN64 p d a b s := rfl
@[simp] theorem exec_atomAndB32 (p : Pfx) (d a b : Opnd) (s : State) : exec (.atomAndB32 p d a b) s = execAtomAndB32 p d a b s := rfl
@[simp] theorem exec_atomOrB32 (p : Pfx) (d a b : Opnd) (s : State) : exec (.atomOrB32 p d a b) s = execAtomOrB32 p d a b s := rfl
@[simp] theorem exec_atomXorB32 (p : Pfx) (d a b : Opnd) (s : State) : exec (.atomXorB32 p d a b) s = execAtomXorB32 p d a b s := rfl
@[simp] theorem exec_atomXchgB32 (p : Pfx) (d a b : Opnd) (s : State) : exec (.atomXchgB32 p d a b) s = execAtomXchgB32 p d a b s := rfl
@[simp] theorem exec_atomXchgB64 (p : Pfx) (d a b : Opnd) (s : State) : exec (.atomXchgB64 p d a b) s = execAtomXchgB64 p d a b s := rfl
@[simp] theorem exec_atomCasB32 (p : Pfx) (d a : Opnd) (s : State) : exec (.atomCasB32 p d a) s = execAtomCasB32 p d a s := rfl
@[simp] theorem exec_atomCasB64 (p : Pfx) (d a : Opnd) (s : State) : exec (.atomCasB64 p d a) s = execAtomCasB64 p d a s := rfl
@[simp] theorem exec_atomFminF32 (p : Pfx) (d a b : Opnd) (s : State) : exec (.atomFminF32 p d a b) s = execAtomFminF32 p d a b s := rfl
@[simp] theorem exec_atomFmaxF32 (p : Pfx) (d a b : Opnd) (s : State) : exec (.atomFmaxF32 p d a b) s = execAtomFmaxF32 p d a b s := rfl
@[simp] theorem exec_atomAddBf16x2 (p : Pfx) (d a b : Opnd) (s : State) : exec (.atomAddBf16x2 p d a b) s = execAtomAddBf16x2 p d a b s := rfl
@[simp] theorem exec_atomsAddI32 (p : Pfx) (d a b : Opnd) (s : State) : exec (.atomsAddI32 p d a b) s = execAtomsAddI32 p d a b s := rfl
@[simp] theorem exec_atomsAddI64 (p : Pfx) (d a b : Opnd) (s : State) : exec (.atomsAddI64 p d a b) s = execAtomsAddI64 p d a b s := rfl
@[simp] theorem exec_atomsAddF32 (p : Pfx) (d a b : Opnd) (s : State) : exec (.atomsAddF32 p d a b) s = execAtomsAddF32 p d a b s := rfl
@[simp] theorem exec_atomsMinI32 (p : Pfx) (d a b : Opnd) (s : State) : exec (.atomsMinI32 p d a b) s = execAtomsMinI32 p d a b s := rfl
@[simp] theorem exec_atomsMaxI32 (p : Pfx) (d a b : Opnd) (s : State) : exec (.atomsMaxI32 p d a b) s = execAtomsMaxI32 p d a b s := rfl
@[simp] theorem exec_atomsMinN32 (p : Pfx) (d a b : Opnd) (s : State) : exec (.atomsMinN32 p d a b) s = execAtomsMinN32 p d a b s := rfl
@[simp] theorem exec_atomsMaxN32 (p : Pfx) (d a b : Opnd) (s : State) : exec (.atomsMaxN32 p d a b) s = execAtomsMaxN32 p d a b s := rfl
@[simp] theorem exec_atomsMinN64 (p : Pfx) (d a b : Opnd) (s : State) : exec (.atomsMinN64 p d a b) s = execAtomsMinN64 p d a b s := rfl
@[simp] theorem exec_atomsMaxN64 (p : Pfx) (d a b : Opnd) (s : State) : exec (.atomsMaxN64 p d a b) s = execAtomsMaxN64 p d a b s := rfl
@[simp] theorem exec_atomsAndB32 (p : Pfx) (d a b : Opnd) (s : State) : exec (.atomsAndB32 p d a b) s = execAtomsAndB32 p d a b s := rfl
@[simp] theorem exec_atomsOrB32 (p : Pfx) (d a b : Opnd) (s : State) : exec (.atomsOrB32 p d a b) s = execAtomsOrB32 p d a b s := rfl
@[simp] theorem exec_atomsXorB32 (p : Pfx) (d a b : Opnd) (s : State) : exec (.atomsXorB32 p d a b) s = execAtomsXorB32 p d a b s := rfl
@[simp] theorem exec_atomsXchgB32 (p : Pfx) (d a b : Opnd) (s : State) : exec (.atomsXchgB32 p d a b) s = execAtomsXchgB32 p d a b s := rfl
@[simp] theorem exec_atomsXchgB64 (p : Pfx) (d a b : Opnd) (s : State) : exec (.atomsXchgB64 p d a b) s = execAtomsXchgB64 p d a b s := rfl
@[simp] theorem exec_atomsCasB32 (p : Pfx) (d a : Opnd) (s : State) : exec (.atomsCasB32 p d a) s = execAtomsCasB32 p d a s := rfl
@[simp] theorem exec_atomsCasB64 (p : Pfx) (d a : Opnd) (s : State) : exec (.atomsCasB64 p d a) s = execAtomsCasB64 p d a s := rfl
@[simp] theorem exec_atomsFminF32 (p : Pfx) (d a b : Opnd) (s : State) : exec (.atomsFminF32 p d a b) s = execAtomsFminF32 p d a b s := rfl
@[simp] theorem exec_atomsFmaxF32 (p : Pfx) (d a b : Opnd) (s : State) : exec (.atomsFmaxF32 p d a b) s = execAtomsFmaxF32 p d a b s := rfl
@[simp] theorem exec_atomsAddBf16x2 (p : Pfx) (d a b : Opnd) (s : State) : exec (.atomsAddBf16x2 p d a b) s = execAtomsAddBf16x2 p d a b s := rfl
@[simp] theorem exec_sigAdd (p : Pfx) (a b : Opnd) (s : State) : exec (.sigAdd p a b) s = execSigAdd p a b s := rfl
@[simp] theorem exec_sigSet (p : Pfx) (a b : Opnd) (s : State) : exec (.sigSet p a b) s = execSigSet p a b s := rfl
@[simp] theorem exec_swaitGe (p : Pfx) (d a b : Opnd) (s : State) : exec (.swaitGe p d a b) s = execSwaitGe p d a b s := rfl
@[simp] theorem exec_swaitEq (p : Pfx) (d a b : Opnd) (s : State) : exec (.swaitEq p d a b) s = execSwaitEq p d a b s := rfl
@[simp] theorem exec_swaitNe (p : Pfx) (d a b : Opnd) (s : State) : exec (.swaitNe p d a b) s = execSwaitNe p d a b s := rfl
@[simp] theorem exec_fence (p : Pfx) (k : BitVec 2) (c : BitVec 3) (s : State) : exec (.fence p k c) s = execFence p k c s := rfl
@[simp] theorem exec_pbarPkg (p : Pfx) (s : State) : exec (.pbarPkg p) s = execPbarPkg p s := rfl
@[simp] theorem exec_pbarMend (p : Pfx) (s : State) : exec (.pbarMend p) s = execPbarMend p s := rfl
@[simp] theorem exec_pflush (p : Pfx) (a b : Opnd) (s : State) : exec (.pflush p a b) s = execPflush p a b s := rfl
@[simp] theorem exec_stepmark (p : Pfx) (d : Opnd) (b : BitVec 7) (s : State) : exec (.stepmark p d b) s = execStepmark p d b s := rfl
@[simp] theorem exec_stepq (p : Pfx) (d : Opnd) (b : BitVec 7) (s : State) : exec (.stepq p d b) s = execStepq p d b s := rfl
@[simp] theorem exec_shcopy (p : Pfx) (d a : Opnd) (s : State) : exec (.shcopy p d a) s = execShcopy p d a s := rfl
@[simp] theorem exec_shtile (p : Pfx) (d a : Opnd) (s : State) : exec (.shtile p d a) s = execShtile p d a s := rfl
@[simp] theorem exec_shgath (p : Pfx) (d a b : Opnd) (s : State) : exec (.shgath p d a b) s = execShgath p d a b s := rfl
@[simp] theorem exec_shscat (p : Pfx) (d a b : Opnd) (s : State) : exec (.shscat p d a b) s = execShscat p d a b s := rfl
@[simp] theorem exec_shfill (p : Pfx) (d a : Opnd) (s : State) : exec (.shfill p d a) s = execShfill p d a s := rfl
@[simp] theorem exec_kinit (p : Pfx) (a b : Opnd) (s : State) : exec (.kinit p a b) s = execKinit p a b s := rfl
@[simp] theorem exec_karrive (p : Pfx) (a : Opnd) (s : State) : exec (.karrive p a) s = execKarrive p a s := rfl
@[simp] theorem exec_kexpect (p : Pfx) (a b : Opnd) (s : State) : exec (.kexpect p a b) s = execKexpect p a b s := rfl
@[simp] theorem exec_kwait (p : Pfx) (d a b : Opnd) (s : State) : exec (.kwait p d a b) s = execKwait p d a b s := rfl
@[simp] theorem exec_ktest (p : Pfx) (d a : Opnd) (s : State) : exec (.ktest p d a) s = execKtest p d a s := rfl
@[simp] theorem exec_kinval (p : Pfx) (a : Opnd) (s : State) : exec (.kinval p a) s = execKinval p a s := rfl
@[simp] theorem exec_waitc (p : Pfx) (a : Opnd) (b : BitVec 7) (s : State) : exec (.waitc p a b) s = execWaitc p a b s := rfl
@[simp] theorem exec_waitq (p : Pfx) (a b : Opnd) (s : State) : exec (.waitq p a b) s = execWaitq p a b s := rfl
@[simp] theorem exec_waitall (p : Pfx) (s : State) : exec (.waitall p) s = execWaitall p s := rfl
@[simp] theorem exec_mcfg (p : Pfx) (a : Opnd) (s : State) : exec (.mcfg p a) s = execMcfg p a s := rfl
@[simp] theorem exec_mzero (p : Pfx) (d a : Opnd) (s : State) : exec (.mzero p d a) s = execMzero p d a s := rfl
@[simp] theorem exec_mloop (p : Pfx) (d a : Opnd) (s : State) : exec (.mloop p d a) s = execMloop p d a s := rfl
@[simp] theorem exec_mstep (p : Pfx) (d a : Opnd) (s : State) : exec (.mstep p d a) s = execMstep p d a s := rfl
@[simp] theorem exec_mcvt (p : Pfx) (d a : Opnd) (s : State) : exec (.mcvt p d a) s = execMcvt p d a s := rfl
@[simp] theorem exec_mscal (p : Pfx) (d a : Opnd) (s : State) : exec (.mscal p d a) s = execMscal p d a s := rfl
@[simp] theorem exec_nmv (p : Pfx) (d a : Opnd) (s : State) : exec (.nmv p d a) s = execNmv p d a s := rfl
@[simp] theorem exec_nmvcfg (p : Pfx) (a : Opnd) (s : State) : exec (.nmvcfg p a) s = execNmvcfg p a s := rfl
@[simp] theorem exec_itnNext (p : Pfx) (d : Opnd) (s : State) : exec (.itnNext p d) s = execItnNext p d s := rfl
@[simp] theorem exec_itnDone (p : Pfx) (s : State) : exec (.itnDone p) s = execItnDone p s := rfl
@[simp] theorem exec_itnStash (p : Pfx) (d a : Opnd) (s : State) : exec (.itnStash p d a) s = execItnStash p d a s := rfl
@[simp] theorem exec_itnFree (p : Pfx) (a : Opnd) (s : State) : exec (.itnFree p a) s = execItnFree p a s := rfl
@[simp] theorem exec_itnPost (p : Pfx) (d : Opnd) (s : State) : exec (.itnPost p d) s = execItnPost p d s := rfl
@[simp] theorem exec_itnStat (p : Pfx) (d : Opnd) (b : BitVec 7) (s : State) : exec (.itnStat p d b) s = execItnStat p d b s := rfl
@[simp] theorem exec_lnch (p : Pfx) (d a : Opnd) (s : State) : exec (.lnch p d a) s = execLnch p d a s := rfl
@[simp] theorem exec_lnchDep (p : Pfx) (d a b : Opnd) (s : State) : exec (.lnchDep p d a b) s = execLnchDep p d a b s := rfl
@[simp] theorem exec_lnchq (p : Pfx) (d a : Opnd) (s : State) : exec (.lnchq p d a) s = execLnchq p d a s := rfl
@[simp] theorem exec_barTeam (p : Pfx) (b : BitVec 7) (s : State) : exec (.barTeam p b) s = execBarTeam p b s := rfl
@[simp] theorem exec_barRole (p : Pfx) (s : State) : exec (.barRole p) s = execBarRole p s := rfl
@[simp] theorem exec_barArrive (p : Pfx) (b : BitVec 7) (s : State) : exec (.barArrive p b) s = execBarArrive p b s := rfl
@[simp] theorem exec_barWait (p : Pfx) (b : BitVec 7) (s : State) : exec (.barWait p b) s = execBarWait p b s := rfl
@[simp] theorem exec_qtry (p : Pfx) (d a b : Opnd) (s : State) : exec (.qtry p d a b) s = execQtry p d a b s := rfl
@[simp] theorem exec_qcount (p : Pfx) (d a : Opnd) (s : State) : exec (.qcount p d a) s = execQcount p d a s := rfl
@[simp] theorem exec_qputtry (p : Pfx) (d a b : Opnd) (s : State) : exec (.qputtry p d a b) s = execQputtry p d a b s := rfl

end Sys2Proof.Machine
end

