-- ==== Sys2Proof/Safety.lean ====
section
/-! DEFINITION. The terms in which the statements speak of a run: when a group issues, what a group that completes leaves
behind, what a group of a class may change, and what a safe step is. -/

namespace Sys2Proof.Machine

/-! ### Issue and completion -/

/-- The weft that issues is `w`, and its group with prefix `p` and these operand uses passes stages 2 and 3 of R280: its
operands may be used there, are full, not poisoned and not busy, and its queues can serve; `g` is what the checks resolved,
its effective mask among it. No stage queue entry that it pops is poisoned (R286). -/
def State.Issues (s : State) (w : Weft) (p : Pfx) (uses : List Use) (q : QRule) (g : Plan) : Prop :=
  s.weft? s.focus.1 s.focus.2 = some w ∧ prep s w p uses q = .go g ∧ s.popsPoison w g.m q uses = none

/-- The guard register of a group is full and not poisoned (R286, R305). -/
def Weft.GuardReady (w : Weft) (p : Pfx) : Prop :=
  ∀ x, p.xg = some x → x.ge = true → (w.sreg x.gs.toNat).full = true ∧ (w.sreg x.gs.toNat).pois = false

/-- The group changes nothing but the address of the next group and what every issue resets (R143, R306). -/
def State.passes (s : State) (w : Weft) (p : Pfx) : State := s.setWeft (w.commit p false)

/-- A scalar group is done (R214, R224): its sources are popped, then `v` is written or pushed. -/
def State.scalarNext (s : State) (w : Weft) (p : Pfx) (m : W64) (srcs : List Use) (d : Opnd) (v : W64) : State :=
  let r := writeS (s.popUses w m srcs) w d v
  r.1.setWeft (r.2.commit p false)

/-- A vector group is done in every active lane (R90, R210, R217, R224, R281, R354, R387): the debit, the pops, the writes
under the mask, the flags, the offsets, and `dm` where an operand is indirect. -/
def State.vecNext (s : State) (w : Weft) (p : Pfx) (g : Plan) (srcs : List Use) (dst : Use) (rounds : Bool) (r : VRes) :
    State :=
  let uses := srcs ++ [dst]
  let s1 := (s.debit w.core (quarters g.m)).popUses w g.m uses
  let o := if dst.vec then writeV s1 w g.m dst (g.regs.getLastD []) r.vals
    else match r.sc with
      | some x => writeS s1 w dst.o x
      | none => (s1, w)
  let w1 := { o.2 with fpflags := o.2.fpflags ||| r.flags g.m, xregs := keepOffsets g.m w.xregs g.xs }
  let w2 := if uses.any Use.indirect then w1.report g.m g.m else w1
  o.1.setWeft (w2.commit p rounds)

/-- A vector group issues and nothing stops it: some lane is active, no lane passes a bound (R219), and the ration counter
is not below zero (R90). -/
def State.VecIssues (s : State) (w : Weft) (p : Pfx) (uses : List Use) (g : Plan) : Prop :=
  s.Issues w p uses .sources g ∧ g.m ≠ 0 ∧ g.bad = 0 ∧ 0 ≤ (s.ration w.core).c

/-- No flag of a result is enabled to trap (R387). -/
def Weft.quiet (w : Weft) (fl : BitVec 5) : Prop := fl.toNat &&& field w.fpmode.toNat 4 5 = 0

/-- A release of the weft at a scope may complete (R252), so that what follows it is done at once. -/
def State.Released (s : State) (w : Weft) (scope : Nat) : Prop := s.relReady w scope = true

/-- Every load of the weft is performed (R254). -/
def State.Acquired (s : State) (w : Weft) : Prop := s.loadsOpen w = false

/-- A fence of kind acq at a scope may complete (R254): from core scope on the replay queue is empty (R249), and wider than core the weft's
fabric writes are acknowledged or have failed (R84) and the core holds no combined store (R78). -/
def State.AcqFenced (s : State) (w : Weft) (scope : Nat) : Prop :=
  s.Acquired w ∧ (1 ≤ scope → s.replays w = false) ∧ (2 ≤ scope → s.fabricWrites w = false ∧ s.combines w.core = false)

/-- The weft of a slot waits in this state; what it waits for takes it no further. -/
def State.Waits (s : State) (w : Weft) (r : Wait) (o : Res) : Prop :=
  ∃ v, s.weft? w.core w.slot = some v ∧ o = .next (s.waits v r)

/-- A lane-by-lane float function of a group (R385, R387, R389): if every source is U and no draw is used the result is U, its
lane 0's; else each active lane holds its own. The flags are the OR over the active lanes; none of them is enabled to trap. -/
def State.FloatGives (s : State) (w : Weft) (p : Pfx) (g : Plan) (d : Opnd) (srcs : List Use) (rounds : Bool) (i : Instr)
    (f : Nat → List Nat → Rd) : Prop :=
  let xs := (s.vVals w g (srcs ++ [dstV d 1])).map fun l => l.headD (.u 0)
  let at_ := fun l : Nat => f l (xs.map fun x => (x.lane l).toNat)
  let done := fun (y : VVal) (fl : BitVec 5) =>
    exec i s = .next (s.vecNext w p g srcs (dstV d 1) rounds { vals := [y], sc := none, fl := fl })
  s.VecIssues w p (srcs ++ [dstV d 1]) g →
  ((rounds = false ∨ rmOf w p ≠ 4) → (∀ x ∈ xs, x.tag = 0) → w.quiet (BitVec.ofNat 5 (at_ 0).fl) →
    done (.u (BitVec.ofNat 32 (at_ 0).bits)) (BitVec.ofNat 5 (at_ 0).fl))
  ∧ (((rounds = true ∧ rmOf w p = 4) ∨ ∃ x ∈ xs, x.tag ≠ 0) →
      ∀ fl : BitVec 5, (∀ k, k < 5 → fl.getLsbD k = (activeLanes g.m).any fun l => (at_ l).fl.testBit k) → w.quiet fl →
      ∃ y : VVal, y.tag = 2 ∧ done y fl ∧ ∀ l ∈ activeLanes g.m, y.lane l = BitVec.ofNat 32 (at_ l).bits)

/-- What an access waits for at issue is met (R229, R230, R252, R94): the order of its prefix, the weft's earlier loads when it
writes, a counter below its limit, and the request cap. -/
def State.MayStart (s : State) (w : Weft) (p : Pfx) (a : Access) : Prop :=
  ((p.ord = 2 ∨ p.ord = 3) → s.Released w p.scope) ∧ (a.kind.writes = true → s.Acquired w)
  ∧ (∀ c, a.cnt = some c → w.count c < 1023) ∧ s.capOpen w.core a.lanes = true

/-! ### Commands -/

/-- The head command `k` of a queue starts (R117): the context runs, nothing of the queue holds it back, it is of the code named,
its fields are in range, and no running command has its number. -/
structure State.Starts (s : State) (c q op : Nat) (k : Cmd) (rest : List Cmd) : Prop where
  up : s.up = true
  runs : (s.ctx c).st = .running
  ready : (s.queue c q).startable = true
  head : (s.queue c q).fetched = k :: rest
  code : k.op = op
  good : k.badField = false
  fresh : ∀ j ∈ (s.queue c q).running, j.id ≠ k.id

/-- The state in which a started command acts (R117): it is running and its queue goes to the end of its round. -/
def State.begun (s : State) (c q : Nat) (k : Cmd) (rest : List Cmd) : State :=
  let x := s.queue c q
  s.turnQueue c q { x with fetched := rest, running := x.running ++ [k] }.restat

/-- The command has left its queue. -/
def State.Gone (t : State) (c q : Nat) (k : Cmd) : Prop := ∀ j ∈ (t.queue c q).running, j.id ≠ k.id

/-- A queue has stopped in state 3 with an error code (R118). -/
def State.Stopped (t : State) (c q code : Nat) : Prop := (t.queue c q).st = 3 ∧ (t.queue c q).err = BitVec.ofNat 8 code

/-- The instruction answers a next state of which something holds. -/
def State.Does (s : State) (i : Instr) (post : State → Prop) : Prop := ∃ t, exec i s = .next t ∧ post t

/-- The mend status block of a group lies outside every armed region (R191). -/
def State.MendApart (s : State) (g : Group) : Prop :=
  g.mstat.toNat + 64 ≤ 2 ^ 64 ∧ ∀ r ∈ s.snap.regions, g.mstat.toNat + 64 ≤ r.va ∨ r.va + r.len ≤ g.mstat.toNat

/-! ### Frames -/

/-- The two states agree on everything outside the wefts. -/
def State.SameButWefts (s t : State) : Prop := { t with wefts := s.wefts } = s

/-- Every weft but the one of a core's slot is as before. -/
def State.OtherWefts (s t : State) (core slot : Nat) : Prop :=
  ∀ v : Weft, ¬(v.core = core ∧ v.slot = slot) → (v ∈ t.wefts ↔ v ∈ s.wefts)

/-- Every byte of memory reads as before. -/
def State.SameMemory (s t : State) : Prop := ∀ k, t.byte k = s.byte k

/-- Every byte reads as before but those of the cells stored. -/
def State.SameBut (s t : State) (cells : List Host.Cell) : Prop :=
  ∀ k, k ∉ cells.map Prod.fst → t.byte k = s.byte k

/-- A word stored by a T0 atomic is on its way to a peer (R155-R157). -/
def State.SendsWord (t : State) (peer : Nat) (ea : W64) (v : Nat) : Prop :=
  ∃ k ∈ t.fab.packets, k.peer = peer ∧ k.line = lineOf ea ∧ k.tier = 0 ∧ k.op = .sigSet ∧ k.ops = [(ea.toNat % 128, BitVec.ofNat 64 v, 0)]

/-- What a scalar group leaves of its weft (R214, R326): every register, mask, flag, special register, counter and trap
register, the destination register and the address of the next group apart. -/
structure Weft.KeepsScalar (w v : Weft) (d : Opnd) : Prop where
  place : v.core = w.core ∧ v.slot = w.slot ∧ v.ctx = w.ctx ∧ v.team = w.team ∧ v.wid = w.wid ∧ v.execRole = w.execRole
  masks : v.em = w.em ∧ v.dm = w.dm ∧ v.wb = w.wb
  sregs : ∀ n : Nat, (∀ k : Fin 32, d = .s k → k.val ≠ n) → v.sregs[n]? = w.sregs[n]?
  vregs : v.vregs = w.vregs ∧ v.xregs = w.xregs
  traps : v.tm = w.tm ∧ v.tem = w.tem ∧ v.tdm = w.tdm ∧ v.tpc = w.tpc ∧ v.tcause = w.tcause ∧ v.tmask = w.tmask
    ∧ v.tinfo = w.tinfo
  special : v.fpmode = w.fpmode ∧ v.fpflags = w.fpflags ∧ v.seed = w.seed ∧ v.rgnpc = w.rgnpc ∧ v.rgncnt = w.rgncnt
    ∧ v.rgnem = w.rgnem ∧ v.err = w.err
  counters : v.cnt = w.cnt ∧ v.busy = w.busy

/-! ### Safe steps -/

/-- The memory invariant: the cells are in canonical form. -/
def State.Inv (s : State) : Prop := Memory.wf s.mem = true

/-- A safe step answers a next state that keeps the invariant. -/
def State.SafeStep (s : State) : Prop := ∃ t, step s = .next t ∧ t.Inv

end Sys2Proof.Machine
end

