-- ==== Sys2Proof/Laws/Ops.lean ====
section
/-! SUPPORT. What the shared operations of issue answer: one lemma each, so that a proof about an instruction never unfolds
the operand checks, and the lane laws of the tagged values (R208, R209). -/

namespace Sys2Proof.Machine

/-! ### Issue -/

/-- A group that issues runs its body. -/
theorem issue_of_issues {s : State} {w : Weft} {p : Pfx} {uses : List Use} {q : QRule} {g : Plan}
    (h : s.Issues w p uses q g) (body : Weft → Plan → State) : issue s p uses q body = .next (body w g) := by
  simp [issue, h.1, h.2.1, h.2.2]

/-- The effective mask of a plan is the group's (R305). -/
theorem plan_mask {s : State} {w : Weft} {p : Pfx} {uses : List Use} {q : QRule} {g : Plan}
    (h : prep s w p uses q = .go g) : g.m = w.effMask p := by
  simp only [prep] at h
  split at h
  · split at h
    · cases h; rfl
    · exact absurd h (by simp)
  · exact absurd h (by simp)

/-- A scalar group with an active lane writes its value. -/
theorem execScalar_next {s : State} {w : Weft} {p : Pfx} {srcs : List Use} {d : Opnd} {g : Plan}
    (h : s.Issues w p (srcs ++ [dstS d]) .active g) (hm : g.m ≠ 0) (f : Weft → List W64 → W64) :
    execScalar s p srcs d f = .next (s.scalarNext w p g.m srcs d (f w (srcs.map fun u => s.sVal w u.o))) := by
  have hm' : ¬ g.m = 0#64 := hm
  simp [execScalar, issue_of_issues h, hm', State.scalarNext]

/-- A scalar group with no active lane only issues. -/
theorem execScalar_empty {s : State} {w : Weft} {p : Pfx} {srcs : List Use} {d : Opnd} {g : Plan}
    (h : s.Issues w p (srcs ++ [dstS d]) .active g) (hm : g.m = 0) (f : Weft → List W64 → W64) :
    execScalar s p srcs d f = .next (s.passes w p) := by
  simp [execScalar, issue_of_issues h, hm, State.passes]

/-- A weft-wide group runs its body on the popped state. -/
theorem execWide_next {s : State} {w : Weft} {p : Pfx} {uses : List Use} {g : Plan}
    (h : s.Issues w p uses .all g) (f : State → Weft → List W64 → State) :
    execWide s p uses f =
      .next (f (s.popUses w g.m uses) w ((uses.filter fun u => !u.wr).map fun u => s.sVal w u.o)) := by
  simp [execWide, issue_of_issues h]

/-- A debit changes nothing that an operand reads. -/
theorem vVals_debit (s : State) (c n : Nat) (w : Weft) (g : Plan) (uses : List Use) :
    (s.debit c n).vVals w g uses = s.vVals w g uses := rfl

/-- A vector group that nothing stops writes its result. -/
theorem execLanes_next {s : State} {w : Weft} {p : Pfx} {srcs : List Use} {dst : Use} {g : Plan} {rounds : Bool}
    (h : s.VecIssues w p (srcs ++ [dst]) g) (folds : Bool) (f : Weft → W64 → List (List VVal) → VRes)
    (hb : folds = true → (resolve g.m srcs w.xregs).2.2 = 0)
    (hq : w.quiet (f w g.m (s.vVals w g (srcs ++ [dst]))).fl) :
    execLanes true folds s p srcs dst rounds f
      = .next (s.vecNext w p g srcs dst rounds (f w g.m (s.vVals w g (srcs ++ [dst])))) := by
  obtain ⟨hi, hm, hbad, hc⟩ := h
  have hm' : ¬ g.m = 0 := hm
  have hc' : ¬ (s.ration w.core).c < 0 := by omega
  have hok : g.m &&& ~~~(0 : W64) = g.m := by
    rw [show ~~~(0 : W64) = BitVec.allOnes 64 from by decide, BitVec.and_allOnes]
  have hf : (if folds then g.m &&& ~~~(resolve g.m srcs w.xregs).2.2 else g.m) = g.m := by
    cases folds
    · rfl
    · rw [hb rfl]; exact hok
  have hpop := hi.2.2
  simp only [Weft.quiet] at hq
  simp only [execLanes, issue_of_issues hi, hpop, hbad, hok, hf, vVals_debit, hc', hm', hq, if_true, if_false, decide_false,
    Bool.and_false, Bool.false_eq_true, ne_eq, not_true, and_false, State.vecNext]
  all_goals rfl

/-! ### Wefts -/

/-- Reading a slot after its weft is replaced. -/
theorem weft?_setWeft {s : State} {core slot : Nat} {w v : Weft} (h : s.weft? core slot = some w)
    (hc : v.core = core) (hs : v.slot = slot) : (s.setWeft v).weft? core slot = some v := by
  simp only [State.weft?, State.setWeft] at h ⊢
  generalize s.wefts = l at h
  induction l with
  | nil => simp at h
  | cons x r ih =>
    simp only [List.find?_cons, List.map_cons] at h ⊢
    by_cases hx : x.core = core ∧ x.slot = slot
    · simp [hx, hc, hs]
    · have hx' : (x.core == core && x.slot == slot) = false := by
        simp only [Bool.and_eq_false_imp, beq_iff_eq, beq_eq_false_iff_ne]
        intro a b; exact hx ⟨a, b⟩
      rw [hx'] at h
      have : ¬ (x.core = v.core ∧ x.slot = v.slot) := by rw [hc, hs]; exact hx
      simp only [this, if_false, hx']
      exact ih h

/-- The weft of a slot is in that slot. -/
theorem weft?_slot {s : State} {core slot : Nat} {w : Weft} (h : s.weft? core slot = some w) :
    w.core = core ∧ w.slot = slot := by
  have := List.find?_some h
  simpa using this

/-! ### Ordering (R78, R84, R252, R254) -/

/-- Replacing a weft empties no slot. -/
theorem weft?_setWeft_isSome {s : State} {core slot : Nat} (v : Weft) (h : (s.weft? core slot).isSome = true) :
    ((s.setWeft v).weft? core slot).isSome = true := by
  simp only [State.weft?, State.setWeft, List.find?_isSome, List.mem_map] at h ⊢
  obtain ⟨x, hx, hk⟩ := h
  refine ⟨_, ⟨x, hx, rfl⟩, ?_⟩
  split
  · rename_i hv; simpa [hv.1, hv.2] using hk
  · exact hk

theorem weft?_weftEvent_isSome {s : State} {core slot : Nat} (c k : Nat) (e : WeftEvent) (h : (s.weft? core slot).isSome = true) :
    ((s.weftEvent c k e).weft? core slot).isSome = true := by
  simp only [State.weftEvent]
  split
  · exact weft?_setWeft_isSome _ h
  · exact h

/-- What keeps a property of states, done for each element of a list, keeps it. -/
theorem foldl_keeps {σ α : Type} (P : σ → Prop) (f : σ → α → σ) (h : ∀ s x, P s → P (f s x)) (l : List α) (s : σ) (hs : P s) :
    P (l.foldl f s) := by
  induction l generalizing s with
  | nil => exact hs
  | cons x r ih => exact ih _ (h s x hs)

/-- Sending an entry of a combining buffer, or failing it, empties no slot. -/
theorem weft?_sendComb_isSome {s : State} {core slot : Nat} (e : CombEntry) (h : (s.weft? core slot).isSome = true) :
    ((s.sendComb e).weft? core slot).isSome = true := by
  simp only [State.sendComb]
  split
  · exact foldl_keeps (fun t : State => (t.weft? core slot).isSome = true) _ (fun _ _ ht => weft?_weftEvent_isSome _ _ _ ht) _ _ h
  · exact h

theorem weft?_flushComb_isSome {s : State} {core slot : Nat} (f : CombEntry → Bool) (h : (s.weft? core slot).isSome = true) :
    ((s.flushComb f).weft? core slot).isSome = true :=
  foldl_keeps (fun t : State => (t.weft? core slot).isSome = true) _ (fun _ e ht => weft?_sendComb_isSome e ht) _ _ h

theorem weft?_flushCore_isSome {s : State} {core slot : Nat} (c scope : Nat) (h : (s.weft? core slot).isSome = true) :
    ((s.flushCore c scope).weft? core slot).isSome = true := by
  simp only [State.flushCore]
  split
  · exact h
  · exact weft?_flushComb_isSome _ h

/-- An ordering instruction that waits leaves its weft waiting, after the buffer is sent as the scope asks. -/
theorem waits_waitOrder {s : State} {w : Weft} (scope : Nat) (h : (s.weft? w.core w.slot).isSome = true) :
    (s.flushCore w.core scope).Waits w .order (.next (s.waitOrder w scope)) := by
  have hs := weft?_flushCore_isSome w.core scope h
  cases hv : (s.flushCore w.core scope).weft? w.core w.slot with
  | none => rw [hv] at hs; cases hs
  | some v => exact ⟨v, hv, by simp only [State.waitOrder, hv]⟩

theorem release_next {s : State} {w : Weft} {scope : Nat} (h : s.Released w scope) (k : State → State) : s.release w scope k = k s :=
  if_pos h

theorem release_waits {s : State} {w : Weft} {scope : Nat} (h : ¬ s.Released w scope) (k : State → State) :
    s.release w scope k = s.waitOrder w scope := if_neg h

/-- An acquire fence goes on just when it may complete. -/
theorem fenceAcq_next {s : State} {w : Weft} {scope : Nat} (h : s.AcqFenced w scope) (k : State → State) :
    s.fenceAcq w scope k = k s := by
  obtain ⟨h0, h1, h2⟩ := h
  refine if_neg ?_
  simp only [State.Acquired] at h0
  simp only [h0, Bool.false_or, Bool.or_eq_true, Bool.and_eq_true, decide_eq_true_eq, not_or, not_and, Bool.not_eq_true]
  exact ⟨h1, fun h => ⟨(h2 h).1, (h2 h).2⟩⟩

theorem fenceAcq_waits {s : State} {w : Weft} {scope : Nat} (h : ¬ s.AcqFenced w scope) (k : State → State) :
    s.fenceAcq w scope k = s.waitOrder w scope := by
  refine if_pos ?_
  by_contra hn
  simp only [Bool.or_eq_true, Bool.and_eq_true, decide_eq_true_eq, not_or, not_and, Bool.not_eq_true] at hn
  exact h ⟨hn.1.1, hn.1.2, fun k => hn.2 k⟩

/-! ### Lanes of tagged values (R208, R209) -/

@[simp] theorem lane_u (c : W32) (i : Nat) : (VVal.u c).lane i = c := rfl
@[simp] theorem lane_a (b d : W32) (i : Nat) : (VVal.a b d).lane i = b + BitVec.ofNat 32 i * d := rfl

/-- A lane of a value given lane by lane. -/
theorem lane_g (f : Nat → W32) {i : Nat} (h : i < 64) : (VVal.g (laneIdx.map f)).lane i = f i := by
  simp [VVal.lane, laneIdx, List.getD_eq_getElem?_getD, h]

theorem lane_lift1 (f : W32 → W32) (x : VVal) {i : Nat} (h : i < 64) : (lift1 f x).lane i = f (x.lane i) := by
  cases x <;> simp [lift1, lane_g _ h]

theorem lane_lift2 (f : W32 → W32 → W32) (x y : VVal) {i : Nat} (h : i < 64) :
    (lift2 f x y).lane i = f (x.lane i) (y.lane i) := by
  cases x <;> cases y <;> simp [lift2, lane_g _ h]

theorem lane_lift3 (f : W32 → W32 → W32 → W32) (x y z : VVal) {i : Nat} (h : i < 64) :
    (lift3 f x y z).lane i = f (x.lane i) (y.lane i) (z.lane i) := by
  cases x <;> cases y <;> cases z <;> simp [lift3, lane_g _ h]

/-- Affine addition is lane addition (R209). -/
theorem lane_addT (x y : VVal) {i : Nat} (h : i < 64) : (addT false x y).lane i = x.lane i + y.lane i := by
  cases x <;> cases y <;> simp [addT, lane_lift2 _ _ _ h] <;> ring

theorem lane_subT (x y : VVal) {i : Nat} (h : i < 64) : (subT false x y).lane i = x.lane i - y.lane i := by
  cases x <;> cases y <;> simp [subT, lane_lift2 _ _ _ h] <;> ring

theorem lane_mulT (x y : VVal) {i : Nat} (h : i < 64) : (mulT false x y).lane i = x.lane i * y.lane i := by
  cases x <;> cases y <;> simp [mulT, lane_lift2 _ _ _ h] <;> ring

/-- A shift is a multiplication by a power of two. -/
theorem shift_product (d k : W32) (n : Nat) : k * d <<< n = (k * d) <<< n := by
  simp only [BitVec.shiftLeft_eq_mul_twoPow]
  ring

theorem lane_shlT (x y : VVal) {i : Nat} (h : i < 64) :
    (shlT x y).lane i = x.lane i <<< ((y.lane i).toNat % 32) := by
  cases x <;> cases y <;> simp [shlT, lane_lift2 _ _ _ h, shift_product]

end Sys2Proof.Machine
end

