-- ==== Sys2Proof/Laws/Encoding.lean ====
section
/-! SUPPORT. The fields of an encoded base word read back (R303, R309): one lemma per field of each form. -/

namespace Sys2Proof

@[simp] theorem Opnd.ofCode_code (o : Opnd) : Opnd.ofCode o.code = o := by
  cases o with
  | v n => revert n; decide
  | s n => revert n; decide
  | x n => revert n; decide
  | q n => revert n; decide
  | rsv n => revert n; decide
  | _ => decide

/-- The high part of two joined words. -/
theorem extract_high {n k : Nat} (x : BitVec n) (y : BitVec k) : (x ++ y).extractLsb' k n = x := by
  ext i hi
  simp [BitVec.getLsbD_append, BitVec.getLsbD_eq_getElem hi]

/-- A field that lies in the low part. -/
theorem extract_low {n k : Nat} (x : BitVec n) (y : BitVec k) (a b : Nat) (h : a + b ≤ k) :
    (x ++ y).extractLsb' a b = y.extractLsb' a b := by
  ext i hi
  have : a + i < k := by omega
  simp [BitVec.getLsbD_append, this]

/-- A field that lies in the high part. -/
theorem extract_over {n k : Nat} (x : BitVec n) (y : BitVec k) (a b : Nat) (h : k ≤ a) :
    (x ++ y).extractLsb' a b = x.extractLsb' (a - k) b := by
  ext i hi
  have h1 : ¬ a + i < k := by omega
  have h2 : a + i - k = a - k + i := by omega
  simp [BitVec.getLsbD_append, h1, h2]

theorem extract_all {n : Nat} (x : BitVec n) : x.extractLsb' 0 n = x := by
  ext i hi; simp

theorem majorOf_word (m : BitVec 6) (b : BitVec 26) : majorOf (m ++ b) = m.toNat := by
  rw [majorOf, extract_high]

section R
variable (m : BitVec 6) (d a b : Fld) (f : BitVec 5)

theorem r_d : (m ++ (Body.r d a b f).bits : W32).extractLsb' 19 7 = d.bits := by
  rw [extract_low _ _ _ _ (by omega), Body.bits, extract_over _ _ _ _ (by omega), extract_over _ _ _ _ (by omega), extract_high]

theorem r_a : (m ++ (Body.r d a b f).bits : W32).extractLsb' 12 7 = a.bits := by
  rw [extract_low _ _ _ _ (by omega), Body.bits, extract_over _ _ _ _ (by omega), extract_over _ _ _ _ (by omega),
    extract_low _ _ _ _ (by omega), extract_all]

theorem r_b : (m ++ (Body.r d a b f).bits : W32).extractLsb' 5 7 = b.bits := by
  rw [extract_low _ _ _ _ (by omega), Body.bits, extract_over _ _ _ _ (by omega), extract_low _ _ _ _ (by omega), extract_all]

theorem r_f (i n : Nat) (h : i + n ≤ 5) : (m ++ (Body.r d a b f).bits : W32).extractLsb' i n = f.extractLsb' i n := by
  rw [extract_low _ _ _ _ (by omega), Body.bits, extract_low _ _ _ _ h]

theorem r_cF : cF (m ++ (Body.r d a b f).bits) = f.toNat := by
  rw [cF, r_f _ _ _ _ _ _ _ (by omega), extract_all]

end R

section I
variable (m : BitVec 6) (d a : Fld) (i : BitVec 12)

theorem i_d : (m ++ (Body.i d a i).bits : W32).extractLsb' 19 7 = d.bits := by
  rw [extract_low _ _ _ _ (by omega), Body.bits, extract_over _ _ _ _ (by omega), extract_high]

theorem i_a : (m ++ (Body.i d a i).bits : W32).extractLsb' 12 7 = a.bits := by
  rw [extract_low _ _ _ _ (by omega), Body.bits, extract_over _ _ _ _ (by omega), extract_low _ _ _ _ (by omega), extract_all]

theorem i_imm : (m ++ (Body.i d a i).bits : W32).extractLsb' 0 12 = i := by
  rw [extract_low _ _ _ _ (by omega), Body.bits, extract_low _ _ _ _ (by omega), extract_all]

end I

section UJ
variable (m : BitVec 6) (d : Fld) (i : BitVec 19)

theorem u_d : (m ++ (Body.u d i).bits : W32).extractLsb' 19 7 = d.bits := by
  rw [extract_low _ _ _ _ (by omega), Body.bits, extract_high]

theorem u_imm : (m ++ (Body.u d i).bits : W32).extractLsb' 0 19 = i := by
  rw [extract_low _ _ _ _ (by omega), Body.bits, extract_low _ _ _ _ (by omega), extract_all]

theorem j_d : (m ++ (Body.j d i).bits : W32).extractLsb' 19 7 = d.bits := by
  rw [extract_low _ _ _ _ (by omega), Body.bits, extract_high]

theorem j_imm : (m ++ (Body.j d i).bits : W32).extractLsb' 0 19 = i := by
  rw [extract_low _ _ _ _ (by omega), Body.bits, extract_low _ _ _ _ (by omega), extract_all]

end UJ

/-! ### Operands as the parser reads them -/

section
variable (m : BitVec 6) (d a b : Fld) (f : BitVec 5) (c : Cls) (o : Opnd)

theorem fD_r : fD (m ++ (Body.r (.op c o) a b f).bits) = o := by rw [fD, r_d]; exact Opnd.ofCode_code o
theorem fA_r : fA (m ++ (Body.r d (.op c o) b f).bits) = o := by rw [fA, r_a]; exact Opnd.ofCode_code o
theorem fB_r : fB (m ++ (Body.r d a (.op c o) f).bits) = o := by rw [fB, r_b]; exact Opnd.ofCode_code o
theorem cB_r (k : Nat) (v : BitVec 7) : cB (m ++ (Body.r d a (.lit k v) f).bits) = v := by rw [cB, r_b]; rfl

theorem fD_i (i : BitVec 12) : fD (m ++ (Body.i (.op c o) a i).bits) = o := by rw [fD, i_d]; exact Opnd.ofCode_code o
theorem fA_i (i : BitVec 12) : fA (m ++ (Body.i d (.op c o) i).bits) = o := by rw [fA, i_a]; exact Opnd.ofCode_code o
theorem fD_u (i : BitVec 19) : fD (m ++ (Body.u (.op c o) i).bits) = o := by rw [fD, u_d]; exact Opnd.ofCode_code o
theorem fD_j (i : BitVec 19) : fD (m ++ (Body.j (.op c o) i).bits) = o := by rw [fD, j_d]; exact Opnd.ofCode_code o

/-- The parser on a word of a known major and minor. -/
theorem parse_r (p : Pfx) (x : BitVec 6) (n k : Nat) (hx : x.toNat = n) (hf : f.toNat = k) :
    parse p (x ++ (Body.r d a b f).bits) = parseAt p (x ++ (Body.r d a b f).bits) n k := by
  rw [parse, majorOf_word, r_cF, hx, hf]

/-- The parser on a word whose major has one instruction. -/
theorem parse_major (p : Pfx) (x : BitVec 6) (y : BitVec 26) (n : Nat) (hx : x.toNat = n) :
    parse p (x ++ y) = parseAt p (x ++ y) n (cF (x ++ y)) := by
  rw [parse, majorOf_word, hx]

end

end Sys2Proof
end

