-- ==== Sys2Proof/Laws/PerInstr.lean ====
section
/-! SUPPORT. The family `ReadsBack`: the parser reads an encoded base word back as the instruction it encodes, with every operand
and every field (R303, R309, R312, R313). One lemma per constructor; a step of the device has no encoding. -/

namespace Sys2Proof.Laws

/-- The base word of an encoded instruction parses to that instruction. -/
def ReadsBack.Statement (i : Instr) : Prop :=
  match i.shape with
  | none => True
  | some (p, m, b) => i.subOk = true → parse p (m ++ b.bits) = some i

/-- A one-bit format selector and its minor, low four bits (R394). -/
theorem ReadsBack.half_minor (t : BitVec 1) (n : BitVec 4) : (t ++ n).toNat % 16 = n.toNat := by
  revert t n; decide

theorem ReadsBack.half_type (t : BitVec 1) (n : BitVec 4) : (t ++ n).extractLsb' 4 1 = t := extract_high t n

theorem ReadsBack.bootStart : ReadsBack.Statement (.bootStart) := trivial
theorem ReadsBack.bootRom : ReadsBack.Statement (.bootRom) := trivial
theorem ReadsBack.brchk : ReadsBack.Statement (.brchk) := trivial
theorem ReadsBack.ident : ReadsBack.Statement (.ident) := trivial
theorem ReadsBack.fwload : ReadsBack.Statement (.fwload) := trivial
theorem ReadsBack.dies : ReadsBack.Statement (.dies) := trivial
theorem ReadsBack.meminit : ReadsBack.Statement (.meminit) := trivial
theorem ReadsBack.ready : ReadsBack.Statement (.ready) := trivial
theorem ReadsBack.pcieLinkTraining (width rate : Nat) (cxl : Bool) : ReadsBack.Statement (.pcieLinkTraining width rate cxl) := trivial
theorem ReadsBack.configRequest (bar0 : Option (BitVec 64)) : ReadsBack.Statement (.configRequest bar0) := trivial
theorem ReadsBack.perst : ReadsBack.Statement (.perst) := trivial
theorem ReadsBack.perstRelease : ReadsBack.Statement (.perstRelease) := trivial
theorem ReadsBack.pfail : ReadsBack.Statement (.pfail) := trivial
theorem ReadsBack.railFault (rail : Nat) : ReadsBack.Statement (.railFault rail) := trivial
theorem ReadsBack.hamperAcceptanceClose : ReadsBack.Statement (.hamperAcceptanceClose) := trivial
theorem ReadsBack.hamperDrained : ReadsBack.Statement (.hamperDrained) := trivial
theorem ReadsBack.sealRecordWrite : ReadsBack.Statement (.sealRecordWrite) := trivial
theorem ReadsBack.level2Save : ReadsBack.Statement (.level2Save) := trivial
theorem ReadsBack.vauxLoss : ReadsBack.Statement (.vauxLoss) := trivial
theorem ReadsBack.pstepAccept (v : BitVec 3) : ReadsBack.Statement (.pstepAccept v) := trivial
theorem ReadsBack.controlInterval (m : Telemetry) : ReadsBack.Statement (.controlInterval m) := trivial
theorem ReadsBack.thermalTripRelease (m : Telemetry) : ReadsBack.Statement (.thermalTripRelease m) := trivial
theorem ReadsBack.stepLeave : ReadsBack.Statement (.stepLeave) := trivial
theorem ReadsBack.opGlideComplete (rail : Nat) : ReadsBack.Statement (.opGlideComplete rail) := trivial
theorem ReadsBack.droopDetect (cluster : Nat) : ReadsBack.Statement (.droopDetect cluster) := trivial
theorem ReadsBack.capWrite (off : Nat) (v : BitVec 64) : ReadsBack.Statement (.capWrite off v) := trivial
theorem ReadsBack.registerWrite (port : Port) (off size v : Nat) : ReadsBack.Statement (.registerWrite port off size v) := trivial
theorem ReadsBack.pkgidWrite (v : BitVec 9) : ReadsBack.Statement (.pkgidWrite v) := trivial
theorem ReadsBack.doorbell (c q : Nat) (w : BitVec 32) : ReadsBack.Statement (.doorbell c q w) := trivial
theorem ReadsBack.recordFetch (c q : Nat) : ReadsBack.Statement (.recordFetch c q) := trivial
theorem ReadsBack.errClear (c q : Nat) (v : BitVec 8) : ReadsBack.Statement (.errClear c q v) := trivial
theorem ReadsBack.context0Create : ReadsBack.Statement (.context0Create) := trivial
theorem ReadsBack.fqReadIndex (c : Nat) (v : BitVec 32) : ReadsBack.Statement (.fqReadIndex c v) := trivial
theorem ReadsBack.quoteGo : ReadsBack.Statement (.quoteGo) := trivial
theorem ReadsBack.imbQuoteGo : ReadsBack.Statement (.imbQuoteGo) := trivial
theorem ReadsBack.quoteDone : ReadsBack.Statement (.quoteDone) := trivial
theorem ReadsBack.alertClear (v : BitVec 64) : ReadsBack.Statement (.alertClear v) := trivial
theorem ReadsBack.i3cDynamicAddressAssignment (a : BitVec 7) : ReadsBack.Statement (.i3cDynamicAddressAssignment a) := trivial
theorem ReadsBack.i3cEventEnable (on : Bool) : ReadsBack.Statement (.i3cEventEnable on) := trivial
theorem ReadsBack.i3cReset : ReadsBack.Statement (.i3cReset) := trivial
theorem ReadsBack.launch (c q : Nat) : ReadsBack.Statement (.launch c q) := trivial
theorem ReadsBack.copy (c q : Nat) : ReadsBack.Statement (.copy c q) := trivial
theorem ReadsBack.signal (c q : Nat) : ReadsBack.Statement (.signal c q) := trivial
theorem ReadsBack.waitv (c q : Nat) : ReadsBack.Statement (.waitv c q) := trivial
theorem ReadsBack.waitvRetest (c q : Nat) : ReadsBack.Statement (.waitvRetest c q) := trivial
theorem ReadsBack.map (c q : Nat) : ReadsBack.Statement (.map c q) := trivial
theorem ReadsBack.unmap (c q : Nat) : ReadsBack.Statement (.unmap c q) := trivial
theorem ReadsBack.ctxCreate (c q : Nat) : ReadsBack.Statement (.ctxCreate c q) := trivial
theorem ReadsBack.ctxDestroy (c q : Nat) : ReadsBack.Statement (.ctxDestroy c q) := trivial
theorem ReadsBack.ctxPreempt (c q : Nat) : ReadsBack.Statement (.ctxPreempt c q) := trivial
theorem ReadsBack.ctxResume (c q : Nat) : ReadsBack.Statement (.ctxResume c q) := trivial
theorem ReadsBack.phase (c q : Nat) : ReadsBack.Statement (.phase c q) := trivial
theorem ReadsBack.stepLoad (c q : Nat) : ReadsBack.Statement (.stepLoad c q) := trivial
theorem ReadsBack.stepStart (c q : Nat) : ReadsBack.Statement (.stepStart c q) := trivial
theorem ReadsBack.stepStop (c q : Nat) : ReadsBack.Statement (.stepStop c q) := trivial
theorem ReadsBack.snapDefineRegion (c q : Nat) : ReadsBack.Statement (.snapDefineRegion c q) := trivial
theorem ReadsBack.snapReleaseRegion (c q : Nat) : ReadsBack.Statement (.snapReleaseRegion c q) := trivial
theorem ReadsBack.snapAwaitStep (c q : Nat) : ReadsBack.Statement (.snapAwaitStep c q) := trivial
theorem ReadsBack.mendDeclareGroup (c q : Nat) : ReadsBack.Statement (.mendDeclareGroup c q) := trivial
theorem ReadsBack.mendRebuild (c q f : Nat) (placed : Bool) : ReadsBack.Statement (.mendRebuild c q f placed) := trivial
theorem ReadsBack.mendGroupRollback (c q : Nat) : ReadsBack.Statement (.mendGroupRollback c q) := trivial
theorem ReadsBack.resume (c q : Nat) : ReadsBack.Statement (.resume c q) := trivial
theorem ReadsBack.deferredFaultEvent (core slot : Nat) : ReadsBack.Statement (.deferredFaultEvent core slot) := trivial
theorem ReadsBack.accessAnswer (id ch : Nat) (perform : Bool) : ReadsBack.Statement (.accessAnswer id ch perform) := trivial
theorem ReadsBack.combineIdleFlush (core i : Nat) : ReadsBack.Statement (.combineIdleFlush core i) := trivial
theorem ReadsBack.fabricRequest (r : FabReq) : ReadsBack.Statement (.fabricRequest r) := trivial
theorem ReadsBack.fabricResponse (pid : Nat) (r : FabResult) : ReadsBack.Statement (.fabricResponse pid r) := trivial
theorem ReadsBack.fabricTimeout (pid : Nat) : ReadsBack.Statement (.fabricTimeout pid) := trivial
theorem ReadsBack.fabricEvent (core slot : Nat) : ReadsBack.Statement (.fabricEvent core slot) := trivial
theorem ReadsBack.planeSilenceTimeout (plane : Nat) : ReadsBack.Statement (.planeSilenceTimeout plane) := trivial
theorem ReadsBack.switchPortFailed (plane : Nat) : ReadsBack.Statement (.switchPortFailed plane) := trivial
theorem ReadsBack.switchReachabilityReport (peer : Nat) (planes : BitVec 36) : ReadsBack.Statement (.switchReachabilityReport peer planes) := trivial
theorem ReadsBack.fabricLinkTrained (plane : Nat) (sport : BitVec 9) : ReadsBack.Statement (.fabricLinkTrained plane sport) := trivial
theorem ReadsBack.starvationForce (port tier : Nat) : ReadsBack.Statement (.starvationForce port tier) := trivial
theorem ReadsBack.hamperWriteback (stack : Nat) : ReadsBack.Statement (.hamperWriteback stack) := trivial
theorem ReadsBack.patrolScrub (chan : Nat) : ReadsBack.Statement (.patrolScrub chan) := trivial
theorem ReadsBack.hbmRefresh (chan bank : Nat) (busy : Bool) : ReadsBack.Statement (.hbmRefresh chan bank busy) := trivial
theorem ReadsBack.alertBackoff (chan bank : Nat) : ReadsBack.Statement (.alertBackoff chan bank) := trivial
theorem ReadsBack.teamPlace (die : Nat) : ReadsBack.Statement (.teamPlace die) := trivial
theorem ReadsBack.pipelineStart (ctx : Nat) (pipe : BitVec 64) : ReadsBack.Statement (.pipelineStart ctx pipe) := trivial
theorem ReadsBack.teamRetire (id : Nat) : ReadsBack.Statement (.teamRetire id) := trivial
theorem ReadsBack.timeSliceExpiry (ctx serial : Nat) : ReadsBack.Statement (.timeSliceExpiry ctx serial) := trivial
theorem ReadsBack.preemptAutoResume (c : Nat) : ReadsBack.Statement (.preemptAutoResume c) := trivial
theorem ReadsBack.contextSave (c : Nat) : ReadsBack.Statement (.contextSave c) := trivial
theorem ReadsBack.pdlExpiry (core slot : Nat) : ReadsBack.Statement (.pdlExpiry core slot) := trivial
theorem ReadsBack.teardownComplete (c : Nat) : ReadsBack.Statement (.teardownComplete c) := trivial
theorem ReadsBack.softError (place : SoftPlace) : ReadsBack.Statement (.softError place) := trivial
theorem ReadsBack.sleepExpiry (core slot : Nat) : ReadsBack.Statement (.sleepExpiry core slot) := trivial
theorem ReadsBack.swaitPoll (core slot : Nat) : ReadsBack.Statement (.swaitPoll core slot) := trivial
theorem ReadsBack.shuttleStart (id : Nat) : ReadsBack.Statement (.shuttleStart id) := trivial
theorem ReadsBack.shcopyCollectiveStart (team n : Nat) : ReadsBack.Statement (.shcopyCollectiveStart team n) := trivial
theorem ReadsBack.sectorPerformed (id sector : Nat) : ReadsBack.Statement (.sectorPerformed id sector) := trivial
theorem ReadsBack.shuttleComplete (id : Nat) : ReadsBack.Statement (.shuttleComplete id) := trivial
theorem ReadsBack.matrixKstep (team : Nat) : ReadsBack.Statement (.matrixKstep team) := trivial
theorem ReadsBack.matrixComplete (team : Nat) : ReadsBack.Statement (.matrixComplete team) := trivial
theorem ReadsBack.nmvComplete (id : Nat) : ReadsBack.Statement (.nmvComplete id) := trivial
theorem ReadsBack.itineraryDispatch : ReadsBack.Statement (.itineraryDispatch) := trivial
theorem ReadsBack.sync : ReadsBack.Statement (.sync) := trivial
theorem ReadsBack.stepend : ReadsBack.Statement (.stepend) := trivial
theorem ReadsBack.stependAck (die : Nat) : ReadsBack.Statement (.stependAck die) := trivial
theorem ReadsBack.controlBlockReread : ReadsBack.Statement (.controlBlockReread) := trivial
theorem ReadsBack.stallReport : ReadsBack.Statement (.stallReport) := trivial
theorem ReadsBack.stepCommit : ReadsBack.Statement (.stepCommit) := trivial
theorem ReadsBack.encodeStep : ReadsBack.Statement (.encodeStep) := trivial
theorem ReadsBack.doneMessage (peer n : Nat) (job : BitVec 16) : ReadsBack.Statement (.doneMessage peer n job) := trivial
theorem ReadsBack.heartbeatSend : ReadsBack.Statement (.heartbeatSend) := trivial
theorem ReadsBack.memberLoss (peer : Nat) : ReadsBack.Statement (.memberLoss peer) := trivial
theorem ReadsBack.backfillComplete : ReadsBack.Statement (.backfillComplete) := trivial
theorem ReadsBack.attach (c : Nat) : ReadsBack.Statement (.attach c) := trivial
theorem ReadsBack.detach : ReadsBack.Statement (.detach) := trivial
theorem ReadsBack.debugHalt (t : DebugTarget) : ReadsBack.Statement (.debugHalt t) := trivial
theorem ReadsBack.run (t : DebugTarget) : ReadsBack.Statement (.run t) := trivial
theorem ReadsBack.debugStep (core : DebugCore) (slot : Nat) : ReadsBack.Statement (.debugStep core slot) := trivial
theorem ReadsBack.release (t : DebugTarget) : ReadsBack.Statement (.release t) := trivial
theorem ReadsBack.debugRead (core : DebugCore) (slot : Nat) (w : DebugPlace) : ReadsBack.Statement (.debugRead core slot w) := trivial
theorem ReadsBack.debugWrite (core : DebugCore) (slot : Nat) (w : DebugPlace) (v : BitVec 64) : ReadsBack.Statement (.debugWrite core slot w v) := trivial
theorem ReadsBack.rationCycleEnd (cluster : Nat) : ReadsBack.Statement (.rationCycleEnd cluster) := trivial
theorem ReadsBack.i3cPrivateRead (n : Nat) : ReadsBack.Statement (.i3cPrivateRead n) := trivial
theorem ReadsBack.nop (p : Pfx) : ReadsBack.Statement (.nop p) := fun _ => by
  rw [parse_r _ _ _ _ p _ 1 0 rfl rfl]
  show some (Instr.nop p) = _
  rfl
theorem ReadsBack.brk (p : Pfx) (b : BitVec 7) : ReadsBack.Statement (.brk p b) := fun _ => by
  rw [parse_r _ _ _ _ p _ 1 1 rfl rfl]
  show some (Instr.brk p (cB _)) = _
  rw [cB_r]
theorem ReadsBack.exit (p : Pfx) : ReadsBack.Statement (.exit p) := fun _ => by
  rw [parse_r _ _ _ _ p _ 1 2 rfl rfl]
  show some (Instr.exit p) = _
  rfl
theorem ReadsBack.tret (p : Pfx) : ReadsBack.Statement (.tret p) := fun _ => by
  rw [parse_r _ _ _ _ p _ 1 3 rfl rfl]
  show some (Instr.tret p) = _
  rfl
theorem ReadsBack.yield (p : Pfx) : ReadsBack.Statement (.yield p) := fun _ => by
  rw [parse_r _ _ _ _ p _ 1 4 rfl rfl]
  show some (Instr.yield p) = _
  rfl
theorem ReadsBack.trig (p : Pfx) : ReadsBack.Statement (.trig p) := fun _ => by
  rw [parse_r _ _ _ _ p _ 1 5 rfl rfl]
  show some (Instr.trig p) = _
  rfl
theorem ReadsBack.rgn (p : Pfx) : ReadsBack.Statement (.rgn p) := fun _ => by
  rw [parse_r _ _ _ _ p _ 1 6 rfl rfl]
  show some (Instr.rgn p) = _
  rfl
theorem ReadsBack.ifence (p : Pfx) : ReadsBack.Statement (.ifence p) := fun _ => by
  rw [parse_r _ _ _ _ p _ 1 7 rfl rfl]
  show some (Instr.ifence p) = _
  rfl
theorem ReadsBack.win (p : Pfx) (b : BitVec 7) : ReadsBack.Statement (.win p b) := fun _ => by
  rw [parse_r _ _ _ _ p _ 1 8 rfl rfl]
  show some (Instr.win p (cB _)) = _
  rw [cB_r]
theorem ReadsBack.sleep (p : Pfx) (a : Opnd) : ReadsBack.Statement (.sleep p a) := fun _ => by
  rw [parse_r _ _ _ _ p _ 1 9 rfl rfl]
  show some (Instr.sleep p (fA _)) = _
  rw [fA_r]
theorem ReadsBack.getsr (p : Pfx) (d : Opnd) (b : BitVec 7) : ReadsBack.Statement (.getsr p d b) := fun _ => by
  rw [parse_r _ _ _ _ p _ 1 10 rfl rfl]
  show some (Instr.getsr p (fD _) (cB _)) = _
  rw [fD_r, cB_r]
theorem ReadsBack.setsr (p : Pfx) (a : Opnd) (b : BitVec 7) : ReadsBack.Statement (.setsr p a b) := fun _ => by
  rw [parse_r _ _ _ _ p _ 1 11 rfl rfl]
  show some (Instr.setsr p (fA _) (cB _)) = _
  rw [fA_r, cB_r]
theorem ReadsBack.trap (p : Pfx) (i : BitVec 12) : ReadsBack.Statement (.trap p i) := fun _ => by
  rw [parse_major p _ _ 2 rfl]
  show some (Instr.trap p (BitVec.extractLsb' 0 12 _)) = _
  rw [i_imm]
theorem ReadsBack.sadd (p : Pfx) (d : Opnd) (a : Opnd) (b : Opnd) : ReadsBack.Statement (.sadd p d a b) := fun _ => by
  rw [parse_r _ _ _ _ p _ 3 0 rfl rfl]
  show some (Instr.sadd p (fD _) (fA _) (fB _)) = _
  rw [fD_r, fA_r, fB_r]
theorem ReadsBack.ssub (p : Pfx) (d : Opnd) (a : Opnd) (b : Opnd) : ReadsBack.Statement (.ssub p d a b) := fun _ => by
  rw [parse_r _ _ _ _ p _ 3 1 rfl rfl]
  show some (Instr.ssub p (fD _) (fA _) (fB _)) = _
  rw [fD_r, fA_r, fB_r]
theorem ReadsBack.smul (p : Pfx) (d : Opnd) (a : Opnd) (b : Opnd) : ReadsBack.Statement (.smul p d a b) := fun _ => by
  rw [parse_r _ _ _ _ p _ 3 2 rfl rfl]
  show some (Instr.smul p (fD _) (fA _) (fB _)) = _
  rw [fD_r, fA_r, fB_r]
theorem ReadsBack.smulhi (p : Pfx) (d : Opnd) (a : Opnd) (b : Opnd) : ReadsBack.Statement (.smulhi p d a b) := fun _ => by
  rw [parse_r _ _ _ _ p _ 3 3 rfl rfl]
  show some (Instr.smulhi p (fD _) (fA _) (fB _)) = _
  rw [fD_r, fA_r, fB_r]
theorem ReadsBack.smulhn (p : Pfx) (d : Opnd) (a : Opnd) (b : Opnd) : ReadsBack.Statement (.smulhn p d a b) := fun _ => by
  rw [parse_r _ _ _ _ p _ 3 4 rfl rfl]
  show some (Instr.smulhn p (fD _) (fA _) (fB _)) = _
  rw [fD_r, fA_r, fB_r]
theorem ReadsBack.sand (p : Pfx) (d : Opnd) (a : Opnd) (b : Opnd) : ReadsBack.Statement (.sand p d a b) := fun _ => by
  rw [parse_r _ _ _ _ p _ 3 5 rfl rfl]
  show some (Instr.sand p (fD _) (fA _) (fB _)) = _
  rw [fD_r, fA_r, fB_r]
theorem ReadsBack.sor (p : Pfx) (d : Opnd) (a : Opnd) (b : Opnd) : ReadsBack.Statement (.sor p d a b) := fun _ => by
  rw [parse_r _ _ _ _ p _ 3 6 rfl rfl]
  show some (Instr.sor p (fD _) (fA _) (fB _)) = _
  rw [fD_r, fA_r, fB_r]
theorem ReadsBack.sxor (p : Pfx) (d : Opnd) (a : Opnd) (b : Opnd) : ReadsBack.Statement (.sxor p d a b) := fun _ => by
  rw [parse_r _ _ _ _ p _ 3 7 rfl rfl]
  show some (Instr.sxor p (fD _) (fA _) (fB _)) = _
  rw [fD_r, fA_r, fB_r]
theorem ReadsBack.sandn (p : Pfx) (d : Opnd) (a : Opnd) (b : Opnd) : ReadsBack.Statement (.sandn p d a b) := fun _ => by
  rw [parse_r _ _ _ _ p _ 3 8 rfl rfl]
  show some (Instr.sandn p (fD _) (fA _) (fB _)) = _
  rw [fD_r, fA_r, fB_r]
theorem ReadsBack.sshl (p : Pfx) (d : Opnd) (a : Opnd) (b : Opnd) : ReadsBack.Statement (.sshl p d a b) := fun _ => by
  rw [parse_r _ _ _ _ p _ 3 9 rfl rfl]
  show some (Instr.sshl p (fD _) (fA _) (fB _)) = _
  rw [fD_r, fA_r, fB_r]
theorem ReadsBack.sshr (p : Pfx) (d : Opnd) (a : Opnd) (b : Opnd) : ReadsBack.Statement (.sshr p d a b) := fun _ => by
  rw [parse_r _ _ _ _ p _ 3 10 rfl rfl]
  show some (Instr.sshr p (fD _) (fA _) (fB _)) = _
  rw [fD_r, fA_r, fB_r]
theorem ReadsBack.ssra (p : Pfx) (d : Opnd) (a : Opnd) (b : Opnd) : ReadsBack.Statement (.ssra p d a b) := fun _ => by
  rw [parse_r _ _ _ _ p _ 3 11 rfl rfl]
  show some (Instr.ssra p (fD _) (fA _) (fB _)) = _
  rw [fD_r, fA_r, fB_r]
theorem ReadsBack.smin (p : Pfx) (d : Opnd) (a : Opnd) (b : Opnd) : ReadsBack.Statement (.smin p d a b) := fun _ => by
  rw [parse_r _ _ _ _ p _ 3 12 rfl rfl]
  show some (Instr.smin p (fD _) (fA _) (fB _)) = _
  rw [fD_r, fA_r, fB_r]
theorem ReadsBack.smax (p : Pfx) (d : Opnd) (a : Opnd) (b : Opnd) : ReadsBack.Statement (.smax p d a b) := fun _ => by
  rw [parse_r _ _ _ _ p _ 3 13 rfl rfl]
  show some (Instr.smax p (fD _) (fA _) (fB _)) = _
  rw [fD_r, fA_r, fB_r]
theorem ReadsBack.sminn (p : Pfx) (d : Opnd) (a : Opnd) (b : Opnd) : ReadsBack.Statement (.sminn p d a b) := fun _ => by
  rw [parse_r _ _ _ _ p _ 3 14 rfl rfl]
  show some (Instr.sminn p (fD _) (fA _) (fB _)) = _
  rw [fD_r, fA_r, fB_r]
theorem ReadsBack.smaxn (p : Pfx) (d : Opnd) (a : Opnd) (b : Opnd) : ReadsBack.Statement (.smaxn p d a b) := fun _ => by
  rw [parse_r _ _ _ _ p _ 3 15 rfl rfl]
  show some (Instr.smaxn p (fD _) (fA _) (fB _)) = _
  rw [fD_r, fA_r, fB_r]
theorem ReadsBack.sclz (p : Pfx) (d : Opnd) (a : Opnd) : ReadsBack.Statement (.sclz p d a) := fun _ => by
  rw [parse_r _ _ _ _ p _ 3 16 rfl rfl]
  show some (Instr.sclz p (fD _) (fA _)) = _
  rw [fD_r, fA_r]
theorem ReadsBack.spopc (p : Pfx) (d : Opnd) (a : Opnd) : ReadsBack.Statement (.spopc p d a) := fun _ => by
  rw [parse_r _ _ _ _ p _ 3 17 rfl rfl]
  show some (Instr.spopc p (fD _) (fA _)) = _
  rw [fD_r, fA_r]
theorem ReadsBack.sffs (p : Pfx) (d : Opnd) (a : Opnd) : ReadsBack.Statement (.sffs p d a) := fun _ => by
  rw [parse_r _ _ _ _ p _ 3 18 rfl rfl]
  show some (Instr.sffs p (fD _) (fA _)) = _
  rw [fD_r, fA_r]
theorem ReadsBack.sbrev (p : Pfx) (d : Opnd) (a : Opnd) : ReadsBack.Statement (.sbrev p d a) := fun _ => by
  rw [parse_r _ _ _ _ p _ 3 19 rfl rfl]
  show some (Instr.sbrev p (fD _) (fA _)) = _
  rw [fD_r, fA_r]
theorem ReadsBack.seq (p : Pfx) (d : Opnd) (a : Opnd) (b : Opnd) : ReadsBack.Statement (.seq p d a b) := fun _ => by
  rw [parse_r _ _ _ _ p _ 3 20 rfl rfl]
  show some (Instr.seq p (fD _) (fA _) (fB _)) = _
  rw [fD_r, fA_r, fB_r]
theorem ReadsBack.sne (p : Pfx) (d : Opnd) (a : Opnd) (b : Opnd) : ReadsBack.Statement (.sne p d a b) := fun _ => by
  rw [parse_r _ _ _ _ p _ 3 21 rfl rfl]
  show some (Instr.sne p (fD _) (fA _) (fB _)) = _
  rw [fD_r, fA_r, fB_r]
theorem ReadsBack.slt (p : Pfx) (d : Opnd) (a : Opnd) (b : Opnd) : ReadsBack.Statement (.slt p d a b) := fun _ => by
  rw [parse_r _ _ _ _ p _ 3 22 rfl rfl]
  show some (Instr.slt p (fD _) (fA _) (fB _)) = _
  rw [fD_r, fA_r, fB_r]
theorem ReadsBack.sle (p : Pfx) (d : Opnd) (a : Opnd) (b : Opnd) : ReadsBack.Statement (.sle p d a b) := fun _ => by
  rw [parse_r _ _ _ _ p _ 3 23 rfl rfl]
  show some (Instr.sle p (fD _) (fA _) (fB _)) = _
  rw [fD_r, fA_r, fB_r]
theorem ReadsBack.sltn (p : Pfx) (d : Opnd) (a : Opnd) (b : Opnd) : ReadsBack.Statement (.sltn p d a b) := fun _ => by
  rw [parse_r _ _ _ _ p _ 3 24 rfl rfl]
  show some (Instr.sltn p (fD _) (fA _) (fB _)) = _
  rw [fD_r, fA_r, fB_r]
theorem ReadsBack.slen (p : Pfx) (d : Opnd) (a : Opnd) (b : Opnd) : ReadsBack.Statement (.slen p d a b) := fun _ => by
  rw [parse_r _ _ _ _ p _ 3 25 rfl rfl]
  show some (Instr.slen p (fD _) (fA _) (fB _)) = _
  rw [fD_r, fA_r, fB_r]
theorem ReadsBack.saddi (p : Pfx) (d : Opnd) (a : Opnd) (i : BitVec 12) : ReadsBack.Statement (.saddi p d a i) := fun _ => by
  rw [parse_major p _ _ 4 rfl]
  show some (Instr.saddi p (fD _) (fA _) (BitVec.extractLsb' 0 12 _)) = _
  rw [fD_i, fA_i, i_imm]
theorem ReadsBack.sandi (p : Pfx) (d : Opnd) (a : Opnd) (i : BitVec 12) : ReadsBack.Statement (.sandi p d a i) := fun _ => by
  rw [parse_major p _ _ 5 rfl]
  show some (Instr.sandi p (fD _) (fA _) (BitVec.extractLsb' 0 12 _)) = _
  rw [fD_i, fA_i, i_imm]
theorem ReadsBack.sori (p : Pfx) (d : Opnd) (a : Opnd) (i : BitVec 12) : ReadsBack.Statement (.sori p d a i) := fun _ => by
  rw [parse_major p _ _ 6 rfl]
  show some (Instr.sori p (fD _) (fA _) (BitVec.extractLsb' 0 12 _)) = _
  rw [fD_i, fA_i, i_imm]
theorem ReadsBack.sxori (p : Pfx) (d : Opnd) (a : Opnd) (i : BitVec 12) : ReadsBack.Statement (.sxori p d a i) := fun _ => by
  rw [parse_major p _ _ 7 rfl]
  show some (Instr.sxori p (fD _) (fA _) (BitVec.extractLsb' 0 12 _)) = _
  rw [fD_i, fA_i, i_imm]
theorem ReadsBack.sli (p : Pfx) (d : Opnd) (i : BitVec 19) : ReadsBack.Statement (.sli p d i) := fun _ => by
  rw [parse_major p _ _ 8 rfl]
  show some (Instr.sli p (fD _) (BitVec.extractLsb' 0 19 _)) = _
  rw [fD_u, u_imm]
theorem ReadsBack.vadd (p : Pfx) (d : Opnd) (a : Opnd) (b : Opnd) : ReadsBack.Statement (.vadd p d a b) := fun _ => by
  rw [parse_r _ _ _ _ p _ 9 0 rfl rfl]
  show some (Instr.vadd p (fD _) (fA _) (fB _)) = _
  rw [fD_r, fA_r, fB_r]
theorem ReadsBack.vsub (p : Pfx) (d : Opnd) (a : Opnd) (b : Opnd) : ReadsBack.Statement (.vsub p d a b) := fun _ => by
  rw [parse_r _ _ _ _ p _ 9 1 rfl rfl]
  show some (Instr.vsub p (fD _) (fA _) (fB _)) = _
  rw [fD_r, fA_r, fB_r]
theorem ReadsBack.vmul (p : Pfx) (d : Opnd) (a : Opnd) (b : Opnd) : ReadsBack.Statement (.vmul p d a b) := fun _ => by
  rw [parse_r _ _ _ _ p _ 9 2 rfl rfl]
  show some (Instr.vmul p (fD _) (fA _) (fB _)) = _
  rw [fD_r, fA_r, fB_r]
theorem ReadsBack.vmulhi (p : Pfx) (d : Opnd) (a : Opnd) (b : Opnd) : ReadsBack.Statement (.vmulhi p d a b) := fun _ => by
  rw [parse_r _ _ _ _ p _ 9 3 rfl rfl]
  show some (Instr.vmulhi p (fD _) (fA _) (fB _)) = _
  rw [fD_r, fA_r, fB_r]
theorem ReadsBack.vmulhn (p : Pfx) (d : Opnd) (a : Opnd) (b : Opnd) : ReadsBack.Statement (.vmulhn p d a b) := fun _ => by
  rw [parse_r _ _ _ _ p _ 9 4 rfl rfl]
  show some (Instr.vmulhn p (fD _) (fA _) (fB _)) = _
  rw [fD_r, fA_r, fB_r]
theorem ReadsBack.vmad (p : Pfx) (d : Opnd) (a : Opnd) (b : Opnd) : ReadsBack.Statement (.vmad p d a b) := fun _ => by
  rw [parse_r _ _ _ _ p _ 9 5 rfl rfl]
  show some (Instr.vmad p (fD _) (fA _) (fB _)) = _
  rw [fD_r, fA_r, fB_r]
theorem ReadsBack.vand (p : Pfx) (d : Opnd) (a : Opnd) (b : Opnd) : ReadsBack.Statement (.vand p d a b) := fun _ => by
  rw [parse_r _ _ _ _ p _ 9 6 rfl rfl]
  show some (Instr.vand p (fD _) (fA _) (fB _)) = _
  rw [fD_r, fA_r, fB_r]
theorem ReadsBack.vor (p : Pfx) (d : Opnd) (a : Opnd) (b : Opnd) : ReadsBack.Statement (.vor p d a b) := fun _ => by
  rw [parse_r _ _ _ _ p _ 9 7 rfl rfl]
  show some (Instr.vor p (fD _) (fA _) (fB _)) = _
  rw [fD_r, fA_r, fB_r]
theorem ReadsBack.vxor (p : Pfx) (d : Opnd) (a : Opnd) (b : Opnd) : ReadsBack.Statement (.vxor p d a b) := fun _ => by
  rw [parse_r _ _ _ _ p _ 9 8 rfl rfl]
  show some (Instr.vxor p (fD _) (fA _) (fB _)) = _
  rw [fD_r, fA_r, fB_r]
theorem ReadsBack.vandn (p : Pfx) (d : Opnd) (a : Opnd) (b : Opnd) : ReadsBack.Statement (.vandn p d a b) := fun _ => by
  rw [parse_r _ _ _ _ p _ 9 9 rfl rfl]
  show some (Instr.vandn p (fD _) (fA _) (fB _)) = _
  rw [fD_r, fA_r, fB_r]
theorem ReadsBack.vshl (p : Pfx) (d : Opnd) (a : Opnd) (b : Opnd) : ReadsBack.Statement (.vshl p d a b) := fun _ => by
  rw [parse_r _ _ _ _ p _ 9 10 rfl rfl]
  show some (Instr.vshl p (fD _) (fA _) (fB _)) = _
  rw [fD_r, fA_r, fB_r]
theorem ReadsBack.vshr (p : Pfx) (d : Opnd) (a : Opnd) (b : Opnd) : ReadsBack.Statement (.vshr p d a b) := fun _ => by
  rw [parse_r _ _ _ _ p _ 9 11 rfl rfl]
  show some (Instr.vshr p (fD _) (fA _) (fB _)) = _
  rw [fD_r, fA_r, fB_r]
theorem ReadsBack.vsra (p : Pfx) (d : Opnd) (a : Opnd) (b : Opnd) : ReadsBack.Statement (.vsra p d a b) := fun _ => by
  rw [parse_r _ _ _ _ p _ 9 12 rfl rfl]
  show some (Instr.vsra p (fD _) (fA _) (fB _)) = _
  rw [fD_r, fA_r, fB_r]
theorem ReadsBack.vmin (p : Pfx) (d : Opnd) (a : Opnd) (b : Opnd) : ReadsBack.Statement (.vmin p d a b) := fun _ => by
  rw [parse_r _ _ _ _ p _ 9 13 rfl rfl]
  show some (Instr.vmin p (fD _) (fA _) (fB _)) = _
  rw [fD_r, fA_r, fB_r]
theorem ReadsBack.vmax (p : Pfx) (d : Opnd) (a : Opnd) (b : Opnd) : ReadsBack.Statement (.vmax p d a b) := fun _ => by
  rw [parse_r _ _ _ _ p _ 9 14 rfl rfl]
  show some (Instr.vmax p (fD _) (fA _) (fB _)) = _
  rw [fD_r, fA_r, fB_r]
theorem ReadsBack.vminn (p : Pfx) (d : Opnd) (a : Opnd) (b : Opnd) : ReadsBack.Statement (.vminn p d a b) := fun _ => by
  rw [parse_r _ _ _ _ p _ 9 15 rfl rfl]
  show some (Instr.vminn p (fD _) (fA _) (fB _)) = _
  rw [fD_r, fA_r, fB_r]
theorem ReadsBack.vmaxn (p : Pfx) (d : Opnd) (a : Opnd) (b : Opnd) : ReadsBack.Statement (.vmaxn p d a b) := fun _ => by
  rw [parse_r _ _ _ _ p _ 9 16 rfl rfl]
  show some (Instr.vmaxn p (fD _) (fA _) (fB _)) = _
  rw [fD_r, fA_r, fB_r]
theorem ReadsBack.vabs (p : Pfx) (d : Opnd) (a : Opnd) : ReadsBack.Statement (.vabs p d a) := fun _ => by
  rw [parse_r _ _ _ _ p _ 9 17 rfl rfl]
  show some (Instr.vabs p (fD _) (fA _)) = _
  rw [fD_r, fA_r]
theorem ReadsBack.vabsd (p : Pfx) (d : Opnd) (a : Opnd) (b : Opnd) : ReadsBack.Statement (.vabsd p d a b) := fun _ => by
  rw [parse_r _ _ _ _ p _ 9 18 rfl rfl]
  show some (Instr.vabsd p (fD _) (fA _) (fB _)) = _
  rw [fD_r, fA_r, fB_r]
theorem ReadsBack.vsadd (p : Pfx) (d : Opnd) (a : Opnd) (b : Opnd) : ReadsBack.Statement (.vsadd p d a b) := fun _ => by
  rw [parse_r _ _ _ _ p _ 9 19 rfl rfl]
  show some (Instr.vsadd p (fD _) (fA _) (fB _)) = _
  rw [fD_r, fA_r, fB_r]
theorem ReadsBack.vssub (p : Pfx) (d : Opnd) (a : Opnd) (b : Opnd) : ReadsBack.Statement (.vssub p d a b) := fun _ => by
  rw [parse_r _ _ _ _ p _ 9 20 rfl rfl]
  show some (Instr.vssub p (fD _) (fA _) (fB _)) = _
  rw [fD_r, fA_r, fB_r]
theorem ReadsBack.vsaddn (p : Pfx) (d : Opnd) (a : Opnd) (b : Opnd) : ReadsBack.Statement (.vsaddn p d a b) := fun _ => by
  rw [parse_r _ _ _ _ p _ 9 21 rfl rfl]
  show some (Instr.vsaddn p (fD _) (fA _) (fB _)) = _
  rw [fD_r, fA_r, fB_r]
theorem ReadsBack.vssubn (p : Pfx) (d : Opnd) (a : Opnd) (b : Opnd) : ReadsBack.Statement (.vssubn p d a b) := fun _ => by
  rw [parse_r _ _ _ _ p _ 9 22 rfl rfl]
  show some (Instr.vssubn p (fD _) (fA _) (fB _)) = _
  rw [fD_r, fA_r, fB_r]
theorem ReadsBack.vclz (p : Pfx) (d : Opnd) (a : Opnd) : ReadsBack.Statement (.vclz p d a) := fun _ => by
  rw [parse_r _ _ _ _ p _ 9 23 rfl rfl]
  show some (Instr.vclz p (fD _) (fA _)) = _
  rw [fD_r, fA_r]
theorem ReadsBack.vpopc (p : Pfx) (d : Opnd) (a : Opnd) : ReadsBack.Statement (.vpopc p d a) := fun _ => by
  rw [parse_r _ _ _ _ p _ 9 24 rfl rfl]
  show some (Instr.vpopc p (fD _) (fA _)) = _
  rw [fD_r, fA_r]
theorem ReadsBack.vbrev (p : Pfx) (d : Opnd) (a : Opnd) : ReadsBack.Statement (.vbrev p d a) := fun _ => by
  rw [parse_r _ _ _ _ p _ 9 25 rfl rfl]
  show some (Instr.vbrev p (fD _) (fA _)) = _
  rw [fD_r, fA_r]
theorem ReadsBack.vbfe (p : Pfx) (d : Opnd) (a : Opnd) (b : Opnd) : ReadsBack.Statement (.vbfe p d a b) := fun _ => by
  rw [parse_r _ _ _ _ p _ 9 26 rfl rfl]
  show some (Instr.vbfe p (fD _) (fA _) (fB _)) = _
  rw [fD_r, fA_r, fB_r]
theorem ReadsBack.vbfes (p : Pfx) (d : Opnd) (a : Opnd) (b : Opnd) : ReadsBack.Statement (.vbfes p d a b) := fun _ => by
  rw [parse_r _ _ _ _ p _ 9 27 rfl rfl]
  show some (Instr.vbfes p (fD _) (fA _) (fB _)) = _
  rw [fD_r, fA_r, fB_r]
theorem ReadsBack.vbfi (p : Pfx) (d : Opnd) (a : Opnd) (b : Opnd) : ReadsBack.Statement (.vbfi p d a b) := fun _ => by
  rw [parse_r _ _ _ _ p _ 9 28 rfl rfl]
  show some (Instr.vbfi p (fD _) (fA _) (fB _)) = _
  rw [fD_r, fA_r, fB_r]
theorem ReadsBack.vaddw (p : Pfx) (d : Opnd) (a : Opnd) (b : Opnd) : ReadsBack.Statement (.vaddw p d a b) := fun _ => by
  rw [parse_r _ _ _ _ p _ 9 29 rfl rfl]
  show some (Instr.vaddw p (fD _) (fA _) (fB _)) = _
  rw [fD_r, fA_r, fB_r]
theorem ReadsBack.vsubw (p : Pfx) (d : Opnd) (a : Opnd) (b : Opnd) : ReadsBack.Statement (.vsubw p d a b) := fun _ => by
  rw [parse_r _ _ _ _ p _ 9 30 rfl rfl]
  show some (Instr.vsubw p (fD _) (fA _) (fB _)) = _
  rw [fD_r, fA_r, fB_r]
theorem ReadsBack.vaddi (p : Pfx) (d : Opnd) (a : Opnd) (i : BitVec 12) : ReadsBack.Statement (.vaddi p d a i) := fun _ => by
  rw [parse_major p _ _ 10 rfl]
  show some (Instr.vaddi p (fD _) (fA _) (BitVec.extractLsb' 0 12 _)) = _
  rw [fD_i, fA_i, i_imm]
theorem ReadsBack.vandi (p : Pfx) (d : Opnd) (a : Opnd) (i : BitVec 12) : ReadsBack.Statement (.vandi p d a i) := fun _ => by
  rw [parse_major p _ _ 11 rfl]
  show some (Instr.vandi p (fD _) (fA _) (BitVec.extractLsb' 0 12 _)) = _
  rw [fD_i, fA_i, i_imm]
theorem ReadsBack.vshli (p : Pfx) (d : Opnd) (a : Opnd) (i : BitVec 12) : ReadsBack.Statement (.vshli p d a i) := fun _ => by
  rw [parse_major p _ _ 12 rfl]
  show some (Instr.vshli p (fD _) (fA _) (BitVec.extractLsb' 0 12 _)) = _
  rw [fD_i, fA_i, i_imm]
theorem ReadsBack.vshri (p : Pfx) (d : Opnd) (a : Opnd) (i : BitVec 12) : ReadsBack.Statement (.vshri p d a i) := fun _ => by
  rw [parse_major p _ _ 13 rfl]
  show some (Instr.vshri p (fD _) (fA _) (BitVec.extractLsb' 0 12 _)) = _
  rw [fD_i, fA_i, i_imm]
theorem ReadsBack.vsrai (p : Pfx) (d : Opnd) (a : Opnd) (i : BitVec 12) : ReadsBack.Statement (.vsrai p d a i) := fun _ => by
  rw [parse_major p _ _ 14 rfl]
  show some (Instr.vsrai p (fD _) (fA _) (BitVec.extractLsb' 0 12 _)) = _
  rw [fD_i, fA_i, i_imm]
theorem ReadsBack.vmuli (p : Pfx) (d : Opnd) (a : Opnd) (i : BitVec 12) : ReadsBack.Statement (.vmuli p d a i) := fun _ => by
  rw [parse_major p _ _ 15 rfl]
  show some (Instr.vmuli p (fD _) (fA _) (BitVec.extractLsb' 0 12 _)) = _
  rw [fD_i, fA_i, i_imm]
theorem ReadsBack.vcmp (p : Pfx) (d : Opnd) (a : Opnd) (b : Opnd) (c : BitVec 3) (t : BitVec 2) : ReadsBack.Statement (.vcmp p d a b c t) := fun h => by
  have ht : t.toNat < 3 := of_decide_eq_true h
  have hall : ∀ (c : BitVec 3) (t : BitVec 2), t.toNat < 3 → ¬ (c ++ t).toNat % 4 = 3 := by decide
  have hm := hall c t ht
  rw [parse_major p _ _ 16 rfl, r_cF]
  show (if (c ++ t).toNat % 4 = 3 then none
    else some (Instr.vcmp p (fD _) (fA _) (fB _) (BitVec.extractLsb' 2 3 _) (BitVec.extractLsb' 0 2 _))) = _
  rw [if_neg hm, fD_r, fA_r, fB_r, r_f _ _ _ _ _ 2 3 (by omega), r_f _ _ _ _ _ 0 2 (by omega), extract_high c t,
    extract_low c t 0 2 (by omega), extract_all]
theorem ReadsBack.vcmph (p : Pfx) (d : Opnd) (a : Opnd) (b : Opnd) (c : BitVec 3) (t : BitVec 2) : ReadsBack.Statement (.vcmph p d a b c t) := fun h => by
  rw [parse_major p _ _ 17 rfl]
  show some (Instr.vcmph p (fD _) (fA _) (fB _) (BitVec.extractLsb' 2 3 _) (BitVec.extractLsb' 0 2 _)) = _
  rw [fD_r, fA_r, fB_r, r_f _ _ _ _ _ 2 3 (by omega), r_f _ _ _ _ _ 0 2 (by omega), extract_high c t,
    extract_low c t 0 2 (by omega), extract_all]
theorem ReadsBack.fadd (p : Pfx) (d : Opnd) (a : Opnd) (b : Opnd) : ReadsBack.Statement (.fadd p d a b) := fun _ => by
  rw [parse_r _ _ _ _ p _ 18 0 rfl rfl]
  show some (Instr.fadd p (fD _) (fA _) (fB _)) = _
  rw [fD_r, fA_r, fB_r]
theorem ReadsBack.fsub (p : Pfx) (d : Opnd) (a : Opnd) (b : Opnd) : ReadsBack.Statement (.fsub p d a b) := fun _ => by
  rw [parse_r _ _ _ _ p _ 18 1 rfl rfl]
  show some (Instr.fsub p (fD _) (fA _) (fB _)) = _
  rw [fD_r, fA_r, fB_r]
theorem ReadsBack.fmul (p : Pfx) (d : Opnd) (a : Opnd) (b : Opnd) : ReadsBack.Statement (.fmul p d a b) := fun _ => by
  rw [parse_r _ _ _ _ p _ 18 2 rfl rfl]
  show some (Instr.fmul p (fD _) (fA _) (fB _)) = _
  rw [fD_r, fA_r, fB_r]
theorem ReadsBack.ffma (p : Pfx) (d : Opnd) (a : Opnd) (b : Opnd) : ReadsBack.Statement (.ffma p d a b) := fun _ => by
  rw [parse_r _ _ _ _ p _ 18 3 rfl rfl]
  show some (Instr.ffma p (fD _) (fA _) (fB _)) = _
  rw [fD_r, fA_r, fB_r]
theorem ReadsBack.ffms (p : Pfx) (d : Opnd) (a : Opnd) (b : Opnd) : ReadsBack.Statement (.ffms p d a b) := fun _ => by
  rw [parse_r _ _ _ _ p _ 18 4 rfl rfl]
  show some (Instr.ffms p (fD _) (fA _) (fB _)) = _
  rw [fD_r, fA_r, fB_r]
theorem ReadsBack.fnma (p : Pfx) (d : Opnd) (a : Opnd) (b : Opnd) : ReadsBack.Statement (.fnma p d a b) := fun _ => by
  rw [parse_r _ _ _ _ p _ 18 5 rfl rfl]
  show some (Instr.fnma p (fD _) (fA _) (fB _)) = _
  rw [fD_r, fA_r, fB_r]
theorem ReadsBack.fnms (p : Pfx) (d : Opnd) (a : Opnd) (b : Opnd) : ReadsBack.Statement (.fnms p d a b) := fun _ => by
  rw [parse_r _ _ _ _ p _ 18 6 rfl rfl]
  show some (Instr.fnms p (fD _) (fA _) (fB _)) = _
  rw [fD_r, fA_r, fB_r]
theorem ReadsBack.fmin (p : Pfx) (d : Opnd) (a : Opnd) (b : Opnd) : ReadsBack.Statement (.fmin p d a b) := fun _ => by
  rw [parse_r _ _ _ _ p _ 18 7 rfl rfl]
  show some (Instr.fmin p (fD _) (fA _) (fB _)) = _
  rw [fD_r, fA_r, fB_r]
theorem ReadsBack.fmax (p : Pfx) (d : Opnd) (a : Opnd) (b : Opnd) : ReadsBack.Statement (.fmax p d a b) := fun _ => by
  rw [parse_r _ _ _ _ p _ 18 8 rfl rfl]
  show some (Instr.fmax p (fD _) (fA _) (fB _)) = _
  rw [fD_r, fA_r, fB_r]
theorem ReadsBack.fminn (p : Pfx) (d : Opnd) (a : Opnd) (b : Opnd) : ReadsBack.Statement (.fminn p d a b) := fun _ => by
  rw [parse_r _ _ _ _ p _ 18 9 rfl rfl]
  show some (Instr.fminn p (fD _) (fA _) (fB _)) = _
  rw [fD_r, fA_r, fB_r]
theorem ReadsBack.fmaxn (p : Pfx) (d : Opnd) (a : Opnd) (b : Opnd) : ReadsBack.Statement (.fmaxn p d a b) := fun _ => by
  rw [parse_r _ _ _ _ p _ 18 10 rfl rfl]
  show some (Instr.fmaxn p (fD _) (fA _) (fB _)) = _
  rw [fD_r, fA_r, fB_r]
theorem ReadsBack.fabs (p : Pfx) (d : Opnd) (a : Opnd) : ReadsBack.Statement (.fabs p d a) := fun _ => by
  rw [parse_r _ _ _ _ p _ 18 11 rfl rfl]
  show some (Instr.fabs p (fD _) (fA _)) = _
  rw [fD_r, fA_r]
theorem ReadsBack.fneg (p : Pfx) (d : Opnd) (a : Opnd) : ReadsBack.Statement (.fneg p d a) := fun _ => by
  rw [parse_r _ _ _ _ p _ 18 12 rfl rfl]
  show some (Instr.fneg p (fD _) (fA _)) = _
  rw [fD_r, fA_r]
theorem ReadsBack.fcpys (p : Pfx) (d : Opnd) (a : Opnd) (b : Opnd) : ReadsBack.Statement (.fcpys p d a b) := fun _ => by
  rw [parse_r _ _ _ _ p _ 18 13 rfl rfl]
  show some (Instr.fcpys p (fD _) (fA _) (fB _)) = _
  rw [fD_r, fA_r, fB_r]
theorem ReadsBack.fdiv (p : Pfx) (d : Opnd) (a : Opnd) (b : Opnd) : ReadsBack.Statement (.fdiv p d a b) := fun _ => by
  rw [parse_r _ _ _ _ p _ 18 14 rfl rfl]
  show some (Instr.fdiv p (fD _) (fA _) (fB _)) = _
  rw [fD_r, fA_r, fB_r]
theorem ReadsBack.fsqrt (p : Pfx) (d : Opnd) (a : Opnd) : ReadsBack.Statement (.fsqrt p d a) := fun _ => by
  rw [parse_r _ _ _ _ p _ 18 15 rfl rfl]
  show some (Instr.fsqrt p (fD _) (fA _)) = _
  rw [fD_r, fA_r]
theorem ReadsBack.frcp (p : Pfx) (d : Opnd) (a : Opnd) : ReadsBack.Statement (.frcp p d a) := fun _ => by
  rw [parse_r _ _ _ _ p _ 18 16 rfl rfl]
  show some (Instr.frcp p (fD _) (fA _)) = _
  rw [fD_r, fA_r]
theorem ReadsBack.frsq (p : Pfx) (d : Opnd) (a : Opnd) : ReadsBack.Statement (.frsq p d a) := fun _ => by
  rw [parse_r _ _ _ _ p _ 18 17 rfl rfl]
  show some (Instr.frsq p (fD _) (fA _)) = _
  rw [fD_r, fA_r]
theorem ReadsBack.fexp2 (p : Pfx) (d : Opnd) (a : Opnd) : ReadsBack.Statement (.fexp2 p d a) := fun _ => by
  rw [parse_r _ _ _ _ p _ 18 18 rfl rfl]
  show some (Instr.fexp2 p (fD _) (fA _)) = _
  rw [fD_r, fA_r]
theorem ReadsBack.flog2 (p : Pfx) (d : Opnd) (a : Opnd) : ReadsBack.Statement (.flog2 p d a) := fun _ => by
  rw [parse_r _ _ _ _ p _ 18 19 rfl rfl]
  show some (Instr.flog2 p (fD _) (fA _)) = _
  rw [fD_r, fA_r]
theorem ReadsBack.fsin (p : Pfx) (d : Opnd) (a : Opnd) : ReadsBack.Statement (.fsin p d a) := fun _ => by
  rw [parse_r _ _ _ _ p _ 18 20 rfl rfl]
  show some (Instr.fsin p (fD _) (fA _)) = _
  rw [fD_r, fA_r]
theorem ReadsBack.fcos (p : Pfx) (d : Opnd) (a : Opnd) : ReadsBack.Statement (.fcos p d a) := fun _ => by
  rw [parse_r _ _ _ _ p _ 18 21 rfl rfl]
  show some (Instr.fcos p (fD _) (fA _)) = _
  rw [fD_r, fA_r]
theorem ReadsBack.ffloor (p : Pfx) (d : Opnd) (a : Opnd) : ReadsBack.Statement (.ffloor p d a) := fun _ => by
  rw [parse_r _ _ _ _ p _ 18 22 rfl rfl]
  show some (Instr.ffloor p (fD _) (fA _)) = _
  rw [fD_r, fA_r]
theorem ReadsBack.fceil (p : Pfx) (d : Opnd) (a : Opnd) : ReadsBack.Statement (.fceil p d a) := fun _ => by
  rw [parse_r _ _ _ _ p _ 18 23 rfl rfl]
  show some (Instr.fceil p (fD _) (fA _)) = _
  rw [fD_r, fA_r]
theorem ReadsBack.ftrunc (p : Pfx) (d : Opnd) (a : Opnd) : ReadsBack.Statement (.ftrunc p d a) := fun _ => by
  rw [parse_r _ _ _ _ p _ 18 24 rfl rfl]
  show some (Instr.ftrunc p (fD _) (fA _)) = _
  rw [fD_r, fA_r]
theorem ReadsBack.frint (p : Pfx) (d : Opnd) (a : Opnd) : ReadsBack.Statement (.frint p d a) := fun _ => by
  rw [parse_r _ _ _ _ p _ 18 25 rfl rfl]
  show some (Instr.frint p (fD _) (fA _)) = _
  rw [fD_r, fA_r]
theorem ReadsBack.fscale (p : Pfx) (d : Opnd) (a : Opnd) (b : Opnd) : ReadsBack.Statement (.fscale p d a b) := fun _ => by
  rw [parse_r _ _ _ _ p _ 18 26 rfl rfl]
  show some (Instr.fscale p (fD _) (fA _) (fB _)) = _
  rw [fD_r, fA_r, fB_r]
theorem ReadsBack.fclass (p : Pfx) (d : Opnd) (a : Opnd) : ReadsBack.Statement (.fclass p d a) := fun _ => by
  rw [parse_r _ _ _ _ p _ 18 27 rfl rfl]
  show some (Instr.fclass p (fD _) (fA _)) = _
  rw [fD_r, fA_r]
theorem ReadsBack.hadd (p : Pfx) (d : Opnd) (a : Opnd) (b : Opnd) (t : BitVec 1) : ReadsBack.Statement (.hadd p d a b t) := fun _ => by
  rw [parse_major p _ _ 19 rfl, r_cF, parseAt, ReadsBack.half_minor]
  show some (Instr.hadd p (fD _) (fA _) (fB _) (BitVec.extractLsb' 4 1 _)) = _
  rw [fD_r, fA_r, fB_r, r_f _ _ _ _ _ 4 1 (by omega), ReadsBack.half_type]
theorem ReadsBack.hsub (p : Pfx) (d : Opnd) (a : Opnd) (b : Opnd) (t : BitVec 1) : ReadsBack.Statement (.hsub p d a b t) := fun _ => by
  rw [parse_major p _ _ 19 rfl, r_cF, parseAt, ReadsBack.half_minor]
  show some (Instr.hsub p (fD _) (fA _) (fB _) (BitVec.extractLsb' 4 1 _)) = _
  rw [fD_r, fA_r, fB_r, r_f _ _ _ _ _ 4 1 (by omega), ReadsBack.half_type]
theorem ReadsBack.hmul (p : Pfx) (d : Opnd) (a : Opnd) (b : Opnd) (t : BitVec 1) : ReadsBack.Statement (.hmul p d a b t) := fun _ => by
  rw [parse_major p _ _ 19 rfl, r_cF, parseAt, ReadsBack.half_minor]
  show some (Instr.hmul p (fD _) (fA _) (fB _) (BitVec.extractLsb' 4 1 _)) = _
  rw [fD_r, fA_r, fB_r, r_f _ _ _ _ _ 4 1 (by omega), ReadsBack.half_type]
theorem ReadsBack.hfma (p : Pfx) (d : Opnd) (a : Opnd) (b : Opnd) (t : BitVec 1) : ReadsBack.Statement (.hfma p d a b t) := fun _ => by
  rw [parse_major p _ _ 19 rfl, r_cF, parseAt, ReadsBack.half_minor]
  show some (Instr.hfma p (fD _) (fA _) (fB _) (BitVec.extractLsb' 4 1 _)) = _
  rw [fD_r, fA_r, fB_r, r_f _ _ _ _ _ 4 1 (by omega), ReadsBack.half_type]
theorem ReadsBack.hmin (p : Pfx) (d : Opnd) (a : Opnd) (b : Opnd) (t : BitVec 1) : ReadsBack.Statement (.hmin p d a b t) := fun _ => by
  rw [parse_major p _ _ 19 rfl, r_cF, parseAt, ReadsBack.half_minor]
  show some (Instr.hmin p (fD _) (fA _) (fB _) (BitVec.extractLsb' 4 1 _)) = _
  rw [fD_r, fA_r, fB_r, r_f _ _ _ _ _ 4 1 (by omega), ReadsBack.half_type]
theorem ReadsBack.hmax (p : Pfx) (d : Opnd) (a : Opnd) (b : Opnd) (t : BitVec 1) : ReadsBack.Statement (.hmax p d a b t) := fun _ => by
  rw [parse_major p _ _ 19 rfl, r_cF, parseAt, ReadsBack.half_minor]
  show some (Instr.hmax p (fD _) (fA _) (fB _) (BitVec.extractLsb' 4 1 _)) = _
  rw [fD_r, fA_r, fB_r, r_f _ _ _ _ _ 4 1 (by omega), ReadsBack.half_type]
theorem ReadsBack.hminn (p : Pfx) (d : Opnd) (a : Opnd) (b : Opnd) (t : BitVec 1) : ReadsBack.Statement (.hminn p d a b t) := fun _ => by
  rw [parse_major p _ _ 19 rfl, r_cF, parseAt, ReadsBack.half_minor]
  show some (Instr.hminn p (fD _) (fA _) (fB _) (BitVec.extractLsb' 4 1 _)) = _
  rw [fD_r, fA_r, fB_r, r_f _ _ _ _ _ 4 1 (by omega), ReadsBack.half_type]
theorem ReadsBack.hmaxn (p : Pfx) (d : Opnd) (a : Opnd) (b : Opnd) (t : BitVec 1) : ReadsBack.Statement (.hmaxn p d a b t) := fun _ => by
  rw [parse_major p _ _ 19 rfl, r_cF, parseAt, ReadsBack.half_minor]
  show some (Instr.hmaxn p (fD _) (fA _) (fB _) (BitVec.extractLsb' 4 1 _)) = _
  rw [fD_r, fA_r, fB_r, r_f _ _ _ _ _ 4 1 (by omega), ReadsBack.half_type]
theorem ReadsBack.habs (p : Pfx) (d : Opnd) (a : Opnd) (t : BitVec 1) : ReadsBack.Statement (.habs p d a t) := fun _ => by
  rw [parse_major p _ _ 19 rfl, r_cF, parseAt, ReadsBack.half_minor]
  show some (Instr.habs p (fD _) (fA _) (BitVec.extractLsb' 4 1 _)) = _
  rw [fD_r, fA_r, r_f _ _ _ _ _ 4 1 (by omega), ReadsBack.half_type]
theorem ReadsBack.hneg (p : Pfx) (d : Opnd) (a : Opnd) (t : BitVec 1) : ReadsBack.Statement (.hneg p d a t) := fun _ => by
  rw [parse_major p _ _ 19 rfl, r_cF, parseAt, ReadsBack.half_minor]
  show some (Instr.hneg p (fD _) (fA _) (BitVec.extractLsb' 4 1 _)) = _
  rw [fD_r, fA_r, r_f _ _ _ _ _ 4 1 (by omega), ReadsBack.half_type]
theorem ReadsBack.hdot2 (p : Pfx) (d : Opnd) (a : Opnd) (b : Opnd) (t : BitVec 1) : ReadsBack.Statement (.hdot2 p d a b t) := fun _ => by
  rw [parse_major p _ _ 19 rfl, r_cF, parseAt, ReadsBack.half_minor]
  show some (Instr.hdot2 p (fD _) (fA _) (fB _) (BitVec.extractLsb' 4 1 _)) = _
  rw [fD_r, fA_r, fB_r, r_f _ _ _ _ _ 4 1 (by omega), ReadsBack.half_type]
theorem ReadsBack.hcpys (p : Pfx) (d : Opnd) (a : Opnd) (b : Opnd) (t : BitVec 1) : ReadsBack.Statement (.hcpys p d a b t) := fun _ => by
  rw [parse_major p _ _ 19 rfl, r_cF, parseAt, ReadsBack.half_minor]
  show some (Instr.hcpys p (fD _) (fA _) (fB _) (BitVec.extractLsb' 4 1 _)) = _
  rw [fD_r, fA_r, fB_r, r_f _ _ _ _ _ 4 1 (by omega), ReadsBack.half_type]
theorem ReadsBack.cvtF32I32 (p : Pfx) (d : Opnd) (a : Opnd) : ReadsBack.Statement (.cvtF32I32 p d a) := fun _ => by
  rw [parse_r _ _ _ _ p _ 20 0 rfl rfl]
  show some (Instr.cvtF32I32 p (fD _) (fA _)) = _
  rw [fD_r, fA_r]
theorem ReadsBack.cvtF32N32 (p : Pfx) (d : Opnd) (a : Opnd) : ReadsBack.Statement (.cvtF32N32 p d a) := fun _ => by
  rw [parse_r _ _ _ _ p _ 20 1 rfl rfl]
  show some (Instr.cvtF32N32 p (fD _) (fA _)) = _
  rw [fD_r, fA_r]
theorem ReadsBack.cvtI32F32 (p : Pfx) (d : Opnd) (a : Opnd) : ReadsBack.Statement (.cvtI32F32 p d a) := fun _ => by
  rw [parse_r _ _ _ _ p _ 20 2 rfl rfl]
  show some (Instr.cvtI32F32 p (fD _) (fA _)) = _
  rw [fD_r, fA_r]
theorem ReadsBack.cvtN32F32 (p : Pfx) (d : Opnd) (a : Opnd) : ReadsBack.Statement (.cvtN32F32 p d a) := fun _ => by
  rw [parse_r _ _ _ _ p _ 20 3 rfl rfl]
  show some (Instr.cvtN32F32 p (fD _) (fA _)) = _
  rw [fD_r, fA_r]
theorem ReadsBack.cvtF32F16 (p : Pfx) (d : Opnd) (a : Opnd) (b : Opnd) : ReadsBack.Statement (.cvtF32F16 p d a b) := fun _ => by
  rw [parse_r _ _ _ _ p _ 20 4 rfl rfl]
  show some (Instr.cvtF32F16 p (fD _) (fA _) (fB _)) = _
  rw [fD_r, fA_r, fB_r]
theorem ReadsBack.cvtF32Bf16 (p : Pfx) (d : Opnd) (a : Opnd) (b : Opnd) : ReadsBack.Statement (.cvtF32Bf16 p d a b) := fun _ => by
  rw [parse_r _ _ _ _ p _ 20 5 rfl rfl]
  show some (Instr.cvtF32Bf16 p (fD _) (fA _) (fB _)) = _
  rw [fD_r, fA_r, fB_r]
theorem ReadsBack.cvtF16x2F32 (p : Pfx) (d : Opnd) (a : Opnd) (b : Opnd) : ReadsBack.Statement (.cvtF16x2F32 p d a b) := fun _ => by
  rw [parse_r _ _ _ _ p _ 20 6 rfl rfl]
  show some (Instr.cvtF16x2F32 p (fD _) (fA _) (fB _)) = _
  rw [fD_r, fA_r, fB_r]
theorem ReadsBack.cvtBf16x2F32 (p : Pfx) (d : Opnd) (a : Opnd) (b : Opnd) : ReadsBack.Statement (.cvtBf16x2F32 p d a b) := fun _ => by
  rw [parse_r _ _ _ _ p _ 20 7 rfl rfl]
  show some (Instr.cvtBf16x2F32 p (fD _) (fA _) (fB _)) = _
  rw [fD_r, fA_r, fB_r]
theorem ReadsBack.cvtE4m3F32 (p : Pfx) (d : Opnd) (a : Opnd) (b : Opnd) : ReadsBack.Statement (.cvtE4m3F32 p d a b) := fun _ => by
  rw [parse_r _ _ _ _ p _ 20 8 rfl rfl]
  show some (Instr.cvtE4m3F32 p (fD _) (fA _) (fB _)) = _
  rw [fD_r, fA_r, fB_r]
theorem ReadsBack.cvtE5m2F32 (p : Pfx) (d : Opnd) (a : Opnd) (b : Opnd) : ReadsBack.Statement (.cvtE5m2F32 p d a b) := fun _ => by
  rw [parse_r _ _ _ _ p _ 20 9 rfl rfl]
  show some (Instr.cvtE5m2F32 p (fD _) (fA _) (fB _)) = _
  rw [fD_r, fA_r, fB_r]
theorem ReadsBack.cvtF32E4m3 (p : Pfx) (d : Opnd) (a : Opnd) (b : Opnd) : ReadsBack.Statement (.cvtF32E4m3 p d a b) := fun _ => by
  rw [parse_r _ _ _ _ p _ 20 10 rfl rfl]
  show some (Instr.cvtF32E4m3 p (fD _) (fA _) (fB _)) = _
  rw [fD_r, fA_r, fB_r]
theorem ReadsBack.cvtF32E5m2 (p : Pfx) (d : Opnd) (a : Opnd) (b : Opnd) : ReadsBack.Statement (.cvtF32E5m2 p d a b) := fun _ => by
  rw [parse_r _ _ _ _ p _ 20 11 rfl rfl]
  show some (Instr.cvtF32E5m2 p (fD _) (fA _) (fB _)) = _
  rw [fD_r, fA_r, fB_r]
theorem ReadsBack.cvtE2m1F32 (p : Pfx) (d : Opnd) (a : Opnd) (b : Opnd) : ReadsBack.Statement (.cvtE2m1F32 p d a b) := fun _ => by
  rw [parse_r _ _ _ _ p _ 20 12 rfl rfl]
  show some (Instr.cvtE2m1F32 p (fD _) (fA _) (fB _)) = _
  rw [fD_r, fA_r, fB_r]
theorem ReadsBack.cvtF32E2m1 (p : Pfx) (d : Opnd) (a : Opnd) (b : Opnd) : ReadsBack.Statement (.cvtF32E2m1 p d a b) := fun _ => by
  rw [parse_r _ _ _ _ p _ 20 13 rfl rfl]
  show some (Instr.cvtF32E2m1 p (fD _) (fA _) (fB _)) = _
  rw [fD_r, fA_r, fB_r]
theorem ReadsBack.cvtI8F32 (p : Pfx) (d : Opnd) (a : Opnd) (b : Opnd) : ReadsBack.Statement (.cvtI8F32 p d a b) := fun _ => by
  rw [parse_r _ _ _ _ p _ 20 14 rfl rfl]
  show some (Instr.cvtI8F32 p (fD _) (fA _) (fB _)) = _
  rw [fD_r, fA_r, fB_r]
theorem ReadsBack.cvtF32I8 (p : Pfx) (d : Opnd) (a : Opnd) (b : Opnd) : ReadsBack.Statement (.cvtF32I8 p d a b) := fun _ => by
  rw [parse_r _ _ _ _ p _ 20 15 rfl rfl]
  show some (Instr.cvtF32I8 p (fD _) (fA _) (fB _)) = _
  rw [fD_r, fA_r, fB_r]
theorem ReadsBack.cvtE8m0F32 (p : Pfx) (d : Opnd) (a : Opnd) : ReadsBack.Statement (.cvtE8m0F32 p d a) := fun _ => by
  rw [parse_r _ _ _ _ p _ 20 16 rfl rfl]
  show some (Instr.cvtE8m0F32 p (fD _) (fA _)) = _
  rw [fD_r, fA_r]
theorem ReadsBack.cvtF32E8m0 (p : Pfx) (d : Opnd) (a : Opnd) (b : Opnd) : ReadsBack.Statement (.cvtF32E8m0 p d a b) := fun _ => by
  rw [parse_r _ _ _ _ p _ 20 17 rfl rfl]
  show some (Instr.cvtF32E8m0 p (fD _) (fA _) (fB _)) = _
  rw [fD_r, fA_r, fB_r]
theorem ReadsBack.cvtF32N8 (p : Pfx) (d : Opnd) (a : Opnd) (b : Opnd) : ReadsBack.Statement (.cvtF32N8 p d a b) := fun _ => by
  rw [parse_r _ _ _ _ p _ 20 18 rfl rfl]
  show some (Instr.cvtF32N8 p (fD _) (fA _) (fB _)) = _
  rw [fD_r, fA_r, fB_r]
theorem ReadsBack.vmov (p : Pfx) (d : Opnd) (a : Opnd) : ReadsBack.Statement (.vmov p d a) := fun _ => by
  rw [parse_r _ _ _ _ p _ 21 0 rfl rfl]
  show some (Instr.vmov p (fD _) (fA _)) = _
  rw [fD_r, fA_r]
theorem ReadsBack.vbcast (p : Pfx) (d : Opnd) (a : Opnd) (b : Opnd) : ReadsBack.Statement (.vbcast p d a b) := fun _ => by
  rw [parse_r _ _ _ _ p _ 21 1 rfl rfl]
  show some (Instr.vbcast p (fD _) (fA _) (fB _)) = _
  rw [fD_r, fA_r, fB_r]
theorem ReadsBack.vlget (p : Pfx) (d : Opnd) (a : Opnd) (b : Opnd) : ReadsBack.Statement (.vlget p d a b) := fun _ => by
  rw [parse_r _ _ _ _ p _ 21 2 rfl rfl]
  show some (Instr.vlget p (fD _) (fA _) (fB _)) = _
  rw [fD_r, fA_r, fB_r]
theorem ReadsBack.vlset (p : Pfx) (d : Opnd) (a : Opnd) (b : Opnd) : ReadsBack.Statement (.vlset p d a b) := fun _ => by
  rw [parse_r _ _ _ _ p _ 21 3 rfl rfl]
  show some (Instr.vlset p (fD _) (fA _) (fB _)) = _
  rw [fD_r, fA_r, fB_r]
theorem ReadsBack.vshape (p : Pfx) (d : Opnd) (a : Opnd) : ReadsBack.Statement (.vshape p d a) := fun _ => by
  rw [parse_r _ _ _ _ p _ 21 4 rfl rfl]
  show some (Instr.vshape p (fD _) (fA _)) = _
  rw [fD_r, fA_r]
theorem ReadsBack.vaffine (p : Pfx) (d : Opnd) (a : Opnd) (b : Opnd) : ReadsBack.Statement (.vaffine p d a b) := fun _ => by
  rw [parse_r _ _ _ _ p _ 21 5 rfl rfl]
  show some (Instr.vaffine p (fD _) (fA _) (fB _)) = _
  rw [fD_r, fA_r, fB_r]
theorem ReadsBack.vperm (p : Pfx) (d : Opnd) (a : Opnd) (b : Opnd) : ReadsBack.Statement (.vperm p d a b) := fun _ => by
  rw [parse_r _ _ _ _ p _ 21 6 rfl rfl]
  show some (Instr.vperm p (fD _) (fA _) (fB _)) = _
  rw [fD_r, fA_r, fB_r]
theorem ReadsBack.vshup (p : Pfx) (d : Opnd) (a : Opnd) (b : Opnd) : ReadsBack.Statement (.vshup p d a b) := fun _ => by
  rw [parse_r _ _ _ _ p _ 21 7 rfl rfl]
  show some (Instr.vshup p (fD _) (fA _) (fB _)) = _
  rw [fD_r, fA_r, fB_r]
theorem ReadsBack.vshdn (p : Pfx) (d : Opnd) (a : Opnd) (b : Opnd) : ReadsBack.Statement (.vshdn p d a b) := fun _ => by
  rw [parse_r _ _ _ _ p _ 21 8 rfl rfl]
  show some (Instr.vshdn p (fD _) (fA _) (fB _)) = _
  rw [fD_r, fA_r, fB_r]
theorem ReadsBack.vshxor (p : Pfx) (d : Opnd) (a : Opnd) (b : Opnd) : ReadsBack.Statement (.vshxor p d a b) := fun _ => by
  rw [parse_r _ _ _ _ p _ 21 9 rfl rfl]
  show some (Instr.vshxor p (fD _) (fA _) (fB _)) = _
  rw [fD_r, fA_r, fB_r]
theorem ReadsBack.vballot (p : Pfx) (d : Opnd) (a : Opnd) : ReadsBack.Statement (.vballot p d a) := fun _ => by
  rw [parse_r _ _ _ _ p _ 21 10 rfl rfl]
  show some (Instr.vballot p (fD _) (fA _)) = _
  rw [fD_r, fA_r]
theorem ReadsBack.vbits (p : Pfx) (d : Opnd) (a : Opnd) (b : BitVec 7) : ReadsBack.Statement (.vbits p d a b) := fun _ => by
  rw [parse_r _ _ _ _ p _ 21 11 rfl rfl]
  show some (Instr.vbits p (fD _) (fA _) (cB _)) = _
  rw [fD_r, fA_r, cB_r]
theorem ReadsBack.vredAddI32 (p : Pfx) (d : Opnd) (a : Opnd) : ReadsBack.Statement (.vredAddI32 p d a) := fun _ => by
  rw [parse_r _ _ _ _ p _ 22 0 rfl rfl]
  show some (Instr.vredAddI32 p (fD _) (fA _)) = _
  rw [fD_r, fA_r]
theorem ReadsBack.vredAddF32 (p : Pfx) (d : Opnd) (a : Opnd) : ReadsBack.Statement (.vredAddF32 p d a) := fun _ => by
  rw [parse_r _ _ _ _ p _ 22 1 rfl rfl]
  show some (Instr.vredAddF32 p (fD _) (fA _)) = _
  rw [fD_r, fA_r]
theorem ReadsBack.vredMinI32 (p : Pfx) (d : Opnd) (a : Opnd) : ReadsBack.Statement (.vredMinI32 p d a) := fun _ => by
  rw [parse_r _ _ _ _ p _ 22 2 rfl rfl]
  show some (Instr.vredMinI32 p (fD _) (fA _)) = _
  rw [fD_r, fA_r]
theorem ReadsBack.vredMaxI32 (p : Pfx) (d : Opnd) (a : Opnd) : ReadsBack.Statement (.vredMaxI32 p d a) := fun _ => by
  rw [parse_r _ _ _ _ p _ 22 3 rfl rfl]
  show some (Instr.vredMaxI32 p (fD _) (fA _)) = _
  rw [fD_r, fA_r]
theorem ReadsBack.vredMinF32 (p : Pfx) (d : Opnd) (a : Opnd) : ReadsBack.Statement (.vredMinF32 p d a) := fun _ => by
  rw [parse_r _ _ _ _ p _ 22 4 rfl rfl]
  show some (Instr.vredMinF32 p (fD _) (fA _)) = _
  rw [fD_r, fA_r]
theorem ReadsBack.vredMaxF32 (p : Pfx) (d : Opnd) (a : Opnd) : ReadsBack.Statement (.vredMaxF32 p d a) := fun _ => by
  rw [parse_r _ _ _ _ p _ 22 5 rfl rfl]
  show some (Instr.vredMaxF32 p (fD _) (fA _)) = _
  rw [fD_r, fA_r]
theorem ReadsBack.vredAnd (p : Pfx) (d : Opnd) (a : Opnd) : ReadsBack.Statement (.vredAnd p d a) := fun _ => by
  rw [parse_r _ _ _ _ p _ 22 6 rfl rfl]
  show some (Instr.vredAnd p (fD _) (fA _)) = _
  rw [fD_r, fA_r]
theorem ReadsBack.vredOr (p : Pfx) (d : Opnd) (a : Opnd) : ReadsBack.Statement (.vredOr p d a) := fun _ => by
  rw [parse_r _ _ _ _ p _ 22 7 rfl rfl]
  show some (Instr.vredOr p (fD _) (fA _)) = _
  rw [fD_r, fA_r]
theorem ReadsBack.vredXor (p : Pfx) (d : Opnd) (a : Opnd) : ReadsBack.Statement (.vredXor p d a) := fun _ => by
  rw [parse_r _ _ _ _ p _ 22 8 rfl rfl]
  show some (Instr.vredXor p (fD _) (fA _)) = _
  rw [fD_r, fA_r]
theorem ReadsBack.vscanAddI32 (p : Pfx) (d : Opnd) (a : Opnd) : ReadsBack.Statement (.vscanAddI32 p d a) := fun _ => by
  rw [parse_r _ _ _ _ p _ 22 9 rfl rfl]
  show some (Instr.vscanAddI32 p (fD _) (fA _)) = _
  rw [fD_r, fA_r]
theorem ReadsBack.vscanAddF32 (p : Pfx) (d : Opnd) (a : Opnd) : ReadsBack.Statement (.vscanAddF32 p d a) := fun _ => by
  rw [parse_r _ _ _ _ p _ 22 10 rfl rfl]
  show some (Instr.vscanAddF32 p (fD _) (fA _)) = _
  rw [fD_r, fA_r]
theorem ReadsBack.vargmaxF32 (p : Pfx) (d : Opnd) (a : Opnd) : ReadsBack.Statement (.vargmaxF32 p d a) := fun _ => by
  rw [parse_r _ _ _ _ p _ 22 11 rfl rfl]
  show some (Instr.vargmaxF32 p (fD _) (fA _)) = _
  rw [fD_r, fA_r]
theorem ReadsBack.vargminF32 (p : Pfx) (d : Opnd) (a : Opnd) : ReadsBack.Statement (.vargminF32 p d a) := fun _ => by
  rw [parse_r _ _ _ _ p _ 22 12 rfl rfl]
  show some (Instr.vargminF32 p (fD _) (fA _)) = _
  rw [fD_r, fA_r]
theorem ReadsBack.xset (p : Pfx) (d : Opnd) (a : Opnd) : ReadsBack.Statement (.xset p d a) := fun _ => by
  rw [parse_r _ _ _ _ p _ 23 0 rfl rfl]
  show some (Instr.xset p (fD _) (fA _)) = _
  rw [fD_r, fA_r]
theorem ReadsBack.xoff (p : Pfx) (d : Opnd) (a : Opnd) : ReadsBack.Statement (.xoff p d a) := fun _ => by
  rw [parse_r _ _ _ _ p _ 23 1 rfl rfl]
  show some (Instr.xoff p (fD _) (fA _)) = _
  rw [fD_r, fA_r]
theorem ReadsBack.xget (p : Pfx) (d : Opnd) (a : Opnd) : ReadsBack.Statement (.xget p d a) := fun _ => by
  rw [parse_r _ _ _ _ p _ 23 2 rfl rfl]
  show some (Instr.xget p (fD _) (fA _)) = _
  rw [fD_r, fA_r]
theorem ReadsBack.xgetc (p : Pfx) (d : Opnd) (a : Opnd) : ReadsBack.Statement (.xgetc p d a) := fun _ => by
  rw [parse_r _ _ _ _ p _ 23 3 rfl rfl]
  show some (Instr.xgetc p (fD _) (fA _)) = _
  rw [fD_r, fA_r]
theorem ReadsBack.xadd (p : Pfx) (d : Opnd) (a : Opnd) : ReadsBack.Statement (.xadd p d a) := fun _ => by
  rw [parse_r _ _ _ _ p _ 23 4 rfl rfl]
  show some (Instr.xadd p (fD _) (fA _)) = _
  rw [fD_r, fA_r]
theorem ReadsBack.xclr (p : Pfx) (d : Opnd) : ReadsBack.Statement (.xclr p d) := fun _ => by
  rw [parse_r _ _ _ _ p _ 23 5 rfl rfl]
  show some (Instr.xclr p (fD _)) = _
  rw [fD_r]
theorem ReadsBack.mif (p : Pfx) (d : Opnd) (a : Opnd) : ReadsBack.Statement (.mif p d a) := fun _ => by
  rw [parse_r _ _ _ _ p _ 24 0 rfl rfl]
  show some (Instr.mif p (fD _) (fA _)) = _
  rw [fD_r, fA_r]
theorem ReadsBack.melse (p : Pfx) (a : Opnd) : ReadsBack.Statement (.melse p a) := fun _ => by
  rw [parse_r _ _ _ _ p _ 24 1 rfl rfl]
  show some (Instr.melse p (fA _)) = _
  rw [fA_r]
theorem ReadsBack.mend (p : Pfx) (a : Opnd) : ReadsBack.Statement (.mend p a) := fun _ => by
  rw [parse_r _ _ _ _ p _ 24 2 rfl rfl]
  show some (Instr.mend p (fA _)) = _
  rw [fA_r]
theorem ReadsBack.mset (p : Pfx) (a : Opnd) (b : BitVec 7) : ReadsBack.Statement (.mset p a b) := fun _ => by
  rw [parse_r _ _ _ _ p _ 24 3 rfl rfl]
  show some (Instr.mset p (fA _) (cB _)) = _
  rw [fA_r, cB_r]
theorem ReadsBack.mget (p : Pfx) (d : Opnd) (b : BitVec 7) : ReadsBack.Statement (.mget p d b) := fun _ => by
  rw [parse_r _ _ _ _ p _ 24 4 rfl rfl]
  show some (Instr.mget p (fD _) (cB _)) = _
  rw [fD_r, cB_r]
theorem ReadsBack.elect (p : Pfx) (d : Opnd) : ReadsBack.Statement (.elect p d) := fun _ => by
  rw [parse_r _ _ _ _ p _ 24 5 rfl rfl]
  show some (Instr.elect p (fD _)) = _
  rw [fD_r]
theorem ReadsBack.mwhile (p : Pfx) (d : Opnd) (a : Opnd) : ReadsBack.Statement (.mwhile p d a) := fun _ => by
  rw [parse_r _ _ _ _ p _ 24 6 rfl rfl]
  show some (Instr.mwhile p (fD _) (fA _)) = _
  rw [fD_r, fA_r]
theorem ReadsBack.br (p : Pfx) (o : BitVec 19) : ReadsBack.Statement (.br p o) := fun _ => by
  rw [parse_major p _ _ 25 rfl]
  show some (Instr.br p (BitVec.extractLsb' 0 19 _)) = _
  rw [j_imm]
theorem ReadsBack.brz (p : Pfx) (r : Opnd) (o : BitVec 19) : ReadsBack.Statement (.brz p r o) := fun _ => by
  rw [parse_major p _ _ 26 rfl]
  show some (Instr.brz p (fD _) (BitVec.extractLsb' 0 19 _)) = _
  rw [fD_j, j_imm]
theorem ReadsBack.brnz (p : Pfx) (r : Opnd) (o : BitVec 19) : ReadsBack.Statement (.brnz p r o) := fun _ => by
  rw [parse_major p _ _ 27 rfl]
  show some (Instr.brnz p (fD _) (BitVec.extractLsb' 0 19 _)) = _
  rw [fD_j, j_imm]
theorem ReadsBack.brem (p : Pfx) (o : BitVec 19) : ReadsBack.Statement (.brem p o) := fun _ => by
  rw [parse_major p _ _ 28 rfl]
  show some (Instr.brem p (BitVec.extractLsb' 0 19 _)) = _
  rw [j_imm]
theorem ReadsBack.loop (p : Pfx) (r : Opnd) (o : BitVec 19) : ReadsBack.Statement (.loop p r o) := fun _ => by
  rw [parse_major p _ _ 29 rfl]
  show some (Instr.loop p (fD _) (BitVec.extractLsb' 0 19 _)) = _
  rw [fD_j, j_imm]
theorem ReadsBack.call (p : Pfx) (r : Opnd) (o : BitVec 19) : ReadsBack.Statement (.call p r o) := fun _ => by
  rw [parse_major p _ _ 30 rfl]
  show some (Instr.call p (fD _) (BitVec.extractLsb' 0 19 _)) = _
  rw [fD_j, j_imm]
theorem ReadsBack.bru (p : Pfx) (r : Opnd) (o : BitVec 19) : ReadsBack.Statement (.bru p r o) := fun _ => by
  rw [parse_major p _ _ 31 rfl]
  show some (Instr.bru p (fD _) (BitVec.extractLsb' 0 19 _)) = _
  rw [fD_j, j_imm]
theorem ReadsBack.jmp (p : Pfx) (a : Opnd) : ReadsBack.Statement (.jmp p a) := fun _ => by
  rw [parse_r _ _ _ _ p _ 32 0 rfl rfl]
  show some (Instr.jmp p (fA _)) = _
  rw [fA_r]
theorem ReadsBack.jmpv (p : Pfx) (a : Opnd) (b : Opnd) : ReadsBack.Statement (.jmpv p a b) := fun _ => by
  rw [parse_r _ _ _ _ p _ 32 1 rfl rfl]
  show some (Instr.jmpv p (fA _) (fB _)) = _
  rw [fA_r, fB_r]
theorem ReadsBack.callr (p : Pfx) (d : Opnd) (a : Opnd) : ReadsBack.Statement (.callr p d a) := fun _ => by
  rw [parse_r _ _ _ _ p _ 32 2 rfl rfl]
  show some (Instr.callr p (fD _) (fA _)) = _
  rw [fD_r, fA_r]
theorem ReadsBack.ld (p : Pfx) (d : Opnd) (a : Opnd) (b : Opnd) (k : BitVec 1) (x : BitVec 1) (s : BitVec 3) : ReadsBack.Statement (.ld p d a b k x s) := fun h => by
  have hs : s.toNat < 5 ∧ (x = 0 ∨ s.toNat < 2 ∨ (s.toNat = 2 ∧ d.isS = true)) := by
    simpa [Instr.subOk, or_assoc] using h
  have hf : ∀ (k x : BitVec 1) (s : BitVec 3), (k ++ x ++ s).toNat % 8 = s.toNat := by decide
  have hb : ∀ (k x : BitVec 1) (s : BitVec 3), (k ++ x ++ s).getLsbD 3 = x.getLsbD 0 := by decide
  have h1 : sizeOk (33#6 ++ (Body.r (.op .memD d) (.op .memA a) (.op .memB b) (k ++ x ++ s)).bits) = true := by
    rw [sizeOk, r_cF, hf]; simpa using hs.1
  have h2 : sxOk (33#6 ++ (Body.r (.op .memD d) (.op .memA a) (.op .memB b) (k ++ x ++ s)).bits) = true := by
    have h3 : (33#6 ++ (Body.r (.op .memD d) (.op .memA a) (.op .memB b) (k ++ x ++ s)).bits : W32).getLsbD 3 = x.getLsbD 0 := by
      have := congrArg (fun v => BitVec.getLsbD v 0)
        (r_f 33#6 (.op .memD d) (.op .memA a) (.op .memB b) (k ++ x ++ s) 3 1 (by omega))
      simp only [BitVec.getLsbD_extractLsb', hb] at this
      simpa [hb] using this
    rw [sxOk, h3, fD_r, r_cF, hf]
    rcases hs.2 with h | h | h
    · subst h; simp
    · simp [h]
    · simp [h.1, h.2]
  rw [parse_major p _ _ 33 rfl]
  show (if sizeOk _ && sxOk _ then some (Instr.ld p (fD _) (fA _) (fB _) (BitVec.extractLsb' 4 1 _) (BitVec.extractLsb' 3 1 _)
    (BitVec.extractLsb' 0 3 _)) else none) = _
  rw [h1, h2, fD_r, fA_r, fB_r, r_f _ _ _ _ _ 4 1 (by omega), r_f _ _ _ _ _ 3 1 (by omega), r_f _ _ _ _ _ 0 3 (by omega),
    extract_over _ s 4 1 (by omega), extract_high k x, extract_over _ s 3 1 (by omega), extract_low k x 0 1 (by omega), extract_all,
    extract_low _ s 0 3 (by omega), extract_all]
  rfl
theorem ReadsBack.st (p : Pfx) (d : Opnd) (a : Opnd) (b : Opnd) (k : BitVec 1) (s : BitVec 3) : ReadsBack.Statement (.st p d a b k s) := fun h => by
  have hs : s.toNat < 5 := of_decide_eq_true h
  have hf : ∀ (k : BitVec 1) (s : BitVec 3), (k ++ 0#1 ++ s).toNat % 8 = s.toNat := by decide
  have hb : ∀ (k : BitVec 1) (s : BitVec 3), (k ++ 0#1 ++ s).getLsbD 3 = false := by decide
  have h1 : sizeOk (34#6 ++ (Body.r (.op .memD d) (.op .memA a) (.op .memB b) (k ++ 0#1 ++ s)).bits) = true := by
    rw [sizeOk, r_cF, hf]; simpa using hs
  have h2 : (34#6 ++ (Body.r (.op .memD d) (.op .memA a) (.op .memB b) (k ++ 0#1 ++ s)).bits : W32).getLsbD 3 = false := by
    have := congrArg (fun v => BitVec.getLsbD v 0)
      (r_f 34#6 (.op .memD d) (.op .memA a) (.op .memB b) (k ++ 0#1 ++ s) 3 1 (by omega))
    simp only [BitVec.getLsbD_extractLsb', hb] at this
    simpa [hb] using this
  rw [parse_major p _ _ 34 rfl]
  show (if sizeOk _ && !BitVec.getLsbD _ 3 then some (Instr.st p (fD _) (fA _) (fB _) (BitVec.extractLsb' 4 1 _)
    (BitVec.extractLsb' 0 3 _)) else none) = _
  rw [h1, h2, fD_r, fA_r, fB_r, r_f _ _ _ _ _ 4 1 (by omega), r_f _ _ _ _ _ 0 3 (by omega),
    extract_over _ s 4 1 (by omega), extract_high k 0#1, extract_low _ s 0 3 (by omega), extract_all]
  rfl
theorem ReadsBack.lds (p : Pfx) (d : Opnd) (a : Opnd) (b : Opnd) (k : BitVec 1) (x : BitVec 1) (s : BitVec 3) : ReadsBack.Statement (.lds p d a b k x s) := fun h => by
  have hs : s.toNat < 5 ∧ (x = 0 ∨ s.toNat < 2 ∨ (s.toNat = 2 ∧ d.isS = true)) := by
    simpa [Instr.subOk, or_assoc] using h
  have hf : ∀ (k x : BitVec 1) (s : BitVec 3), (k ++ x ++ s).toNat % 8 = s.toNat := by decide
  have hb : ∀ (k x : BitVec 1) (s : BitVec 3), (k ++ x ++ s).getLsbD 3 = x.getLsbD 0 := by decide
  have h1 : sizeOk (35#6 ++ (Body.r (.op .memD d) (.op .memA a) (.op .memB b) (k ++ x ++ s)).bits) = true := by
    rw [sizeOk, r_cF, hf]; simpa using hs.1
  have h2 : sxOk (35#6 ++ (Body.r (.op .memD d) (.op .memA a) (.op .memB b) (k ++ x ++ s)).bits) = true := by
    have h3 : (35#6 ++ (Body.r (.op .memD d) (.op .memA a) (.op .memB b) (k ++ x ++ s)).bits : W32).getLsbD 3 = x.getLsbD 0 := by
      have := congrArg (fun v => BitVec.getLsbD v 0)
        (r_f 35#6 (.op .memD d) (.op .memA a) (.op .memB b) (k ++ x ++ s) 3 1 (by omega))
      simp only [BitVec.getLsbD_extractLsb', hb] at this
      simpa [hb] using this
    rw [sxOk, h3, fD_r, r_cF, hf]
    rcases hs.2 with h | h | h
    · subst h; simp
    · simp [h]
    · simp [h.1, h.2]
  rw [parse_major p _ _ 35 rfl]
  show (if sizeOk _ && sxOk _ then some (Instr.lds p (fD _) (fA _) (fB _) (BitVec.extractLsb' 4 1 _) (BitVec.extractLsb' 3 1 _)
    (BitVec.extractLsb' 0 3 _)) else none) = _
  rw [h1, h2, fD_r, fA_r, fB_r, r_f _ _ _ _ _ 4 1 (by omega), r_f _ _ _ _ _ 3 1 (by omega), r_f _ _ _ _ _ 0 3 (by omega),
    extract_over _ s 4 1 (by omega), extract_high k x, extract_over _ s 3 1 (by omega), extract_low k x 0 1 (by omega), extract_all,
    extract_low _ s 0 3 (by omega), extract_all]
  rfl
theorem ReadsBack.sts (p : Pfx) (d : Opnd) (a : Opnd) (b : Opnd) (k : BitVec 1) (s : BitVec 3) : ReadsBack.Statement (.sts p d a b k s) := fun h => by
  have hs : s.toNat < 5 := of_decide_eq_true h
  have hf : ∀ (k : BitVec 1) (s : BitVec 3), (k ++ 0#1 ++ s).toNat % 8 = s.toNat := by decide
  have hb : ∀ (k : BitVec 1) (s : BitVec 3), (k ++ 0#1 ++ s).getLsbD 3 = false := by decide
  have h1 : sizeOk (36#6 ++ (Body.r (.op .memD d) (.op .memA a) (.op .memB b) (k ++ 0#1 ++ s)).bits) = true := by
    rw [sizeOk, r_cF, hf]; simpa using hs
  have h2 : (36#6 ++ (Body.r (.op .memD d) (.op .memA a) (.op .memB b) (k ++ 0#1 ++ s)).bits : W32).getLsbD 3 = false := by
    have := congrArg (fun v => BitVec.getLsbD v 0)
      (r_f 36#6 (.op .memD d) (.op .memA a) (.op .memB b) (k ++ 0#1 ++ s) 3 1 (by omega))
    simp only [BitVec.getLsbD_extractLsb', hb] at this
    simpa [hb] using this
  rw [parse_major p _ _ 36 rfl]
  show (if sizeOk _ && !BitVec.getLsbD _ 3 then some (Instr.sts p (fD _) (fA _) (fB _) (BitVec.extractLsb' 4 1 _)
    (BitVec.extractLsb' 0 3 _)) else none) = _
  rw [h1, h2, fD_r, fA_r, fB_r, r_f _ _ _ _ _ 4 1 (by omega), r_f _ _ _ _ _ 0 3 (by omega),
    extract_over _ s 4 1 (by omega), extract_high k 0#1, extract_low _ s 0 3 (by omega), extract_all]
  rfl
theorem ReadsBack.atomAddI32 (p : Pfx) (d : Opnd) (a : Opnd) (b : Opnd) : ReadsBack.Statement (.atomAddI32 p d a b) := fun _ => by
  rw [parse_r _ _ _ _ p _ 37 0 rfl rfl]
  show some (Instr.atomAddI32 p (fD _) (fA _) (fB _)) = _
  rw [fD_r, fA_r, fB_r]
theorem ReadsBack.atomAddI64 (p : Pfx) (d : Opnd) (a : Opnd) (b : Opnd) : ReadsBack.Statement (.atomAddI64 p d a b) := fun _ => by
  rw [parse_r _ _ _ _ p _ 37 1 rfl rfl]
  show some (Instr.atomAddI64 p (fD _) (fA _) (fB _)) = _
  rw [fD_r, fA_r, fB_r]
theorem ReadsBack.atomAddF32 (p : Pfx) (d : Opnd) (a : Opnd) (b : Opnd) : ReadsBack.Statement (.atomAddF32 p d a b) := fun _ => by
  rw [parse_r _ _ _ _ p _ 37 2 rfl rfl]
  show some (Instr.atomAddF32 p (fD _) (fA _) (fB _)) = _
  rw [fD_r, fA_r, fB_r]
theorem ReadsBack.atomMinI32 (p : Pfx) (d : Opnd) (a : Opnd) (b : Opnd) : ReadsBack.Statement (.atomMinI32 p d a b) := fun _ => by
  rw [parse_r _ _ _ _ p _ 37 3 rfl rfl]
  show some (Instr.atomMinI32 p (fD _) (fA _) (fB _)) = _
  rw [fD_r, fA_r, fB_r]
theorem ReadsBack.atomMaxI32 (p : Pfx) (d : Opnd) (a : Opnd) (b : Opnd) : ReadsBack.Statement (.atomMaxI32 p d a b) := fun _ => by
  rw [parse_r _ _ _ _ p _ 37 4 rfl rfl]
  show some (Instr.atomMaxI32 p (fD _) (fA _) (fB _)) = _
  rw [fD_r, fA_r, fB_r]
theorem ReadsBack.atomMinN32 (p : Pfx) (d : Opnd) (a : Opnd) (b : Opnd) : ReadsBack.Statement (.atomMinN32 p d a b) := fun _ => by
  rw [parse_r _ _ _ _ p _ 37 5 rfl rfl]
  show some (Instr.atomMinN32 p (fD _) (fA _) (fB _)) = _
  rw [fD_r, fA_r, fB_r]
theorem ReadsBack.atomMaxN32 (p : Pfx) (d : Opnd) (a : Opnd) (b : Opnd) : ReadsBack.Statement (.atomMaxN32 p d a b) := fun _ => by
  rw [parse_r _ _ _ _ p _ 37 6 rfl rfl]
  show some (Instr.atomMaxN32 p (fD _) (fA _) (fB _)) = _
  rw [fD_r, fA_r, fB_r]
theorem ReadsBack.atomMinN64 (p : Pfx) (d : Opnd) (a : Opnd) (b : Opnd) : ReadsBack.Statement (.atomMinN64 p d a b) := fun _ => by
  rw [parse_r _ _ _ _ p _ 37 7 rfl rfl]
  show some (Instr.atomMinN64 p (fD _) (fA _) (fB _)) = _
  rw [fD_r, fA_r, fB_r]
theorem ReadsBack.atomMaxN64 (p : Pfx) (d : Opnd) (a : Opnd) (b : Opnd) : ReadsBack.Statement (.atomMaxN64 p d a b) := fun _ => by
  rw [parse_r _ _ _ _ p _ 37 8 rfl rfl]
  show some (Instr.atomMaxN64 p (fD _) (fA _) (fB _)) = _
  rw [fD_r, fA_r, fB_r]
theorem ReadsBack.atomAndB32 (p : Pfx) (d : Opnd) (a : Opnd) (b : Opnd) : ReadsBack.Statement (.atomAndB32 p d a b) := fun _ => by
  rw [parse_r _ _ _ _ p _ 37 9 rfl rfl]
  show some (Instr.atomAndB32 p (fD _) (fA _) (fB _)) = _
  rw [fD_r, fA_r, fB_r]
theorem ReadsBack.atomOrB32 (p : Pfx) (d : Opnd) (a : Opnd) (b : Opnd) : ReadsBack.Statement (.atomOrB32 p d a b) := fun _ => by
  rw [parse_r _ _ _ _ p _ 37 10 rfl rfl]
  show some (Instr.atomOrB32 p (fD _) (fA _) (fB _)) = _
  rw [fD_r, fA_r, fB_r]
theorem ReadsBack.atomXorB32 (p : Pfx) (d : Opnd) (a : Opnd) (b : Opnd) : ReadsBack.Statement (.atomXorB32 p d a b) := fun _ => by
  rw [parse_r _ _ _ _ p _ 37 11 rfl rfl]
  show some (Instr.atomXorB32 p (fD _) (fA _) (fB _)) = _
  rw [fD_r, fA_r, fB_r]
theorem ReadsBack.atomXchgB32 (p : Pfx) (d : Opnd) (a : Opnd) (b : Opnd) : ReadsBack.Statement (.atomXchgB32 p d a b) := fun _ => by
  rw [parse_r _ _ _ _ p _ 37 12 rfl rfl]
  show some (Instr.atomXchgB32 p (fD _) (fA _) (fB _)) = _
  rw [fD_r, fA_r, fB_r]
theorem ReadsBack.atomXchgB64 (p : Pfx) (d : Opnd) (a : Opnd) (b : Opnd) : ReadsBack.Statement (.atomXchgB64 p d a b) := fun _ => by
  rw [parse_r _ _ _ _ p _ 37 13 rfl rfl]
  show some (Instr.atomXchgB64 p (fD _) (fA _) (fB _)) = _
  rw [fD_r, fA_r, fB_r]
theorem ReadsBack.atomCasB32 (p : Pfx) (d : Opnd) (a : Opnd) : ReadsBack.Statement (.atomCasB32 p d a) := fun _ => by
  rw [parse_r _ _ _ _ p _ 37 14 rfl rfl]
  show some (Instr.atomCasB32 p (fD _) (fA _)) = _
  rw [fD_r, fA_r]
theorem ReadsBack.atomCasB64 (p : Pfx) (d : Opnd) (a : Opnd) : ReadsBack.Statement (.atomCasB64 p d a) := fun _ => by
  rw [parse_r _ _ _ _ p _ 37 15 rfl rfl]
  show some (Instr.atomCasB64 p (fD _) (fA _)) = _
  rw [fD_r, fA_r]
theorem ReadsBack.atomFminF32 (p : Pfx) (d : Opnd) (a : Opnd) (b : Opnd) : ReadsBack.Statement (.atomFminF32 p d a b) := fun _ => by
  rw [parse_r _ _ _ _ p _ 37 16 rfl rfl]
  show some (Instr.atomFminF32 p (fD _) (fA _) (fB _)) = _
  rw [fD_r, fA_r, fB_r]
theorem ReadsBack.atomFmaxF32 (p : Pfx) (d : Opnd) (a : Opnd) (b : Opnd) : ReadsBack.Statement (.atomFmaxF32 p d a b) := fun _ => by
  rw [parse_r _ _ _ _ p _ 37 17 rfl rfl]
  show some (Instr.atomFmaxF32 p (fD _) (fA _) (fB _)) = _
  rw [fD_r, fA_r, fB_r]
theorem ReadsBack.atomAddBf16x2 (p : Pfx) (d : Opnd) (a : Opnd) (b : Opnd) : ReadsBack.Statement (.atomAddBf16x2 p d a b) := fun _ => by
  rw [parse_r _ _ _ _ p _ 37 18 rfl rfl]
  show some (Instr.atomAddBf16x2 p (fD _) (fA _) (fB _)) = _
  rw [fD_r, fA_r, fB_r]
theorem ReadsBack.atomsAddI32 (p : Pfx) (d : Opnd) (a : Opnd) (b : Opnd) : ReadsBack.Statement (.atomsAddI32 p d a b) := fun _ => by
  rw [parse_r _ _ _ _ p _ 38 0 rfl rfl]
  show some (Instr.atomsAddI32 p (fD _) (fA _) (fB _)) = _
  rw [fD_r, fA_r, fB_r]
theorem ReadsBack.atomsAddI64 (p : Pfx) (d : Opnd) (a : Opnd) (b : Opnd) : ReadsBack.Statement (.atomsAddI64 p d a b) := fun _ => by
  rw [parse_r _ _ _ _ p _ 38 1 rfl rfl]
  show some (Instr.atomsAddI64 p (fD _) (fA _) (fB _)) = _
  rw [fD_r, fA_r, fB_r]
theorem ReadsBack.atomsAddF32 (p : Pfx) (d : Opnd) (a : Opnd) (b : Opnd) : ReadsBack.Statement (.atomsAddF32 p d a b) := fun _ => by
  rw [parse_r _ _ _ _ p _ 38 2 rfl rfl]
  show some (Instr.atomsAddF32 p (fD _) (fA _) (fB _)) = _
  rw [fD_r, fA_r, fB_r]
theorem ReadsBack.atomsMinI32 (p : Pfx) (d : Opnd) (a : Opnd) (b : Opnd) : ReadsBack.Statement (.atomsMinI32 p d a b) := fun _ => by
  rw [parse_r _ _ _ _ p _ 38 3 rfl rfl]
  show some (Instr.atomsMinI32 p (fD _) (fA _) (fB _)) = _
  rw [fD_r, fA_r, fB_r]
theorem ReadsBack.atomsMaxI32 (p : Pfx) (d : Opnd) (a : Opnd) (b : Opnd) : ReadsBack.Statement (.atomsMaxI32 p d a b) := fun _ => by
  rw [parse_r _ _ _ _ p _ 38 4 rfl rfl]
  show some (Instr.atomsMaxI32 p (fD _) (fA _) (fB _)) = _
  rw [fD_r, fA_r, fB_r]
theorem ReadsBack.atomsMinN32 (p : Pfx) (d : Opnd) (a : Opnd) (b : Opnd) : ReadsBack.Statement (.atomsMinN32 p d a b) := fun _ => by
  rw [parse_r _ _ _ _ p _ 38 5 rfl rfl]
  show some (Instr.atomsMinN32 p (fD _) (fA _) (fB _)) = _
  rw [fD_r, fA_r, fB_r]
theorem ReadsBack.atomsMaxN32 (p : Pfx) (d : Opnd) (a : Opnd) (b : Opnd) : ReadsBack.Statement (.atomsMaxN32 p d a b) := fun _ => by
  rw [parse_r _ _ _ _ p _ 38 6 rfl rfl]
  show some (Instr.atomsMaxN32 p (fD _) (fA _) (fB _)) = _
  rw [fD_r, fA_r, fB_r]
theorem ReadsBack.atomsMinN64 (p : Pfx) (d : Opnd) (a : Opnd) (b : Opnd) : ReadsBack.Statement (.atomsMinN64 p d a b) := fun _ => by
  rw [parse_r _ _ _ _ p _ 38 7 rfl rfl]
  show some (Instr.atomsMinN64 p (fD _) (fA _) (fB _)) = _
  rw [fD_r, fA_r, fB_r]
theorem ReadsBack.atomsMaxN64 (p : Pfx) (d : Opnd) (a : Opnd) (b : Opnd) : ReadsBack.Statement (.atomsMaxN64 p d a b) := fun _ => by
  rw [parse_r _ _ _ _ p _ 38 8 rfl rfl]
  show some (Instr.atomsMaxN64 p (fD _) (fA _) (fB _)) = _
  rw [fD_r, fA_r, fB_r]
theorem ReadsBack.atomsAndB32 (p : Pfx) (d : Opnd) (a : Opnd) (b : Opnd) : ReadsBack.Statement (.atomsAndB32 p d a b) := fun _ => by
  rw [parse_r _ _ _ _ p _ 38 9 rfl rfl]
  show some (Instr.atomsAndB32 p (fD _) (fA _) (fB _)) = _
  rw [fD_r, fA_r, fB_r]
theorem ReadsBack.atomsOrB32 (p : Pfx) (d : Opnd) (a : Opnd) (b : Opnd) : ReadsBack.Statement (.atomsOrB32 p d a b) := fun _ => by
  rw [parse_r _ _ _ _ p _ 38 10 rfl rfl]
  show some (Instr.atomsOrB32 p (fD _) (fA _) (fB _)) = _
  rw [fD_r, fA_r, fB_r]
theorem ReadsBack.atomsXorB32 (p : Pfx) (d : Opnd) (a : Opnd) (b : Opnd) : ReadsBack.Statement (.atomsXorB32 p d a b) := fun _ => by
  rw [parse_r _ _ _ _ p _ 38 11 rfl rfl]
  show some (Instr.atomsXorB32 p (fD _) (fA _) (fB _)) = _
  rw [fD_r, fA_r, fB_r]
theorem ReadsBack.atomsXchgB32 (p : Pfx) (d : Opnd) (a : Opnd) (b : Opnd) : ReadsBack.Statement (.atomsXchgB32 p d a b) := fun _ => by
  rw [parse_r _ _ _ _ p _ 38 12 rfl rfl]
  show some (Instr.atomsXchgB32 p (fD _) (fA _) (fB _)) = _
  rw [fD_r, fA_r, fB_r]
theorem ReadsBack.atomsXchgB64 (p : Pfx) (d : Opnd) (a : Opnd) (b : Opnd) : ReadsBack.Statement (.atomsXchgB64 p d a b) := fun _ => by
  rw [parse_r _ _ _ _ p _ 38 13 rfl rfl]
  show some (Instr.atomsXchgB64 p (fD _) (fA _) (fB _)) = _
  rw [fD_r, fA_r, fB_r]
theorem ReadsBack.atomsCasB32 (p : Pfx) (d : Opnd) (a : Opnd) : ReadsBack.Statement (.atomsCasB32 p d a) := fun _ => by
  rw [parse_r _ _ _ _ p _ 38 14 rfl rfl]
  show some (Instr.atomsCasB32 p (fD _) (fA _)) = _
  rw [fD_r, fA_r]
theorem ReadsBack.atomsCasB64 (p : Pfx) (d : Opnd) (a : Opnd) : ReadsBack.Statement (.atomsCasB64 p d a) := fun _ => by
  rw [parse_r _ _ _ _ p _ 38 15 rfl rfl]
  show some (Instr.atomsCasB64 p (fD _) (fA _)) = _
  rw [fD_r, fA_r]
theorem ReadsBack.atomsFminF32 (p : Pfx) (d : Opnd) (a : Opnd) (b : Opnd) : ReadsBack.Statement (.atomsFminF32 p d a b) := fun _ => by
  rw [parse_r _ _ _ _ p _ 38 16 rfl rfl]
  show some (Instr.atomsFminF32 p (fD _) (fA _) (fB _)) = _
  rw [fD_r, fA_r, fB_r]
theorem ReadsBack.atomsFmaxF32 (p : Pfx) (d : Opnd) (a : Opnd) (b : Opnd) : ReadsBack.Statement (.atomsFmaxF32 p d a b) := fun _ => by
  rw [parse_r _ _ _ _ p _ 38 17 rfl rfl]
  show some (Instr.atomsFmaxF32 p (fD _) (fA _) (fB _)) = _
  rw [fD_r, fA_r, fB_r]
theorem ReadsBack.atomsAddBf16x2 (p : Pfx) (d : Opnd) (a : Opnd) (b : Opnd) : ReadsBack.Statement (.atomsAddBf16x2 p d a b) := fun _ => by
  rw [parse_r _ _ _ _ p _ 38 18 rfl rfl]
  show some (Instr.atomsAddBf16x2 p (fD _) (fA _) (fB _)) = _
  rw [fD_r, fA_r, fB_r]
theorem ReadsBack.sigAdd (p : Pfx) (a : Opnd) (b : Opnd) : ReadsBack.Statement (.sigAdd p a b) := fun _ => by
  rw [parse_r _ _ _ _ p _ 39 0 rfl rfl]
  show some (Instr.sigAdd p (fA _) (fB _)) = _
  rw [fA_r, fB_r]
theorem ReadsBack.sigSet (p : Pfx) (a : Opnd) (b : Opnd) : ReadsBack.Statement (.sigSet p a b) := fun _ => by
  rw [parse_r _ _ _ _ p _ 39 1 rfl rfl]
  show some (Instr.sigSet p (fA _) (fB _)) = _
  rw [fA_r, fB_r]
theorem ReadsBack.swaitGe (p : Pfx) (d : Opnd) (a : Opnd) (b : Opnd) : ReadsBack.Statement (.swaitGe p d a b) := fun _ => by
  rw [parse_r _ _ _ _ p _ 39 2 rfl rfl]
  show some (Instr.swaitGe p (fD _) (fA _) (fB _)) = _
  rw [fD_r, fA_r, fB_r]
theorem ReadsBack.swaitEq (p : Pfx) (d : Opnd) (a : Opnd) (b : Opnd) : ReadsBack.Statement (.swaitEq p d a b) := fun _ => by
  rw [parse_r _ _ _ _ p _ 39 3 rfl rfl]
  show some (Instr.swaitEq p (fD _) (fA _) (fB _)) = _
  rw [fD_r, fA_r, fB_r]
theorem ReadsBack.swaitNe (p : Pfx) (d : Opnd) (a : Opnd) (b : Opnd) : ReadsBack.Statement (.swaitNe p d a b) := fun _ => by
  rw [parse_r _ _ _ _ p _ 39 4 rfl rfl]
  show some (Instr.swaitNe p (fD _) (fA _) (fB _)) = _
  rw [fD_r, fA_r, fB_r]
theorem ReadsBack.fence (p : Pfx) (k : BitVec 2) (c : BitVec 3) : ReadsBack.Statement (.fence p k c) := fun h => by
  have hk : k.toNat < 3 := of_decide_eq_true h
  have hall : ∀ (k : BitVec 2) (c : BitVec 3), k.toNat < 3 → ¬ (k ++ c).toNat / 8 = 3 := by decide
  have hm := hall k c hk
  rw [parse_major p _ _ 40 rfl, r_cF]
  show (if (k ++ c).toNat / 8 = 3 then none
    else some (Instr.fence p (BitVec.extractLsb' 3 2 _) (BitVec.extractLsb' 0 3 _))) = _
  rw [if_neg hm, r_f _ _ _ _ _ 3 2 (by omega), r_f _ _ _ _ _ 0 3 (by omega), extract_high k c,
    extract_low k c 0 3 (by omega), extract_all]
theorem ReadsBack.pbarPkg (p : Pfx) : ReadsBack.Statement (.pbarPkg p) := fun _ => by
  rw [parse_r _ _ _ _ p _ 41 0 rfl rfl]
  show some (Instr.pbarPkg p) = _
  rfl
theorem ReadsBack.pbarMend (p : Pfx) : ReadsBack.Statement (.pbarMend p) := fun _ => by
  rw [parse_r _ _ _ _ p _ 41 1 rfl rfl]
  show some (Instr.pbarMend p) = _
  rfl
theorem ReadsBack.pflush (p : Pfx) (a : Opnd) (b : Opnd) : ReadsBack.Statement (.pflush p a b) := fun _ => by
  rw [parse_r _ _ _ _ p _ 41 2 rfl rfl]
  show some (Instr.pflush p (fA _) (fB _)) = _
  rw [fA_r, fB_r]
theorem ReadsBack.stepmark (p : Pfx) (d : Opnd) (b : BitVec 7) : ReadsBack.Statement (.stepmark p d b) := fun _ => by
  rw [parse_r _ _ _ _ p _ 41 3 rfl rfl]
  show some (Instr.stepmark p (fD _) (cB _)) = _
  rw [fD_r, cB_r]
theorem ReadsBack.stepq (p : Pfx) (d : Opnd) (b : BitVec 7) : ReadsBack.Statement (.stepq p d b) := fun _ => by
  rw [parse_r _ _ _ _ p _ 41 4 rfl rfl]
  show some (Instr.stepq p (fD _) (cB _)) = _
  rw [fD_r, cB_r]
theorem ReadsBack.shcopy (p : Pfx) (d : Opnd) (a : Opnd) : ReadsBack.Statement (.shcopy p d a) := fun _ => by
  rw [parse_r _ _ _ _ p _ 42 0 rfl rfl]
  show some (Instr.shcopy p (fD _) (fA _)) = _
  rw [fD_r, fA_r]
theorem ReadsBack.shtile (p : Pfx) (d : Opnd) (a : Opnd) : ReadsBack.Statement (.shtile p d a) := fun _ => by
  rw [parse_r _ _ _ _ p _ 42 1 rfl rfl]
  show some (Instr.shtile p (fD _) (fA _)) = _
  rw [fD_r, fA_r]
theorem ReadsBack.shgath (p : Pfx) (d : Opnd) (a : Opnd) (b : Opnd) : ReadsBack.Statement (.shgath p d a b) := fun _ => by
  rw [parse_r _ _ _ _ p _ 42 2 rfl rfl]
  show some (Instr.shgath p (fD _) (fA _) (fB _)) = _
  rw [fD_r, fA_r, fB_r]
theorem ReadsBack.shscat (p : Pfx) (d : Opnd) (a : Opnd) (b : Opnd) : ReadsBack.Statement (.shscat p d a b) := fun _ => by
  rw [parse_r _ _ _ _ p _ 42 3 rfl rfl]
  show some (Instr.shscat p (fD _) (fA _) (fB _)) = _
  rw [fD_r, fA_r, fB_r]
theorem ReadsBack.shfill (p : Pfx) (d : Opnd) (a : Opnd) : ReadsBack.Statement (.shfill p d a) := fun _ => by
  rw [parse_r _ _ _ _ p _ 42 4 rfl rfl]
  show some (Instr.shfill p (fD _) (fA _)) = _
  rw [fD_r, fA_r]
theorem ReadsBack.kinit (p : Pfx) (a : Opnd) (b : Opnd) : ReadsBack.Statement (.kinit p a b) := fun _ => by
  rw [parse_r _ _ _ _ p _ 43 0 rfl rfl]
  show some (Instr.kinit p (fA _) (fB _)) = _
  rw [fA_r, fB_r]
theorem ReadsBack.karrive (p : Pfx) (a : Opnd) : ReadsBack.Statement (.karrive p a) := fun _ => by
  rw [parse_r _ _ _ _ p _ 43 1 rfl rfl]
  show some (Instr.karrive p (fA _)) = _
  rw [fA_r]
theorem ReadsBack.kexpect (p : Pfx) (a : Opnd) (b : Opnd) : ReadsBack.Statement (.kexpect p a b) := fun _ => by
  rw [parse_r _ _ _ _ p _ 43 2 rfl rfl]
  show some (Instr.kexpect p (fA _) (fB _)) = _
  rw [fA_r, fB_r]
theorem ReadsBack.kwait (p : Pfx) (d : Opnd) (a : Opnd) (b : Opnd) : ReadsBack.Statement (.kwait p d a b) := fun _ => by
  rw [parse_r _ _ _ _ p _ 43 3 rfl rfl]
  show some (Instr.kwait p (fD _) (fA _) (fB _)) = _
  rw [fD_r, fA_r, fB_r]
theorem ReadsBack.ktest (p : Pfx) (d : Opnd) (a : Opnd) : ReadsBack.Statement (.ktest p d a) := fun _ => by
  rw [parse_r _ _ _ _ p _ 43 4 rfl rfl]
  show some (Instr.ktest p (fD _) (fA _)) = _
  rw [fD_r, fA_r]
theorem ReadsBack.kinval (p : Pfx) (a : Opnd) : ReadsBack.Statement (.kinval p a) := fun _ => by
  rw [parse_r _ _ _ _ p _ 43 5 rfl rfl]
  show some (Instr.kinval p (fA _)) = _
  rw [fA_r]
theorem ReadsBack.waitc (p : Pfx) (a : Opnd) (b : BitVec 7) : ReadsBack.Statement (.waitc p a b) := fun _ => by
  rw [parse_r _ _ _ _ p _ 44 0 rfl rfl]
  show some (Instr.waitc p (fA _) (cB _)) = _
  rw [fA_r, cB_r]
theorem ReadsBack.waitq (p : Pfx) (a : Opnd) (b : Opnd) : ReadsBack.Statement (.waitq p a b) := fun _ => by
  rw [parse_r _ _ _ _ p _ 44 1 rfl rfl]
  show some (Instr.waitq p (fA _) (fB _)) = _
  rw [fA_r, fB_r]
theorem ReadsBack.waitall (p : Pfx) : ReadsBack.Statement (.waitall p) := fun _ => by
  rw [parse_r _ _ _ _ p _ 44 2 rfl rfl]
  show some (Instr.waitall p) = _
  rfl
theorem ReadsBack.mcfg (p : Pfx) (a : Opnd) : ReadsBack.Statement (.mcfg p a) := fun _ => by
  rw [parse_r _ _ _ _ p _ 45 0 rfl rfl]
  show some (Instr.mcfg p (fA _)) = _
  rw [fA_r]
theorem ReadsBack.mzero (p : Pfx) (d : Opnd) (a : Opnd) : ReadsBack.Statement (.mzero p d a) := fun _ => by
  rw [parse_r _ _ _ _ p _ 45 1 rfl rfl]
  show some (Instr.mzero p (fD _) (fA _)) = _
  rw [fD_r, fA_r]
theorem ReadsBack.mloop (p : Pfx) (d : Opnd) (a : Opnd) : ReadsBack.Statement (.mloop p d a) := fun _ => by
  rw [parse_r _ _ _ _ p _ 45 2 rfl rfl]
  show some (Instr.mloop p (fD _) (fA _)) = _
  rw [fD_r, fA_r]
theorem ReadsBack.mstep (p : Pfx) (d : Opnd) (a : Opnd) : ReadsBack.Statement (.mstep p d a) := fun _ => by
  rw [parse_r _ _ _ _ p _ 45 3 rfl rfl]
  show some (Instr.mstep p (fD _) (fA _)) = _
  rw [fD_r, fA_r]
theorem ReadsBack.mcvt (p : Pfx) (d : Opnd) (a : Opnd) : ReadsBack.Statement (.mcvt p d a) := fun _ => by
  rw [parse_r _ _ _ _ p _ 45 4 rfl rfl]
  show some (Instr.mcvt p (fD _) (fA _)) = _
  rw [fD_r, fA_r]
theorem ReadsBack.mscal (p : Pfx) (d : Opnd) (a : Opnd) : ReadsBack.Statement (.mscal p d a) := fun _ => by
  rw [parse_r _ _ _ _ p _ 45 5 rfl rfl]
  show some (Instr.mscal p (fD _) (fA _)) = _
  rw [fD_r, fA_r]
theorem ReadsBack.nmv (p : Pfx) (d : Opnd) (a : Opnd) : ReadsBack.Statement (.nmv p d a) := fun _ => by
  rw [parse_r _ _ _ _ p _ 46 0 rfl rfl]
  show some (Instr.nmv p (fD _) (fA _)) = _
  rw [fD_r, fA_r]
theorem ReadsBack.nmvcfg (p : Pfx) (a : Opnd) : ReadsBack.Statement (.nmvcfg p a) := fun _ => by
  rw [parse_r _ _ _ _ p _ 46 1 rfl rfl]
  show some (Instr.nmvcfg p (fA _)) = _
  rw [fA_r]
theorem ReadsBack.itnNext (p : Pfx) (d : Opnd) : ReadsBack.Statement (.itnNext p d) := fun _ => by
  rw [parse_r _ _ _ _ p _ 47 0 rfl rfl]
  show some (Instr.itnNext p (fD _)) = _
  rw [fD_r]
theorem ReadsBack.itnDone (p : Pfx) : ReadsBack.Statement (.itnDone p) := fun _ => by
  rw [parse_r _ _ _ _ p _ 47 1 rfl rfl]
  show some (Instr.itnDone p) = _
  rfl
theorem ReadsBack.itnStash (p : Pfx) (d : Opnd) (a : Opnd) : ReadsBack.Statement (.itnStash p d a) := fun _ => by
  rw [parse_r _ _ _ _ p _ 47 2 rfl rfl]
  show some (Instr.itnStash p (fD _) (fA _)) = _
  rw [fD_r, fA_r]
theorem ReadsBack.itnFree (p : Pfx) (a : Opnd) : ReadsBack.Statement (.itnFree p a) := fun _ => by
  rw [parse_r _ _ _ _ p _ 47 3 rfl rfl]
  show some (Instr.itnFree p (fA _)) = _
  rw [fA_r]
theorem ReadsBack.itnPost (p : Pfx) (d : Opnd) : ReadsBack.Statement (.itnPost p d) := fun _ => by
  rw [parse_r _ _ _ _ p _ 47 4 rfl rfl]
  show some (Instr.itnPost p (fD _)) = _
  rw [fD_r]
theorem ReadsBack.itnStat (p : Pfx) (d : Opnd) (b : BitVec 7) : ReadsBack.Statement (.itnStat p d b) := fun _ => by
  rw [parse_r _ _ _ _ p _ 47 5 rfl rfl]
  show some (Instr.itnStat p (fD _) (cB _)) = _
  rw [fD_r, cB_r]
theorem ReadsBack.lnch (p : Pfx) (d : Opnd) (a : Opnd) : ReadsBack.Statement (.lnch p d a) := fun _ => by
  rw [parse_r _ _ _ _ p _ 48 0 rfl rfl]
  show some (Instr.lnch p (fD _) (fA _)) = _
  rw [fD_r, fA_r]
theorem ReadsBack.lnchDep (p : Pfx) (d : Opnd) (a : Opnd) (b : Opnd) : ReadsBack.Statement (.lnchDep p d a b) := fun _ => by
  rw [parse_r _ _ _ _ p _ 48 1 rfl rfl]
  show some (Instr.lnchDep p (fD _) (fA _) (fB _)) = _
  rw [fD_r, fA_r, fB_r]
theorem ReadsBack.lnchq (p : Pfx) (d : Opnd) (a : Opnd) : ReadsBack.Statement (.lnchq p d a) := fun _ => by
  rw [parse_r _ _ _ _ p _ 48 2 rfl rfl]
  show some (Instr.lnchq p (fD _) (fA _)) = _
  rw [fD_r, fA_r]
theorem ReadsBack.barTeam (p : Pfx) (b : BitVec 7) : ReadsBack.Statement (.barTeam p b) := fun _ => by
  rw [parse_r _ _ _ _ p _ 49 0 rfl rfl]
  show some (Instr.barTeam p (cB _)) = _
  rw [cB_r]
theorem ReadsBack.barRole (p : Pfx) : ReadsBack.Statement (.barRole p) := fun _ => by
  rw [parse_r _ _ _ _ p _ 49 1 rfl rfl]
  show some (Instr.barRole p) = _
  rfl
theorem ReadsBack.barArrive (p : Pfx) (b : BitVec 7) : ReadsBack.Statement (.barArrive p b) := fun _ => by
  rw [parse_r _ _ _ _ p _ 49 2 rfl rfl]
  show some (Instr.barArrive p (cB _)) = _
  rw [cB_r]
theorem ReadsBack.barWait (p : Pfx) (b : BitVec 7) : ReadsBack.Statement (.barWait p b) := fun _ => by
  rw [parse_r _ _ _ _ p _ 49 3 rfl rfl]
  show some (Instr.barWait p (cB _)) = _
  rw [cB_r]
theorem ReadsBack.qtry (p : Pfx) (d : Opnd) (a : Opnd) (b : Opnd) : ReadsBack.Statement (.qtry p d a b) := fun _ => by
  rw [parse_r _ _ _ _ p _ 50 0 rfl rfl]
  show some (Instr.qtry p (fD _) (fA _) (fB _)) = _
  rw [fD_r, fA_r, fB_r]
theorem ReadsBack.qcount (p : Pfx) (d : Opnd) (a : Opnd) : ReadsBack.Statement (.qcount p d a) := fun _ => by
  rw [parse_r _ _ _ _ p _ 50 1 rfl rfl]
  show some (Instr.qcount p (fD _) (fA _)) = _
  rw [fD_r, fA_r]
theorem ReadsBack.qputtry (p : Pfx) (d : Opnd) (a : Opnd) (b : Opnd) : ReadsBack.Statement (.qputtry p d a b) := fun _ => by
  rw [parse_r _ _ _ _ p _ 50 2 rfl rfl]
  show some (Instr.qputtry p (fD _) (fA _) (fB _)) = _
  rw [fD_r, fA_r, fB_r]

end Sys2Proof.Laws
end

