-- ==== Sys2Proof/Certificates/Slice0/Obligations.lean ====
section
/-! DEFINITION. The statements for the provers. Each docstring names the rules it formalises. A statement about an instruction
speaks of a state in which it issues (`State.Issues`): the weft is the one that issues next, and the operand checks of R280's
stages 2 and 3 pass; `IssueConditionsAndEmptySources` says in the manual's own terms when they do. -/

open Sys2Proof Sys2Proof.Machine

/-! ### Encoding -/

/-- R299, R303, R309, R312, R314: the words of every well-formed instruction decode to that instruction, with every operand and
every prefix field, and to its number of words. -/
def Obligations.EncodingReadsBack : Prop :=
  ∀ (i : Instr) (ws : List W32), i.WellFormed → encode i = some ws → decodeGroup ws = .instr i ws.length

/-- R299, R314: words that decode to an instruction decode to a well-formed one, and are exactly its encoding. -/
def Obligations.DecodedWordsAreTheEncoding : Prop :=
  ∀ (ws : List W32) (i : Instr) (n : Nat), decodeGroup ws = .instr i n → i.WellFormed ∧ encode i = some (ws.take n)

/-- R303, R309, R312, R313: words written out from the tables stand for the instructions the tables name.

R314, steps 1 and 2 (R279): base major 0x00 or 0x33-0x3D is ILLOP with DETAIL 1, with or without prefixes; XG after XG, XL
after XL and XG after XL are ILLOP with DETAIL 4, whatever the words hold. -/
def Obligations.WordsFromTheTables : Prop :=
  (decodeGroup [0x04000000] = .instr (.nop Pfx.plain) 1
   ∧ decodeGroup [0x08000123] = .instr (.trap Pfx.plain 0x123) 1
   ∧ decodeGroup [0b000011#6 ++ 0x43#7 ++ 0x41#7 ++ 0x42#7 ++ 0#5] = .instr (.sadd Pfx.plain (.s 3) (.s 1) (.s 2)) 1
   ∧ decodeGroup [0b001001#6 ++ 0x03#7 ++ 0x01#7 ++ 0x02#7 ++ 2#5] = .instr (.vmul Pfx.plain (.v 3) (.v 1) (.v 2)) 1
   ∧ decodeGroup [0b010010#6 ++ 0x03#7 ++ 0x01#7 ++ 0x02#7 ++ 3#5] = .instr (.ffma Pfx.plain (.v 3) (.v 1) (.v 2)) 1
   ∧ decodeGroup [0b011001#6 ++ 0#7 ++ 0x7FFFF#19] = .instr (.br Pfx.plain 0x7FFFF) 1
   ∧ decodeGroup [0x10#6 ++ 0x43#7 ++ 0x01#7 ++ 0x02#7 ++ 0b01001#5]
       = .instr (.vcmp Pfx.plain (.s 3) (.v 1) (.v 2) 2 1) 1
   ∧ decodeGroup [0x21#6 ++ 0x04#7 ++ 0x02#7 ++ 0x06#7 ++ 2#5] = .instr (.ld Pfx.plain (.v 4) (.v 2) (.v 6) 0 0 2) 1
   ∧ decodeGroup [0x25#6 ++ 0x05#7 ++ 0x02#7 ++ 0x06#7 ++ 0#5] = .instr (.atomAddI32 Pfx.plain (.v 5) (.v 2) (.v 6)) 1
   ∧ decodeGroup [0x28#6 ++ 0#21 ++ 0b01100#5] = .instr (.fence Pfx.plain 1 4) 1
   ∧ decodeGroup [0x2B#6 ++ 0#7 ++ 0x41#7 ++ 0x42#7 ++ 0#5] = .instr (.kinit Pfx.plain (.s 1) (.s 2)) 1)
  ∧ ((∀ (w : W32) (r : List W32), majorOf w = 0 ∨ (0x33 ≤ majorOf w ∧ majorOf w ≤ 0x3D) →
       decodeGroup (w :: r) = .fate (.illop 1)
       ∧ (∀ x : W32, majorOf x = 0x3F ∨ majorOf x = 0x3E → decodeGroup (x :: w :: r) = .fate (.illop 1))
       ∧ ∀ x y : W32, majorOf x = 0x3F → majorOf y = 0x3E → decodeGroup (x :: y :: w :: r) = .fate (.illop 1))
     ∧ (∀ (x y : W32) (r : List W32), majorOf x = 0x3F → majorOf y = 0x3F → decodeGroup (x :: y :: r) = .fate (.illop 4))
     ∧ (∀ (x y : W32) (r : List W32), majorOf x = 0x3E → majorOf y = 0x3E ∨ majorOf y = 0x3F →
         decodeGroup (x :: y :: r) = .fate (.illop 4))
     ∧ ∀ (x y z : W32) (r : List W32), majorOf x = 0x3F → majorOf y = 0x3E → majorOf z = 0x3E ∨ majorOf z = 0x3F →
         decodeGroup (x :: y :: z :: r) = .fate (.illop 4))

/-! ### The step -/

/-- R280, R300 and assumption 4: when no event is pending, boot is done and no power fail runs, the weft that the scheduler
picks has its group fetched; if the words decode to an instruction, the step is that instruction's meaning at the state after
the fetch, with the weft marked as looked at in this cycle; where both issue slots of its partition or the pipe of the group are
taken, the meaning only says whether the weft waits, and nothing else of it happens (R142, R143). A group whose pipes are held from
earlier cycles is not looked into, and no more is a memory group behind a fence that has not completed (R420). One that ration withholds
demands its units only where it would have issued (R92, log entry 89). -/
def Obligations.StepRunsTheDecodedInstruction : Prop :=
  ∀ (s s1 : State) (w : Weft) (ws : List W32) (i : Instr) (n : Nat),
    s.agenda = [] → s.power.pf = .idle → s.boot.st = .ready → s.nextWeft = some w →
    State.fetchGroup { s with focus := (w.core, w.slot) } w = (s1, .inl ws) → decodeGroup ws = .instr i n →
    let pipe := issuePipe i
    let held := s1.pipesHeld w pipe = true ∨ (pipe = some .memory ∧ s1.fenced w = true)
    let looks := fun f : State → State => step s = Res.andThen (exec i s1) fun t =>
      if t.waitsOn = some .ration then s1.rationed w pipe t else f t
    (held → step s = .next (s1.mark .waits))
    ∧ (¬ held → s1.roomToIssue w pipe = true → looks fun t => t.lookedAt w pipe (w.effMask (groupPfx i)))
    ∧ (¬ held → s1.roomToIssue w pipe = false → looks fun t => if t.waitsOn.isSome then t.mark .waits else s1.mark .passed)

/-- R236, R299, R300: a group inside one cached instruction line is the words at the weft's pc, little-endian: one word, two
behind a prefix, three behind XG and XL; and a line that is not cached comes from the bytes of memory that its address
translates to, as the core's own stores leave them (R272), and is cached; where an atomic of the core is still to be performed there, it is
not read past it.

Assumption 4: a pending event is the next step; then a running power-fail sequence and an unfinished boot post the next of
their own steps (R34, R103); with nothing left to do, a cycle ends. -/
def Obligations.FetchAndPendingEvents : Prop :=
  ((∀ (s : State) (w : Weft) (bs : List Byte), s.cachedLine w (w.pc.toNat / 128 * 128) = some bs →
     w.pc.toNat % 128 + 12 ≤ 128 →
     let x := fun j : Nat => wordAt bs (w.pc.toNat % 128 + 4 * j)
     let pre := fun v : W32 => majorOf v = 0x3F ∨ majorOf v = 0x3E
     (¬ pre (x 0) → s.fetchGroup w = (s, .inl [x 0]))
     ∧ (pre (x 0) → ¬ (majorOf (x 0) = 0x3F ∧ majorOf (x 1) = 0x3E) → s.fetchGroup w = (s, .inl [x 0, x 1]))
     ∧ (majorOf (x 0) = 0x3F → majorOf (x 1) = 0x3E → s.fetchGroup w = (s, .inl [x 0, x 1, x 2])))
   ∧ ∀ (s s1 : State) (w : Weft) (va k : Nat) (cbf : Bool), s.cachedLine w va = none →
       isFabric (BitVec.ofNat 64 va) = false → s.translate w.ctx (BitVec.ofNat 64 va) .fetch 0 = (.ok k cbf, s1) →
       s1.rpoisoned k 128 = false →
       (s1.atomicAt w.core k 128 = true → s.codeLine w va = (s, none))
       ∧ (s1.atomicAt w.core k 128 = false → (s.codeLine w va).2 = some (s1.coreBytes w.core k 128)
         ∧ (s.codeLine w va).1.cachedLine w va = some (s1.coreBytes w.core k 128)))
  ∧ ((∀ (s : State) (i : Instr) (r : List Instr), s.agenda = i :: r → step s = exec i { s with agenda := r })
     ∧ (∀ (s : State) (i : Instr), s.agenda = [] → s.power.pf ≠ .idle → s.power.nextStep = some i → step s = exec i s)
     ∧ (∀ (s : State) (i : Instr), s.agenda = [] → s.power.pf = .idle → s.boot.st ≠ .ready → s.boot.nextStep = some i →
         step s = exec i s)
     ∧ ∀ s : State, s.agenda = [] → s.power.pf = .idle → s.boot.st = .ready → s.nextWeft = none → step s = .next s.endCycle)

/-- R280, R326: no instruction and no device step is left without a meaning: each answers a next state, an encoded instruction
whenever a weft issues it; with no weft there is nothing it could act on, and it stops by name. A step of the machine with no
event pending answers a next state, whatever the state. -/
def Obligations.NothingStops : Prop :=
  ∀ s : State,
    (∀ i : Instr, i.shape = none ∨ (s.weft? s.focus.1 s.focus.2).isSome = true → ∃ t, exec i s = .next t)
    ∧ (∀ i : Instr, i.shape ≠ none → s.weft? s.focus.1 s.focus.2 = none → exec i s = .fault .noWeft)
    ∧ (s.agenda = [] → ∃ t, step s = .next t)

/-! ### Issue conditions (R220, R223, R224, R227, R280, R286, R305) -/

/-- R206, R220, R222-R224, R227, R276, R280 (stages 2 and 3), R286, R305: a group's operand checks pass just when: no operand's queue use is barred
(R223: a push to q4 without an output queue, any use of q5 without REFILL, a push to q6 or pop of q7 in an execute weft, a pop of q6 or push to
q7 in an access weft); every register of a window name exists; the guard register is full and not poisoned; no register that is read, or that is
written in some lanes only, is poisoned; every register named is full and in no busy range, one accessed through an index register in the
lanes within the bound, with no busy range over the register's range, at most three of them before a write, and the whole range full before a
read; and each queue that counts under the mask has its entries or room. The effective mask is `em` AND s[GS] or its
complement, less `dm` on a PL re-issue. The queues: a role queue is full with 16 entries and q4 as its stage queue is; q3 gives the entry of the stage
queue, 0 once that is closed and empty, the task record in a task launch, else 0.

R280, R286 (log entry 111): the pop of a poisoned stage queue entry, by a group that passes its operand checks with an active lane, is
SOFTERR, kind L, with REACH DATA in every active lane; nothing is popped or written.

R227, R304, R277: a group whose first obstacle is an empty scalar source register waits, with nothing changed but what it
is seen to wait on; with the source's XG bit set it traps EMPTY instead, kind F, naming the operand and the register. -/
def Obligations.IssueConditionsAndEmptySources : Prop :=
  (∀ (s : State) (w : Weft) (p : Pfx) (uses : List Use) (q : QRule),
     let m := w.effMask p
     let regs := (resolve m uses w.xregs).1
     let barred := fun u : Use => ∃ n : Fin 8, u.o = .q n ∧ ((n = 4 ∧ u.wr = true ∧ s.q4Out w = none)
       ∨ (n = 5 ∧ ∀ t, s.team? w.team = some t → t.refill = 0) ∨ (n = 6 ∧ u.wr = w.execRole) ∨ (n = 7 ∧ u.wr ≠ w.execRole))
     let reaches := fun (u : Use) (xs : List Nat) (n : Fin 8) (r : Nat) => ∃ i ∈ activeLanes m,
       xs.getD i 0 + u.regs ≤ (w.xreg n.val).base + (w.xreg n.val).bound ∧ xs.getD i 0 ≤ r ∧ r < xs.getD i 0 + u.regs
     let sound := fun (u : Use) (xs : List Nat) =>
       (∀ n : Fin 32, u.o = .s n → u.wr = false → (w.sreg n.val).pois = false)
       ∧ (∀ n : Fin 64, u.o = .v n → (u.wr = false ∨ (m ≠ 0 ∧ m ≠ allLanes)) → ∀ j, j < u.regs → (w.vreg (w.wb + n.val + j)).pois = false)
       ∧ (∀ n : Fin 8, u.o = .x n → u.vec = true → ∀ r, reaches u xs n r → (w.vreg r).pois = true →
           u.wr = true ∧ m = allLanes ∧ ∀ i, i < 64 → xs.getD i 0 ≤ r ∧ r < xs.getD i 0 + u.regs)
     let ready := fun (u : Use) (xs : List Nat) =>
       (∀ n : Fin 32, u.o = .s n → (w.sreg n.val).full = true)
       ∧ (∀ n : Fin 64, u.o = .v n → ∀ j, j < u.regs → let r := w.wb + n.val + j
           (w.vreg r).full = true ∧ (u.waits = true → ∀ b ∈ w.busy, ¬(b.2.1 ≤ r ∧ r < b.2.1 + b.2.2)))
       ∧ (∀ n : Fin 8, u.o = .x n → u.vec = true → let x := w.xreg n.val
           (∀ r, reaches u xs n r → (w.vreg r).full = true)
           ∧ (∀ b ∈ w.busy, ¬(b.2.1 < x.base + x.bound ∧ x.base < b.2.1 + b.2.2))
           ∧ (u.wr = true → w.busy.length < 4) ∧ (u.wr = false → ∀ j, j < x.bound → (w.vreg (x.base + j)).full = true))
       ∧ (∀ n : Fin 8, u.o = .q n → m ≠ 0 ∨ (q = .sources ∧ u.wr = false) ∨ q = .all →
           (n = 5 → ∀ t, s.team? w.team = some t →
             if u.wr then t.q5.length + (activeLanes m).length ≤ t.refill else (activeLanes m).length ≤ t.q5.length)
           ∧ (n ≠ 5 → if u.wr then s.qFull w n.val = false else s.qHead w n.val ≠ none))
     ((∃ g, prep s w p uses q = .go g) ↔
       (∀ u ∈ uses, ¬ barred u) ∧ (∀ u ∈ uses, ∀ n : Fin 64, u.o = .v n → ∀ j, j < u.regs → w.wb + n.val + j < w.vregs.length)
       ∧ w.GuardReady p ∧ (∀ u ∈ uses.zip regs, sound u.1 u.2) ∧ ∀ u ∈ uses.zip regs, ready u.1 u.2)
     ∧ (∀ g, prep s w p uses q = .go g → g.m = m)
     ∧ (∀ l, l < 64 → m.getLsbD l = (w.em.getLsbD l && !(w.narrow && w.dm.getLsbD l)
         && (match p.xg with | some x => !x.ge || ((w.sreg x.gs.toNat).val.getLsbD l != x.gn) | none => true)))
     ∧ (s.qFull w 4 = true ↔ ∀ e k, s.q4Out w = some (e, k) → e.qdep.getD k 0 ≤ (e.queues.getD k []).length)
     ∧ (∀ t, s.team? w.team = some t → (s.qFull w 6 = true ↔ 16 ≤ t.q6.length) ∧ (s.qFull w 7 = true ↔ 16 ≤ t.q7.length)
         ∧ s.qHead w 0 = t.q0.head? ∧ s.qHead w 1 = t.q1.head? ∧ s.qHead w 2 = t.q2.head? ∧ s.qHead w 6 = t.q6.head? ∧ s.qHead w 7 = t.q7.head?)
     ∧ ∀ l, s.launchOf w = some l → let z := l.lrec.stage
         (∀ k, l.itn.isSome = true → l.task = some k → s.qHead w 3 = some (s.taskVa k))
         ∧ (l.itn = none → l.lrec.pipe = 0 ∨ z = 0 → s.qHead w 3 = some 0)
         ∧ (l.itn = none → l.lrec.pipe ≠ 0 → z ≠ 0 → ∀ e, s.pipeOf l = some e →
             (∀ v r, e.queues.getD z [] = v :: r → s.qHead w 3 = some v)
             ∧ (e.queues.getD z [] = [] → s.qHead w 3 = if e.closed.getD z false then some 0 else none)))
  ∧ (∀ (s : State) (w : Weft) (p : Pfx) (k : Fin 32) (g : Plan) (f : Weft → List W64 → W64),
       let uses := [srcS .a (.q 3), dstS (.s k)]
       s.weft? s.focus.1 s.focus.2 = some w → prep s w p uses .active = .go g → g.m ≠ 0 → s.q3Poisoned w = true →
       (s.qPop w 3).pipes ≠ s.pipes →
       execScalar s p [srcS .a (.q 3)] (.s k) f
         = .next (s.trapL (w.issued p false) .softerr g.m { TInfo.none with opnd := 1, reach := 3 }))
  ∧ (∀ (s : State) (w : Weft) (p : Pfx) (n : Fin 32) (d : Opnd) (f : Weft → List W64 → W64),
       s.weft? s.focus.1 s.focus.2 = some w → (w.sreg n.val).full = false → (w.sreg n.val).pois = false →
       w.GuardReady p →
       (∃ k : Fin 32, d = .s k) →
       (p.ea = false → execScalar s p [srcS .a (.s n)] d f = .next (s.setWeft { w with waiting := some .register }))
       ∧ (p.ea = true → execScalar s p [srcS .a (.s n)] d f
           = .next (s.trapF w .empty (w.effMask p) { TInfo.none with opnd := 1, preg := 0x100 + n.val })))

/-! ### Traps -/

/-- R275 (with R110): with TM = 0 the trapping weft saves the reported pc, the cause, the lanes and the information, TEM and
TDM take `em` and `dm`, `em` becomes all ones, TM becomes 1 and the pc becomes TVEC of its context; no other register, tag,
full/empty bit, counter, index register, busy range or special register of the weft changes, and nothing outside the weft.

R275, R290, R148: a trap with TM = 1 is fatal with cause NESTED: nothing vectors, LASTERR of the context becomes 0x80 + 0x17
and its teardown starts, unless it has started already. -/
def Obligations.TrapEntryAndNestedTraps : Prop :=
  (∀ (s : State) (w v : Weft) (c : Cause) (lanes info rpc : W64), s.weft? w.core w.slot = some v → w.tm = false →
     let t := s.takeTrap w c lanes info rpc
     ∃ u, t.weft? w.core w.slot = some u
       ∧ u.tpc = rpc ∧ u.tcause = BitVec.ofNat 8 c.code ∧ u.tmask = lanes ∧ u.tinfo = info
       ∧ u.tem = w.em ∧ u.tdm = w.dm ∧ u.em = allLanes ∧ u.tm = true ∧ u.pc = (s.ctx w.ctx).desc.tvec
       ∧ u.dm = w.dm ∧ u.wb = w.wb ∧ u.sregs = w.sregs ∧ u.vregs = w.vregs ∧ u.xregs = w.xregs ∧ u.cnt = w.cnt
       ∧ u.busy = w.busy ∧ u.fpmode = w.fpmode ∧ u.fpflags = w.fpflags ∧ u.seed = w.seed ∧ u.rctr = w.rctr
       ∧ u.rgnpc = w.rgnpc ∧ u.rgncnt = w.rgncnt ∧ u.rgnem = w.rgnem ∧ u.err = w.err
       ∧ s.SameButWefts t ∧ s.OtherWefts t w.core w.slot)
  ∧ (∀ (s : State) (w : Weft) (c : Cause) (lanes info rpc : W64), w.tm = true → w.ctx < s.ctxs.length →
       (s.ctx w.ctx).st = .running →
       let t := s.takeTrap w c lanes info rpc
       t = (s.setWeft w).fatal w .nested lanes info rpc
       ∧ (t.ctx w.ctx).st = .tearing ∧ (t.ctx w.ctx).lasterr = 0x97
       ∧ ∀ v ∈ t.wefts, v.ctx = w.ctx → v.injected = true)

/-- R276, R332: `tret` with TM = 1 restores `em` from TEM, `dm` from TDM and the pc from `tpc`, clears TM, keeps PL's narrowing
for one issue of the group at `tpc` and clears PL, and changes no other register; with TM = 0 it raises ILLOP with DETAIL 6,
kind F (R278), so that TM becomes 1, the pc is TVEC and `tpc` names the `tret`; that the mask reported is then `em`, as for a decode
fault, is the model's reading (assumption 69). It acts whatever the mask. -/
def Obligations.TrapReturn : Prop :=
  ∀ (s : State) (w : Weft) (p : Pfx) (g : Plan), s.Issues w p [] .all g →
    (w.tm = true → ∃ t u, exec (.tret p) s = .next t ∧ t.weft? w.core w.slot = some u
      ∧ u.em = w.tem ∧ u.dm = w.tdm ∧ u.pc = w.tpc ∧ u.tm = false
      ∧ u.narrow = w.tinfo.getLsbD 3 ∧ u.tinfo.getLsbD 3 = false
      ∧ (∀ k, k ≠ 3 → u.tinfo.getLsbD k = w.tinfo.getLsbD k)
      ∧ u.sregs = w.sregs ∧ u.vregs = w.vregs ∧ u.xregs = w.xregs ∧ u.wb = w.wb ∧ u.tpc = w.tpc ∧ u.tcause = w.tcause
      ∧ u.tmask = w.tmask ∧ u.tem = w.tem ∧ u.tdm = w.tdm ∧ u.cnt = w.cnt ∧ u.fpflags = w.fpflags ∧ u.fpmode = w.fpmode
      ∧ s.SameButWefts t ∧ s.OtherWefts t w.core w.slot)
    ∧ (w.tm = false → ∃ t u, exec (.tret p) s = .next t ∧ t.weft? w.core w.slot = some u
      ∧ u.tm = true ∧ u.pc = (s.ctx w.ctx).desc.tvec ∧ u.tpc = w.pc ∧ u.tcause = 0x01 ∧ u.tinfo = 0x600 ∧ u.tmask = w.em)

/-! ### Scalar instructions (R326, R327, R337-R340) -/

/-- R337, R338 (R214, R326): with an active lane each SALU instruction writes, or pushes, the value of its table row, computed
from its sources as they were when it issued; under SAT `sadd`, `ssub` and `smul` clamp the exact signed result to the signed
64-bit range, and no other minor is changed by SAT.

R337, R338, R339, R340: the one-source SALU minors, the immediate forms and `sli` write, or push, the value of their table
rows; an immediate is sign-extended from 12 or 19 bits, or from 38 or 45 with XL (R307, R308); `saddi` clamps under SAT.

R214, R326, R327, R336: a scalar-commit instruction whose effective mask is empty issues and does nothing else: no register
is written, no queue is popped or pushed, and only the address of the next group changes; `trap` and `brk` do nothing. -/
def Obligations.ScalarIntegerResults : Prop :=
  (∀ (s : State) (w : Weft) (p : Pfx) (d a b : Opnd) (g : Plan),
     s.Issues w p [srcS .a a, srcS .b b, dstS d] .active g → g.m ≠ 0 →
     let x := s.sVal w a
     let y := s.sVal w b
     let is := fun (i : Instr) (v : W64) => exec i s = .next (s.scalarNext w p g.m [srcS .a a, srcS .b b] d v)
     let yes : W64 := 0xFFFFFFFFFFFFFFFF
     let clamp := fun z : Int => BitVec.ofInt 64 (max (-(2 ^ 63)) (min (2 ^ 63 - 1) z))
     (p.sat = false → is (.sadd p d a b) (x + y) ∧ is (.ssub p d a b) (x - y) ∧ is (.smul p d a b) (x * y))
     ∧ (p.sat = true → is (.sadd p d a b) (clamp (x.toInt + y.toInt)) ∧ is (.ssub p d a b) (clamp (x.toInt - y.toInt))
         ∧ is (.smul p d a b) (clamp (x.toInt * y.toInt)))
     ∧ is (.smulhi p d a b) (BitVec.ofInt 64 (x.toInt * y.toInt / 2 ^ 64))
     ∧ is (.smulhn p d a b) (BitVec.ofNat 64 (x.toNat * y.toNat / 2 ^ 64))
     ∧ is (.sand p d a b) (x &&& y) ∧ is (.sor p d a b) (x ||| y) ∧ is (.sxor p d a b) (x ^^^ y)
     ∧ is (.sandn p d a b) (x &&& ~~~y)
     ∧ is (.sshl p d a b) (x <<< (y.toNat % 64)) ∧ is (.sshr p d a b) (x >>> (y.toNat % 64))
     ∧ is (.ssra p d a b) (x.sshiftRight (y.toNat % 64))
     ∧ is (.smin p d a b) (BitVec.ofInt 64 (min x.toInt y.toInt)) ∧ is (.smax p d a b) (BitVec.ofInt 64 (max x.toInt y.toInt))
     ∧ is (.sminn p d a b) (BitVec.ofNat 64 (min x.toNat y.toNat)) ∧ is (.smaxn p d a b) (BitVec.ofNat 64 (max x.toNat y.toNat))
     ∧ is (.seq p d a b) (if x = y then yes else 0) ∧ is (.sne p d a b) (if x = y then 0 else yes)
     ∧ is (.slt p d a b) (if x.toInt < y.toInt then yes else 0) ∧ is (.sle p d a b) (if x.toInt ≤ y.toInt then yes else 0)
     ∧ is (.sltn p d a b) (if x.toNat < y.toNat then yes else 0) ∧ is (.slen p d a b) (if x.toNat ≤ y.toNat then yes else 0))
  ∧ ((∀ (s : State) (w : Weft) (p : Pfx) (d a : Opnd) (g : Plan), s.Issues w p [srcS .a a, dstS d] .active g → g.m ≠ 0 →
       let x := s.sVal w a
       let is := fun (i : Instr) (v : W64) => exec i s = .next (s.scalarNext w p g.m [srcS .a a] d v)
       (∃ v : W64, is (.sclz p d a) v ∧ v.toNat ≤ 64 ∧ (x ≠ 0 → x.toNat / 2 ^ (63 - v.toNat) = 1) ∧ (x = 0 → v = 64))
       ∧ is (.spopc p d a) (BitVec.ofNat 64 ((laneIdx.filter fun i => x.getLsbD i).length))
       ∧ (∃ v : W64, is (.sffs p d a) v ∧ (x = 0 → v = 64)
           ∧ (x ≠ 0 → x.getLsbD v.toNat = true ∧ ∀ i, i < v.toNat → x.getLsbD i = false))
       ∧ (∃ v : W64, is (.sbrev p d a) v ∧ ∀ i, i < 64 → v.getLsbD i = x.getLsbD (63 - i))
       ∧ ∀ n : BitVec 12,
           let imm : W64 := match p.xl with | some l => (l ++ n).signExtend 64 | none => n.signExtend 64
           (p.sat = false → is (.saddi p d a n) (x + imm))
           ∧ (p.sat = true →
               is (.saddi p d a n) (BitVec.ofInt 64 (max (-(2 ^ 63)) (min (2 ^ 63 - 1) (x.toInt + imm.toInt)))))
           ∧ is (.sandi p d a n) (x &&& imm) ∧ is (.sori p d a n) (x ||| imm) ∧ is (.sxori p d a n) (x ^^^ imm))
     ∧ ∀ (s : State) (w : Weft) (p : Pfx) (d : Opnd) (n : BitVec 19) (g : Plan), s.Issues w p [dstS d] .active g → g.m ≠ 0 →
         exec (.sli p d n) s = .next (s.scalarNext w p g.m [] d
           (match p.xl with | some l => (l ++ n).signExtend 64 | none => n.signExtend 64)))
  ∧ (∀ (s : State) (w : Weft) (p : Pfx) (d a b : Opnd) (g : Plan), g.m = 0 →
       (s.Issues w p [srcS .a a, srcS .b b, dstS d] .active g →
         ∀ i ∈ [Instr.sadd p d a b, .ssub p d a b, .smul p d a b, .smulhi p d a b, .smulhn p d a b, .sand p d a b, .sor p d a b,
           .sxor p d a b, .sandn p d a b, .sshl p d a b, .sshr p d a b, .ssra p d a b, .smin p d a b, .smax p d a b,
           .sminn p d a b, .smaxn p d a b, .seq p d a b, .sne p d a b, .slt p d a b, .sle p d a b, .sltn p d a b,
           .slen p d a b], exec i s = .next (s.passes w p))
       ∧ (s.Issues w p [srcS .a a, dstS d] .active g → ∀ n : BitVec 12,
         ∀ i ∈ [Instr.sclz p d a, .spopc p d a, .sffs p d a, .sbrev p d a, .saddi p d a n, .sandi p d a n, .sori p d a n,
           .sxori p d a n], exec i s = .next (s.passes w p))
       ∧ (s.Issues w p [dstS d] .active g → ∀ (n : BitVec 19) (k : BitVec 7), k ≠ 0 →
         ∀ i ∈ [Instr.sli p d n, .getsr p d k], exec i s = .next (s.passes w p))
       ∧ (s.Issues w p [srcS .a a] .active g → ∀ k : BitVec 7, exec (.setsr p a k) s = .next (s.passes w p))
       ∧ (s.Issues w p [] .active g → ∀ (n : BitVec 12) (k : BitVec 7),
         exec (.trap p n) s = .next (s.passes w p) ∧ exec (.brk p k) s = .next (s.passes w p)))

/-! ### Special registers (R232-R235, R334, R335) -/

/-- R334, R232, R166: `getsr` of a register above 0 writes its value at issue; `itn.stat` a counter of the itinerary bound to
the weft's context, else 0; `stepq` C or M in the snapshot context, else 0; `xget` the
descriptor word of an index register.

R202, R214, R286, R326: what a scalar group that writes `v` leaves. Its weft's destination register, where it exists, holds
`v`, full as before and without poison; a queue destination has `v` pushed; `zero` discards it. Every other register, tag,
mask, flag, special, trap and index register, counter and the window of the weft is as before; the pc names the next group.
No other weft changes, and no byte of memory.

R335, R233, R306, R386: `setsr` writes the field width of a writable special register and nothing else, for the next group:
`tpc` with bits [1:0] as 0, `tinfo` without its reserved bits [31:25], `err` from bit 0, `fpmode` with a reserved rounding
mode stored as 0; a written `rctr` is not advanced by its own group. -/
def Obligations.ScalarReadsResultsAndFrame : Prop :=
  (∀ (s : State) (w : Weft) (p : Pfx) (d : Opnd) (k : BitVec 7) (g : Plan), g.m ≠ 0 →
     (s.Issues w p [dstS d] .active g →
       let is := fun (i : Instr) (v : W64) => exec i s = .next (s.scalarNext w p g.m [] d v)
       let sr := fun n : Nat => is (.getsr p d (BitVec.ofNat 7 n))
       let l := s.launchOf w
       sr 1 (BitVec.ofNat 64 w.wid) ∧ sr 2 (BitVec.ofNat 64 (((s.team? w.team).map Team.idx).getD 0))
       ∧ (∀ r, l = some r → sr 3 (BitVec.ofNat 64 (r.lrec.gx * r.lrec.gy * r.lrec.gz)))
       ∧ sr 4 (BitVec.ofNat 64 w.core) ∧ sr 5 (BitVec.ofNat 64 (w.core / 4)) ∧ sr 6 (BitVec.ofNat 64 (w.core / 52))
       ∧ sr 7 (s.fab.pkgid.setWidth 64) ∧ sr 8 (((s.dieStep.getD (w.core / 52) 0).setWidth 32).setWidth 64)
       ∧ sr 9 (w.seed.setWidth 64) ∧ sr 10 (w.fpmode.setWidth 64) ∧ sr 11 (w.fpflags.setWidth 64) ∧ sr 12 w.tpc
       ∧ sr 13 (w.tcause.setWidth 64) ∧ sr 14 w.tmask ∧ sr 15 w.tinfo ∧ sr 16 w.rgnpc ∧ sr 17 (w.rgncnt.setWidth 64)
       ∧ sr 18 (s.clocks.getD (w.core / 52) 0) ∧ sr 19 (if w.err then 1 else 0) ∧ sr 20 (if w.execRole then 1 else 0)
       ∧ sr 21 (BitVec.ofNat 64 w.wb) ∧ sr 22 (BitVec.ofNat 64 w.vregs.length)
       ∧ (∀ t, s.team? w.team = some t → sr 23 (BitVec.ofNat 64 (t.serial % 2 ^ 32))) ∧ sr 24 (w.rctr.setWidth 64)
       ∧ (s.itin.bound = some w.ctx → is (.itnStat p d k) (s.itin.counters.getD k.toNat 0))
       ∧ (s.itin.bound ≠ some w.ctx → is (.itnStat p d k) 0)
       ∧ ((∃ r ∈ s.snap.regions, r.ctx = w.ctx) → is (.stepq p d 0) (BitVec.ofNat 64 s.snap.c)
           ∧ is (.stepq p d 1) (BitVec.ofNat 64 s.snap.m))
       ∧ ((∀ r ∈ s.snap.regions, r.ctx ≠ w.ctx) → is (.stepq p d k) 0)
       ∧ ∀ n : Fin 8, is (.xget p d (.x n)) (w.xreg n.val).word))
  ∧ (∀ (s : State) (w : Weft) (p : Pfx) (d : Opnd) (m v : W64) (srcs : List Use),
       s.weft? w.core w.slot = some w → (∀ u ∈ srcs, u.wr = false) →
       let t := s.scalarNext w p m srcs d v
       ∃ u, t.weft? w.core w.slot = some u ∧ w.KeepsScalar u d ∧ u.pc = w.nextPc p
         ∧ u.rctr = w.rctr + (if p.rnd = 5 then 1 else 0)
         ∧ (∀ (k : Fin 32) (r : SReg), d = .s k → w.sregs[k.val]? = some r →
             u.sregs[k.val]? = some { val := v, full := r.full, pois := false })
         ∧ (∀ k : Fin 8, d = .q k → t = ((s.popUses w m srcs).qPush w k.val v).passes w p)
         ∧ (d = .zero → t = (s.popUses w m srcs).passes w p)
         ∧ s.OtherWefts t w.core w.slot ∧ s.SameMemory t)
  ∧ (∀ (s : State) (w : Weft) (p : Pfx) (a : Opnd) (g : Plan), s.Issues w p [srcS .a a] .active g → g.m ≠ 0 →
       let x := s.sVal w a
       let v := w.commit p false
       let is := fun (n : Nat) (u : Weft) =>
         exec (.setsr p a (BitVec.ofNat 7 n)) s = .next ((s.popUses w g.m [srcS .a a]).setWeft u)
       is 9 { v with seed := x.setWidth 32 } ∧ is 11 { v with fpflags := x.setWidth 5 }
       ∧ (∃ f : BitVec 9, is 10 { v with fpmode := f } ∧ (∀ k, 3 ≤ k → k < 9 → f.getLsbD k = x.getLsbD k)
           ∧ f.toNat % 8 = if 5 ≤ x.toNat % 8 then 0 else x.toNat % 8)
       ∧ (∃ y : W64, is 12 { v with tpc := y } ∧ y.toNat = x.toNat / 4 * 4)
       ∧ is 13 { v with tcause := x.setWidth 8 } ∧ is 14 { v with tmask := x }
       ∧ (∃ y : W64, is 15 { v with tinfo := y }
           ∧ ∀ k, k < 64 → y.getLsbD k = if 25 ≤ k ∧ k ≤ 31 then w.tinfo.getLsbD k else x.getLsbD k)
       ∧ is 19 { v with err := x.getLsbD 0 } ∧ is 24 { v with rctr := x.setWidth 32 })

/-! ### Masks (R341-R343) -/

/-- R342, R343: every MASK minor, whatever the effective mask, reads all its sources first, then changes the mask register and
writes, or pushes, the saved value: `mif`, `melse`, `mend`, `mset`, `mget`, `elect` and `mwhile`. Nothing else of the weft
changes but the address of the next group.

R345, R346, R348, R302: branches and jumps act whatever the mask. The next pc is the target when taken, else the next
group: the target is the address of the group plus 4 times the sign-extended offset, or the register's value with bits [1:0]
as 0. `loop` writes the register decreased by one, `call` and `callr` the address of the next group, before they go; a queue
they name is popped.

R347, R348: `bru` and `jmpv` on an operand of any form: with `em` empty the next group; with a G operand, as one through an index
register or q5 always is, SHAPE, kind F; with active lanes that disagree, on being zero or on the value, UNIFORM, kind F; otherwise `bru` is taken
when the common value is not zero and `jmpv` goes to the base plus 4 times the sign-extended common value, bits [1:0] as 0.
SHAPE and UNIFORM name operand A or B, with `em` as the lanes. -/
def Obligations.MasksAndBranches : Prop :=
  (∀ (s : State) (w : Weft) (p : Pfx) (d a : Opnd) (g : Plan),
     let x := s.sVal w a
     let e := w.em
     let write := fun (srcs : List Use) (o : Opnd) (u : Weft) (v : W64) =>
       let r := writeS (s.popUses w g.m (srcs ++ [dstS o])) (u.commit p false) o v
       r.1.setWeft r.2
     (s.Issues w p [srcS .a a, dstS d] .all g →
       exec (.mif p d a) s = .next (write [srcS .a a] d { w with em := e &&& x } e)
       ∧ exec (.mwhile p d a) s = .next (write [srcS .a a] d { w with em := e &&& x } (e &&& ~~~x)))
     ∧ (s.Issues w p [srcS .a a, dstS .zero] .all g →
       exec (.melse p a) s = .next (write [srcS .a a] .zero { w with em := x &&& ~~~e } 0)
       ∧ exec (.mend p a) s = .next (write [srcS .a a] .zero { w with em := x } 0)
       ∧ exec (.mset p a 0) s = .next (write [srcS .a a] .zero { w with em := x } 0)
       ∧ exec (.mset p a 1) s = .next (write [srcS .a a] .zero { w with tem := x } 0)
       ∧ exec (.mset p a 2) s = .next (write [srcS .a a] .zero { w with tdm := x } 0))
     ∧ (s.Issues w p [dstS d] .all g →
       exec (.mget p d 0) s = .next (write [] d w w.em) ∧ exec (.mget p d 1) s = .next (write [] d w w.tem)
       ∧ exec (.mget p d 2) s = .next (write [] d w w.tdm) ∧ exec (.mget p d 3) s = .next (write [] d w w.rgnem)
       ∧ exec (.elect p d) s = .next (write [] d { w with em := e &&& (0 - e) } e)))
  ∧ (∀ (s : State) (w : Weft) (p : Pfx) (d a : Opnd) (o : BitVec 19) (g : Plan),
       let x := s.sVal w a
       let target := w.pc + BitVec.ofInt 64 (4 * o.toInt)
       let next := w.nextPc p
       let reg := x &&& ~~~3
       let pops := s.popUses w g.m [srcS .a a]
       let goes := fun (t : State) (v : Weft) (pc : W64) => Host.Outcome.next (t.setWeft (v.commitTo p false pc))
       (s.Issues w p [] .all g →
         exec (.br p o) s = goes s w target ∧ exec (.brem p o) s = goes s w (if w.em = 0 then target else next))
       ∧ (s.Issues w p [srcS .a a] .all g →
         exec (.brz p a o) s = goes pops w (if x = 0 then target else next)
         ∧ exec (.brnz p a o) s = goes pops w (if x = 0 then next else target)
         ∧ exec (.jmp p a) s = goes pops w reg)
       ∧ (∀ k : Fin 32, a = .s k → s.Issues w p [srcS .a a, dstS a] .all g →
         exec (.loop p a o) s = goes s (w.setS k.val (x - 1)) (if x = 1 then next else target))
       ∧ (∀ k : Fin 32, s.Issues w p [dstS (.s k)] .all g →
         exec (.call p (.s k) o) s = goes s (w.setS k.val next) target)
       ∧ (s.Issues w p [srcS .a a, dstS d] .all g →
         let r := writeS (s.popUses w g.m [srcS .a a, dstS d]) w d next
         exec (.callr p d a) s = goes r.1 r.2 reg))
  ∧ (∀ (s : State) (w : Weft) (p : Pfx) (a b : Opnd) (o : BitVec 19) (g : Plan),
       let lanes := activeLanes w.em
       let target := w.pc + BitVec.ofInt 64 (4 * o.toInt)
       let goes := fun (t : State) (pc : W64) => Host.Outcome.next (t.setWeft (w.commitTo p false pc))
       (s.Issues w p [srcV .a b 1] .all g →
         let v := (s.vVal w w.em (srcV .a b 1) []).headD (.u 0)
         (w.em = 0 → exec (.bru p b o) s = goes s (w.nextPc p))
         ∧ (w.em ≠ 0 → v.tag = 2 → exec (.bru p b o) s = .next (s.trapF w .shape w.em { TInfo.none with opnd := 1 }))
         ∧ (∀ i j, i ∈ lanes → j ∈ lanes → v.tag ≠ 2 → v.lane i = 0 → v.lane j ≠ 0 →
             exec (.bru p b o) s = .next (s.trapF (w.issued p false) .uniform w.em { TInfo.none with opnd := 1 }))
         ∧ (w.em ≠ 0 → v.tag ≠ 2 → (∀ i ∈ lanes, v.lane i = 0) → exec (.bru p b o) s = goes s (w.nextPc p))
         ∧ (w.em ≠ 0 → v.tag ≠ 2 → (∀ i ∈ lanes, v.lane i ≠ 0) → exec (.bru p b o) s = goes s target))
       ∧ (s.Issues w p [srcS .a a, srcV .b b 1] .all g →
         let v := (s.vVal w w.em (srcV .b b 1) []).headD (.u 0)
         let pops := s.popUses w w.em [srcS .a a]
         (w.em = 0 → exec (.jmpv p a b) s = goes pops (w.nextPc p))
         ∧ (w.em ≠ 0 → v.tag = 2 → exec (.jmpv p a b) s = .next (s.trapF w .shape w.em { TInfo.none with opnd := 2 }))
         ∧ (∀ i j, i ∈ lanes → j ∈ lanes → v.tag ≠ 2 → v.lane i ≠ v.lane j →
             exec (.jmpv p a b) s = .next (s.trapF (w.issued p false) .uniform w.em { TInfo.none with opnd := 2 }))
         ∧ ∀ y : W32, w.em ≠ 0 → v.tag ≠ 2 → (∀ i ∈ lanes, v.lane i = y) →
             exec (.jmpv p a b) s = goes pops ((s.sVal w a + BitVec.ofInt 64 (4 * y.toInt)) &&& ~~~3)))

/-! ### Branches and jumps (R345-R348) -/

/-! ### System instructions (R328-R336, R254, R272, R283) -/

/-- R329, R283, R333, R206: `nop` only goes on; `yield` makes the weft not ready in the next cycle and clears its ages, and `sleep` makes it
not ready for s[A][19:0] cycles after that of its issue, which the weft's count takes in; `rgn` records the next group, counts and saves `em`; `win` sets the window base to 8 times its literal, or raises
REGRANGE, kind F, with the base unchanged, when the window would pass the weft's registers. All act whatever the mask.

R330, R336, R278, R293: `trap` and `brk` with an active lane trap after the instruction, kind A: SWTRAP with the low 32 bits
of the sign-extended immediate, BRK with the literal; NXT is set and `tpc` names the next group. `brk` under a debugger attached
to the context halts the weft after the instruction instead. -/
def Obligations.PlainInstructionsAndBreakpoints : Prop :=
  (∀ (s : State) (w : Weft) (p : Pfx) (a : Opnd) (b : BitVec 7) (g : Plan),
     let v := w.commit p false
     (s.Issues w p [] .all g →
       exec (.nop p) s = .next (s.setWeft v)
       ∧ exec (.yield p) s = .next (s.setWeft { v with yielded := true, age := 0, readyCnt := 0 })
       ∧ exec (.rgn p) s = .next (s.setWeft { v with rgnpc := w.nextPc p, rgncnt := w.rgncnt + 1, rgnem := w.em })
       ∧ (let n := 8 * b.toNat
          let bad := (64 ≤ w.vregs.length ∧ w.vregs.length < n + 64) ∨ (w.vregs.length < 64 ∧ n ≠ 0)
          (bad → exec (.win p b) s = .next (s.trapF w .regrange (w.effMask p) TInfo.none))
          ∧ (¬ bad → exec (.win p b) s = .next (s.setWeft { v with wb := n }))))
     ∧ (s.Issues w p [srcS .a a] .all g →
       let n := (s.sVal w a).toNat % 2 ^ 20
       exec (.sleep p a) s = .next ((s.popUses w g.m [srcS .a a]).setWeft { v with sleep := if n = 0 then 0 else n + 1 })))
  ∧ (∀ (s : State) (w : Weft) (p : Pfx) (n : BitVec 12) (k : BitVec 7) (g : Plan), s.Issues w p [] .active g → g.m ≠ 0 →
       let imm : W64 := match p.xl with | some l => (l ++ n).signExtend 64 | none => n.signExtend 64
       let kindA := fun (i : Instr) (c : Cause) (m : Nat) => w.tm = false → ∃ t u, exec i s = .next t
         ∧ t.weft? w.core w.slot = some u ∧ u.tm = true ∧ u.pc = (s.ctx w.ctx).desc.tvec ∧ u.tpc = w.nextPc p
         ∧ u.tcause = BitVec.ofNat 8 c.code ∧ u.tmask = g.m ∧ u.tinfo = BitVec.ofNat 64 (2 ^ 32 * m + 16)
         ∧ u.tem = w.em ∧ u.em = allLanes ∧ u.sregs = w.sregs ∧ u.vregs = w.vregs
         ∧ s.SameButWefts t ∧ s.OtherWefts t w.core w.slot
       kindA (.trap p n) .swtrap (imm.toNat % 2 ^ 32)
       ∧ (s.debug ≠ some w.ctx → kindA (.brk p k) .brk k.toNat)
       ∧ (s.debug = some w.ctx →
           exec (.brk p k) s = .next (s.setWeft { w.commit p false with halted := true, stopped := some .debug })))

/-- R254, R249, R260, R272, R331, R332, R131: when the ordering they wait for is met, `trig` counts the weft as triggered, `ifence`
drops every instruction line of the core and what has come of those being fetched, and `exit` ends the weft: it is exited and triggered and its
step hold is released. Otherwise each waits, nothing changed but what the weft is seen to wait on and, at a scope wider than core,
the sending of the core's combined stores. `ifence` waits for the weft's loads, from core scope on for its
replay queue, and wider than core for its fabric writes.

R420, R249, R84, R254 (log entry 102): a `fence` waits, from core scope on, while a store of the weft is in the replay queue, and wider than
core for the weft's fabric writes and the core's combining buffer; else the weft goes on, and while the fence is not done its next memory group
is held. It is done once the weft's earlier loads are performed and, but for kind acq, the earlier persist points are reached and, wider than
core, every earlier write of the core is performed; a full fence from core scope on waits for every earlier write of the weft too.

R331, R148: what `exit` leaves: the weft is exited, has triggered and holds no step; if its team has no barrier waiting and
it runs no task of the itinerary, nothing else changes but its team's count of exited wefts.

R422-R425, R178, R229: when their waits are over, `pbar.pkg` and `pbar.mend` open a persist point counted in c5 (with an
active lane) and the weft goes on; `pflush` opens one for its range after sending the weft's combined stores that lie in it;
`stepmark` writes the die's step and takes the hold (literal 1) or releases it, but waits to take it once the die has
acknowledged the step's end. -/
def Obligations.OrderingExitAndPersistence : Prop :=
  (∀ (s : State) (w : Weft) (p : Pfx) (k : BitVec 2) (c : BitVec 3) (g : Plan), s.Issues w p [] .all g →
     let v := w.commit p false
     let waits := fun (scope : Nat) (i : Instr) => (s.flushCore w.core scope).Waits w .order (exec i s)
     let slow := (1 ≤ c.toNat ∧ s.replays w = true) ∨ (2 ≤ c.toNat ∧ (s.fabricWrites w = true ∨ s.combines w.core = true))
     let this : PFence := { op := s.nextId, kind := k.toNat, scope := c.toNat }
     let goes := fun f : Option PFence => exec (.fence p k c) s = .next ({ s with nextId := s.nextId + 1 }.setWeft { v with fence := f })
     let done := fun (t : State) (u : Weft) (f : PFence) =>
       (∀ x ∈ t.accs, x.isOf u = true → x.op < f.op → x.kind.reads = false
         ∧ (f.scope ≠ 0 → x.kind.writes = true → x.parked = false ∧ ∀ l ∈ x.lanes, l.replaying = false)
         ∧ (f.kind ≠ 1 → f.kind ≠ 2 → f.scope ≠ 0 → x.kind.writes = false))
       ∧ (f.kind ≠ 1 → (∀ b ∈ u.pbars, b.kind < 2 → f.op ≤ b.op)
         ∧ (1 < f.scope → ∀ x ∈ t.accs, x.core = u.core → x.kind.writes = true → ∀ o, x.ord = some o → o < f.op →
             ∀ l ∈ x.lanes, l.closed = true ∨ l.replaying = true))
     (s.Released w 5 → exec (.trig p) s = .next (s.setWeft { v with triggered := true })
       ∧ exec (.exit p) s = .next (s.leave v))
     ∧ (¬ s.Released w 5 → waits 5 (.trig p) ∧ waits 5 (.exit p))
     ∧ (s.AcqFenced w p.scope →
         exec (.ifence p) s = .next ({ s with
           icache := s.icache.filter fun l => l.core ≠ w.core
           accs := s.accs.map fun (x : Access) => if x.kind = AccKind.fetch ∧ x.core = w.core then x.refetch else x }.setWeft v)
         ∧ ∀ (x : Access) (n : Nat), ∀ l ∈ x.refetch.lanes, l.st ≠ .done ∧ l.st ≠ .ready n ∧ l.st ≠ .sent n)
     ∧ (¬ s.AcqFenced w p.scope → waits p.scope (.ifence p))
     ∧ (slow → waits c.toNat (.fence p k c))
     ∧ (¬ slow → (done s w this → goes none) ∧ (¬ done s w this → goes (some this)))
     ∧ ∀ (t : State) (u : Weft) (f : PFence), u.fence = some f → (t.fenced u = true ↔ ¬ done t u f))
  ∧ (∀ (s : State) (w : Weft) (t : Team), s.weft? w.core w.slot = some w → s.team? w.team = some t → s.inTask w = false →
       ∃ u, (s.leave w).weft? w.core w.slot = some u ∧ u.exited = true ∧ u.triggered = true ∧ u.hold = false
         ∧ u.sregs = w.sregs ∧ u.vregs = w.vregs
         ∧ (s.leave w).team? w.team = some ({ t with exitedMask := t.exitedMask ||| BitVec.ofNat 32 (2 ^ w.wid) }.openBars)
         ∧ s.OtherWefts (s.leave w) w.core w.slot ∧ s.SameMemory (s.leave w))
  ∧ (∀ (s : State) (w : Weft) (p : Pfx) (a b d : Opnd) (k : BitVec 7) (g : Plan),
       let v := w.commit p false
       let active := w.effMask p ≠ 0
       (s.Issues w p [] .all g → s.replays w = false → w.count 5 < 1023 →
         exec (.pbarPkg p) s = .next (s.openPoint v (decide active) 0 0 0 w.snapStep)
         ∧ ((∃ r ∈ s.snap.regions, r.ctx = w.ctx) →
             exec (.pbarMend p) s = .next (s.openPoint v (decide active) 1 0 0 w.snapStep))
         ∧ ((∀ r ∈ s.snap.regions, r.ctx ≠ w.ctx) →
             exec (.pbarMend p) s = .next (s.openPoint v (decide active) 0 0 0 w.snapStep)))
       ∧ (s.Issues w p [srcS .a a, srcS .b b] .active g →
         (g.m = 0 → exec (.pflush p a b) s = .next (s.passes w p))
         ∧ (g.m ≠ 0 → w.count 5 < 1023 →
             let t := s.flushComb (flushes w (s.sVal w a).toNat (s.sVal w b).toNat)
             ∃ u, t.weft? w.core w.slot = some u ∧ exec (.pflush p a b) s
               = .next (t.openPoint (u.commit p false) true 2 (s.sVal w a).toNat (s.sVal w b).toNat 0)))
       ∧ (s.Issues w p [dstS d] .active g → g.m ≠ 0 →
         (k = 1 → dieOf w.core ∈ s.itin.acks → exec (.stepmark p d k) s = .next (s.waits w .step))
         ∧ (k ≠ 1 ∨ dieOf w.core ∉ s.itin.acks →
             let r := writeS s w d (s.dieStep.getD (w.core / 52) 0)
             exec (.stepmark p d k) s = .next (r.1.setWeft ({ r.2 with hold := k == 1 }.commit p false)))))

/-! ### Waits, barriers, persistence -/

/-- R428, R429, R430 (R230): `waitc` goes on once its counter is at most its target, `waitall` once every counter is 0, `waitq`
once its queue can serve s[B] operations, taken as at most its depth; else they wait. A counter target below the value of c1
sends the entries of the combining buffer that hold stores of the weft (R78). They act whatever the mask.

R461, R462 (R252, R249): a barrier instruction that may act: `bar.arrive` sets the weft's bit and the barrier opens if every
member that has not exited is in it; `bar.wait` goes on when no arrival of the weft is pending; `bar.team` and `bar.role`
arrive and go on when that opens the barrier, else stay with the arrival made, and go on once the bit is clear. A second
arrival waits. -/
def Obligations.WaitAndBarrierInstructions : Prop :=
  (∀ (s : State) (w : Weft) (p : Pfx) (a b : Opnd) (k : BitVec 7) (g : Plan),
     (s.Issues w p [srcS .a a] .all g →
       let pops := s.popUses w g.m [srcS .a a]
       (w.count k.toNat ≤ (s.sVal w a).toNat → exec (.waitc p a k) s = .next (pops.passes w p))
       ∧ ((s.sVal w a).toNat < w.count k.toNat → k ≠ 1 → exec (.waitc p a k) s = .next (pops.waits w .counter))
       ∧ ((s.sVal w a).toNat < w.count k.toNat → k = 1 →
           let mine := fun e : CombEntry => e.core == w.core && e.accs.any fun i => pops.accs.any fun x => x.id == i && x.isOf w
           (pops.flushComb mine).Waits w .counter (exec (.waitc p a k) s)))
     ∧ (s.Issues w p [] .all g →
       ((∀ l ∈ w.cnt, l = []) → exec (.waitall p) s = .next (s.passes w p))
       ∧ ((∃ l ∈ w.cnt, l ≠ []) → exec (.waitall p) s = .next (s.waits w .counter)))
     ∧ (s.Issues w p [srcS .b b] .all g → s.waitqBad w (opndNum a) = false →
       let pops := s.popUses w g.m [srcS .b b]
       (pops.queueServes w (opndNum a) = none → exec (.waitq p a b) s = .next (pops.passes w p))
       ∧ ∀ n depth, pops.queueServes w (opndNum a) = some (n, depth) →
           (min (s.sVal w b).toNat depth ≤ n → exec (.waitq p a b) s = .next (pops.passes w p))
           ∧ (n < min (s.sVal w b).toNat depth → exec (.waitq p a b) s = .next (pops.waits w .queue))))
  ∧ (∀ (s : State) (w : Weft) (t : Team) (p : Pfx) (b : BitVec 7) (g : Plan), s.Issues w p [] .all g →
       s.team? w.team = some t →
       let role := if w.execRole then 7 else 6
       let pending := fun n : Nat => (t.bars.getD n 0 &&& BitVec.ofNat 32 (2 ^ w.wid)) ≠ 0
       let arrived := fun n : Nat => s.setTeam { t with bars := modAt t.bars n fun m =>
         let m1 := m ||| BitVec.ofNat 32 (2 ^ w.wid)
         if m1 ≠ 0 ∧ (t.members n &&& ~~~(m1 ||| t.exitedMask)) = 0 then 0 else m1 }
       let both := fun (i : Instr) (n : Nat) =>
         (s.Released w 1 → w.arrived ≠ some n → ¬ pending n →
           (((arrived n).pendingAt w n = false) → exec i s = .next ((arrived n).passes w p))
           ∧ ((arrived n).pendingAt w n = true → exec i s = .next ((arrived n).waits { w with arrived := some n } .barrier)))
         ∧ (s.Released w 1 → w.arrived ≠ some n → pending n → exec i s = .next (s.waits w .barrier))
         ∧ (w.arrived = some n → ¬ pending n → exec i s = .next (s.setWeft { w.commit p false with arrived := none }))
         ∧ (w.arrived = some n → pending n → exec i s = .next (s.waits w .barrier))
       both (.barTeam p b) b.toNat ∧ both (.barRole p) role
       ∧ (s.Released w 1 → ¬ pending b.toNat → exec (.barArrive p b) s = .next ((arrived b.toNat).passes w p))
       ∧ (s.Released w 1 → pending b.toNat → exec (.barArrive p b) s = .next (s.waits w .barrier))
       ∧ (s.replays w = false → ¬ pending b.toNat → exec (.barWait p b) s = .next (s.passes w p))
       ∧ (s.replays w = false → pending b.toNat → exec (.barWait p b) s = .next (s.waits w .barrier)))

/-! ### Vector integer instructions (R352-R373) -/

/-- R356, R357, R358, R360 (R209): a VINT minor or immediate form whose group issues with an active lane, within bounds and with
ration, writes to D, under the mask, a value whose lane `l` is the table's entry on lane `l` of its sources; the third source of
`vmad` and `vbfi` is D. SAT clamps the exact signed result of `vadd`, `vsub`, `vmul`, `vabs`, `vmad`, `vaddi` and `vmuli`.

R359, R207, R209: `vaddw` and `vsubw` write both registers of the pair D: in lane `l` they hold the low and the high half of
the 64-bit sum or difference of the pairs, clamped to the signed 64-bit range under SAT. -/
def Obligations.VectorIntegerAndPairResults : Prop :=
  (∀ (s : State) (w : Weft) (p : Pfx) (d a b : Opnd) (n : BitVec 12) (g : Plan),
     let clamp := fun z : Int => BitVec.ofInt 32 (max (-(2 ^ 31)) (min (2 ^ 31 - 1) z))
     let clampN := fun z : Int => BitVec.ofInt 32 (max 0 (min (2 ^ 32 - 1) z))
     let srcs := fun k : Nat => [srcV .a a 1, srcV .b b 1, srcV .ds d 1].take k
     let src := fun (k j : Nat) (l : Nat) => (arg (s.vVals w g (srcs k ++ [dstV d 1])) j).lane l
     let gives := fun (i : Instr) (k : Nat) (f : Nat → W32) => ∃ y : VVal,
       exec i s = .next (s.vecNext w p g (srcs k) (dstV d 1) false (VRes.ofVals [y])) ∧ ∀ l, l < 64 → y.lane l = f l
     let pos := fun y : W32 => y.toNat % 32
     let wid := fun y : W32 => min (y.toNat / 2 ^ 8 % 2 ^ 6) (32 - pos y)
     (s.VecIssues w p (srcs 2 ++ [dstV d 1]) g →
       let two := fun (i : Instr) (f : W32 → W32 → W32) => gives i 2 fun l => f (src 2 0 l) (src 2 1 l)
       (p.sat = false → two (.vadd p d a b) (fun x y => x + y) ∧ two (.vsub p d a b) (fun x y => x - y)
           ∧ two (.vmul p d a b) (fun x y => x * y))
       ∧ (p.sat = true → two (.vadd p d a b) (fun x y => clamp (x.toInt + y.toInt))
           ∧ two (.vsub p d a b) (fun x y => clamp (x.toInt - y.toInt))
           ∧ two (.vmul p d a b) (fun x y => clamp (x.toInt * y.toInt)))
       ∧ two (.vmulhi p d a b) (fun x y => BitVec.ofInt 32 (x.toInt * y.toInt / 2 ^ 32))
       ∧ two (.vmulhn p d a b) (fun x y => BitVec.ofNat 32 (x.toNat * y.toNat / 2 ^ 32))
       ∧ two (.vand p d a b) (fun x y => x &&& y) ∧ two (.vor p d a b) (fun x y => x ||| y)
       ∧ two (.vxor p d a b) (fun x y => x ^^^ y) ∧ two (.vandn p d a b) (fun x y => x &&& ~~~y)
       ∧ two (.vshl p d a b) (fun x y => x <<< (y.toNat % 32)) ∧ two (.vshr p d a b) (fun x y => x >>> (y.toNat % 32))
       ∧ two (.vsra p d a b) (fun x y => x.sshiftRight (y.toNat % 32))
       ∧ two (.vmin p d a b) (fun x y => BitVec.ofInt 32 (min x.toInt y.toInt))
       ∧ two (.vmax p d a b) (fun x y => BitVec.ofInt 32 (max x.toInt y.toInt))
       ∧ two (.vminn p d a b) (fun x y => BitVec.ofNat 32 (min x.toNat y.toNat))
       ∧ two (.vmaxn p d a b) (fun x y => BitVec.ofNat 32 (max x.toNat y.toNat))
       ∧ two (.vabsd p d a b) (fun x y => BitVec.ofNat 32 (x.toInt - y.toInt).natAbs)
       ∧ two (.vsadd p d a b) (fun x y => clamp (x.toInt + y.toInt))
       ∧ two (.vssub p d a b) (fun x y => clamp (x.toInt - y.toInt))
       ∧ two (.vsaddn p d a b) (fun x y => clampN (x.toNat + y.toNat))
       ∧ two (.vssubn p d a b) (fun x y => clampN ((x.toNat : Int) - y.toNat))
       ∧ two (.vbfe p d a b) (fun x y => BitVec.ofNat 32 (x.toNat / 2 ^ pos y % 2 ^ wid y))
       ∧ two (.vbfes p d a b) (fun x y => if wid y = 0 then 0
           else BitVec.ofInt 32 (let f := x.toNat / 2 ^ pos y % 2 ^ wid y
             if f < 2 ^ (wid y - 1) then (f : Int) else (f : Int) - 2 ^ wid y)))
     ∧ (s.VecIssues w p (srcs 1 ++ [dstV d 1]) g →
       let imm : W32 := match p.xl with
         | some l => ((l ++ n).signExtend 64).setWidth 32
         | none => (n.signExtend 64).setWidth 32
       let one := fun (i : Instr) (f : W32 → W32) => gives i 1 fun l => f (src 1 0 l)
       (p.sat = false → one (.vabs p d a) (fun x => BitVec.ofNat 32 x.toInt.natAbs) ∧ one (.vaddi p d a n) (fun x => x + imm)
           ∧ one (.vmuli p d a n) (fun x => x * imm))
       ∧ (p.sat = true → one (.vabs p d a) (fun x => clamp x.toInt.natAbs)
           ∧ one (.vaddi p d a n) (fun x => clamp (x.toInt + imm.toInt))
           ∧ one (.vmuli p d a n) (fun x => clamp (x.toInt * imm.toInt)))
       ∧ one (.vclz p d a) (fun x => BitVec.ofNat 32 (if x = 0 then 32 else 31 - Nat.log2 x.toNat))
       ∧ one (.vpopc p d a) (fun x => BitVec.ofNat 32 ((List.range 32).filter fun k => x.getLsbD k).length)
       ∧ (∃ y : VVal, exec (.vbrev p d a) s = .next (s.vecNext w p g (srcs 1) (dstV d 1) false (VRes.ofVals [y]))
           ∧ ∀ l k, l < 64 → k < 32 → (y.lane l).getLsbD k = (src 1 0 l).getLsbD (31 - k))
       ∧ one (.vandi p d a n) (fun x => x &&& imm) ∧ one (.vshli p d a n) (fun x => x <<< (imm.toNat % 32))
       ∧ one (.vshri p d a n) (fun x => x >>> (imm.toNat % 32)) ∧ one (.vsrai p d a n) (fun x => x.sshiftRight (imm.toNat % 32)))
     ∧ (s.VecIssues w p (srcs 3 ++ [dstV d 1]) g →
       let three := fun (i : Instr) (f : W32 → W32 → W32 → W32) => gives i 3 fun l => f (src 3 0 l) (src 3 1 l) (src 3 2 l)
       (p.sat = false → three (.vmad p d a b) (fun x y z => x * y + z))
       ∧ (p.sat = true → three (.vmad p d a b) (fun x y z => clamp (x.toInt * y.toInt + z.toInt)))
       ∧ three (.vbfi p d a b) (fun x y z =>
           let m : W32 := BitVec.ofNat 32 ((2 ^ wid y - 1) * 2 ^ pos y)
           (z &&& ~~~m) ||| ((x <<< pos y) &&& m))))
  ∧ (∀ (s : State) (w : Weft) (p : Pfx) (d a b : Opnd) (g : Plan),
       let srcs := [srcV .a a 2, srcV .b b 2]
       s.VecIssues w p (srcs ++ [dstV d 2]) g →
       let v := s.vVals w g (srcs ++ [dstV d 2])
       let pair := fun j l : Nat => (argHi v j).lane l ++ (arg v j).lane l
       let clamp := fun z : Int => BitVec.ofInt 64 (max (-(2 ^ 63)) (min (2 ^ 63 - 1) z))
       let gives := fun (i : Instr) (f : W64 → W64 → W64) => ∃ lo hi : VVal,
         exec i s = .next (s.vecNext w p g srcs (dstV d 2) false (VRes.ofVals [lo, hi]))
         ∧ ∀ l, l < 64 → hi.lane l ++ lo.lane l = f (pair 0 l) (pair 1 l)
       (p.sat = false → gives (.vaddw p d a b) (fun x y => x + y) ∧ gives (.vsubw p d a b) (fun x y => x - y))
       ∧ (p.sat = true → gives (.vaddw p d a b) (fun x y => clamp (x.toInt + y.toInt))
           ∧ gives (.vsubw p d a b) (fun x y => clamp (x.toInt - y.toInt))))

/-- R209: the tags of vector integer results: U sources give U; sums, differences and products that stay affine give A with the
base and stride of the arithmetic, a left shift of A by U too, `vmov` and `vaffine` keep or make A; every other mix gives G. -/
def Obligations.ShapeTagAlgebra : Prop :=
  ∀ (b1 d1 b2 d2 c e : W32) (l : List W32) (f : W32 → W32 → W32),
    addT false (.a b1 d1) (.u c) = .a (b1 + c) d1 ∧ addT false (.u c) (.a b1 d1) = .a (c + b1) d1
    ∧ addT false (.a b1 d1) (.a b2 d2) = .a (b1 + b2) (d1 + d2)
    ∧ subT false (.a b1 d1) (.u c) = .a (b1 - c) d1 ∧ subT false (.u c) (.a b1 d1) = .a (c - b1) (0 - d1)
    ∧ subT false (.a b1 d1) (.a b2 d2) = .a (b1 - b2) (d1 - d2)
    ∧ mulT false (.a b1 d1) (.u c) = .a (b1 * c) (d1 * c) ∧ mulT false (.u c) (.a b1 d1) = .a (c * b1) (c * d1)
    ∧ (mulT false (.a b1 d1) (.a b2 d2)).tag = 2
    ∧ shlT (.a b1 d1) (.u c) = .a (b1 <<< (c.toNat % 32)) (d1 <<< (c.toNat % 32))
    ∧ addT false (.u c) (.u e) = .u (c + e) ∧ lift2 f (.u c) (.u e) = .u (f c e)
    ∧ (∀ x : VVal, (addT false (.g l) x).tag = 2 ∧ (addT false x (.g l)).tag = 2 ∧ (lift2 f (.g l) x).tag = 2
        ∧ (lift2 f (.a b1 d1) x).tag = 2)
    ∧ (addT true (.a b1 d1) (.u c)).tag = 2 ∧ addT true (.u c) (.u e) = .u (clamp32 (c.toInt + e.toInt))

/-- R361, R362, R363: a compare writes to s[D] a mask with bit `l` set exactly for the active lanes in which the condition holds.
For i32 and n32 the condition is integer comparison, un false and ord true, and no flag is raised. The float types read binary32,
or the low or high binary16 or BF16 half, subnormals by value: the conditions compare the values, -0 equal to +0; a NaN makes ne
and un true and every other condition false, and raises the invalid flag under lt, le, gt and ge, a signalling one under the rest. -/
def Obligations.VectorCompares : Prop :=
  (∀ (s : State) (w : Weft) (p : Pfx) (d a b : Opnd) (c : BitVec 3) (t : BitVec 2) (g : Plan),
    let srcs := [srcV .a a 1, srcV .b b 1]
    s.VecIssues w p (srcs ++ [dstS d]) g →
    let x := fun l => (arg (s.vVals w g (srcs ++ [dstS d])) 0).lane l
    let y := fun l => (arg (s.vVals w g (srcs ++ [dstS d])) 1).lane l
    let gives := fun (i : Instr) (f : W32 → W32 → Bool × Nat) => ∀ fl : BitVec 5,
      (∀ k, k < 5 → fl.getLsbD k = (activeLanes g.m).any fun l => (f (x l) (y l)).2.testBit k) → w.quiet fl →
      ∃ m : W64, (∀ l, l < 64 → m.getLsbD l = (inMask g.m l && (f (x l) (y l)).1))
        ∧ exec i s = .next (s.vecNext w p g srcs (dstS d) false { vals := [], sc := some m, fl := fl })
    gives (.vcmp p d a b c t) (cmpLane c.toNat t.toNat) ∧ gives (.vcmph p d a b c t) (cmphLane c.toNat t.toNat))
  ∧ (∀ x y : W32,
      let i := fun c => cmpLane c 0 x y
      let n := fun c => cmpLane c 1 x y
      i 0 = (decide (x = y), 0) ∧ i 1 = (decide (x ≠ y), 0) ∧ i 2 = (decide (x.toInt < y.toInt), 0)
      ∧ i 3 = (decide (x.toInt ≤ y.toInt), 0) ∧ i 4 = (decide (y.toInt < x.toInt), 0) ∧ i 5 = (decide (y.toInt ≤ x.toInt), 0)
      ∧ i 6 = (false, 0) ∧ i 7 = (true, 0)
      ∧ n 0 = (decide (x = y), 0) ∧ n 1 = (decide (x ≠ y), 0) ∧ n 2 = (decide (x.toNat < y.toNat), 0)
      ∧ n 3 = (decide (x.toNat ≤ y.toNat), 0) ∧ n 4 = (decide (y.toNat < x.toNat), 0) ∧ n 5 = (decide (y.toNat ≤ x.toNat), 0)
      ∧ n 6 = (false, 0) ∧ n 7 = (true, 0))
  ∧ (∀ (z : FV) (sig : Bool) (c : Nat), c < 8 →
      (fCond c (.nan sig) z).1 = decide (c = 1 ∨ c = 6) ∧ (fCond c z (.nan sig)).1 = decide (c = 1 ∨ c = 6))
  ∧ (∀ (z : FV) (c : Nat), 2 ≤ c → c ≤ 5 → ∀ sig, (fCond c (.nan sig) z).2 = 1 ∧ (fCond c z (.nan sig)).2 = 1)
  ∧ (∀ (z : FV) (c : Nat), c = 0 ∨ c = 1 ∨ c = 6 ∨ c = 7 →
      (fCond c (.nan true) z).2 = 1 ∧ (fCond c z (.nan true)).2 = 1
      ∧ (z ≠ .nan true → (fCond c (.nan false) z).2 = 0 ∧ (fCond c z (.nan false)).2 = 0))
  ∧ (∀ x y : FV, isNaN x = false → isNaN y = false →
      let r := fun c => (fCond c x y).1
      (∀ c, (fCond c x y).2 = 0) ∧ r 1 = !r 0 ∧ r 3 = (r 0 || r 2) ∧ r 5 = (r 0 || r 4) ∧ r 4 = (fCond 2 y x).1
      ∧ r 6 = false ∧ r 7 = true)
  ∧ (∀ (m n : Bool) (a b : Nat) (e f : Int),
      let k := min e f
      let v := fun (neg : Bool) (x : Nat) (q : Int) => (if neg then -1 else 1) * (x : Int) * 2 ^ (q - k).toNat
      (fCond 0 (.fin m a e) (.fin n b f)).1 = decide (v m a e = v n b f)
      ∧ (fCond 2 (.fin m a e) (.fin n b f)).1 = decide (v m a e < v n b f)
      ∧ (fCond 2 (.inf m) (.fin n b f)).1 = m ∧ (fCond 2 (.fin m a e) (.inf n)).1 = !n
      ∧ (fCond 0 (.inf m) (.fin n b f)).1 = false ∧ (fCond 0 (.inf m) (.inf n)).1 = (m == n)
      ∧ (fCond 2 (.inf m) (.inf n)).1 = (m && !n))
  ∧ ∀ (c : Nat) (x y : W32),
      let half := fun (z : W32) (k : Nat) => z.toNat / 2 ^ (16 * k) % 2 ^ 16
      cmpLane c 2 x y = fCond c (unpack fF32 x.toNat) (unpack fF32 y.toNat)
      ∧ cmphLane c 0 x y = fCond c (unpack fF16 (half x 0)) (unpack fF16 (half y 0))
      ∧ cmphLane c 1 x y = fCond c (unpack fF16 (half x 1)) (unpack fF16 (half y 1))
      ∧ cmphLane c 2 x y = fCond c (unpack fBF16 (half x 0)) (unpack fBF16 (half y 0))
      ∧ cmphLane c 3 x y = fCond c (unpack fBF16 (half x 1)) (unpack fBF16 (half y 1))

/-- R364-R368, R334: lane moves. `vmov`, `vbcast`, `vaffine`, `vperm`, the three shifts of lanes and `vshape` write lane by lane
what their rows say, lanes read whatever the mask; `getsr` of `lane` writes A(0, 1).

R364, R366, R367, R368, R334: the lane moves with a scalar result write to s[D] the lane, the mask or the tag codes that
their rows give; `vlset` writes one lane of D when that lane is active and nothing otherwise. -/
def Obligations.LaneMovesAndReads : Prop :=
  (∀ (s : State) (w : Weft) (p : Pfx) (d a b : Opnd) (g : Plan),
     let run := fun (i : Instr) (srcs : List Use) (r : VRes) => exec i s = .next (s.vecNext w p g srcs (dstV d 1) false r)
     let vals := fun srcs : List Use => s.vVals w g (srcs ++ [dstV d 1])
     (s.VecIssues w p ([srcV .a a 1] ++ [dstV d 1]) g →
       let x := arg (vals [srcV .a a 1]) 0
       run (.vmov p d a) [srcV .a a 1] (VRes.ofVals [x])
       ∧ (isVecDst d = true → ∃ y : VVal, run (.vshape p d a) [srcV .a a 1] (VRes.ofVals [y])
           ∧ (∀ l, l < 64 → y.lane l = x.lane l)
           ∧ ((∀ l, l < 64 → x.lane l = x.lane 0) → y = .u (x.lane 0))
           ∧ ((∃ l, l < 64 ∧ x.lane l ≠ x.lane 0) →
               (∀ l, l < 64 → x.lane l = x.lane 0 + BitVec.ofNat 32 l * (x.lane 1 - x.lane 0)) →
               y = .a (x.lane 0) (x.lane 1 - x.lane 0))))
     ∧ (s.VecIssues w p ([srcV .a a 1, srcS .b b] ++ [dstV d 1]) g →
       let x := arg (vals [srcV .a a 1, srcS .b b]) 0
       let k := (s.sVal w b).toNat % 64
       let moves := fun (i : Instr) (f : Nat → Nat) => ∃ y : VVal, run i [srcV .a a 1, srcS .b b] (VRes.ofVals [y])
         ∧ (∀ l, l < 64 → y.lane l = x.lane (f l)) ∧ ∀ c : W32, x = .u c → y = .u c
       run (.vbcast p d a b) [srcV .a a 1, srcS .b b] (VRes.ofVals [.u (x.lane k)])
       ∧ moves (.vshup p d a b) (fun l => if k ≤ l then l - k else l)
       ∧ moves (.vshdn p d a b) (fun l => if l + k ≤ 63 then l + k else l)
       ∧ moves (.vshxor p d a b) (fun l => l ^^^ k))
     ∧ (s.VecIssues w p ([srcS .a a, srcS .b b] ++ [dstV d 1]) g →
       run (.vaffine p d a b) [srcS .a a, srcS .b b]
         (VRes.ofVals [.a ((s.sVal w a).setWidth 32) ((s.sVal w b).setWidth 32)]))
     ∧ (s.VecIssues w p ([srcV .a a 1, srcV .b b 1] ++ [dstV d 1]) g →
       let v := vals [srcV .a a 1, srcV .b b 1]
       ∃ y : VVal, run (.vperm p d a b) [srcV .a a 1, srcV .b b 1] (VRes.ofVals [y])
         ∧ ∀ l, l < 64 → y.lane l = (arg v 0).lane (((arg v 1).lane l).toNat % 64)))
  ∧ (∀ (s : State) (w : Weft) (p : Pfx) (d a b : Opnd) (k : BitVec 7) (g : Plan),
       let run := fun (i : Instr) (srcs : List Use) (x : W64) =>
         exec i s = .next (s.vecNext w p g srcs (dstS d) false (VRes.ofSc x))
       (s.VecIssues w p ([srcV .a a 1, srcS .b b] ++ [dstS d]) g →
         run (.vlget p d a b) [srcV .a a 1, srcS .b b]
           (((arg (s.vVals w g ([srcV .a a 1, srcS .b b] ++ [dstS d])) 0).lane ((s.sVal w b).toNat % 64)).setWidth 64))
       ∧ (s.VecIssues w p ([srcV .a a 1] ++ [dstS d]) g →
         let x := arg (s.vVals w g ([srcV .a a 1] ++ [dstS d])) 0
         (isVecDst d = false → run (.vshape p d a) [srcV .a a 1] (BitVec.ofNat 64 (x.tag + 4 * x.narrowest.tag)))
         ∧ (∃ m : W64, run (.vballot p d a) [srcV .a a 1] m
             ∧ ∀ l, l < 64 → m.getLsbD l = (inMask g.m l && decide (x.lane l ≠ 0)))
         ∧ ∃ m : W64, run (.vbits p d a k) [srcV .a a 1] m
             ∧ ∀ l, l < 64 → m.getLsbD l = (inMask g.m l && (x.lane l).getLsbD k.toNat))
       ∧ (∀ n : Fin 64, d = .v n → s.Issues w p [srcS .a a, srcS .b b, srcV .d d 1] .active g → g.m ≠ 0 →
           0 ≤ (s.ration w.core).c →
         let l := (s.sVal w b).toNat % 64
         let t := (s.debit w.core (quarters g.m)).popUses w g.m [srcS .a a, srcS .b b]
         (inMask g.m l = true → exec (.vlset p d a b) s
           = .next (t.passes (w.setLane (w.wb + n.val) l ((s.sVal w a).setWidth 32)) p))
         ∧ (inMask g.m l = false → exec (.vlset p d a b) s = .next (t.passes w p)))
       ∧ (s.Issues w p [dstV d 1] .sources g → g.m ≠ 0 → g.bad = 0 → d.isX = false →
         exec (.getsr p d 0) s =
           .next (let o := writeV (s.popUses w g.m [dstV d 1]) w g.m (dstV d 1) (g.regs.getLastD []) [.a 0 1]
             o.1.passes { o.2 with fpflags := o.2.fpflags ||| 0, xregs := keepOffsets g.m w.xregs g.xs } p)))

/-- R370, R371: an integer reduction writes R to every active lane of a vector D, as a U value under the mask, or to s[D]
extended to 64 bits: R is the sum of the active lanes modulo 2^32, their signed minimum or maximum, or their AND, OR or XOR;
the extension is signed for add, min and max. -/
def Obligations.IntegerReductions : Prop :=
  ∀ (s : State) (w : Weft) (p : Pfx) (d a : Opnd) (g : Plan),
    let dst := if isVecDst d then dstV d 1 else dstS d
    s.VecIssues w p ([srcV .a a 1] ++ [dst]) g →
    let x := fun l => (arg (s.vVals w g ([srcV .a a 1] ++ [dst])) 0).lane l
    let lanes := activeLanes g.m
    let gives := fun (i : Instr) (signed : Bool) (r : W32) =>
      exec i s = .next (s.vecNext w p g [srcV .a a 1] dst false
        { vals := [.u r], sc := some (if signed then r.signExtend 64 else r.setWidth 64), fl := 0 })
    gives (.vredAddI32 p d a) true (lanes.foldl (fun acc l => acc + x l) 0)
    ∧ (∃ r, gives (.vredMinI32 p d a) true r ∧ (∃ l ∈ lanes, r = x l) ∧ ∀ l ∈ lanes, r.toInt ≤ (x l).toInt)
    ∧ (∃ r, gives (.vredMaxI32 p d a) true r ∧ (∃ l ∈ lanes, r = x l) ∧ ∀ l ∈ lanes, (x l).toInt ≤ r.toInt)
    ∧ (∃ r, gives (.vredAnd p d a) false r ∧ ∀ k, k < 32 → r.getLsbD k = lanes.all fun l => (x l).getLsbD k)
    ∧ (∃ r, gives (.vredOr p d a) false r ∧ ∀ k, k < 32 → r.getLsbD k = lanes.any fun l => (x l).getLsbD k)
    ∧ (∃ r, gives (.vredXor p d a) false r ∧ ∀ k, k < 32 →
        r.getLsbD k = lanes.foldl (fun acc l => acc ^^ (x l).getLsbD k) false)

/-- R370, R372, R373, R401, R402: the float reductions fold the active lanes by the fixed pairwise tree with float addition,
minimum or maximum at each node, their flags the OR of the nodes'; the integer scan gives each active lane the sum of the active
lanes up to it and the float scan the value that the tree's nodes give; the extrema name the lowest active lane of the best
rank, with its bits above the lane number in an s destination. A stochastic rounding mode acts as rne.

R373: the rank orders: NaN highest for the maximum and lowest for the minimum, then +inf, positive values, +0, -0, negative
values, -inf; every NaN ranks alike; subnormals rank by value. -/
def Obligations.FloatReductionsAndRanks : Prop :=
  (∀ (s : State) (w : Weft) (p : Pfx) (d a : Opnd) (g : Plan),
     let dst := if isVecDst d then dstV d 1 else dstS d
     let val := fun t : Use => arg (s.vVals w g ([srcV .a a 1] ++ [t])) 0
     (s.VecIssues w p ([srcV .a a 1] ++ [dst]) g →
       let x := fun l => (val dst).lane l
       let leaf := fun l : Nat => ({ bits := (x l).toNat, fl := 0 } : Rd)
       let mode := if rmOf w p = 4 then 0 else rmOf w p
       let env : REnv := { mode := mode, ftz := ftzOf w, sat := false, r := 0, conv := false }
       let node := fun (f : Nat → Nat → Rd) (y z : Rd) => { f y.bits z.bits with fl := (f y.bits z.bits).fl ||| y.fl ||| z.fl }
       let folds := fun (i : Instr) (rounds : Bool) (f : Nat → Nat → Rd) => ∀ r : Rd,
         treeRoot (node f) g.m leaf = some r → w.quiet (BitVec.ofNat 5 r.fl) →
         exec i s = .next (s.vecNext w p g [srcV .a a 1] dst rounds
           { vals := [.u (BitVec.ofNat 32 r.bits)], sc := some (BitVec.ofNat 64 r.bits), fl := BitVec.ofNat 5 r.fl })
       folds (.vredAddF32 p d a) true
           (fun y z => fAddV fF32 env (readF fF32 (ftzOf w) y) (readF fF32 (ftzOf w) z))
       ∧ folds (.vredMinF32 p d a) false (fun y z => fMinMax fF32 (ftzOf w) false y z)
       ∧ folds (.vredMaxF32 p d a) false (fun y z => fMinMax fF32 (ftzOf w) true y z)
       ∧ (let best := fun (i : Instr) (rank : Nat → Int) (up : Bool) => ∃ l, l ∈ activeLanes g.m
           ∧ (∀ k ∈ activeLanes g.m, if up then rank (x k).toNat ≤ rank (x l).toNat else rank (x l).toNat ≤ rank (x k).toNat)
           ∧ (∀ k ∈ activeLanes g.m, k < l → rank (x k).toNat ≠ rank (x l).toNat)
           ∧ exec i s = .next (s.vecNext w p g [srcV .a a 1] dst false
               { vals := [.u (BitVec.ofNat 32 l)], sc := some (BitVec.ofNat 64 ((x l).toNat * 2 ^ 32 + l)), fl := 0 })
         best (.vargmaxF32 p d a) rankMax true ∧ best (.vargminF32 p d a) rankMin false))
     ∧ (s.VecIssues w p ([srcV .a a 1] ++ [dstV d 1]) g →
       let x := fun l => (val (dstV d 1)).lane l
       (∃ y : VVal, y.tag = 2 ∧ exec (.vscanAddI32 p d a) s
             = .next (s.vecNext w p g [srcV .a a 1] (dstV d 1) false (VRes.ofVals [y]))
           ∧ ∀ l, l < 64 → y.lane l = ((activeLanes g.m).filter fun k => k ≤ l).foldl (fun acc k => acc + x k) 0)
       ∧ (let lv := treeLevels (addNode w p) 6 (leaves g.m (leafRdOf (val (dstV d 1))))
          let at_ := fun l : Nat => (scanLane (addNode w p) lv (l + 1) 6 0 none).getD Rd.zero
          ∀ fl : BitVec 5, (∀ k, k < 5 → fl.getLsbD k = (activeLanes g.m).any fun l => (at_ l).fl.testBit k) → w.quiet fl →
          ∃ y : VVal, y.tag = 2 ∧ exec (.vscanAddF32 p d a) s
               = .next (s.vecNext w p g [srcV .a a 1] (dstV d 1) true { vals := [y], sc := none, fl := fl })
             ∧ ∀ l ∈ activeLanes g.m, y.lane l = BitVec.ofNat 32 (at_ l).bits)))
  ∧ ((∀ x y : Nat, x < 2 ^ 31 → y < 2 ^ 31 → x < y → y ≤ 0x7F800000 →
       rankMax x < rankMax y ∧ rankMin x < rankMin y
       ∧ rankMax (2 ^ 31 + y) < rankMax (2 ^ 31 + x) ∧ rankMin (2 ^ 31 + y) < rankMin (2 ^ 31 + x))
     ∧ (∀ x : Nat, x ≤ 0x7F800000 → rankMax (2 ^ 31 + x) < rankMax 0 ∧ rankMin (2 ^ 31 + x) < rankMin 0)
     ∧ ∀ n x : Nat, n < 2 ^ 32 → x < 2 ^ 32 → 0x7F800000 < n % 2 ^ 31 → x % 2 ^ 31 ≤ 0x7F800000 →
         rankMax x < rankMax n ∧ rankMin n < rankMin x ∧ rankMax n = rankMax 0x7FC00000 ∧ rankMin n = rankMin 0x7FC00000)

/-! ### Index registers (R215-R221, R374-R376) -/

/-- R215, R216, R375: `xset` loads the fields of a descriptor and keeps the offsets, or raises REGRANGE, kind F, on a descriptor
with a reserved bit, a bound of 0 or a range past the weft's registers; `xoff`, `xadd` and `xclr` change the offsets of the
active lanes alone, modulo 256; `xgetc` writes the offsets, zero-extended, as a G value under the mask.

R217, R218: one lane's access through an index register: the register is BASE plus the offset, moved by STEP, signed and
modulo 256, after the access in mode 1, before it downward in mode 2, and in mode 3 after a write and before a read; BOUND is
passed by the lanes whose last register lies at or beyond it; the lanes that are not active do not move. -/
def Obligations.IndexRegistersAndIndexedAccess : Prop :=
  (∀ (s : State) (w : Weft) (p : Pfx) (d a : Opnd) (n : Fin 8) (g : Plan),
     let x := w.xreg n.val
     let sets := fun (t : State) (i : Instr) (y : XReg) =>
       exec i s = .next (t.setWeft ({ w with xregs := modAt w.xregs n.val fun _ => y }.commit p false))
     let lane := fun l : Nat => x.off.getD l 0
     let moved := fun f : Nat → BitVec 8 => { x with off := laneIdx.map fun l => if inMask g.m l then f l else lane l }
     n.val < w.xregs.length →
     (s.Issues w p [srcS .a a] .active g → g.m ≠ 0 →
       let v := (s.sVal w a).toNat
       let bad := v / 2 ^ 24 ≠ 0 ∨ v / 2 ^ 9 % 2 ^ 9 = 0 ∨ w.vregs.length < v % 2 ^ 9 + v / 2 ^ 9 % 2 ^ 9
       (bad → exec (.xset p (.x n) a) s = .next (s.trapF w .regrange g.m TInfo.none))
       ∧ (¬ bad → sets (s.popUses w g.m [srcS .a a]) (.xset p (.x n) a)
           { x with base := v % 2 ^ 9, bound := v / 2 ^ 9 % 2 ^ 9, step := BitVec.ofNat 4 (v / 2 ^ 18),
                    mode := BitVec.ofNat 2 (v / 2 ^ 22) }))
     ∧ (s.Issues w p [(srcV .a a 1).xreg] .active g → g.m ≠ 0 →
       let y := (s.vVal w g.m (srcV .a a 1) []).headD (.u 0)
       let t := s.popUses w g.m [srcV .a a 1]
       sets t (.xoff p (.x n) a) (moved fun l => (y.lane l).setWidth 8)
       ∧ sets t (.xadd p (.x n) a) (moved fun l => lane l + (y.lane l).setWidth 8))
     ∧ (s.Issues w p [] .active g →
       sets s (.xclr p (.x n)) (moved fun _ => 0))
     ∧ (s.Issues w p [(dstV d 1).xreg] .sources g → g.m ≠ 0 → g.bad = 0 → d.isX = false →
       exec (.xgetc p d (.x n)) s =
         .next (let o := writeV (s.popUses w g.m [dstV d 1]) w g.m (dstV d 1) (g.regs.getLastD [])
                 [.g (laneIdx.map fun l => (lane l).setWidth 32)]
           o.1.passes { o.2 with fpflags := o.2.fpflags ||| 0, xregs := keepOffsets g.m w.xregs g.xs } p)))
  ∧ (∀ (x : XReg) (wr : Bool) (m : W64) (regs l : Nat), l < 64 →
       let o := x.off.getD l 0
       let st : BitVec 8 := x.step.signExtend 8
       let acc := if x.mode = 2 ∨ (x.mode = 3 ∧ wr = false) then o - st else o
       let after := if x.mode = 0 then o else if x.mode = 2 ∨ (x.mode = 3 ∧ wr = false) then o - st else o + st
       (xRegs x wr)[l]? = some (x.base + acc.toNat)
       ∧ (xNext x wr m)[l]? = some (if inMask m l then after else o)
       ∧ (xBad x wr regs m).getLsbD l = (inMask m l && decide (x.bound < acc.toNat + regs)))

/-! ### Floating point (R377-R400) -/

/-- R391, R392, R380, R383, R388 (R209, R385, R387): every VF32 minor computes its row on each active lane: operands read as
binary32, subnormals as zeros under FTZ, one rounding in the mode of XG RND or `fpmode.RM`, the lane's own draw under rs;
`ffloor`, `fceil` and `ftrunc` round by fixed modes without NX; `fabs`, `fneg`, `fcpys` and `fclass` act on the bits.

R381, R384: rounding a magnitude x = m × 2^e to a multiple of u = 2^ue above e gives the truncated quotient t or t + 1: rz t;
rne the nearer, on a tie the even one; ru and rd the one above or below by sign when inexact; rs t + 1 just when the top bits of
the dropped part plus the draw carry. It is inexact just when something is dropped.

R378, R387, R392: special operands of the arithmetic functions, in every mode: a NaN operand gives the canonical NaN, with NV
just when it is signalling; the invalid cases give it with NV; division by zero gives the infinity with DZ; the square root keeps
-0 and +inf; reciprocals turn zeros into infinities with DZ. -/
def Obligations.Binary32AndRounding : Prop :=
  (∀ (s : State) (w : Weft) (p : Pfx) (d a b : Opnd) (g : Plan),
     let one := [srcV .a a 1]
     let two := [srcV .a a 1, srcV .b b 1]
     let three := [srcV .a a 1, srcV .b b 1, srcV .ds d 1]
     let env := fun l : Nat =>
       ({ mode := rmOf w p, ftz := ftzOf w, sat := false, r := elemDraw w l 0, conv := false } : REnv)
     let rd := fun (x : List Nat) (n : Nat) => readF fF32 (ftzOf w) (x.getD n 0)
     let round1 := fun (i : Instr) (f : REnv → FV → Rd) =>
       s.FloatGives w p g d one true i fun l x => f (env l) (rd x 0)
     let round2 := fun (i : Instr) (f : REnv → FV → FV → Rd) =>
       s.FloatGives w p g d two true i fun l x => f (env l) (rd x 0) (rd x 1)
     let fused := fun (i : Instr) (n1 n2 : FV → FV) =>
       s.FloatGives w p g d three true i fun l x => fFmaV fF32 (env l) (n1 (rd x 0)) (rd x 1) (n2 (rd x 2))
     let pick := fun (i : Instr) (f : Nat → Nat → Rd) =>
       s.FloatGives w p g d two false i fun _ x => f (x.getD 0 0) (x.getD 1 0)
     let whole := fun (i : Instr) (m : Nat) =>
       s.FloatGives w p g d one false i fun l x => fIntV fF32 { env l with mode := m } (rd x 0) false
     let bits := fun (i : Instr) (srcs : List Use) (f : W32 → W32 → W32) =>
       s.VecIssues w p (srcs ++ [dstV d 1]) g → ∃ y : VVal,
         exec i s = .next (s.vecNext w p g srcs (dstV d 1) false (VRes.ofVals [y]))
         ∧ ∀ l, l < 64 → y.lane l = f ((arg (s.vVals w g (srcs ++ [dstV d 1])) 0).lane l)
             ((arg (s.vVals w g (srcs ++ [dstV d 1])) 1).lane l)
     round2 (.fadd p d a b) (fAddV fF32) ∧ round2 (.fsub p d a b) (fun e x y => fAddV fF32 e x (negate y))
     ∧ round2 (.fmul p d a b) (fMulV fF32) ∧ round2 (.fdiv p d a b) (fDivV fF32)
     ∧ fused (.ffma p d a b) id id ∧ fused (.ffms p d a b) id negate ∧ fused (.fnma p d a b) negate id
     ∧ fused (.fnms p d a b) negate negate
     ∧ pick (.fmin p d a b) (fMinMax fF32 (ftzOf w) false) ∧ pick (.fmax p d a b) (fMinMax fF32 (ftzOf w) true)
     ∧ pick (.fminn p d a b) (fMinMaxNum fF32 (ftzOf w) false) ∧ pick (.fmaxn p d a b) (fMinMaxNum fF32 (ftzOf w) true)
     ∧ round1 (.fsqrt p d a) (fSqrtV fF32) ∧ round1 (.frcp p d a) (fRcpV fF32) ∧ round1 (.frsq p d a) (fRsqV fF32)
     ∧ round1 (.fexp2 p d a) (fExp2V fF32) ∧ round1 (.flog2 p d a) (fLog2V fF32) ∧ round1 (.fsin p d a) (fSinV fF32)
     ∧ round1 (.fcos p d a) (fCosV fF32) ∧ round1 (.frint p d a) (fun e x => fIntV fF32 e x true)
     ∧ whole (.ffloor p d a) 3 ∧ whole (.fceil p d a) 2 ∧ whole (.ftrunc p d a) 1
     ∧ s.FloatGives w p g d two true (.fscale p d a b)
         (fun l x => fScaleV fF32 (env l) (rd x 0) (signedOf 32 (x.getD 1 0)))
     ∧ bits (.fabs p d a) one (fun x _ => x &&& 0x7FFFFFFF) ∧ bits (.fneg p d a) one (fun x _ => x ^^^ 0x80000000)
     ∧ bits (.fcpys p d a b) two (fun x y => (x &&& 0x7FFFFFFF) ||| (y &&& 0x80000000))
     ∧ bits (.fclass p d a) one (fun x _ => BitVec.ofNat 32 (fClass fF32 x.toNat)))
  ∧ (∀ (env : REnv) (neg : Bool) (m : Nat) (e ue : Int), e < ue →
       let sh := (ue - e).toNat
       let t := m / 2 ^ sh
       let rest := m % 2 ^ sh
       let r := roundAt env neg { m := m, e := e, sticky := false } ue
       (r.2 = true ↔ rest ≠ 0)
       ∧ (env.mode = 0 → 2 * rest < 2 ^ sh → r.1 = t) ∧ (env.mode = 0 → 2 ^ sh < 2 * rest → r.1 = t + 1)
       ∧ (env.mode = 0 → 2 * rest = 2 ^ sh → r.1 = t + t % 2)
       ∧ (env.mode = 1 → r.1 = t)
       ∧ (env.mode = 2 → r.1 = if neg = false ∧ rest ≠ 0 then t + 1 else t)
       ∧ (env.mode = 3 → r.1 = if neg = true ∧ rest ≠ 0 then t + 1 else t)
       ∧ (env.mode = 4 → env.conv = false → r.1 = if 2 ^ 32 ≤ rest * 2 ^ 32 / 2 ^ sh + env.r % 2 ^ 32 then t + 1 else t)
       ∧ (env.mode = 4 → env.conv = true → sh ≤ 32 → r.1 = if 2 ^ sh ≤ rest + env.r % 2 ^ sh then t + 1 else t))
  ∧ (∀ (env : REnv) (n1 n2 : Bool) (m : Nat) (e : Int) (sig : Bool) (x : FV),
       let nan : Nat := 0x7FC00000
       let inf := fun n : Bool => if n then 0xFF800000 else 0x7F800000
       let zero := fun n : Bool => if n then 0x80000000 else 0
       let is := fun (r : Rd) (b f : Nat) => r = { bits := b, fl := f }
       (x ≠ .nan true → is (fAddV fF32 env (.nan sig) x) nan (if sig then 1 else 0)
         ∧ is (fAddV fF32 env x (.nan sig)) nan (if sig then 1 else 0)
         ∧ is (fMulV fF32 env (.nan sig) x) nan (if sig then 1 else 0)
         ∧ is (fDivV fF32 env x (.nan sig)) nan (if sig then 1 else 0))
       ∧ is (fSqrtV fF32 env (.nan sig)) nan (if sig then 1 else 0)
       ∧ is (fAddV fF32 env (.inf n1) (.inf (!n1))) nan 1 ∧ is (fAddV fF32 env (.inf n1) (.inf n1)) (inf n1) 0
       ∧ is (fMulV fF32 env (.inf n1) (.fin n2 0 e)) nan 1 ∧ is (fMulV fF32 env (.inf n1) (.inf n2)) (inf (n1 != n2)) 0
       ∧ is (fDivV fF32 env (.inf n1) (.inf n2)) nan 1 ∧ is (fDivV fF32 env (.fin n1 0 e) (.fin n2 0 e)) nan 1
       ∧ is (fDivV fF32 env (.fin n1 (m + 1) e) (.fin n2 0 e)) (inf (n1 != n2)) 2
       ∧ is (fSqrtV fF32 env (.fin true (m + 1) e)) nan 1 ∧ is (fSqrtV fF32 env (.inf true)) nan 1
       ∧ is (fSqrtV fF32 env (.fin n1 0 e)) (zero n1) 0 ∧ is (fSqrtV fF32 env (.inf false)) (inf false) 0
       ∧ is (fRcpV fF32 env (.fin n1 0 e)) (inf n1) 2 ∧ is (fRcpV fF32 env (.inf n1)) (zero n1) 0
       ∧ is (fRsqV fF32 env (.fin n1 0 e)) (inf n1) 2 ∧ is (fRsqV fF32 env (.fin true (m + 1) e)) nan 1
       ∧ is (fLog2V fF32 env (.fin n1 0 e)) (inf true) 2 ∧ is (fLog2V fF32 env (.fin true (m + 1) e)) nan 1
       ∧ is (fExp2V fF32 env (.inf true)) 0 0 ∧ is (fExp2V fF32 env (.inf false)) (inf false) 0
       ∧ is (fSinV fF32 env (.inf n1)) nan 1 ∧ is (fCosV fF32 env (.inf n1)) nan 1)

/-- R394, R395: the packed minors compute each 16-bit element as the VF32 minor would, in the element format, with element `k`'s
own draw, and join them; `hdot2` rounds a0 b0 + a1 b1 + d once to binary32; the sign minors act on both sign bits.

R396-R400: every conversion computes its row on each active lane: integers to binary32 and back with their range, the
selected element widened exactly, two values narrowed with their own draws and packed or shifted in below D's old bits, the
quantised quotient, and the exponent forms. SAT acts on the narrowing minors alone. -/
def Obligations.PackedHalfAndConversionResults : Prop :=
  (∀ (s : State) (w : Weft) (p : Pfx) (d a b : Opnd) (t : BitVec 1) (g : Plan),
     let fmt : Fmt := if t = 0 then fF16 else fBF16
     let two := [srcV .a a 1, srcV .b b 1]
     let three := [srcV .a a 1, srcV .b b 1, srcV .ds d 1]
     let env := fun l k : Nat =>
       ({ mode := rmOf w p, ftz := ftzOf w, sat := false, r := elemDraw w l k, conv := false } : REnv)
     let el := fun (x : List Nat) (n k : Nat) => x.getD n 0 / 2 ^ (16 * k) % 2 ^ 16
     let rd := fun (x : List Nat) (n k : Nat) => readF fmt (ftzOf w) (el x n k)
     let join := fun f : Nat → Rd => ({ bits := (f 0).bits + 2 ^ 16 * (f 1).bits, fl := (f 0).fl ||| (f 1).fl } : Rd)
     let round2 := fun (i : Instr) (f : REnv → FV → FV → Rd) =>
       s.FloatGives w p g d two true i fun l x => join fun k => f (env l k) (rd x 0 k) (rd x 1 k)
     let pick := fun (i : Instr) (f : Nat → Nat → Rd) =>
       s.FloatGives w p g d two false i fun _ x => join fun k => f (el x 0 k) (el x 1 k)
     let bits := fun (i : Instr) (srcs : List Use) (f : W32 → W32 → W32) =>
       s.VecIssues w p (srcs ++ [dstV d 1]) g → ∃ y : VVal,
         exec i s = .next (s.vecNext w p g srcs (dstV d 1) false (VRes.ofVals [y]))
         ∧ ∀ l, l < 64 → y.lane l = f ((arg (s.vVals w g (srcs ++ [dstV d 1])) 0).lane l)
             ((arg (s.vVals w g (srcs ++ [dstV d 1])) 1).lane l)
     round2 (.hadd p d a b t) (fAddV fmt) ∧ round2 (.hsub p d a b t) (fun e x y => fAddV fmt e x (negate y))
     ∧ round2 (.hmul p d a b t) (fMulV fmt)
     ∧ s.FloatGives w p g d three true (.hfma p d a b t)
         (fun l x => join fun k => fFmaV fmt (env l k) (rd x 0 k) (rd x 1 k) (rd x 2 k))
     ∧ pick (.hmin p d a b t) (fMinMax fmt (ftzOf w) false) ∧ pick (.hmax p d a b t) (fMinMax fmt (ftzOf w) true)
     ∧ pick (.hminn p d a b t) (fMinMaxNum fmt (ftzOf w) false) ∧ pick (.hmaxn p d a b t) (fMinMaxNum fmt (ftzOf w) true)
     ∧ s.FloatGives w p g d three true (.hdot2 p d a b t)
         (fun l x => fDot2V fF32 (env l 0) (rd x 0 0) (rd x 1 0) (rd x 0 1) (rd x 1 1)
           (readF fF32 (ftzOf w) (x.getD 2 0)))
     ∧ bits (.habs p d a t) [srcV .a a 1] (fun x _ => x &&& 0x7FFF7FFF)
     ∧ bits (.hneg p d a t) [srcV .a a 1] (fun x _ => x ^^^ 0x80008000)
     ∧ bits (.hcpys p d a b t) two (fun x y => (x &&& 0x7FFF7FFF) ||| (y &&& 0x80008000)))
  ∧ (∀ (s : State) (w : Weft) (p : Pfx) (d a b : Opnd) (g : Plan),
       let one := [srcV .a a 1]
       let two := [srcV .a a 1, srcV .b b 1]
       let three := [srcV .a a 1, srcV .b b 1, srcV .ds d 1]
       let env := fun (l k : Nat) (sat conv : Bool) =>
         ({ mode := rmOf w p, ftz := ftzOf w, sat := sat, r := elemDraw w l k, conv := conv } : REnv)
       let exact : REnv := { mode := 0, ftz := false, sat := false, r := 0, conv := true }
       let fromInt := fun (i : Instr) (z : Nat → Int) =>
         s.FloatGives w p g d one true i fun l x => cvtInt fF32 (env l 0 false true) (z (x.getD 0 0))
       let toInt := fun (i : Instr) (lo hi : Int) => s.FloatGives w p g d one true i fun l x =>
         let r := toIntV (env l 0 false true) lo hi (unpack fF32 (x.getD 0 0))
         { bits := wrapInt 32 r.1, fl := r.2 }
       let select := fun (i : Instr) (bits sel : Nat) (f : Nat → Rd) => s.FloatGives w p g d two false i fun _ x =>
         f (x.getD 0 0 / 2 ^ (bits * (x.getD 1 0 % 2 ^ sel)) % 2 ^ bits)
       let narrowed := fun (f : Fmt) (l : Nat) (x : List Nat) (k : Nat) =>
         cvtV f (env l k p.sat true) (unpack fF32 (x.getD k 0))
       let packs := fun (i : Instr) (f : Fmt) => s.FloatGives w p g d two true i fun l x =>
         { bits := (narrowed f l x 0).bits + 2 ^ 16 * (narrowed f l x 1).bits
           fl := (narrowed f l x 0).fl ||| (narrowed f l x 1).fl }
       let shifts := fun (i : Instr) (f : Fmt) (bits : Nat) => s.FloatGives w p g d three true i fun l x =>
         { bits := (x.getD 2 0 * 2 ^ (2 * bits) + (narrowed f l x 1).bits * 2 ^ bits + (narrowed f l x 0).bits) % 2 ^ 32
           fl := (narrowed f l x 0).fl ||| (narrowed f l x 1).fl }
       fromInt (.cvtF32I32 p d a) (signedOf 32) ∧ fromInt (.cvtF32N32 p d a) (fun x => (x : Int))
       ∧ toInt (.cvtI32F32 p d a) (-(2 ^ 31)) (2 ^ 31 - 1) ∧ toInt (.cvtN32F32 p d a) 0 (2 ^ 32 - 1)
       ∧ select (.cvtF32F16 p d a b) 16 1 (fun x => cvtV fF32 exact (unpack fF16 x))
       ∧ select (.cvtF32Bf16 p d a b) 16 1 (fun x => cvtV fF32 exact (unpack fBF16 x))
       ∧ select (.cvtF32E4m3 p d a b) 8 2 (fun x => cvtV fF32 exact (unpack fE4M3 x))
       ∧ select (.cvtF32E5m2 p d a b) 8 2 (fun x => cvtV fF32 exact (unpack fE5M2 x))
       ∧ select (.cvtF32E2m1 p d a b) 4 3 (fun x => cvtV fF32 exact (unpack fE2M1 x))
       ∧ select (.cvtF32I8 p d a b) 8 2 (fun x => cvtInt fF32 exact (signedOf 8 x))
       ∧ select (.cvtF32N8 p d a b) 8 2 (fun x => cvtInt fF32 exact x)
       ∧ select (.cvtF32E8m0 p d a b) 8 2 (fun x => if x = 0xFF then { bits := 0x7FC00000, fl := 0 }
           else roundFin fF32 exact false { m := 1, e := (x : Int) - 127, sticky := false })
       ∧ packs (.cvtF16x2F32 p d a b) fF16 ∧ packs (.cvtBf16x2F32 p d a b) fBF16
       ∧ shifts (.cvtE4m3F32 p d a b) fE4M3 8 ∧ shifts (.cvtE5m2F32 p d a b) fE5M2 8 ∧ shifts (.cvtE2m1F32 p d a b) fE2M1 4
       ∧ s.FloatGives w p g d three true (.cvtI8F32 p d a b)
           (fun l x =>
             let q := toQ8 (env l 0 false false) (unpack fF32 (x.getD 0 0)) (unpack fF32 (x.getD 1 0))
             { bits := (x.getD 2 0 * 2 ^ 8 + wrapInt 8 q.1) % 2 ^ 32, fl := q.2 })
       ∧ (s.VecIssues w p (one ++ [dstV d 1]) g → ∃ y : VVal,
           exec (.cvtE8m0F32 p d a) s = .next (s.vecNext w p g one (dstV d 1) false (VRes.ofVals [y]))
           ∧ ∀ l, l < 64 → y.lane l = BitVec.ofNat 32 (toE8m0 ((arg (s.vVals w g (one ++ [dstV d 1])) 0).lane l).toNat)))

/-! ### Memory (R10, R171, R172, R242) -/

/-- R10, R171, R172: bytes written at consecutive places are read back there, HBM, SCM (through its hamper), scratchpad and host
memory alike; every other byte reads as before; and the list of cells keeps its canonical form. -/
def Obligations.WrittenBytesAreRead : Prop :=
  ∀ (s : State) (k : Nat) (bs : List Byte), s.Inv →
    (∀ i, i < bs.length → (s.writeBytes k bs).byte (k + i) = bs.getD i 0)
    ∧ (∀ a, a < k ∨ k + bs.length ≤ a → (s.writeBytes k bs).byte a = s.byte a)
    ∧ (s.writeBytes k bs).Inv

/-- R409, R411, R413, R415, R418, R179, R247, R272: what performing one lane of an access at the place of its bytes does: a load, a
fetch and a `swait` read them little-endian, the newest store of the core that is not yet performed included, and write nothing; a
store and `sig.set` write the lane's data; `sig.add` adds it modulo 2^64; an atomic answers the old value and writes the new one.
Outside the snapshot pages (places below 2^66, log entry 1) the bytes named are written and no other. In a snapshot page the unit
first has a frame for the access's step; then every frame of the unit with a tag at or above the step is written and nothing else;
where the pool has no frame left, or the step is mended, nothing is written.

R412, R414, R415: the new value of every atomic minor: sums modulo the width, binary32 and paired BF16 sums rounded to
nearest even, the smaller and the larger signed and unsigned, the bitwise operations, the exchange, and the compare and swap,
which writes the swap value just when the old value equals the compare value. -/
def Obligations.PerformedLanesAndAtomics : Prop :=
  (∀ (s : State) (a : Access) (l : LaneAcc) (k : Nat), s.Inv →
     let old := ofLeBytes (s.bytes k a.size)
     let o := s.performLane a l k
     let plain := k < 2 ^ 66 ∧ k + a.size ≤ 2 ^ 66
     let stores := fun v : Nat => o.1.Inv ∧ s.SameBut o.1 (cellsFrom k (leBytes a.size v))
       ∧ ofLeBytes (o.1.bytes k a.size) = v % 2 ^ (8 * a.size)
     let answers := fun v : Nat => o.2 = { l with data := v, st := .done }
     (a.kind = .load ∨ (∃ c v, a.kind = .swait c v) ∨ a.kind = .fetch →
       o.1 = s ∧ answers (ofLeBytes (s.coreBytes a.core k a.size))
       ∧ (plain → (∀ b ∈ s.accs, b.core ≠ a.core) → s.coreBytes a.core k a.size = s.bytes k a.size))
     ∧ (plain → a.kind = .store ∨ a.kind = .sigSet → stores l.data ∧ o.2 = { l with st := .done })
     ∧ (plain → a.kind = .sigAdd → a.size = 8 → stores ((old + l.data) % 2 ^ 64) ∧ o.2 = { l with st := .done })
     ∧ (plain → ∀ m ret, a.kind = .atomic m ret → stores (atomNew m.toNat old l.data l.swap) ∧ answers old)
     ∧ (2 ^ 66 ≤ k → a.kind = .store →
       (s.openUnit (k - 2 ^ 66) a.step = none → o.1 = s ∧ o.2 = { l with st := if a.step ≤ s.snap.m then .bad .prot 0 else .replay 2 0 })
       ∧ ∀ t u, s.snap.st ≠ 1 → k % 4096 + a.size ≤ 4096 → 0 < a.size → s.openUnit (k - 2 ^ 66) a.step = some t → t.Inv →
           t.unitAt (k - 2 ^ 66) = some u →
           let cells := (u.frames.filter fun f => a.step ≤ f.tag).flatMap fun f => cellsFrom (f.key + k % 4096) (leBytes a.size l.data)
           o.2 = { l with st := .done } ∧ o.1.Inv ∧ t.SameBut o.1 cells))
  ∧ (∀ old b swap : Nat, old < 2 ^ 64 → b < 2 ^ 64 →
       let n := fun m : Nat => atomNew m old b swap
       let s32 := fun x : Nat => (BitVec.ofNat 32 x).toInt
       n 0 = (old + b) % 2 ^ 32 ∧ n 1 = (old + b) % 2 ^ 64
       ∧ (old < 2 ^ 32 → b < 2 ^ 32 →
           (s32 old ≤ s32 b → n 3 = old ∧ n 4 = b) ∧ (s32 b < s32 old → n 3 = b ∧ n 4 = old))
       ∧ (old ≤ b → n 5 = old ∧ n 6 = b ∧ n 7 = old ∧ n 8 = b) ∧ (b < old → n 5 = b ∧ n 6 = old ∧ n 7 = b ∧ n 8 = old)
       ∧ (∀ k, (n 9).testBit k = (old.testBit k && b.testBit k) ∧ (n 10).testBit k = (old.testBit k || b.testBit k)
           ∧ (n 11).testBit k = (old.testBit k != b.testBit k))
       ∧ n 12 = b ∧ n 13 = b ∧ (old = b → n 14 = swap ∧ n 15 = swap) ∧ (old ≠ b → n 14 = old ∧ n 15 = old)
       ∧ n 2 = (fAddV fF32 atomEnv (unpack fF32 old) (unpack fF32 b)).bits
       ∧ n 16 = (fMinMax fF32 false false old b).bits ∧ n 17 = (fMinMax fF32 false true old b).bits
       ∧ n 18 = bf16Half old b 0 + 2 ^ 16 * bf16Half old b 1
       ∧ atomEnv.mode = 0 ∧ atomEnv.ftz = false)

/-- R406-R413, R415, R417-R419, R229: with an active lane, order met, a counter below 1,023 and room under the request cap, LD, ST,
ATOM, `sig.add`, `sig.set` and SWAIT start one access: an element of 2^size bytes (or the minor's) for every active lane, or for
the lowest one of a scalar form, at the base pair plus the index times its scale plus the displacement; counted on c0 when
it returns a value, on c1 when it does not, and on none for the signals. With no active lane nothing is accessed.

R407, R408, R43, R264, R219: the address of a lane and what is known of it at issue: the 64-bit base (lane `l` of its pair)
plus the sign-extended 32-bit index times its scale plus the displacement, modulo 2^64; BOUND for a lane past a bound, else
ALIGN for an address that is no multiple of the size or that touches a 16-byte granule outside the granule mask. -/
def Obligations.MemoryInstructionsAndLaneChecks : Prop :=
  (∀ (s : State) (w : Weft) (p : Pfx) (d a b : Opnd) (k x : BitVec 1) (sz : BitVec 3) (g : Plan),
     let n := 2 ^ sz.toNat
     let kk := if k = 1 then n else 1
     let lanes := fun (vs : List (List VVal)) (idx : VVal) (scale size : Nat) (scalar : Bool) (data swap : Nat → Nat) =>
       (accLanes g.m scalar).map fun l => mkLane g.bad (xlGm p) size (laneEa (vs.getD 0 []) idx scale (xlDisp p) l) (data l) (swap l) l
     let base := baseAccess s w p g
     let starts := fun (i : Instr) (acc : Access) (range : Option (Nat × Nat)) =>
       s.MayStart w p acc → exec i s = .next (s.startAccess w acc range)
     (let uses := [baseUse a false, srcV .b b 1, if isS d then dstS d else dstV d (regsOf n)]
       let vs := s.vVals w g uses
       s.Issues w p uses .active g →
       (g.m ≠ 0 → starts (.ld p d a b k x sz)
         { base .load n (lanes vs ((vs.getD 1 []).headD (.u 0)) kk n (isS d) (fun _ => 0) (fun _ => 0)) with
           signExt := x == 1, scalar := isS d, dst := destOf w g d (regsOf n), cnt := some 0, acq := p.ord == 1 } (busyOf d w))
       ∧ (g.m = 0 → p.ord = 0 → exec (.ld p d a b k x sz) s = .next (s.passes w p)))
     ∧ (let uses := [baseUse a false, srcV .b b 1, srcV .ds d (regsOf n)]
       let vs := s.vVals w g uses
       s.Issues w p uses .active g →
       (g.m ≠ 0 → starts (.st p d a b k sz)
         { base .store n (lanes vs ((vs.getD 1 []).headD (.u 0)) kk n (scalarStore d a b) (laneData (vs.getD 2 []) n) (fun _ => 0)) with
           scalar := scalarStore d a b, cnt := some 1 } none)
       ∧ (g.m = 0 → p.ord = 0 → exec (.st p d a b k sz) s = .next (s.passes w p)))
     ∧ (∀ (minor : BitVec 5) (i : Instr), (minor, i) ∈
         [(0, Instr.atomAddI32 p d a b), (1, .atomAddI64 p d a b), (2, .atomAddF32 p d a b), (3, .atomMinI32 p d a b),
          (4, .atomMaxI32 p d a b), (5, .atomMinN32 p d a b), (6, .atomMaxN32 p d a b), (7, .atomMinN64 p d a b),
          (8, .atomMaxN64 p d a b), (9, .atomAndB32 p d a b), (10, .atomOrB32 p d a b), (11, .atomXorB32 p d a b),
          (12, .atomXchgB32 p d a b), (13, .atomXchgB64 p d a b), (16, .atomFminF32 p d a b), (17, .atomFmaxF32 p d a b),
          (18, .atomAddBf16x2 p d a b)] →
       let size := if minor ∈ [(1 : BitVec 5), 7, 8, 13] then 8 else 4
       let uses := [baseUse a false, srcV .b b (regsOf size), dstV d (regsOf size)]
       let vs := s.vVals w g uses
       s.Issues w p uses .active g →
       (g.m ≠ 0 → starts i
         { base (.atomic minor (d != .zero)) size (lanes vs (.u 0) 0 size false (laneData (vs.getD 1 []) size) (fun _ => 0)) with
           dst := destOf w g d (regsOf size), cnt := some (if d = .zero then 1 else 0)
           acq := p.ord == 3 || p.ord == 1 } (busyOf d w))
       ∧ (g.m = 0 → p.ord = 0 → exec i s = .next (s.passes w p)))
     ∧ (∀ (minor : BitVec 5) (i : Instr), (minor, i) ∈ [((14 : BitVec 5), Instr.atomCasB32 p d a), (15, .atomCasB64 p d a)] →
       let size := if minor = 14 then 4 else 8
       let r := regsOf size
       let uses := [baseUse a false, srcV .ds d (2 * r), dstV d r]
       let vs := s.vVals w g uses
       s.Issues w p uses .active g →
       (g.m ≠ 0 → starts i
         { base (.atomic minor true) size (lanes vs (.u 0) 0 size false (laneData ((vs.getD 1 []).take r) size)
             (laneData ((vs.getD 1 []).drop r) size)) with
           dst := destOf w g d r, cnt := some 0, acq := p.ord == 3 || p.ord == 1 } none)
       ∧ (g.m = 0 → p.ord = 0 → exec i s = .next (s.passes w p)))
     ∧ (s.Issues w p [srcS .a a, srcS .b b] .active g → s.Released w p.scope →
       let acc := fun kind : AccKind =>
         { base kind 8 (sigLane (s.sVal w a) (s.sVal w b).toNat g.m) with scalar := true, gm := 0 }
       (g.m ≠ 0 → s.capOpen w.core (acc .sigAdd).lanes = true →
         exec (.sigAdd p a b) s = .next (s.startAccess w (acc .sigAdd) none)
         ∧ exec (.sigSet p a b) s = .next (s.startAccess w (acc .sigSet) none))
       ∧ (g.m = 0 → exec (.sigAdd p a b) s = .next (s.passes w p) ∧ exec (.sigSet p a b) s = .next (s.passes w p)))
     ∧ (s.Issues w p [srcS .a a, srcS .b b, dstS d] .active g →
       let acc := fun c : Nat =>
         { base (.swait c (s.sVal w b)) 8 (sigLane (s.sVal w a) 0 g.m) with
           scalar := true, gm := 0, acq := true, dst := destOf w g d 1 }
       (g.m ≠ 0 → s.capOpen w.core (acc 0).lanes = true →
         exec (.swaitGe p d a b) s = .next (s.startAccess w (acc 0) none)
         ∧ exec (.swaitEq p d a b) s = .next (s.startAccess w (acc 1) none)
         ∧ exec (.swaitNe p d a b) s = .next (s.startAccess w (acc 2) none))
       ∧ (g.m = 0 → s.AcqFenced w p.scope → exec (.swaitGe p d a b) s = .next (s.passes w p)
         ∧ exec (.swaitEq p d a b) s = .next (s.passes w p) ∧ exec (.swaitNe p d a b) s = .next (s.passes w p))))
  ∧ ((∀ (lo hi idx : VVal) (scale : Nat) (disp : W64) (l : Nat),
       laneEa [lo, hi] idx scale disp l
         = BitVec.ofInt 64 ((lo.lane l).toNat + 2 ^ 32 * (hi.lane l).toNat + (idx.lane l).toInt * scale + disp.toInt))
     ∧ ∀ (bad : W64) (gm : BitVec 8) (z l : Nat) (ea : W64) (data swap : Nat), z ≤ 4 →
         let size := 2 ^ z
         let st := (mkLane bad gm size ea data swap l).st
         let barred := gm ≠ 0 ∧ gm.getLsbD (ea.toNat % 128 / 16) = false
         (bad.getLsbD l = true → st = .bad .bound 0)
         ∧ (bad.getLsbD l = false → ea.toNat % size ≠ 0 → st = .bad .align 0)
         ∧ (bad.getLsbD l = false → ea.toNat % size = 0 → barred → st = .bad .align 0)
         ∧ (bad.getLsbD l = false → ea.toNat % size = 0 → ¬ barred → st = .waiting))

/-- R52, R226, R229, R281: an access whose lanes all wait for local channels, started by a weft with no persist barrier
outstanding and, if it writes, no older parked store: it is in flight under a new number, its counter is one higher, its
destination register is empty, the group is not committed, and no byte of memory has changed.

R228, R409, R229: an access that returns a value and whose lanes are all performed, the last of its operation, is finished: it is
gone, its counter falls when nothing older is on it, a scalar destination holds the datum zero- or sign-extended and a vector destination its
words lane by lane, full again. -/
def Obligations.AccessesStartAndFinish : Prop :=
  (∀ (s : State) (w : Weft) (a : Access) (range : Option (Nat × Nat)),
     s.weft? w.core w.slot = some w → a.core = w.core → a.slot = w.slot → a.settled = false → a.parked = false →
     a.lanes ≠ [] → (∀ l ∈ a.lanes, l.st = .waiting ∧ isFabric l.ea = false) → w.pbars = [] →
     (∀ b ∈ s.accs, b.id ≠ s.nextId ∧ b.parked = false ∧ ∀ l ∈ b.lanes, l.replaying = false) →
     ∃ t u, s.startAccess w a range = t ∧ t.weft? w.core w.slot = some u
       ∧ t.accs = s.accs ++ [{ a with id := s.nextId, op := s.nextId, heldBy := none }] ∧ t.nextId = s.nextId + 1
       ∧ (∀ c, c < w.cnt.length → u.count c = w.count c + if a.cnt = some c then 1 else 0)
       ∧ (∀ n, n < w.sregs.length → (u.sreg n).full = (w.sreg n).full ∧ a.dst ≠ .sreg n ∨ (u.sreg n).full = false ∧ a.dst = .sreg n)
       ∧ (∀ ns, a.dst = .vregs ns → ∀ n ∈ ns, n < w.vregs.length → (u.vreg n).full = false)
       ∧ (∀ n, (u.sreg n).val = (w.sreg n).val ∧ (u.vreg n).val = (w.vreg n).val)
       ∧ u.unsettled = some s.nextId ∧ u.pc = w.pc ∧ u.em = w.em ∧ u.xregs = w.xregs
       ∧ (∀ r, range = some r → (s.nextId, r.1, r.2) ∈ u.busy)
       ∧ s.SameMemory t ∧ s.OtherWefts t w.core w.slot)
  ∧ (∀ (s : State) (w : Weft) (a : Access) (e : CntEntry),
       s.acc? a.id = some a → s.weft? a.core a.slot = some w → a.kind = .load → a.settled = true → a.acq = false →
       a.lanes ≠ [] → (∀ l ∈ a.lanes, l.st = .done) → a.cnt = some 0 → w.cnt.head? = some [e] → e.op = a.op →
       (∀ b ∈ s.accs, b.op = a.op → b.core = a.core → b.slot = a.slot → b.id = a.id) →
       ∃ t u, s.finish a.id = t ∧ t.weft? a.core a.slot = some u ∧ t.acc? a.id = none ∧ u.count 0 = 0
         ∧ (∀ n, a.dst = .sreg n → n < w.sregs.length →
             ∀ l, a.lanes.head? = some l →
             let v : W64 := if a.signExt then BitVec.ofInt 64 (signedOf (8 * a.size) l.data) else BitVec.ofNat 64 l.data
             u.sreg n = { val := v, full := true, pois := false })
         ∧ (∀ n, a.dst = .vregs [n] → n < w.vregs.length → a.size = 4 → (∀ l ∈ a.lanes, l.lane < 64) →
             (a.lanes.map LaneAcc.lane).Nodup →
             (u.vreg n).full = true ∧ ∀ l ∈ a.lanes, (u.vreg n).val.lane l.lane = BitVec.ofNat 32 l.data)
         ∧ u.pc = w.pc ∧ s.SameMemory t)

/-! ### Scratchpads (R238, R239) -/

/-- R406-R413, R239, R242: LDS, STS and ATOMS on lanes that all have a place in the team's blocks (a byte of memory: below 2^66, log
entry 1), no word of them poisoned and no lane past a bound, are performed at issue in ascending lane order: the group commits, a vector load writes each lane's bytes, a store
writes exactly the lanes' elements at the places that `Team.spadKey` gives for their addresses, and every other byte is as before.

R238, R239: the place of a scratchpad address: bits [31:30] choose the core's, the cluster's or the die's scratchpad, and the
offset must lie with all its bytes inside the team's own block there; anything else, code 3 included, is no address (SPADDR). -/
def Obligations.ScratchpadAccesses : Prop :=
  (∀ (s : State) (w : Weft) (tm : Team) (p : Pfx) (d a b : Opnd) (k x : BitVec 1) (sz : BitVec 3) (g : Plan),
     s.team? w.team = some tm → s.weft? w.core w.slot = some w → s.Inv → s.Acquired w → p.ord = 0 → g.m ≠ 0 → g.bad = 0 →
     let n := 2 ^ sz.toNat
     let kk := if k = 1 then n else 1
     let place := fun (vs : List (List VVal)) (idx : VVal) (scale size l : Nat) =>
       tm.spadKey (laneEa (vs.getD 0 []) idx scale (xlDisp p) l).toNat size
     let clean := fun (vs : List (List VVal)) (idx : VVal) (scale size : Nat) (scalar : Bool) (q : Nat → Nat) =>
       ∀ l ∈ accLanes g.m scalar, place vs idx scale size l = some (q l) ∧ q l + size ≤ 2 ^ 66 ∧ s.poisoned (q l) size = false
         ∧ (laneEa (vs.getD 0 []) idx scale (xlDisp p) l).toNat % size = 0
         ∧ gmBad (xlGm p) (laneEa (vs.getD 0 []) idx scale (xlDisp p) l) size = false
     let goes := fun (i : Instr) (stored : List Nat) (extra : State → Weft → Prop) =>
       ∃ t u, exec i s = .next t ∧ t.weft? w.core w.slot = some u ∧ u.pc = w.nextPc p ∧ u.em = w.em
         ∧ (a.isX = false → b.isX = false → d.isX = false → u.xregs = w.xregs) ∧ u.cnt = w.cnt ∧ u.fpflags = w.fpflags ∧ u.tm = w.tm
         ∧ (∀ key, key ∉ stored → t.byte key = s.byte key) ∧ t.Inv ∧ s.OtherWefts t w.core w.slot ∧ extra t u
     let keys := fun (q : Nat → Nat) (size : Nat) (ls : List Nat) =>
       (ls.map fun l => (List.range size).map fun j => q l + j).flatten
     (let uses := [baseUse a true, srcV .b b 1, if isS d then dstS d else dstV d (regsOf n)]
       let vs := s.vVals w g uses
       let idx := (vs.getD 1 []).headD (.u 0)
       s.Issues w p uses .active g →
       ∀ q, clean vs idx kk n (isS d) q → goes (.lds p d a b k x sz) [] fun _ u =>
         (∀ r : Fin 32, d = .s r → w.sregs.length = 32 → u.sregs[r.val]? = (w.sregs[r.val]?).map fun o =>
             let raw := ofLeBytes (s.coreBytes w.core (q ((activeLanes g.m).headD 0)) n)
             let v : W64 := if x = 1 then BitVec.ofInt 64 (signedOf (8 * n) raw) else BitVec.ofNat 64 raw
             { o with val := v, full := true, pois := false })
         ∧ (∀ r : Fin 64, d = .v r → n = 4 → w.wb + r.val < w.vregs.length →
             ∀ l ∈ activeLanes g.m, (u.vreg (w.wb + r.val)).val.lane l
               = BitVec.ofNat 32 (ofLeBytes (s.coreBytes w.core (q l) 4))))
     ∧ (let uses := [baseUse a true, srcV .b b 1, srcV .ds d (regsOf n)]
       let vs := s.vVals w g uses
       let idx := (vs.getD 1 []).headD (.u 0)
       s.Issues w p uses .active g →
       let ls := accLanes g.m (scalarStore d a b)
       ∀ q, clean vs idx kk n (scalarStore d a b) q → goes (.sts p d a b k sz) (keys q n ls) fun t u =>
         u.sregs = w.sregs ∧ u.vregs = w.vregs
         ∧ ((∀ l ∈ ls, ∀ m ∈ ls, l ≠ m → q l + n ≤ q m ∨ q m + n ≤ q l) →
             ∀ l ∈ ls, ofLeBytes (t.bytes (q l) n) = laneData (vs.getD 2 []) n l))
     ∧ (∀ (minor : BitVec 5) (i : Instr), (minor, i) ∈
         [(0, Instr.atomsAddI32 p d a b), (1, .atomsAddI64 p d a b), (2, .atomsAddF32 p d a b), (3, .atomsMinI32 p d a b),
          (4, .atomsMaxI32 p d a b), (5, .atomsMinN32 p d a b), (6, .atomsMaxN32 p d a b), (7, .atomsMinN64 p d a b),
          (8, .atomsMaxN64 p d a b), (9, .atomsAndB32 p d a b), (10, .atomsOrB32 p d a b), (11, .atomsXorB32 p d a b),
          (12, .atomsXchgB32 p d a b), (13, .atomsXchgB64 p d a b), (16, .atomsFminF32 p d a b), (17, .atomsFmaxF32 p d a b),
          (18, .atomsAddBf16x2 p d a b)] →
       let size := if minor ∈ [(1 : BitVec 5), 7, 8, 13] then 8 else 4
       let uses := [baseUse a true, srcV .b b (regsOf size), dstV d (regsOf size)]
       s.Issues w p uses .active g →
       let vs := s.vVals w g uses
       ∀ q, clean vs (.u 0) 0 size false q → goes i (keys q size (activeLanes g.m)) fun t u =>
         u.sregs = w.sregs ∧ (d = .zero → u.vregs = w.vregs)
         ∧ ((∀ l ∈ activeLanes g.m, ∀ m ∈ activeLanes g.m, l ≠ m → q l + size ≤ q m ∨ q m + size ≤ q l) →
             ∀ l ∈ activeLanes g.m, ofLeBytes (t.bytes (q l) size)
               = atomNew minor.toNat (ofLeBytes (s.bytes (q l) size)) (laneData (vs.getD 1 []) size l) 0 % 2 ^ (8 * size)))
     ∧ (∀ (minor : BitVec 5) (i : Instr), (minor, i) ∈ [((14 : BitVec 5), Instr.atomsCasB32 p d a), (15, .atomsCasB64 p d a)] →
       let size := if minor = 14 then 4 else 8
       let r := regsOf size
       let uses := [baseUse a true, srcV .ds d (2 * r), dstV d r]
       s.Issues w p uses .active g →
       let vs := s.vVals w g uses
       ∀ q, clean vs (.u 0) 0 size false q → goes i (keys q size (activeLanes g.m)) fun t u =>
         u.sregs = w.sregs
         ∧ ((∀ l ∈ activeLanes g.m, ∀ m ∈ activeLanes g.m, l ≠ m → q l + size ≤ q m ∨ q m + size ≤ q l) →
             ∀ l ∈ activeLanes g.m,
               let was := ofLeBytes (s.bytes (q l) size)
               ofLeBytes (t.bytes (q l) size)
                 = if was = laneData ((vs.getD 1 []).take r) size l then laneData ((vs.getD 1 []).drop r) size l else was)))
  ∧ (∀ (t : Team) (ea n : Nat),
       let off := ea % 2 ^ 30
       (ea < 2 ^ 30 → t.spadKey ea n = if off + n ≤ t.csize then some (coreKey t.core (t.cbase + off)) else none)
       ∧ (2 ^ 30 ≤ ea → ea < 2 ^ 31 → t.spadKey ea n = if off + n ≤ t.lsize then some (clusKey (t.core / 4) (t.lbase + off)) else none)
       ∧ (2 ^ 31 ≤ ea → ea < 3 * 2 ^ 30 → t.spadKey ea n = if off + n ≤ t.dsize then some (dieKey (t.core / 52) (t.dbase + off)) else none)
       ∧ (3 * 2 ^ 30 ≤ ea → t.spadKey ea n = none))

/-! ### Knots (R437-R441) -/

/-- R437, R438, R439, R440 (R258, R434): with an active lane, an aligned address inside the team's blocks and no poison: `kinit` makes a
valid knot in phase 0 with PEND and EXP the count, unless the count is out of range (KNOT 5) or sectors are due (4); `karrive`
lowers PEND after its release, unless the knot is invalid (2) or nothing is pending (3); `kexpect` sets EXP; `kwait` answers
the phase once it differs from B, and waits until then; `ktest` answers the state; `kinval` makes the knot invalid. A phase closes
when PEND and SECT are 0: it counts modulo 16 and PEND becomes EXP. A bad address is KNOT 1, kind F. With no lane nothing happens. -/
def Obligations.KnotInstructions : Prop :=
  (∀ k : Knot, (k.pend = 0 → k.sect = 0 → k.advance = { k with phase := (k.phase + 1) % 16, pend := k.exp })
    ∧ (k.pend ≠ 0 ∨ k.sect ≠ 0 → k.advance = k))
  ∧ ∀ (s : State) (w : Weft) (p : Pfx) (d a b : Opnd) (g : Plan) (key : Nat),
    let ea := (s.sVal w a).toNat
    let k := s.knot key
    let n := s.sVal w b
    let ab := [srcS .a a, srcS .b b]
    let pops := s.popUses w g.m ab
    let trap := fun (i : Instr) (x : Nat) => exec i s = .next (s.knotTrap (w.issued p false) g.m x)
    let writes := fun (i : Instr) (t : State) (v : W64) =>
      let r := writeS t w d v
      exec i s = .next (r.1.passes r.2 p)
    let fits := n ≠ 0 ∧ n.toNat < 2 ^ 20
    (s.Issues w p ab .active g →
      (g.m = 0 → exec (.kinit p a b) s = .next (s.passes w p) ∧ exec (.kexpect p a b) s = .next (s.passes w p))
      ∧ (g.m ≠ 0 → s.knotKey w.team ea = none → trap (.kinit p a b) 1 ∧ trap (.kexpect p a b) 1)
      ∧ (g.m ≠ 0 → s.knotKey w.team ea = some key → s.poisoned key 16 = false →
        (¬ fits → trap (.kinit p a b) 5 ∧ trap (.kexpect p a b) 5)
        ∧ (fits → k.valid = true → k.sect ≠ 0 → trap (.kinit p a b) 4)
        ∧ (fits → k.valid = false ∨ k.sect = 0 → exec (.kinit p a b) s = .next ((pops.setKnot key
            { phase := 0, pend := n.toNat, exp := n.toNat, sect := 0, valid := true, err := false, ecode := 0, rsv := 0 }).passes w p))
        ∧ (fits → k.valid = false → trap (.kexpect p a b) 2)
        ∧ (fits → k.valid = true → exec (.kexpect p a b) s = .next ((pops.setKnot key { k with exp := n.toNat }).passes w p))))
    ∧ (s.Issues w p [srcS .a a] .active g →
      (g.m = 0 → (s.Released w (knotScope ea) → exec (.karrive p a) s = .next (s.passes w p))
        ∧ exec (.kinval p a) s = .next (s.passes w p))
      ∧ (g.m ≠ 0 → s.knotKey w.team ea = none → trap (.karrive p a) 1 ∧ trap (.kinval p a) 1)
      ∧ (g.m ≠ 0 → s.knotKey w.team ea = some key → s.poisoned key 16 = false →
        (k.valid = false → trap (.kinval p a) 2) ∧ (k.valid = true → k.sect ≠ 0 → trap (.kinval p a) 4)
        ∧ (k.valid = true → k.sect = 0 →
            exec (.kinval p a) s = .next (((s.passes w p).setKnot key { k with valid := false }).failWaiters key))
        ∧ (s.Released w (knotScope ea) → s.knotUnstarted w key = false →
          (k.valid = false → trap (.karrive p a) 2) ∧ (k.valid = true → k.pend = 0 → trap (.karrive p a) 3)
          ∧ (k.valid = true → k.pend ≠ 0 →
              exec (.karrive p a) s = .next ((s.setKnot key { k with pend := k.pend - 1 }.advance).passes w p)))))
    ∧ (s.Issues w p (ab ++ [dstS d]) .active g →
      (g.m = 0 → s.AcqFenced w (knotScope ea) → exec (.kwait p d a b) s = .next (s.passes w p))
      ∧ (g.m ≠ 0 → s.knotKey w.team ea = none → trap (.kwait p d a b) 1)
      ∧ (g.m ≠ 0 → s.knotKey w.team ea = some key → s.poisoned key 16 = false →
        (k.valid = false → trap (.kwait p d a b) 2)
        ∧ (k.valid = true → k.phase = n.toNat % 16 → exec (.kwait p d a b) s = .next (s.waits w (.knot key g.m)))
        ∧ (k.valid = true → k.phase ≠ n.toNat % 16 →
            writes (.kwait p d a b) (s.popUses w g.m (ab ++ [dstS d])) (BitVec.ofNat 64 k.phase))))
    ∧ (s.Issues w p [srcS .a a, dstS d] .active g →
      (g.m = 0 → exec (.ktest p d a) s = .next (s.passes w p))
      ∧ (g.m ≠ 0 → s.knotKey w.team ea = none → trap (.ktest p d a) 1)
      ∧ (g.m ≠ 0 → s.knotKey w.team ea = some key → s.poisoned key 16 = false → a.isQ = false →
          writes (.ktest p d a) s (BitVec.ofNat 64 (k.phase + 2 ^ 4 * k.pend + 2 ^ 24 * (if k.valid then 1 else 0)
            + 2 ^ 25 * (if k.err then 1 else 0) + 2 ^ 32 * k.sect))))

/-! ### Engines: issue (R434-R436, R442-R447, R450-R452, R454, R455) -/

/-- R434, R435, R436, R443, R445, R446, R229, R90: with an active lane, a ration counter not below zero, a place at the shuttle, c2
below 1,023 and a place in q0 for the token, a SHUT command whose checks pass is accepted: it joins the core's commands with the six
descriptor registers, the lanes and indexes as they are at issue, and its token; c2 rises and the weft goes on; memory is untouched. One whose check fails
traps with the cause and nothing is accepted. With no active lane only `shcopy` is accepted, as an empty slice. -/
def Obligations.ShuttleCommands : Prop :=
  ∀ (s : State) (w : Weft) (t : Team) (p : Pfx) (d a b : Opnd) (g : Plan),
    s.team? w.team = some t → 0 ≤ (s.ration w.core).c → 2 < w.cnt.length →
    let desc := (descUses a 6).map fun u => s.sVal w u.o
    let tok := s.tokenOf w d
    let room := s.shuttleFull w.core = false ∧ w.count 2 < 1023 ∧ (tok ≠ none → t.tokenRoom 0 = true)
    let sends := fun (i : Instr) (uses : List Use) (op : Nat) (idx : List W32) => s.Issues w p uses .active g →
      let c := mkCmd s w p op g.m desc idx tok
      (g.m ≠ 0 → room → s.shuttleCheck t c = none → ∃ t' u, exec i s = .next t' ∧ t'.weft? w.core w.slot = some u
        ∧ t'.cmds = s.cmds ++ [{ c with coll := if op = 0 then some w.shcopies else none }]
        ∧ u.count 2 = w.count 2 + 1 ∧ u.pc = w.nextPc p ∧ u.sregs = w.sregs ∧ u.vregs = w.vregs
        ∧ u.shcopies = w.shcopies + (if op = 0 then 1 else 0)
        ∧ t'.team? w.team = some { t with res0 := t.res0 + if tok = none then 0 else 1 }
        ∧ s.SameMemory t' ∧ s.OtherWefts t' w.core w.slot)
      ∧ (g.m ≠ 0 → room → ∀ k n, s.shuttleCheck t c = some (k, n) →
          exec i s = .next (s.trapF (w.issued p false) k g.m { TInfo.none with detail := n }))
      ∧ (g.m = 0 → op ≠ 0 → exec i s = .next ((s.debit w.core 4).passes w p))
      ∧ (g.m = 0 → op = 0 → s.shuttleFull w.core = false → ∃ t' u, exec i s = .next t' ∧ t'.weft? w.core w.slot = some u
        ∧ t'.cmds = s.cmds ++ [{ mkCmd s w p op 0 desc idx none with coll := some w.shcopies, vacant := true }]
        ∧ u.shcopies = w.shcopies + 1 ∧ u.cnt = w.cnt)
    let plain := descUses a 6 ++ [srcS .ds d]
    let withB := descUses a 6 ++ [srcV .b b 1] ++ [srcS .ds d]
    let lanes := ((s.vVal w g.m (srcV .b b 1) []).headD (.u 0)).lanes
    sends (.shcopy p d a) plain 0 [] ∧ sends (.shtile p d a) plain 1 [] ∧ sends (.shfill p d a) plain 4 []
    ∧ sends (.shgath p d a b) withB 2 lanes ∧ sends (.shscat p d a b) withB 3 lanes

/-- R434, R436, R447, R450, R451, R452, R454, R455, R90: with an active lane and matrix issue not withheld, a MATRIX command whose checks
pass is added to its team's sequencer with its registers' values, c3 rises, and a cluster is charged 32 quarters (`mloop` is
charged by its steps); one whose check fails traps. `mcfg` sets the team's configuration, or raises ILLOP 3; `nmv` and `nmvcfg`
likewise on c4 and the two-bit configuration. With no active lane they only issue; that `mzero`, `mstep`, `mcvt` and `mscal` are charged
then too is the model's reading (assumption 26). -/
def Obligations.MatrixAndNearMemoryCommands : Prop :=
  ∀ (s : State) (w : Weft) (t : Team) (p : Pfx) (d a : Opnd) (g : Plan),
    s.team? w.team = some t → s.matHeld w.core = false → 4 < w.cnt.length →
    let tok := s.tokenOf w d
    let mat := fun (i : Instr) (op n : Nat) (rounds : Bool) => s.Issues w p (descUses a n ++ [srcS .ds d]) .active g →
      let v := (descUses a n).map fun u => s.sVal w u.o
      let pay := fun x : State => if op = 2 then x else x.debitAs true w.core 32
      let room := t.matBusy = false ∧ w.count 3 < 1023 ∧ (tok ≠ none → t.tokenRoom 1 = true)
      (g.m ≠ 0 → room → t.matCheck op v = none → ∃ t' u, exec i s = .next t' ∧ t'.weft? w.core w.slot = some u
        ∧ t'.team? w.team = some { t with mcmds := t.mcmds ++ [mkMat s w p op v tok], res1 := t.res1 + if tok = none then 0 else 1 }
        ∧ u.count 3 = w.count 3 + 1 ∧ u.pc = w.nextPc p ∧ u.sregs = w.sregs ∧ u.vregs = w.vregs
        ∧ t'.power = (pay s).power ∧ s.SameMemory t' ∧ s.OtherWefts t' w.core w.slot)
      ∧ (g.m ≠ 0 → room → ∀ c, t.matCheck op v = some c →
          exec i s = .next (s.trapF (w.issued p rounds) c g.m { TInfo.none with detail := if c = .illop then 3 else 0 }))
      ∧ (g.m = 0 → exec i s = .next ((pay s).setWeft (w.commit p rounds)))
    mat (.mzero p d a) 1 1 false ∧ mat (.mloop p d a) 2 6 false ∧ mat (.mstep p d a) 3 3 false
    ∧ mat (.mcvt p d a) 4 3 true ∧ mat (.mscal p d a) 5 2 false
    ∧ (s.Issues w p (descUses a 1) .active g →
      let v := s.sVal w a
      (g.m = 0 → exec (.mcfg p a) s = .next (s.passes w p))
      ∧ (g.m ≠ 0 → t.mcmds = [] → badMcfg v = false →
          exec (.mcfg p a) s = .next ((s.setTeam { t with mcfg := v.setWidth 10 }).passes w p))
      ∧ (g.m ≠ 0 → t.mcmds = [] → badMcfg v = true →
          exec (.mcfg p a) s = .next (s.trapF (w.issued p false) .illop g.m { TInfo.none with detail := 3 }))
      ∧ (0 ≤ (s.ration w.core).c →
        (g.m = 0 → exec (.nmvcfg p a) s = .next ((s.debit w.core 4).passes w p))
        ∧ (g.m ≠ 0 → v.toNat < 4 →
            exec (.nmvcfg p a) s = .next (((s.debit w.core 4).setTeam { t with ncfg := v.setWidth 2 }).passes w p))
        ∧ (g.m ≠ 0 → 4 ≤ v.toNat →
            exec (.nmvcfg p a) s = .next (s.trapF (w.issued p false) .illop g.m { TInfo.none with detail := 3 }))))
    ∧ (s.Issues w p (descUses a 4 ++ [srcS .ds d]) .active g → 0 ≤ (s.ration w.core).c →
      let c := mkCmd s w p 5 g.m ((descUses a 4).map fun u => s.sVal w u.o) [] tok
      let room := w.count 4 < 1023 ∧ (tok ≠ none → t.tokenRoom 2 = true)
      (g.m = 0 → exec (.nmv p d a) s = .next ((s.debit w.core 4).passes w p))
      ∧ (g.m ≠ 0 → room → c.nmvCheck t = none → ∃ t' u, exec (.nmv p d a) s = .next t' ∧ t'.weft? w.core w.slot = some u
        ∧ t'.cmds = s.cmds ++ [c] ∧ u.count 4 = w.count 4 + 1 ∧ u.pc = w.nextPc p ∧ u.sregs = w.sregs ∧ s.SameMemory t')
      ∧ (g.m ≠ 0 → room → ∀ k, c.nmvCheck t = some k → exec (.nmv p d a) s
          = .next (s.trapF (w.issued p false) k g.m { TInfo.none with detail := if k = .illop then 3 else 0 })))

/-! ### Queue operations, launches, the itinerary (R456-R460, R463, R464) -/

/-- R463, R464: a queue operation that QUEUE does not bar never waits for the queue it names: `qtry` pops one entry, or one per active
lane from q5, lowest lanes first, and reports what it served in s[B]; `qcount` answers the entries or free places; `qputtry` pushes what there is
room for and reports it. One that the role, REFILL or direction rules bar raises QUEUE, kind F, with `em` as the lanes, which is the
model's reading of R278 (assumption 69).

R458, R459, R127, R130: with an active lane, its release done and room in the die launch queue, `lnch` starts the read of the 64-byte record at s[A];
`lnch.dep` does the same with the flag s[B], which must be 0 or 1 (ILLOP 3). When the record has been read, an invalid one answers 0; a
valid one enters the die launch queue and answers its serial, modulo 2^32; the weft then goes on. -/
def Obligations.QueuesAndLaunches : Prop :=
  (∀ (s : State) (w : Weft) (t : Team) (p : Pfx) (d a b : Opnd) (g : Plan),
     s.team? w.team = some t → s.weft? s.focus.1 s.focus.2 = some w →
     let n := opndNum a
     let rep := { dstS b with pos := .b }
     let both := fun (x : State) (o1 o2 : Opnd) (v1 v2 : W64) =>
       let r := writeS x w o1 v1
       let r2 := writeS r.1 r.2 o2 v2
       r2.1.passes r2.2 p
     let one := fun (x : State) (o : Opnd) (v : W64) =>
       let r := writeS x w o v
       r.1.passes r.2 p
     let queue := fun i : Instr => exec i s = .next (s.trapF w .queue w.em TInfo.none)
     (qopBad s w a false = true → queue (.qtry p d a b)) ∧ (qopBad s w a true = true → queue (.qputtry p d a b))
     ∧ (s.waitqBad w n = true → queue (.qcount p d a))
     ∧ (qopBad s w a false = false → n ≠ 5 → s.Issues w p [dstS d, rep] .active g →
       (g.m = 0 → exec (.qtry p d a b) s = .next (s.passes w p))
       ∧ (g.m ≠ 0 → ∀ v, s.qHead w n = some v → (n = 3 → s.q3Poisoned w = false) →
           exec (.qtry p d a b) s = .next (both (s.qPop w n) d b v 1))
       ∧ (g.m ≠ 0 → n = 3 → s.q3Poisoned w = true → s.qHead w n ≠ none →
           exec (.qtry p d a b) s = .next (s.trapL (w.issued p false) .softerr g.m { TInfo.none with opnd := 1, reach := 3 }))
       ∧ (g.m ≠ 0 → s.qHead w n = none → exec (.qtry p d a b) s = .next (one s b 0)))
     ∧ (qopBad s w a false = false → n = 5 → s.Issues w p [dstV d 1, rep] .active g → g.m ≠ 0 → ∀ k : Fin 64, d = .v k →
       let m := lowLanes g.m t.q5.length
       let v := w.setVs m (w.phys (dstV d 1)) [.g (spreadQ m laneIdx t.q5)]
       let r := writeS (s.setTeam { t with q5 := t.q5.drop (popCount m) }) v b m
       exec (.qtry p d a b) s = .next (r.1.passes r.2 p))
     ∧ (s.waitqBad w n = false → s.Issues w p [dstS d] .active g →
       (g.m = 0 → exec (.qcount p d a) s = .next (s.passes w p))
       ∧ (g.m ≠ 0 → exec (.qcount p d a) s = .next (one s d (BitVec.ofNat 64 (s.qcountOf w n)))
         ∧ (n < 3 → s.qcountOf w n = (t.q n).length) ∧ (n = 5 → s.qcountOf w n = t.q5.length)))
     ∧ (qopBad s w a true = false → n ≠ 5 → s.Issues w p [srcS .b b, dstS d] .active g →
       let x := s.popUses w g.m [srcS .b b]
       (g.m = 0 → exec (.qputtry p d a b) s = .next (s.passes w p))
       ∧ (g.m ≠ 0 → x.qFull w n = true → exec (.qputtry p d a b) s = .next (one x d 0))
       ∧ (g.m ≠ 0 → x.qFull w n = false → exec (.qputtry p d a b) s = .next (one (x.qPush w n (s.sVal w b)) d 1)))
     ∧ (qopBad s w a true = false → n = 5 → s.Issues w p [srcV .b b 1, dstS d] .active g → g.m ≠ 0 →
       let m := lowLanes g.m (t.refill - t.q5.length)
       let v := (s.vVal w g.m (srcV .b b 1) []).headD (.u 0)
       exec (.qputtry p d a b) s = .next (one (s.setTeam { t with q5 := t.q5 ++ (activeLanes m).map v.lane }) d m)))
  ∧ ((∀ (s : State) (w : Weft) (p : Pfx) (d a b : Opnd) (g : Plan),
       let acc := fun (o : Option Opnd) (early : Bool) =>
         { baseAccess s w p g (.launch d o early) 64 ((accLanes g.m true).map fun i => mkLane 0 0 64 (s.sVal w a) 0 0 i) with
           scalar := true, gm := 0, acq := true }
       let ready := s.Released w 5 ∧ s.launchFull w.ctx (w.core / 52) = false ∧ ∀ o e, s.capOpen w.core (acc o e).lanes = true
       (s.Issues w p [srcS .a a, dstS d] .active g →
         (g.m = 0 → exec (.lnch p d a) s = .next (s.passes w p))
         ∧ (g.m ≠ 0 → ready → exec (.lnch p d a) s = .next (s.startAccess w (acc none false) none)))
       ∧ (s.Issues w p [srcS .a a, srcS .b b, dstS d] .active g →
         let v := s.sVal w b
         (g.m = 0 → exec (.lnchDep p d a b) s = .next (s.passes w p))
         ∧ (g.m ≠ 0 → 1 < v.toNat →
             exec (.lnchDep p d a b) s = .next (s.trapF (w.issued p false) .illop g.m { TInfo.none with detail := 3 }))
         ∧ (g.m ≠ 0 → v.toNat ≤ 1 → ready →
             exec (.lnchDep p d a b) s = .next (s.startAccess w (acc (some b) (v == 1)) none))))
     ∧ ∀ (s : State) (w : Weft) (a : Access) (k : Fin 32) (early : Bool) (l : LaneAcc),
       s.acc? a.id = some a → s.weft? a.core a.slot = some w → a.kind = .launch (.s k) none early → a.settled = true →
       a.lanes = [l] → l.st = .done → k.val < w.sregs.length → a.ctx < s.ctxs.length →
       let r := LaunchRec.ofBytes (leBytes 64 l.data)
       let n := (s.ctx a.ctx).nextSerial
       let ends := fun (t : State) (v : Nat) => ∃ u, s.finish a.id = t ∧ t.weft? a.core a.slot = some u
         ∧ (u.sreg k.val).val = BitVec.ofNat 64 v ∧ u.pc = a.next ∧ t.acc? a.id = none ∧ s.SameMemory t
       (s.recordOk a.ctx r = false → ∃ t, ends t 0 ∧ t.launches = s.launches)
       ∧ (s.recordOk a.ctx r = true → s.launchFull a.ctx (a.core / 52) = false → ∃ t x, ends t (n % 2 ^ 32)
         ∧ t.launches = s.launches ++ [x] ∧ x.ctx = a.ctx ∧ x.serial = n ∧ x.lrec = r ∧ x.lva = l.ea
         ∧ x.die = some (a.core / 52) ∧ x.nextTeam = 0 ∧ (t.ctx a.ctx).nextSerial = n + 1))

/-- R456, R457, R160, R161, R156: outside a task launch a minor that acts on the current task raises ITIN 0, kind F. `itn.done` (after its release) marks
the weft done; `itn.next` does so and waits, and goes on with the next task's record address, or 0, once it is answered;
`itn.stash` answers the address of a micro-batch's stash slot, or 0; `itn.free` frees it; `itn.post` (after its release) answers the slot number and posts
the next reserved slot, and raises ITIN when none is left. That a group with no active lane passes outside a task launch too is the model's
reading (assumption 70). -/
def Obligations.ItineraryInstructions : Prop :=
  ∀ (s : State) (w : Weft) (p : Pfx) (d a : Opnd) (g : Plan),
    let trap := fun i : Instr => exec i s = .next (s.trapF (w.issued p false) .itin g.m TInfo.none)
    let writes := fun (i : Instr) (x : State) (v : W64) =>
      let r := writeS x w d v
      exec i s = .next (r.1.passes r.2 p)
    let current := fun k : Task => s.inTask w = true ∧ w.itnDone = false ∧ s.curTask w = some k
    let done := { w.commit p false with itnDone := true }
    let asks := { w with itnDone := true, itnNext := true, waiting := some .task, itnWas := w.itnDone
                         itnReg := match d with | .s n => some n.val | _ => none }
    (s.Issues w p [] .all g →
      (s.inTask w = false → trap (.itnDone p))
      ∧ (s.inTask w = true → s.Released w 4 → exec (.itnDone p) s = .next ((s.setWeft done).taskOf done)))
    ∧ (s.Issues w p [dstS d] .all g →
      (s.inTask w = false → trap (.itnNext p d))
      ∧ (s.inTask w = true → w.itnAnswer = none → w.itnNext = false → s.Released w 4 →
          exec (.itnNext p d) s = .next ((s.setWeft asks).taskOf asks))
      ∧ (s.inTask w = true → w.itnAnswer = none → w.itnNext = true → exec (.itnNext p d) s = .next (s.waits w .task))
      ∧ (s.inTask w = true → ∀ v, w.itnAnswer = some v →
          let r := writeS s w d v
          exec (.itnNext p d) s
            = .next (r.1.setWeft { r.2.commit p false with itnNext := false, itnAnswer := none, itnDone := v == 0 })))
    ∧ (s.Issues w p [srcS .a a, dstS d] .active g →
      let mb := (s.sVal w a).toNat % 2 ^ 12
      (g.m = 0 → exec (.itnStash p d a) s = .next (s.passes w p))
      ∧ (g.m ≠ 0 → s.inTask w = false ∨ w.itnDone = true → trap (.itnStash p d a))
      ∧ (g.m ≠ 0 → ∀ k, current k →
          (∀ j, s.itin.stashOf mb = some j → writes (.itnStash p d a) (s.popUses w g.m [srcS .a a])
            (BitVec.ofNat 64 (s.itin.stashva + j * s.itin.stsz)))
          ∧ (s.itin.stashOf mb = none → writes (.itnStash p d a) (s.popUses w g.m [srcS .a a]) 0)))
    ∧ (s.Issues w p [srcS .a a] .active g →
      let mb := (s.sVal w a).toNat % 2 ^ 12
      (g.m = 0 → exec (.itnFree p a) s = .next (s.passes w p))
      ∧ (g.m ≠ 0 → s.inTask w = false ∨ w.itnDone = true → trap (.itnFree p a))
      ∧ (g.m ≠ 0 → ∀ k, current k → ∃ t u, exec (.itnFree p a) s = .next t ∧ t.weft? w.core w.slot = some u
          ∧ u.pc = w.nextPc p ∧ u.sregs = w.sregs
          ∧ t.itin.stash = s.itin.stash.map (fun x => if x = some mb then none else x)
          ∧ (∀ x ∈ t.itin.tasks, x.mb = mb → x.freeAtEnd = false) ∧ s.SameMemory t))
    ∧ (s.Issues w p [dstS d] .active g →
      (g.m = 0 → s.Released w 5 → exec (.itnPost p d) s = .next (s.passes w p))
      ∧ (g.m ≠ 0 → s.inTask w = false ∨ w.itnDone = true → trap (.itnPost p d))
      ∧ (g.m ≠ 0 → ∀ k, current k →
          (k.nout ≤ k.posts → trap (.itnPost p d))
          ∧ (k.posts < k.nout → s.Released w 5 →
              let up := fun x : Task => if x.slot = k.slot then { x with posts := k.posts + 1 } else x
              let r := writeS { s with itin := { s.itin with tasks := s.itin.tasks.map up } } w d (BitVec.ofNat 64 k.posts)
              (∀ x ∈ s.itin.tasks, x.slot = k.slot → x.posts = k.posts) →
              exec (.itnPost p d) s
                = .next ((r.1.passes r.2 p).postSlot w.core (some w.slot) k.kind (k.resBase + k.posts)))))

/-! ### The frame of a vector group and the state after reset -/

/-- R202, R209, R210, R286, R354, R387: what a vector group that is done leaves. A register destination holds the new value in the
active lanes and the old one in the others, with the new tag only when all 64 lanes are active; a scalar destination holds the
scalar result; the flags are ORed in and the offsets of the active lanes move. A value that every lane writes to one register through an
index register is there, general and not poisoned (R221). Every other register, tag, mask, full/empty
bit, counter and trap register of the weft is as before, the pc names the next group, and no byte of memory and no other weft changes.

R389, R278, R306: when an active lane raises a flag that `fpmode` enables, the group traps FPX, kind F, with the flags as
DETAIL; no register, offset or flag is written and no queue popped; only `rctr` has advanced, which is the model's reading of R306
(assumption 61).

R219, R281: a `vmov` into an index register in which some lanes pass its bound traps BOUND, kind L, with those lanes and PL set; the other
active lanes complete: they are written, their offsets are kept and the failed lanes' are undone, and `dm` holds them. -/
def Obligations.VectorResultsFrameAndTraps : Prop :=
  ((∀ (s : State) (w : Weft) (p : Pfx) (g : Plan) (srcs : List Use) (n : Fin 8) (pv : Nat) (y : VVal) (fl : BitVec 5),
     s.weft? w.core w.slot = some w → g.m = allLanes → pv < w.vregs.length → (∀ i, i < 64 → (g.regs.getLastD []).getD i 0 = pv) →
     ∃ u, (s.vecNext w p g srcs (dstV (.x n) 1) false { vals := [y], sc := none, fl := fl }).weft? w.core w.slot = some u
       ∧ (u.vreg pv).pois = false ∧ (u.vreg pv).val.tag = 2 ∧ (u.vreg pv).full = (w.vreg pv).full
       ∧ ∀ l, l < 64 → (u.vreg pv).val.lane l = y.lane l)
   ∧ ∀ (s : State) (w : Weft) (p : Pfx) (g : Plan) (srcs : List Use) (dst : Use) (rounds : Bool) (r : VRes),
     s.weft? w.core w.slot = some w → dst.o.isX = false →
     let t := s.vecNext w p g srcs dst rounds r
     ∃ u, t.weft? w.core w.slot = some u
       ∧ (∀ (k : Fin 64) (v : VVal) (old : VReg), dst = dstV (.v k) 1 → r.vals = [v] → w.vregs[w.wb + k.val]? = some old →
           ∃ new, u.vregs[w.wb + k.val]? = some new ∧ new.full = old.full
             ∧ (∀ l, l < 64 → new.val.lane l = if inMask g.m l then v.lane l else old.val.lane l)
             ∧ (g.m = allLanes → new.val = v) ∧ (g.m ≠ 0 → g.m ≠ allLanes → new.val.tag = 2) ∧ (g.m = 0 → new = old))
       ∧ (∀ (k : Fin 32) (v : W64), dst = dstS (.s k) → r.sc = some v → k.val < w.sregs.length → (u.sreg k.val).val = v)
       ∧ (∀ n, n ∉ w.phys dst → u.vregs[n]? = w.vregs[n]?) ∧ (∀ n : Nat, (∀ k : Fin 32, dst.o = .s k → k.val ≠ n) → u.sregs[n]? = w.sregs[n]?)
       ∧ u.fpflags = w.fpflags ||| r.flags g.m ∧ (r.lfl = [] → g.m ≠ 0 → r.flags g.m = r.fl) ∧ u.xregs = keepOffsets g.m w.xregs g.xs
       ∧ ((∀ x ∈ srcs, x.indirect = false) → u.dm = w.dm)
       ∧ u.pc = w.nextPc p ∧ u.rctr = w.rctr + w.rctrStep p rounds
       ∧ u.em = w.em ∧ u.wb = w.wb ∧ u.fpmode = w.fpmode ∧ u.seed = w.seed ∧ u.cnt = w.cnt ∧ u.busy = w.busy ∧ u.err = w.err
       ∧ u.tm = w.tm ∧ u.tem = w.tem ∧ u.tdm = w.tdm ∧ u.tpc = w.tpc ∧ u.tcause = w.tcause ∧ u.tmask = w.tmask ∧ u.tinfo = w.tinfo
       ∧ u.rgnpc = w.rgnpc ∧ u.rgncnt = w.rgncnt ∧ u.rgnem = w.rgnem
       ∧ s.OtherWefts t w.core w.slot ∧ s.SameMemory t)
  ∧ (∀ (s : State) (w : Weft) (p : Pfx) (srcs : List Use) (dst : Use) (rounds : Bool) (g : Plan)
       (f : Weft → W64 → List (List VVal) → VRes),
       s.VecIssues w p (srcs ++ [dst]) g → w.tm = false →
       let r := f w g.m (s.vVals w g (srcs ++ [dst]))
       ¬ w.quiet r.fl →
       ∃ t u, execVec s p srcs dst rounds f = .next t ∧ t.weft? w.core w.slot = some u
         ∧ u.tm = true ∧ u.tcause = 0x0C ∧ u.tmask = g.m ∧ u.tinfo = BitVec.ofNat 64 (2 ^ 8 * r.fl.toNat) ∧ u.tpc = w.pc
         ∧ u.sregs = w.sregs ∧ u.vregs = w.vregs ∧ u.xregs = w.xregs ∧ u.fpflags = w.fpflags
         ∧ u.rctr = w.rctr + w.rctrStep p rounds
         ∧ u.dm = (if (srcs ++ [dst]).any Use.indirect then (if w.narrow then w.dm else 0) else w.dm)
         ∧ s.SameMemory t ∧ t.teams = s.teams)
  ∧ (∀ (s : State) (w : Weft) (p : Pfx) (n : Fin 8) (a : Opnd) (g : Plan),
       let uses := [srcV .a a 1, dstV (.x n) 1]
       s.Issues w p uses .sources g → g.m ≠ 0 → g.bad ≠ 0 → w.tm = false → w.narrow = false → 0 ≤ (s.ration w.core).c →
       a.isX = false → a.isQ = false →
       ∃ t u, exec (.vmov p (.x n) a) s = .next t ∧ t.weft? w.core w.slot = some u
         ∧ u.tcause = 0x04 ∧ u.tmask = g.bad ∧ u.tinfo = 8 ∧ u.tpc = w.pc ∧ u.tm = true
         ∧ u.tdm = g.m &&& ~~~g.bad ∧ u.dm = g.m &&& ~~~g.bad
         ∧ u.xregs = keepOffsets (g.m &&& ~~~g.bad) w.xregs g.xs
         ∧ u.vregs = (w.setXAll (g.m &&& ~~~g.bad) (g.regs.getLastD []) 0 [arg (s.vVals w g uses) 0]).vregs)

/-- R35, R102, R92, R69, R108, R111, R123, R165, R167, R191, R62: the machine right after reset: boot in ROM with every other field of BOOTST 0,
the power registers at the values of the table, no context, no weft and nothing in flight, the fabric and the link down, the
itinerary stopped, no snapshot region, C = M = 0; no cell of memory is listed, so the invariant holds. The first step from there is the first step of boot (log entry 7). -/
def Obligations.StateAfterReset : Prop :=
  let s := State.reset
  s.Inv ∧ (∀ k, s.byte k = Memory.unlisted)
  ∧ s.boot.st = .rom ∧ s.boot.cause = 0 ∧ s.boot.brcopy = 0 ∧ s.boot.fwslot = false ∧ s.boot.fwver = 0 ∧ s.boot.scmrsv = 0
  ∧ s.power.step = 0 ∧ s.power.mop = 1 ∧ s.power.vop = 0 ∧ s.power.fop = 0 ∧ s.power.psel = 0 ∧ s.power.limiter = 0
  ∧ s.power.pfact = false ∧ s.power.pkgcap = 3200 ∧ s.power.pcap = [3200, 2800, 2400, 2000, 1600, 1200, 1000, 800]
  ∧ s.power.icap = 3200 ∧ s.power.icapEn = false ∧ s.power.holdup = 300 ∧ s.power.icclim.toNat % 2 ^ 12 = 2600
  ∧ s.power.icclim.toNat / 2 ^ 12 = 1200 ∧ s.power.oreqcfg = 2048
  ∧ s.power.rations.length = 52 ∧ (∀ r ∈ s.power.rations, r.rate = 65535 ∧ r.mthr = 0)
  ∧ s.host.alertst = 0 ∧ s.host.alerten = 0x1E7 ∧ s.host.width = 0
  ∧ s.fab.pkgid = 0 ∧ s.fab.trained = false ∧ s.fab.up = 0 ∧ s.fab.packets = [] ∧ s.fab.comb = []
  ∧ s.ctxs.length = 64 ∧ (∀ x ∈ s.ctxs, x.st = .free) ∧ s.queues = [] ∧ s.wefts = [] ∧ s.teams = [] ∧ s.launches = []
  ∧ s.accs = [] ∧ s.cmds = [] ∧ s.icache = [] ∧ s.tlb = [] ∧ s.wcache = [] ∧ s.pois = [] ∧ s.hamp = []
  ∧ s.itin.bound = none ∧ s.itin.st = 0 ∧ s.itin.counters = List.replicate 8 0 ∧ s.stepCtr = 0
  ∧ s.snap.regions = [] ∧ s.snap.st = 0 ∧ s.snap.c = 0 ∧ s.snap.m = 0 ∧ s.debug = none
  ∧ step s = exec .bootRom s

/-! ### Boot and the host link (R22, R27-R36, R105) -/

/-- R22, R27-R36, R59, R105, R125, R172, R235, R489: the steps of boot, each in its own state and with no power failure: BOOT_START enters ROM; ROM
reads the 8 KiB PUF SRAM and goes to BRCHK; BRCHK takes the first copy whose signatures verify, else FAIL 2, or FAIL 3 on its
contents; IDENT derives the device secret and goes to FWLOAD when the identity keys hash to IDHASH, else FAIL 4; FWLOAD boots the higher
verified version at or above the floor, A on a tie, and raises the counter, or FAIL 5; DIES tests the enabled clusters and starts
the die counters, or FAIL 6 or 7; MEMINIT draws the HBM keys, drains the hampers and empties HBM, or FAIL 8 or 9;
READY waits for PERST_N. A FAIL sets ALERTST.FAIL. VAUX_LOSS leaves SCM, host memory, the firmware slots and the level of PERST_N. The PUF, the
keys and the tests are free values. That the counter's MAC failing is FAIL 5 (assumption 85), that BRCOPY is set before FAIL 3 (assumption
8), that a record is taken whatever its MAGIC and FMT hold (assumption 86), and the parameters of keys and signatures (assumption 84) are
the model's choices.

R1, R34, R107, R108: link training in any boot state from ROM on sets width and rate while PERST_N is released; a configuration request is
answered once the link is up, names part 0x605, and assigns BAR0 in 16 MiB units; PERST resets the link alone (which of its
registers is the model's choice, assumption 87); its release lets a READY that waited complete. -/
def Obligations.BootAndHostLinkSteps : Prop :=
  (∀ s : State,
     let fails := fun (t : State) (cause : Nat) => t.boot.st = .fail ∧ t.boot.cause = BitVec.ofNat 8 cause ∧ t.host.alertst.getLsbD 0 = true
     let at_ := fun b : BootSt => s.boot.st = b ∧ s.power.pf = .idle
     let stands := fun t : State => t.hamp = [] ∧ (s.Inv → ∀ k, keyIsScm k = true → (∀ e ∈ s.hamp, (e.bytes.map Prod.fst).Nodup) →
       t.byte k = s.byte k)
     (s.boot.st = .off → ∃ t, exec .bootStart s = .next t ∧ t.boot.st = .rom)
     ∧ (at_ .rom → ∃ t, exec .bootRom s = .next t ∧ t.boot.st = .brchk ∧ t.boot.puf = padTo 8192 (Config.pufSram s.draws)
         ∧ t.boot.puf.length = 8192)
     ∧ (at_ .brchk → ∃ t, exec .brchk s = .next t ∧
         match (List.range 6).find? fun k => recordVerifies (s.bytes (scmKey (16 * k) 0) 20704) with
         | none => fails t 2
         | some k =>
           let r := s.bytes (scmKey (16 * k) 0) 20704
           t.boot.brcopy = BitVec.ofNat 3 k ∧ (recBad r = true → fails t 3)
           ∧ (recBad r = false → t.boot.st = .ident ∧ t.boot.record = r ∧ t.boot.serial = (r.drop 0x10).take 16
               ∧ t.boot.harvest = BitVec.ofNat 32 (recNum r 0x20 4) ∧ t.boot.fwfloor = BitVec.ofNat 32 (recNum r 0x24 4)
               ∧ t.boot.scmrsv = BitVec.ofNat 16 (recNum r 0x3C 2)))
     ∧ (at_ .ident → ∃ t, exec .ident s = .next t ∧
         let x := deviceSecret s.boot.puf ((s.boot.record.drop 0x40).take 1024)
         (sha384 (idKeys x) = (s.boot.record.drop 0x440).take 48 → t.boot.st = .fwload ∧ t.boot.secret = x)
         ∧ (sha384 (idKeys x) ≠ (s.boot.record.drop 0x440).take 48 → fails t 4))
     ∧ (at_ .fwload → ∃ t, exec .fwload s = .next t ∧ (s.boot.chosen = none → fails t 5)
         ∧ ∀ b f, s.boot.chosen = some (b, f) →
             (if b then s.boot.slotB else s.boot.slotA) = some f ∧ f.verifies = true
             ∧ max s.boot.fwfloor.toNat s.boot.bootctr.toNat ≤ f.version.toNat
             ∧ (∀ g, (if b then s.boot.slotA else s.boot.slotB) = some g → s.boot.slotOk g = true →
                 if b then g.version.toNat < f.version.toNat else g.version.toNat ≤ f.version.toNat)
             ∧ (s.boot.counterOk = false → fails t 5)
             ∧ (s.boot.counterOk = true → t.boot.st = .dies ∧ t.boot.fwslot = b ∧ t.boot.fwver = f.version ∧ t.boot.bootctr = f.version
                 ∧ t.boot.counterOk = true))
     ∧ (at_ .dies → ∃ t, exec .dies s = .next t ∧
         let passes := ∀ d p, d < 4 → p < 14 → p ≠ s.boot.harvested d → Config.clusterPasses s.draws d p = true
         (Config.dieLinksTrain s.draws = false → fails t 6) ∧ (Config.dieLinksTrain s.draws = true → ¬ passes → fails t 7)
         ∧ (Config.dieLinksTrain s.draws = true → passes → t.boot.st = .meminit ∧ t.clocks = [0, 0, 0, 0]))
     ∧ (at_ .meminit → s.boot.mounted = false → ∃ t, exec .meminit s = .next t
         ∧ (Config.hbmTrains s.draws = false → fails t 8) ∧ (Config.hbmTrains s.draws = true → Config.scmMounts s.draws = false → fails t 9)
         ∧ (Config.hbmTrains s.draws = true → Config.scmMounts s.draws = true → t.boot.mounted = true ∧ t.boot.st = .meminit ∧ stands t
             ∧ t.boot.xtsData.length = 32 ∧ t.boot.xtsTweak.length = 32 ∧ (s.Inv → t.Inv)
             ∧ ∀ k, keyIsHbm k = true → s.Inv → t.byte k = Memory.unlisted))
     ∧ (at_ .meminit → s.boot.mounted = true →
         (s.host.perst = false → ∃ t, exec .ready s = .next t ∧ t.boot.st = .ready ∧ t.power.psel = s.power.pselLatched
           ∧ t.host.alertst.getLsbD 1 = true)
         ∧ (s.host.perst = true → ∃ t, exec .ready s = .next t ∧ t.boot.st = .meminit ∧ t.boot.readyPending = true))
     ∧ ∃ t, exec .vauxLoss s = .next t ∧ t.boot.st = .off ∧ t.wefts = [] ∧ t.teams = [] ∧ t.accs = []
         ∧ t.boot.slotA = s.boot.slotA ∧ t.boot.slotB = s.boot.slotB ∧ t.boot.bootctr = s.boot.bootctr ∧ t.host.perst = s.host.perst
         ∧ (s.Inv → t.Inv ∧ ∀ k, (keyIsScm k = true ∨ 2 ^ 65 ≤ k) → Memory.get t.mem k = Memory.get s.mem k)
         ∧ (s.power.pf = .halted → t.hamp = s.hamp))
  ∧ (∀ (s : State) (width rate : Nat) (cxl : Bool) (a : BitVec 64),
       (s.boot.st ≠ .off → s.host.perst = false → width ∈ [4, 8, 16] → rate ∈ [1, 2, 3] →
         exec (.pcieLinkTraining width rate cxl) s
           = .next { s with host := { s.host with width := BitVec.ofNat 5 width, rate := BitVec.ofNat 2 rate, cxl := cxl } })
       ∧ (s.boot.st ≠ .off → s.host.width ≠ 0 →
         exec (.configRequest none) s = .next (s.emit (.config 0x605))
         ∧ ∃ t, exec (.configRequest (some a)) s = .next t ∧ t.host.bar0.toNat = a.toNat / 2 ^ 24 * 2 ^ 24
           ∧ t.host.out = .config 0x605 :: s.host.out)
       ∧ exec .perst s = .next { s with host := { s.host with perst := true, width := 0, rate := 0, cxl := false, bar0 := 0 } }
       ∧ (s.boot.readyPending = false ∨ s.boot.st ≠ .meminit → exec .perstRelease s = .next { s with host := { s.host with perst := false } })
       ∧ (s.boot.readyPending = true → s.boot.st = .meminit → s.power.pf = .idle → ∃ t, exec .perstRelease s = .next t
           ∧ t.boot.st = .ready ∧ t.boot.readyPending = false ∧ t.host.perst = false ∧ t.power.psel = s.power.pselLatched))

/-! ### Power, current and thermal control (R86-R106) -/

/-- R23, R25, R99, R102: a strap change takes effect at once in READY and is latched before it; CAP_WRITE sets PKGCAP, PCAPn or ICAP with
EN; a fall of the effective cap is noted. The effective cap is 400 W before READY, else the smallest of PKGCAP, the strapped PCAP
and, with EN, ICAP, each held between 400 and 3,200.

R86-R89, R92, R93, R95-R98, R100, R101: RATION_CYCLE_END adds RATE, takes the debits off and holds C between -2^15 and 2^12; a droop forces C
to -64; a rail's glide ends with its clock and voltage at its target, once that keeps the matrix clock below the main clock (M0 with V0
apart); a control interval never lowers the step by itself, raises it to the highest demand (the trip limit asks for 7), sets points, and
rates from what each cluster demanded in the interval, and starts the power-fail sequence at 115 degrees, in any boot state with THERMTRIP_N low; STEP_LEAVE
goes back one step after 100 intervals with room; the trip limit ends with every sensor below 100. -/
def Obligations.CapAndPowerControlSteps : Prop :=
  (∀ (s : State) (v : BitVec 3) (n : Nat) (x : BitVec 64), s.boot.st ≠ .off → s.power.pf = .idle →
     let noted := fun t : State => t.effCap < s.effCap → t.power.capFell = true
     let hold := fun y : BitVec 12 => max 400 (min 3200 y.toNat)
     (s.boot.st = .ready → ∃ t, exec (.pstepAccept v) s = .next t ∧ t.power.psel = v ∧ noted t)
     ∧ (s.boot.st ≠ .ready → ∃ t, exec (.pstepAccept v) s = .next t ∧ t.power.pselLatched = v ∧ t.power.psel = s.power.psel ∧ noted t)
     ∧ (∃ t, exec (.capWrite 0x108 x) s = .next t ∧ t.power.pkgcap = x.setWidth 12 ∧ noted t)
     ∧ (n < 8 → s.power.pcap.length = 8 → ∃ t, exec (.capWrite (0x110 + 8 * n) x) s = .next t
         ∧ t.power.pcap[n]? = some (x.setWidth 12) ∧ noted t ∧ ∀ k, k ≠ n → t.power.pcap[k]? = s.power.pcap[k]?)
     ∧ (∃ t, exec (.capWrite 0x150 x) s = .next t ∧ t.power.icap = x.setWidth 12 ∧ t.power.icapEn = x.getLsbD 12 ∧ noted t)
     ∧ (s.boot.st ≠ .ready → s.effCap = 400)
     ∧ (s.boot.st = .ready → ∀ y, s.power.pcap[s.power.psel.toNat]? = some y →
         let c := min (hold s.power.pkgcap) (hold y)
         s.effCap = if s.power.icapEn then min c (hold s.power.icap) else c))
  ∧ (∀ (s : State) (m : Telemetry) (k : Nat),
       let p := s.power
       let keeps := fun mop vop : Nat => if mop = 0 then vop = 0 else vop < mop
       (k < p.rations.length →
         (∃ t, exec (.rationCycleEnd k) s = .next t ∧ ∀ r, p.rations[k]? = some r → t.power.rations[k]?
             = some { r with c := max (-(2 ^ 15 * 256)) (min (4096 * 256) (r.c - r.debits + r.rate)), debits := 0 })
         ∧ (∃ t, exec (.droopDetect k) s = .next t ∧ ∀ r, p.rations[k]? = some r → t.power.rations[k]? = some { r with c := -64 * 256 }))
       ∧ (p.pf = .idle →
           (keeps p.mopT p.vop → exec (.opGlideComplete 0) s = .next { s with power := { p with mop := p.mopT, mvlt := p.mopT } })
           ∧ (keeps p.mop p.vopT → exec (.opGlideComplete 1) s = .next { s with power := { p with vop := p.vopT, vvlt := p.vopT } })
           ∧ (¬ keeps p.mopT p.vop → exec (.opGlideComplete 0) s = .next s) ∧ (¬ keeps p.mop p.vopT → exec (.opGlideComplete 1) s = .next s)
           ∧ exec (.opGlideComplete 2) s = .next { s with power := { p with fop := p.fopT, fvlt := p.fopT } })
       ∧ (s.up = true → p.step ≤ 9 → ∃ t, exec (.controlInterval m) s = .next t
           ∧ p.step ≤ t.power.step ∧ t.power.step ≤ 9 ∧ t.power.capFell = false
           ∧ ((p.trip = true ∨ ∃ x ∈ m.temps, 110 ≤ x) → 7 ≤ t.power.step ∧ t.power.trip = true)
           ∧ (∀ d ∈ s.demands m (p.trip || m.temps.any fun x => decide (110 ≤ x)), min 9 d.2 ≤ t.power.step)
           ∧ (p.step < t.power.step → t.host.alertst.getLsbD 3 = true)
           ∧ (∀ j, j < 52 → ∃ r, t.power.rations[j]? = some r ∧ r.dm = 0 ∧ r.dv = 0
               ∧ (t.power.step < 4 → r.mthr = 0 ∧ (r.hot = false → r.rate = 65535))
               ∧ (4 ≤ t.power.step → r.mthr = 1024 * 256 ∧ ∀ q, p.rations[j]? = some q → r.hot = false →
                   let dm := 256 * q.dm / max 1 p.icyc
                   let dv := 256 * q.dv / max 1 p.icyc
                   r.rate = max 64 (min 65535 (if t.power.step < 6 then dv + 3 * dm / 4 else 3 * (dv + dm) / 4))))
           ∧ ((∃ x ∈ m.temps, 115 ≤ x) → t.power.pf = .stopping ∧ t.power.thermtripN = false)
           ∧ ((∀ x ∈ m.temps, x < 115) → t.power.pf = .idle ∧ t.power.vopT = (if t.power.step < 7 then 0 else 1)
               ∧ t.power.fopT = (if t.power.step < 8 then 0 else 1) ∧ t.power.t2off = decide (2 ≤ t.power.step)))
       ∧ (s.boot.st ≠ .off → s.up = false → (∃ x ∈ m.temps, 115 ≤ x) → ∃ t, exec (.controlInterval m) s = .next t
           ∧ t.power.thermtripN = false ∧ (p.pf = .idle → s.boot.st = .meminit → t.power.pf = .stopping))
       ∧ (s.up = true → 100 ≤ p.below → p.step ≠ 0 → ¬(p.trip = true ∧ p.step ≤ 7) → ∃ t, exec .stepLeave s = .next t
           ∧ t.power.step = p.step - 1 ∧ t.power.below = 0 ∧ t.power.t2off = decide (2 ≤ p.step - 1))
       ∧ (s.up = true → (∀ x ∈ m.temps, x < 100) → exec (.thermalTripRelease m) s = .next { s with power := { p with trip := false } }))

/-- R21, R22, R24, R103-R106, R125, R172: PFAIL from MEMINIT on stops every weft with that cause, drops what had not left a core, and sets ALERTST.PF; before
MEMINIT boot only stops. A rail fault from MEMINIT on starts the same sequence, VSCM's halts it at once and leaves what the hampers hold
for the next MEMINIT, VAUX's is the loss of VAUX; before MEMINIT it is FAIL 1. Then what had left a core reaches the hampers, the
hampers drain to their stacks, the seal record is written on every stack, and level 2 saves contexts while the hold-up energy lasts.
The cases of VSCM and VAUX and what outlives them (assumption 10), that a pre-empted context is saved too (assumption 13), and which
stores had left a core (assumption 25) are the model's reading. -/
def Obligations.PowerFailSteps : Prop :=
  ∀ (s : State) (rail : Nat),
    let reached := s.boot.st = .meminit ∨ s.boot.st = .ready ∨ s.boot.st = .fail ∧ 8 ≤ s.boot.cause.toNat
    let runs := s.power.pf = .idle ∧ s.boot.st ≠ .off
    let stops := fun t : State => t.power.pfact = true ∧ t.power.limiter = 1
        ∧ t.host.alertst.getLsbD 7 = true ∧ t.cmds = [] ∧ t.fab.packets = [] ∧ t.fab.comb = [] ∧ (∀ x ∈ t.teams, x.mcmds = [])
        ∧ ∀ v ∈ t.wefts, v.exited = false → v.stopped = some .pfail ∧ v.events = []
    (runs → reached → ∃ t, exec .pfail s = .next t ∧ stops t ∧ t.power.pf = .stopping)
    ∧ (runs → ¬ reached → exec .pfail s = .next { s with power := { s.power with pf := .halted } })
    ∧ (runs → reached → 1 ≤ rail → rail ≤ 5 → ∃ t, exec (.railFault rail) s = .next t ∧ stops t ∧ t.power.pf = .stopping)
    ∧ (runs → reached → ∃ t, exec (.railFault 6) s = .next t ∧ stops t ∧ t.power.pf = .halted ∧ t.hamp = s.hamp)
    ∧ (s.boot.st ≠ .off → exec (.railFault 0) s = exec .vauxLoss s)
    ∧ (runs → ¬ reached → s.boot.st ≠ .fail → 1 ≤ rail → rail ≤ 6 → ∃ t, exec (.railFault rail) s = .next t
        ∧ t.boot.st = .fail ∧ t.boot.cause = 1)
    ∧ (s.power.pf = .stopping → ∃ t, exec .hamperAcceptanceClose s = .next t ∧ t.power.pf = .closed ∧ t.accs = [])
    ∧ (s.power.pf = .closed → ∃ t, exec .hamperDrained s = .next t ∧ t.power.pf = .drained ∧ t.hamp = []
        ∧ (s.Inv → t.Inv ∧ ∀ k, keyIsScm k = true → (∀ e ∈ s.hamp, (e.bytes.map Prod.fst).Nodup) → Memory.get t.mem k = s.byte k))
    ∧ (s.power.pf = .drained → ∃ t, exec .sealRecordWrite s = .next t ∧ t.power.pf = .sealed ∧ ∀ stack, stack < 6 → stack ∈ t.rsv.seals)
    ∧ (s.power.pf = .sealed → s.power.holdup.toNat ≤ 24 ∨ s.boot.st ≠ .ready → ∃ t, exec .level2Save s = .next t ∧ t.power.pf = .halted)
    ∧ (s.power.pf = .sealed → 24 < s.power.holdup.toNat → s.boot.st = .ready → ∃ t, exec .level2Save s = .next t
        ∧ t.power.pf = .level2 ∧ t.power.l2 = [] ∧ t.power.l2left = (s.power.holdup.toNat - 24) * 1600000000 / 450 - 80000000)
    ∧ (s.power.pf = .level2 → s.l2Next = none → ∃ t, exec .level2Save s = .next t ∧ t.power.pf = .halted)
    ∧ (s.power.pf = .level2 → ∀ c, s.l2Next = some c → ∃ t, exec .level2Save s = .next t ∧ (t.power.pf = .halted
        ∨ ∃ e, t.power.l2 = s.power.l2 ++ [e] ∧ e.ctx = c))

/-! ### Host registers, board interface, quotes (R26, R31, R69, R70, R108, R109, R122-R125) -/

/-- R26, R34, R69, R70, R102, R108-R110, R122-R125: a host write of 8 aligned bytes to BAR0 in READY reaches the register at its offset, and completes
Unsupported at an offset that is not defined; before READY only BOOTST and MBCTL are read and only MBCTL is written; an I3C write reaches
the board map, register after register of a longer one; ALERTST is cleared by ones, ALERT_N follows it, and an in-band interrupt goes out
when the enabled bits rise from none; PKGID is written while no context with an FJOB exists; an I3C read
answers the bytes from the offset pointer, which advances; the address, the event enable and the reset of I3C act on it alone. The board
reads and writes in every boot state but OFF. What an I3C reset gives back (assumption 56), and that other offsets are Unsupported and
reads are answered as writes are (assumption 80), are the model's reading.

R31, R109, R124, R125: GO with a nonce of 32 to 64 bytes on a mailbox that is not busy makes it busy and starts the shared quote engine, or
waits for it; any other GO sets ERR. QUOTE_DONE writes the quote, 16,792 bytes over nonce, serial, record, image, version and
floor with both signatures, sets DONE and LEN, and starts the mailbox that waits. An I3C quote's end sets ALERTST.QDONE; that a GO
refused there sets it too, and that the nonce is read at QUOTE_DONE, are the model's reading (assumption 57). -/
def Obligations.HostRegistersAndQuotes : Prop :=
  (∀ (s : State) (v u : BitVec 64) (off n : Nat) (a : BitVec 7) (on : Bool) (id : BitVec 9),
     let host := fun off => Instr.registerWrite .host off 8 v.toNat
     let board := fun off => Instr.registerWrite .i3c off 8 v.toNat
     s.hostLoad 0 8 = some (BitVec.ofNat 64 s.boot.word)
     ∧ (s.boot.st ≠ .ready → ∀ size, s.hostLoad off size ≠ none → size = 8 ∧ (off = 0 ∨ off = 0x4000))
     ∧ (s.boot.st = .ready → n < 512 → s.hostLoad (0x1000 + 8 * n) 8 = some (BitVec.ofNat 64 (s.peer n).word))
     ∧ (s.host.width ≠ 0 → s.boot.st ≠ .off → s.boot.st ≠ .ready → off ≠ 0x4000 → exec (host off) s = .next (s.emit (.unsupported off)))
     ∧ (s.up = true →
       (s.host.width ≠ 0 →
         exec (host 0x100) s = exec (.pkgidWrite (v.setWidth 9)) s
         ∧ (n < 512 → ∃ t, exec (host (0x1000 + 8 * n)) s = .next t ∧ (t.peer n).v = v.getLsbD 0 ∧ (t.peer n).sport = v.extractLsb' 1 9
             ∧ (t.peer n).st = v.extractLsb' 10 2 ∧ (t.peer n).planes = (s.peer n).planes ∧ ∀ m, m ≠ n → t.peer m = s.peer m)
         ∧ (n < 64 → n < s.ctxs.length → ∃ t, exec (host (0x10000 + 32 * n)) s = .next t ∧ (t.ctx n).base = v)
         ∧ (off % 8 ≠ 0 → exec (host off) s = .next (s.emit (.unsupported off)))
         ∧ exec (host 0x300000) s = .next (s.emit (.unsupported 0x300000))
         ∧ (n < 4096 → ∃ t, exec (host (0x8000 + 8 * n)) s = .next t ∧ (Memory.wf s.host.mb.data = true →
             ∀ i, i < 8 → Memory.get t.host.mb.data (8 * n + i) = (leBytes 8 v.toNat).getD i 0)))
       ∧ ((∀ x ∈ s.ctxs, x.st = .free ∨ x.desc.fjob = 0) → ∃ t, exec (.pkgidWrite id) s = .next t ∧ t.fab.pkgid = id)
       ∧ ((∃ x ∈ s.ctxs, x.st ≠ .free ∧ x.desc.fjob ≠ 0) → exec (.pkgidWrite id) s = .next s))
     ∧ (s.boot.st ≠ .off →
       (∃ t, exec (board 0x0010) s = .next t ∧ t.host.alerten = v.setWidth 9
           ∧ t.alertN = decide (s.host.alertst &&& v.setWidth 9 = 0)
           ∧ (s.host.ibiOn = true → s.host.alertst &&& s.host.alerten = 0 → s.host.alertst &&& v.setWidth 9 ≠ 0 →
               t.host.out = .ibi ((s.host.alertst &&& v.setWidth 9).setWidth 8) :: s.host.out))
       ∧ (∃ t, exec (board 0x0158) s = .next t ∧ t.power.holdup = v.setWidth 16)
       ∧ (∃ t, exec (board 0x0160) s = .next t ∧ t.power.icclim = v.setWidth 24)
       ∧ (∃ t, exec (board 0x0168) s = .next t ∧ t.power.oreqcfg = v.setWidth 13)
       ∧ (∃ t, exec (board 0x0008) s = .next t ∧ t.host.alertst = s.host.alertst &&& ~~~(v.setWidth 9))
       ∧ (∃ t, exec (.registerWrite .i3c 0x0008 16 (u ++ v).toNat) s = .next t
           ∧ t.host.alertst = s.host.alertst &&& ~~~(v.setWidth 9) ∧ t.host.alerten = u.setWidth 9 ∧ t.host.i3cOff = 0x18)
       ∧ (∃ t, exec (.alertClear v) s = .next t ∧ t.host.alertst = s.host.alertst &&& ~~~(v.setWidth 9) ∧ t.host.alerten = s.host.alerten)
       ∧ (∃ t, exec (.i3cPrivateRead n) s = .next t ∧ t.host.i3cOff = (s.host.i3cOff + n) % 2 ^ 16
           ∧ t.host.out = .i3cData ((List.range n).map fun i => s.i3cByte ((s.host.i3cOff + i) % 2 ^ 16)) :: s.host.out))
     ∧ exec (.i3cDynamicAddressAssignment a) s = .next { s with host := { s.host with i3cAddr := a } }
     ∧ exec (.i3cEventEnable on) s = .next { s with host := { s.host with ibiOn := on } }
     ∧ exec .i3cReset s = .next { s with host := { s.host with i3cAddr := 0x4A, ibiOn := false, i3cOff := 0 } })
  ∧ (∀ s : State, s.up = true →
       let len := fun m : Mailbox => ofLeBytes (m.bytes 0 2)
       let good := fun m : Mailbox => m.busy = false ∧ 32 ≤ len m ∧ len m ≤ 64
       (good s.host.mb → s.host.quote = none → ∃ t, exec .quoteGo s = .next t ∧ t.host.mb.busy = true ∧ t.host.quote = some 0)
       ∧ (good s.host.mb → s.host.quote = some 1 → ∃ t, exec .quoteGo s = .next t ∧ t.host.mb.busy = true
           ∧ t.host.quote = some 1 ∧ t.host.quoteWait = some 0)
       ∧ (¬ good s.host.mb → ∃ t, exec .quoteGo s = .next t ∧ t.host.mb.err = true ∧ t.host.quote = s.host.quote)
       ∧ (good s.host.imb → s.host.quote = none → ∃ t, exec .imbQuoteGo s = .next t ∧ t.host.imb.busy = true ∧ t.host.quote = some 1)
       ∧ (¬ good s.host.imb → ∃ t, exec .imbQuoteGo s = .next t ∧ t.host.imb.err = true ∧ t.host.alertst.getLsbD 2 = true)
       ∧ ∀ i, s.host.quote = some i → i < 2 → ∃ t, exec .quoteDone s = .next t ∧
           let m := s.host.box i
           let q := s.quoteBytes (m.bytes 8 (len m))
           (t.host.box i).busy = false ∧ (t.host.box i).done = true ∧ (t.host.box i).len = 16792 ∧ t.host.quote = s.host.quoteWait
           ∧ q.length = 16792 ∧ (i = 1 → t.host.alertst.getLsbD 2 = true)
           ∧ (Memory.wf m.data = true → ∀ j, j < 16792 → Memory.get (t.host.box i).data j = q.getD j 0))

/-! ### Command queues (R112-R120, R492) -/

/-- R113, R114, R115, R118, R120, R492: a doorbell of a live context's enabled queue sets the write index, and one that is refused sets the error code 8, 7 or
6; ERR is cleared by ones, and an empty ERR restarts a stopped queue; a fetch moves RI on, writes it to RIADDR, and takes the record, or stops the
queue with FAULT 3, BADOP 1 or BADFIELD 2; a command with a field out of range fails with BADFIELD; a fault queue's read index
moves unless it would pass the write index. That BADOP comes at the fetch and BADFIELD at the start (assumption 16), and which accesses of
host memory fault (assumption 90), are the model's choices.

R51, R54, R55, R115, R116, R117, R118, R127, R141, R271: a started command's effect. LAUNCH enters the launch of a valid record; COPY makes its transfer, and a
finished one completes or fails with FAULT; SIGNAL completes; WAITV completes when its condition holds and stays when not, at its start and at each
retest; MAP and UNMAP drop the translations of their range, and complete once what used them has; PHASE lets the variant selector of its
pipeline act; RESUME issues again what it names. A completion writes or adds its word and raises its interrupt; a record or word that faults is error 3.
The retest of WAITV (assumption 17), what MAP and UNMAP wait for (assumption 18), and which accesses of host memory fault (assumption 90)
are the model's choices. -/
def Obligations.CommandQueuesAndCommands : Prop :=
  ((∀ (s : State) (c q : Nat) (w : W32) (v : BitVec 8), s.up = true → c < 64 → q < 64 →
     let x := s.queue c q
     let room := (w - x.qwi).toNat + (x.qwi - x.ri).toNat ≤ 2 ^ x.qlog
     let err := fun (i : Instr) (e : BitVec 8) => s.Does i fun t => (t.queue c q).err = e ∧ (t.queue c q).qwi = x.qwi
     ((s.ctx c).live = true → x.en = true → w ≠ x.qwi → room → s.Does (.doorbell c q w) fun t =>
         (t.queue c q).qwi = w ∧ (t.queue c q).ri = x.ri ∧ (t.queue c q).err = x.err)
     ∧ ((s.ctx c).live = false → x.st ≠ 3 → err (.doorbell c q w) 8)
     ∧ ((s.ctx c).live = true → x.en = false → x.st ≠ 3 → err (.doorbell c q w) 7)
     ∧ ((s.ctx c).live = true → x.en = true → w ≠ x.qwi → ¬ room → x.st ≠ 3 → err (.doorbell c q w) 6)
     ∧ (s.Does (.errClear c q v) fun t => (t.queue c q).err = x.err &&& ~~~v ∧ (x.st = 3 → x.err &&& ~~~v = 0 → (t.queue c q).st ≠ 3)
         ∧ (x.st = 3 → x.err &&& ~~~v ≠ 0 → (t.queue c q).st = 3))
     ∧ (s.canFetch c q = true → s.Does (.recordFetch c q) fun t =>
         let y := t.queue c q
         y.ri = x.ri + 1 ∧ (s.Inv → s.hostOk x.riaddr.toNat 4 = true → t.nat (hostKey x.riaddr.toNat) 4 = (x.ri + 1).toNat)
         ∧ (s.nextRecord c x = none → t.Stopped c q 3)
         ∧ ∀ bs, s.nextRecord c x = some bs →
             let k := Cmd.ofBytes s.nextId bs
             (k.badOp = true → t.Stopped c q 1) ∧ (k.badOp = false → recordRsv bs = true → t.Stopped c q 2)
             ∧ (k.badOp = false → recordRsv bs = false → y.fetched = [k]))
     ∧ (s.ctxs.length = 64 → let y := s.ctx c
        ((w - y.fqri).toNat ≤ (y.fqwi - y.fqri).toNat → s.Does (.fqReadIndex c w) fun t => (t.ctx c).fqri = w)
        ∧ ((y.fqwi - y.fqri).toNat < (w - y.fqri).toNat → exec (.fqReadIndex c w) s = .next s)))
   ∧ ∀ (s : State) (c q : Nat) (k : Cmd) (rest : List Cmd) (i : Instr),
       s.up = true → (s.ctx c).st = .running → (s.queue c q).startable = true → (s.queue c q).fetched = k :: rest →
       k.badField = true → (∀ j ∈ (s.queue c q).running, s.mapDone j = false) → s.copyDone c q = none →
       (k.op, k.sub, i) ∈ [(7, 0, Instr.ctxCreate c q), (7, 1, .ctxDestroy c q), (7, 2, .ctxPreempt c q), (7, 3, .ctxResume c q),
         (9, 0, .stepLoad c q), (9, 1, .stepStart c q), (9, 2, .stepStop c q), (10, 0, .snapDefineRegion c q),
         (10, 1, .snapReleaseRegion c q), (10, 2, .snapAwaitStep c q), (11, 0, .mendDeclareGroup c q)]
         ∨ (k.op, i) ∈ [(1, Instr.launch c q), (2, .copy c q), (3, .signal c q), (4, .waitv c q), (5, .map c q), (6, .unmap c q),
           (8, .phase c q), (12, .resume c q)] →
       s.Does i fun t => t.Stopped c q 2 ∧ t.Gone c q k)
  ∧ ((∀ (s : State) (c q op : Nat) (k : Cmd) (rest : List Cmd), s.Starts c q op k rest →
       let u := s.begun c q k rest
       let va := BitVec.ofNat 64 (k.fld 0x18 8)
       let ends := fun (i : Instr) (post : State → Prop) => s.Does i fun t => t.Gone c q k ∧ post t
       let holds := fun x : W64 =>
         if k.fld 0x28 8 = 0 then k.fld 0x20 8 ≤ x.toNat else if k.fld 0x28 8 = 1 then x.toNat = k.fld 0x20 8 else x.toNat ≠ k.fld 0x20 8
       let dropped := fun t : State => ∀ e ∈ t.tlb, e.ctx = c → leafGlobal e.leaf = false →
         e.base + e.size ≤ k.fld 0x18 8 ∨ k.fld 0x18 8 + k.fld 0x20 8 ≤ e.base
       let remaps := fun i : Instr => (∀ j ∈ (s.queue c q).running, s.mapDone j = false) →
         (u.rangeUsers c k = [] → ends i fun t => s.holds = [] → k.sigaddr = 0 → dropped t)
         ∧ (u.rangeUsers c k ≠ [] → s.Does i fun t => dropped t
             ∧ ∃ j ∈ (t.queue c q).running, j.id = k.id ∧ j.pend = u.rangeUsers c k)
       (op = 1 → s.Does (.launch c q) fun t =>
         (u.vaRead c va 64 = none → t.Stopped c q 3)
         ∧ ∀ bs, u.vaRead c va 64 = some bs →
             ((u.noteRead c va 64).recordOk c (LaunchRec.ofBytes bs) = false → t.Stopped c q 2)
             ∧ ((u.noteRead c va 64).recordOk c (LaunchRec.ofBytes bs) = true → ∃ l, t.launches = s.launches ++ [l] ∧ l.ctx = c
                 ∧ l.lrec = LaunchRec.ofBytes bs ∧ l.lva = va ∧ l.serial = (s.ctx c).nextSerial ∧ l.cmd = some (c, q, k.id) ∧ l.die = none
                 ∧ l.nextTeam = 0 ∧ (t.ctx c).nextSerial = (s.ctx c).nextSerial + 1))
       ∧ (op = 2 → s.copyDone c q = none → s.Does (.copy c q) fun t => ∃ e, t.cmds = s.cmds ++ [e] ∧ e.isCopy = true ∧ e.ctx = c
           ∧ e.desc.take 4 = [va, BitVec.ofNat 64 (k.fld 0x20 8), BitVec.ofNat 64 (k.fld 0x28 8), BitVec.ofNat 64 (k.fld 0x30 8)])
       ∧ (op = 3 → ends (.signal c q) fun t =>
           (k.sigaddr = 0 → s.SameMemory t ∧ t.host.out = if bitOf k.flags 1 then .msix (s.queue c q).qvec :: s.host.out else s.host.out)
           ∧ (k.sigaddr ≠ 0 → bitOf k.flags 3 = false →
               (s.hostOk k.sigaddr.toNat 8 = false → t.Stopped c q 3)
               ∧ (s.hostOk k.sigaddr.toNat 8 = true → s.Inv → t.nat (hostKey k.sigaddr.toNat) 8
                   = if bitOf k.flags 2 then k.sigval.toNat else (s.nat (hostKey k.sigaddr.toNat) 8 + k.sigval.toNat) % 2 ^ 64)))
       ∧ (op = 4 → isFabric va = false → s.Does (.waitv c q) fun t =>
           (u.vaWord c va = none → t.Stopped c q 3 ∧ t.Gone c q k)
           ∧ ∀ x, u.vaWord c va = some x → (holds x → t.Gone c q k) ∧ (¬ holds x → t = u.noteRead c va 8))
       ∧ (op = 4 → isFabric va = true → s.Does (.waitv c q) fun t =>
           (u.fabErr c (peerOf va) (lineOf va) ≠ none → (∀ j ∈ s.fab.packets, j.use ≠ .waitv c q k.id) → t.Stopped c q 3 ∧ t.Gone c q k)
           ∧ (u.fabErr c (peerOf va) (lineOf va) = none → (∀ j ∈ s.fab.packets, j.use ≠ .waitv c q k.id) →
               ∃ j, t.fab.packets = s.fab.packets ++ [j] ∧ j.use = .waitv c q k.id ∧ j.op = .read ∧ j.tier = 0 ∧ j.peer = peerOf va
                 ∧ j.line = lineOf va ∧ j.sent = decide (peerOf va = s.fab.pkgid.toNat)))
       ∧ (op = 5 → remaps (.map c q)) ∧ (op = 6 → remaps (.unmap c q))
       ∧ (op = 8 → ends (.phase c q) fun t => ∀ p ∈ s.pipes, p.ctx = c → p.va = va → p.started = true →
           ∃ p' ∈ t.pipes, p'.id = p.id ∧ p'.variant = p.select.variant ∧ ∀ b ∈ p'.busy, b = 0)
       ∧ (op = 12 → ends (.resume c q) fun t => ∀ a ∈ s.accs, a.ctx = c → a.parked = true →
           (bitOf (k.fld 0x18 2) 0 = true ∨ (a.core = k.fld 0x1A 2 ∧ a.slot = k.fld 0x1C 1)) →
           ∃ b ∈ t.accs, b.id = a.id ∧ ∀ l ∈ b.lanes, l.replaying = false)
       ∧ (∀ e, s.copyDone c q = some e → s.Does (.copy c q) fun t => (∀ d ∈ t.cmds, d.id ≠ e.id)
           ∧ (e.status ≠ 0 → (∃ j ∈ (s.queue c q).running, j.id = e.fld 5 0 64) → t.Stopped c q 3)
           ∧ ∀ j ∈ (t.queue c q).running, j.id ≠ e.fld 5 0 64))
     ∧ ∀ (s : State) (c q : Nat) (k : Cmd), s.up = true → (s.ctx c).st = .running → (s.queue c q).running = [k] →
       let va := BitVec.ofNat 64 (k.fld 0x18 8)
       (k.op = 4 → isFabric va = false → s.vaWord c va = none → s.Does (.waitvRetest c q) fun t => t.Stopped c q 3 ∧ t.Gone c q k)
       ∧ (k.op = 4 → isFabric va = true → (∃ j ∈ s.fab.packets, j.use = .waitv c q k.id) → exec (.waitvRetest c q) s = .next s)
       ∧ (k.op = 4 → isFabric va = false → ∀ x, s.vaWord c va = some x →
           (condHolds (k.fld 0x28 8) (k.fld 0x20 8) x.toNat = true → s.Does (.waitvRetest c q) fun t => t.Gone c q k)
           ∧ (condHolds (k.fld 0x28 8) (k.fld 0x20 8) x.toNat = false → exec (.waitvRetest c q) s = .next (s.noteRead c va 8)))
       ∧ (k.op = 5 → s.mapDone k = true → s.Does (.map c q) fun t => t.Gone c q k)
       ∧ (k.op = 6 → s.mapDone k = true → s.Does (.unmap c q) fun t => t.Gone c q k))

/-! ### Contexts (R110-R112, R118, R119, R145-R148, R289, R298) -/

/-- R110, R111, R112, R118, R119, R146, R148, R298: the CTX commands of a context with ADMIN. Create reads the descriptor of a free context, which
runs; destroy starts the teardown: every weft's exit is injected and the queues are off; pre-empt marks every weft; resume reads the
descriptor again and needs every seal. A target in another state stops the queue with 8 or 9, a bad descriptor or a target
that is not free with 5, a descriptor that cannot be read with 3, and no ADMIN with 4; LASTERR of the target holds the code. The indices of 0
at create (assumption 14), a destroy that waits for a teardown (assumption 15), and the level 2 save taken at create (assumption 21)
are the model's reading.

R110, R145, R146, R148, R289, R290, R294, R295: CONTEXT0_CREATE makes context 0 once, or sets its LASTERR; a save that nothing holds
back empties the context's slots and keeps every weft for the resume; a resume whose slots and ranges are free puts every weft
back, running; the end of a teardown frees the context; a slice expiry pre-empts the context whose highest LPRIO is lowest, the highest number
on a tie, of those with a resident team of lower LPRIO than the launch that waits; the deadline of a masked weft is the fatal PREEMPT. -/
def Obligations.ContextCommandsAndSteps : Prop :=
  (∀ (s : State) (c q : Nat) (k : Cmd) (rest : List Cmd), s.Starts c q 7 k rest → s.ctxs.length = 64 →
     let u := s.begun c q k rest
     let t := k.fld 0x1C 4
     let x := s.ctx t
     let fails := fun (i : Instr) (code : Nat) => s.Does i fun v =>
       v.Stopped c q code ∧ v.Gone c q k ∧ (v.ctx t).lasterr = BitVec.ofNat 8 code ∧ (v.ctx t).st = x.st
     let waits := fun v : State => (v.ctx t).waiters = x.waiters ++ [(c, q, k.id)]
     ((s.ctx c).desc.admin = false → ∀ i, (k.sub, i) ∈ [(0, Instr.ctxCreate c q), (1, .ctxDestroy c q), (2, .ctxPreempt c q),
         (3, .ctxResume c q)] → fails i 4)
     ∧ ((s.ctx c).desc.admin = true →
       (k.sub = 0 → x.st ≠ .free → fails (.ctxCreate c q) 5)
       ∧ (k.sub = 0 → x.st = .free → ∀ e, s.readDesc t = .inl e → (e = 3 ∨ e = 5) ∧ fails (.ctxCreate c q) e)
       ∧ (k.sub = 0 → x.st = .free → ∀ d, s.readDesc t = .inr d → s.Does (.ctxCreate c q) fun v =>
           v.Gone c q k ∧ (v.ctx t).st = (if (s.l2Of t).isSome then .resuming else .running) ∧ (v.ctx t).desc = d
           ∧ (v.ctx t).base = x.base ∧ ∀ j, j < 64 → (v.queue t j).qwi = 0 ∧ (v.queue t j).ri = 0
               ∧ (v.queue t j).qlog = num (s.bytes (hostKey (d.qtab.toNat + 32 * j)) 32) 0x08 1
               ∧ (v.queue t j).en = bitOf (num (s.bytes (hostKey (d.qtab.toNat + 32 * j)) 32) 0x0A 1) 0)
       ∧ (k.sub = 1 → x.st = .free → fails (.ctxDestroy c q) 8)
       ∧ (k.sub = 1 → x.st ≠ .free → s.Does (.ctxDestroy c q) fun v => waits v ∧ (v.ctx t).st = .tearing
           ∧ (x.st ≠ .tearing → (∀ w ∈ v.wefts, w.ctx = t → w.injected = true) ∧ (∀ a ∈ v.accs, a.ctx ≠ t)
               ∧ (∀ j, (v.queue t j).en = false ∧ (v.queue t j).running = []) ∧ v.itin.bound ≠ some t))
       ∧ (k.sub = 2 → x.st = .free → fails (.ctxPreempt c q) 8)
       ∧ (k.sub = 2 → x.st ≠ .free → x.st ≠ .running → fails (.ctxPreempt c q) 9)
       ∧ (k.sub = 2 → x.st = .running → (∀ h ∈ s.holds, h.ctx ≠ t) → s.Does (.ctxPreempt c q) fun v => waits v ∧ (v.ctx t).st = .preempting
           ∧ (v.ctx t).reason = .command ∧ (v.ctx t).devpre = x.devpre
           ∧ ∀ w ∈ v.wefts, w.ctx = t → w.exited = false → w.preempt = true)
       ∧ (k.sub = 3 → x.st = .free → fails (.ctxResume c q) 8)
       ∧ (k.sub = 3 → x.st ≠ .free → x.st ≠ .preempted → fails (.ctxResume c q) 9)
       ∧ (k.sub = 3 → x.st = .preempted → ∀ e, s.readDesc t = .inl e → fails (.ctxResume c q) e)
       ∧ (k.sub = 3 → x.st = .preempted → ∀ d z, s.readDesc t = .inr d → x.saved = some z →
           let r := (u.setCtx t { x with desc := d }).loadQueues t d id
           (r.sealsHold t z = false → s.Does (.ctxResume c q) fun v =>
             v.Stopped c q 9 ∧ v.Gone c q k ∧ (v.ctx t).st = .preempted ∧ (v.ctx t).lasterr = 9)
           ∧ (r.sealsHold t z = true → s.Does (.ctxResume c q) fun v => waits v ∧ (v.ctx t).st = .resuming ∧ (v.ctx t).desc = d
               ∧ (v.ctx t).saved = some z ∧ v.agenda = s.agenda ++ [.preemptAutoResume t]))))
  ∧ (∀ (s : State) (c : Nat), s.up = true → s.ctxs.length = 64 → c < 64 →
       let x := s.ctx c
       let does := s.Does
       let held := fun v : Nat => ∃ h ∈ s.holds, h.ctx = v
       ((s.ctx 0).st = .free → (∀ d, s.readDesc 0 = .inr d → s.l2Of 0 = none → does .context0Create fun t =>
             (t.ctx 0).st = .running ∧ (t.ctx 0).desc = d)
           ∧ ∀ e, s.readDesc 0 = .inl e → does .context0Create fun t => (t.ctx 0).st = .free ∧ (t.ctx 0).lasterr = BitVec.ofNat 8 e)
       ∧ ((s.ctx 0).st ≠ .free → exec .context0Create s = .next s)
       ∧ ((s.drainFor c).canSave c = true → does (.contextSave c) fun t => (t.ctx c).st = .preempted ∧ (t.ctx c).waiters = []
           ∧ (∀ w ∈ t.wefts, w.ctx ≠ c) ∧ (∀ m ∈ t.teams, m.ctx ≠ c) ∧ (∀ a ∈ t.allocs, a.ctx = c → a.live = false)
           ∧ ∃ z, (t.ctx c).saved = some z ∧ z.wefts = (s.drainFor c).wefts.filter fun w => w.ctx == c && !w.exited)
       ∧ ((x.st = .resuming ∨ (x.st = .preempted ∧ x.reason = .slice)) → ∀ z, x.saved = some z → s.roomFor z.wefts = true →
           z.allocs = [] → does (.preemptAutoResume c) fun t => (t.ctx c).st = .running ∧ (t.ctx c).devpre = false
             ∧ (t.ctx c).saved = none ∧ t.wefts = s.wefts ++ z.wefts.map fun (w : Weft) => w.restore (s.debug == some c) s.nextId)
       ∧ ((x.st = .resuming ∨ (x.st = .preempted ∧ x.reason = .slice)) → s.restore c = none →
           exec (.preemptAutoResume c) s = .next s)
       ∧ (x.st = .tearing → s.ctxQuiet c = true → does (.teardownComplete c) fun t => (t.ctx c).st = .free ∧ (t.ctx c).handles = []
           ∧ (t.ctx c).waiters = [] ∧ (∀ w ∈ t.wefts, w.ctx ≠ c) ∧ (∀ l ∈ t.launches, l.ctx ≠ c) ∧ ∀ p ∈ t.pipes, p.ctx ≠ c)
       ∧ (∀ n l, s.launch? c n = some l → s.waiting l = true →
           let high := fun v => (s.residentPrios v).foldl max 0
           let cand := fun v => v < 64 ∧ v ≠ c ∧ (s.ctx v).st = .running ∧ ∃ p ∈ s.residentPrios v, p < l.lrec.lprio
           (∀ v, cand v → ¬ held v → (∀ y, cand y → high v < high y ∨ (high v = high y ∧ y ≤ v)) →
             does (.timeSliceExpiry c n) fun t => (t.ctx v).st = .preempting ∧ (t.ctx v).reason = .slice)
           ∧ ((∀ v, ¬ cand v) → does (.timeSliceExpiry c n) fun t => t.ctxs = s.ctxs ∧ t.wefts = s.wefts))
       ∧ (∀ core slot w, s.weft? core slot = some w → w.ctx = c → w.deadlineRuns = true → x.st ≠ .free → x.st ≠ .tearing →
           (x.desc.deadline ≤ w.preemptAge → does (.pdlExpiry core slot) fun t => (t.ctx c).st = .tearing ∧ (t.ctx c).lasterr = 0x8F
             ∧ ∀ v ∈ t.wefts, v.ctx = c → v.injected = true)
           ∧ (w.preemptAge < x.desc.deadline → exec (.pdlExpiry core slot) s = .next s)))

/-! ### Placement and retirement (R128, R129, R132-R140) -/

/-- R128, R129, R132, R133, R136, R138, R140: a dispatcher places the next team of the launch of highest LPRIO that fits its die, on the fitting core with
the most free slots: consecutive partitions, each weft at ENTRY with all lanes, s0 PARAM and s1 the record's address, registers
zero. A pipeline starts when each stage's minimum of cores can be reserved. A team retires when its work is done; the last
one completes the launch and its command. -/
def Obligations.PlacementSteps : Prop :=
  ∀ s : State, s.up = true →
    (∀ die l core, die < 4 → s.nextPlacement die = some (l, core) →
      (s.waiting l = true ∧ l ∈ s.launches ∧ dieOf core = die ∧ s.fits l core = true)
      ∧ (∀ m ∈ s.launches, s.waiting m = true → (s.chooseCore m die).isSome → m.lrec.lprio ≤ l.lrec.lprio)
      ∧ (∀ d ∈ dieCores die, s.fits l d = true → (s.freeSlots d).foldl (· + ·) 0 ≤ (s.freeSlots core).foldl (· + ·) 0)
      ∧ s.Does (.teamPlace die) fun t => ∃ m ws, t.teams = s.teams ++ [m] ∧ t.wefts = s.wefts ++ ws
          ∧ m.ctx = l.ctx ∧ m.serial = l.serial ∧ m.idx = l.nextTeam ∧ m.core = core ∧ m.nweft = l.lrec.wpt ∧ ws.length = l.lrec.wpt
          ∧ (∀ i w, ws[i]? = some w → w.core = core ∧ w.ctx = l.ctx ∧ w.team = m.id ∧ w.wid = i ∧ w.pc = l.lrec.entry
              ∧ w.em = allLanes ∧ w.dm = 0 ∧ w.tm = false ∧ w.execRole = decide (l.lrec.nacc ≤ i)
              ∧ w.slot / 8 = (firstPart (s.withKept.freeRegsOf core) + i) % 8 ∧ w.seed = (s.ctx l.ctx).desc.seed
              ∧ (w.sreg 0).val = l.lrec.param ∧ (w.sreg 1).val = l.lva ∧ (∀ j, 2 ≤ j → (w.sreg j).val = 0)
              ∧ w.vregs = List.replicate (l.lrec.regsOf i) VReg.zero)
          ∧ t.launch? l.ctx l.serial = some { l with nextTeam := l.nextTeam + 1, placed := l.placed + 1, waited := 0 })
    ∧ (∀ die, s.nextPlacement die = none → exec (.teamPlace die) s = .next s)
    ∧ (∀ c va p, (s.ctx c).st = .running → (s.pipes.find? fun p => p.ctx == c && p.va == va && !p.started && p.whole) = some p →
        p.queueBytes = 0 →
        (∀ cs, s.reserveStages p (List.range p.nstage) [] = some cs → s.Does (.pipelineStart c va) fun t =>
          ∃ r ∈ t.pipes, r.id = p.id ∧ r.started = true ∧ r.cores = cs ∧ (cs.map Prod.fst).Nodup
            ∧ ∀ j, j < p.nstage → (cs.filter fun e => e.2 == j).length = (p.vmin.getD p.variant []).getD j 0)
        ∧ (s.reserveStages p (List.range p.nstage) [] = none → exec (.pipelineStart c va) s = .next s))
    ∧ ∀ id m, s.team? id = some m → (s.ctx m.ctx).st ≠ .tearing → s.teamDone m = true → s.Does (.teamRetire id) fun t =>
        t.team? id = none ∧ (∀ w ∈ t.wefts, w.team ≠ id)
        ∧ ∀ l, s.launch? m.ctx m.serial = some l →
            (l.retired + 1 < l.lrec.total → t.launch? m.ctx m.serial = some { l with retired := l.retired + 1 })
            ∧ (l.lrec.total ≤ l.retired + 1 → t.launch? m.ctx m.serial = none
                ∧ ∀ c q n, l.cmd = some (c, q, n) → ∀ j ∈ (t.queue c q).running, j.id ≠ n)

/-! ### The itinerary (R150-R168, R181) -/

/-- R150, R151, R154, R165, R166: STEP load reads header and entries of an aligned table and binds them, counters 0, unless an itinerary of the device is in the way
(BADFIELD); a rule of R151 or R154 that fails leaves STATE 3, ERR 5 and the entry. STEP start of a loaded table that is stopped runs it
from entry 0 with the step counter written and a new stash. STEP stop with no task and no task launch ends at once, with a task when
the tasks have ended; it outlives a load. That a load that fails binds its table and writes the status block (assumption 35), what a stop
under an error does (assumption 43), that a load clears only the counters (assumption 72), and that any context starts what is loaded
(assumption 107) are the model's reading.

R155, R156, R158-R161, R163-R168, R181: the sequencer's own steps. A dispatch takes the head, or with W-fill a later W entry, when what it waits for has
come: it takes its credits, stash and record, and a warm launch or a new one; a stash, kernel or record error leaves STATE 3
with the entry undispatched; that the record is judged before anything is taken is the model's reading (assumption 41). SYNC waits for its
token from above and sends one down, or at the tail sets its own; it waits for the one from below and sends one up; a token that
cannot be sent is the error LINK. STEPEND is sent once
drained, a die acknowledges it when its stores and commands of the step have ended, and the fourth acknowledgement advances
the step on every die. A stall is counted and reported once. -/
def Obligations.ItineraryCommandsAndSteps : Prop :=
  (∀ (s : State) (c q : Nat) (k : Cmd) (rest : List Cmd), s.Starts c q 9 k rest →
     let u := s.begun c q k rest
     let t := s.itin
     let va := BitVec.ofNat 64 (k.fld 0x20 8)
     let n := k.fld 0x28 4
     let m := k.fld 0x2C 4
     let fails := fun (i : Instr) (code : Nat) => s.Does i fun v => v.Stopped c q code ∧ v.Gone c q k ∧ v.itin = t
     let other := s.stepElse c = true
     (k.sub = 0 →
       (other ∨ t.st = 1 ∨ t.st = 2 ∨ (t.st = 3 ∧ t.tasks ≠ []) ∨ va.toNat % 1024 ≠ 0 ∨ inScm va = true ∨ isFabric va = true →
         fails (.stepLoad c q) 2)
       ∧ (¬ other → (t.st = 0 ∨ (t.st = 3 ∧ t.tasks = [])) → hbmAligned va 1024 = true → 1 ≤ n → n ≤ 1024 →
         ((u.vaRead c va 1024 = none ∨ u.vaRead c (va + 0x400) (16 * n) = none) → fails (.stepLoad c q) 3)
         ∧ ∀ h es, u.vaRead c va 1024 = some h → u.vaRead c (va + 0x400) (16 * n) = some es →
           let b := t.bind c h (entriesOf es n)
           let bad := fun e : Nat => s.Does (.stepLoad c q) fun v => v.Stopped c q 2 ∧ v.Gone c q k ∧ v.itin.loaded = false
             ∧ v.itin.st = 3 ∧ v.itin.err = 5 ∧ v.itin.errEntry = e ∧ .msix (num h 0x0E 1) ∈ v.host.out
           (b.headerOk = false → bad 0xFFFF)
           ∧ (b.headerOk = true → ∀ e, b.badEntry = some e → bad e ∧ e < n)
           ∧ (b.headerOk = true → b.badEntry = none → s.Does (.stepLoad c q) fun v => v.Gone c q k ∧ v.itin.bound = some c
               ∧ v.itin.loaded = true ∧ v.itin.st = 0 ∧ v.itin.header = h ∧ v.itin.entries.length = n
               ∧ v.itin.counters = List.replicate 8 0 ∧ v.itin.dispatched = t.dispatched ∧ v.itin.upd = t.upd ∧ v.itin.stopper = t.stopper)))
     ∧ (k.sub = 1 →
       (t.loaded = false ∨ t.st ≠ 0 ∨ t.tasks ≠ [] → fails (.stepStart c q) 2)
       ∧ (t.loaded = true → t.st = 0 → t.tasks = [] → s.Does (.stepStart c q) fun v =>
           v.Gone c q k ∧ v.itin.st = 1 ∧ v.itin.err = 0 ∧ v.itin.head = 0 ∧ v.stepCtr = BitVec.ofNat 64 m
           ∧ (∀ d ∈ v.dieStep, d = BitVec.ofNat 64 m) ∧ v.itin.stash = List.replicate t.nstash none
           ∧ v.itin.resA = 0 ∧ v.itin.resG = 0 ∧ v.itin.consA = 0 ∧ v.itin.consG = 0 ∧ v.itin.syncs = 0))
     ∧ (k.sub = 2 → t.stopper = none →
       (other → fails (.stepStop c q) 2)
       ∧ (¬ other → t.bound = none ∨ t.st = 0 ∨ t.st = 3 → s.Does (.stepStop c q) fun v => v.Gone c q k ∧ v.itin = t)
       ∧ (¬ other → t.bound = some c → t.st = 1 ∨ t.st = 2 →
         (t.tasks = [] → (∀ l ∈ s.launches, l.itn = none) → s.Does (.stepStop c q) fun v =>
             v.Gone c q k ∧ v.itin.st = 0 ∧ v.itin.stopper = none ∧ v.itin.upd = t.upd + 1)
         ∧ (t.tasks ≠ [] → s.Does (.stepStop c q) fun v =>
             v.itin.stopper = some (c, q, k.id) ∧ v.dispatching = false ∧ exec .itineraryDispatch v = .next v))))
  ∧ (∀ s : State,
       let t := s.itin
       let n := t.syncs + 1
       let quiet := s.dispatching = true ∧ t.tasks = []
       let stays := fun i : Instr => exec i s = .next s
       (∀ c i, t.bound = some c → t.nextEntry = some i → s.dispatching = true →
         let e := t.entries.getD i (0, 0)
         let fails := fun code : Nat => s.Does .itineraryDispatch fun v =>
           v.itin.st = 3 ∧ v.itin.err = code ∧ v.itin.errEntry = i ∧ v.itin.head = t.head ∧ v.itin.tasks = t.tasks
         (i = t.head ∨ (t.wfill = true ∧ entKind e = 2 ∧ t.head < i ∧ i ∉ t.ahead)) ∧ entKind e < 3 ∧ t.tasks.length < t.maxrun
         ∧ (entNua e = true → t.aarr.getD (t.consA % t.naslot) 0 = BitVec.ofNat 64 (t.consA + 1))
         ∧ (entNdg e = true → t.garr.getD (t.consG % t.ngslot) 0 = BitVec.ofNat 64 (t.consG + 1))
         ∧ (entOut e ≠ 0 → (entOut e : Int) ≤ t.credit (entKind e))
         ∧ (entStop e = 1 → (t.stashOf (entMb e)).isSome → fails 1)
         ∧ (entStop e = 2 → t.stashOf (entMb e) = none → fails 2)
         ∧ ∀ mine st, t.stashStep e = .ok (mine, st) →
           let warm := s.warmOf (entKidx e)
           let z := if warm.isSome then s else s.noteRead c (t.ktab (entKidx e)) 64
           (warm = none → s.kernelRec c (entKidx e) = none → fails 3)
           ∧ ((warm.isSome ∨ (s.kernelRec c (entKidx e)).isSome) →
               z.vaWrite c (z.taskVa t.freeRecord) (z.taskRecord i e mine) = none → fails 6)
           ∧ ∀ s1, z.vaWrite c (z.taskVa t.freeRecord) (z.taskRecord i e mine) = some s1 →
               let goes := fun (serial : Nat) (post : State → Prop) => s.Does .itineraryDispatch fun v => post v
                 ∧ (∃ x, v.itin.tasks = t.tasks ++ [x] ∧ x.slot = t.freeRecord ∧ x.entry = i ∧ x.mb = entMb e ∧ x.serial = serial
                     ∧ x.nout = entOut e ∧ x.resBase = (if entKind e = 0 then t.resA else t.resG))
                 ∧ v.itin.stash = st ∧ v.itin.dispatched = t.dispatched + 1
                 ∧ v.itin.consA = t.consA + (if entNua e then 1 else 0) ∧ v.itin.consG = t.consG + (if entNdg e then 1 else 0)
                 ∧ v.itin.resA = t.resA + (if entKind e = 0 then entOut e else 0)
                 ∧ v.itin.resG = t.resG + (if entKind e = 1 then entOut e else 0)
                 ∧ (i = t.head → t.head < v.itin.head) ∧ (i ≠ t.head → v.itin.head = t.head ∧ v.itin.ahead = t.ahead ++ [i])
               (∀ l, warm = some l → goes l.serial fun v => v.launches.length = s.launches.length)
               ∧ (warm = none → ∀ r, s.kernelRec c (entKidx e) = some r → goes (s.ctx c).nextSerial fun v =>
                   v.launches.length = s.launches.length + 1))
       ∧ (quiet → entKind t.headEntry = 3 →
         (t.syncPhase = 0 → t.hasUp = true → t.syncf.toNat < n → stays .sync)
         ∧ (t.syncPhase = 0 → t.hasUp = false → t.hasDown = false → s.Does .sync fun v =>
             v.itin.syncPhase = 1 ∧ v.itin.syncb = BitVec.ofNat 64 n ∧ v.itin.head = t.head)
         ∧ (t.syncPhase = 0 → (t.hasUp = true → n ≤ t.syncf.toNat) → t.hasDown = true →
           let ea := fabricVa t.dpeer (t.dnctlva + 0x410)
           (s.fabErr (t.bound.getD 0) t.dpeer (lineOf ea) = none → s.Does .sync fun v =>
             v.itin.syncPhase = 1 ∧ v.itin.head = t.head ∧ v.itin.st = t.st ∧ v.SendsWord t.dpeer ea n)
           ∧ ((s.fabErr (t.bound.getD 0) t.dpeer (lineOf ea)).isSome = true → s.Does .sync fun v => v.itin.st = 3 ∧ v.itin.err = 4))
         ∧ (t.syncPhase = 0 → t.hasUp = true → n ≤ t.syncf.toNat → t.hasDown = false → s.Does .sync fun v =>
             v.itin.syncPhase = 1 ∧ v.itin.syncb = BitVec.ofNat 64 n ∧ v.itin.head = t.head)
         ∧ (t.syncPhase ≠ 0 → t.syncb.toNat < n → stays .sync)
         ∧ (t.syncPhase ≠ 0 → n ≤ t.syncb.toNat → t.hasUp = false → s.Does .sync fun v =>
             v.itin.syncs = n ∧ v.itin.syncPhase = 0 ∧ t.head < v.itin.head)
         ∧ (t.syncPhase ≠ 0 → n ≤ t.syncb.toNat → t.hasUp = true →
           let ea := fabricVa t.upeer (t.upctlva + 0x418)
           (s.fabErr (t.bound.getD 0) t.upeer (lineOf ea) = none → s.Does .sync fun v =>
             v.itin.syncs = n ∧ v.itin.syncPhase = 0 ∧ t.head < v.itin.head ∧ v.itin.st = t.st ∧ v.SendsWord t.upeer ea n)
           ∧ ((s.fabErr (t.bound.getD 0) t.upeer (lineOf ea)).isSome = true → s.Does .sync fun v => v.itin.st = 3 ∧ v.itin.err = 4)))
       ∧ (quiet → entKind t.headEntry = 4 → t.stepSent = false →
           exec .stepend s = .next { s with itin := { t with stepSent := true, acks := [], stalled := false } })
       ∧ ((s.dispatching = false ∨ t.tasks ≠ []) → stays .sync ∧ stays .stepend)
       ∧ (∀ die, die < 4 → s.itinRuns = true → t.stepSent = true → die ∉ t.acks →
         (s.mayAck die s.stepCtr.toNat = true →
           (∀ a ∈ s.accs, dieOf a.core = die → a.kind.writes = true → a.step ≤ s.stepCtr.toNat → ∀ l ∈ a.lanes, l.closed = true)
           ∧ (∀ k ∈ s.cmds, dieOf k.core = die → s.stepCtr.toNat < k.step)
           ∧ (t.acks.length < 3 → exec (.stependAck die) s = .next { s with itin := { t with acks := t.acks ++ [die], stalled := false } })
           ∧ (t.acks.length = 3 → s.Does (.stependAck die) fun v => v.stepCtr = s.stepCtr + 1 ∧ (∀ d ∈ v.dieStep, d = s.stepCtr + 1)
               ∧ v.itin.head = 0 ∧ v.itin.stepSent = false ∧ v.itin.acks = [] ∧ v.itin.upd = t.upd + 1
               ∧ s.stepCtr.toNat ≤ v.snap.acked))
         ∧ (s.mayAck die s.stepCtr.toNat = false → stays (.stependAck die)))
       ∧ (∀ c, s.itinRuns = true → t.bound = some c →
         (∀ bs, s.vaRead c (BitVec.ofNat 64 t.ctlva) 0x420 = some bs → s.Does .controlBlockReread fun v =>
           v.itin.aarr = wordsOf bs 0 64 ∧ v.itin.garr = wordsOf bs 0x200 64 ∧ v.itin.dnfreed = BitVec.ofNat 64 (num bs 0x400 8)
           ∧ v.itin.upfreed = BitVec.ofNat 64 (num bs 0x408 8) ∧ v.itin.syncf = BitVec.ofNat 64 (num bs 0x410 8)
           ∧ v.itin.syncb = BitVec.ofNat 64 (num bs 0x418 8) ∧ v.itin.head = t.head ∧ v.itin.tasks = t.tasks)
         ∧ (s.vaRead c (BitVec.ofNat 64 t.ctlva) 0x420 = none → stays .controlBlockReread))
       ∧ (s.itinRuns = true → t.counters.length = 8 → t.stalled = false → s.Does .stallReport fun v =>
           v.itin.counters[7]? = (t.counters[7]?).map (· + 1) ∧ v.itin.upd = t.upd + 1 ∧ v.itin.st = 1 ∧ v.itin.stalled = true
           ∧ .msix t.hvec ∈ v.host.out)
       ∧ (t.stalled = true → stays .stallReport))

/-! ### Snapshots and mending (R174-R195) -/

/-- R174-R176, R182, R184, R185, R191: SNAP SUB 0 arms or extends a region with a pool when region, pool descriptor and pool keep their rules, else
BADFIELD, or FAULT for a descriptor that cannot be read; SUB 1 sends the newest frames home and disarms, never under a group;
SUB 2 completes once M has reached its step. A step that all dies acknowledged commits when no hamper holds a write of it; with no
group M follows, and the awaits up to it end. Which entries of a hamper hold a commit back (assumption 46), and that M follows on a
declared spare too (assumption 47), are the model's reading. -/
def Obligations.SnapshotSteps : Prop :=
  (∀ (s : State) (c q : Nat) (k : Cmd) (rest : List Cmd), s.Starts c q 10 k rest →
    let u := s.begun c q k rest
    let rn := k.fld 0x1C 1
    let va := k.fld 0x20 8
    let len := k.fld 0x28 8
    let pd := BitVec.ofNat 64 (k.fld 0x30 8)
    let fails := fun (i : Instr) (code : Nat) => s.Does i fun v => v.Stopped c q code ∧ v.Gone c q k ∧ v.snap = s.snap
    (k.sub = 0 →
      (s.regionOk c rn va len = false ∨ hbmAligned pd 64 = false → fails (.snapDefineRegion c q) 2)
      ∧ (s.regionOk c rn va len = true → hbmAligned pd 64 = true →
        (u.vaRead c pd 64 = none → fails (.snapDefineRegion c q) 3)
        ∧ ∀ bs, u.vaRead c pd 64 = some bs →
          let pva := num bs 0 8
          let plen := num bs 8 8
          let good := snapRange pva plen = true ∧ num bs 16 48 = 0 ∧ s.poolClear pva plen (va, len) = true
          (¬ good → fails (.snapDefineRegion c q) 2)
          ∧ (good → s.Does (.snapDefineRegion c q) fun v => v.Gone c q k
              ∧ ∃ r ∈ v.snap.regions, r.num = rn ∧ r.ctx = c ∧ r.va = va ∧ r.len = len ∧ (pva, plen) ∈ r.pools)))
    ∧ (k.sub = 1 →
      let held := ∃ r ∈ s.snap.regions, r.num = rn ∧ r.ctx = c
      (¬ held ∨ s.snap.group.isSome → fails (.snapReleaseRegion c q) 2)
      ∧ (held → s.snap.group = none → s.Does (.snapReleaseRegion c q) fun v => v.Gone c q k
          ∧ (∀ r ∈ v.snap.regions, r.num ≠ rn) ∧ (∀ x ∈ v.snap.units, x.region ≠ rn)
          ∧ (k.sigaddr = 0 → ∀ r ∈ s.snap.regions, r.num ≠ rn → r ∈ v.snap.regions)))
    ∧ (k.sub = 2 →
      (k.fld 0x30 8 ≤ s.snap.m → s.Does (.snapAwaitStep c q) fun v => v.Gone c q k)
      ∧ (s.snap.m < k.fld 0x30 8 → s.Does (.snapAwaitStep c q) fun v =>
          v.snap.awaits = s.snap.awaits ++ [(c, q, k.id, k.fld 0x30 8)] ∧ k ∈ (v.queue c q).running)))
  ∧ ∀ s : State, s.up = true →
    let n := s.snap.acked
    (s.snap.c < n → s.hampHolds n = false →
      (s.isMember = false → s.Does .stepCommit fun v => v.snap.c = n ∧ v.snap.m = n ∧ ∀ a ∈ v.snap.awaits, n < a.2.2.2)
      ∧ (s.isMember = true → s.Does .stepCommit fun v => v.snap.c = n ∧ v.snap.m = s.snap.m))
    ∧ ((n ≤ s.snap.c ∨ s.hampHolds n = true) → exec .stepCommit s = .next s)

/-- R186, R187, R190-R195, R197, R199: a declaration that keeps its rules makes a member declare (STATE 1) or a spare wait; a member encodes a committed step
once, and sends its DONE when every delta of it has been accepted; DONE from every member makes a committed step mend-persistent, or ends the
declaration; a heartbeat goes to every other member, and a member that has missed HBMISS of them is lost; the loss of a member halts the
group, drops what lies above M and leaves the group degraded, or lost beyond m; a rebuild starts on a survivor for a lost member when a
spare is up, or on the spare, which takes the member's place, and ends once the spare holds every unit; backfill ends
with every landing copy home; a rollback halts a member's group. When DONE(0) counts (assumption 48), the refusals and states of a rebuild
(assumption 49), what a halt and a rollback drop (assumption 50), and the count of missed heartbeats (assumption 105) are the model's
choices. -/
def Obligations.MendSteps : Prop :=
  (∀ (s : State) (c q : Nat) (k : Cmd) (rest : List Cmd), s.Starts c q 11 k rest →
    let u := s.begun c q k rest
    let va := BitVec.ofNat 64 (k.fld 0x20 8)
    let f := k.fld 0x28 8
    let fails := fun (i : Instr) (code : Nat) => s.Does i fun v => v.Stopped c q code ∧ v.Gone c q k
    (k.sub = 0 →
      (hbmAligned va 256 = false → fails (.mendDeclareGroup c q) 2)
      ∧ (hbmAligned va 256 = true → u.vaRead c va 256 = none → fails (.mendDeclareGroup c q) 3)
      ∧ (hbmAligned va 256 = true → ∀ bs, u.vaRead c va 256 = some bs →
        let g := Group.ofBytes (k.fld 0x1C 1) (k.fld 0x1D 1) s.fab.pkgid.toNat bs
        let good := s.groupOk c g = true ∧ g.fieldsOk bs = true
        (¬ good → fails (.mendDeclareGroup c q) 2)
        ∧ (good → g.has s.fab.pkgid.toNat = false → s.Does (.mendDeclareGroup c q) fun v =>
            v.Gone c q k ∧ v.snap.group = some { g with spare := true } ∧ v.snap.st = 0)
        ∧ (good → g.has s.fab.pkgid.toNat = true → s.Does (.mendDeclareGroup c q) fun v =>
            v.snap.group = some g ∧ ((v.snap.st = 1 ∧ v.snap.mender = some (c, q, k.id))
              ∨ (v.snap.st = 2 ∧ v.snap.c = 0 ∧ v.snap.m = 0 ∧ v.snap.mender = none)))))
    ∧ (k.sub = 1 → f ≠ 2 ^ 64 - 1 →
      (s.snap.group = none → fails (.mendRebuild c q f false) 2)
      ∧ ∀ g d, s.snap.group = some g → s.snapCtx = some d →
        (g.spare = true → g.has f = false → fails (.mendRebuild c q f false) 2)
        ∧ (g.spare = true → g.has f = true → s.Does (.mendRebuild c q f false) fun v => v.fab.pkgid = BitVec.ofNat 9 f
            ∧ v.snap.st = 4 ∧ v.snap.failed = f ∧ v.snap.group = some { g with spare := false, me := f } ∧ v.snap.mender = some (c, q, k.id))
        ∧ (g.spare = false → f ∉ s.snap.lost ∨ s.spareUp g = none → fails (.mendRebuild c q f false) 2)
        ∧ (g.spare = false → f ∈ s.snap.lost → ∀ e, s.spareUp g = some e → s.Does (.mendRebuild c q f false) fun v =>
            v.snap.st = 4 ∧ v.snap.failed = f ∧ v.snap.mender = some (c, q, k.id) ∧ (v.peer f).st = 0 ∧ (v.peer f).sport = e.sport))
    ∧ (k.sub = 1 → f = 2 ^ 64 - 1 →
      (s.isMember = false → fails (.mendGroupRollback c q) 2)
      ∧ (s.isMember = true → ∀ d, s.snapCtx = some d → s.Does (.mendGroupRollback c q) fun v => v.Gone c q k
          ∧ v.snap.c = s.snap.m ∧ (∀ w ∈ v.wefts, w.ctx = d → w.exited = true ∨ w.injected = true)
          ∧ (k.sigaddr = 0 → (∀ g, s.snap.group = some g → s.MendApart g) → ∀ x ∈ v.snap.units, ∀ y ∈ x.frames, y.tag ≤ s.snap.m))))
  ∧ ∀ (s : State) (g : Group) (d : Nat), s.up = true → s.snap.group = some g → s.snapCtx = some d →
    let p := s.snap
    let me := g.me
    let others := (g.members.take g.g).filter fun x => x != me && (!p.lost.contains x || (p.st == 4 && x == p.failed))
    let sends := fun (t : State) (n : Nat) => ∃ k ∈ t.fab.packets, k.use = .delta n
    (g.spare = false → (p.st = 2 ∨ p.st = 5) → p.m < p.c → (me, p.c) ∉ p.dones →
      (p.c ∉ p.encoded → s.Does .encodeStep fun v => p.c ∈ v.snap.encoded ∧ v.snap.c = p.c
        ∧ ((me, p.c) ∈ v.snap.dones → ¬ sends v p.c) ∧ ((me, p.c) ∉ v.snap.dones → v.snap.m = p.m))
      ∧ (p.c ∈ p.encoded → sends s p.c → exec .encodeStep s = .next s)
      ∧ (p.c ∈ p.encoded → ¬ sends s p.c → s.Does .encodeStep fun v => (me, p.c) ∈ v.snap.dones
        ∧ v.snap.m = (if ∀ x ∈ g.members.take g.g, x = me ∨ (x, p.c) ∈ p.dones then p.c else p.m)
        ∧ ∀ x ∈ g.members.take g.g, x ≠ me → .doneMsg x p.c ∈ v.host.out))
    ∧ (∀ peer n job, g.spare = false → g.has peer = true →
        ((peer, n) ∈ p.dones ∨ s.jobCtx job ≠ some d → exec (.doneMessage peer n job) s = .next s)
        ∧ ((peer, n) ∉ p.dones → s.jobCtx job = some d → (n = 0 → p.st = 1) → s.Does (.doneMessage peer n job) fun v =>
            let all := ∀ x ∈ g.members.take g.g, x = peer ∨ (x, n) ∈ p.dones
            (n ≠ 0 → v.snap.dones = (peer, n) :: p.dones ∧ v.snap.m = if all ∧ p.m < n ∧ n ≤ p.c then n else p.m)
            ∧ (n = 0 → all → v.snap.st = 2 ∧ v.snap.c = 0 ∧ v.snap.m = 0 ∧ v.snap.mender = none)
            ∧ (n = 0 → ¬ all → v.snap.st = 1)))
    ∧ (g.spare = false → p.st ≠ 0 → p.st ≠ 6 → (g.members.take g.g).Nodup → s.Does .heartbeatSend fun v => v.snap.beat = 0
        ∧ ∀ x ∈ others, (s.fabErr d x 0 = none → ∃ k ∈ v.fab.packets, k.peer = x ∧ k.use = .heartbeat ∧ k.tier = 0)
          ∧ (p.missed.lookup x = none → v.snap.missed.lookup x = some 0)
          ∧ ∀ n, p.missed.lookup x = some n → v.snap.missed.lookup x = some (n + 1) ∧ (g.hbmiss ≤ n + 1 → .memberLoss x ∈ v.agenda))
    ∧ (∀ peer, g.spare = false → g.has peer = true → peer ≠ me → peer ∉ p.lost → p.st ≠ 0 → p.st ≠ 6 →
        (p.st = 1 → s.Does (.memberLoss peer) fun v => v.snap.st = 6 ∧ v.snap.mender = none ∧ ∀ x ∈ v.snap.dones, x.2 ≠ 0)
        ∧ (p.st ≠ 1 → s.Does (.memberLoss peer) fun v => v.snap.lost = p.lost ++ [peer]
            ∧ v.snap.st = (if g.m < p.lost.length + 1 then 6 else if p.st = 4 then 4 else 3)
            ∧ v.snap.c = p.m ∧ v.snap.m = p.m ∧ (v.peer peer).st = 1
            ∧ (∀ w ∈ v.wefts, w.ctx = d → w.exited = true ∨ w.injected = true) ∧ (∀ l ∈ v.launches, l.ctx ≠ d)
            ∧ (p.mender = none → s.MendApart g → ∀ x ∈ v.snap.units, ∀ y ∈ x.frames, y.tag ≤ p.m)
            ∧ (s.itin.st ≤ 3 → v.itin.st = 0 ∨ v.itin.st = 3) ∧ v.itin.tasks = []))
    ∧ (∀ c q id, p.mender = some (c, q, id) → p.st = 4 →
        (s.rebuilt g = false → exec (.mendRebuild c q p.failed true) s = .next s)
        ∧ (s.rebuilt g = true → p.failed ≠ me → s.Does (.mendRebuild c q p.failed true) fun v => v.snap.lost = p.lost.filter (· ≠ p.failed)
          ∧ v.snap.st = (if v.snap.lost = [] then 2 else 3) ∧ v.snap.mender = none ∧ ∀ j ∈ (v.queue c q).running, j.id ≠ id)
        ∧ ((∀ x ∈ s.wanted g, p.holdsUnit x = true) → p.failed = me → s.Does (.mendRebuild c q p.failed true) fun v =>
          v.snap.c = p.version ∧ v.snap.m = p.version ∧ v.snap.st = 5 ∧ v.snap.mender = none))
    ∧ (s.Does .backfillComplete fun v => v.snap.st = (if p.st = 5 then 2 else p.st) ∧ ∀ x ∈ v.snap.units, x.landing = none)

/-! ### The fabric (R39, R67-R84, R125, R288, R490, R491) -/

/-- R39, R71, R72, R76, R77, R83, R192: a request of a weft or engine of a peer is answered NOBIND with no context of its job, FENCED from a
peer that the mending sequence has fenced, PAGE while the context is
torn down, else by the translation of its local address; a read answers the granules it asks for, and a write changes those bytes
it carries; an atomic that returns no value is answered without one; the answer enters the response VC of the plane it came on and is kept, and a resent request gets it again and is not performed
twice. Own requests are answered to the package's own core. A heartbeat is answered NOBIND with no context of its job and FENCED after a
fence; else the member has been heard of. That NOBIND comes before FENCED, that a torn down context answers PAGE, and the duplicate filter
are the model's reading (assumption 51).

R76, R78, R79, R83, R84, R167, R190: an answer takes its packet off: an engine's command keeps the line; an itinerary atomic that failed is the error LINK;
a parity delta that was accepted lets the encoding go on, and any other is sent again;
the lanes of a read that were sent in it hold the line's bytes and are performed; an answer that belongs to no packet on its way, and a timeout
with it, changes nothing; a timeout is the answer TIMEOUT. A buffered line that has had no write for 1,024 cycles leaves as a write request.
That a control atomic that failed is LINK of the entry at the head (assumption 52), and how the age of a line is counted (assumption 65),
are the model's reading. -/
def Obligations.FabricRequestsAndAnswers : Prop :=
  (∀ (s : State) (r : FabReq), s.serving = true →
     let shows := fun (t : State) (x : FabResult) =>
       if r.src = s.fab.pkgid.toNat then .fabricResponse r.seq x ∈ t.agenda
       else s.fab.up.getLsbD r.plane = true →
         ∃ z ∈ t.fab.resps, z.peer = r.src ∧ z.seq = r.seq ∧ z.plane = r.plane ∧ z.tier = r.tier ∧ z.res = x
     let answers := fun (x : FabResult) (post : State → Prop) => s.Does (.fabricRequest r) fun t =>
       shows t x ∧ (r.src, r.seq, x) ∈ t.fab.dup ∧ post t
     let fresh := (∀ d ∈ s.fab.dup, ¬(d.1 = r.src ∧ d.2.1 = r.seq)) ∧ ∀ i ∈ s.agenda, r.behind i = false
     let access := r.op = .read ∨ r.op = .fetch ∨ r.op = .write ∨ r.op = .sigSet ∨ ∃ m ret, r.op = .atomic m ret
     (∀ d, (s.fab.dup.find? fun d => d.1 == r.src && d.2.1 == r.seq) = some d →
       s.Does (.fabricRequest r) fun t => shows t d.2.2 ∧ t.mem = s.mem ∧ t.hamp = s.hamp ∧ t.fab.dup = s.fab.dup)
     ∧ (fresh → access ∨ r.op = .heartbeat → s.jobCtx r.fjob = none → answers .noBind fun t => t.mem = s.mem)
     ∧ (fresh → r.op = .heartbeat → ∀ c, s.jobCtx r.fjob = some c →
       let fenced := r.src ∈ s.snap.lost ∧ (s.peer r.src).st = 1 ∧ s.snapCtx = some c
       (fenced → answers .fenced fun t => t.snap.missed = s.snap.missed)
       ∧ (¬ fenced → answers (.ok []) fun t => t.snap.missed.lookup r.src = none))
     ∧ (fresh → access → ∀ c, s.jobCtx r.fjob = some c →
       let fenced := r.src ∈ s.snap.lost ∧ (s.peer r.src).st = 1 ∧ s.snapCtx = some c
       ((s.ctx c).desc.fjob = r.fjob ∧ r.fjob ≠ 0 ∧ (s.ctx c).st ≠ .free)
       ∧ (fenced → answers .fenced fun t => t.mem = s.mem)
       ∧ (¬ fenced → (s.ctx c).st = .tearing → answers .page fun t => t.mem = s.mem)
       ∧ (¬ fenced → (s.ctx c).st ≠ .tearing →
         let tr := s.reqTranslate c r (s.reqSteps r)
         (r.src ≠ s.fab.pkgid.toNat → tr = s.translate c r.va r.asks s.stepCtr.toNat)
         ∧ (tr.1 = .page → answers .page fun t => t.mem = s.mem) ∧ (tr.1 = .prot → answers .prot fun t => t.mem = s.mem)
         ∧ (∀ v, tr.1 = .notPres v → answers (.notPres v) fun t => t.mem = s.mem)
         ∧ (tr.1 = .poolEmpty → answers .poolEmpty fun _ => True)
         ∧ ∀ k cbf, tr.1 = .ok k cbf →
           (r.op = .read ∨ r.op = .fetch → tr.2.rpoisoned k 128 = false →
             answers (.ok ((List.range 128).map fun i => if r.gm.getLsbD (i / 16) then tr.2.rbyte (k + i) else 0)) fun t => t.mem = s.mem)
           ∧ (r.op = .read ∨ r.op = .fetch → tr.2.rpoisoned k 128 = true → answers .softErr fun t => t.mem = s.mem)
           ∧ (∀ m, r.op = .atomic m false → tr.2.accepts k = true → tr.2.rpoisoned k 128 = false → answers (.ok []) fun _ => True)
           ∧ (∀ m ret, r.op = .atomic m ret → tr.2.accepts k = true → tr.2.rpoisoned k 128 = true → answers .softErr fun t => t.mem = s.mem)
           ∧ (r.op = .write → tr.2.accepts k = true → tr.2.Inv → (r.bytes.map Prod.fst).Nodup → k + 128 ≤ 2 ^ 66 →
               (∀ b ∈ r.bytes, b.1 < 128) →
               answers (.ok []) fun t => t.Inv ∧ (∀ b ∈ r.bytes, t.byte (k + b.1) = b.2)
                 ∧ tr.2.SameBut t (r.bytes.map fun b => (k + b.1, b.2))))))
  ∧ (∀ (s : State) (pid : Nat) (r : FabResult), s.up = true →
       let left := fun t : State => ∀ k ∈ t.fab.packets, k.pid ≠ pid
       exec (.fabricTimeout pid) s = exec (.fabricResponse pid .timeout) s
       ∧ ((∀ k ∈ s.fab.packets, k.pid ≠ pid ∨ k.sent = false) → exec (.fabricResponse pid r) s = .next s)
       ∧ (∀ k, (s.fab.packets.find? fun k => k.pid == pid) = some k → k.sent = true →
         (∀ e c, k.use = .engine e → s.cmd? e = some c → s.Does (.fabricResponse pid r) fun t => left t
           ∧ t.cmd? e = some { c with got := c.got ++ [(k.peer * 2 ^ 47 + k.line, r)], pids := c.pids.filter (· ≠ pid) })
         ∧ (∀ slot, k.use = .itin slot →
           (∀ bs, r = .ok bs → s.Does (.fabricResponse pid r) fun t => left t ∧ t.itin = s.itin ∧ t.wefts = s.wefts)
           ∧ ((∀ bs, r ≠ .ok bs) → s.itin.st = 1 → slot = none → s.Does (.fabricResponse pid r) fun t => left t
               ∧ t.itin.st = 3 ∧ t.itin.err = 4 ∧ t.itin.errEntry = s.itin.head ∧ t.wefts = s.wefts))
         ∧ (∀ n, k.use = .delta n →
           (∀ bs, r = .ok bs → s.Does (.fabricResponse pid r) fun t => left t ∧ t.agenda = s.agenda ++ [.encodeStep])
           ∧ ((∀ bs, r ≠ .ok bs) → s.Does (.fabricResponse pid r) fun t => ∃ x ∈ t.fab.packets, x.pid = pid ∧ x.sent = false ∧ x.bytes = k.bytes))
         ∧ (∀ bs a, k.use = .access → k.op = .read → k.accs.head? = some a.id → s.acc? a.id = some a → a.kind = .load →
           r = .ok bs → bs.length = 128 → s.fab.comb = [] → s.fab.packets = [k] → (∀ b ∈ s.accs, b.kind ≠ .store) →
           (∀ l ∈ a.lanes, l.ea.toNat % a.size = 0 ∧ l.ea.toNat % 128 + a.size ≤ 128 ∧ l.swap = 0) →
           ∃ (b : Access) (u : State), b.id = a.id ∧ b.lanes.length = a.lanes.length ∧ u.accs = s.accs.map (fun x => if x.id = a.id then b else x)
             ∧ u.fab.packets = [] ∧ u.mem = s.mem ∧ u.wefts = s.wefts
             ∧ (∀ (i : Nat) (l : LaneAcc), a.lanes[i]? = some l → (l.st = .sent pid →
                   b.lanes[i]? = some { l with data := ofLeBytes ((bs.drop (l.ea.toNat % 128)).take a.size), st := .done })
                 ∧ (l.st ≠ .sent pid → b.lanes[i]? = some l))
             ∧ exec (.fabricResponse pid r) s = .next (u.progress a.id)))
       ∧ ∀ core i e, (s.fab.comb.filter fun e => e.core == core)[i]? = some e →
           (e.age < 1024 → exec (.combineIdleFlush core i) s = .next s)
           ∧ (1024 ≤ e.age → s.fabErr e.ctx e.peer e.line = none → s.Does (.combineIdleFlush core i) fun t =>
             e ∉ t.fab.comb ∧ ∃ p, t.fab.packets = s.fab.packets ++ [p] ∧ p.pid = s.nextId ∧ p.op = .write ∧ p.core = core
               ∧ p.peer = e.peer ∧ p.line = e.line ∧ p.bytes = e.bytes ∧ p.tier = (if e.nt then 1 else 0)
               ∧ s.planeOf e.peer e.line = some p.plane ∧ p.sport = (s.peer e.peer).sport)
           ∧ (1024 ≤ e.age → ∀ d, s.fabErr e.ctx e.peer e.line = some d → s.Does (.combineIdleFlush core i) fun t =>
             e ∉ t.fab.comb ∧ t.fab.packets = s.fab.packets))

/-- R67, R69, R76, R80, R81, R84, R125, R288, R491: a plane that goes silent or whose port fails is down: an event of the board; a reachability report sets PLANES of
a peer; a trained link gives SPORT and brings its plane up, an event when it comes back; an ordinary slot of a port takes the answer before
the request, in the lowest tier that is ready; a tier that has starved takes a forced slot, T1 from 64 flits and T2 from 256, and
counts anew. A weft that may take an event traps at its group boundary with FABRIC and DETAIL, or with the cause and lanes of a
dropped store, and the event is spent. NXT and the pc reported for a weft that waits (assumption 54), one packet per port and cycle
(assumption 95), and what throttle step 2 holds (assumption 114) are the model's choices. -/
def Obligations.FabricEvents : Prop :=
  ∀ (s : State) (p peer : Nat) (planes : BitVec 36) (sport : BitVec 9),
    let alerted := fun t : State => t.host.alertst.getLsbD 8 = true
    let up := s.fab.up.getLsbD p
    let downs := fun i : Instr => (up = true → s.serving = true → s.Does i fun t =>
        alerted t ∧ t.fab.fell.getLsbD p = true ∧ t.fab.up.getLsbD p = false ∧ (∀ n, n ≠ p → t.fab.up.getLsbD n = s.fab.up.getLsbD n)
        ∧ ((∀ k ∈ s.fab.packets, k.plane ≠ p) → t.fab.packets = s.fab.packets))
      ∧ (up = false → exec i s = .next s)
    let one := fun t : State => t.host.out.length = s.host.out.length + 1
    (p < 36 → downs (.planeSilenceTimeout p) ∧ downs (.switchPortFailed p))
    ∧ (s.serving = true → peer < 512 → s.Does (.switchReachabilityReport peer planes) fun t =>
        (t.peer peer).planes = planes ∧ (t.peer peer).v = (s.peer peer).v ∧ (t.peer peer).sport = (s.peer peer).sport
        ∧ (t.peer peer).st = (s.peer peer).st)
    ∧ (s.boot.st ≠ .off → p < 36 → s.Does (.fabricLinkTrained p sport) fun t => t.fab.sport = sport ∧ t.fab.trained = true
        ∧ t.fab.up.getLsbD p = true ∧ (s.fab.fell.getLsbD p = true → alerted t) ∧ (s.fab.fell.getLsbD p = false → t.host.alertst = s.host.alertst))
    ∧ (s.forced p 1 = false → s.forced p 2 = false → ∀ tier, tier < 3 → (tier = 2 → s.power.t2off = false) →
        (∀ n, n < tier → s.respAt p n = none ∧ s.reqAt p n = none) →
        (∀ x, s.respAt p tier = some x → (s.sendPort p).host.out = .fabric x.peer x.seq x.plane x.res :: s.host.out)
        ∧ (s.respAt p tier = none → ∀ k, s.reqAt p tier = some k →
            ((s.sendPort p).host.out = .request (s.leaving k p).sport (s.asRequest (s.leaving k p)) :: s.host.out)
            ∧ (k.use.darns = false → s.leaving k p = { k with sent := true })))
    ∧ (∀ c, s.fab.starve[p]? = some c →
        let due := 64 ≤ c.1 ∧ s.tierReady p 1 = true
        (due → s.Does (.starvationForce p 1) fun t => one t ∧ ∃ d, t.fab.starve[p]? = some d ∧ d.1 = 0)
        ∧ (256 ≤ c.2 → s.tierReady p 2 = true → ¬ due →
            s.Does (.starvationForce p 2) fun t => one t ∧ ∃ d, t.fab.starve[p]? = some d ∧ d.2 = 0)
        ∧ (due ∨ c.2 < 256 ∨ s.power.t2off = true → exec (.starvationForce p 2) s = .next s))
    ∧ ∀ core slot w, s.weft? core slot = some w → s.up = true → s.eventFree w = true → ∀ rest,
        let traps := fun (i : Instr) (cause detail : Nat) (lanes : W64) => s.Does i fun t => ∃ v, t.weft? core slot = some v
          ∧ v.tcause = BitVec.ofNat 8 cause ∧ v.tmask = lanes ∧ v.tpc = w.pc ∧ v.tem = w.em ∧ v.tdm = w.dm ∧ v.em = allLanes
          ∧ v.tm = true ∧ v.pc = (s.ctx w.ctx).desc.tvec ∧ v.events = rest
          ∧ v.tinfo = BitVec.ofNat 64 (256 * detail + if w.inside then 0 else 16)
        (∀ d, w.events = .fabric d :: rest → traps (.fabricEvent core slot) 0x15 d 0)
        ∧ (∀ c m, w.events = .deferred c m :: rest → traps (.deferredFaultEvent core slot) c.code 0 m)

/-! ### Channels, hampers, soft errors (R52, R62-R64, R172, R284-R287, R329, R419) -/

/-- R52, R54, R226, R228, R248, R278, R281, R282, R409: what a channel's answer makes of an access of one lane. PAGE or PROT on a load is a precise trap
at its group: TMASK is the lane (or the mask of a scalar form) and the destination is full with its old value; NOTPRES first
reported parks a load's weft, while a store stays in the replay queue and its weft goes on. A lane that is accepted commits its group
and, performed, gives a load its value, extended, or writes a store's bytes and no other.

R62, R63, R64, R172, R329, R419: a `swait` that waits asks its word again; a sleep ends; the oldest entry of a hamper goes to its stack and no byte
reads otherwise; the scrubber takes an unpoisoned line on and at the end of a pass raises every region's version; a busy bank owes
up to eight refreshes, an idle one none, and an alert with eight owed pays them. A scrubber whose key rotation has stopped still goes
round, and changes no version. That an idle refresh pays all that a bank owes, and how the scrubber raises versions (assumptions 55, 88),
are the model's reading. -/
def Obligations.AccessAnswersAndChannelSteps : Prop :=
  (∀ (s : State) (a : Access) (l : LaneAcc) (w : Weft) (go : Bool), s.up = true →
     s.acc? a.id = some a → a.lanes = [l] → l.st = .waiting → isFabric l.ea = false → l.lane < 64 → a.settled = false →
     a.parked = false → a.replayed = false → a.acq = false → s.weft? a.core a.slot = some w → w.tm = false → w.pbars = [] →
     s.accs = [a] → a.heldBy = none →
     let ch := chanOf l.ea
     let tr := s.translate a.ctx l.ea a.kind.ask a.step
     let does := fun post : State → Weft → Prop => s.Does (.accessAnswer a.id ch go) fun t => ∃ v, t.weft? a.core a.slot = some v ∧ post t v
     let mine : W64 := if a.scalar then a.mask else BitVec.ofNat 64 (2 ^ l.lane)
     let traps := fun cause : Nat => does fun t v => v.tcause = BitVec.ofNat 8 cause ∧ v.tpc = w.pc ∧ v.tmask = mine ∧ v.tem = w.em
       ∧ v.em = allLanes ∧ v.tm = true ∧ v.pc = (s.ctx a.ctx).desc.tvec ∧ v.tinfo.getLsbD 3 = !a.scalar ∧ t.acc? a.id = none
       ∧ (∀ n, a.dst = .sreg n → n < w.sregs.length → (v.sreg n).full = true ∧ (v.sreg n).val = (w.sreg n).val)
     (w.ctx = a.ctx → a.kind = .load → (tr.1 = .page → traps 0x0A) ∧ (tr.1 = .prot → traps 0x0B))
     ∧ (∀ lv, tr.1 = .notPres lv → s.reported ch a.ctx (l.ea.toNat / 4096) = false → a.ctx < s.ctxs.length →
         (a.kind = .load → does fun t v => v.parked = some a.id ∧ v.pc = w.pc ∧ v.unsettled ≠ some a.id
           ∧ (t.ctx a.ctx).fqseq = (s.ctx a.ctx).fqseq + 1 ∧ ∃ b, t.acc? a.id = some b ∧ b.parked = true
             ∧ b.lanes = [{ l with st := .replay 1 lv }])
         ∧ (a.kind = .store → does fun t v => v.pc = a.next ∧ v.parked ≠ some a.id ∧ (t.ctx a.ctx).fqseq = (s.ctx a.ctx).fqseq + 1
           ∧ ∃ b ∈ t.accs, b.op = a.op ∧ b.parked = true ∧ b.lanes = [{ l with st := .replay 0 1 }]))
     ∧ ∀ k cbf, tr.1 = .ok k cbf → go = true →
         (a.kind = .load → tr.2.rpoisoned k a.size = false → does fun t v => v.pc = a.next ∧ t.acc? a.id = none ∧ t.mem = tr.2.mem
           ∧ ∀ n, a.dst = .sreg n → n < w.sregs.length →
               let x := tr.2.rnat k a.size
               v.sreg n = { val := if a.signExt then BitVec.ofInt 64 (signedOf (8 * a.size) x) else BitVec.ofNat 64 x,
                            full := true, pois := false })
         ∧ (a.kind = .store → tr.2.accepts k = true → tr.2.Inv → k < 2 ^ 66 → k + a.size ≤ 2 ^ 66 →
             does fun t v => v.pc = a.next ∧ t.acc? a.id = none ∧ t.Inv
               ∧ (∀ i, i < a.size → t.byte (k + i) = BitVec.ofNat 8 (l.data >>> (8 * i)))
               ∧ tr.2.SameBut t (cellsFrom k (leBytes a.size l.data))))
  ∧ (∀ (s : State) (core slot : Nat) (w : Weft), s.weft? core slot = some w →
       (s.up = true → w.waiting = some .swait → ∀ a, w.unsettled = some a.id → s.acc? a.id = some a → a.settled = true →
         s.Does (.swaitPoll core slot) fun t => t.weft? core slot = some { w with waiting := none }
           ∧ ∃ b, t.acc? a.id = some b ∧ b.settled = false ∧ (∀ l ∈ b.lanes, l.st = .waiting) ∧ b.lanes.length = a.lanes.length)
       ∧ (w.waiting ≠ some .swait → exec (.swaitPoll core slot) s = .next s)
       ∧ s.Does (.sleepExpiry core slot) (fun t => t.weft? core slot = some { w with sleep := 0 } ∧ s.OtherWefts t core slot)
       ∧ (∀ old e new, s.boot.st = .ready → s.power.pf ≠ .halted → s.hamp = old ++ e :: new → (∀ h ∈ old, h.stack ≠ e.stack) → s.Inv →
           (∀ h ∈ s.hamp, (h.bytes.map Prod.fst).Nodup ∧ ∀ c ∈ h.bytes, keyStack c.1 = h.stack ∧ keyIsScm c.1 = true) →
           s.Does (.hamperWriteback e.stack) fun t => t.hamp = old ++ new ∧ s.SameMemory t ∧ t.Inv
             ∧ ∀ c ∈ e.bytes, Memory.get t.mem c.1 = c.2)
       ∧ (∀ chan x, s.up = true → s.power.t2off = false → chan < 96 → s.scrub[chan]? = some x → x.stopped = false →
           s.poisoned (scmKey chan (128 * x.pos)) 128 = false → s.Does (.patrolScrub chan) fun t => ∃ y, t.scrub[chan]? = some y
             ∧ (x.pos + 1 < 2 ^ 28 → y.pos = x.pos + 1 ∧ y.vcur = x.vcur ∧ y.stopped = false)
             ∧ (2 ^ 28 ≤ x.pos + 1 → y.pos = 0 ∧ y.vcur = x.vcur.map (· + 1) ∧ y.oldest = x.oldest + 1 ∧ ∀ b ∈ y.boundary, b = 0)
             ∧ (∃ b, metaEntry (chan / 16) (.scrub y b) ∈ t.hamp) ∧ t.pois = s.pois
             ∧ (s.hampRoom (chan / 16) 1 = true ∨ s.Inv ∧ (∀ h ∈ s.hamp, (h.bytes.map Prod.fst).Nodup
                 ∧ ∀ c ∈ h.bytes, keyStack c.1 = h.stack ∧ keyIsScm c.1 = true) → s.SameMemory t))
       ∧ (∀ chan x, s.up = true → s.power.t2off = false → chan < 96 → s.scrub[chan]? = some x → x.stopped = true →
           s.Does (.patrolScrub chan) fun t => t.ctrs = s.ctrs ∧ t.pois = s.pois ∧ s.SameMemory t
             ∧ ∃ y, t.scrub[chan]? = some y ∧ y.vcur = x.vcur ∧ y.stopped = true ∧ y.pos = if x.pos + 1 < 2 ^ 28 then x.pos + 1 else 0)
       ∧ ∀ chan bank,
           s.Does (.hbmRefresh chan bank true) (fun t => t.owed chan bank = min 8 (s.owed chan bank + 1))
           ∧ s.Does (.hbmRefresh chan bank false) (fun t => t.owed chan bank = 0)
           ∧ s.Does (.alertBackoff chan bank) fun t => t.owed chan bank = if s.owed chan bank = 8 then 0 else s.owed chan bank)

/-- R54, R63, R236, R284, R286, R287, R290: an uncorrectable soft error poisons a register, a scratchpad word, a stage queue entry or a memory line; a corrected one is only logged; it empties an instruction cache;
makes a translation unit walk again; in a weft's control state, a queue or a control structure it is fatal to the context, with
LASTERR 0x92; in the in-flight state of a weft the region restarts and the weft traps with SOFTERR, REACH INFLIGHT, at the
region's entry; in a handler that is NESTED; in a command of an engine it ends that command, a COPY with FAULT, which is the model's
reading (assumption 60). -/
def Obligations.SoftErrors : Prop :=
  ∀ (s : State) (core slot n key : Nat) (w : Weft), s.up = true → s.weft? core slot = some w → w.exited = false →
    (s.ctx w.ctx).st ≠ .free → (s.ctx w.ctx).st ≠ .tearing →
    let does := fun p : SoftPlace => s.Does (.softError p)
    let fatal := fun (c : Nat) (code : BitVec 8) (t : State) => (t.ctx c).lasterr = code ∧ (t.ctx c).st = .tearing
      ∧ ∀ v ∈ t.wefts, v.ctx = c → v.injected = true
    (n < w.sregs.length → does (.sreg core slot n) fun t => ∃ v, t.weft? core slot = some v ∧ (v.sreg n).pois = true
        ∧ (v.sreg n).val = (w.sreg n).val ∧ ∀ m, m ≠ n → v.sreg m = w.sreg m)
    ∧ (n < w.vregs.length → does (.vreg core slot n) fun t => ∃ v, t.weft? core slot = some v ∧ (v.vreg n).pois = true
        ∧ (v.vreg n).val = (w.vreg n).val ∧ ∀ m, m ≠ n → v.vreg m = w.vreg m)
    ∧ does (.spad key) (fun t => t.poisoned key 1 = true ∧ s.SameMemory t)
    ∧ does (.line key) (fun t => t.poisoned key 1 = true ∧ s.SameMemory t)
    ∧ does (.stageQueue n core slot) (fun t => ∀ p ∈ t.pipes, p.id = n → slot < (p.queues.getD core []).length → (core, slot) ∈ p.qpois)
    ∧ (∀ place : List Nat, does (.corrected place) fun t => t = s.emit (.log "corrected: array" place))
    ∧ does (.icache core) (fun t => ∀ l ∈ t.icache, l.core ≠ core)
    ∧ (s.holds = [] → does (.translation n) fun t => (∀ e ∈ t.tlb, e.chan ≠ n) ∧ ∀ e ∈ t.wcache, e.chan ≠ n)
    ∧ does (.control core slot) (fatal w.ctx 0x92)
    ∧ does (.ctrl w.ctx) (fatal w.ctx 0x92) ∧ does (.tags [w.ctx]) (fatal w.ctx 0x92)
    ∧ (∀ m, s.team? n = some m → m.ctx = w.ctx → does (.queue n) (fatal w.ctx 0x92))
    ∧ (w.tm = true → does (.inflight core slot) (fatal w.ctx 0x97))
    ∧ (w.tm = false → does (.inflight core slot) fun t => ∃ v, t.weft? core slot = some v ∧ v.tcause = 0x12 ∧ v.tmask = 0
        ∧ v.tpc = w.rgnpc ∧ v.tem = w.rgnem ∧ v.tinfo = 0x50 ∧ v.tm = true ∧ v.pc = (s.ctx w.ctx).desc.tvec ∧ v.busy = []
        ∧ (∀ c, v.count c = 0) ∧ (∀ m, (v.sreg m).full = true ∧ (v.vreg m).full = true))
    ∧ ∀ c, s.cmd? n = some c → does (.engine n) fun t => (c.op = 6 → t.cmd? n = some { c with status := 0x12 }) ∧ (c.op ≠ 6 → t.cmd? n = none)

/-! ### Engines at work (R66, R435, R438, R442-R455) -/

/-- R266, R435, R438, R442-R446: the slices of a collective start together once every weft has issued it or exited; a command starts in acceptance order,
after the writes before it, and its knot expects its sectors; a sector of a fill or of a copy between scratchpads moves its bytes
and no other; a command whose sectors have all ended leaves, its counter falls, and its token is in q0 with the status. -/
def Obligations.ShuttleSteps : Prop :=
  ∀ (s : State) (id : Nat) (c : EngCmd), s.cmd? id = some c → c.op < 5 →
    (c.started = false → c.coll = none → (∀ e ∈ s.cmds, e.core = c.core → e.op < 5 → e.coll = none → e.started = false → c.id ≤ e.id) →
      s.engineWaits c = false → c.useSkip = false → s.Does (.shuttleStart id) fun t =>
        t.cmd? id = some { c with started := true } ∧ (c.knotAt s = none → s.SameMemory t)
        ∧ ∀ k, c.knotAt s = some k → t = (s.setCmd { c with started := true }).setKnot k (((s.knot k).fail c.status).add
            (((List.range c.chunks).filter fun j => !c.skip.contains j).foldl (fun acc j => acc + c.chunkSectors j) 0)))
    ∧ (c.started = true ∨ c.coll ≠ none → exec (.shuttleStart id) s = .next s)
    ∧ (∀ team n, c.team = team → c.coll = some n →
        ((∀ w ∈ s.wefts, w.team = team → w.exited = true ∨ n < w.shcopies) → s.Does (.shcopyCollectiveStart team n) fun t =>
          (∀ e ∈ t.cmds, ¬(e.team = team ∧ e.coll = some n)) ∧ (c.vacant = false → { c with coll := none } ∈ t.cmds))
        ∧ ((∃ w ∈ s.wefts, w.team = team ∧ w.exited = false ∧ w.shcopies ≤ n) → exec (.shcopyCollectiveStart team n) s = .next s))
    ∧ (∀ (sector : Nat) (tm : Team) (q r : Nat → Nat), c.mayRun sector = true → c.cur = none → c.writing = false → s.t2Held c = false → c.knotAt s = none →
        c.dsp = true → (c.op ≠ 4 → c.ssp = true) → s.team? c.team = some tm → s.Inv →
        (∀ x ∈ c.secBytes sector, tm.spadKey (c.dstAddr x) 1 = some (q x) ∧ s.accepts (q x) = true ∧ q x < 2 ^ 66
          ∧ (c.op ≠ 4 → tm.spadKey (c.srcAddr x) 1 = some (r x) ∧ r x < 2 ^ 66 ∧ s.poisoned (r x) 1 = false)) →
        ((c.secBytes sector).map q).Nodup → s.Does (.sectorPerformed id sector) fun t =>
          (∃ d, t.cmd? id = some d ∧ d.sectors = c.sectors ++ [sector] ∧ d.status = c.status ∧ d.failed = c.failed)
          ∧ (∀ x ∈ c.secBytes sector, t.byte (q x)
              = if c.op = 4 then BitVec.ofNat 8 ((c.desc.getD 0 0).toNat >>> (8 * (x % c.rowb % 8))) else s.byte (r x))
          ∧ (∀ k, k ∉ (c.secBytes sector).map q → t.byte k = s.byte k) ∧ t.Inv)
    ∧ (c.started = true → c.cur = none → c.work ≤ c.sectors.length → c.st = false → s.Does (.shuttleComplete id) fun t =>
        t.cmd? id = none ∧ s.SameMemory t ∧ (∀ w, s.weft? c.core c.slot = some w → t.weft? c.core c.slot = some (w.lower 2 c.id))
        ∧ ∀ v tm, c.tok = some v → s.team? c.team = some tm → ∃ u, t.team? c.team = some u
            ∧ u.q0 = tm.q0 ++ [v ||| BitVec.ofNat 64 (c.status * 2 ^ 56)] ∧ u.q1 = tm.q1 ∧ u.q2 = tm.q2)

/-- R66, R449, R450, R452, R454, R455, R90: a step of a team's matrix command takes one off its count and moves its slabs on: `mzero` clears the tile; an
INT8 step adds each row and column's exact sum of products to C modulo 2^32, or clamped with SAT; `mloop` charges its cluster for
each step. A command with no step left leaves: c3 falls and its token is in q1. `nmv` forms its rows, leaves, c4 falls and its
token is in q2. -/
def Obligations.MatrixAndNearMemorySteps : Prop :=
  ∀ s : State, s.Inv →
    (∀ team tm m rest, s.team? team = some tm → tm.mcmds = m :: rest → m.rem ≠ 0 → s.matWaits tm m = false →
      s.runs tm.ctx = true → s.power.pf = .idle → (m.op = 2 → s.matHeld tm.core = false) →
      let c := tm.mcfg
      let cb := tm.key m.cbase
      s.Does (.matrixKstep team) fun t => t.Inv ∧ (∃ u x, t.team? team = some u ∧ u.mcmds = x :: rest ∧ x.rem = m.rem - 1
          ∧ x.abase = (m.abase + m.ainc) % 2 ^ 32 ∧ x.bbase = (m.bbase + m.binc) % 2 ^ 32 ∧ x.cbase = m.cbase)
        ∧ t.power = (if m.op = 2 then (s.debitAs true tm.core 32).power else s.power)
        ∧ (m.op = 1 → (∀ i, i < tileBytes c → t.byte (cb + i) = 0)
            ∧ ∀ k, k < cb ∨ cb + tileBytes c ≤ k → t.byte k = s.byte k)
        ∧ (m.op = 2 ∨ m.op = 3 → mcfgInt c = true → s.pois = [] → ∀ r col, r < tileM c → col < tileN c →
            let at_ := cb + 4 * (tileN c * r + col)
            let el := fun base row k : Nat => signedOf 8 (s.nat (tm.key base + tileK c * row + k) 1)
            let sum := signedOf 32 (s.nat at_ 4) + ((List.range (tileK c)).map fun k => el m.abase r k * el m.bbase col k).sum
            let v := if m.sat then max (-(2 ^ 31)) (min (2 ^ 31 - 1) sum) else sum
            t.nat at_ 4 = (v % 2 ^ 32).toNat))
    ∧ (∀ team tm m rest, s.team? team = some tm → tm.mcmds = m :: rest → m.rem = 0 → s.power.pf = .idle → s.Does (.matrixComplete team) fun t =>
        (∀ w, s.weft? tm.core m.slot = some w → t.weft? tm.core m.slot = some (w.lower 3 m.id)) ∧ s.SameMemory t
        ∧ ∃ u, t.team? team = some u ∧ u.mcmds = rest
          ∧ u.q1 = tm.q1 ++ (match m.tok with | some v => [v ||| BitVec.ofNat 64 (m.status * 2 ^ 56)] | none => []))
    ∧ ∀ id c tm vk rk, s.cmd? id = some c → c.op = 5 → s.engineWaits c = false → s.team? c.team = some tm →
        tm.spadKey c.vec (2 * c.nLen) = some vk → tm.spadKey c.res (4 * c.nRows) = some rk → (s.nmvPaused c.core = true → exec (.nmvComplete id) s = .next s)
        ∧ (s.nmvPaused c.core = false ↔ s.inFlight (clusOf c.core) = 0 ∨ s.inFlight (clusOf c.core) + 2 ≤ s.oreq)
        ∧ (s.nmvPaused c.core = false → s.Does (.nmvComplete id) fun t =>
          t.cmd? id = none ∧ (∀ w, s.weft? c.core c.slot = some w → t.weft? c.core c.slot = some (w.lower 4 c.id))
          ∧ (∀ v, c.tok = some v → ∃ u x, t.team? c.team = some u ∧ u.q2 = tm.q2 ++ [x] ∧ x.setWidth 56 = v.setWidth 56)
          ∧ ∀ keys, c.nRows = 1 →
              let seg := s.segKeys c (c.desc.getD 0 0).toNat (c.nLen / c.segLen) 0
              seg.2 = (keys, []) → seg.1.Inv → seg.1.poisoned vk (2 * c.nLen) = false → c.ncfg.getLsbD 1 = false →
              t.nat rk 4 = seg.1.rowValue c vk keys % 2 ^ 32 ∧ ∀ k, k < rk ∨ rk + 4 ≤ k → t.byte k = seg.1.byte k)

/-! ### The debug port (R237, R291, R292, R294) -/

/-- R5, R19, R237, R291, R292, R294: a target names wefts by logical or by physical place, where a logical cluster is an enabled
physical one; one context is attached at a time; a halt marks the wefts it names, RUN lifts it, STEP lets one group issue, RELEASE lets a
pre-emption through, and DETACH lifts every halt of the context; a weft inside a group whose fate is open halts at the group's end; a weft
that steps is not pre-empted; a halted weft's registers are read and written: a scalar register its
value, a lane of a vector register its 32 bits, after which the register is G and full, the pc a multiple of 4. A weft that is not
halted is neither read nor written. That a READ through an index register gives the number of the register above its value is the model's
choice (assumption 109). -/
def Obligations.DebugPort : Prop :=
  ∀ (s : State) (c core slot n lane die clus : Nat) (tg : DebugTarget) (pl : DebugPlace) (x : W64), s.up = true →
    let named := fun v : Weft => s.named tg v = true
    let place := DebugCore.logical core
    let me := DebugTarget.weft place slot
    (s.debug = some c → ∀ v : Weft, v.ctx = c → v.exited = false →
      (s.named me v = true ↔ v.core = core ∧ v.slot = slot)
      ∧ (s.named (.weft (.physical die clus n) slot) v = true ↔ s.boot.physCore v.core = (die, clus, n) ∧ v.slot = slot))
    ∧ (core < 208 → (∀ d, d < 4 → s.boot.harvested d < 14) → s.boot.physCore core ∈ (s.boot.enabled.map fun e => (e.1, e.2, core % 4)))
    ∧ (s.debug = none → c < 64 → exec (.attach c) s = .next { s with debug := some c })
    ∧ (s.debug ≠ none → exec (.attach c) s = .next s)
    ∧ (s.debug = some c → s.Does .detach fun t => t.debug = none ∧ (∀ v ∈ t.wefts, v.ctx = c → v.halted = false ∧ v.halting = false ∧ v.stopped ≠ some .debug)
        ∧ ∀ v ∈ s.wefts, v.ctx ≠ c → v ∈ t.wefts)
    ∧ (s.Does (.debugHalt tg) fun t => t.debug = s.debug ∧ ∀ v ∈ t.wefts, named v → v.halted = true ∨ (v.halting = true ∧ v.unsettled ≠ none))
    ∧ (s.Does (.run tg) fun t => (∀ v ∈ t.wefts, named v → v.halted = false ∧ v.halting = false) ∧ ∀ v ∈ s.wefts, ¬ named v → v ∈ t.wefts)
    ∧ (s.Does (.debugStep place slot) fun t => ∀ w ∈ s.wefts, s.named me w = true → w.halted = true →
        ∃ v ∈ t.wefts, v.core = core ∧ v.slot = slot ∧ v.halted = false ∧ v.stepping = true ∧ v.preemptFree = false ∧ v.pc = w.pc ∧ v.sregs = w.sregs)
    ∧ (s.Does (.release tg) fun t => ∀ v ∈ t.wefts, named v → v.halted = true → v.released = true)
    ∧ (s.halted? place slot = none → exec (.debugRead place slot pl) s = .next s ∧ exec (.debugWrite place slot pl x) s = .next s)
    ∧ ∀ w, s.halted? place slot = some w →
        let reads := fun (d : DebugPlace) (v : W64) => exec (.debugRead place slot d) s = .next (s.emit (.debug v))
        let writes := fun (d : DebugPlace) (post : Weft → Prop) => s.Does (.debugWrite place slot d x) fun t =>
          ∃ v, t.weft? core slot = some v ∧ post v ∧ s.OtherWefts t core slot ∧ s.SameMemory t
        reads (.s n) (w.sreg n).val ∧ reads (.pv n lane) (((w.vreg n).val.lane lane).setWidth 64) ∧ reads .pc w.pc
        ∧ reads .em w.em ∧ reads (.xdesc n) (w.xreg n).word ∧ reads (.sr n) (s.special w n)
        ∧ reads (.tag n) (BitVec.ofNat 64 (w.vreg n).val.tag)
        ∧ (lane < 64 →
            let d := w.xreg n
            let o := d.off.getD lane 0 - (if 2 ≤ d.mode.toNat then d.step.signExtend 8 else 0)
            let r := d.base + o.toNat
            reads (.xpv n lane) (BitVec.ofNat 64 (((w.vreg r).val.lane lane).toNat + 2 ^ 32 * r)))
        ∧ reads (.qcount n) (BitVec.ofNat 64 (s.queueOf w n).length)
        ∧ (n < w.sregs.length → writes (.s n) fun v => (v.sreg n).val = x ∧ (v.sreg n).full = true ∧ ∀ m, m ≠ n → v.sreg m = w.sreg m)
        ∧ (n < w.vregs.length → lane < 64 → writes (.pv n lane) fun v => (v.vreg n).val.tag = 2 ∧ (v.vreg n).full = true
            ∧ (v.vreg n).val.lane lane = x.setWidth 32
            ∧ ∀ j, j < 64 → j ≠ lane → (v.vreg n).val.lane j = (w.vreg n).val.lane j)
        ∧ writes .pc (fun v => v.pc.toNat = x.toNat / 4 * 4) ∧ writes .em (fun v => v.em = x) ∧ writes .dm (fun v => v.dm = x)
        ∧ writes .tm (fun v => v.tm = x.getLsbD 0)

/-! ### Rules of the whole machine -/

/-- R38: an access to a non-canonical address, one with bit 63 zero and any of bits 62 to 56 set, takes PAGE, which is not
replayable, whatever the context, the page tables and the access; nothing else changes. -/
def Obligations.NonCanonicalAddressesFault : Prop :=
  ∀ (s : State) (c st : Nat) (ask : Ask) (va : W64) (rep : Nat → Bool) (a : Access) (l : LaneAcc),
    va.getLsbD 63 = false → (∃ k, 56 ≤ k ∧ k ≤ 62 ∧ va.getLsbD k = true) → l.ea = va →
      s.translate c va ask st = (.page, s) ∧ s.verdict rep a l = (s, { l with st := .bad .page 0 })

/-- R89: an issue adds its debit to what its cluster owes and leaves every C as it is, so every check of a cycle sees the C at
its start; the end of a cycle sets C := max(-2^15, min(CAP, C - debits + RATE)) with CAP 4,096 and debits cleared, C having 8
fraction bits, so C never leaves -2^15 to 4,096; MTHR is 0 after reset and every control interval leaves it between 0 and CAP - 32. -/
def Obligations.RationCounters : Prop :=
  (∀ (s : State) (core units k : Nat) (r : Ration), s.power.rations[k]? = some r →
    (∃ d, (s.debit core units).power.rations[k]? = some d ∧ d.c = r.c ∧ d.rate = r.rate ∧ d.mthr = r.mthr
      ∧ d.debits = r.debits + (if k = clusOf core then 256 * units else 0))
    ∧ ∃ t, exec (.rationCycleEnd k) s = .next t
      ∧ t.power.rations[k]? = some { r with c := max (-(2 ^ 15 * 256)) (min (4096 * 256) (r.c - r.debits + r.rate)), debits := 0 }
      ∧ (∀ j, j ≠ k → t.power.rations[j]? = s.power.rations[j]?)
      ∧ ∀ r2, t.power.rations[k]? = some r2 → -(2 ^ 15 * 256) ≤ r2.c ∧ r2.c ≤ 4096 * 256)
  ∧ (∀ r ∈ State.reset.power.rations, r.mthr = 0)
  ∧ ∀ (s t : State) (m : Telemetry), exec (.controlInterval m) s = .next t →
      (∀ r ∈ s.power.rations, 0 ≤ r.mthr ∧ r.mthr ≤ (4096 - 32) * 256) → ∀ r ∈ t.power.rations, 0 ≤ r.mthr ∧ r.mthr ≤ (4096 - 32) * 256

/-- R399: `cvt.e8m0.f32` gives floor(log2 |a|) + 127 held between 0 and 254 for a finite a that is not zero, 0 for a zero, and 0xFF
for a NaN or an infinity, in each lane, and raises no flag. Here |a| is n * 2^q with n and q read from the fields of a. -/
def Obligations.ExponentScaleConversion : Prop :=
  ∀ (s : State) (w : Weft) (p : Pfx) (d a : Opnd) (g : Plan), s.VecIssues w p [srcV .a a 1, dstV d 1] g →
    ∃ y : VVal, exec (.cvtE8m0F32 p d a) s = .next (s.vecNext w p g [srcV .a a 1] (dstV d 1) false { vals := [y], sc := none, fl := 0 })
      ∧ ∀ l, l < 64 →
        let x := (arg (s.vVals w g [srcV .a a 1, dstV d 1]) 0).lane l
        let e : Nat := x.toNat / 2 ^ 23 % 2 ^ 8
        let f : Nat := x.toNat % 2 ^ 23
        let v : Int := (y.lane l).toNat
        (e = 255 → v = 0xFF) ∧ (e = 0 → f = 0 → v = 0)
        ∧ (e = 0 → f ≠ 0 → v = max 0 (min 254 ((Nat.log2 f : Int) - 149 + 127)))
        ∧ (0 < e → e < 255 → v = max 0 (min 254 ((Nat.log2 (2 ^ 23 + f) : Int) + e - 150 + 127)))

/-- R460: `lnchq` writes 0 for a launch of the context that is gone or unknown, 1 for one whose first team has not been placed, 2
for one that places or runs and has not triggered, 3 for one that has triggered; it is done at once whatever is in flight. -/
def Obligations.LaunchStates : Prop :=
  ∀ (s : State) (w : Weft) (p : Pfx) (d a : Opnd) (g : Plan), s.Issues w p [srcS .a a, dstS d] .active g → g.m ≠ 0 →
    ∃ v : W64, exec (.lnchq p d a) s = .next (s.scalarNext w p g.m [srcS .a a] d v)
      ∧ ((∀ l ∈ s.launches, l.ctx = w.ctx → l.serial % 2 ^ 32 ≠ (s.sVal w a).toNat % 2 ^ 32) → v = 0)
      ∧ ∀ l ∈ s.launches, l.ctx = w.ctx → l.serial % 2 ^ 32 = (s.sVal w a).toNat % 2 ^ 32 →
          (∀ j ∈ s.launches, j.ctx = w.ctx → j.serial % 2 ^ 32 = l.serial % 2 ^ 32 → j = l) →
          (l.nextTeam = 0 → v = 1) ∧ (l.nextTeam ≠ 0 → s.launchTriggered l = false → v = 2)
          ∧ (l.nextTeam ≠ 0 → s.launchTriggered l = true → v = 3)

/-- R29: BRCHK stops boot in FAIL with cause 3 on a HARVEST nibble of 14 or 15, on a PART other than 0x605 and on reserved bits that
are not zero, in the copy of the birth record whose signatures verify. -/
def Obligations.BirthRecordContents : Prop :=
  ∀ s : State, s.boot.st = .brchk → s.power.pf = .idle → s.Does .brchk fun t =>
    ∀ k, (List.range 6).find? (fun k => recordVerifies (s.bytes (scmKey (16 * k) 0) 20704)) = some k →
      let r := s.bytes (scmKey (16 * k) 0) 20704
      let word := fun off : Nat => ofLeBytes ((r.drop off).take 4)
      ((∃ d : Nat, d < 4 ∧ 14 ≤ word 0x20 / 16 ^ d % 16) ∨ word 0x0C ≠ 0x605 ∨ word 0x20 / 2 ^ 16 ≠ 0
        ∨ (∃ j, 0x470 ≤ j ∧ j < 0x1000 ∧ r[j]? ≠ some 0)) →
      t.boot.st = .fail ∧ t.boot.cause = 3

/-- R36, R105: from FAIL no instruction and no step of the device leads anywhere but FAIL and the loss of VAUX. -/
def Obligations.FailIsLeftOnlyByPowerLoss : Prop :=
  ∀ (i : Instr) (s t : State), s.boot.st = .fail → exec i s = .next t →
    t.boot.st = .fail ∨ (t.boot.st = .off ∧ (i = .vauxLoss ∨ i = .railFault 0))

/-- The package's own invariant (log entry 1): every step answers a state whose memory is in canonical form when the state before had
that form, so that equal memories are equal data; it holds after reset. -/
def Obligations.MemoryStaysCanonical : Prop :=
  State.reset.Inv ∧ (∀ (i : Instr) (s t : State), s.Inv → exec i s = .next t → t.Inv)
  ∧ ∀ s t : State, s.Inv → step s = .next t → t.Inv
end

