-- ==== Sys2Proof/Laws/Memory.lean ====
section
/-! SUPPORT. The laws of memory: every memory operation keeps the canonical form, a read after a write gives what was written,
and a write leaves every other byte alone. -/

namespace Sys2Proof.Machine

/-! ### The canonical form -/

theorem Memory.wf_cons {k : Nat} {c : Byte} {r : Memory} :
    Memory.wf ((k, c) :: r) = true ↔ c ≠ Memory.unlisted ∧ Memory.above k r = true ∧ Memory.wf r = true := by
  simp [Memory.wf, and_assoc]

theorem Memory.above_trans {a k : Nat} {r : Memory} (h : a < k) (hr : Memory.above k r = true) : Memory.above a r = true := by
  cases r with
  | nil => rfl
  | cons d r => simp only [Memory.above, decide_eq_true_eq] at *; omega

theorem Memory.above_set {a k : Nat} {b : Byte} (m : Memory) (hw : Memory.wf m = true) (hm : Memory.above a m = true)
    (hk : a < k) : Memory.above a (Memory.set m k b) = true := by
  cases m with
  | nil => simp only [Memory.set]; split <;> simp [Memory.above, hk]
  | cons c r =>
    obtain ⟨n, c⟩ := c
    have hn : a < n := by simpa [Memory.above] using hm
    have hr := (Memory.wf_cons.1 hw).2.1
    simp only [Memory.set]
    split
    · split <;> simp [Memory.above, hk, hn]
    · split
      · split
        · exact Memory.above_trans hn hr
        · simpa [Memory.above] using hk
      · simpa [Memory.above] using hn

/-- A write of one byte keeps the canonical form. -/
theorem Memory.wf_set (m : Memory) (k : Nat) (b : Byte) (hw : Memory.wf m = true) : Memory.wf (Memory.set m k b) = true := by
  induction m with
  | nil => simp only [Memory.set]; split <;> simp_all [Memory.wf, Memory.above]
  | cons c r ih =>
    obtain ⟨n, c⟩ := c
    obtain ⟨hc, ha, hr⟩ := Memory.wf_cons.1 hw
    simp only [Memory.set]
    split
    · rename_i h
      split
      · exact hw
      · exact Memory.wf_cons.2 ⟨‹_›, by simpa [Memory.above] using h, hw⟩
    · split
      · rename_i h
        split
        · exact hr
        · exact Memory.wf_cons.2 ⟨‹_›, h ▸ ha, hr⟩
      · exact Memory.wf_cons.2 ⟨hc, Memory.above_set r hr ha (by omega), ih hr⟩

theorem Memory.wf_setAll (m : Memory) (l : List Host.Cell) (hw : Memory.wf m = true) : Memory.wf (Memory.setAll m l) = true := by
  induction l generalizing m with
  | nil => exact hw
  | cons c l ih => exact ih _ (Memory.wf_set m c.1 c.2 hw)

theorem Memory.above_filter {a : Nat} (m : Memory) (p : Host.Cell → Bool) (hw : Memory.wf m = true)
    (hm : Memory.above a m = true) : Memory.above a (m.filter p) = true := by
  induction m with
  | nil => rfl
  | cons c r ih =>
    obtain ⟨n, c⟩ := c
    obtain ⟨-, ha, hr⟩ := Memory.wf_cons.1 hw
    have hn : a < n := by simpa [Memory.above] using hm
    rw [List.filter_cons]
    split
    · simpa [Memory.above] using hn
    · exact ih hr (Memory.above_trans hn ha)

/-- Dropping cells keeps the canonical form. -/
theorem Memory.wf_filter (m : Memory) (p : Host.Cell → Bool) (hw : Memory.wf m = true) : Memory.wf (m.filter p) = true := by
  induction m with
  | nil => rfl
  | cons c r ih =>
    obtain ⟨n, c⟩ := c
    obtain ⟨hc, ha, hr⟩ := Memory.wf_cons.1 hw
    rw [List.filter_cons]
    split
    · exact Memory.wf_cons.2 ⟨hc, Memory.above_filter r p hr ha, ih hr⟩
    · exact ih hr

/-! ### Reading -/

theorem Memory.get_above {a : Nat} {m : Memory} (h : Memory.above a m = true) : Memory.get m a = Memory.unlisted := by
  cases m with
  | nil => rfl
  | cons c r =>
    obtain ⟨n, c⟩ := c
    have hn : a < n := by simpa [Memory.above] using h
    simp [Memory.get, hn, Nat.ne_of_gt hn]

/-- A read of the byte just written. -/
theorem Memory.get_set_same (m : Memory) (k : Nat) (b : Byte) (hw : Memory.wf m = true) : Memory.get (Memory.set m k b) k = b := by
  induction m with
  | nil => simp only [Memory.set]; split <;> simp_all [Memory.get]
  | cons c r ih =>
    obtain ⟨n, c⟩ := c
    obtain ⟨-, ha, hr⟩ := Memory.wf_cons.1 hw
    simp only [Memory.set]
    split
    · rename_i h
      split
      · rename_i hb; rw [hb]; exact Memory.get_above (by simpa [Memory.above] using h)
      · simp [Memory.get]
    · split
      · rename_i h
        split
        · rename_i hb; rw [hb]; exact Memory.get_above (h ▸ ha)
        · simp [Memory.get]
      · rename_i h1 h2
        rw [Memory.get, if_neg h2, if_neg h1]
        exact ih hr

/-- A read of any other byte. -/
theorem Memory.get_set_other (m : Memory) (k x : Nat) (b : Byte) (hw : Memory.wf m = true) (hx : x ≠ k) :
    Memory.get (Memory.set m k b) x = Memory.get m x := by
  induction m with
  | nil => simp only [Memory.set]; split <;> simp [Memory.get, Ne.symm hx]
  | cons c r ih =>
    obtain ⟨n, c⟩ := c
    obtain ⟨-, ha, hr⟩ := Memory.wf_cons.1 hw
    simp only [Memory.set]
    split
    · rename_i h
      split
      · rfl
      · rw [Memory.get, if_neg (Ne.symm hx)]
        split
        · rw [Memory.get_above]; simp only [Memory.above, decide_eq_true_eq]; omega
        · rfl
    · split
      · rename_i h
        subst h
        have hr1 : x < n → Memory.get r x = Memory.unlisted := fun h => Memory.get_above (Memory.above_trans h ha)
        split
        · rw [Memory.get, if_neg (Ne.symm hx)]
          split
          · exact hr1 ‹_›
          · rfl
        · simp only [Memory.get, if_neg (Ne.symm hx)]
      · simp only [Memory.get, ih hr]

theorem Memory.get_setAll_other (m : Memory) (l : List Host.Cell) (x : Nat) (hw : Memory.wf m = true) (hx : ∀ c ∈ l, c.1 ≠ x) :
    Memory.get (Memory.setAll m l) x = Memory.get m x := by
  induction l generalizing m with
  | nil => rfl
  | cons c l ih =>
    rw [Memory.setAll, ih _ (Memory.wf_set m c.1 c.2 hw) (fun d hd => hx d (List.mem_cons_of_mem _ hd))]
    exact Memory.get_set_other m c.1 x c.2 hw (Ne.symm (hx c List.mem_cons_self))

theorem mem_cellsFrom {k : Nat} {bs : List Byte} {c : Host.Cell} (h : c ∈ cellsFrom k bs) : k ≤ c.1 ∧ c.1 < k + bs.length := by
  induction bs generalizing k with
  | nil => simp [cellsFrom] at h
  | cons b r ih =>
    simp only [cellsFrom, List.mem_cons] at h
    rcases h with rfl | h
    · simp
    · have := ih h; simp only [List.length_cons]; omega

theorem Memory.get_setAll_cells (m : Memory) (k i : Nat) (bs : List Byte) (hw : Memory.wf m = true) (hi : i < bs.length) :
    Memory.get (Memory.setAll m (cellsFrom k bs)) (k + i) = bs.getD i 0 := by
  induction bs generalizing m k i with
  | nil => simp at hi
  | cons b r ih =>
    rw [cellsFrom, Memory.setAll]
    have hw1 := Memory.wf_set m k b hw
    cases i with
    | zero =>
      rw [Memory.get_setAll_other _ _ _ hw1 (fun c hc => by have := mem_cellsFrom hc; omega)]
      simpa using Memory.get_set_same m k b hw
    | succ i =>
      have := ih (Memory.set m k b) (k + 1) i hw1 (by simpa using hi)
      rw [show k + (i + 1) = k + 1 + i by omega, this]; rfl

end Sys2Proof.Machine
end

