-- ==== Sys2Proof/Laws/Bytes.lean ====
section
/-! SUPPORT. What a write of cells leaves at every byte (R171, R172): the byte it names reads as written, under the hampers or
not, and every other byte reads as before. -/

namespace Sys2Proof.Machine

theorem cellAt_filter (k : Nat) (l : List Host.Cell) (p : Host.Cell → Bool) (h : ∀ c ∈ l, c.1 = k → p c = true) :
    cellAt k (l.filter p) = cellAt k l := by
  induction l with
  | nil => rfl
  | cons c l ih =>
    obtain ⟨a, b⟩ := c
    have hl := ih fun c hc => h c (List.mem_cons_of_mem _ hc)
    rw [List.filter_cons]
    by_cases ha : a = k
    · rw [if_pos (h (a, b) List.mem_cons_self ha)]; simp [cellAt, ha]
    · by_cases hp : p (a, b) = true
      · rw [if_pos hp]; simp [cellAt, ha, hl]
      · rw [if_neg hp, hl]; simp [cellAt, ha]

theorem cellAt_none (k : Nat) (l : List Host.Cell) (h : ∀ c ∈ l, c.1 ≠ k) : cellAt k l = none := by
  induction l with
  | nil => rfl
  | cons c l ih =>
    obtain ⟨a, b⟩ := c
    rw [cellAt, if_neg (h (a, b) List.mem_cons_self)]
    exact ih fun c hc => h c (List.mem_cons_of_mem _ hc)

theorem mem_of_cellAt {k : Nat} {l : List Host.Cell} {b : Byte} (h : cellAt k l = some b) : ∃ c ∈ l, c.1 = k := by
  by_contra hn
  rw [cellAt_none k l fun c hc hk => hn ⟨c, hc, hk⟩] at h
  cases h

theorem hampByte_append (k : Nat) (l r : List HampEntry) :
    hampByte k (l ++ r) = (match hampByte k r with | some b => some b | none => hampByte k l) := by
  induction l with
  | nil => cases h : hampByte k r <;> simp [hampByte, h]
  | cons e l ih =>
    rw [List.cons_append, hampByte, ih, hampByte]
    cases hampByte k r <;> rfl

theorem mem_distinct {α : Type} [DecidableEq α] {x : α} {l : List α} : x ∈ distinct l ↔ x ∈ l := by
  induction l with
  | nil => simp [distinct]
  | cons y l ih =>
    simp only [distinct, List.mem_cons, List.mem_filter, ih, decide_eq_true_eq]
    constructor
    · rintro (h | ⟨h, -⟩)
      · exact .inl h
      · exact .inr h
    · rintro (h | h)
      · exact .inl h
      · by_cases hx : x = y
        · exact .inl hx
        · exact .inr ⟨h, by simpa using hx⟩

theorem hampByte_lines (k : Nat) (cells : List Host.Cell) (tag : Nat) (ls : List Nat) :
    hampByte k (ls.map fun l => ({ stack := keyStack (l * 128), bytes := cells.filter (fun c => c.1 / 128 = l), tag := tag, data := none } : HampEntry))
      = if k / 128 ∈ ls then cellAt k cells else none := by
  induction ls with
  | nil => rfl
  | cons l r ih =>
    rw [List.map_cons, hampByte, ih]
    by_cases hr : k / 128 ∈ r
    · simp only [List.mem_cons, hr, or_true, if_true]
      cases hc : cellAt k cells with
      | some b => rfl
      | none =>
        show cellAt k (cells.filter _) = none
        refine cellAt_none _ _ fun c hm hk => ?_
        have hm := (List.mem_filter.1 hm).1
        by_contra _
        have : ∀ (l : List Host.Cell), c ∈ l → cellAt k l ≠ none := by
          intro l hl
          induction l with
          | nil => cases hl
          | cons d l ih2 =>
            obtain ⟨a, b⟩ := d
            rw [cellAt]
            split
            · simp
            · rcases List.mem_cons.1 hl with rfl | h
              · exact absurd hk ‹_›
              · exact ih2 h
        exact this cells hm hc
    · simp only [List.mem_cons, hr, or_false]
      by_cases hl : k / 128 = l
      · rw [if_pos hl]
        refine cellAt_filter _ _ _ fun c _ hk => ?_
        simp [hk, hl]
      · rw [if_neg hl]
        refine cellAt_none _ _ fun c hm hk => ?_
        have := (List.mem_filter.1 hm).2
        simp only [decide_eq_true_eq, hk] at this
        exact hl this

/-- What the hamper entries of a write hold at a key (R172). -/
theorem hampByte_entries (k : Nat) (cells : List Host.Cell) (tag : Nat) : hampByte k (hampEntries cells tag) = cellAt k cells := by
  rw [hampEntries, hampByte_lines]
  split
  · rfl
  · rename_i h
    refine (cellAt_none _ _ fun c hc hk => h ?_).symm
    rw [mem_distinct, List.mem_map]
    exact ⟨c, hc, by rw [hk]⟩

/-- The counter entries of a write hold no byte (R172). -/
theorem hampByte_counters (k : Nat) (sc : List Scrub) (cs : Counters) (ls : List Nat) : hampByte k (countLines sc cs ls).2 = none := by
  induction ls generalizing cs with
  | nil => rfl
  | cons l r ih => rw [countLines, hampByte, ih]; rfl

theorem get_setAll_cellAt (m : Memory) (l : List Host.Cell) (x : Nat) (hw : Memory.wf m = true) (hn : (l.map Prod.fst).Nodup) :
    Memory.get (Memory.setAll m l) x = (cellAt x l).getD (Memory.get m x) := by
  induction l generalizing m with
  | nil => rfl
  | cons c l ih =>
    obtain ⟨a, b⟩ := c
    rw [List.map_cons, List.nodup_cons] at hn
    rw [Memory.setAll, ih _ (Memory.wf_set m a b hw) hn.2, cellAt]
    by_cases h : a = x
    · subst h
      rw [if_pos rfl, cellAt_none _ _ fun c hc hk => hn.1 (List.mem_map.2 ⟨c, hc, hk⟩)]
      exact Memory.get_set_same m a b hw
    · rw [if_neg h, Memory.get_set_other m a x b hw (Ne.symm h)]

/-- A write keeps the canonical form of memory. -/
theorem State.write_wf (s : State) (cells : List Host.Cell) (tag : Nat) (hw : Memory.wf s.mem = true) :
    Memory.wf (s.write cells tag).mem = true := Memory.wf_setAll _ _ hw

/-- Every byte after a write: the cell written, or the byte before. -/
theorem State.byte_write (s : State) (cells : List Host.Cell) (tag x : Nat) (hw : Memory.wf s.mem = true)
    (hn : (cells.map Prod.fst).Nodup) : (s.write cells tag).byte x = (cellAt x cells).getD (s.byte x) := by
  simp only [State.byte, State.write]
  by_cases h : keyIsScm x = true
  · rw [if_pos h, if_pos h, hampByte_append, hampByte_counters, hampByte_append, hampByte_entries, cellAt_filter x cells _ (fun c _ hk => by simpa [hk] using h)]
    have hf : cells.filter (fun c => keyIsScm c.1 && !keyIsScm c.1) = [] := by simp
    have hg : Memory.get (Memory.setAll s.mem (cells.filter fun c => !keyIsScm c.1)) x = Memory.get s.mem x :=
      Memory.get_setAll_other _ _ _ hw fun c hc hk => by
        have := (List.mem_filter.1 hc).2
        rw [hk, h] at this; cases this
    rw [hg]
    cases cellAt x cells <;> rfl
  · rw [if_neg h, if_neg h, get_setAll_cellAt _ _ _ hw (by exact hn.sublist ((List.filter_sublist).map _)),
      cellAt_filter x cells _ (fun c _ hk => by simpa [hk] using h)]

theorem nodup_cellsFrom (k : Nat) (bs : List Byte) : ((cellsFrom k bs).map Prod.fst).Nodup := by
  induction bs generalizing k with
  | nil => exact List.nodup_nil
  | cons b r ih =>
    rw [cellsFrom, List.map_cons, List.nodup_cons]
    refine ⟨fun h => ?_, ih (k + 1)⟩
    obtain ⟨c, hc, hk⟩ := List.mem_map.1 h
    have := mem_cellsFrom hc
    simp only at hk; omega

theorem cellAt_cellsFrom (k x : Nat) (bs : List Byte) :
    cellAt x (cellsFrom k bs) = if k ≤ x ∧ x < k + bs.length then some (bs.getD (x - k) 0) else none := by
  induction bs generalizing k with
  | nil => simp [cellsFrom, cellAt]
  | cons b r ih =>
    rw [cellsFrom, cellAt, ih (k + 1)]
    by_cases h : k = x
    · subst h; simp
    · rw [if_neg h]
      by_cases h1 : k + 1 ≤ x ∧ x < k + 1 + r.length
      · rw [if_pos h1, if_pos (by simp only [List.length_cons]; omega), show x - k = (x - (k + 1)) + 1 by omega]; rfl
      · rw [if_neg h1, if_neg (by simp only [List.length_cons]; omega)]

/-- Every byte after a write of consecutive bytes. -/
theorem State.byte_writeBytes (s : State) (k x : Nat) (bs : List Byte) (hw : Memory.wf s.mem = true) :
    (s.writeBytes k bs).byte x = if k ≤ x ∧ x < k + bs.length then bs.getD (x - k) 0 else s.byte x := by
  rw [State.writeBytes, State.byte_write s _ _ x hw (nodup_cellsFrom k bs), cellAt_cellsFrom]
  split <;> rfl

end Sys2Proof.Machine
end

