-- ==== Sys2Proof/Laws/Frame.lean ====
section
/-! SUPPORT. What the shared operations leave alone: one lemma each for a write of cells, a translation, a control-plane write, a
fatal cause, a trap, the pops of a group and the writes of its result. -/

namespace Sys2Proof.Machine

/-! ### Operations that touch memory and the translation units alone -/

/-- Nothing differs but the bytes of memory and their counters, the translation units, what channels have reported, the count of draws and
the snapshot state. -/
def State.MemOnly (s t : State) : Prop :=
  t = { s with mem := t.mem, hamp := t.hamp, ctrs := t.ctrs, rsv := t.rsv, pois := t.pois, tlb := t.tlb, wcache := t.wcache,
               holds := t.holds, cmplines := t.cmplines, plnlines := t.plnlines, snap := t.snap, draws := t.draws }

theorem State.MemOnly.refl (s : State) : s.MemOnly s := rfl

theorem State.MemOnly.trans {s t u : State} (h : s.MemOnly t) (k : t.MemOnly u) : s.MemOnly u := by
  unfold State.MemOnly at *
  rw [k, h]

/-- A step of this kind, done for each element of a list, is of this kind. -/
theorem State.MemOnly.foldl {α : Type} (f : State → α → State) (h : ∀ (s : State) (x : α), s.MemOnly (f s x)) (l : List α) (s : State) :
    s.MemOnly (l.foldl f s) := by
  induction l generalizing s with
  | nil => exact .refl s
  | cons x r ih => exact (h s x).trans (ih _)

theorem State.MemOnly.getD {s : State} {o : Option State} (h : ∀ t, o = some t → s.MemOnly t) : s.MemOnly (o.getD s) := by
  cases o with
  | none => exact .refl s
  | some t => exact h t rfl

theorem State.write_memOnly (s : State) (cells : List Host.Cell) (tag : Nat) : s.MemOnly (s.write cells tag) := rfl

theorem State.holdUnit_memOnly (s : State) (u : SnapUnit) : s.MemOnly (s.holdUnit u) := rfl

theorem State.writeBack_memOnly (s : State) (stack : Nat) : s.MemOnly (s.writeBack stack) := by
  simp only [State.writeBack]
  split
  · rfl
  · exact .refl s

theorem State.makeRoom_memOnly (s : State) (stack n f : Nat) : s.MemOnly (s.makeRoom stack n f) := by
  induction f generalizing s with
  | zero => exact .refl s
  | succ f ih =>
    simp only [State.makeRoom]
    split
    · exact .refl s
    · exact (State.writeBack_memOnly s stack).trans (ih _)

theorem State.addMeta_memOnly (s : State) (stack : Nat) (d : HampMeta) : s.MemOnly (s.addMeta stack d) :=
  (State.makeRoom_memOnly s stack 1 1).trans rfl

theorem State.setUnit_memOnly (s : State) (u : SnapUnit) : s.MemOnly (s.setUnit u) :=
  (State.holdUnit_memOnly s u).trans (State.addMeta_memOnly ..)

theorem State.undefine_memOnly (s : State) (keys : List Nat) : s.MemOnly (s.undefine keys) := rfl

theorem State.enterUnit_memOnly (s : State) (r : Region) (va : W64) (home : Nat) : s.MemOnly (s.enterUnit r va home) := by
  simp only [State.enterUnit]
  split
  · exact .refl s
  · exact State.holdUnit_memOnly ..

theorem State.openUnit_memOnly {s t : State} {va st : Nat} (h : s.openUnit va st = some t) : s.MemOnly t := by
  simp only [State.openUnit] at h
  split at h
  · cases h
  · split at h
    · cases h
    · split at h
      · cases h; exact .refl s
      · split at h
        · cases h
        · cases h; refine State.MemOnly.trans ?_ (State.setUnit_memOnly ..); rfl

theorem State.chanWrite_memOnly (s : State) (cells : List Host.Cell) (st : Nat) : s.MemOnly (s.chanWrite cells st) := by
  have hd : s.MemOnly (s.declares cells) := by
    simp only [State.declares]
    split
    · simp only [State.parityTouched]
      split
      · exact State.undefine_memOnly ..
      · exact .refl s
    · exact .refl s
  exact (hd.trans (State.MemOnly.foldl _ (fun s va => .getD fun t h => State.openUnit_memOnly h) _ _)).trans
    (State.write_memOnly _ _ _)

theorem State.checkLeaf_memOnly (s : State) (c : Nat) (va : W64) (ask : Ask) (st : Nat) (e : W64) :
    s.MemOnly (s.checkLeaf c va ask st e).2 := by
  have store : ∀ o : Option Region, s.MemOnly (match o with
      | none => ((.prot, s) : Tr × State)
      | some r => ((s.enterUnit r va (leafKey va e)).snapAccept r va st, s.enterUnit r va (leafKey va e))).2 := by
    intro o
    cases o with
    | none => exact .refl s
    | some r => exact State.enterUnit_memOnly ..
  have read : ∀ o : Option Region, s.MemOnly (match o with
      | some r => ((.ok (snapKey va.toNat) false, s.enterUnit r va (leafKey va e)) : Tr × State)
      | none => (.ok (leafKey va e) false, s)).2 := by
    intro o
    cases o with
    | none => exact .refl s
    | some r => exact State.enterUnit_memOnly ..
  simp only [State.checkLeaf]
  split
  · exact .refl s
  · split
    · exact .refl s
    · split
      · cases ask with
        | write => exact store _
        | atomic => exact store _
        | read => exact read _
        | fetch => exact read _
      · show s.MemOnly (if _ then _ else _)
        split
        · exact State.undefine_memOnly ..
        · exact .refl s

theorem State.countSpan_memOnly (s : State) (k n : Nat) (cbf : Bool) : s.MemOnly (s.countSpan k n cbf) := by
  simp only [State.countSpan]
  split
  · refine State.MemOnly.foldl _ (fun s l => ?_) _ _
    simp only [State.countLine]
    split <;> rfl
  · exact .refl s

theorem State.hampersFor_memOnly (s : State) (keys : List Nat) : s.MemOnly (s.hampersFor keys) := by
  refine State.MemOnly.foldl _ (fun s k => ?_) _ _
  have room : ∀ (f : Nat) (s : State) (n : Nat), s.MemOnly (s.makeRoom (stackOf k) n f) := by
    intro f
    induction f with
    | zero => intro s n; exact .refl s
    | succ f ih =>
      intro s n
      rw [State.makeRoom]
      split
      · exact .refl s
      · refine State.MemOnly.trans ?_ (ih _ _)
        simp only [State.writeBack]
        split <;> rfl
  exact room _ _ _

theorem State.leafOf_memOnly (s : State) (c : Nat) (va : W64) : s.MemOnly (s.leafOf c va).2 := by
  simp only [State.leafOf]
  split
  · rfl
  · split <;> rfl

/-- A translation changes nothing but memory (a snapshot copy), the frames of a unit and the translation units (R49, R179). -/
theorem State.translate_memOnly (s : State) (c : Nat) (va : W64) (ask : Ask) (st : Nat) : s.MemOnly (s.translate c va ask st).2 := by
  have h := s.leafOf_memOnly c va
  simp only [State.translate]
  split
  · rfl
  · split <;> rename_i he <;> rw [he] at h
    · exact h
    · refine h.trans ?_
      simp only [State.reportUnit]
      split <;> rfl
    · exact h.trans (State.checkLeaf_memOnly ..)

theorem State.vaRanges_memOnly (c : Nat) (ask : Ask) (ps : List (Nat × Nat)) (s : State) (ks : List (Nat × Nat)) (t : State)
    (h : s.vaRanges c ask ps = some (ks, t)) : s.MemOnly t := by
  induction ps generalizing s ks t with
  | nil => simp only [State.vaRanges, Option.some.injEq, Prod.mk.injEq] at h; exact h.2 ▸ .refl s
  | cons p r ih =>
    obtain ⟨a, n⟩ := p
    simp only [State.vaRanges] at h
    split at h
    · cases h
    · have ht := s.translate_memOnly c (BitVec.ofNat 64 a) ask s.stepCtr.toNat
      split at h
      · rename_i he
        rw [he] at ht
        split at h
        · rename_i hr
          cases h
          refine (ht.trans ?_).trans ((State.countSpan_memOnly ..).trans (ih _ _ _ hr))
          split
          · exact .getD fun t h => State.openUnit_memOnly h
          · exact .refl _
        · cases h
      · cases h

/-- A control-plane write changes nothing but memory, the frames of snapshot units and the translation units. -/
theorem State.vaWrite_memOnly {s t : State} {c : Nat} {va : W64} {bs : List Byte} (h : s.vaWrite c va bs = some t) : s.MemOnly t := by
  simp only [State.vaWrite] at h
  split at h
  · cases h
  · split at h
    · cases h
    · rename_i hr
      cases h
      exact ((s.hampersFor_memOnly _).trans (State.vaRanges_memOnly _ _ _ _ _ _ hr)).trans (State.chanWrite_memOnly ..)

theorem State.vaWrite_getD_memOnly (s : State) (c : Nat) (va : W64) (bs : List Byte) : s.MemOnly ((s.vaWrite c va bs).getD s) := by
  cases h : s.vaWrite c va bs with
  | none => exact .refl s
  | some t => exact State.vaWrite_memOnly h

/-! ### Lists -/

theorem getD_setAt {α : Type} (l : List α) (n : Nat) (y d : α) (h : n < l.length) : (setAt l n y).getD n d = y := by
  induction l generalizing n with
  | nil => simp at h
  | cons x r ih =>
    cases n with
    | zero => rfl
    | succ n => exact ih n (by simpa using h)

theorem getD_setAt_ne {α : Type} (l : List α) (n m : Nat) (y d : α) (h : m ≠ n) : (setAt l n y).getD m d = l.getD m d := by
  induction l generalizing n m with
  | nil => rfl
  | cons x r ih =>
    cases n with
    | zero =>
      cases m with
      | zero => exact absurd rfl h
      | succ m => rfl
    | succ n =>
      cases m with
      | zero => rfl
      | succ m => exact ih n m (by omega)

theorem length_setAt {α : Type} (l : List α) (n : Nat) (y : α) : (setAt l n y).length = l.length := by
  induction l generalizing n with
  | nil => rfl
  | cons x r ih =>
    cases n with
    | zero => rfl
    | succ n => simp [setAt, ih]

theorem length_modAt {α : Type} (l : List α) (n : Nat) (f : α → α) : (modAt l n f).length = l.length := by
  induction l generalizing n with
  | nil => rfl
  | cons x r ih =>
    cases n with
    | zero => rfl
    | succ n => simp [modAt, ih]

theorem getElem?_modAt {α : Type} (l : List α) (n m : Nat) (f : α → α) :
    (modAt l n f)[m]? = if m = n then l[m]?.map f else l[m]? := by
  induction l generalizing n m with
  | nil => simp [modAt]
  | cons x r ih =>
    cases n with
    | zero =>
      cases m with
      | zero => simp [modAt]
      | succ m => simp [modAt]
    | succ n =>
      cases m with
      | zero => simp [modAt]
      | succ m => simp [modAt, ih]

/-! ### Contexts -/

theorem ctx_setCtx (s : State) (c : Nat) (x : Context) (h : c < s.ctxs.length) : (s.setCtx c x).ctx c = x := getD_setAt _ _ _ _ h

theorem ctx_setCtx_ne (s : State) (c d : Nat) (x : Context) (h : d ≠ c) : (s.setCtx c x).ctx d = s.ctx d := getD_setAt_ne _ _ _ _ _ h

/-! ### Wefts -/

/-- Replacing a weft leaves every weft of another slot. -/
theorem mem_setWeft (s : State) (w v : Weft) (hv : ¬(v.core = w.core ∧ v.slot = w.slot)) : v ∈ (s.setWeft w).wefts ↔ v ∈ s.wefts := by
  simp only [State.setWeft, List.mem_map]
  constructor
  · rintro ⟨x, hx, rfl⟩
    split at hv
    · exact absurd ⟨rfl, rfl⟩ hv
    · rename_i h; simpa [h] using hx
  · intro h
    exact ⟨v, h, by simp [hv]⟩

/-- What a teardown starts with (R148): the context is torn down, and every weft of it has an injected exit. -/
theorem beginTeardown_next (s : State) (c : Nat) (hc : c < s.ctxs.length) :
    let t := s.beginTeardown c
    (t.ctx c).st = .tearing ∧ (t.ctx c).lasterr = (s.ctx c).lasterr ∧ (∀ v ∈ t.wefts, v.ctx = c → v.injected = true)
    ∧ (∀ d, d ≠ c → t.ctx d = s.ctx d) ∧ t.mem = s.mem ∧ t.hamp = s.hamp := by
  have hx : ∀ x, (({ (s.dropCtx c).abandonOps c with itin := s.itin.unbind c } : State).setCtx c x).ctx c = x :=
    fun x => ctx_setCtx _ _ _ hc
  refine ⟨?_, ?_, ?_, ?_, rfl, rfl⟩
  · exact congrArg Context.st (hx _)
  · exact (congrArg Context.lasterr (hx _)).trans rfl
  · intro v hv hvc
    obtain ⟨u, hu, rfl⟩ := List.mem_map.mp hv
    split
    · rfl
    · rename_i h; simp [h] at hvc
  · intro d hd
    exact ctx_setCtx_ne _ _ _ _ hd

end Sys2Proof.Machine
end

