-- ==== Sys2Proof/Laws/State.lean ====
section
/-! SUPPORT. What the plain updates of State and Weft leave in each field: every lemma is true by `rfl`, so that a proof need
not unfold a record update. -/

namespace Sys2Proof.Machine

/-! ### `State.setWeft` -/

@[simp] theorem State.setWeft_boot (s : State) (w : Weft) : (s.setWeft w).boot = s.boot := rfl
@[simp] theorem State.setWeft_power (s : State) (w : Weft) : (s.setWeft w).power = s.power := rfl
@[simp] theorem State.setWeft_host (s : State) (w : Weft) : (s.setWeft w).host = s.host := rfl
@[simp] theorem State.setWeft_fab (s : State) (w : Weft) : (s.setWeft w).fab = s.fab := rfl
@[simp] theorem State.setWeft_ctxs (s : State) (w : Weft) : (s.setWeft w).ctxs = s.ctxs := rfl
@[simp] theorem State.setWeft_queues (s : State) (w : Weft) : (s.setWeft w).queues = s.queues := rfl
@[simp] theorem State.setWeft_teams (s : State) (w : Weft) : (s.setWeft w).teams = s.teams := rfl
@[simp] theorem State.setWeft_launches (s : State) (w : Weft) : (s.setWeft w).launches = s.launches := rfl
@[simp] theorem State.setWeft_pipes (s : State) (w : Weft) : (s.setWeft w).pipes = s.pipes := rfl
@[simp] theorem State.setWeft_cmds (s : State) (w : Weft) : (s.setWeft w).cmds = s.cmds := rfl
@[simp] theorem State.setWeft_allocs (s : State) (w : Weft) : (s.setWeft w).allocs = s.allocs := rfl
@[simp] theorem State.setWeft_accs (s : State) (w : Weft) : (s.setWeft w).accs = s.accs := rfl
@[simp] theorem State.setWeft_vbusy (s : State) (w : Weft) : (s.setWeft w).vbusy = s.vbusy := rfl
@[simp] theorem State.setWeft_icache (s : State) (w : Weft) : (s.setWeft w).icache = s.icache := rfl
@[simp] theorem State.setWeft_tlb (s : State) (w : Weft) : (s.setWeft w).tlb = s.tlb := rfl
@[simp] theorem State.setWeft_wcache (s : State) (w : Weft) : (s.setWeft w).wcache = s.wcache := rfl
@[simp] theorem State.setWeft_holds (s : State) (w : Weft) : (s.setWeft w).holds = s.holds := rfl
@[simp] theorem State.setWeft_mem (s : State) (w : Weft) : (s.setWeft w).mem = s.mem := rfl
@[simp] theorem State.setWeft_pois (s : State) (w : Weft) : (s.setWeft w).pois = s.pois := rfl
@[simp] theorem State.setWeft_hamp (s : State) (w : Weft) : (s.setWeft w).hamp = s.hamp := rfl
@[simp] theorem State.setWeft_ctrs (s : State) (w : Weft) : (s.setWeft w).ctrs = s.ctrs := rfl
@[simp] theorem State.setWeft_rsv (s : State) (w : Weft) : (s.setWeft w).rsv = s.rsv := rfl
@[simp] theorem State.setWeft_scrub (s : State) (w : Weft) : (s.setWeft w).scrub = s.scrub := rfl
@[simp] theorem State.setWeft_banks (s : State) (w : Weft) : (s.setWeft w).banks = s.banks := rfl
@[simp] theorem State.setWeft_cmplines (s : State) (w : Weft) : (s.setWeft w).cmplines = s.cmplines := rfl
@[simp] theorem State.setWeft_plnlines (s : State) (w : Weft) : (s.setWeft w).plnlines = s.plnlines := rfl
@[simp] theorem State.setWeft_itin (s : State) (w : Weft) : (s.setWeft w).itin = s.itin := rfl
@[simp] theorem State.setWeft_snap (s : State) (w : Weft) : (s.setWeft w).snap = s.snap := rfl
@[simp] theorem State.setWeft_stepCtr (s : State) (w : Weft) : (s.setWeft w).stepCtr = s.stepCtr := rfl
@[simp] theorem State.setWeft_dieStep (s : State) (w : Weft) : (s.setWeft w).dieStep = s.dieStep := rfl
@[simp] theorem State.setWeft_clocks (s : State) (w : Weft) : (s.setWeft w).clocks = s.clocks := rfl
@[simp] theorem State.setWeft_debug (s : State) (w : Weft) : (s.setWeft w).debug = s.debug := rfl
@[simp] theorem State.setWeft_nextId (s : State) (w : Weft) : (s.setWeft w).nextId = s.nextId := rfl
@[simp] theorem State.setWeft_draws (s : State) (w : Weft) : (s.setWeft w).draws = s.draws := rfl
@[simp] theorem State.setWeft_agenda (s : State) (w : Weft) : (s.setWeft w).agenda = s.agenda := rfl
@[simp] theorem State.setWeft_focus (s : State) (w : Weft) : (s.setWeft w).focus = s.focus := rfl

/-! ### `State.setTeam` -/

@[simp] theorem State.setTeam_boot (s : State) (t : Team) : (s.setTeam t).boot = s.boot := rfl
@[simp] theorem State.setTeam_power (s : State) (t : Team) : (s.setTeam t).power = s.power := rfl
@[simp] theorem State.setTeam_host (s : State) (t : Team) : (s.setTeam t).host = s.host := rfl
@[simp] theorem State.setTeam_fab (s : State) (t : Team) : (s.setTeam t).fab = s.fab := rfl
@[simp] theorem State.setTeam_ctxs (s : State) (t : Team) : (s.setTeam t).ctxs = s.ctxs := rfl
@[simp] theorem State.setTeam_queues (s : State) (t : Team) : (s.setTeam t).queues = s.queues := rfl
@[simp] theorem State.setTeam_wefts (s : State) (t : Team) : (s.setTeam t).wefts = s.wefts := rfl
@[simp] theorem State.setTeam_launches (s : State) (t : Team) : (s.setTeam t).launches = s.launches := rfl
@[simp] theorem State.setTeam_pipes (s : State) (t : Team) : (s.setTeam t).pipes = s.pipes := rfl
@[simp] theorem State.setTeam_cmds (s : State) (t : Team) : (s.setTeam t).cmds = s.cmds := rfl
@[simp] theorem State.setTeam_allocs (s : State) (t : Team) : (s.setTeam t).allocs = s.allocs := rfl
@[simp] theorem State.setTeam_accs (s : State) (t : Team) : (s.setTeam t).accs = s.accs := rfl
@[simp] theorem State.setTeam_vbusy (s : State) (t : Team) : (s.setTeam t).vbusy = s.vbusy := rfl
@[simp] theorem State.setTeam_icache (s : State) (t : Team) : (s.setTeam t).icache = s.icache := rfl
@[simp] theorem State.setTeam_tlb (s : State) (t : Team) : (s.setTeam t).tlb = s.tlb := rfl
@[simp] theorem State.setTeam_wcache (s : State) (t : Team) : (s.setTeam t).wcache = s.wcache := rfl
@[simp] theorem State.setTeam_holds (s : State) (t : Team) : (s.setTeam t).holds = s.holds := rfl
@[simp] theorem State.setTeam_mem (s : State) (t : Team) : (s.setTeam t).mem = s.mem := rfl
@[simp] theorem State.setTeam_pois (s : State) (t : Team) : (s.setTeam t).pois = s.pois := rfl
@[simp] theorem State.setTeam_hamp (s : State) (t : Team) : (s.setTeam t).hamp = s.hamp := rfl
@[simp] theorem State.setTeam_ctrs (s : State) (t : Team) : (s.setTeam t).ctrs = s.ctrs := rfl
@[simp] theorem State.setTeam_rsv (s : State) (t : Team) : (s.setTeam t).rsv = s.rsv := rfl
@[simp] theorem State.setTeam_scrub (s : State) (t : Team) : (s.setTeam t).scrub = s.scrub := rfl
@[simp] theorem State.setTeam_banks (s : State) (t : Team) : (s.setTeam t).banks = s.banks := rfl
@[simp] theorem State.setTeam_cmplines (s : State) (t : Team) : (s.setTeam t).cmplines = s.cmplines := rfl
@[simp] theorem State.setTeam_plnlines (s : State) (t : Team) : (s.setTeam t).plnlines = s.plnlines := rfl
@[simp] theorem State.setTeam_itin (s : State) (t : Team) : (s.setTeam t).itin = s.itin := rfl
@[simp] theorem State.setTeam_snap (s : State) (t : Team) : (s.setTeam t).snap = s.snap := rfl
@[simp] theorem State.setTeam_stepCtr (s : State) (t : Team) : (s.setTeam t).stepCtr = s.stepCtr := rfl
@[simp] theorem State.setTeam_dieStep (s : State) (t : Team) : (s.setTeam t).dieStep = s.dieStep := rfl
@[simp] theorem State.setTeam_clocks (s : State) (t : Team) : (s.setTeam t).clocks = s.clocks := rfl
@[simp] theorem State.setTeam_debug (s : State) (t : Team) : (s.setTeam t).debug = s.debug := rfl
@[simp] theorem State.setTeam_nextId (s : State) (t : Team) : (s.setTeam t).nextId = s.nextId := rfl
@[simp] theorem State.setTeam_draws (s : State) (t : Team) : (s.setTeam t).draws = s.draws := rfl
@[simp] theorem State.setTeam_agenda (s : State) (t : Team) : (s.setTeam t).agenda = s.agenda := rfl
@[simp] theorem State.setTeam_focus (s : State) (t : Team) : (s.setTeam t).focus = s.focus := rfl

/-! ### `State.setLaunch` -/

@[simp] theorem State.setLaunch_boot (s : State) (l : Launch) : (s.setLaunch l).boot = s.boot := rfl
@[simp] theorem State.setLaunch_power (s : State) (l : Launch) : (s.setLaunch l).power = s.power := rfl
@[simp] theorem State.setLaunch_host (s : State) (l : Launch) : (s.setLaunch l).host = s.host := rfl
@[simp] theorem State.setLaunch_fab (s : State) (l : Launch) : (s.setLaunch l).fab = s.fab := rfl
@[simp] theorem State.setLaunch_ctxs (s : State) (l : Launch) : (s.setLaunch l).ctxs = s.ctxs := rfl
@[simp] theorem State.setLaunch_queues (s : State) (l : Launch) : (s.setLaunch l).queues = s.queues := rfl
@[simp] theorem State.setLaunch_wefts (s : State) (l : Launch) : (s.setLaunch l).wefts = s.wefts := rfl
@[simp] theorem State.setLaunch_teams (s : State) (l : Launch) : (s.setLaunch l).teams = s.teams := rfl
@[simp] theorem State.setLaunch_pipes (s : State) (l : Launch) : (s.setLaunch l).pipes = s.pipes := rfl
@[simp] theorem State.setLaunch_cmds (s : State) (l : Launch) : (s.setLaunch l).cmds = s.cmds := rfl
@[simp] theorem State.setLaunch_allocs (s : State) (l : Launch) : (s.setLaunch l).allocs = s.allocs := rfl
@[simp] theorem State.setLaunch_accs (s : State) (l : Launch) : (s.setLaunch l).accs = s.accs := rfl
@[simp] theorem State.setLaunch_vbusy (s : State) (l : Launch) : (s.setLaunch l).vbusy = s.vbusy := rfl
@[simp] theorem State.setLaunch_icache (s : State) (l : Launch) : (s.setLaunch l).icache = s.icache := rfl
@[simp] theorem State.setLaunch_tlb (s : State) (l : Launch) : (s.setLaunch l).tlb = s.tlb := rfl
@[simp] theorem State.setLaunch_wcache (s : State) (l : Launch) : (s.setLaunch l).wcache = s.wcache := rfl
@[simp] theorem State.setLaunch_holds (s : State) (l : Launch) : (s.setLaunch l).holds = s.holds := rfl
@[simp] theorem State.setLaunch_mem (s : State) (l : Launch) : (s.setLaunch l).mem = s.mem := rfl
@[simp] theorem State.setLaunch_pois (s : State) (l : Launch) : (s.setLaunch l).pois = s.pois := rfl
@[simp] theorem State.setLaunch_hamp (s : State) (l : Launch) : (s.setLaunch l).hamp = s.hamp := rfl
@[simp] theorem State.setLaunch_ctrs (s : State) (l : Launch) : (s.setLaunch l).ctrs = s.ctrs := rfl
@[simp] theorem State.setLaunch_rsv (s : State) (l : Launch) : (s.setLaunch l).rsv = s.rsv := rfl
@[simp] theorem State.setLaunch_scrub (s : State) (l : Launch) : (s.setLaunch l).scrub = s.scrub := rfl
@[simp] theorem State.setLaunch_banks (s : State) (l : Launch) : (s.setLaunch l).banks = s.banks := rfl
@[simp] theorem State.setLaunch_cmplines (s : State) (l : Launch) : (s.setLaunch l).cmplines = s.cmplines := rfl
@[simp] theorem State.setLaunch_plnlines (s : State) (l : Launch) : (s.setLaunch l).plnlines = s.plnlines := rfl
@[simp] theorem State.setLaunch_itin (s : State) (l : Launch) : (s.setLaunch l).itin = s.itin := rfl
@[simp] theorem State.setLaunch_snap (s : State) (l : Launch) : (s.setLaunch l).snap = s.snap := rfl
@[simp] theorem State.setLaunch_stepCtr (s : State) (l : Launch) : (s.setLaunch l).stepCtr = s.stepCtr := rfl
@[simp] theorem State.setLaunch_dieStep (s : State) (l : Launch) : (s.setLaunch l).dieStep = s.dieStep := rfl
@[simp] theorem State.setLaunch_clocks (s : State) (l : Launch) : (s.setLaunch l).clocks = s.clocks := rfl
@[simp] theorem State.setLaunch_debug (s : State) (l : Launch) : (s.setLaunch l).debug = s.debug := rfl
@[simp] theorem State.setLaunch_nextId (s : State) (l : Launch) : (s.setLaunch l).nextId = s.nextId := rfl
@[simp] theorem State.setLaunch_draws (s : State) (l : Launch) : (s.setLaunch l).draws = s.draws := rfl
@[simp] theorem State.setLaunch_agenda (s : State) (l : Launch) : (s.setLaunch l).agenda = s.agenda := rfl
@[simp] theorem State.setLaunch_focus (s : State) (l : Launch) : (s.setLaunch l).focus = s.focus := rfl

/-! ### `State.setPipe` -/

@[simp] theorem State.setPipe_boot (s : State) (p : Pipe) : (s.setPipe p).boot = s.boot := rfl
@[simp] theorem State.setPipe_power (s : State) (p : Pipe) : (s.setPipe p).power = s.power := rfl
@[simp] theorem State.setPipe_host (s : State) (p : Pipe) : (s.setPipe p).host = s.host := rfl
@[simp] theorem State.setPipe_fab (s : State) (p : Pipe) : (s.setPipe p).fab = s.fab := rfl
@[simp] theorem State.setPipe_ctxs (s : State) (p : Pipe) : (s.setPipe p).ctxs = s.ctxs := rfl
@[simp] theorem State.setPipe_queues (s : State) (p : Pipe) : (s.setPipe p).queues = s.queues := rfl
@[simp] theorem State.setPipe_wefts (s : State) (p : Pipe) : (s.setPipe p).wefts = s.wefts := rfl
@[simp] theorem State.setPipe_teams (s : State) (p : Pipe) : (s.setPipe p).teams = s.teams := rfl
@[simp] theorem State.setPipe_launches (s : State) (p : Pipe) : (s.setPipe p).launches = s.launches := rfl
@[simp] theorem State.setPipe_cmds (s : State) (p : Pipe) : (s.setPipe p).cmds = s.cmds := rfl
@[simp] theorem State.setPipe_allocs (s : State) (p : Pipe) : (s.setPipe p).allocs = s.allocs := rfl
@[simp] theorem State.setPipe_accs (s : State) (p : Pipe) : (s.setPipe p).accs = s.accs := rfl
@[simp] theorem State.setPipe_vbusy (s : State) (p : Pipe) : (s.setPipe p).vbusy = s.vbusy := rfl
@[simp] theorem State.setPipe_icache (s : State) (p : Pipe) : (s.setPipe p).icache = s.icache := rfl
@[simp] theorem State.setPipe_tlb (s : State) (p : Pipe) : (s.setPipe p).tlb = s.tlb := rfl
@[simp] theorem State.setPipe_wcache (s : State) (p : Pipe) : (s.setPipe p).wcache = s.wcache := rfl
@[simp] theorem State.setPipe_holds (s : State) (p : Pipe) : (s.setPipe p).holds = s.holds := rfl
@[simp] theorem State.setPipe_mem (s : State) (p : Pipe) : (s.setPipe p).mem = s.mem := rfl
@[simp] theorem State.setPipe_pois (s : State) (p : Pipe) : (s.setPipe p).pois = s.pois := rfl
@[simp] theorem State.setPipe_hamp (s : State) (p : Pipe) : (s.setPipe p).hamp = s.hamp := rfl
@[simp] theorem State.setPipe_ctrs (s : State) (p : Pipe) : (s.setPipe p).ctrs = s.ctrs := rfl
@[simp] theorem State.setPipe_rsv (s : State) (p : Pipe) : (s.setPipe p).rsv = s.rsv := rfl
@[simp] theorem State.setPipe_scrub (s : State) (p : Pipe) : (s.setPipe p).scrub = s.scrub := rfl
@[simp] theorem State.setPipe_banks (s : State) (p : Pipe) : (s.setPipe p).banks = s.banks := rfl
@[simp] theorem State.setPipe_cmplines (s : State) (p : Pipe) : (s.setPipe p).cmplines = s.cmplines := rfl
@[simp] theorem State.setPipe_plnlines (s : State) (p : Pipe) : (s.setPipe p).plnlines = s.plnlines := rfl
@[simp] theorem State.setPipe_itin (s : State) (p : Pipe) : (s.setPipe p).itin = s.itin := rfl
@[simp] theorem State.setPipe_snap (s : State) (p : Pipe) : (s.setPipe p).snap = s.snap := rfl
@[simp] theorem State.setPipe_stepCtr (s : State) (p : Pipe) : (s.setPipe p).stepCtr = s.stepCtr := rfl
@[simp] theorem State.setPipe_dieStep (s : State) (p : Pipe) : (s.setPipe p).dieStep = s.dieStep := rfl
@[simp] theorem State.setPipe_clocks (s : State) (p : Pipe) : (s.setPipe p).clocks = s.clocks := rfl
@[simp] theorem State.setPipe_debug (s : State) (p : Pipe) : (s.setPipe p).debug = s.debug := rfl
@[simp] theorem State.setPipe_nextId (s : State) (p : Pipe) : (s.setPipe p).nextId = s.nextId := rfl
@[simp] theorem State.setPipe_draws (s : State) (p : Pipe) : (s.setPipe p).draws = s.draws := rfl
@[simp] theorem State.setPipe_agenda (s : State) (p : Pipe) : (s.setPipe p).agenda = s.agenda := rfl
@[simp] theorem State.setPipe_focus (s : State) (p : Pipe) : (s.setPipe p).focus = s.focus := rfl

/-! ### `State.setAcc` -/

@[simp] theorem State.setAcc_boot (s : State) (a : Access) : (s.setAcc a).boot = s.boot := rfl
@[simp] theorem State.setAcc_power (s : State) (a : Access) : (s.setAcc a).power = s.power := rfl
@[simp] theorem State.setAcc_host (s : State) (a : Access) : (s.setAcc a).host = s.host := rfl
@[simp] theorem State.setAcc_fab (s : State) (a : Access) : (s.setAcc a).fab = s.fab := rfl
@[simp] theorem State.setAcc_ctxs (s : State) (a : Access) : (s.setAcc a).ctxs = s.ctxs := rfl
@[simp] theorem State.setAcc_queues (s : State) (a : Access) : (s.setAcc a).queues = s.queues := rfl
@[simp] theorem State.setAcc_wefts (s : State) (a : Access) : (s.setAcc a).wefts = s.wefts := rfl
@[simp] theorem State.setAcc_teams (s : State) (a : Access) : (s.setAcc a).teams = s.teams := rfl
@[simp] theorem State.setAcc_launches (s : State) (a : Access) : (s.setAcc a).launches = s.launches := rfl
@[simp] theorem State.setAcc_pipes (s : State) (a : Access) : (s.setAcc a).pipes = s.pipes := rfl
@[simp] theorem State.setAcc_cmds (s : State) (a : Access) : (s.setAcc a).cmds = s.cmds := rfl
@[simp] theorem State.setAcc_allocs (s : State) (a : Access) : (s.setAcc a).allocs = s.allocs := rfl
@[simp] theorem State.setAcc_vbusy (s : State) (a : Access) : (s.setAcc a).vbusy = s.vbusy := rfl
@[simp] theorem State.setAcc_icache (s : State) (a : Access) : (s.setAcc a).icache = s.icache := rfl
@[simp] theorem State.setAcc_tlb (s : State) (a : Access) : (s.setAcc a).tlb = s.tlb := rfl
@[simp] theorem State.setAcc_wcache (s : State) (a : Access) : (s.setAcc a).wcache = s.wcache := rfl
@[simp] theorem State.setAcc_holds (s : State) (a : Access) : (s.setAcc a).holds = s.holds := rfl
@[simp] theorem State.setAcc_mem (s : State) (a : Access) : (s.setAcc a).mem = s.mem := rfl
@[simp] theorem State.setAcc_pois (s : State) (a : Access) : (s.setAcc a).pois = s.pois := rfl
@[simp] theorem State.setAcc_hamp (s : State) (a : Access) : (s.setAcc a).hamp = s.hamp := rfl
@[simp] theorem State.setAcc_ctrs (s : State) (a : Access) : (s.setAcc a).ctrs = s.ctrs := rfl
@[simp] theorem State.setAcc_rsv (s : State) (a : Access) : (s.setAcc a).rsv = s.rsv := rfl
@[simp] theorem State.setAcc_scrub (s : State) (a : Access) : (s.setAcc a).scrub = s.scrub := rfl
@[simp] theorem State.setAcc_banks (s : State) (a : Access) : (s.setAcc a).banks = s.banks := rfl
@[simp] theorem State.setAcc_cmplines (s : State) (a : Access) : (s.setAcc a).cmplines = s.cmplines := rfl
@[simp] theorem State.setAcc_plnlines (s : State) (a : Access) : (s.setAcc a).plnlines = s.plnlines := rfl
@[simp] theorem State.setAcc_itin (s : State) (a : Access) : (s.setAcc a).itin = s.itin := rfl
@[simp] theorem State.setAcc_snap (s : State) (a : Access) : (s.setAcc a).snap = s.snap := rfl
@[simp] theorem State.setAcc_stepCtr (s : State) (a : Access) : (s.setAcc a).stepCtr = s.stepCtr := rfl
@[simp] theorem State.setAcc_dieStep (s : State) (a : Access) : (s.setAcc a).dieStep = s.dieStep := rfl
@[simp] theorem State.setAcc_clocks (s : State) (a : Access) : (s.setAcc a).clocks = s.clocks := rfl
@[simp] theorem State.setAcc_debug (s : State) (a : Access) : (s.setAcc a).debug = s.debug := rfl
@[simp] theorem State.setAcc_nextId (s : State) (a : Access) : (s.setAcc a).nextId = s.nextId := rfl
@[simp] theorem State.setAcc_draws (s : State) (a : Access) : (s.setAcc a).draws = s.draws := rfl
@[simp] theorem State.setAcc_agenda (s : State) (a : Access) : (s.setAcc a).agenda = s.agenda := rfl
@[simp] theorem State.setAcc_focus (s : State) (a : Access) : (s.setAcc a).focus = s.focus := rfl

/-! ### `State.dropAcc` -/

@[simp] theorem State.dropAcc_boot (s : State) (n : Nat) : (s.dropAcc n).boot = s.boot := rfl
@[simp] theorem State.dropAcc_power (s : State) (n : Nat) : (s.dropAcc n).power = s.power := rfl
@[simp] theorem State.dropAcc_host (s : State) (n : Nat) : (s.dropAcc n).host = s.host := rfl
@[simp] theorem State.dropAcc_fab (s : State) (n : Nat) : (s.dropAcc n).fab = s.fab := rfl
@[simp] theorem State.dropAcc_ctxs (s : State) (n : Nat) : (s.dropAcc n).ctxs = s.ctxs := rfl
@[simp] theorem State.dropAcc_queues (s : State) (n : Nat) : (s.dropAcc n).queues = s.queues := rfl
@[simp] theorem State.dropAcc_wefts (s : State) (n : Nat) : (s.dropAcc n).wefts = s.wefts := rfl
@[simp] theorem State.dropAcc_teams (s : State) (n : Nat) : (s.dropAcc n).teams = s.teams := rfl
@[simp] theorem State.dropAcc_launches (s : State) (n : Nat) : (s.dropAcc n).launches = s.launches := rfl
@[simp] theorem State.dropAcc_pipes (s : State) (n : Nat) : (s.dropAcc n).pipes = s.pipes := rfl
@[simp] theorem State.dropAcc_cmds (s : State) (n : Nat) : (s.dropAcc n).cmds = s.cmds := rfl
@[simp] theorem State.dropAcc_allocs (s : State) (n : Nat) : (s.dropAcc n).allocs = s.allocs := rfl
@[simp] theorem State.dropAcc_vbusy (s : State) (n : Nat) : (s.dropAcc n).vbusy = s.vbusy := rfl
@[simp] theorem State.dropAcc_icache (s : State) (n : Nat) : (s.dropAcc n).icache = s.icache := rfl
@[simp] theorem State.dropAcc_tlb (s : State) (n : Nat) : (s.dropAcc n).tlb = s.tlb := rfl
@[simp] theorem State.dropAcc_wcache (s : State) (n : Nat) : (s.dropAcc n).wcache = s.wcache := rfl
@[simp] theorem State.dropAcc_holds (s : State) (n : Nat) : (s.dropAcc n).holds = s.holds := rfl
@[simp] theorem State.dropAcc_mem (s : State) (n : Nat) : (s.dropAcc n).mem = s.mem := rfl
@[simp] theorem State.dropAcc_pois (s : State) (n : Nat) : (s.dropAcc n).pois = s.pois := rfl
@[simp] theorem State.dropAcc_hamp (s : State) (n : Nat) : (s.dropAcc n).hamp = s.hamp := rfl
@[simp] theorem State.dropAcc_ctrs (s : State) (n : Nat) : (s.dropAcc n).ctrs = s.ctrs := rfl
@[simp] theorem State.dropAcc_rsv (s : State) (n : Nat) : (s.dropAcc n).rsv = s.rsv := rfl
@[simp] theorem State.dropAcc_scrub (s : State) (n : Nat) : (s.dropAcc n).scrub = s.scrub := rfl
@[simp] theorem State.dropAcc_banks (s : State) (n : Nat) : (s.dropAcc n).banks = s.banks := rfl
@[simp] theorem State.dropAcc_cmplines (s : State) (n : Nat) : (s.dropAcc n).cmplines = s.cmplines := rfl
@[simp] theorem State.dropAcc_plnlines (s : State) (n : Nat) : (s.dropAcc n).plnlines = s.plnlines := rfl
@[simp] theorem State.dropAcc_itin (s : State) (n : Nat) : (s.dropAcc n).itin = s.itin := rfl
@[simp] theorem State.dropAcc_snap (s : State) (n : Nat) : (s.dropAcc n).snap = s.snap := rfl
@[simp] theorem State.dropAcc_stepCtr (s : State) (n : Nat) : (s.dropAcc n).stepCtr = s.stepCtr := rfl
@[simp] theorem State.dropAcc_dieStep (s : State) (n : Nat) : (s.dropAcc n).dieStep = s.dieStep := rfl
@[simp] theorem State.dropAcc_clocks (s : State) (n : Nat) : (s.dropAcc n).clocks = s.clocks := rfl
@[simp] theorem State.dropAcc_debug (s : State) (n : Nat) : (s.dropAcc n).debug = s.debug := rfl
@[simp] theorem State.dropAcc_nextId (s : State) (n : Nat) : (s.dropAcc n).nextId = s.nextId := rfl
@[simp] theorem State.dropAcc_draws (s : State) (n : Nat) : (s.dropAcc n).draws = s.draws := rfl
@[simp] theorem State.dropAcc_agenda (s : State) (n : Nat) : (s.dropAcc n).agenda = s.agenda := rfl
@[simp] theorem State.dropAcc_focus (s : State) (n : Nat) : (s.dropAcc n).focus = s.focus := rfl

/-! ### `State.post` -/

@[simp] theorem State.post_boot (s : State) (i : Instr) : (s.post i).boot = s.boot := rfl
@[simp] theorem State.post_power (s : State) (i : Instr) : (s.post i).power = s.power := rfl
@[simp] theorem State.post_host (s : State) (i : Instr) : (s.post i).host = s.host := rfl
@[simp] theorem State.post_fab (s : State) (i : Instr) : (s.post i).fab = s.fab := rfl
@[simp] theorem State.post_ctxs (s : State) (i : Instr) : (s.post i).ctxs = s.ctxs := rfl
@[simp] theorem State.post_queues (s : State) (i : Instr) : (s.post i).queues = s.queues := rfl
@[simp] theorem State.post_wefts (s : State) (i : Instr) : (s.post i).wefts = s.wefts := rfl
@[simp] theorem State.post_teams (s : State) (i : Instr) : (s.post i).teams = s.teams := rfl
@[simp] theorem State.post_launches (s : State) (i : Instr) : (s.post i).launches = s.launches := rfl
@[simp] theorem State.post_pipes (s : State) (i : Instr) : (s.post i).pipes = s.pipes := rfl
@[simp] theorem State.post_cmds (s : State) (i : Instr) : (s.post i).cmds = s.cmds := rfl
@[simp] theorem State.post_allocs (s : State) (i : Instr) : (s.post i).allocs = s.allocs := rfl
@[simp] theorem State.post_accs (s : State) (i : Instr) : (s.post i).accs = s.accs := rfl
@[simp] theorem State.post_vbusy (s : State) (i : Instr) : (s.post i).vbusy = s.vbusy := rfl
@[simp] theorem State.post_icache (s : State) (i : Instr) : (s.post i).icache = s.icache := rfl
@[simp] theorem State.post_tlb (s : State) (i : Instr) : (s.post i).tlb = s.tlb := rfl
@[simp] theorem State.post_wcache (s : State) (i : Instr) : (s.post i).wcache = s.wcache := rfl
@[simp] theorem State.post_holds (s : State) (i : Instr) : (s.post i).holds = s.holds := rfl
@[simp] theorem State.post_mem (s : State) (i : Instr) : (s.post i).mem = s.mem := rfl
@[simp] theorem State.post_pois (s : State) (i : Instr) : (s.post i).pois = s.pois := rfl
@[simp] theorem State.post_hamp (s : State) (i : Instr) : (s.post i).hamp = s.hamp := rfl
@[simp] theorem State.post_ctrs (s : State) (i : Instr) : (s.post i).ctrs = s.ctrs := rfl
@[simp] theorem State.post_rsv (s : State) (i : Instr) : (s.post i).rsv = s.rsv := rfl
@[simp] theorem State.post_scrub (s : State) (i : Instr) : (s.post i).scrub = s.scrub := rfl
@[simp] theorem State.post_banks (s : State) (i : Instr) : (s.post i).banks = s.banks := rfl
@[simp] theorem State.post_cmplines (s : State) (i : Instr) : (s.post i).cmplines = s.cmplines := rfl
@[simp] theorem State.post_plnlines (s : State) (i : Instr) : (s.post i).plnlines = s.plnlines := rfl
@[simp] theorem State.post_itin (s : State) (i : Instr) : (s.post i).itin = s.itin := rfl
@[simp] theorem State.post_snap (s : State) (i : Instr) : (s.post i).snap = s.snap := rfl
@[simp] theorem State.post_stepCtr (s : State) (i : Instr) : (s.post i).stepCtr = s.stepCtr := rfl
@[simp] theorem State.post_dieStep (s : State) (i : Instr) : (s.post i).dieStep = s.dieStep := rfl
@[simp] theorem State.post_clocks (s : State) (i : Instr) : (s.post i).clocks = s.clocks := rfl
@[simp] theorem State.post_debug (s : State) (i : Instr) : (s.post i).debug = s.debug := rfl
@[simp] theorem State.post_nextId (s : State) (i : Instr) : (s.post i).nextId = s.nextId := rfl
@[simp] theorem State.post_draws (s : State) (i : Instr) : (s.post i).draws = s.draws := rfl
@[simp] theorem State.post_focus (s : State) (i : Instr) : (s.post i).focus = s.focus := rfl

/-! ### `State.emit` -/

@[simp] theorem State.emit_boot (s : State) (o : Out) : (s.emit o).boot = s.boot := rfl
@[simp] theorem State.emit_power (s : State) (o : Out) : (s.emit o).power = s.power := rfl
@[simp] theorem State.emit_fab (s : State) (o : Out) : (s.emit o).fab = s.fab := rfl
@[simp] theorem State.emit_ctxs (s : State) (o : Out) : (s.emit o).ctxs = s.ctxs := rfl
@[simp] theorem State.emit_queues (s : State) (o : Out) : (s.emit o).queues = s.queues := rfl
@[simp] theorem State.emit_wefts (s : State) (o : Out) : (s.emit o).wefts = s.wefts := rfl
@[simp] theorem State.emit_teams (s : State) (o : Out) : (s.emit o).teams = s.teams := rfl
@[simp] theorem State.emit_launches (s : State) (o : Out) : (s.emit o).launches = s.launches := rfl
@[simp] theorem State.emit_pipes (s : State) (o : Out) : (s.emit o).pipes = s.pipes := rfl
@[simp] theorem State.emit_cmds (s : State) (o : Out) : (s.emit o).cmds = s.cmds := rfl
@[simp] theorem State.emit_allocs (s : State) (o : Out) : (s.emit o).allocs = s.allocs := rfl
@[simp] theorem State.emit_accs (s : State) (o : Out) : (s.emit o).accs = s.accs := rfl
@[simp] theorem State.emit_vbusy (s : State) (o : Out) : (s.emit o).vbusy = s.vbusy := rfl
@[simp] theorem State.emit_icache (s : State) (o : Out) : (s.emit o).icache = s.icache := rfl
@[simp] theorem State.emit_tlb (s : State) (o : Out) : (s.emit o).tlb = s.tlb := rfl
@[simp] theorem State.emit_wcache (s : State) (o : Out) : (s.emit o).wcache = s.wcache := rfl
@[simp] theorem State.emit_holds (s : State) (o : Out) : (s.emit o).holds = s.holds := rfl
@[simp] theorem State.emit_mem (s : State) (o : Out) : (s.emit o).mem = s.mem := rfl
@[simp] theorem State.emit_pois (s : State) (o : Out) : (s.emit o).pois = s.pois := rfl
@[simp] theorem State.emit_hamp (s : State) (o : Out) : (s.emit o).hamp = s.hamp := rfl
@[simp] theorem State.emit_ctrs (s : State) (o : Out) : (s.emit o).ctrs = s.ctrs := rfl
@[simp] theorem State.emit_rsv (s : State) (o : Out) : (s.emit o).rsv = s.rsv := rfl
@[simp] theorem State.emit_scrub (s : State) (o : Out) : (s.emit o).scrub = s.scrub := rfl
@[simp] theorem State.emit_banks (s : State) (o : Out) : (s.emit o).banks = s.banks := rfl
@[simp] theorem State.emit_cmplines (s : State) (o : Out) : (s.emit o).cmplines = s.cmplines := rfl
@[simp] theorem State.emit_plnlines (s : State) (o : Out) : (s.emit o).plnlines = s.plnlines := rfl
@[simp] theorem State.emit_itin (s : State) (o : Out) : (s.emit o).itin = s.itin := rfl
@[simp] theorem State.emit_snap (s : State) (o : Out) : (s.emit o).snap = s.snap := rfl
@[simp] theorem State.emit_stepCtr (s : State) (o : Out) : (s.emit o).stepCtr = s.stepCtr := rfl
@[simp] theorem State.emit_dieStep (s : State) (o : Out) : (s.emit o).dieStep = s.dieStep := rfl
@[simp] theorem State.emit_clocks (s : State) (o : Out) : (s.emit o).clocks = s.clocks := rfl
@[simp] theorem State.emit_debug (s : State) (o : Out) : (s.emit o).debug = s.debug := rfl
@[simp] theorem State.emit_nextId (s : State) (o : Out) : (s.emit o).nextId = s.nextId := rfl
@[simp] theorem State.emit_draws (s : State) (o : Out) : (s.emit o).draws = s.draws := rfl
@[simp] theorem State.emit_agenda (s : State) (o : Out) : (s.emit o).agenda = s.agenda := rfl
@[simp] theorem State.emit_focus (s : State) (o : Out) : (s.emit o).focus = s.focus := rfl

/-! ### `State.debit` -/

@[simp] theorem State.debit_boot (s : State) (c u : Nat) : (s.debit c u).boot = s.boot := rfl
@[simp] theorem State.debit_host (s : State) (c u : Nat) : (s.debit c u).host = s.host := rfl
@[simp] theorem State.debit_fab (s : State) (c u : Nat) : (s.debit c u).fab = s.fab := rfl
@[simp] theorem State.debit_ctxs (s : State) (c u : Nat) : (s.debit c u).ctxs = s.ctxs := rfl
@[simp] theorem State.debit_queues (s : State) (c u : Nat) : (s.debit c u).queues = s.queues := rfl
@[simp] theorem State.debit_wefts (s : State) (c u : Nat) : (s.debit c u).wefts = s.wefts := rfl
@[simp] theorem State.debit_teams (s : State) (c u : Nat) : (s.debit c u).teams = s.teams := rfl
@[simp] theorem State.debit_launches (s : State) (c u : Nat) : (s.debit c u).launches = s.launches := rfl
@[simp] theorem State.debit_pipes (s : State) (c u : Nat) : (s.debit c u).pipes = s.pipes := rfl
@[simp] theorem State.debit_cmds (s : State) (c u : Nat) : (s.debit c u).cmds = s.cmds := rfl
@[simp] theorem State.debit_allocs (s : State) (c u : Nat) : (s.debit c u).allocs = s.allocs := rfl
@[simp] theorem State.debit_accs (s : State) (c u : Nat) : (s.debit c u).accs = s.accs := rfl
@[simp] theorem State.debit_vbusy (s : State) (c u : Nat) : (s.debit c u).vbusy = s.vbusy := rfl
@[simp] theorem State.debit_icache (s : State) (c u : Nat) : (s.debit c u).icache = s.icache := rfl
@[simp] theorem State.debit_tlb (s : State) (c u : Nat) : (s.debit c u).tlb = s.tlb := rfl
@[simp] theorem State.debit_wcache (s : State) (c u : Nat) : (s.debit c u).wcache = s.wcache := rfl
@[simp] theorem State.debit_holds (s : State) (c u : Nat) : (s.debit c u).holds = s.holds := rfl
@[simp] theorem State.debit_mem (s : State) (c u : Nat) : (s.debit c u).mem = s.mem := rfl
@[simp] theorem State.debit_pois (s : State) (c u : Nat) : (s.debit c u).pois = s.pois := rfl
@[simp] theorem State.debit_hamp (s : State) (c u : Nat) : (s.debit c u).hamp = s.hamp := rfl
@[simp] theorem State.debit_ctrs (s : State) (c u : Nat) : (s.debit c u).ctrs = s.ctrs := rfl
@[simp] theorem State.debit_rsv (s : State) (c u : Nat) : (s.debit c u).rsv = s.rsv := rfl
@[simp] theorem State.debit_scrub (s : State) (c u : Nat) : (s.debit c u).scrub = s.scrub := rfl
@[simp] theorem State.debit_banks (s : State) (c u : Nat) : (s.debit c u).banks = s.banks := rfl
@[simp] theorem State.debit_cmplines (s : State) (c u : Nat) : (s.debit c u).cmplines = s.cmplines := rfl
@[simp] theorem State.debit_plnlines (s : State) (c u : Nat) : (s.debit c u).plnlines = s.plnlines := rfl
@[simp] theorem State.debit_itin (s : State) (c u : Nat) : (s.debit c u).itin = s.itin := rfl
@[simp] theorem State.debit_snap (s : State) (c u : Nat) : (s.debit c u).snap = s.snap := rfl
@[simp] theorem State.debit_stepCtr (s : State) (c u : Nat) : (s.debit c u).stepCtr = s.stepCtr := rfl
@[simp] theorem State.debit_dieStep (s : State) (c u : Nat) : (s.debit c u).dieStep = s.dieStep := rfl
@[simp] theorem State.debit_clocks (s : State) (c u : Nat) : (s.debit c u).clocks = s.clocks := rfl
@[simp] theorem State.debit_debug (s : State) (c u : Nat) : (s.debit c u).debug = s.debug := rfl
@[simp] theorem State.debit_nextId (s : State) (c u : Nat) : (s.debit c u).nextId = s.nextId := rfl
@[simp] theorem State.debit_draws (s : State) (c u : Nat) : (s.debit c u).draws = s.draws := rfl
@[simp] theorem State.debit_agenda (s : State) (c u : Nat) : (s.debit c u).agenda = s.agenda := rfl
@[simp] theorem State.debit_focus (s : State) (c u : Nat) : (s.debit c u).focus = s.focus := rfl

/-! ### `State.setCtx` -/

@[simp] theorem State.setCtx_boot (s : State) (c : Nat) (x : Context) : (s.setCtx c x).boot = s.boot := rfl
@[simp] theorem State.setCtx_power (s : State) (c : Nat) (x : Context) : (s.setCtx c x).power = s.power := rfl
@[simp] theorem State.setCtx_host (s : State) (c : Nat) (x : Context) : (s.setCtx c x).host = s.host := rfl
@[simp] theorem State.setCtx_fab (s : State) (c : Nat) (x : Context) : (s.setCtx c x).fab = s.fab := rfl
@[simp] theorem State.setCtx_queues (s : State) (c : Nat) (x : Context) : (s.setCtx c x).queues = s.queues := rfl
@[simp] theorem State.setCtx_wefts (s : State) (c : Nat) (x : Context) : (s.setCtx c x).wefts = s.wefts := rfl
@[simp] theorem State.setCtx_teams (s : State) (c : Nat) (x : Context) : (s.setCtx c x).teams = s.teams := rfl
@[simp] theorem State.setCtx_launches (s : State) (c : Nat) (x : Context) : (s.setCtx c x).launches = s.launches := rfl
@[simp] theorem State.setCtx_pipes (s : State) (c : Nat) (x : Context) : (s.setCtx c x).pipes = s.pipes := rfl
@[simp] theorem State.setCtx_cmds (s : State) (c : Nat) (x : Context) : (s.setCtx c x).cmds = s.cmds := rfl
@[simp] theorem State.setCtx_allocs (s : State) (c : Nat) (x : Context) : (s.setCtx c x).allocs = s.allocs := rfl
@[simp] theorem State.setCtx_accs (s : State) (c : Nat) (x : Context) : (s.setCtx c x).accs = s.accs := rfl
@[simp] theorem State.setCtx_vbusy (s : State) (c : Nat) (x : Context) : (s.setCtx c x).vbusy = s.vbusy := rfl
@[simp] theorem State.setCtx_icache (s : State) (c : Nat) (x : Context) : (s.setCtx c x).icache = s.icache := rfl
@[simp] theorem State.setCtx_tlb (s : State) (c : Nat) (x : Context) : (s.setCtx c x).tlb = s.tlb := rfl
@[simp] theorem State.setCtx_wcache (s : State) (c : Nat) (x : Context) : (s.setCtx c x).wcache = s.wcache := rfl
@[simp] theorem State.setCtx_holds (s : State) (c : Nat) (x : Context) : (s.setCtx c x).holds = s.holds := rfl
@[simp] theorem State.setCtx_mem (s : State) (c : Nat) (x : Context) : (s.setCtx c x).mem = s.mem := rfl
@[simp] theorem State.setCtx_pois (s : State) (c : Nat) (x : Context) : (s.setCtx c x).pois = s.pois := rfl
@[simp] theorem State.setCtx_hamp (s : State) (c : Nat) (x : Context) : (s.setCtx c x).hamp = s.hamp := rfl
@[simp] theorem State.setCtx_ctrs (s : State) (c : Nat) (x : Context) : (s.setCtx c x).ctrs = s.ctrs := rfl
@[simp] theorem State.setCtx_rsv (s : State) (c : Nat) (x : Context) : (s.setCtx c x).rsv = s.rsv := rfl
@[simp] theorem State.setCtx_scrub (s : State) (c : Nat) (x : Context) : (s.setCtx c x).scrub = s.scrub := rfl
@[simp] theorem State.setCtx_banks (s : State) (c : Nat) (x : Context) : (s.setCtx c x).banks = s.banks := rfl
@[simp] theorem State.setCtx_cmplines (s : State) (c : Nat) (x : Context) : (s.setCtx c x).cmplines = s.cmplines := rfl
@[simp] theorem State.setCtx_plnlines (s : State) (c : Nat) (x : Context) : (s.setCtx c x).plnlines = s.plnlines := rfl
@[simp] theorem State.setCtx_itin (s : State) (c : Nat) (x : Context) : (s.setCtx c x).itin = s.itin := rfl
@[simp] theorem State.setCtx_snap (s : State) (c : Nat) (x : Context) : (s.setCtx c x).snap = s.snap := rfl
@[simp] theorem State.setCtx_stepCtr (s : State) (c : Nat) (x : Context) : (s.setCtx c x).stepCtr = s.stepCtr := rfl
@[simp] theorem State.setCtx_dieStep (s : State) (c : Nat) (x : Context) : (s.setCtx c x).dieStep = s.dieStep := rfl
@[simp] theorem State.setCtx_clocks (s : State) (c : Nat) (x : Context) : (s.setCtx c x).clocks = s.clocks := rfl
@[simp] theorem State.setCtx_debug (s : State) (c : Nat) (x : Context) : (s.setCtx c x).debug = s.debug := rfl
@[simp] theorem State.setCtx_nextId (s : State) (c : Nat) (x : Context) : (s.setCtx c x).nextId = s.nextId := rfl
@[simp] theorem State.setCtx_draws (s : State) (c : Nat) (x : Context) : (s.setCtx c x).draws = s.draws := rfl
@[simp] theorem State.setCtx_agenda (s : State) (c : Nat) (x : Context) : (s.setCtx c x).agenda = s.agenda := rfl
@[simp] theorem State.setCtx_focus (s : State) (c : Nat) (x : Context) : (s.setCtx c x).focus = s.focus := rfl

/-! ### `State.writeBytes` -/

@[simp] theorem State.writeBytes_boot (s : State) (k : Nat) (bs : List Byte) : (s.writeBytes k bs).boot = s.boot := rfl
@[simp] theorem State.writeBytes_power (s : State) (k : Nat) (bs : List Byte) : (s.writeBytes k bs).power = s.power := rfl
@[simp] theorem State.writeBytes_host (s : State) (k : Nat) (bs : List Byte) : (s.writeBytes k bs).host = s.host := rfl
@[simp] theorem State.writeBytes_fab (s : State) (k : Nat) (bs : List Byte) : (s.writeBytes k bs).fab = s.fab := rfl
@[simp] theorem State.writeBytes_ctxs (s : State) (k : Nat) (bs : List Byte) : (s.writeBytes k bs).ctxs = s.ctxs := rfl
@[simp] theorem State.writeBytes_queues (s : State) (k : Nat) (bs : List Byte) : (s.writeBytes k bs).queues = s.queues := rfl
@[simp] theorem State.writeBytes_wefts (s : State) (k : Nat) (bs : List Byte) : (s.writeBytes k bs).wefts = s.wefts := rfl
@[simp] theorem State.writeBytes_teams (s : State) (k : Nat) (bs : List Byte) : (s.writeBytes k bs).teams = s.teams := rfl
@[simp] theorem State.writeBytes_launches (s : State) (k : Nat) (bs : List Byte) : (s.writeBytes k bs).launches = s.launches := rfl
@[simp] theorem State.writeBytes_pipes (s : State) (k : Nat) (bs : List Byte) : (s.writeBytes k bs).pipes = s.pipes := rfl
@[simp] theorem State.writeBytes_cmds (s : State) (k : Nat) (bs : List Byte) : (s.writeBytes k bs).cmds = s.cmds := rfl
@[simp] theorem State.writeBytes_allocs (s : State) (k : Nat) (bs : List Byte) : (s.writeBytes k bs).allocs = s.allocs := rfl
@[simp] theorem State.writeBytes_accs (s : State) (k : Nat) (bs : List Byte) : (s.writeBytes k bs).accs = s.accs := rfl
@[simp] theorem State.writeBytes_vbusy (s : State) (k : Nat) (bs : List Byte) : (s.writeBytes k bs).vbusy = s.vbusy := rfl
@[simp] theorem State.writeBytes_icache (s : State) (k : Nat) (bs : List Byte) : (s.writeBytes k bs).icache = s.icache := rfl
@[simp] theorem State.writeBytes_tlb (s : State) (k : Nat) (bs : List Byte) : (s.writeBytes k bs).tlb = s.tlb := rfl
@[simp] theorem State.writeBytes_wcache (s : State) (k : Nat) (bs : List Byte) : (s.writeBytes k bs).wcache = s.wcache := rfl
@[simp] theorem State.writeBytes_holds (s : State) (k : Nat) (bs : List Byte) : (s.writeBytes k bs).holds = s.holds := rfl
@[simp] theorem State.writeBytes_rsv (s : State) (k : Nat) (bs : List Byte) : (s.writeBytes k bs).rsv = s.rsv := rfl
@[simp] theorem State.writeBytes_scrub (s : State) (k : Nat) (bs : List Byte) : (s.writeBytes k bs).scrub = s.scrub := rfl
@[simp] theorem State.writeBytes_banks (s : State) (k : Nat) (bs : List Byte) : (s.writeBytes k bs).banks = s.banks := rfl
@[simp] theorem State.writeBytes_cmplines (s : State) (k : Nat) (bs : List Byte) : (s.writeBytes k bs).cmplines = s.cmplines := rfl
@[simp] theorem State.writeBytes_plnlines (s : State) (k : Nat) (bs : List Byte) : (s.writeBytes k bs).plnlines = s.plnlines := rfl
@[simp] theorem State.writeBytes_itin (s : State) (k : Nat) (bs : List Byte) : (s.writeBytes k bs).itin = s.itin := rfl
@[simp] theorem State.writeBytes_snap (s : State) (k : Nat) (bs : List Byte) : (s.writeBytes k bs).snap = s.snap := rfl
@[simp] theorem State.writeBytes_stepCtr (s : State) (k : Nat) (bs : List Byte) : (s.writeBytes k bs).stepCtr = s.stepCtr := rfl
@[simp] theorem State.writeBytes_dieStep (s : State) (k : Nat) (bs : List Byte) : (s.writeBytes k bs).dieStep = s.dieStep := rfl
@[simp] theorem State.writeBytes_clocks (s : State) (k : Nat) (bs : List Byte) : (s.writeBytes k bs).clocks = s.clocks := rfl
@[simp] theorem State.writeBytes_debug (s : State) (k : Nat) (bs : List Byte) : (s.writeBytes k bs).debug = s.debug := rfl
@[simp] theorem State.writeBytes_nextId (s : State) (k : Nat) (bs : List Byte) : (s.writeBytes k bs).nextId = s.nextId := rfl
@[simp] theorem State.writeBytes_draws (s : State) (k : Nat) (bs : List Byte) : (s.writeBytes k bs).draws = s.draws := rfl
@[simp] theorem State.writeBytes_agenda (s : State) (k : Nat) (bs : List Byte) : (s.writeBytes k bs).agenda = s.agenda := rfl
@[simp] theorem State.writeBytes_focus (s : State) (k : Nat) (bs : List Byte) : (s.writeBytes k bs).focus = s.focus := rfl

/-! ### `State.write` -/

@[simp] theorem State.write_boot (s : State) (cs : List Host.Cell) (n : Nat) : (s.write cs n).boot = s.boot := rfl
@[simp] theorem State.write_power (s : State) (cs : List Host.Cell) (n : Nat) : (s.write cs n).power = s.power := rfl
@[simp] theorem State.write_host (s : State) (cs : List Host.Cell) (n : Nat) : (s.write cs n).host = s.host := rfl
@[simp] theorem State.write_fab (s : State) (cs : List Host.Cell) (n : Nat) : (s.write cs n).fab = s.fab := rfl
@[simp] theorem State.write_ctxs (s : State) (cs : List Host.Cell) (n : Nat) : (s.write cs n).ctxs = s.ctxs := rfl
@[simp] theorem State.write_queues (s : State) (cs : List Host.Cell) (n : Nat) : (s.write cs n).queues = s.queues := rfl
@[simp] theorem State.write_wefts (s : State) (cs : List Host.Cell) (n : Nat) : (s.write cs n).wefts = s.wefts := rfl
@[simp] theorem State.write_teams (s : State) (cs : List Host.Cell) (n : Nat) : (s.write cs n).teams = s.teams := rfl
@[simp] theorem State.write_launches (s : State) (cs : List Host.Cell) (n : Nat) : (s.write cs n).launches = s.launches := rfl
@[simp] theorem State.write_pipes (s : State) (cs : List Host.Cell) (n : Nat) : (s.write cs n).pipes = s.pipes := rfl
@[simp] theorem State.write_cmds (s : State) (cs : List Host.Cell) (n : Nat) : (s.write cs n).cmds = s.cmds := rfl
@[simp] theorem State.write_allocs (s : State) (cs : List Host.Cell) (n : Nat) : (s.write cs n).allocs = s.allocs := rfl
@[simp] theorem State.write_accs (s : State) (cs : List Host.Cell) (n : Nat) : (s.write cs n).accs = s.accs := rfl
@[simp] theorem State.write_vbusy (s : State) (cs : List Host.Cell) (n : Nat) : (s.write cs n).vbusy = s.vbusy := rfl
@[simp] theorem State.write_icache (s : State) (cs : List Host.Cell) (n : Nat) : (s.write cs n).icache = s.icache := rfl
@[simp] theorem State.write_tlb (s : State) (cs : List Host.Cell) (n : Nat) : (s.write cs n).tlb = s.tlb := rfl
@[simp] theorem State.write_wcache (s : State) (cs : List Host.Cell) (n : Nat) : (s.write cs n).wcache = s.wcache := rfl
@[simp] theorem State.write_holds (s : State) (cs : List Host.Cell) (n : Nat) : (s.write cs n).holds = s.holds := rfl
@[simp] theorem State.write_rsv (s : State) (cs : List Host.Cell) (n : Nat) : (s.write cs n).rsv = s.rsv := rfl
@[simp] theorem State.write_scrub (s : State) (cs : List Host.Cell) (n : Nat) : (s.write cs n).scrub = s.scrub := rfl
@[simp] theorem State.write_banks (s : State) (cs : List Host.Cell) (n : Nat) : (s.write cs n).banks = s.banks := rfl
@[simp] theorem State.write_cmplines (s : State) (cs : List Host.Cell) (n : Nat) : (s.write cs n).cmplines = s.cmplines := rfl
@[simp] theorem State.write_plnlines (s : State) (cs : List Host.Cell) (n : Nat) : (s.write cs n).plnlines = s.plnlines := rfl
@[simp] theorem State.write_itin (s : State) (cs : List Host.Cell) (n : Nat) : (s.write cs n).itin = s.itin := rfl
@[simp] theorem State.write_snap (s : State) (cs : List Host.Cell) (n : Nat) : (s.write cs n).snap = s.snap := rfl
@[simp] theorem State.write_stepCtr (s : State) (cs : List Host.Cell) (n : Nat) : (s.write cs n).stepCtr = s.stepCtr := rfl
@[simp] theorem State.write_dieStep (s : State) (cs : List Host.Cell) (n : Nat) : (s.write cs n).dieStep = s.dieStep := rfl
@[simp] theorem State.write_clocks (s : State) (cs : List Host.Cell) (n : Nat) : (s.write cs n).clocks = s.clocks := rfl
@[simp] theorem State.write_debug (s : State) (cs : List Host.Cell) (n : Nat) : (s.write cs n).debug = s.debug := rfl
@[simp] theorem State.write_nextId (s : State) (cs : List Host.Cell) (n : Nat) : (s.write cs n).nextId = s.nextId := rfl
@[simp] theorem State.write_draws (s : State) (cs : List Host.Cell) (n : Nat) : (s.write cs n).draws = s.draws := rfl
@[simp] theorem State.write_agenda (s : State) (cs : List Host.Cell) (n : Nat) : (s.write cs n).agenda = s.agenda := rfl
@[simp] theorem State.write_focus (s : State) (cs : List Host.Cell) (n : Nat) : (s.write cs n).focus = s.focus := rfl

/-! ### `Weft.afterGroup` -/

@[simp] theorem Weft.afterGroup_core (w : Weft) : (w.afterGroup).core = w.core := rfl
@[simp] theorem Weft.afterGroup_slot (w : Weft) : (w.afterGroup).slot = w.slot := rfl
@[simp] theorem Weft.afterGroup_ctx (w : Weft) : (w.afterGroup).ctx = w.ctx := rfl
@[simp] theorem Weft.afterGroup_team (w : Weft) : (w.afterGroup).team = w.team := rfl
@[simp] theorem Weft.afterGroup_wid (w : Weft) : (w.afterGroup).wid = w.wid := rfl
@[simp] theorem Weft.afterGroup_execRole (w : Weft) : (w.afterGroup).execRole = w.execRole := rfl
@[simp] theorem Weft.afterGroup_pc (w : Weft) : (w.afterGroup).pc = w.pc := rfl
@[simp] theorem Weft.afterGroup_em (w : Weft) : (w.afterGroup).em = w.em := rfl
@[simp] theorem Weft.afterGroup_dm (w : Weft) : (w.afterGroup).dm = w.dm := rfl
@[simp] theorem Weft.afterGroup_wb (w : Weft) : (w.afterGroup).wb = w.wb := rfl
@[simp] theorem Weft.afterGroup_sregs (w : Weft) : (w.afterGroup).sregs = w.sregs := rfl
@[simp] theorem Weft.afterGroup_vregs (w : Weft) : (w.afterGroup).vregs = w.vregs := rfl
@[simp] theorem Weft.afterGroup_xregs (w : Weft) : (w.afterGroup).xregs = w.xregs := rfl
@[simp] theorem Weft.afterGroup_tm (w : Weft) : (w.afterGroup).tm = w.tm := rfl
@[simp] theorem Weft.afterGroup_tem (w : Weft) : (w.afterGroup).tem = w.tem := rfl
@[simp] theorem Weft.afterGroup_tdm (w : Weft) : (w.afterGroup).tdm = w.tdm := rfl
@[simp] theorem Weft.afterGroup_tpc (w : Weft) : (w.afterGroup).tpc = w.tpc := rfl
@[simp] theorem Weft.afterGroup_tcause (w : Weft) : (w.afterGroup).tcause = w.tcause := rfl
@[simp] theorem Weft.afterGroup_tmask (w : Weft) : (w.afterGroup).tmask = w.tmask := rfl
@[simp] theorem Weft.afterGroup_tinfo (w : Weft) : (w.afterGroup).tinfo = w.tinfo := rfl
@[simp] theorem Weft.afterGroup_fpmode (w : Weft) : (w.afterGroup).fpmode = w.fpmode := rfl
@[simp] theorem Weft.afterGroup_fpflags (w : Weft) : (w.afterGroup).fpflags = w.fpflags := rfl
@[simp] theorem Weft.afterGroup_seed (w : Weft) : (w.afterGroup).seed = w.seed := rfl
@[simp] theorem Weft.afterGroup_rctr (w : Weft) : (w.afterGroup).rctr = w.rctr := rfl
@[simp] theorem Weft.afterGroup_rgnpc (w : Weft) : (w.afterGroup).rgnpc = w.rgnpc := rfl
@[simp] theorem Weft.afterGroup_rgncnt (w : Weft) : (w.afterGroup).rgncnt = w.rgncnt := rfl
@[simp] theorem Weft.afterGroup_rgnem (w : Weft) : (w.afterGroup).rgnem = w.rgnem := rfl
@[simp] theorem Weft.afterGroup_err (w : Weft) : (w.afterGroup).err = w.err := rfl
@[simp] theorem Weft.afterGroup_cnt (w : Weft) : (w.afterGroup).cnt = w.cnt := rfl
@[simp] theorem Weft.afterGroup_busy (w : Weft) : (w.afterGroup).busy = w.busy := rfl
@[simp] theorem Weft.afterGroup_unsettled (w : Weft) : (w.afterGroup).unsettled = w.unsettled := rfl
@[simp] theorem Weft.afterGroup_parked (w : Weft) : (w.afterGroup).parked = w.parked := rfl
@[simp] theorem Weft.afterGroup_sleep (w : Weft) : (w.afterGroup).sleep = w.sleep := rfl
@[simp] theorem Weft.afterGroup_yielded (w : Weft) : (w.afterGroup).yielded = w.yielded := rfl
@[simp] theorem Weft.afterGroup_looked (w : Weft) : (w.afterGroup).looked = w.looked := rfl
@[simp] theorem Weft.afterGroup_halting (w : Weft) : (w.afterGroup).halting = w.halting := rfl
@[simp] theorem Weft.afterGroup_released (w : Weft) : (w.afterGroup).released = w.released := rfl
@[simp] theorem Weft.afterGroup_preempt (w : Weft) : (w.afterGroup).preempt = w.preempt := rfl
@[simp] theorem Weft.afterGroup_preemptAge (w : Weft) : (w.afterGroup).preemptAge = w.preemptAge := rfl
@[simp] theorem Weft.afterGroup_stopped (w : Weft) : (w.afterGroup).stopped = w.stopped := rfl
@[simp] theorem Weft.afterGroup_events (w : Weft) : (w.afterGroup).events = w.events := rfl
@[simp] theorem Weft.afterGroup_hold (w : Weft) : (w.afterGroup).hold = w.hold := rfl
@[simp] theorem Weft.afterGroup_triggered (w : Weft) : (w.afterGroup).triggered = w.triggered := rfl
@[simp] theorem Weft.afterGroup_exited (w : Weft) : (w.afterGroup).exited = w.exited := rfl
@[simp] theorem Weft.afterGroup_injected (w : Weft) : (w.afterGroup).injected = w.injected := rfl
@[simp] theorem Weft.afterGroup_itnDone (w : Weft) : (w.afterGroup).itnDone = w.itnDone := rfl
@[simp] theorem Weft.afterGroup_itnNext (w : Weft) : (w.afterGroup).itnNext = w.itnNext := rfl
@[simp] theorem Weft.afterGroup_itnAnswer (w : Weft) : (w.afterGroup).itnAnswer = w.itnAnswer := rfl
@[simp] theorem Weft.afterGroup_itnReg (w : Weft) : (w.afterGroup).itnReg = w.itnReg := rfl
@[simp] theorem Weft.afterGroup_itnWas (w : Weft) : (w.afterGroup).itnWas = w.itnWas := rfl
@[simp] theorem Weft.afterGroup_shcopies (w : Weft) : (w.afterGroup).shcopies = w.shcopies := rfl
@[simp] theorem Weft.afterGroup_arrived (w : Weft) : (w.afterGroup).arrived = w.arrived := rfl
@[simp] theorem Weft.afterGroup_pbars (w : Weft) : (w.afterGroup).pbars = w.pbars := rfl
@[simp] theorem Weft.afterGroup_snapStep (w : Weft) : (w.afterGroup).snapStep = w.snapStep := rfl
@[simp] theorem Weft.afterGroup_fence (w : Weft) : (w.afterGroup).fence = w.fence := rfl

/-! ### `Weft.commitTo` -/

@[simp] theorem Weft.commitTo_core (w : Weft) (p : Pfx) (r : Bool) (pc : W64) : (w.commitTo p r pc).core = w.core := rfl
@[simp] theorem Weft.commitTo_slot (w : Weft) (p : Pfx) (r : Bool) (pc : W64) : (w.commitTo p r pc).slot = w.slot := rfl
@[simp] theorem Weft.commitTo_ctx (w : Weft) (p : Pfx) (r : Bool) (pc : W64) : (w.commitTo p r pc).ctx = w.ctx := rfl
@[simp] theorem Weft.commitTo_team (w : Weft) (p : Pfx) (r : Bool) (pc : W64) : (w.commitTo p r pc).team = w.team := rfl
@[simp] theorem Weft.commitTo_wid (w : Weft) (p : Pfx) (r : Bool) (pc : W64) : (w.commitTo p r pc).wid = w.wid := rfl
@[simp] theorem Weft.commitTo_execRole (w : Weft) (p : Pfx) (r : Bool) (pc : W64) : (w.commitTo p r pc).execRole = w.execRole := rfl
@[simp] theorem Weft.commitTo_em (w : Weft) (p : Pfx) (r : Bool) (pc : W64) : (w.commitTo p r pc).em = w.em := rfl
@[simp] theorem Weft.commitTo_dm (w : Weft) (p : Pfx) (r : Bool) (pc : W64) : (w.commitTo p r pc).dm = w.dm := rfl
@[simp] theorem Weft.commitTo_wb (w : Weft) (p : Pfx) (r : Bool) (pc : W64) : (w.commitTo p r pc).wb = w.wb := rfl
@[simp] theorem Weft.commitTo_sregs (w : Weft) (p : Pfx) (r : Bool) (pc : W64) : (w.commitTo p r pc).sregs = w.sregs := rfl
@[simp] theorem Weft.commitTo_vregs (w : Weft) (p : Pfx) (r : Bool) (pc : W64) : (w.commitTo p r pc).vregs = w.vregs := rfl
@[simp] theorem Weft.commitTo_xregs (w : Weft) (p : Pfx) (r : Bool) (pc : W64) : (w.commitTo p r pc).xregs = w.xregs := rfl
@[simp] theorem Weft.commitTo_tm (w : Weft) (p : Pfx) (r : Bool) (pc : W64) : (w.commitTo p r pc).tm = w.tm := rfl
@[simp] theorem Weft.commitTo_tem (w : Weft) (p : Pfx) (r : Bool) (pc : W64) : (w.commitTo p r pc).tem = w.tem := rfl
@[simp] theorem Weft.commitTo_tdm (w : Weft) (p : Pfx) (r : Bool) (pc : W64) : (w.commitTo p r pc).tdm = w.tdm := rfl
@[simp] theorem Weft.commitTo_tpc (w : Weft) (p : Pfx) (r : Bool) (pc : W64) : (w.commitTo p r pc).tpc = w.tpc := rfl
@[simp] theorem Weft.commitTo_tcause (w : Weft) (p : Pfx) (r : Bool) (pc : W64) : (w.commitTo p r pc).tcause = w.tcause := rfl
@[simp] theorem Weft.commitTo_tmask (w : Weft) (p : Pfx) (r : Bool) (pc : W64) : (w.commitTo p r pc).tmask = w.tmask := rfl
@[simp] theorem Weft.commitTo_tinfo (w : Weft) (p : Pfx) (r : Bool) (pc : W64) : (w.commitTo p r pc).tinfo = w.tinfo := rfl
@[simp] theorem Weft.commitTo_fpmode (w : Weft) (p : Pfx) (r : Bool) (pc : W64) : (w.commitTo p r pc).fpmode = w.fpmode := rfl
@[simp] theorem Weft.commitTo_fpflags (w : Weft) (p : Pfx) (r : Bool) (pc : W64) : (w.commitTo p r pc).fpflags = w.fpflags := rfl
@[simp] theorem Weft.commitTo_seed (w : Weft) (p : Pfx) (r : Bool) (pc : W64) : (w.commitTo p r pc).seed = w.seed := rfl
@[simp] theorem Weft.commitTo_rgnpc (w : Weft) (p : Pfx) (r : Bool) (pc : W64) : (w.commitTo p r pc).rgnpc = w.rgnpc := rfl
@[simp] theorem Weft.commitTo_rgncnt (w : Weft) (p : Pfx) (r : Bool) (pc : W64) : (w.commitTo p r pc).rgncnt = w.rgncnt := rfl
@[simp] theorem Weft.commitTo_rgnem (w : Weft) (p : Pfx) (r : Bool) (pc : W64) : (w.commitTo p r pc).rgnem = w.rgnem := rfl
@[simp] theorem Weft.commitTo_err (w : Weft) (p : Pfx) (r : Bool) (pc : W64) : (w.commitTo p r pc).err = w.err := rfl
@[simp] theorem Weft.commitTo_cnt (w : Weft) (p : Pfx) (r : Bool) (pc : W64) : (w.commitTo p r pc).cnt = w.cnt := rfl
@[simp] theorem Weft.commitTo_busy (w : Weft) (p : Pfx) (r : Bool) (pc : W64) : (w.commitTo p r pc).busy = w.busy := rfl
@[simp] theorem Weft.commitTo_unsettled (w : Weft) (p : Pfx) (r : Bool) (pc : W64) : (w.commitTo p r pc).unsettled = w.unsettled := rfl
@[simp] theorem Weft.commitTo_parked (w : Weft) (p : Pfx) (r : Bool) (pc : W64) : (w.commitTo p r pc).parked = w.parked := rfl
@[simp] theorem Weft.commitTo_sleep (w : Weft) (p : Pfx) (r : Bool) (pc : W64) : (w.commitTo p r pc).sleep = w.sleep := rfl
@[simp] theorem Weft.commitTo_yielded (w : Weft) (p : Pfx) (r : Bool) (pc : W64) : (w.commitTo p r pc).yielded = w.yielded := rfl
@[simp] theorem Weft.commitTo_looked (w : Weft) (p : Pfx) (r : Bool) (pc : W64) : (w.commitTo p r pc).looked = w.looked := rfl
@[simp] theorem Weft.commitTo_halting (w : Weft) (p : Pfx) (r : Bool) (pc : W64) : (w.commitTo p r pc).halting = w.halting := rfl
@[simp] theorem Weft.commitTo_released (w : Weft) (p : Pfx) (r : Bool) (pc : W64) : (w.commitTo p r pc).released = w.released := rfl
@[simp] theorem Weft.commitTo_preempt (w : Weft) (p : Pfx) (r : Bool) (pc : W64) : (w.commitTo p r pc).preempt = w.preempt := rfl
@[simp] theorem Weft.commitTo_preemptAge (w : Weft) (p : Pfx) (r : Bool) (pc : W64) : (w.commitTo p r pc).preemptAge = w.preemptAge := rfl
@[simp] theorem Weft.commitTo_stopped (w : Weft) (p : Pfx) (r : Bool) (pc : W64) : (w.commitTo p r pc).stopped = w.stopped := rfl
@[simp] theorem Weft.commitTo_events (w : Weft) (p : Pfx) (r : Bool) (pc : W64) : (w.commitTo p r pc).events = w.events := rfl
@[simp] theorem Weft.commitTo_hold (w : Weft) (p : Pfx) (r : Bool) (pc : W64) : (w.commitTo p r pc).hold = w.hold := rfl
@[simp] theorem Weft.commitTo_triggered (w : Weft) (p : Pfx) (r : Bool) (pc : W64) : (w.commitTo p r pc).triggered = w.triggered := rfl
@[simp] theorem Weft.commitTo_exited (w : Weft) (p : Pfx) (r : Bool) (pc : W64) : (w.commitTo p r pc).exited = w.exited := rfl
@[simp] theorem Weft.commitTo_injected (w : Weft) (p : Pfx) (r : Bool) (pc : W64) : (w.commitTo p r pc).injected = w.injected := rfl
@[simp] theorem Weft.commitTo_itnDone (w : Weft) (p : Pfx) (r : Bool) (pc : W64) : (w.commitTo p r pc).itnDone = w.itnDone := rfl
@[simp] theorem Weft.commitTo_itnNext (w : Weft) (p : Pfx) (r : Bool) (pc : W64) : (w.commitTo p r pc).itnNext = w.itnNext := rfl
@[simp] theorem Weft.commitTo_itnAnswer (w : Weft) (p : Pfx) (r : Bool) (pc : W64) : (w.commitTo p r pc).itnAnswer = w.itnAnswer := rfl
@[simp] theorem Weft.commitTo_itnReg (w : Weft) (p : Pfx) (r : Bool) (pc : W64) : (w.commitTo p r pc).itnReg = w.itnReg := rfl
@[simp] theorem Weft.commitTo_itnWas (w : Weft) (p : Pfx) (r : Bool) (pc : W64) : (w.commitTo p r pc).itnWas = w.itnWas := rfl
@[simp] theorem Weft.commitTo_shcopies (w : Weft) (p : Pfx) (r : Bool) (pc : W64) : (w.commitTo p r pc).shcopies = w.shcopies := rfl
@[simp] theorem Weft.commitTo_arrived (w : Weft) (p : Pfx) (r : Bool) (pc : W64) : (w.commitTo p r pc).arrived = w.arrived := rfl
@[simp] theorem Weft.commitTo_pbars (w : Weft) (p : Pfx) (r : Bool) (pc : W64) : (w.commitTo p r pc).pbars = w.pbars := rfl
@[simp] theorem Weft.commitTo_snapStep (w : Weft) (p : Pfx) (r : Bool) (pc : W64) : (w.commitTo p r pc).snapStep = w.snapStep := rfl
@[simp] theorem Weft.commitTo_fence (w : Weft) (p : Pfx) (r : Bool) (pc : W64) : (w.commitTo p r pc).fence = w.fence := rfl

/-! ### `Weft.commit` -/

@[simp] theorem Weft.commit_core (w : Weft) (p : Pfx) (r : Bool) : (w.commit p r).core = w.core := rfl
@[simp] theorem Weft.commit_slot (w : Weft) (p : Pfx) (r : Bool) : (w.commit p r).slot = w.slot := rfl
@[simp] theorem Weft.commit_ctx (w : Weft) (p : Pfx) (r : Bool) : (w.commit p r).ctx = w.ctx := rfl
@[simp] theorem Weft.commit_team (w : Weft) (p : Pfx) (r : Bool) : (w.commit p r).team = w.team := rfl
@[simp] theorem Weft.commit_wid (w : Weft) (p : Pfx) (r : Bool) : (w.commit p r).wid = w.wid := rfl
@[simp] theorem Weft.commit_execRole (w : Weft) (p : Pfx) (r : Bool) : (w.commit p r).execRole = w.execRole := rfl
@[simp] theorem Weft.commit_em (w : Weft) (p : Pfx) (r : Bool) : (w.commit p r).em = w.em := rfl
@[simp] theorem Weft.commit_dm (w : Weft) (p : Pfx) (r : Bool) : (w.commit p r).dm = w.dm := rfl
@[simp] theorem Weft.commit_wb (w : Weft) (p : Pfx) (r : Bool) : (w.commit p r).wb = w.wb := rfl
@[simp] theorem Weft.commit_sregs (w : Weft) (p : Pfx) (r : Bool) : (w.commit p r).sregs = w.sregs := rfl
@[simp] theorem Weft.commit_vregs (w : Weft) (p : Pfx) (r : Bool) : (w.commit p r).vregs = w.vregs := rfl
@[simp] theorem Weft.commit_xregs (w : Weft) (p : Pfx) (r : Bool) : (w.commit p r).xregs = w.xregs := rfl
@[simp] theorem Weft.commit_tm (w : Weft) (p : Pfx) (r : Bool) : (w.commit p r).tm = w.tm := rfl
@[simp] theorem Weft.commit_tem (w : Weft) (p : Pfx) (r : Bool) : (w.commit p r).tem = w.tem := rfl
@[simp] theorem Weft.commit_tdm (w : Weft) (p : Pfx) (r : Bool) : (w.commit p r).tdm = w.tdm := rfl
@[simp] theorem Weft.commit_tpc (w : Weft) (p : Pfx) (r : Bool) : (w.commit p r).tpc = w.tpc := rfl
@[simp] theorem Weft.commit_tcause (w : Weft) (p : Pfx) (r : Bool) : (w.commit p r).tcause = w.tcause := rfl
@[simp] theorem Weft.commit_tmask (w : Weft) (p : Pfx) (r : Bool) : (w.commit p r).tmask = w.tmask := rfl
@[simp] theorem Weft.commit_tinfo (w : Weft) (p : Pfx) (r : Bool) : (w.commit p r).tinfo = w.tinfo := rfl
@[simp] theorem Weft.commit_fpmode (w : Weft) (p : Pfx) (r : Bool) : (w.commit p r).fpmode = w.fpmode := rfl
@[simp] theorem Weft.commit_fpflags (w : Weft) (p : Pfx) (r : Bool) : (w.commit p r).fpflags = w.fpflags := rfl
@[simp] theorem Weft.commit_seed (w : Weft) (p : Pfx) (r : Bool) : (w.commit p r).seed = w.seed := rfl
@[simp] theorem Weft.commit_rgnpc (w : Weft) (p : Pfx) (r : Bool) : (w.commit p r).rgnpc = w.rgnpc := rfl
@[simp] theorem Weft.commit_rgncnt (w : Weft) (p : Pfx) (r : Bool) : (w.commit p r).rgncnt = w.rgncnt := rfl
@[simp] theorem Weft.commit_rgnem (w : Weft) (p : Pfx) (r : Bool) : (w.commit p r).rgnem = w.rgnem := rfl
@[simp] theorem Weft.commit_err (w : Weft) (p : Pfx) (r : Bool) : (w.commit p r).err = w.err := rfl
@[simp] theorem Weft.commit_cnt (w : Weft) (p : Pfx) (r : Bool) : (w.commit p r).cnt = w.cnt := rfl
@[simp] theorem Weft.commit_busy (w : Weft) (p : Pfx) (r : Bool) : (w.commit p r).busy = w.busy := rfl
@[simp] theorem Weft.commit_unsettled (w : Weft) (p : Pfx) (r : Bool) : (w.commit p r).unsettled = w.unsettled := rfl
@[simp] theorem Weft.commit_parked (w : Weft) (p : Pfx) (r : Bool) : (w.commit p r).parked = w.parked := rfl
@[simp] theorem Weft.commit_sleep (w : Weft) (p : Pfx) (r : Bool) : (w.commit p r).sleep = w.sleep := rfl
@[simp] theorem Weft.commit_yielded (w : Weft) (p : Pfx) (r : Bool) : (w.commit p r).yielded = w.yielded := rfl
@[simp] theorem Weft.commit_looked (w : Weft) (p : Pfx) (r : Bool) : (w.commit p r).looked = w.looked := rfl
@[simp] theorem Weft.commit_halting (w : Weft) (p : Pfx) (r : Bool) : (w.commit p r).halting = w.halting := rfl
@[simp] theorem Weft.commit_released (w : Weft) (p : Pfx) (r : Bool) : (w.commit p r).released = w.released := rfl
@[simp] theorem Weft.commit_preempt (w : Weft) (p : Pfx) (r : Bool) : (w.commit p r).preempt = w.preempt := rfl
@[simp] theorem Weft.commit_preemptAge (w : Weft) (p : Pfx) (r : Bool) : (w.commit p r).preemptAge = w.preemptAge := rfl
@[simp] theorem Weft.commit_stopped (w : Weft) (p : Pfx) (r : Bool) : (w.commit p r).stopped = w.stopped := rfl
@[simp] theorem Weft.commit_events (w : Weft) (p : Pfx) (r : Bool) : (w.commit p r).events = w.events := rfl
@[simp] theorem Weft.commit_hold (w : Weft) (p : Pfx) (r : Bool) : (w.commit p r).hold = w.hold := rfl
@[simp] theorem Weft.commit_triggered (w : Weft) (p : Pfx) (r : Bool) : (w.commit p r).triggered = w.triggered := rfl
@[simp] theorem Weft.commit_exited (w : Weft) (p : Pfx) (r : Bool) : (w.commit p r).exited = w.exited := rfl
@[simp] theorem Weft.commit_injected (w : Weft) (p : Pfx) (r : Bool) : (w.commit p r).injected = w.injected := rfl
@[simp] theorem Weft.commit_itnDone (w : Weft) (p : Pfx) (r : Bool) : (w.commit p r).itnDone = w.itnDone := rfl
@[simp] theorem Weft.commit_itnNext (w : Weft) (p : Pfx) (r : Bool) : (w.commit p r).itnNext = w.itnNext := rfl
@[simp] theorem Weft.commit_itnAnswer (w : Weft) (p : Pfx) (r : Bool) : (w.commit p r).itnAnswer = w.itnAnswer := rfl
@[simp] theorem Weft.commit_itnReg (w : Weft) (p : Pfx) (r : Bool) : (w.commit p r).itnReg = w.itnReg := rfl
@[simp] theorem Weft.commit_itnWas (w : Weft) (p : Pfx) (r : Bool) : (w.commit p r).itnWas = w.itnWas := rfl
@[simp] theorem Weft.commit_shcopies (w : Weft) (p : Pfx) (r : Bool) : (w.commit p r).shcopies = w.shcopies := rfl
@[simp] theorem Weft.commit_arrived (w : Weft) (p : Pfx) (r : Bool) : (w.commit p r).arrived = w.arrived := rfl
@[simp] theorem Weft.commit_pbars (w : Weft) (p : Pfx) (r : Bool) : (w.commit p r).pbars = w.pbars := rfl
@[simp] theorem Weft.commit_snapStep (w : Weft) (p : Pfx) (r : Bool) : (w.commit p r).snapStep = w.snapStep := rfl
@[simp] theorem Weft.commit_fence (w : Weft) (p : Pfx) (r : Bool) : (w.commit p r).fence = w.fence := rfl

/-! ### `Weft.issued` -/

@[simp] theorem Weft.issued_core (w : Weft) (p : Pfx) (r : Bool) : (w.issued p r).core = w.core := rfl
@[simp] theorem Weft.issued_slot (w : Weft) (p : Pfx) (r : Bool) : (w.issued p r).slot = w.slot := rfl
@[simp] theorem Weft.issued_ctx (w : Weft) (p : Pfx) (r : Bool) : (w.issued p r).ctx = w.ctx := rfl
@[simp] theorem Weft.issued_team (w : Weft) (p : Pfx) (r : Bool) : (w.issued p r).team = w.team := rfl
@[simp] theorem Weft.issued_wid (w : Weft) (p : Pfx) (r : Bool) : (w.issued p r).wid = w.wid := rfl
@[simp] theorem Weft.issued_execRole (w : Weft) (p : Pfx) (r : Bool) : (w.issued p r).execRole = w.execRole := rfl
@[simp] theorem Weft.issued_pc (w : Weft) (p : Pfx) (r : Bool) : (w.issued p r).pc = w.pc := rfl
@[simp] theorem Weft.issued_em (w : Weft) (p : Pfx) (r : Bool) : (w.issued p r).em = w.em := rfl
@[simp] theorem Weft.issued_dm (w : Weft) (p : Pfx) (r : Bool) : (w.issued p r).dm = w.dm := rfl
@[simp] theorem Weft.issued_wb (w : Weft) (p : Pfx) (r : Bool) : (w.issued p r).wb = w.wb := rfl
@[simp] theorem Weft.issued_sregs (w : Weft) (p : Pfx) (r : Bool) : (w.issued p r).sregs = w.sregs := rfl
@[simp] theorem Weft.issued_vregs (w : Weft) (p : Pfx) (r : Bool) : (w.issued p r).vregs = w.vregs := rfl
@[simp] theorem Weft.issued_xregs (w : Weft) (p : Pfx) (r : Bool) : (w.issued p r).xregs = w.xregs := rfl
@[simp] theorem Weft.issued_tm (w : Weft) (p : Pfx) (r : Bool) : (w.issued p r).tm = w.tm := rfl
@[simp] theorem Weft.issued_tem (w : Weft) (p : Pfx) (r : Bool) : (w.issued p r).tem = w.tem := rfl
@[simp] theorem Weft.issued_tdm (w : Weft) (p : Pfx) (r : Bool) : (w.issued p r).tdm = w.tdm := rfl
@[simp] theorem Weft.issued_tpc (w : Weft) (p : Pfx) (r : Bool) : (w.issued p r).tpc = w.tpc := rfl
@[simp] theorem Weft.issued_tcause (w : Weft) (p : Pfx) (r : Bool) : (w.issued p r).tcause = w.tcause := rfl
@[simp] theorem Weft.issued_tmask (w : Weft) (p : Pfx) (r : Bool) : (w.issued p r).tmask = w.tmask := rfl
@[simp] theorem Weft.issued_tinfo (w : Weft) (p : Pfx) (r : Bool) : (w.issued p r).tinfo = w.tinfo := rfl
@[simp] theorem Weft.issued_fpmode (w : Weft) (p : Pfx) (r : Bool) : (w.issued p r).fpmode = w.fpmode := rfl
@[simp] theorem Weft.issued_fpflags (w : Weft) (p : Pfx) (r : Bool) : (w.issued p r).fpflags = w.fpflags := rfl
@[simp] theorem Weft.issued_seed (w : Weft) (p : Pfx) (r : Bool) : (w.issued p r).seed = w.seed := rfl
@[simp] theorem Weft.issued_rgnpc (w : Weft) (p : Pfx) (r : Bool) : (w.issued p r).rgnpc = w.rgnpc := rfl
@[simp] theorem Weft.issued_rgncnt (w : Weft) (p : Pfx) (r : Bool) : (w.issued p r).rgncnt = w.rgncnt := rfl
@[simp] theorem Weft.issued_rgnem (w : Weft) (p : Pfx) (r : Bool) : (w.issued p r).rgnem = w.rgnem := rfl
@[simp] theorem Weft.issued_err (w : Weft) (p : Pfx) (r : Bool) : (w.issued p r).err = w.err := rfl
@[simp] theorem Weft.issued_cnt (w : Weft) (p : Pfx) (r : Bool) : (w.issued p r).cnt = w.cnt := rfl
@[simp] theorem Weft.issued_busy (w : Weft) (p : Pfx) (r : Bool) : (w.issued p r).busy = w.busy := rfl
@[simp] theorem Weft.issued_unsettled (w : Weft) (p : Pfx) (r : Bool) : (w.issued p r).unsettled = w.unsettled := rfl
@[simp] theorem Weft.issued_parked (w : Weft) (p : Pfx) (r : Bool) : (w.issued p r).parked = w.parked := rfl
@[simp] theorem Weft.issued_waiting (w : Weft) (p : Pfx) (r : Bool) : (w.issued p r).waiting = w.waiting := rfl
@[simp] theorem Weft.issued_sleep (w : Weft) (p : Pfx) (r : Bool) : (w.issued p r).sleep = w.sleep := rfl
@[simp] theorem Weft.issued_yielded (w : Weft) (p : Pfx) (r : Bool) : (w.issued p r).yielded = w.yielded := rfl
@[simp] theorem Weft.issued_age (w : Weft) (p : Pfx) (r : Bool) : (w.issued p r).age = w.age := rfl
@[simp] theorem Weft.issued_readyCnt (w : Weft) (p : Pfx) (r : Bool) : (w.issued p r).readyCnt = w.readyCnt := rfl
@[simp] theorem Weft.issued_looked (w : Weft) (p : Pfx) (r : Bool) : (w.issued p r).looked = w.looked := rfl
@[simp] theorem Weft.issued_halted (w : Weft) (p : Pfx) (r : Bool) : (w.issued p r).halted = w.halted := rfl
@[simp] theorem Weft.issued_halting (w : Weft) (p : Pfx) (r : Bool) : (w.issued p r).halting = w.halting := rfl
@[simp] theorem Weft.issued_released (w : Weft) (p : Pfx) (r : Bool) : (w.issued p r).released = w.released := rfl
@[simp] theorem Weft.issued_stepping (w : Weft) (p : Pfx) (r : Bool) : (w.issued p r).stepping = w.stepping := rfl
@[simp] theorem Weft.issued_preempt (w : Weft) (p : Pfx) (r : Bool) : (w.issued p r).preempt = w.preempt := rfl
@[simp] theorem Weft.issued_preemptAge (w : Weft) (p : Pfx) (r : Bool) : (w.issued p r).preemptAge = w.preemptAge := rfl
@[simp] theorem Weft.issued_stopped (w : Weft) (p : Pfx) (r : Bool) : (w.issued p r).stopped = w.stopped := rfl
@[simp] theorem Weft.issued_events (w : Weft) (p : Pfx) (r : Bool) : (w.issued p r).events = w.events := rfl
@[simp] theorem Weft.issued_hold (w : Weft) (p : Pfx) (r : Bool) : (w.issued p r).hold = w.hold := rfl
@[simp] theorem Weft.issued_triggered (w : Weft) (p : Pfx) (r : Bool) : (w.issued p r).triggered = w.triggered := rfl
@[simp] theorem Weft.issued_exited (w : Weft) (p : Pfx) (r : Bool) : (w.issued p r).exited = w.exited := rfl
@[simp] theorem Weft.issued_injected (w : Weft) (p : Pfx) (r : Bool) : (w.issued p r).injected = w.injected := rfl
@[simp] theorem Weft.issued_itnDone (w : Weft) (p : Pfx) (r : Bool) : (w.issued p r).itnDone = w.itnDone := rfl
@[simp] theorem Weft.issued_itnNext (w : Weft) (p : Pfx) (r : Bool) : (w.issued p r).itnNext = w.itnNext := rfl
@[simp] theorem Weft.issued_itnAnswer (w : Weft) (p : Pfx) (r : Bool) : (w.issued p r).itnAnswer = w.itnAnswer := rfl
@[simp] theorem Weft.issued_itnReg (w : Weft) (p : Pfx) (r : Bool) : (w.issued p r).itnReg = w.itnReg := rfl
@[simp] theorem Weft.issued_itnWas (w : Weft) (p : Pfx) (r : Bool) : (w.issued p r).itnWas = w.itnWas := rfl
@[simp] theorem Weft.issued_shcopies (w : Weft) (p : Pfx) (r : Bool) : (w.issued p r).shcopies = w.shcopies := rfl
@[simp] theorem Weft.issued_arrived (w : Weft) (p : Pfx) (r : Bool) : (w.issued p r).arrived = w.arrived := rfl
@[simp] theorem Weft.issued_pbars (w : Weft) (p : Pfx) (r : Bool) : (w.issued p r).pbars = w.pbars := rfl
@[simp] theorem Weft.issued_snapStep (w : Weft) (p : Pfx) (r : Bool) : (w.issued p r).snapStep = w.snapStep := rfl
@[simp] theorem Weft.issued_fence (w : Weft) (p : Pfx) (r : Bool) : (w.issued p r).fence = w.fence := rfl
@[simp] theorem Weft.issued_narrow (w : Weft) (p : Pfx) (r : Bool) : (w.issued p r).narrow = w.narrow := rfl

/-! ### `Weft.setS` -/

@[simp] theorem Weft.setS_core (w : Weft) (n : Nat) (v : W64) : (w.setS n v).core = w.core := rfl
@[simp] theorem Weft.setS_slot (w : Weft) (n : Nat) (v : W64) : (w.setS n v).slot = w.slot := rfl
@[simp] theorem Weft.setS_ctx (w : Weft) (n : Nat) (v : W64) : (w.setS n v).ctx = w.ctx := rfl
@[simp] theorem Weft.setS_team (w : Weft) (n : Nat) (v : W64) : (w.setS n v).team = w.team := rfl
@[simp] theorem Weft.setS_wid (w : Weft) (n : Nat) (v : W64) : (w.setS n v).wid = w.wid := rfl
@[simp] theorem Weft.setS_execRole (w : Weft) (n : Nat) (v : W64) : (w.setS n v).execRole = w.execRole := rfl
@[simp] theorem Weft.setS_pc (w : Weft) (n : Nat) (v : W64) : (w.setS n v).pc = w.pc := rfl
@[simp] theorem Weft.setS_em (w : Weft) (n : Nat) (v : W64) : (w.setS n v).em = w.em := rfl
@[simp] theorem Weft.setS_dm (w : Weft) (n : Nat) (v : W64) : (w.setS n v).dm = w.dm := rfl
@[simp] theorem Weft.setS_wb (w : Weft) (n : Nat) (v : W64) : (w.setS n v).wb = w.wb := rfl
@[simp] theorem Weft.setS_vregs (w : Weft) (n : Nat) (v : W64) : (w.setS n v).vregs = w.vregs := rfl
@[simp] theorem Weft.setS_xregs (w : Weft) (n : Nat) (v : W64) : (w.setS n v).xregs = w.xregs := rfl
@[simp] theorem Weft.setS_tm (w : Weft) (n : Nat) (v : W64) : (w.setS n v).tm = w.tm := rfl
@[simp] theorem Weft.setS_tem (w : Weft) (n : Nat) (v : W64) : (w.setS n v).tem = w.tem := rfl
@[simp] theorem Weft.setS_tdm (w : Weft) (n : Nat) (v : W64) : (w.setS n v).tdm = w.tdm := rfl
@[simp] theorem Weft.setS_tpc (w : Weft) (n : Nat) (v : W64) : (w.setS n v).tpc = w.tpc := rfl
@[simp] theorem Weft.setS_tcause (w : Weft) (n : Nat) (v : W64) : (w.setS n v).tcause = w.tcause := rfl
@[simp] theorem Weft.setS_tmask (w : Weft) (n : Nat) (v : W64) : (w.setS n v).tmask = w.tmask := rfl
@[simp] theorem Weft.setS_tinfo (w : Weft) (n : Nat) (v : W64) : (w.setS n v).tinfo = w.tinfo := rfl
@[simp] theorem Weft.setS_fpmode (w : Weft) (n : Nat) (v : W64) : (w.setS n v).fpmode = w.fpmode := rfl
@[simp] theorem Weft.setS_fpflags (w : Weft) (n : Nat) (v : W64) : (w.setS n v).fpflags = w.fpflags := rfl
@[simp] theorem Weft.setS_seed (w : Weft) (n : Nat) (v : W64) : (w.setS n v).seed = w.seed := rfl
@[simp] theorem Weft.setS_rctr (w : Weft) (n : Nat) (v : W64) : (w.setS n v).rctr = w.rctr := rfl
@[simp] theorem Weft.setS_rgnpc (w : Weft) (n : Nat) (v : W64) : (w.setS n v).rgnpc = w.rgnpc := rfl
@[simp] theorem Weft.setS_rgncnt (w : Weft) (n : Nat) (v : W64) : (w.setS n v).rgncnt = w.rgncnt := rfl
@[simp] theorem Weft.setS_rgnem (w : Weft) (n : Nat) (v : W64) : (w.setS n v).rgnem = w.rgnem := rfl
@[simp] theorem Weft.setS_err (w : Weft) (n : Nat) (v : W64) : (w.setS n v).err = w.err := rfl
@[simp] theorem Weft.setS_cnt (w : Weft) (n : Nat) (v : W64) : (w.setS n v).cnt = w.cnt := rfl
@[simp] theorem Weft.setS_busy (w : Weft) (n : Nat) (v : W64) : (w.setS n v).busy = w.busy := rfl
@[simp] theorem Weft.setS_unsettled (w : Weft) (n : Nat) (v : W64) : (w.setS n v).unsettled = w.unsettled := rfl
@[simp] theorem Weft.setS_parked (w : Weft) (n : Nat) (v : W64) : (w.setS n v).parked = w.parked := rfl
@[simp] theorem Weft.setS_waiting (w : Weft) (n : Nat) (v : W64) : (w.setS n v).waiting = w.waiting := rfl
@[simp] theorem Weft.setS_sleep (w : Weft) (n : Nat) (v : W64) : (w.setS n v).sleep = w.sleep := rfl
@[simp] theorem Weft.setS_yielded (w : Weft) (n : Nat) (v : W64) : (w.setS n v).yielded = w.yielded := rfl
@[simp] theorem Weft.setS_age (w : Weft) (n : Nat) (v : W64) : (w.setS n v).age = w.age := rfl
@[simp] theorem Weft.setS_readyCnt (w : Weft) (n : Nat) (v : W64) : (w.setS n v).readyCnt = w.readyCnt := rfl
@[simp] theorem Weft.setS_looked (w : Weft) (n : Nat) (v : W64) : (w.setS n v).looked = w.looked := rfl
@[simp] theorem Weft.setS_halted (w : Weft) (n : Nat) (v : W64) : (w.setS n v).halted = w.halted := rfl
@[simp] theorem Weft.setS_halting (w : Weft) (n : Nat) (v : W64) : (w.setS n v).halting = w.halting := rfl
@[simp] theorem Weft.setS_released (w : Weft) (n : Nat) (v : W64) : (w.setS n v).released = w.released := rfl
@[simp] theorem Weft.setS_stepping (w : Weft) (n : Nat) (v : W64) : (w.setS n v).stepping = w.stepping := rfl
@[simp] theorem Weft.setS_preempt (w : Weft) (n : Nat) (v : W64) : (w.setS n v).preempt = w.preempt := rfl
@[simp] theorem Weft.setS_preemptAge (w : Weft) (n : Nat) (v : W64) : (w.setS n v).preemptAge = w.preemptAge := rfl
@[simp] theorem Weft.setS_stopped (w : Weft) (n : Nat) (v : W64) : (w.setS n v).stopped = w.stopped := rfl
@[simp] theorem Weft.setS_events (w : Weft) (n : Nat) (v : W64) : (w.setS n v).events = w.events := rfl
@[simp] theorem Weft.setS_hold (w : Weft) (n : Nat) (v : W64) : (w.setS n v).hold = w.hold := rfl
@[simp] theorem Weft.setS_triggered (w : Weft) (n : Nat) (v : W64) : (w.setS n v).triggered = w.triggered := rfl
@[simp] theorem Weft.setS_exited (w : Weft) (n : Nat) (v : W64) : (w.setS n v).exited = w.exited := rfl
@[simp] theorem Weft.setS_injected (w : Weft) (n : Nat) (v : W64) : (w.setS n v).injected = w.injected := rfl
@[simp] theorem Weft.setS_itnDone (w : Weft) (n : Nat) (v : W64) : (w.setS n v).itnDone = w.itnDone := rfl
@[simp] theorem Weft.setS_itnNext (w : Weft) (n : Nat) (v : W64) : (w.setS n v).itnNext = w.itnNext := rfl
@[simp] theorem Weft.setS_itnAnswer (w : Weft) (n : Nat) (v : W64) : (w.setS n v).itnAnswer = w.itnAnswer := rfl
@[simp] theorem Weft.setS_itnReg (w : Weft) (n : Nat) (v : W64) : (w.setS n v).itnReg = w.itnReg := rfl
@[simp] theorem Weft.setS_itnWas (w : Weft) (n : Nat) (v : W64) : (w.setS n v).itnWas = w.itnWas := rfl
@[simp] theorem Weft.setS_shcopies (w : Weft) (n : Nat) (v : W64) : (w.setS n v).shcopies = w.shcopies := rfl
@[simp] theorem Weft.setS_arrived (w : Weft) (n : Nat) (v : W64) : (w.setS n v).arrived = w.arrived := rfl
@[simp] theorem Weft.setS_pbars (w : Weft) (n : Nat) (v : W64) : (w.setS n v).pbars = w.pbars := rfl
@[simp] theorem Weft.setS_snapStep (w : Weft) (n : Nat) (v : W64) : (w.setS n v).snapStep = w.snapStep := rfl
@[simp] theorem Weft.setS_fence (w : Weft) (n : Nat) (v : W64) : (w.setS n v).fence = w.fence := rfl
@[simp] theorem Weft.setS_narrow (w : Weft) (n : Nat) (v : W64) : (w.setS n v).narrow = w.narrow := rfl

/-! ### `Weft.fillS` -/

@[simp] theorem Weft.fillS_core (w : Weft) (n : Nat) (f : Bool) : (w.fillS n f).core = w.core := rfl
@[simp] theorem Weft.fillS_slot (w : Weft) (n : Nat) (f : Bool) : (w.fillS n f).slot = w.slot := rfl
@[simp] theorem Weft.fillS_ctx (w : Weft) (n : Nat) (f : Bool) : (w.fillS n f).ctx = w.ctx := rfl
@[simp] theorem Weft.fillS_team (w : Weft) (n : Nat) (f : Bool) : (w.fillS n f).team = w.team := rfl
@[simp] theorem Weft.fillS_wid (w : Weft) (n : Nat) (f : Bool) : (w.fillS n f).wid = w.wid := rfl
@[simp] theorem Weft.fillS_execRole (w : Weft) (n : Nat) (f : Bool) : (w.fillS n f).execRole = w.execRole := rfl
@[simp] theorem Weft.fillS_pc (w : Weft) (n : Nat) (f : Bool) : (w.fillS n f).pc = w.pc := rfl
@[simp] theorem Weft.fillS_em (w : Weft) (n : Nat) (f : Bool) : (w.fillS n f).em = w.em := rfl
@[simp] theorem Weft.fillS_dm (w : Weft) (n : Nat) (f : Bool) : (w.fillS n f).dm = w.dm := rfl
@[simp] theorem Weft.fillS_wb (w : Weft) (n : Nat) (f : Bool) : (w.fillS n f).wb = w.wb := rfl
@[simp] theorem Weft.fillS_vregs (w : Weft) (n : Nat) (f : Bool) : (w.fillS n f).vregs = w.vregs := rfl
@[simp] theorem Weft.fillS_xregs (w : Weft) (n : Nat) (f : Bool) : (w.fillS n f).xregs = w.xregs := rfl
@[simp] theorem Weft.fillS_tm (w : Weft) (n : Nat) (f : Bool) : (w.fillS n f).tm = w.tm := rfl
@[simp] theorem Weft.fillS_tem (w : Weft) (n : Nat) (f : Bool) : (w.fillS n f).tem = w.tem := rfl
@[simp] theorem Weft.fillS_tdm (w : Weft) (n : Nat) (f : Bool) : (w.fillS n f).tdm = w.tdm := rfl
@[simp] theorem Weft.fillS_tpc (w : Weft) (n : Nat) (f : Bool) : (w.fillS n f).tpc = w.tpc := rfl
@[simp] theorem Weft.fillS_tcause (w : Weft) (n : Nat) (f : Bool) : (w.fillS n f).tcause = w.tcause := rfl
@[simp] theorem Weft.fillS_tmask (w : Weft) (n : Nat) (f : Bool) : (w.fillS n f).tmask = w.tmask := rfl
@[simp] theorem Weft.fillS_tinfo (w : Weft) (n : Nat) (f : Bool) : (w.fillS n f).tinfo = w.tinfo := rfl
@[simp] theorem Weft.fillS_fpmode (w : Weft) (n : Nat) (f : Bool) : (w.fillS n f).fpmode = w.fpmode := rfl
@[simp] theorem Weft.fillS_fpflags (w : Weft) (n : Nat) (f : Bool) : (w.fillS n f).fpflags = w.fpflags := rfl
@[simp] theorem Weft.fillS_seed (w : Weft) (n : Nat) (f : Bool) : (w.fillS n f).seed = w.seed := rfl
@[simp] theorem Weft.fillS_rctr (w : Weft) (n : Nat) (f : Bool) : (w.fillS n f).rctr = w.rctr := rfl
@[simp] theorem Weft.fillS_rgnpc (w : Weft) (n : Nat) (f : Bool) : (w.fillS n f).rgnpc = w.rgnpc := rfl
@[simp] theorem Weft.fillS_rgncnt (w : Weft) (n : Nat) (f : Bool) : (w.fillS n f).rgncnt = w.rgncnt := rfl
@[simp] theorem Weft.fillS_rgnem (w : Weft) (n : Nat) (f : Bool) : (w.fillS n f).rgnem = w.rgnem := rfl
@[simp] theorem Weft.fillS_err (w : Weft) (n : Nat) (f : Bool) : (w.fillS n f).err = w.err := rfl
@[simp] theorem Weft.fillS_cnt (w : Weft) (n : Nat) (f : Bool) : (w.fillS n f).cnt = w.cnt := rfl
@[simp] theorem Weft.fillS_busy (w : Weft) (n : Nat) (f : Bool) : (w.fillS n f).busy = w.busy := rfl
@[simp] theorem Weft.fillS_unsettled (w : Weft) (n : Nat) (f : Bool) : (w.fillS n f).unsettled = w.unsettled := rfl
@[simp] theorem Weft.fillS_parked (w : Weft) (n : Nat) (f : Bool) : (w.fillS n f).parked = w.parked := rfl
@[simp] theorem Weft.fillS_waiting (w : Weft) (n : Nat) (f : Bool) : (w.fillS n f).waiting = w.waiting := rfl
@[simp] theorem Weft.fillS_sleep (w : Weft) (n : Nat) (f : Bool) : (w.fillS n f).sleep = w.sleep := rfl
@[simp] theorem Weft.fillS_yielded (w : Weft) (n : Nat) (f : Bool) : (w.fillS n f).yielded = w.yielded := rfl
@[simp] theorem Weft.fillS_age (w : Weft) (n : Nat) (f : Bool) : (w.fillS n f).age = w.age := rfl
@[simp] theorem Weft.fillS_readyCnt (w : Weft) (n : Nat) (f : Bool) : (w.fillS n f).readyCnt = w.readyCnt := rfl
@[simp] theorem Weft.fillS_looked (w : Weft) (n : Nat) (f : Bool) : (w.fillS n f).looked = w.looked := rfl
@[simp] theorem Weft.fillS_halted (w : Weft) (n : Nat) (f : Bool) : (w.fillS n f).halted = w.halted := rfl
@[simp] theorem Weft.fillS_halting (w : Weft) (n : Nat) (f : Bool) : (w.fillS n f).halting = w.halting := rfl
@[simp] theorem Weft.fillS_released (w : Weft) (n : Nat) (f : Bool) : (w.fillS n f).released = w.released := rfl
@[simp] theorem Weft.fillS_stepping (w : Weft) (n : Nat) (f : Bool) : (w.fillS n f).stepping = w.stepping := rfl
@[simp] theorem Weft.fillS_preempt (w : Weft) (n : Nat) (f : Bool) : (w.fillS n f).preempt = w.preempt := rfl
@[simp] theorem Weft.fillS_preemptAge (w : Weft) (n : Nat) (f : Bool) : (w.fillS n f).preemptAge = w.preemptAge := rfl
@[simp] theorem Weft.fillS_stopped (w : Weft) (n : Nat) (f : Bool) : (w.fillS n f).stopped = w.stopped := rfl
@[simp] theorem Weft.fillS_events (w : Weft) (n : Nat) (f : Bool) : (w.fillS n f).events = w.events := rfl
@[simp] theorem Weft.fillS_hold (w : Weft) (n : Nat) (f : Bool) : (w.fillS n f).hold = w.hold := rfl
@[simp] theorem Weft.fillS_triggered (w : Weft) (n : Nat) (f : Bool) : (w.fillS n f).triggered = w.triggered := rfl
@[simp] theorem Weft.fillS_exited (w : Weft) (n : Nat) (f : Bool) : (w.fillS n f).exited = w.exited := rfl
@[simp] theorem Weft.fillS_injected (w : Weft) (n : Nat) (f : Bool) : (w.fillS n f).injected = w.injected := rfl
@[simp] theorem Weft.fillS_itnDone (w : Weft) (n : Nat) (f : Bool) : (w.fillS n f).itnDone = w.itnDone := rfl
@[simp] theorem Weft.fillS_itnNext (w : Weft) (n : Nat) (f : Bool) : (w.fillS n f).itnNext = w.itnNext := rfl
@[simp] theorem Weft.fillS_itnAnswer (w : Weft) (n : Nat) (f : Bool) : (w.fillS n f).itnAnswer = w.itnAnswer := rfl
@[simp] theorem Weft.fillS_itnReg (w : Weft) (n : Nat) (f : Bool) : (w.fillS n f).itnReg = w.itnReg := rfl
@[simp] theorem Weft.fillS_itnWas (w : Weft) (n : Nat) (f : Bool) : (w.fillS n f).itnWas = w.itnWas := rfl
@[simp] theorem Weft.fillS_shcopies (w : Weft) (n : Nat) (f : Bool) : (w.fillS n f).shcopies = w.shcopies := rfl
@[simp] theorem Weft.fillS_arrived (w : Weft) (n : Nat) (f : Bool) : (w.fillS n f).arrived = w.arrived := rfl
@[simp] theorem Weft.fillS_pbars (w : Weft) (n : Nat) (f : Bool) : (w.fillS n f).pbars = w.pbars := rfl
@[simp] theorem Weft.fillS_snapStep (w : Weft) (n : Nat) (f : Bool) : (w.fillS n f).snapStep = w.snapStep := rfl
@[simp] theorem Weft.fillS_fence (w : Weft) (n : Nat) (f : Bool) : (w.fillS n f).fence = w.fence := rfl
@[simp] theorem Weft.fillS_narrow (w : Weft) (n : Nat) (f : Bool) : (w.fillS n f).narrow = w.narrow := rfl

/-! ### `Weft.setLane` -/

@[simp] theorem Weft.setLane_core (w : Weft) (n i : Nat) (v : W32) : (w.setLane n i v).core = w.core := rfl
@[simp] theorem Weft.setLane_slot (w : Weft) (n i : Nat) (v : W32) : (w.setLane n i v).slot = w.slot := rfl
@[simp] theorem Weft.setLane_ctx (w : Weft) (n i : Nat) (v : W32) : (w.setLane n i v).ctx = w.ctx := rfl
@[simp] theorem Weft.setLane_team (w : Weft) (n i : Nat) (v : W32) : (w.setLane n i v).team = w.team := rfl
@[simp] theorem Weft.setLane_wid (w : Weft) (n i : Nat) (v : W32) : (w.setLane n i v).wid = w.wid := rfl
@[simp] theorem Weft.setLane_execRole (w : Weft) (n i : Nat) (v : W32) : (w.setLane n i v).execRole = w.execRole := rfl
@[simp] theorem Weft.setLane_pc (w : Weft) (n i : Nat) (v : W32) : (w.setLane n i v).pc = w.pc := rfl
@[simp] theorem Weft.setLane_em (w : Weft) (n i : Nat) (v : W32) : (w.setLane n i v).em = w.em := rfl
@[simp] theorem Weft.setLane_dm (w : Weft) (n i : Nat) (v : W32) : (w.setLane n i v).dm = w.dm := rfl
@[simp] theorem Weft.setLane_wb (w : Weft) (n i : Nat) (v : W32) : (w.setLane n i v).wb = w.wb := rfl
@[simp] theorem Weft.setLane_sregs (w : Weft) (n i : Nat) (v : W32) : (w.setLane n i v).sregs = w.sregs := rfl
@[simp] theorem Weft.setLane_xregs (w : Weft) (n i : Nat) (v : W32) : (w.setLane n i v).xregs = w.xregs := rfl
@[simp] theorem Weft.setLane_tm (w : Weft) (n i : Nat) (v : W32) : (w.setLane n i v).tm = w.tm := rfl
@[simp] theorem Weft.setLane_tem (w : Weft) (n i : Nat) (v : W32) : (w.setLane n i v).tem = w.tem := rfl
@[simp] theorem Weft.setLane_tdm (w : Weft) (n i : Nat) (v : W32) : (w.setLane n i v).tdm = w.tdm := rfl
@[simp] theorem Weft.setLane_tpc (w : Weft) (n i : Nat) (v : W32) : (w.setLane n i v).tpc = w.tpc := rfl
@[simp] theorem Weft.setLane_tcause (w : Weft) (n i : Nat) (v : W32) : (w.setLane n i v).tcause = w.tcause := rfl
@[simp] theorem Weft.setLane_tmask (w : Weft) (n i : Nat) (v : W32) : (w.setLane n i v).tmask = w.tmask := rfl
@[simp] theorem Weft.setLane_tinfo (w : Weft) (n i : Nat) (v : W32) : (w.setLane n i v).tinfo = w.tinfo := rfl
@[simp] theorem Weft.setLane_fpmode (w : Weft) (n i : Nat) (v : W32) : (w.setLane n i v).fpmode = w.fpmode := rfl
@[simp] theorem Weft.setLane_fpflags (w : Weft) (n i : Nat) (v : W32) : (w.setLane n i v).fpflags = w.fpflags := rfl
@[simp] theorem Weft.setLane_seed (w : Weft) (n i : Nat) (v : W32) : (w.setLane n i v).seed = w.seed := rfl
@[simp] theorem Weft.setLane_rctr (w : Weft) (n i : Nat) (v : W32) : (w.setLane n i v).rctr = w.rctr := rfl
@[simp] theorem Weft.setLane_rgnpc (w : Weft) (n i : Nat) (v : W32) : (w.setLane n i v).rgnpc = w.rgnpc := rfl
@[simp] theorem Weft.setLane_rgncnt (w : Weft) (n i : Nat) (v : W32) : (w.setLane n i v).rgncnt = w.rgncnt := rfl
@[simp] theorem Weft.setLane_rgnem (w : Weft) (n i : Nat) (v : W32) : (w.setLane n i v).rgnem = w.rgnem := rfl
@[simp] theorem Weft.setLane_err (w : Weft) (n i : Nat) (v : W32) : (w.setLane n i v).err = w.err := rfl
@[simp] theorem Weft.setLane_cnt (w : Weft) (n i : Nat) (v : W32) : (w.setLane n i v).cnt = w.cnt := rfl
@[simp] theorem Weft.setLane_busy (w : Weft) (n i : Nat) (v : W32) : (w.setLane n i v).busy = w.busy := rfl
@[simp] theorem Weft.setLane_unsettled (w : Weft) (n i : Nat) (v : W32) : (w.setLane n i v).unsettled = w.unsettled := rfl
@[simp] theorem Weft.setLane_parked (w : Weft) (n i : Nat) (v : W32) : (w.setLane n i v).parked = w.parked := rfl
@[simp] theorem Weft.setLane_waiting (w : Weft) (n i : Nat) (v : W32) : (w.setLane n i v).waiting = w.waiting := rfl
@[simp] theorem Weft.setLane_sleep (w : Weft) (n i : Nat) (v : W32) : (w.setLane n i v).sleep = w.sleep := rfl
@[simp] theorem Weft.setLane_yielded (w : Weft) (n i : Nat) (v : W32) : (w.setLane n i v).yielded = w.yielded := rfl
@[simp] theorem Weft.setLane_age (w : Weft) (n i : Nat) (v : W32) : (w.setLane n i v).age = w.age := rfl
@[simp] theorem Weft.setLane_readyCnt (w : Weft) (n i : Nat) (v : W32) : (w.setLane n i v).readyCnt = w.readyCnt := rfl
@[simp] theorem Weft.setLane_looked (w : Weft) (n i : Nat) (v : W32) : (w.setLane n i v).looked = w.looked := rfl
@[simp] theorem Weft.setLane_halted (w : Weft) (n i : Nat) (v : W32) : (w.setLane n i v).halted = w.halted := rfl
@[simp] theorem Weft.setLane_halting (w : Weft) (n i : Nat) (v : W32) : (w.setLane n i v).halting = w.halting := rfl
@[simp] theorem Weft.setLane_released (w : Weft) (n i : Nat) (v : W32) : (w.setLane n i v).released = w.released := rfl
@[simp] theorem Weft.setLane_stepping (w : Weft) (n i : Nat) (v : W32) : (w.setLane n i v).stepping = w.stepping := rfl
@[simp] theorem Weft.setLane_preempt (w : Weft) (n i : Nat) (v : W32) : (w.setLane n i v).preempt = w.preempt := rfl
@[simp] theorem Weft.setLane_preemptAge (w : Weft) (n i : Nat) (v : W32) : (w.setLane n i v).preemptAge = w.preemptAge := rfl
@[simp] theorem Weft.setLane_stopped (w : Weft) (n i : Nat) (v : W32) : (w.setLane n i v).stopped = w.stopped := rfl
@[simp] theorem Weft.setLane_events (w : Weft) (n i : Nat) (v : W32) : (w.setLane n i v).events = w.events := rfl
@[simp] theorem Weft.setLane_hold (w : Weft) (n i : Nat) (v : W32) : (w.setLane n i v).hold = w.hold := rfl
@[simp] theorem Weft.setLane_triggered (w : Weft) (n i : Nat) (v : W32) : (w.setLane n i v).triggered = w.triggered := rfl
@[simp] theorem Weft.setLane_exited (w : Weft) (n i : Nat) (v : W32) : (w.setLane n i v).exited = w.exited := rfl
@[simp] theorem Weft.setLane_injected (w : Weft) (n i : Nat) (v : W32) : (w.setLane n i v).injected = w.injected := rfl
@[simp] theorem Weft.setLane_itnDone (w : Weft) (n i : Nat) (v : W32) : (w.setLane n i v).itnDone = w.itnDone := rfl
@[simp] theorem Weft.setLane_itnNext (w : Weft) (n i : Nat) (v : W32) : (w.setLane n i v).itnNext = w.itnNext := rfl
@[simp] theorem Weft.setLane_itnAnswer (w : Weft) (n i : Nat) (v : W32) : (w.setLane n i v).itnAnswer = w.itnAnswer := rfl
@[simp] theorem Weft.setLane_itnReg (w : Weft) (n i : Nat) (v : W32) : (w.setLane n i v).itnReg = w.itnReg := rfl
@[simp] theorem Weft.setLane_itnWas (w : Weft) (n i : Nat) (v : W32) : (w.setLane n i v).itnWas = w.itnWas := rfl
@[simp] theorem Weft.setLane_shcopies (w : Weft) (n i : Nat) (v : W32) : (w.setLane n i v).shcopies = w.shcopies := rfl
@[simp] theorem Weft.setLane_arrived (w : Weft) (n i : Nat) (v : W32) : (w.setLane n i v).arrived = w.arrived := rfl
@[simp] theorem Weft.setLane_pbars (w : Weft) (n i : Nat) (v : W32) : (w.setLane n i v).pbars = w.pbars := rfl
@[simp] theorem Weft.setLane_snapStep (w : Weft) (n i : Nat) (v : W32) : (w.setLane n i v).snapStep = w.snapStep := rfl
@[simp] theorem Weft.setLane_fence (w : Weft) (n i : Nat) (v : W32) : (w.setLane n i v).fence = w.fence := rfl
@[simp] theorem Weft.setLane_narrow (w : Weft) (n i : Nat) (v : W32) : (w.setLane n i v).narrow = w.narrow := rfl

/-! ### `Weft.raise` -/

@[simp] theorem Weft.raise_core (w : Weft) (c op : Nat) : (w.raise c op).core = w.core := rfl
@[simp] theorem Weft.raise_slot (w : Weft) (c op : Nat) : (w.raise c op).slot = w.slot := rfl
@[simp] theorem Weft.raise_ctx (w : Weft) (c op : Nat) : (w.raise c op).ctx = w.ctx := rfl
@[simp] theorem Weft.raise_team (w : Weft) (c op : Nat) : (w.raise c op).team = w.team := rfl
@[simp] theorem Weft.raise_wid (w : Weft) (c op : Nat) : (w.raise c op).wid = w.wid := rfl
@[simp] theorem Weft.raise_execRole (w : Weft) (c op : Nat) : (w.raise c op).execRole = w.execRole := rfl
@[simp] theorem Weft.raise_pc (w : Weft) (c op : Nat) : (w.raise c op).pc = w.pc := rfl
@[simp] theorem Weft.raise_em (w : Weft) (c op : Nat) : (w.raise c op).em = w.em := rfl
@[simp] theorem Weft.raise_dm (w : Weft) (c op : Nat) : (w.raise c op).dm = w.dm := rfl
@[simp] theorem Weft.raise_wb (w : Weft) (c op : Nat) : (w.raise c op).wb = w.wb := rfl
@[simp] theorem Weft.raise_sregs (w : Weft) (c op : Nat) : (w.raise c op).sregs = w.sregs := rfl
@[simp] theorem Weft.raise_vregs (w : Weft) (c op : Nat) : (w.raise c op).vregs = w.vregs := rfl
@[simp] theorem Weft.raise_xregs (w : Weft) (c op : Nat) : (w.raise c op).xregs = w.xregs := rfl
@[simp] theorem Weft.raise_tm (w : Weft) (c op : Nat) : (w.raise c op).tm = w.tm := rfl
@[simp] theorem Weft.raise_tem (w : Weft) (c op : Nat) : (w.raise c op).tem = w.tem := rfl
@[simp] theorem Weft.raise_tdm (w : Weft) (c op : Nat) : (w.raise c op).tdm = w.tdm := rfl
@[simp] theorem Weft.raise_tpc (w : Weft) (c op : Nat) : (w.raise c op).tpc = w.tpc := rfl
@[simp] theorem Weft.raise_tcause (w : Weft) (c op : Nat) : (w.raise c op).tcause = w.tcause := rfl
@[simp] theorem Weft.raise_tmask (w : Weft) (c op : Nat) : (w.raise c op).tmask = w.tmask := rfl
@[simp] theorem Weft.raise_tinfo (w : Weft) (c op : Nat) : (w.raise c op).tinfo = w.tinfo := rfl
@[simp] theorem Weft.raise_fpmode (w : Weft) (c op : Nat) : (w.raise c op).fpmode = w.fpmode := rfl
@[simp] theorem Weft.raise_fpflags (w : Weft) (c op : Nat) : (w.raise c op).fpflags = w.fpflags := rfl
@[simp] theorem Weft.raise_seed (w : Weft) (c op : Nat) : (w.raise c op).seed = w.seed := rfl
@[simp] theorem Weft.raise_rctr (w : Weft) (c op : Nat) : (w.raise c op).rctr = w.rctr := rfl
@[simp] theorem Weft.raise_rgnpc (w : Weft) (c op : Nat) : (w.raise c op).rgnpc = w.rgnpc := rfl
@[simp] theorem Weft.raise_rgncnt (w : Weft) (c op : Nat) : (w.raise c op).rgncnt = w.rgncnt := rfl
@[simp] theorem Weft.raise_rgnem (w : Weft) (c op : Nat) : (w.raise c op).rgnem = w.rgnem := rfl
@[simp] theorem Weft.raise_err (w : Weft) (c op : Nat) : (w.raise c op).err = w.err := rfl
@[simp] theorem Weft.raise_busy (w : Weft) (c op : Nat) : (w.raise c op).busy = w.busy := rfl
@[simp] theorem Weft.raise_unsettled (w : Weft) (c op : Nat) : (w.raise c op).unsettled = w.unsettled := rfl
@[simp] theorem Weft.raise_parked (w : Weft) (c op : Nat) : (w.raise c op).parked = w.parked := rfl
@[simp] theorem Weft.raise_waiting (w : Weft) (c op : Nat) : (w.raise c op).waiting = w.waiting := rfl
@[simp] theorem Weft.raise_sleep (w : Weft) (c op : Nat) : (w.raise c op).sleep = w.sleep := rfl
@[simp] theorem Weft.raise_yielded (w : Weft) (c op : Nat) : (w.raise c op).yielded = w.yielded := rfl
@[simp] theorem Weft.raise_age (w : Weft) (c op : Nat) : (w.raise c op).age = w.age := rfl
@[simp] theorem Weft.raise_readyCnt (w : Weft) (c op : Nat) : (w.raise c op).readyCnt = w.readyCnt := rfl
@[simp] theorem Weft.raise_looked (w : Weft) (c op : Nat) : (w.raise c op).looked = w.looked := rfl
@[simp] theorem Weft.raise_halted (w : Weft) (c op : Nat) : (w.raise c op).halted = w.halted := rfl
@[simp] theorem Weft.raise_halting (w : Weft) (c op : Nat) : (w.raise c op).halting = w.halting := rfl
@[simp] theorem Weft.raise_released (w : Weft) (c op : Nat) : (w.raise c op).released = w.released := rfl
@[simp] theorem Weft.raise_stepping (w : Weft) (c op : Nat) : (w.raise c op).stepping = w.stepping := rfl
@[simp] theorem Weft.raise_preempt (w : Weft) (c op : Nat) : (w.raise c op).preempt = w.preempt := rfl
@[simp] theorem Weft.raise_preemptAge (w : Weft) (c op : Nat) : (w.raise c op).preemptAge = w.preemptAge := rfl
@[simp] theorem Weft.raise_stopped (w : Weft) (c op : Nat) : (w.raise c op).stopped = w.stopped := rfl
@[simp] theorem Weft.raise_events (w : Weft) (c op : Nat) : (w.raise c op).events = w.events := rfl
@[simp] theorem Weft.raise_hold (w : Weft) (c op : Nat) : (w.raise c op).hold = w.hold := rfl
@[simp] theorem Weft.raise_triggered (w : Weft) (c op : Nat) : (w.raise c op).triggered = w.triggered := rfl
@[simp] theorem Weft.raise_exited (w : Weft) (c op : Nat) : (w.raise c op).exited = w.exited := rfl
@[simp] theorem Weft.raise_injected (w : Weft) (c op : Nat) : (w.raise c op).injected = w.injected := rfl
@[simp] theorem Weft.raise_itnDone (w : Weft) (c op : Nat) : (w.raise c op).itnDone = w.itnDone := rfl
@[simp] theorem Weft.raise_itnNext (w : Weft) (c op : Nat) : (w.raise c op).itnNext = w.itnNext := rfl
@[simp] theorem Weft.raise_itnAnswer (w : Weft) (c op : Nat) : (w.raise c op).itnAnswer = w.itnAnswer := rfl
@[simp] theorem Weft.raise_itnReg (w : Weft) (c op : Nat) : (w.raise c op).itnReg = w.itnReg := rfl
@[simp] theorem Weft.raise_itnWas (w : Weft) (c op : Nat) : (w.raise c op).itnWas = w.itnWas := rfl
@[simp] theorem Weft.raise_shcopies (w : Weft) (c op : Nat) : (w.raise c op).shcopies = w.shcopies := rfl
@[simp] theorem Weft.raise_arrived (w : Weft) (c op : Nat) : (w.raise c op).arrived = w.arrived := rfl
@[simp] theorem Weft.raise_pbars (w : Weft) (c op : Nat) : (w.raise c op).pbars = w.pbars := rfl
@[simp] theorem Weft.raise_snapStep (w : Weft) (c op : Nat) : (w.raise c op).snapStep = w.snapStep := rfl
@[simp] theorem Weft.raise_fence (w : Weft) (c op : Nat) : (w.raise c op).fence = w.fence := rfl
@[simp] theorem Weft.raise_narrow (w : Weft) (c op : Nat) : (w.raise c op).narrow = w.narrow := rfl

/-! ### `Weft.lower` -/

@[simp] theorem Weft.lower_core (w : Weft) (c op : Nat) : (w.lower c op).core = w.core := rfl
@[simp] theorem Weft.lower_slot (w : Weft) (c op : Nat) : (w.lower c op).slot = w.slot := rfl
@[simp] theorem Weft.lower_ctx (w : Weft) (c op : Nat) : (w.lower c op).ctx = w.ctx := rfl
@[simp] theorem Weft.lower_team (w : Weft) (c op : Nat) : (w.lower c op).team = w.team := rfl
@[simp] theorem Weft.lower_wid (w : Weft) (c op : Nat) : (w.lower c op).wid = w.wid := rfl
@[simp] theorem Weft.lower_execRole (w : Weft) (c op : Nat) : (w.lower c op).execRole = w.execRole := rfl
@[simp] theorem Weft.lower_pc (w : Weft) (c op : Nat) : (w.lower c op).pc = w.pc := rfl
@[simp] theorem Weft.lower_em (w : Weft) (c op : Nat) : (w.lower c op).em = w.em := rfl
@[simp] theorem Weft.lower_dm (w : Weft) (c op : Nat) : (w.lower c op).dm = w.dm := rfl
@[simp] theorem Weft.lower_wb (w : Weft) (c op : Nat) : (w.lower c op).wb = w.wb := rfl
@[simp] theorem Weft.lower_sregs (w : Weft) (c op : Nat) : (w.lower c op).sregs = w.sregs := rfl
@[simp] theorem Weft.lower_vregs (w : Weft) (c op : Nat) : (w.lower c op).vregs = w.vregs := rfl
@[simp] theorem Weft.lower_xregs (w : Weft) (c op : Nat) : (w.lower c op).xregs = w.xregs := rfl
@[simp] theorem Weft.lower_tm (w : Weft) (c op : Nat) : (w.lower c op).tm = w.tm := rfl
@[simp] theorem Weft.lower_tem (w : Weft) (c op : Nat) : (w.lower c op).tem = w.tem := rfl
@[simp] theorem Weft.lower_tdm (w : Weft) (c op : Nat) : (w.lower c op).tdm = w.tdm := rfl
@[simp] theorem Weft.lower_tpc (w : Weft) (c op : Nat) : (w.lower c op).tpc = w.tpc := rfl
@[simp] theorem Weft.lower_tcause (w : Weft) (c op : Nat) : (w.lower c op).tcause = w.tcause := rfl
@[simp] theorem Weft.lower_tmask (w : Weft) (c op : Nat) : (w.lower c op).tmask = w.tmask := rfl
@[simp] theorem Weft.lower_tinfo (w : Weft) (c op : Nat) : (w.lower c op).tinfo = w.tinfo := rfl
@[simp] theorem Weft.lower_fpmode (w : Weft) (c op : Nat) : (w.lower c op).fpmode = w.fpmode := rfl
@[simp] theorem Weft.lower_fpflags (w : Weft) (c op : Nat) : (w.lower c op).fpflags = w.fpflags := rfl
@[simp] theorem Weft.lower_seed (w : Weft) (c op : Nat) : (w.lower c op).seed = w.seed := rfl
@[simp] theorem Weft.lower_rctr (w : Weft) (c op : Nat) : (w.lower c op).rctr = w.rctr := rfl
@[simp] theorem Weft.lower_rgnpc (w : Weft) (c op : Nat) : (w.lower c op).rgnpc = w.rgnpc := rfl
@[simp] theorem Weft.lower_rgncnt (w : Weft) (c op : Nat) : (w.lower c op).rgncnt = w.rgncnt := rfl
@[simp] theorem Weft.lower_rgnem (w : Weft) (c op : Nat) : (w.lower c op).rgnem = w.rgnem := rfl
@[simp] theorem Weft.lower_err (w : Weft) (c op : Nat) : (w.lower c op).err = w.err := rfl
@[simp] theorem Weft.lower_busy (w : Weft) (c op : Nat) : (w.lower c op).busy = w.busy := rfl
@[simp] theorem Weft.lower_unsettled (w : Weft) (c op : Nat) : (w.lower c op).unsettled = w.unsettled := rfl
@[simp] theorem Weft.lower_parked (w : Weft) (c op : Nat) : (w.lower c op).parked = w.parked := rfl
@[simp] theorem Weft.lower_waiting (w : Weft) (c op : Nat) : (w.lower c op).waiting = w.waiting := rfl
@[simp] theorem Weft.lower_sleep (w : Weft) (c op : Nat) : (w.lower c op).sleep = w.sleep := rfl
@[simp] theorem Weft.lower_yielded (w : Weft) (c op : Nat) : (w.lower c op).yielded = w.yielded := rfl
@[simp] theorem Weft.lower_age (w : Weft) (c op : Nat) : (w.lower c op).age = w.age := rfl
@[simp] theorem Weft.lower_readyCnt (w : Weft) (c op : Nat) : (w.lower c op).readyCnt = w.readyCnt := rfl
@[simp] theorem Weft.lower_looked (w : Weft) (c op : Nat) : (w.lower c op).looked = w.looked := rfl
@[simp] theorem Weft.lower_halted (w : Weft) (c op : Nat) : (w.lower c op).halted = w.halted := rfl
@[simp] theorem Weft.lower_halting (w : Weft) (c op : Nat) : (w.lower c op).halting = w.halting := rfl
@[simp] theorem Weft.lower_released (w : Weft) (c op : Nat) : (w.lower c op).released = w.released := rfl
@[simp] theorem Weft.lower_stepping (w : Weft) (c op : Nat) : (w.lower c op).stepping = w.stepping := rfl
@[simp] theorem Weft.lower_preempt (w : Weft) (c op : Nat) : (w.lower c op).preempt = w.preempt := rfl
@[simp] theorem Weft.lower_preemptAge (w : Weft) (c op : Nat) : (w.lower c op).preemptAge = w.preemptAge := rfl
@[simp] theorem Weft.lower_stopped (w : Weft) (c op : Nat) : (w.lower c op).stopped = w.stopped := rfl
@[simp] theorem Weft.lower_events (w : Weft) (c op : Nat) : (w.lower c op).events = w.events := rfl
@[simp] theorem Weft.lower_hold (w : Weft) (c op : Nat) : (w.lower c op).hold = w.hold := rfl
@[simp] theorem Weft.lower_triggered (w : Weft) (c op : Nat) : (w.lower c op).triggered = w.triggered := rfl
@[simp] theorem Weft.lower_exited (w : Weft) (c op : Nat) : (w.lower c op).exited = w.exited := rfl
@[simp] theorem Weft.lower_injected (w : Weft) (c op : Nat) : (w.lower c op).injected = w.injected := rfl
@[simp] theorem Weft.lower_itnDone (w : Weft) (c op : Nat) : (w.lower c op).itnDone = w.itnDone := rfl
@[simp] theorem Weft.lower_itnNext (w : Weft) (c op : Nat) : (w.lower c op).itnNext = w.itnNext := rfl
@[simp] theorem Weft.lower_itnAnswer (w : Weft) (c op : Nat) : (w.lower c op).itnAnswer = w.itnAnswer := rfl
@[simp] theorem Weft.lower_itnReg (w : Weft) (c op : Nat) : (w.lower c op).itnReg = w.itnReg := rfl
@[simp] theorem Weft.lower_itnWas (w : Weft) (c op : Nat) : (w.lower c op).itnWas = w.itnWas := rfl
@[simp] theorem Weft.lower_shcopies (w : Weft) (c op : Nat) : (w.lower c op).shcopies = w.shcopies := rfl
@[simp] theorem Weft.lower_arrived (w : Weft) (c op : Nat) : (w.lower c op).arrived = w.arrived := rfl
@[simp] theorem Weft.lower_pbars (w : Weft) (c op : Nat) : (w.lower c op).pbars = w.pbars := rfl
@[simp] theorem Weft.lower_snapStep (w : Weft) (c op : Nat) : (w.lower c op).snapStep = w.snapStep := rfl
@[simp] theorem Weft.lower_fence (w : Weft) (c op : Nat) : (w.lower c op).fence = w.fence := rfl
@[simp] theorem Weft.lower_narrow (w : Weft) (c op : Nat) : (w.lower c op).narrow = w.narrow := rfl

@[simp] theorem Weft.commitTo_pc (w : Weft) (p : Pfx) (r : Bool) (pc : W64) : (w.commitTo p r pc).pc = pc := rfl
@[simp] theorem Weft.commit_pc (w : Weft) (p : Pfx) (r : Bool) : (w.commit p r).pc = w.nextPc p := rfl
@[simp] theorem Weft.commitTo_rctr (w : Weft) (p : Pfx) (r : Bool) (pc : W64) : (w.commitTo p r pc).rctr = w.rctr + w.rctrStep p r := rfl
@[simp] theorem Weft.commit_rctr (w : Weft) (p : Pfx) (r : Bool) : (w.commit p r).rctr = w.rctr + w.rctrStep p r := rfl
@[simp] theorem Weft.commit_waiting (w : Weft) (p : Pfx) (r : Bool) : (w.commit p r).waiting = none := rfl
@[simp] theorem Weft.commit_narrow (w : Weft) (p : Pfx) (r : Bool) : (w.commit p r).narrow = false := rfl

end Sys2Proof.Machine
end

