-- ==== Sys2Proof/Machine/Crypt.lean ====
section
/-! DEFINITION. What the memory stacks hold: HBM lines under AES-256-XTS (R57, R59), SCM lines in counter mode with their MACs
and the counter tree's MACs (R60, R61). Memory itself is what reads return; these are the bytes that stand for it. -/

namespace Sys2Proof.Machine

/-! ### HBM (R57, R59) -/

/-- The tweak of a line: its pseudo-channel, then its channel-local line address (R59, assumption 84). -/
def xtsTweak (chan line : Nat) : List Byte := leBytes 8 chan ++ leBytes 8 line

/-- A line as it is stored before encryption: 96 bytes when a CBF page's line qualifies, else 128 (R56, R57). -/
def storedLine (bs : List Byte) (cbf : Bool) : List Byte := if cbf && compressible bs then compressLine bs else bs

/-- The bytes that an HBM stack holds for line `line` of a pseudo-channel (R59). -/
def State.hbmStored (s : State) (chan line : Nat) (cbf : Bool) : List Byte :=
  aesXts s.boot.xtsData s.boot.xtsTweak (xtsTweak chan line) (storedLine (s.bytes (hbmKey chan (128 * line)) 128) cbf)

/-! ### SCM (R60, R61) -/

/-- The key of version `v` of SCM channel `t` (R61). -/
def scmVersionKey (secret : List Byte) (t v : Nat) : List Byte :=
  hkdf secret (labelBytes "gw5-scm-key" ++ leBytes 1 t ++ leBytes 2 v) 32

/-- A counter input: major, minor, channel, line address, block index (R60, assumption 84). -/
def scmCounter (b : CtrBlock) (line i : Nat) : List Byte :=
  leBytes 16 (b.major + 2 ^ 57 * b.minors.getD (line % 32) 0 + 2 ^ 64 * b.chan + 2 ^ 72 * line + 2 ^ 112 * i)

/-- The ciphertext of line `line` of an SCM channel: a keystream block for every 16 bytes (R60). -/
def State.scmStored (s : State) (chan line : Nat) : List Byte :=
  let b := s.ctrs.block s.scrub chan (line / 32)
  aesCtr (scmVersionKey s.boot.secret chan b.keyver) (scmCounter b line) (s.bytes (scmKey chan (128 * line)) 128)

/-- The 64-bit MAC of a line, over its ciphertext, address and counters (R60, assumption 84). -/
def State.scmMac (s : State) (chan line : Nat) : List Byte :=
  let b := s.ctrs.block s.scrub chan (line / 32)
  let c := scmCounter b line 15
  (aesGmac (scmVersionKey s.boot.secret chan b.keyver) (c.take 12) (s.scmStored chan line ++ c)).take 8

/-- The eight child counters of a node as 56 bytes. -/
def TreeNode.bytes (n : TreeNode) : List Byte := n.ctrs.flatMap (leBytes 7)

/-- A node as its 64 bytes: child counters, then a MAC over them under the counter that stands for it above (R60, assumption 84). -/
def State.nodeStored (s : State) (n : TreeNode) : List Byte :=
  let up := s.ctrs.node n.chan (n.level + 1) (n.idx / 8)
  let c := leBytes 8 (up.ctrs.getD (n.idx % 8) 0) ++ leBytes 4 n.idx ++ leBytes 4 n.level
  n.bytes ++ (aesGmac (scmVersionKey s.boot.secret n.chan 0) (c.take 12) (n.bytes ++ zeros 8 ++ c)).take 8

/-- The root of a channel's tree, which reserved SCM keeps (R60). -/
def State.treeRoot (s : State) (chan : Nat) : TreeNode := s.ctrs.node chan 8 0

end Sys2Proof.Machine
end

