-- ==== Sys2Proof/Tests/Slice0.lean ====
section
/-! SUPPORT. Tests. The worked cases, example words and tables of the manual give every expected result; each comment names the
rule or the worked case it is taken from. The witnesses at the end show, for each statement, a small state and operands that
meet its hypotheses, at the boundary values of their ranges. -/

namespace Sys2Proof.Tests

open Sys2Proof Sys2Proof.Machine

set_option Elab.async false
set_option maxRecDepth 100000

/-! ### Small states -/

/-- One running context, one team, one weft with 64 registers at core 0, slot 0, about to issue. -/
def base : State := State.reset.arm []

/-- The one weft of a small state changed. -/
def onWeft (f : Weft → Weft) (s : State) : State := { s with wefts := s.wefts.map f }

/-- Scalar registers set. -/
def withS (l : List (Nat × W64)) (s : State) : State :=
  onWeft (fun w => { w with sregs := l.foldl (fun r x => modAt r x.1 fun o => { o with val := x.2 }) w.sregs }) s

/-- Vector registers set. -/
def withV (l : List (Nat × VVal)) (s : State) : State :=
  onWeft (fun w => { w with vregs := l.foldl (fun r x => modAt r x.1 fun o => { o with val := x.2 }) w.vregs }) s

/-- The mask set. -/
def withEm (m : W64) (s : State) : State := onWeft (fun w => { w with em := m }) s

/-- A G value from its first lanes; the other lanes hold `r`. -/
def lanesOf (l : List W32) (r : W32) : VVal := .g ((List.range 64).map fun i => l.getD i r)

/-- Something holds of the weft at core 0, slot 0. -/
def weftIs (f : Weft → Bool) (s : State) : Bool :=
  match s.weft? 0 0 with
  | some w => f w
  | none => false

/-- The outcome is a next state of which something holds. -/
def goes (o : Host.Outcome State Fault Refusal) (f : State → Bool) : Bool :=
  match o with
  | .next t => f t
  | _ => false

/-- The words decode to an instruction, and its meaning at a state answers a next state of which something holds. -/
noncomputable def runs (ws : List W32) (s : State) (f : State → Bool) : Bool :=
  match decodeGroup ws with
  | .instr i _ => goes (exec i s) f
  | _ => false

/-- The words decode to an instruction with as many words. -/
noncomputable def reads (ws : List W32) (i : Instr) : Bool :=
  match decodeGroup ws with
  | .instr j n => j == i && n == ws.length
  | _ => false

/-- A scalar register after. -/
def sIs (n : Nat) (v : W64) (s : State) : Bool := weftIs (fun w => (w.sreg n).val == v) s

/-- Some lanes of a vector register after. -/
def vIs (n : Nat) (l : List (Nat × W32)) (s : State) : Bool :=
  weftIs (fun w => l.all fun x => (w.vreg n).val.lane x.1 == x.2) s

/-- The tag of a vector register after. -/
def tagIs (n t : Nat) (s : State) : Bool := weftIs (fun w => (w.vreg n).val.tag == t) s

/-- `fpflags` after. -/
def flagsAre (f : BitVec 5) (s : State) : Bool := weftIs (fun w => w.fpflags == f) s

/-- The weft has trapped with a cause and lanes. -/
def trapped (cause : BitVec 8) (lanes : W64) (s : State) : Bool :=
  weftIs (fun w => w.tm && w.tcause == cause && w.tmask == lanes) s

/-! ### Well-formed instructions: each check refuses an ill-formed term -/

/-- An XG prefix whose fields are all 0. -/
def xg0 : Xg :=
  { ge := false, gn := false, gs := 0, ord := 0, rnd := 0, sat := false, ea := false, eb := false, ed := false, scope := 0, nt := false }

/-- R314 steps 3 and 4: a `vcmp` of type 3, an XL before `vadd`, and a guarded `br`. -/
theorem test_wf_refuses_majors :
    (Instr.vcmp Pfx.plain (.s 1) (.v 1) (.v 2) 0 3).fate = some (.illop 2)
    ∧ (Instr.vadd { xg := none, xl := some 0 } (.v 1) (.v 1) (.v 2)).fate = some (.illop 4)
    ∧ (Instr.br { xg := some { xg0 with ge := true }, xl := none } 1).fate = some (.illop 4) := by decide +kernel
/-- R304, R233: GS set without GE, a read-only special register, a reserved rounding and an ORD that `vadd` does not have. -/
theorem test_wf_refuses_prefixes :
    (Instr.vadd { xg := some { xg0 with gs := 1 }, xl := none } (.v 1) (.v 1) (.v 2)).fate = some (.illop 3)
    ∧ (Instr.setsr Pfx.plain (.s 1) 8).fate = some (.illop 5)
    ∧ (Instr.vadd { xg := some { xg0 with rnd := 6 }, xl := none } (.v 1) (.v 1) (.v 2)).fate = some (.illop 7)
    ∧ (Instr.vadd { xg := some { xg0 with ord := 1 }, xl := none } (.v 1) (.v 1) (.v 2)).fate = some (.illop 7)
    ∧ (Instr.fence Pfx.plain 0 6).fate = some (.illop 7) := by decide +kernel
/-- R310, R207, R374, R432, R218: operands of the wrong class, an odd pair, a literal and a descriptor past their ranges, an
index register beside a queue. -/
theorem test_wf_refuses_operands :
    (Instr.sadd Pfx.plain (.v 3) (.s 1) (.s 2)).fate = some .illopnd ∧ (Instr.win Pfx.plain 32).fate = some .illopnd
    ∧ (Instr.vaddw Pfx.plain (.v 3) (.v 2) (.v 4)).fate = some .illopnd ∧ (Instr.xclr Pfx.plain (.v 1)).fate = some .illopnd
    ∧ (Instr.shcopy Pfx.plain .zero (.s 27)).fate = some .illopnd
    ∧ (Instr.ld Pfx.plain (.v 1) (.v 3) .zero 0 0 2).fate = some .illopnd
    ∧ (Instr.vadd Pfx.plain (.x 1) (.v 1) (.q 5)).fate = some .illopnd := by decide +kernel
/-- R314 step 9, R223: a push to q0. -/
theorem test_wf_refuses_queue : (Instr.sadd Pfx.plain (.q 0) (.s 1) (.s 2)).fate = some .queue := by decide +kernel
/-- The neighbours of the refused terms at the ends of their ranges are well-formed. -/
theorem test_wf_accepts :
    (Instr.win Pfx.plain 31).fate = none ∧ (Instr.vaddw Pfx.plain (.v 62) (.v 2) (.v 4)).fate = none
    ∧ (Instr.shcopy Pfx.plain .zero (.s 26)).fate = none ∧ (Instr.setsr Pfx.plain (.s 1) 9).fate = none
    ∧ (Instr.sadd Pfx.plain (.q 4) (.s 1) (.q 6)).fate = none ∧ (Instr.fence Pfx.plain 0 5).fate = none := by decide +kernel

/-! ### Words of the manual's tables and listings -/

/-- The listing `inc1` of chapter 12. -/
theorem test_decode_inc1 :
    reads [0x86140E03] (.ld Pfx.plain (.s 2) (.s 0) .zero 0 0 3) ∧ reads [0x840C2E32] (.ld Pfx.plain (.v 1) (.s 2) .lane 1 0 2)
    ∧ reads [0x28081001] (.vaddi Pfx.plain (.v 1) (.v 1) 1) ∧ reads [0x880C2E32] (.st Pfx.plain (.v 1) (.s 2) .lane 1 2)
    ∧ reads [0x04000002] (.exit Pfx.plain) := by decide +kernel
/-- The guarded add and the backward `loop` of chapter 12. -/
theorem test_decode_guard_loop :
    (match decodeGroup [0xFE200000, 0x28102001] with
      | .instr (.vaddi p (.v 2) (.v 2) 1) 2 => p.xg.any fun x => x.ge && !x.gn && x.gs == 4
      | _ => false) = true
    ∧ reads [0x762FFFFD] (.loop Pfx.plain (.s 5) 0x7FFFD) := by decide +kernel
/-- The three-word load of chapter 12. -/
theorem test_decode_load_three_words :
    (match decodeGroup [0xFF220200, 0xF8008000, 0x842C6072] with
      | .instr (.ld p (.v 5) (.s 6) (.v 3) 1 0 2) 3 =>
        (p.xg.any fun x => x.ge && x.gn && x.gs == 4) && p.ord == 1 && p.scope == 4 && xlDisp p == 128 && xlGm p == 0
      | _ => false) = true := by decide +kernel
/-- R330 and its worked case: `trap`. -/
theorem test_decode_trap : reads [0x08000123] (.trap Pfx.plain 0x123) := by decide +kernel
/-- The worked cases of chapter 14. -/
theorem test_decode_vector :
    reads [0x24203055] (.vsaddn Pfx.plain (.v 4) (.v 3) (.v 2)) ∧ reads [0x243888BC] (.vbfi Pfx.plain (.v 7) (.v 8) (.s 5))
    ∧ reads [0x425840AA] (.vcmp Pfx.plain (.s 11) (.v 4) (.v 5) 2 2) ∧ reads [0x54101847] (.vshup Pfx.plain (.v 2) (.v 1) (.s 2))
    ∧ reads [0x5638102B] (.vbits Pfx.plain (.s 7) (.v 1) 1) ∧ reads [0x5F0C3000] (.xset Pfx.plain (.x 1) (.s 3)) := by
  decide +kernel
/-- The worked cases of chapter 15. -/
theorem test_decode_float :
    reads [0x48202063] (.ffma Pfx.plain (.v 4) (.v 2) (.v 3)) ∧ reads [0x50082069] (.cvtE5m2F32 Pfx.plain (.v 1) (.v 2) (.v 3))
    ∧ reads [0x5A201001] (.vredAddF32 Pfx.plain (.s 4) (.v 1)) := by decide +kernel
/-- The worked cases and example words of chapter 16. -/
theorem test_decode_memory :
    reads [0x942420A0] (.atomAddI32 Pfx.plain (.v 4) (.s 2) (.v 5)) ∧ reads [0x9434200E] (.atomCasB32 Pfx.plain (.v 6) (.s 2))
    ∧ reads [0xA40468E2] (.pflush Pfx.plain (.s 6) (.s 7)) ∧ reads [0xA6480023] (.stepmark Pfx.plain (.s 9) 1)
    ∧ reads [0xB0046000] (.waitc Pfx.plain (.s 6) 0) ∧ reads [0xB0068881] (.waitq Pfx.plain (.q 0) (.s 4)) := by decide +kernel
/-- The example words of R439. -/
theorem test_decode_knots :
    reads [0xAC0448A0] (.kinit Pfx.plain (.s 4) (.s 5)) ∧ reads [0xAC044001] (.karrive Pfx.plain (.s 4))
    ∧ reads [0xAE4C48A3] (.kwait Pfx.plain (.s 9) (.s 4) (.s 5)) ∧ reads [0xAE4C4004] (.ktest Pfx.plain (.s 9) (.s 4)) := by
  decide +kernel
/-- R314: a base major that names no instruction, and two XG prefixes. -/
theorem test_decode_refuses :
    decodeGroup [0xCC000000] = .fate (.illop 1) ∧ decodeGroup [0xFC000000, 0xFC000000, 0x28081001] = .fate (.illop 4) := by
  decide +kernel
/-- The table's numbering: a row's word, little-endian in memory. -/
theorem test_table_word : decodeTableWord 32 0x04000002 = some (.exit Pfx.plain) := by decide +kernel

/-! ### Scalar results: the worked case of R337 and R338 -/

def scal : State := withS [(1, 0x7FFFFFFFFFFFFFF0), (2, 0x20), (5, 0xFFFFFFFFFFFFFFFF), (6, 0xA00)] base
def sat : Pfx := { xg := some { ge := false, gn := false, gs := 0, ord := 0, rnd := 0, sat := true, nt := false, scope := 0, ea := false, eb := false, ed := false }, xl := none }

theorem test_sadd : goes (exec (.sadd Pfx.plain (.s 3) (.s 1) (.s 2)) scal) (sIs 3 0x8000000000000010) := by decide +kernel
theorem test_sadd_sat : goes (exec (.sadd sat (.s 3) (.s 1) (.s 2)) scal) (sIs 3 0x7FFFFFFFFFFFFFFF) := by decide +kernel
theorem test_smulhn : goes (exec (.smulhn Pfx.plain (.s 3) (.s 5) (.s 2)) scal) (sIs 3 0x1F) := by decide +kernel
theorem test_smulhi : goes (exec (.smulhi Pfx.plain (.s 3) (.s 5) (.s 2)) scal) (sIs 3 0xFFFFFFFFFFFFFFFF) := by decide +kernel
theorem test_sffs : goes (exec (.sffs Pfx.plain (.s 3) (.s 6)) scal) (sIs 3 9) := by decide +kernel
theorem test_sclz : goes (exec (.sclz Pfx.plain (.s 3) (.s 6)) scal) (sIs 3 52) := by decide +kernel
theorem test_sltn : goes (exec (.sltn Pfx.plain (.s 3) (.s 2) (.s 5)) scal) (sIs 3 0xFFFFFFFFFFFFFFFF) := by decide +kernel
theorem test_slt : goes (exec (.slt Pfx.plain (.s 3) (.s 2) (.s 5)) scal) (sIs 3 0) := by decide +kernel
/-- R340 and step 1 of the index register case: a 45-bit immediate. -/
theorem test_sli_xl : runs [0xF8000018, 0x221C2040] base (sIs 3 0xC42040) := by decide +kernel

/-! ### Masks: the worked case of R342 -/

theorem test_mif :
    goes (exec (.mif Pfx.plain (.s 11) (.s 2)) (withEm 0xFFFFFFFF (withS [(2, 0xFFFFFFFFFFFF)] base))) fun t =>
      sIs 11 0xFFFFFFFF t && weftIs (fun w => w.em == 0xFFFFFFFF) t := by decide +kernel
theorem test_mif_inner :
    goes (exec (.mif Pfx.plain (.s 11) (.s 2)) (withEm 0xFFFFFFFF (withS [(2, 0xFFFF)] base))) fun t =>
      sIs 11 0xFFFFFFFF t && weftIs (fun w => w.em == 0xFFFF) t := by decide +kernel
theorem test_melse :
    goes (exec (.melse Pfx.plain (.s 11)) (withEm 0xFFFF (withS [(11, 0xFFFFFFFF)] base)))
      (weftIs fun w => w.em == 0xFFFF0000) := by decide +kernel
/-- R345 and the listing of chapter 12: `loop` at offset 0x4C goes back three groups. -/
theorem test_loop :
    runs [0x762FFFFD] (onWeft (fun w => { w with pc := 0x4C }) (withS [(5, 2)] base)) fun t =>
      sIs 5 1 t && weftIs (fun w => w.pc == 0x40) t := by decide +kernel
theorem test_loop_ends :
    runs [0x762FFFFD] (onWeft (fun w => { w with pc := 0x4C }) (withS [(5, 1)] base)) fun t =>
      sIs 5 0 t && weftIs (fun w => w.pc == 0x50) t := by decide +kernel

/-! ### Vector integers: the worked cases of chapters 9 and 14 -/

def vint : State :=
  withV [(1, .u 0x7FFFFFF0), (2, .u 0x20), (3, .u 0xFFFFFFFF), (7, .u 0xAAAAAAAA), (8, .u 5), (9, .u 0xF0)]
    (withS [(3, 0x804), (4, 0x404), (5, 0x40C)] base)
def ends (n : Nat) (x : W32) : State → Bool := fun t => vIs n [(0, x), (63, x)] t && tagIs n 0 t

theorem test_vadd : runs [0x24201040] vint (ends 4 0x80000010) := by decide +kernel
theorem test_vadd_sat : runs [0xFC002000, 0x24201040] vint (ends 4 0x7FFFFFFF) := by decide +kernel
theorem test_vsaddn : runs [0x24203055] vint (ends 4 0xFFFFFFFF) := by decide +kernel
theorem test_vmulhi : runs [0x24203043] vint (ends 4 0xFFFFFFFF) := by decide +kernel
theorem test_vmulhn : runs [0x24203044] vint (ends 4 0x1F) := by decide +kernel
theorem test_vbfe : runs [0x2420387A] vint (ends 4 0xFF) := by decide +kernel
theorem test_vbfes : runs [0x2420989B] vint (ends 4 0xFFFFFFFF) := by decide +kernel
theorem test_vbfi : runs [0x243888BC] vint (ends 7 0xAAAA5AAA) := by decide +kernel
theorem test_vaddw :
    goes (exec (.vaddw Pfx.plain (.v 10) (.v 10) (.v 12)) (withV [(10, .u 0xFFFFFFFF), (12, .u 1)] base)) fun t =>
      vIs 10 [(5, 0)] t && vIs 11 [(5, 1)] t := by decide +kernel

/-- The tag case of R212: A plus U and A times U are A; a guarded add over eight lanes is G and keeps the others. -/
def tags : State := withV [(1, .a 100 4), (2, .u 7), (3, .a 107 4)] (withS [(5, 0xFF)] base)
theorem test_tag_add :
    goes (exec (.vadd Pfx.plain (.v 3) (.v 1) (.v 2)) tags) (weftIs fun w => (w.vreg 3).val == .a 107 4) := by decide +kernel
theorem test_tag_mul :
    goes (exec (.vmul Pfx.plain (.v 4) (.v 1) (.v 2)) tags) (weftIs fun w => (w.vreg 4).val == .a 700 28) := by decide +kernel
theorem test_tag_guarded :
    runs [0xFE280000, (0b001001#6 ++ 0x03#7 ++ 0x03#7 ++ 0x02#7 ++ 0#5)] tags fun t =>
      tagIs 3 2 t && vIs 3 [(7, 142), (8, 139), (63, 359)] t := by decide +kernel
/-- R348: `jmpv` on a G value is a SHAPE trap with `em` as the lanes. -/
theorem test_jmpv_shape :
    goes (exec (.jmpv Pfx.plain .zero (.v 3)) (withV [(3, lanesOf [1] 0)] base)) (trapped 0x03 allLanes) := by decide +kernel

/-- The compares of R363. -/
def cmps : State :=
  withV [(4, lanesOf [0x3F800000, 0x7FC00000, 0x80000000, 1] 0x3F800000), (5, lanesOf [0x40000000, 0x3F800000, 0, 0] 0x3F800000)]
    (withEm 0xF base)
theorem test_vcmp_lt :
    runs [0x425840AA] cmps fun t => sIs 11 1 t && flagsAre 1 t := by decide +kernel
theorem test_vcmp_eq :
    goes (exec (.vcmp Pfx.plain (.s 11) (.v 4) (.v 5) 0 2) cmps) fun t => sIs 11 4 t && flagsAre 0 t := by decide +kernel

/-- The lane moves of chapter 14. -/
def moves : State := withV [(1, .a 0 10)] (withS [(2, 3)] base)
theorem test_vshup : runs [0x54101847] moves fun t => vIs 2 [(0, 0), (2, 20), (3, 0), (63, 600)] t && tagIs 2 2 t := by decide +kernel
theorem test_vshdn : runs [0x54181848] moves fun t => vIs 3 [(0, 30), (60, 630), (61, 610), (63, 630)] t && tagIs 3 2 t := by
  decide +kernel
theorem test_vshxor : runs [0x54201849] moves (vIs 4 [(0, 30), (3, 0), (4, 70)]) := by decide +kernel
theorem test_vbcast : runs [0x54281841] moves (ends 5 30) := by decide +kernel
theorem test_vballot : runs [0x5630100A] moves (sIs 6 0xFFFFFFFFFFFFFFFE) := by decide +kernel
theorem test_vbits : runs [0x5638102B] moves (sIs 7 0xAAAAAAAAAAAAAAAA) := by decide +kernel
theorem test_vshape :
    runs [0x56403004] (withV [(3, .g ((List.range 64).map fun i => BitVec.ofNat 32 (if i < 61 then 10 * (i + 3) else 10 * i)))] base)
      (sIs 8 10) := by decide +kernel

/-- Reductions and scans of R370-R373. -/
def reds : State := withV [(1, .a 0 1)] (withEm 0xFF base)
theorem test_vred_add : goes (exec (.vredAddI32 Pfx.plain (.s 4) (.v 1)) reds) (sIs 4 28) := by decide +kernel
theorem test_vred_xor : goes (exec (.vredXor Pfx.plain (.s 4) (.v 1)) reds) (sIs 4 0) := by decide +kernel
theorem test_vred_max :
    goes (exec (.vredMaxI32 Pfx.plain (.v 3) (.v 1)) reds) fun t => vIs 3 [(0, 7), (7, 7), (8, 0)] t && tagIs 3 2 t := by decide +kernel
theorem test_vscan_add :
    goes (exec (.vscanAddI32 Pfx.plain (.v 2) (.v 1)) reds) (vIs 2 [(0, 0), (1, 1), (3, 6), (7, 28), (8, 0)]) := by decide +kernel
def extr (m : W64) : State :=
  withV [(6, .g ((List.range 64).map fun i =>
    if i = 2 then 0x7F800000 else if i = 5 then 0x7FC00000 else if i = 9 then 0xFFC00001 else if i = 11 then 0x80000000
    else if i = 12 then 0 else 0x3F800000))] (withEm m base)
theorem test_vargmax_nan : goes (exec (.vargmaxF32 Pfx.plain (.s 5) (.v 6)) (extr allLanes)) (sIs 5 0x7FC0000000000005) := by decide +kernel
theorem test_vargmin_nan : goes (exec (.vargminF32 Pfx.plain (.s 5) (.v 6)) (extr allLanes)) (sIs 5 0x7FC0000000000005) := by decide +kernel
theorem test_vargmax :
    goes (exec (.vargmaxF32 Pfx.plain (.s 5) (.v 6)) (extr 0xFFFFFFFFFFFFFDDF)) (sIs 5 0x7F80000000000002) := by decide +kernel
theorem test_vargmin :
    goes (exec (.vargminF32 Pfx.plain (.s 5) (.v 6)) (extr 0xFFFFFFFFFFFFFDDF)) (sIs 5 0x800000000000000B) := by decide +kernel

/-- The stack of R218: x2 with BASE 40, BOUND 8, STEP 1, MODE 3, and OFF[3] = 7. -/
def stackOf (o o3 : BitVec 8) : State :=
  onWeft (fun w => { w with xregs := modAt w.xregs 2 fun _ =>
    { base := 40, bound := 8, step := 1, mode := 3, off := (List.range 64).map fun i => if i = 3 then o3 else o } })
    (withV [(1, .u 5), (2, .u 6)] base)
theorem test_index_push :
    goes (exec (.vadd Pfx.plain (.x 2) (.v 1) (.v 2)) (stackOf 0 7)) fun t =>
      vIs 40 [(0, 11), (3, 0)] t && vIs 47 [(3, 11), (0, 0)] t && weftIs (fun w => (w.xreg 2).off.take 4 == [1, 1, 1, 8]) t := by
  decide +kernel
theorem test_index_bound :
    goes (exec (.vmov Pfx.plain (.v 10) (.x 2)) (stackOf 0 7)) fun t =>
      trapped 0x04 0xFFFFFFFFFFFFFFF7 t && weftIs (fun w => w.dm == 8 && (w.xreg 2).off.take 4 == [0, 0, 0, 6]) t := by
  decide +kernel

/-! ### Floating point: the worked cases of chapter 15 -/

def fl : State := withV [(2, .u 0x3F800001), (3, .u 0x3F7FFFFF), (4, .u 0xBF800000), (5, .u 0x3F800000), (7, .u 0xBF800000)] base
theorem test_fmul : runs [0x48282062] fl fun t => vIs 5 [(0, 0x3F800000)] t && flagsAre 0x10 t := by decide +kernel
theorem test_fadd : runs [0x483050E0] fl fun t => vIs 6 [(0, 0)] t && flagsAre 0 t := by decide +kernel
theorem test_ffma : runs [0x48202063] fl fun t => vIs 4 [(0, 0x337FFFFE)] t && flagsAre 0 t := by decide +kernel
/-- R389: with TNX = 1 nothing is written and the cause is FPX. -/
theorem test_fmul_traps :
    runs [0x48282062] (onWeft (fun w => { w with fpmode := 0x100 }) (withV [(5, .u 9)] fl)) fun t =>
      vIs 5 [(0, 9)] t && trapped 0x0C allLanes t && weftIs (fun w => w.tinfo == 0x1000) t := by decide +kernel
def narrow (x y : W32) : State := withV [(1, .u 0x11223344), (2, .u x), (3, .u y)] base
theorem test_cvt_e4m3 :
    runs [0x50082068] (narrow 0x43960000 0x43FA0000) fun t => vIs 1 [(0, 0x33447F79)] t && flagsAre 0x14 t := by decide +kernel
theorem test_cvt_e4m3_sat :
    runs [0xFC002000, 0x50082068] (narrow 0x43960000 0x43FA0000) fun t => vIs 1 [(0, 0x33447E79)] t && flagsAre 0x14 t := by
  decide +kernel
theorem test_cvt_e5m2 :
    runs [0x50082069] (narrow 0x43960000 0x43FA0000) fun t => vIs 1 [(0, 0x3344605D)] t && flagsAre 0x10 t := by decide +kernel
theorem test_cvt_e2m1 :
    runs [0x5008206C] (narrow 0x40200000 0xC0A00000) fun t => vIs 1 [(0, 0x223344E4)] t && flagsAre 0x10 t := by decide +kernel
theorem test_cvt_i8 :
    runs [0x5008206E] (narrow 0xC47A0000 0x40000000) fun t => vIs 1 [(0, 0x22334481)] t && flagsAre 0x14 t := by decide +kernel
/-- R385: the stochastic rounding case, seed 1, lane 0. -/
theorem test_cvt_bf16_rs :
    runs [0xFC014000, 0x50082067] (onWeft (fun w => { w with seed := 1, rctr := 0 }) (withV [(2, .u 0x3F80D800), (3, .u 0x40008000)] base))
      (vIs 1 [(0, 0x40003F81)]) := by decide +kernel
/-- R399, from its own words: floor(log2 3.0) + 127 = 128, and a NaN. -/
theorem test_cvt_e8m0 :
    goes (exec (.cvtE8m0F32 Pfx.plain (.v 1) (.v 2)) (withV [(2, lanesOf [0x40400000, 0x7FC00000, 0, 1] 0)] base))
      (vIs 1 [(0, 128), (1, 0xFF), (2, 0), (3, 0)]) := by decide +kernel
/-- R401, R402: the pairwise tree and its scan. -/
def tree : State := withV [(1, lanesOf [0x4B800000, 0x3F800000, 0x3F800000, 0xCB800000] 0)] (withEm 0xF base)
theorem test_vred_add_f32 : runs [0x5A201001] tree fun t => sIs 4 0x3F800000 t && flagsAre 0x10 t := by decide +kernel
theorem test_vscan_add_f32 :
    runs [0x5810100A] tree (vIs 2 [(0, 0x4B800000), (1, 0x4B800000), (2, 0x4B800000), (3, 0x3F800000), (4, 0)]) := by decide +kernel

/-! ### Memory: the worked cases of chapters 1, 2, 3, 12 and 16 -/

/-- The strided gather of chapter 16: the address of lane i is s4 + 8 i, and the lanes whose granule the mask leaves out are ALIGN. -/
theorem test_ld_granules :
    runs [0xFBFFF00F, 0x84444053] (withV [(2, .a 2 1)] (withS [(4, 0x1000000100)] base)) fun t =>
      t.accs.any fun a => a.lanes.length == 64 && (a.lanes.all fun l => l.ea == 0x1000000100 + BitVec.ofNat 64 (8 * l.lane))
        && (a.lanes.all fun l => decide (l.st = .waiting) == decide (l.lane % 16 < 8)) := by decide +kernel
/-- R413: the atomic of chapter 16, on a place of memory: lanes add in ascending order, and each answers the old value. -/
theorem test_atomic_lane :
    atomNew 0 103 3 0 = 106 ∧ atomNew 14 110 110 200 = 200 ∧ atomNew 14 200 110 201 = 200 := by decide +kernel
/-- The worked case of R48: stack 7, pseudo-channel 12, local address 0x031F40BC. -/
theorem test_hbm_place : chanOf 0x0000012345678ABC = 0x1CC := by decide +kernel
/-- R19: logical core 127 is on die 2. -/
theorem test_core_place : dieOf 127 = 2 := by decide +kernel

/-! ### Witnesses: what a group that issues needs -/

/-- The weft that issues passes stages 2 and 3 with a plan of which `f` holds. -/
def meets (s : State) (p : Pfx) (uses : List Use) (q : QRule) (f : State → Weft → Plan → Bool) : Bool :=
  match s.weft? s.focus.1 s.focus.2 with
  | none => false
  | some w =>
    match prep s w p uses q with
    | .go g => (s.popsPoison w g.m q uses).isNone && f s w g
    | .stop _ _ => false

/-- What `meets` computes is the hypothesis `State.Issues` of the statements. -/
theorem meets_issues {s : State} {p : Pfx} {uses : List Use} {q : QRule} {f : State → Weft → Plan → Bool}
    (h : meets s p uses q f = true) : ∃ w g, s.Issues w p uses q g ∧ f s w g = true := by
  unfold meets at h
  split at h
  · cases h
  · next w hw =>
    split at h
    · next g hg =>
      rw [Bool.and_eq_true, Option.isNone_iff_eq_none] at h
      exact ⟨w, g, ⟨hw, hg, h.1⟩, h.2⟩
    · cases h

/-- Some lane is active. -/
def some' (_ : State) (_ : Weft) (g : Plan) : Bool := g.m != 0
/-- No lane is active. -/
def none' (_ : State) (_ : Weft) (g : Plan) : Bool := g.m == 0
/-- What `State.VecIssues` asks beside. -/
def vec' (s : State) (w : Weft) (g : Plan) : Bool := g.m != 0 && g.bad == 0 && decide (0 ≤ (s.ration w.core).c)

theorem meets_vec {s : State} {p : Pfx} {uses : List Use} (h : meets s p uses .sources vec' = true) :
    ∃ w g, s.VecIssues w p uses g := by
  obtain ⟨w, g, hi, hf⟩ := meets_issues h
  simp only [vec', Bool.and_eq_true, decide_eq_true_eq, bne_iff_ne, beq_iff_eq] at hf
  exact ⟨w, g, hi, hf.1.1, hf.1.2, hf.2⟩

/-- The next state of an outcome, or the state before. -/
def after (o : Host.Outcome State Fault Refusal) (s : State) : State :=
  match o with
  | .next t => t
  | _ => s

def ss := [srcS .a (.s 0), srcS .b (.s 31), dstS (.s 31)]
def vv := [srcV .a (.v 0) 1, srcV .b (.v 63) 1, dstV (.v 63) 1]
def one := onWeft (fun w => { w with em := 1 }) base
def empty := withEm 0 base
/-- A load and a store in flight. -/
noncomputable def loading : State := after (exec (.ld Pfx.plain (.v 1) (.s 2) .lane 1 0 2) base) base
noncomputable def storing : State := after (exec (.st Pfx.plain (.v 1) (.s 2) .lane 1 2) base) base
/-- The store in the core store order, not performed. -/
noncomputable def ordered : State := { storing with accs := storing.accs.map fun a => { a with ord := some 0, settled := true } }
def rel (scope : Nat) (b : Bool) (s : State) : Bool := weftIs (fun w => s.relReady w scope == b) s

/-- EncodingReadsBack: R309's word of `sadd s3, s1, s2`. -/
theorem witness_EncodingReadsBack :
    (Instr.sadd Pfx.plain (.s 3) (.s 1) (.s 2)).fate = none
    ∧ encode (.sadd Pfx.plain (.s 3) (.s 1) (.s 2)) = some [0b000011#6 ++ 0x43#7 ++ 0x41#7 ++ 0x42#7 ++ 0#5] := by decide +kernel
/-- DecodedWordsAreTheEncoding: a group with words behind it. -/
theorem witness_DecodedWordsAreTheEncoding : decodeGroup [0x04000002, 0xFFFFFFFF] = .instr (.exit Pfx.plain) 1 := by decide +kernel
/-- WordsFromTheTables: a word of each major that its second part names, at the ends of the ranges. -/
theorem witness_WordsFromTheTables :
    majorOf 0 = 0 ∧ majorOf 0xCC000000 = 0x33 ∧ majorOf 0xF4000000 = 0x3D ∧ majorOf 0xF8000000 = 0x3E ∧ majorOf 0xFC000000 = 0x3F := by
  decide +kernel
/-- StepRunsTheDecodedInstruction, and the check of assumption 7 that a placed word is what runs next. -/
theorem witness_StepRunsTheDecodedInstruction :
    let s := State.reset.withFetchWord 32 0x04000000
    s.agenda = [] ∧ s.power.pf = .idle ∧ s.boot.st = .ready ∧ (match s.nextWeft with
      | some w => (match State.fetchGroup { s with focus := (w.core, w.slot) } w with
        | (_, .inl ws) => (match decodeGroup ws with | .instr i _ => i == .nop Pfx.plain | _ => false)
        | _ => false)
      | none => false) = true := by decide +kernel
/-- A cached line for the weft's group. -/
def cached (pc : W64) : State :=
  let s := onWeft (fun w => { w with pc := pc }) base
  match s.weft? 0 0 with
  | some w => (s.codeLine w (pc.toNat / 128 * 128)).1
  | none => s
/-- FetchAndPendingEvents: the last group that lies in its line with twelve bytes; a line that is not cached and translates; an event,
a power-fail sequence, an unfinished boot, and nothing to do. -/
theorem witness_FetchAndPendingEvents :
    weftIs (fun w => ((cached 0x10074).cachedLine w 0x10000).isSome && decide (w.pc.toNat % 128 + 12 ≤ 128)) (cached 0x10074)
    ∧ weftIs (fun w => (base.cachedLine w 0x10000).isNone && (match base.translate w.ctx 0x10000 .fetch 0 with
        | (.ok k _, s1) => !s1.rpoisoned k 128
        | _ => false)) base
    ∧ ({ base with power := { base.power with pf := .stopping } }.power.nextStep).isSome
    ∧ State.reset.agenda = [] ∧ State.reset.power.pf = .idle ∧ State.reset.boot.st ≠ .ready ∧ State.reset.boot.nextStep.isSome
    ∧ { base with wefts := [] }.nextWeft = none ∧ { base with wefts := [] }.agenda = [] := by decide +kernel
/-- NothingStops: a weft at the focus, and none. -/
theorem witness_NothingStops :
    (base.weft? base.focus.1 base.focus.2).isSome ∧ (State.reset.weft? State.reset.focus.1 State.reset.focus.2) = none
    ∧ (Instr.nop Pfx.plain).shape ≠ none ∧ Instr.vauxLoss.shape = none ∧ base.agenda = [] := by decide +kernel
/-- IssueConditionsAndEmptySources: s31 is empty and not poisoned. -/
theorem witness_IssueConditionsAndEmptySources :
    weftIs (fun w => !(w.sreg 31).full && !(w.sreg 31).pois && guardPoison w Pfx.plain == .ok && guardReady w Pfx.plain == .ok)
      (onWeft (fun w => { w with sregs := modAt w.sregs 31 fun r => { r with full := false } }) base) := by decide +kernel
/-- TrapEntryAndNestedTraps: a weft with TM 0, and one with TM 1 whose context runs. -/
theorem witness_TrapEntryAndNestedTraps :
    weftIs (fun w => !w.tm && decide (w.ctx < base.ctxs.length) && (base.ctx w.ctx).st == .running) base
    ∧ weftIs (fun w => w.tm) (onWeft (fun w => { w with tm := true }) base) := by decide +kernel
theorem witness_TrapReturn :
    meets base Pfx.plain [] .all (fun _ w _ => !w.tm)
    ∧ meets (onWeft (fun w => { w with tm := true }) base) Pfx.plain [] .all (fun _ w _ => w.tm) := by decide +kernel
/-- ScalarIntegerResults: s0 and s31 as operands, with one lane, with SAT, and with none. -/
theorem witness_ScalarIntegerResults :
    meets one Pfx.plain ss .active some' ∧ meets base sat ss .active some'
    ∧ meets base Pfx.plain [srcS .a (.s 0), dstS .zero] .active some' ∧ meets base Pfx.plain [dstS (.s 0)] .active some'
    ∧ meets empty Pfx.plain ss .active none' ∧ meets empty Pfx.plain [srcS .a .zero, dstS (.s 0)] .active none'
    ∧ meets empty Pfx.plain [dstS (.s 0)] .active none' ∧ meets empty Pfx.plain [srcS .a .em] .active none'
    ∧ meets empty Pfx.plain [] .active none' := by decide +kernel
/-- The itinerary bound to context 0, and a snapshot region of it. -/
def bound0 : State := { base with itin := { base.itin with bound := some 0 } }
def region0 : Region := { num := 0, ctx := 0, va := 0, len := 4096, pools := [], given := [], free := [] }
def snap0 : State := { base with snap := { base.snap with regions := [region0] } }
/-- ScalarReadsResultsAndFrame: an itinerary bound and not, a region held and not, the weft's launch and team found. -/
theorem witness_ScalarReadsResultsAndFrame :
    meets base Pfx.plain [dstS (.s 31)] .active (fun s w g => g.m != 0 && (s.launchOf w).isSome && (s.team? w.team).isSome
      && decide (s.itin.bound ≠ some w.ctx) && s.snap.regions.all (fun r => r.ctx ≠ w.ctx))
    ∧ meets bound0 Pfx.plain [dstS (.s 0)] .active (fun s w g => g.m != 0 && s.itin.bound == some w.ctx)
    ∧ meets snap0 Pfx.plain [dstS (.s 0)] .active (fun s w g => g.m != 0 && s.snap.regions.any (fun r => r.ctx == w.ctx))
    ∧ meets base Pfx.plain [srcS .a (.s 31)] .active some' := by decide +kernel
/-- MasksAndBranches: every class of operands, with a full mask and with none, on U, A and G values. -/
theorem witness_MasksAndBranches :
    meets empty Pfx.plain [srcS .a (.s 1), dstS (.s 2)] .all none' ∧ meets base Pfx.plain [srcS .a .em, dstS .zero] .all some'
    ∧ meets base Pfx.plain [dstS (.s 31)] .all some' ∧ meets base Pfx.plain [] .all some' ∧ meets base Pfx.plain [srcS .a .dm] .all some'
    ∧ meets base Pfx.plain [srcS .a (.s 0), dstS (.s 0)] .all some'
    ∧ ([.u 0, .u 1, .a 0 1, .g []].all fun v => meets (withV [(3, v)] base) Pfx.plain [srcV .a (.v 3) 1] .all
        (fun s w g => g.m != 0 && (s.vVal w w.em (srcV .a (.v 3) 1) []).headD (.u 9) == v))
    ∧ meets empty Pfx.plain [srcS .a (.s 1), srcV .b (.v 3) 1] .all none' ∧ meets base Pfx.plain [srcS .a (.s 1), srcV .b .lane 1] .all some' := by
  decide +kernel
/-- PlainInstructionsAndBreakpoints: a window of 64 registers admits literal 0 and no other; a debugger attached or not. -/
theorem witness_PlainInstructionsAndBreakpoints :
    meets base Pfx.plain [] .all (fun _ w _ => w.vregs.length == 64) ∧ meets base Pfx.plain [srcS .a (.s 0)] .all some'
    ∧ meets base Pfx.plain [] .active (fun s w g => g.m != 0 && !w.tm && decide (s.debug ≠ some w.ctx))
    ∧ meets { base with debug := some 0 } Pfx.plain [] .active (fun s w g => g.m != 0 && decide (s.debug = some w.ctx)) := by decide +kernel
/-- OrderingExitAndPersistence: releases and loads met and not met, a snapshot region, an acknowledged step, a counter at its last place. -/
theorem witness_OrderingExitAndPersistence :
    meets base Pfx.plain [] .all (fun s w _ => s.relReady w 5 && !s.loadsOpen w && !s.replays w && w.pbars.isEmpty && !s.inTask w
        && !s.fabricWrites w && !s.combines w.core && !s.weftWrites w)
    ∧ meets loading Pfx.plain [] .all (fun s w _ => s.loadsOpen w && !s.relReady w 5)
    ∧ meets ordered Pfx.plain [] .all (fun s w _ => !s.loadsOpen w && !s.relReady w 5)
    ∧ meets snap0 Pfx.plain [] .all (fun s w _ => !s.replays w && decide (w.count 5 < 1023) && s.snap.regions.any (fun r => r.ctx == w.ctx))
    ∧ meets base Pfx.plain [srcS .a (.s 0), srcS .b (.s 31)] .active some' ∧ meets empty Pfx.plain [srcS .a (.s 0), srcS .b .zero] .active none'
    ∧ meets base Pfx.plain [dstS (.s 0)] .active (fun s w g => g.m != 0 && !s.itin.acks.contains (dieOf w.core))
    ∧ meets { base with itin := { base.itin with acks := [0] } } Pfx.plain [dstS (.s 0)] .active
        (fun s w g => g.m != 0 && s.itin.acks.contains (dieOf w.core)) := by decide +kernel
/-- WaitAndBarrierInstructions: a counter at, above and below its target; a queue that serves and one that does not; a barrier pending. -/
noncomputable def arrived0 : State :=
  after (exec (.barArrive Pfx.plain 0) { base with teams := base.teams.map fun t => { t with nweft := 2 } }) base
theorem witness_WaitAndBarrierInstructions :
    meets base Pfx.plain [srcS .a (.s 0)] .all (fun s w _ => decide (w.count 0 ≤ (s.sVal w (.s 0)).toNat))
    ∧ meets loading Pfx.plain [srcS .a (.s 0)] .all (fun s w _ => decide ((s.sVal w (.s 0)).toNat < w.count 0))
    ∧ meets storing Pfx.plain [srcS .a (.s 0)] .all (fun s w _ => decide ((s.sVal w (.s 0)).toNat < w.count 1))
    ∧ meets base Pfx.plain [] .all (fun _ w _ => w.cnt.all List.isEmpty) ∧ meets loading Pfx.plain [] .all (fun _ w _ => w.cnt.any fun l => !l.isEmpty)
    ∧ meets base Pfx.plain [srcS .b (.s 0)] .all (fun s w _ => !s.waitqBad w 0 && (s.queueServes w 0).isSome)
    ∧ meets base Pfx.plain [] .all (fun s w _ => s.relReady w 1 && (s.team? w.team).isSome && w.arrived.isNone && !s.pendingAt w 0)
    ∧ meets arrived0 Pfx.plain [] .all (fun s w _ => s.pendingAt w 0) := by decide +kernel
/-- VectorIntegerAndPairResults: registers 0 and 63, with and without SAT, one, two and three sources, and pairs. -/
theorem witness_VectorIntegerAndPairResults :
    meets base Pfx.plain vv .sources vec' ∧ meets one sat vv .sources vec' ∧ meets base Pfx.plain [srcV .a (.s 1) 1, dstV (.x 0) 1] .sources
      (fun _ _ g => g.m != 0)
    ∧ meets base Pfx.plain [srcV .a .lane 1, srcV .b .zero 1, srcV .ds (.v 3) 1, dstV (.v 3) 1] .sources vec'
    ∧ meets base Pfx.plain [srcV .a (.v 62) 2, srcV .b (.v 0) 2, dstV (.v 62) 2] .sources vec' := by decide +kernel
theorem witness_VectorCompares :
    meets base Pfx.plain [srcV .a (.v 0) 1, srcV .b (.v 63) 1, dstS (.s 11)] .sources (fun s w g => vec' s w g && w.fpmode == 0) := by
  decide +kernel
theorem witness_LaneMovesAndReads :
    meets base Pfx.plain [srcV .a (.v 0) 1, dstV (.v 63) 1] .sources vec'
    ∧ meets base Pfx.plain [srcV .a (.v 0) 1, srcS .b (.s 2), dstV (.v 63) 1] .sources vec'
    ∧ meets base Pfx.plain [srcS .a (.s 0), srcS .b (.s 31), dstV (.v 63) 1] .sources vec'
    ∧ meets base Pfx.plain [srcV .a (.v 0) 1, srcS .b (.s 2), dstS (.s 1)] .sources vec' ∧ meets base Pfx.plain [srcV .a (.v 0) 1, dstS .zero] .sources vec'
    ∧ meets one Pfx.plain [srcS .a (.s 0), srcS .b (.s 31), srcV .d (.v 63) 1] .active (fun s w g => some' s w g && inMask g.m 0 && !inMask g.m 63)
    ∧ meets base Pfx.plain [dstV (.v 0) 1] .sources vec' := by decide +kernel
/-- IntegerReductions and FloatReductionsAndRanks: a vector and a scalar destination, one lane and all. -/
theorem witness_IntegerReductions :
    meets one Pfx.plain [srcV .a (.v 0) 1, dstV (.v 63) 1] .sources vec' ∧ meets base Pfx.plain [srcV .a (.v 0) 1, dstS (.s 4)] .sources vec' := by
  decide +kernel
theorem witness_FloatReductionsAndRanks :
    meets one Pfx.plain [srcV .a (.v 0) 1, dstV (.v 63) 1] .sources (fun s w g => vec' s w g && w.fpmode == 0)
    ∧ rankMax 0x7F7FFFFF < rankMax 0x7F800000 ∧ rankMin (2 ^ 31) < rankMin 0 ∧ rankMax 0xFFFFFFFF = rankMax 0x7FC00000 := by decide +kernel
/-- IndexRegistersAndIndexedAccess: a descriptor at the end of the registers (base 63, bound 1), and one past it; lane 63. -/
theorem witness_IndexRegistersAndIndexedAccess :
    meets (withS [(1, 63 + 2 ^ 9)] base) Pfx.plain [srcS .a (.s 1)] .active (fun _ w g => g.m != 0 && w.xregs.length == 8)
    ∧ meets (withS [(1, 64 + 2 ^ 9)] base) Pfx.plain [srcS .a (.s 1)] .active some'
    ∧ meets base Pfx.plain [srcV .a (.v 1) 1] .active some' ∧ meets base Pfx.plain [] .active some'
    ∧ meets base Pfx.plain [dstV (.v 1) 1] .sources (fun _ _ g => g.m != 0 && g.bad == 0)
    ∧ goes (exec (.xset Pfx.plain (.x 7) (.s 1)) (withS [(1, 63 + 2 ^ 9)] base)) (weftIs fun w => (w.xreg 7).base == 63)
    ∧ goes (exec (.xset Pfx.plain (.x 7) (.s 1)) (withS [(1, 64 + 2 ^ 9)] base)) (trapped 0x07 allLanes) := by decide +kernel
/-- Binary32AndRounding and PackedHalfAndConversionResults: U sources without a draw, and others; a unit one above the exponent. -/
theorem witness_Binary32AndRounding :
    meets base Pfx.plain vv .sources (fun s w g => vec' s w g && rmOf w Pfx.plain == 0 && w.fpmode == 0)
    ∧ meets (withV [(0, .a 0 1)] base) Pfx.plain vv .sources vec'
    ∧ meets base Pfx.plain [srcV .a (.v 0) 1, srcV .b (.v 1) 1, srcV .ds (.v 2) 1, dstV (.v 2) 1] .sources vec'
    ∧ roundAt { mode := 0, ftz := false, sat := false, r := 0, conv := false } false { m := 3, e := 0, sticky := false } 1 = (2, true) := by
  decide +kernel
theorem witness_PackedHalfAndConversionResults :
    meets base Pfx.plain [srcV .a (.v 0) 1, dstV (.v 1) 1] .sources (fun s w g => vec' s w g && w.fpmode == 0)
    ∧ meets base Pfx.plain vv .sources vec' ∧ meets base sat [srcV .a (.v 0) 1, srcV .b (.v 1) 1, srcV .ds (.v 2) 1, dstV (.v 2) 1] .sources vec' := by
  decide +kernel
theorem witness_ExponentScaleConversion : meets base Pfx.plain [srcV .a (.v 0) 1, dstV (.v 63) 1] .sources vec' := by decide +kernel
theorem witness_WrittenBytesAreRead : Memory.wf base.mem = true ∧ Memory.wf State.reset.mem = true := by decide +kernel

/-! ### Memory: one access from issue to its end (R409, R410, R52) -/

/-- The channel answers what waits, and what is ready is performed. -/
noncomputable def answered (s : State) : State :=
  s.accs.foldl (fun t a => a.chans.foldl (fun u ch => after (exec (.accessAnswer a.id ch true) u) u) t) s

/-- R409, R410: a store and then a load of 64 lanes give every lane its own word. -/
theorem test_st_then_ld :
    let s := withV [(3, .a 7 5)] (withS [(2, 0x20000)] base)
    let t := answered (after (exec (.st Pfx.plain (.v 3) (.s 2) .lane 1 2) s) s)
    let u := answered (after (exec (.ld Pfx.plain (.v 4) (.s 2) .lane 1 0 2) t) t)
    u.accs = [] ∧ vIs 4 [(0, 7), (1, 12), (63, 322)] u ∧ weftIs (fun w => w.pc == 0x10008 && w.cnt.all List.isEmpty) u := by decide +kernel
/-- R408, R52: a misaligned lane traps ALIGN alone, lane by lane. -/
theorem test_ld_align :
    let s := withV [(3, lanesOf [0, 2] 0)] (withS [(2, 0x20000)] base)
    trapped 0x08 2 (answered (after (exec (.ld Pfx.plain (.v 4) (.s 2) (.v 3) 0 0 2) s) s)) := by decide +kernel
/-- R38, R50: a load from a non-canonical address, and from a page that no table maps. -/
theorem test_ld_page :
    let s := withS [(2, 0x100000000000000)] base
    trapped 0x0A allLanes (answered (after (exec (.ld Pfx.plain (.s 4) (.s 2) .zero 0 0 3) s) s)) := by decide +kernel
/-- R413: the first two atomics of chapter 16 in one: lanes 0 to 3 add 1 to 4 to 100. -/
theorem test_atom_add :
    let s := withEm 0xF (withV [(5, .a 1 1)] (withS [(2, 0x20000)] base))
    let s1 := { s with mem := Memory.set s.mem (leafKey 0x20000 armLeaf) 100 }
    let t := answered (after (exec (.atomAddI32 Pfx.plain (.v 4) (.s 2) (.v 5)) s1) s1)
    vIs 4 [(0, 100), (1, 101), (2, 103), (3, 106), (4, 0)] t ∧ t.byte (leafKey 0x20000 armLeaf) = 110 := by decide +kernel
/-- R411: scratchpad stores and loads are done at issue. -/
theorem test_sts_then_lds :
    let s := withV [(3, .a 7 5)] base
    let t := after (exec (.sts Pfx.plain (.v 3) .zero .lane 1 2) s) s
    goes (exec (.lds Pfx.plain (.v 4) .zero .lane 1 0 2) t) (vIs 4 [(0, 7), (63, 322)]) := by decide +kernel
/-- R239: the first byte past the team's block is no address (SPADDR, cause 0x09). -/
theorem test_lds_spaddr :
    goes (exec (.lds Pfx.plain (.s 4) (.s 2) .zero 0 0 0) (withS [(2, 4096)] base)) (weftIs fun w => w.tm) := by decide +kernel

/-! ### Knots, queues, launches (R439, R463, R460) -/

/-- R439: `kinit` with 2, then two arrivals: the phase becomes 1 and PEND 2 again. -/
theorem test_knot :
    let s := withS [(4, 0x100), (5, 2)] base
    let t := after (exec (.kinit Pfx.plain (.s 4) (.s 5)) s) s
    let u := after (exec (.karrive Pfx.plain (.s 4)) t) t
    let v := after (exec (.karrive Pfx.plain (.s 4)) u) u
    goes (exec (.ktest Pfx.plain (.s 9) (.s 4)) u) (sIs 9 0x1000010)
    ∧ goes (exec (.ktest Pfx.plain (.s 9) (.s 4)) v) (sIs 9 0x1000021) := by decide +kernel
/-- R439: a count of 0, or of 2^20, is KNOT with DETAIL 5; 2^20 - 1 is not. -/
theorem test_kinit_range :
    ([(0 : W64), 0x100000].all fun n => goes (exec (.kinit Pfx.plain (.s 4) (.s 5)) (withS [(4, 0x100), (5, n)] base))
        (weftIs fun w => w.tm && w.tinfo == 0x500))
    ∧ goes (exec (.kinit Pfx.plain (.s 4) (.s 5)) (withS [(4, 0x100), (5, 0xFFFFF)] base)) (weftIs fun w => !w.tm) := by decide +kernel

/-! ### Witnesses: accesses, engines, queues -/

def access0 (k : AccKind) : Access :=
  { id := 0, core := 0, slot := 0, ctx := 0, pc := 0x10000, next := 0x10004, rstep := 0, kind := k, size := 4, signExt := false
    scalar := false, dst := .vregs [1], mask := 1, lanes := [{ lane := 63, ea := 0x20000, data := 5, swap := 0, st := .waiting }]
    settled := false, parked := false, replayed := false, nt := false, step := 0, cnt := some 0, gm := 0, heldBy := none, acq := false
    offs := [], op := 0, ord := none, split := false }

/-- PerformedLanesAndAtomics: each kind of access on the base state, and the largest operands. -/
theorem witness_PerformedLanesAndAtomics :
    Memory.wf base.mem ∧ base.unitOfKey 0x500 = none
    ∧ ([AccKind.load, .swait 0 0, .fetch, .store, .sigSet, .sigAdd, .atomic 14 true].all fun k => (access0 k).kind == k)
    ∧ atomNew 1 (2 ^ 64 - 1) (2 ^ 64 - 1) 0 = 2 ^ 64 - 2 ∧ atomNew 3 0x7FFFFFFF 0x80000000 0 = 0x80000000 := by decide +kernel
def memUses (d : Opnd) (n : Nat) := [baseUse (.s 2) false, srcV .b .lane 1, dstV d (regsOf n)]
/-- MemoryInstructionsAndLaneChecks: loads of 1 and of 16 bytes, a store, an atomic of 8 bytes, a compare and swap, the signals and
`swait`, with lanes and without; an aligned address, a misaligned one, and one outside a granule mask. -/
theorem witness_MemoryInstructionsAndLaneChecks :
    meets base Pfx.plain (memUses (.v 1) 1) .active some' ∧ meets base Pfx.plain (memUses (.v 60) 16) .active some'
    ∧ meets empty Pfx.plain (memUses (.v 1) 4) .active none' ∧ meets base Pfx.plain [baseUse (.v 2) false, srcV .b .zero 1, dstS (.s 1)] .active some'
    ∧ meets base Pfx.plain [baseUse (.s 2) false, srcV .b .lane 1, srcV .ds (.v 1) 1] .active some'
    ∧ meets base Pfx.plain [baseUse (.s 2) false, srcV .b (.v 4) 2, dstV (.v 6) 2] .active some'
    ∧ meets base Pfx.plain [baseUse (.s 2) false, srcV .ds (.v 4) 4, dstV (.v 4) 2] .active some'
    ∧ meets base Pfx.plain [srcS .a (.s 0), srcS .b (.s 1)] .active (fun s w g => g.m != 0 && s.relReady w 0 && s.capOpen 0 (access0 .sigAdd).lanes)
    ∧ meets base Pfx.plain [srcS .a (.s 0), srcS .b (.s 1), dstS (.s 2)] .active (fun _ w g => g.m != 0 && decide (w.count 0 < 1023))
    ∧ meets empty Pfx.plain [srcS .a (.s 0), srcS .b (.s 1), dstS .zero] .active (fun s w g => g.m == 0 && !s.loadsOpen w)
    ∧ (mkLane 1 0 4 0x20000 0 0 0).st = .bad .bound 0 ∧ (mkLane 0 0 4 0x20002 0 0 0).st = .bad .align 0
    ∧ (mkLane 0 1 16 0x20010 0 0 0).st = .bad .align 0 ∧ (mkLane 0 1 16 0x20000 0 0 0).st = .waiting := by decide +kernel
/-- AccessesStartAndFinish: an access as an instruction makes it, and one whose lanes are done. -/
noncomputable def inflight : State := loading
def doneLoad : State :=
  { onWeft (fun w => { w with cnt := modAt w.cnt 0 fun _ => [{ op := 9, done := false }] }) base with
    accs := [{ access0 .load with id := 9, op := 9, settled := true, lanes := [{ lane := 63, ea := 0x20000, data := 5, swap := 0, st := .done }] }] }
theorem witness_AccessesStartAndFinish :
    weftIs (fun w => w.pbars.isEmpty && (base.accs.all fun b => b.id != base.nextId && !b.parked)) base
    ∧ ((access0 .load).lanes.all fun l => decide (l.st = .waiting) && !isFabric l.ea)
    ∧ (doneLoad.acc? 9).isSome ∧ doneLoad.accs.all (fun a => a.op == 9 && a.id == 9) ∧ weftIs (fun w => (w.cnt.head?.any fun l => l.map CntEntry.op == [9])) doneLoad
    ∧ ((doneLoad.finish 9).acc? 9).isNone ∧ vIs 1 [(63, 5)] (doneLoad.finish 9) := by decide +kernel
/-- ScratchpadAccesses: a team with a block of 4,096 bytes; the last word of it, the first past it, and each code of bits [31:30]. -/
theorem witness_ScratchpadAccesses :
    (base.teams.any fun t => (t.spadKey 4092 4).isSome && (t.spadKey 4093 4).isNone && (t.spadKey 0x40000000 1).isNone
      && (t.spadKey 0x80000000 1).isNone && (t.spadKey 0xC0000000 1).isNone)
    ∧ meets base Pfx.plain [baseUse (.s 2) true, srcV .b .lane 1, dstV (.v 1) 1] .active (fun s w g => g.m != 0 && g.bad == 0 && !s.loadsOpen w)
    ∧ meets base Pfx.plain [baseUse (.s 2) true, srcV .b .lane 1, srcV .ds (.v 1) 1] .active some'
    ∧ meets base Pfx.plain [baseUse .zero true, srcV .b (.v 2) 1, dstV (.v 1) 1] .active some'
    ∧ meets base Pfx.plain [baseUse .zero true, srcV .ds (.v 2) 2, dstV (.v 2) 1] .active some' ∧ base.unitOfKey (2 ^ 44) = none := by decide +kernel
/-- KnotInstructions: an address of the team, one that is none, a valid knot and one that is not, a phase that differs and one that does not. -/
def knotted (k : Knot) : State := base.setKnot (coreKey 0 0x100) k
def knot1 : Knot := { phase := 15, pend := 1, exp := 1, sect := 0, valid := true, err := false, ecode := 0, rsv := 0 }
theorem witness_KnotInstructions :
    (base.teams.any fun t => base.knotKey t.id 0x100 == some (coreKey 0 0x100) && (base.knotKey t.id 0x108).isNone && (base.knotKey t.id 0x1000).isNone)
    ∧ (knotted knot1).knot (coreKey 0 0x100) = knot1 ∧ (knotted { knot1 with sect := 1 }).knot (coreKey 0 0x100) = { knot1 with sect := 1 }
    ∧ (base.knot (coreKey 0 0x100)).valid = false ∧ knot1.advance = knot1 ∧ ({ knot1 with pend := 0 }).advance = { knot1 with phase := 0 }
    ∧ meets (withS [(0, 0x100), (1, 1)] base) Pfx.plain [srcS .a (.s 0), srcS .b (.s 1)] .active some'
    ∧ meets empty Pfx.plain [srcS .a (.s 0), srcS .b (.s 1), dstS (.s 2)] .active (fun s w g => g.m == 0 && !s.loadsOpen w)
    ∧ meets base Pfx.plain [srcS .a (.s 0)] .active (fun s w g => g.m != 0 && s.relReady w 1)
    ∧ meets base Pfx.plain [srcS .a (.s 0), dstS (.s 2)] .active some' := by decide +kernel
/-- A descriptor for a fill of one 32-byte row of the core block, and one with no rows. -/
def fillRegs (rows : W64) (s : State) : State := withS [(0, 0x11), (1, 0x40), (2, 32 + 2 ^ 32 * rows), (3, 0), (4, 2 ^ 34), (5, 0), (6, 7)] s
/-- ShuttleCommands: a command that is accepted, one whose check fails, and one with no active lane. -/
theorem witness_ShuttleCommands :
    goes (exec (.shfill Pfx.plain (.s 6) (.s 0)) (fillRegs 1 base)) (fun t => t.cmds.length == 1 && weftIs (fun w => w.count 2 == 1) t)
    ∧ goes (exec (.shfill Pfx.plain (.s 6) (.s 0)) (fillRegs 0 base)) (weftIs fun w => w.tm && w.tinfo == 0x300)
    ∧ goes (exec (.shfill Pfx.plain (.s 6) (.s 0)) (withEm 0 (fillRegs 0 base))) (fun t => t.cmds.isEmpty && weftIs (fun w => !w.tm) t)
    ∧ goes (exec (.shcopy Pfx.plain .zero (.s 26)) empty) (fun t => t.cmds.length == 1)
    ∧ meets (fillRegs 1 base) Pfx.plain (descUses (.s 0) 6 ++ [srcS .ds (.s 6)]) .active some'
    ∧ meets base Pfx.plain (descUses (.s 26) 6 ++ [srcV .b .lane 1] ++ [srcS .ds .zero]) .active (fun s w g => g.m != 0 && !s.shuttleFull w.core)
    ∧ base.teams.all fun t => t.tokenRoom 0 := by decide +kernel
/-- MatrixAndNearMemoryCommands: an `mzero` of a tile that fits, one that does not, a configuration that is legal and one that is not. -/
def bigTeam : State := { base with teams := base.teams.map fun t => { t with csize := 0x100000 } }
theorem witness_MatrixAndNearMemoryCommands :
    goes (exec (.mzero Pfx.plain .zero (.s 0)) bigTeam) (fun t => t.teams.any fun m => m.mcmds.length == 1)
    ∧ goes (exec (.mzero Pfx.plain .zero (.s 0)) (withS [(0, 1)] bigTeam)) (weftIs fun w => w.tm)
    ∧ goes (exec (.mcfg Pfx.plain (.s 0)) (withS [(0, 0)] base)) (weftIs fun w => !w.tm)
    ∧ goes (exec (.mcfg Pfx.plain (.s 0)) (withS [(0, 0x400)] base)) (weftIs fun w => w.tm && w.tinfo == 0x300)
    ∧ goes (exec (.nmvcfg Pfx.plain (.s 0)) (withS [(0, 3)] base)) (weftIs fun w => !w.tm)
    ∧ goes (exec (.nmvcfg Pfx.plain (.s 0)) (withS [(0, 4)] base)) (weftIs fun w => w.tm && w.tinfo == 0x300)
    ∧ goes (exec (.nmv Pfx.plain .zero (.s 0)) (withS [(1, 0x40000000000), (2, 1 + 2 ^ 32 * 128), (3, 256)] base)) (fun t => t.cmds.length == 1)
    ∧ goes (exec (.nmv Pfx.plain .zero (.s 0)) base) (weftIs fun w => w.tm)
    ∧ meets base Pfx.plain (descUses (.s 0) 6 ++ [srcS .ds .zero]) .active (fun s w g => g.m != 0 && !s.matHeld w.core)
    ∧ meets empty Pfx.plain (descUses (.s 0) 4 ++ [srcS .ds (.s 5)]) .active none' := by decide +kernel
/-- QueuesAndLaunches: a queue that holds an entry and one that does not, q5 with and without places, a pushing role, a launch. -/
def queued : State := { base with teams := base.teams.map fun t => { t with q0 := [9], refill := 2, q5 := [5] } }
theorem witness_QueuesAndLaunches :
    goes (exec (.qtry Pfx.plain (.s 1) (.q 0) (.s 2)) queued) (fun t => sIs 1 9 t && sIs 2 1 t)
    ∧ goes (exec (.qtry Pfx.plain (.s 1) (.q 0) (.s 2)) base) (sIs 2 0)
    ∧ goes (exec (.qtry Pfx.plain (.v 1) (.q 5) (.s 2)) queued) (fun t => vIs 1 [(0, 5), (1, 0)] t && sIs 2 1 t)
    ∧ goes (exec (.qtry Pfx.plain (.s 1) (.q 4) (.s 2)) queued) (weftIs fun w => w.tm)
    ∧ goes (exec (.qcount Pfx.plain (.s 1) (.q 5)) queued) (sIs 1 1)
    ∧ goes (exec (.qputtry Pfx.plain (.s 1) (.q 6) (.s 2)) queued) (weftIs fun w => w.tm)
    ∧ goes (exec (.qputtry Pfx.plain (.s 1) (.q 5) (.v 2)) queued) (sIs 1 1)
    ∧ goes (exec (.qputtry Pfx.plain (.s 1) (.q 6) (.s 2)) (onWeft (fun w => { w with execRole := false }) base)) (sIs 1 1)
    ∧ meets base Pfx.plain [srcS .a (.s 0), dstS (.s 1)] .active (fun s w g => g.m != 0 && s.relReady w 5 && !s.launchFull w.ctx (w.core / 52))
    ∧ goes (exec (.lnchDep Pfx.plain (.s 1) (.s 0) (.s 2)) (withS [(2, 1)] base)) (fun t => t.accs.length == 1)
    ∧ goes (exec (.lnchDep Pfx.plain (.s 1) (.s 0) (.s 2)) (withS [(2, 2)] base)) (weftIs fun w => w.tm && w.tinfo == 0x300) := by decide +kernel
/-- The rest of a `lnch`: a launch record that has been read, one legal and one with a reserved bit. -/
def recordRead (x : Nat) : State :=
  { base with accs := [{ access0 (.launch (.s 1) none false) with
      id := 9, size := 64, settled := true, scalar := true
      lanes := [{ lane := 0, ea := 0x8000, data := x, swap := 0, st := .done }] }] }
def record0 : Nat := ofLeBytes (leBytes 8 0x10000 ++ leBytes 4 1 ++ leBytes 4 1 ++ leBytes 4 1 ++ leBytes 1 1 ++ leBytes 1 0 ++ leBytes 2 8 ++ leBytes 2 8)
theorem witness_LaunchRecords :
    ((recordRead 0).acc? 9).isSome ∧ (recordRead 0).recordOk 0 (LaunchRec.ofBytes (leBytes 64 0)) = false
    ∧ sIs 1 0 ((recordRead 0).finish 9) := by decide +kernel
/-- ItineraryInstructions: outside a task, in a task with posts left and without. -/
def task0 (posts : Nat) : Task :=
  { slot := 0, entry := 0, kind := 0, mb := 2, serial := 1, nout := 1, resBase := 0, posts := posts, usedA := false, usedG := false, freeAtEnd := false }
def inTask (posts : Nat) : State :=
  { base with launches := base.launches.map fun l => { l with itn := some 0, task := some 0 }
              itin := { base.itin with bound := some 0, tasks := [task0 posts], stash := [some 2, none] } }
theorem witness_ItineraryInstructions :
    goes (exec (.itnDone Pfx.plain) base) (weftIs fun w => w.tm)
    ∧ weftIs (fun w => (inTask 0).inTask w && (inTask 0).curTask w == some (task0 0) && (inTask 0).relReady w 5 && !w.itnDone) (inTask 0)
    ∧ weftIs (fun w => (inTask 1).curTask w == some (task0 1)) (inTask 1)
    ∧ goes (exec (.itnPost Pfx.plain (.s 1)) (inTask 1)) (weftIs fun w => w.tm)
    ∧ goes (exec (.itnPost Pfx.plain (.s 1)) (inTask 0)) (fun t => sIs 1 0 t && t.itin.tasks.all (fun k => k.posts == 1))
    ∧ goes (exec (.itnNext Pfx.plain (.s 1)) (onWeft (fun w => { w with itnAnswer := some 7 }) (inTask 0))) (sIs 1 7)
    ∧ (inTask 0).itin.stashOf 2 = some 0 ∧ (inTask 0).itin.stashOf 3 = none
    ∧ meets (inTask 0) Pfx.plain [srcS .a (.s 0), dstS (.s 1)] .active some' ∧ meets empty Pfx.plain [dstS (.s 1)] .active (fun s w _ => s.relReady w 5) := by
  decide +kernel
/-- VectorResultsFrameAndTraps: the register of a result found; a flag that is enabled; a lane past a bound beside one that is not. -/
theorem witness_VectorResultsFrameAndTraps :
    weftIs (fun w => (w.vregs[w.wb + 63]?).isSome && !w.tm && !w.narrow) base
    ∧ meets (onWeft (fun w => { w with fpmode := 0x100 }) fl) Pfx.plain [srcV .a (.v 2) 1, srcV .b (.v 3) 1, dstV (.v 5) 1] .sources
        (fun s w g => vec' s w g && !w.tm && w.fpmode == 0x100)
    ∧ meets (onWeft (fun w => { w with xregs := modAt w.xregs 2 fun _ =>
          { base := 40, bound := 8, step := 1, mode := 0, off := (List.range 64).map fun i => if i = 3 then 8 else 7 } }) base) Pfx.plain
        [srcV .a (.v 1) 1, dstV (.x 2) 1] .sources (fun s w g => g.m != 0 && g.bad == 8 && decide (0 ≤ (s.ration w.core).c)) := by decide +kernel
/-- LaunchStates: the weft's own launch, number 1, placing and not triggered, and a number that is not known. -/
theorem witness_LaunchStates :
    goes (exec (.lnchq Pfx.plain (.s 3) (.s 1)) (withS [(1, 1)] base)) (sIs 3 2)
    ∧ goes (exec (.lnchq Pfx.plain (.s 3) (.s 1)) (withS [(1, 2)] base)) (sIs 3 0)
    ∧ goes (exec (.lnchq Pfx.plain (.s 3) (.s 1)) { withS [(1, 1)] base with launches := base.launches.map fun l => { l with nextTeam := 0 } }) (sIs 3 1)
    ∧ goes (exec (.lnchq Pfx.plain (.s 3) (.s 1)) (onWeft (fun w => { w with triggered := true }) (withS [(1, 1)] base))) (sIs 3 3) := by decide +kernel
/-- NonCanonicalAddressesFault: each of bits 56 to 62 alone. -/
theorem witness_NonCanonicalAddressesFault :
    ((List.range 7).all fun k => nonCanonical (BitVec.ofNat 64 (2 ^ (56 + k)))) ∧ nonCanonical (BitVec.ofNat 64 (2 ^ 55)) = false
    ∧ nonCanonical (BitVec.ofNat 64 (2 ^ 63)) = false := by decide +kernel
/-- RationCounters: the first and the last cluster; CAP and the lower bound are reached and held. -/
theorem witness_RationCounters :
    (base.power.rations[0]?).isSome ∧ (base.power.rations[51]?).isSome ∧ base.power.rations[52]? = none
    ∧ goes (exec (.rationCycleEnd 51) { base with power := { base.power with rations := base.power.rations.map fun r => { r with c := 4096 * 256 } } })
        (fun t => t.power.rations.all fun r => r.c == 4096 * 256)
    ∧ goes (exec (.rationCycleEnd 0) { base with power := { base.power with rations := base.power.rations.map fun r => { r with debits := 2 ^ 30 } } })
        (fun t => (t.power.rations.getD 0 Ration.init).c == -(2 ^ 15 * 256)) := by decide +kernel

/-! ### Devices -/

/-- R92, R96: a control interval below every limit keeps step 0; a sensor at 110 degrees asks for step 7. -/
def quietT : Telemetry := { temps := List.replicate 52 60, imat := 0, ivec := 0, predicted := List.replicate 10 300, boostPower := 300 }
theorem test_control_interval :
    goes (exec (.controlInterval quietT) base) (fun t => t.power.step == 0 && t.power.pf == .idle)
    ∧ goes (exec (.controlInterval { quietT with temps := List.replicate 52 110 }) base) (fun t => decide (7 ≤ t.power.step) && t.power.trip)
    ∧ goes (exec (.controlInterval { quietT with temps := List.replicate 52 115 }) base) (fun t => t.power.pf == .stopping) := by decide +kernel
/-- The host link up. -/
def linked (s : State) : State := { s with host := { s.host with width := 16 } }
/-- The queue case of R113: QLOG 6, QWI = RI = 62; 65 is accepted, and then, with RI 62, 130 is RANGE (6). -/
def queue62 (qwi : W32) : State := (linked base).setQueue 0 1 { Queue.off with en := true, qlog := 6, qwi := qwi, ri := 62 }
theorem test_doorbell :
    goes (exec (.doorbell 0 1 65) (queue62 62)) (fun t => (t.queue 0 1).qwi == 65 && (t.queue 0 1).err == 0)
    ∧ goes (exec (.doorbell 0 1 130) (queue62 65)) (fun t => (t.queue 0 1).qwi == 65 && (t.queue 0 1).err == 6) := by decide +kernel
/-- The entries of the worked case of chapter 7. -/
theorem test_itinerary_entries :
    (let e : W64 × W64 := (0x0000000100000228, 0)
     entKind e = 0 ∧ entNua e = true ∧ entNdg e = false ∧ entStop e = 1 ∧ entMb e = 2 ∧ entKidx e = 0 ∧ entOut e = 1)
    ∧ (let e : W64 × W64 := (0x0000000100100051, 0)
       entKind e = 1 ∧ entNua e = false ∧ entNdg e = true ∧ entStop e = 2 ∧ entMb e = 0 ∧ entKidx e = 1 ∧ entOut e = 1)
    ∧ entKind (4, 0) = 4 := by decide +kernel
/-- R189: Inv(8) is 0xAD, and their product is 1. -/
theorem test_galois : gfMul 8 0xAD = 1 ∧ coef 8 0 0 = 0xAD := by decide +kernel

/-! ### Witnesses: the steps of the device -/

/-- The payload of a record from byte 0x18. -/
def pay (a b c d : Nat) : List Byte := leBytes 8 a ++ leBytes 8 b ++ leBytes 8 c ++ leBytes 8 d ++ leBytes 8 0
def cmd (op : Nat) (p : List Byte) : Cmd := { id := 5, op := op, flags := 0, tag := 0, sigaddr := 0, sigval := 0, pay := p, pend := [] }
/-- Queue 0 of context 0 with a command at its head; context 0 has ADMIN. -/
def headed (k : Cmd) (s : State) : State :=
  let x := s.ctx 0
  ((linked s).setCtx 0 { x with desc := { x.desc with admin := true } }).setQueue 0 0 { Queue.off with en := true, qlog := 6, qwi := 1, ri := 1, fetched := [k] }
/-- The parts of `State.Starts`, computed. -/
def starts (k : Cmd) (s : State) : Bool :=
  s.up && (s.ctx 0).st == .running && (s.queue 0 0).startable && (s.queue 0 0).fetched == [k] && !k.badField && (s.queue 0 0).running.isEmpty
def stop (code : BitVec 8) (t : State) : Bool := (t.queue 0 0).st == 3 && (t.queue 0 0).err == code
def gone (t : State) : Bool := (t.queue 0 0).running.isEmpty && (t.queue 0 0).fetched.isEmpty && (t.queue 0 0).err == 0
def atBoot (b : BootSt) : State := { State.reset with boot := { State.reset.boot with st := b } }

/-- BootAndHostLinkSteps: every boot state in its turn; the link up and down. -/
theorem witness_BootAndHostLinkSteps :
    goes (exec .bootStart (atBoot .off)) (fun t => t.boot.st == .rom) ∧ State.reset.boot.st = .rom ∧ State.reset.power.pf = .idle
    ∧ (atBoot .fwload).boot.chosen = none ∧ goes (exec .fwload (atBoot .fwload)) (fun t => t.boot.st == .fail && t.boot.cause == 5)
    ∧ (atBoot .meminit).boot.mounted = false
    ∧ goes (exec .ready { atBoot .meminit with boot := { (atBoot .meminit).boot with mounted := true } }) (fun t => t.boot.st == .ready || t.boot.readyPending)
    ∧ goes (exec (.pcieLinkTraining 16 3 false) { base with host := { base.host with perst := false } }) (fun t => t.host.width == 16)
    ∧ goes (exec (.configRequest (some 0x1FFFFFF)) { base with host := { base.host with width := 4 } }) (fun t => t.host.bar0 == 0x1000000)
    ∧ goes (exec .perstRelease { atBoot .meminit with boot := { (atBoot .meminit).boot with readyPending := true } }) (fun t => t.boot.st == .ready)
    ∧ goes (exec .perstRelease { atBoot .fail with boot := { (atBoot .fail).boot with readyPending := true } }) (fun t => t.boot.st == .fail) := by
  decide +kernel
/-- CapAndPowerControlSteps: READY and before it; PCAP0 and PCAP7; the last cluster; step 9; the trip limit and one degree below it. -/
theorem witness_CapAndPowerControlSteps :
    base.boot.st = .ready ∧ base.power.pf = .idle ∧ base.power.pcap.length = 8 ∧ State.reset.effCap = 400 ∧ base.effCap = 3200
    ∧ goes (exec (.capWrite 0x148 500) base) (fun t => t.power.pcap[7]? == some 500)
    ∧ goes (exec (.pstepAccept 7) base) (fun t => t.effCap == 800 && t.power.capFell)
    ∧ base.power.step ≤ 9 ∧ base.up
    ∧ goes (exec .stepLeave { base with power := { base.power with step := 9, below := 100 } }) (fun t => t.power.step == 8)
    ∧ goes (exec (.thermalTripRelease quietT) { base with power := { base.power with trip := true } }) (fun t => !t.power.trip)
    ∧ goes (exec (.droopDetect 51) base) (fun t => (t.power.rations.getD 51 Ration.init).c == -64 * 256) := by decide +kernel
/-- PowerFailSteps: every phase; a rail of each kind; hold-up energy at 24 and above. -/
def phase (p : PfPhase) : State := { base with power := { base.power with pf := p } }
theorem witness_PowerFailSteps :
    goes (exec .pfail base) (fun t => t.power.pf == .stopping) ∧ goes (exec .pfail State.reset) (fun t => t.power.pf == .halted)
    ∧ base.boot.persists = true ∧ State.reset.boot.persists = false
    ∧ ([1, 5].all fun r => goes (exec (.railFault r) base) (fun t => t.power.pf == .stopping)) ∧ goes (exec (.railFault 6) base) (fun t => t.power.pf == .halted)
    ∧ goes (exec (.railFault 1) State.reset) (fun t => t.boot.st == .fail && t.boot.cause == 1)
    ∧ goes (exec .hamperAcceptanceClose (phase .stopping)) (fun t => t.power.pf == .closed) ∧ goes (exec .hamperDrained (phase .closed)) (fun t => t.power.pf == .drained)
    ∧ goes (exec .sealRecordWrite (phase .drained)) (fun t => t.power.pf == .sealed)
    ∧ (let s := phase .sealed
       goes (exec .level2Save { s with power := { s.power with holdup := 24 } }) (fun t => t.power.pf == .halted)
       ∧ goes (exec .level2Save { s with power := { s.power with holdup := 25 } }) (fun t => t.power.pf == .level2))
    ∧ (phase .level2).l2Next = some 0 ∧ { phase .level2 with ctxs := State.reset.ctxs }.l2Next = none := by decide +kernel
/-- HostRegistersAndQuotes: the link up, a mailbox that is ready with a nonce of 32 bytes, one of 31, a quote in progress. -/
def nonce (n : Nat) : State :=
  { base with host := { base.host with width := 16, mb := { base.host.mb with data := Memory.set base.host.mb.data 0 (BitVec.ofNat 8 n) } } }
theorem witness_HostRegistersAndQuotes :
    goes (exec .quoteGo (nonce 32)) (fun t => t.host.mb.busy && t.host.quote == some 0) ∧ goes (exec .quoteGo (nonce 64)) (fun t => t.host.mb.busy)
    ∧ goes (exec .quoteGo (nonce 31)) (fun t => t.host.mb.err) ∧ goes (exec .quoteGo (nonce 65)) (fun t => t.host.mb.err)
    ∧ goes (exec .imbQuoteGo base) (fun t => t.host.imb.err) ∧ base.up
    ∧ ({ base with host := { base.host with quote := some 1 } }).host.quote = some 1
    ∧ goes (exec (.registerWrite .host (0x10000 + 32 * 63) 8 0x80) (nonce 32)) (fun t => (t.ctx 63).base == 0x80)
    ∧ goes (exec (.registerWrite .host 0x300000 8 0) (nonce 32)) (fun t => t.host.out == [.unsupported 0x300000])
    ∧ goes (exec (.pkgidWrite 5) base) (fun t => t.fab.pkgid == 5)
    ∧ (let s := { base with host := { base.host with ibiOn := true, alertst := 1, alerten := 0 } }
       s.host.alertst &&& s.host.alerten = 0 ∧ s.host.alertst &&& 1 ≠ 0) := by decide +kernel
/-- CommandQueuesAndCommands: a live and a free context, a stopped queue, a record to fetch, a command of each kind that starts, a
`WAITV` that holds and one that does not, a field out of range. -/
theorem witness_CommandQueuesAndCommands :
    (queue62 62).up ∧ ((queue62 62).ctx 0).live ∧ (State.reset.ctx 0).live = false ∧ ((queue62 62).queue 0 1).en
    ∧ goes (exec (.doorbell 63 63 1) base) (fun t => (t.queue 63 63).err == 8)
    ∧ goes (exec (.errClear 0 1 0xFF) (base.setQueue 0 1 { Queue.off with en := true, st := 3, err := 2 })) (fun t => (t.queue 0 1).err == 0 && (t.queue 0 1).st != 3)
    ∧ (queue62 63).canFetch 0 1 ∧ goes (exec (.recordFetch 0 1) (queue62 63)) (fun t => (t.queue 0 1).ri == 63 && (t.queue 0 1).err == 1)
    ∧ (let k := cmd 1 (pay 0x8000 0 0 0)
       starts k (headed k base) ∧ goes (exec (.launch 0 0) (headed k base)) (stop 2))
    ∧ (let k := cmd 2 (pay 0 0x20000 64 1)
       starts k (headed k base) ∧ goes (exec (.copy 0 0) (headed k base)) (fun t => t.cmds.length == 1))
    ∧ (let k := cmd 3 (pay 0 0 0 0)
       starts k (headed k base) ∧ goes (exec (.signal 0 0) (headed k base)) gone)
    ∧ (let k := cmd 4 (pay 0x20000 1 0 0)
       starts k (headed k base) ∧ goes (exec (.waitv 0 0) (headed k base)) (fun t => (t.queue 0 0).running.length == 1))
    ∧ (let k := cmd 4 (pay 0x20000 0 1 0)
       starts k (headed k base) ∧ goes (exec (.waitv 0 0) (headed k base)) gone)
    ∧ (let k := cmd 5 (pay 0 4096 0 0)
       starts k (headed k base) ∧ ((headed k base).begun 0 0 k []).rangeUsers 0 k = [] ∧ goes (exec (.map 0 0) (headed k base)) gone)
    ∧ (let k := cmd 6 (pay 0 4096 1 0)
       starts k (headed k base) ∧ goes (exec (.unmap 0 0) (headed k base)) gone)
    ∧ (let k := cmd 8 (pay 0x8000 0 0 0)
       starts k (headed k base) ∧ goes (exec (.phase 0 0) (headed k base)) gone)
    ∧ (let k := cmd 12 (pay 1 0 0 0)
       starts k (headed k base) ∧ goes (exec (.resume 0 0) (headed k base)) gone)
    ∧ (let k := cmd 12 (pay 2 0 0 0)
       k.badField ∧ goes (exec (.resume 0 0) (headed k base)) (stop 2)) := by decide +kernel
/-- ContextCommandsAndSteps: context 1 free and running, a descriptor that is good and one that is not, a save that may go, a teardown
that may end, a weft past its deadline. -/
def goodDesc (s : State) : State :=
  let x := s.ctx 1
  let s1 := s.writeBytes (hostKey 0x10000) (zeros 0x28 ++ leBytes 8 0x20000 ++ zeros 8 ++ leBytes 1 6)
  s1.setCtx 1 { x with base := 0x10000 }
theorem witness_ContextCommandsAndSteps :
    (let k := cmd 7 (pay (2 ^ 32) 0 0 0)
     starts k (headed k base) ∧ (base.ctx 1).st = .free ∧ goes (exec (.ctxCreate 0 0) (headed k base)) (stop 5)
     ∧ ((goodDesc (linked base)).readDesc 1).isRight ∧ goes (exec (.ctxCreate 0 0) (headed k (goodDesc base))) (fun t => gone t && (t.ctx 1).st == .running))
    ∧ (let k := cmd 7 (pay (2 ^ 32 * 63 + 1) 0 0 0)
       starts k (headed k base) ∧ goes (exec (.ctxDestroy 0 0) (headed k base)) (stop 8))
    ∧ (let k := cmd 7 (pay 2 0 0 0)
       starts k (headed k base) ∧ goes (exec (.ctxPreempt 0 0) (headed k base)) (fun t => (t.ctx 0).st == .preempting))
    ∧ (let k := cmd 7 (pay 3 0 0 0)
       starts k (headed k base) ∧ goes (exec (.ctxResume 0 0) (headed k base)) (stop 9))
    ∧ goes (exec .context0Create base) (fun t => t == base)
    ∧ (let s := base.setCtx 0 { base.ctx 0 with st := .preempting }
       (onWeft (fun w => { w with preempt := true }) s).up ∧ ((onWeft (fun w => { w with preempt := true }) s).stopWefts 0).canSave 0)
    ∧ (let s := { base.setCtx 0 { base.ctx 0 with st := .tearing } with wefts := [], teams := [], launches := [] }
       s.ctxQuiet 0 ∧ goes (exec (.teardownComplete 0) s) (fun t => (t.ctx 0).st == .free))
    ∧ goes (exec (.preemptAutoResume 0) base) (fun t => t == base) := by decide +kernel
/-- PlacementSteps: a launch of one team that fits core 0, and none; a team whose weft has exited. -/
def waitingLaunch : State := { base with wefts := [], teams := [], launches := [{ armLaunch with nextTeam := 0 }], allocs := [] }
theorem witness_PlacementSteps :
    (waitingLaunch.nextPlacement 0).map Prod.snd = some 0 ∧ goes (exec (.teamPlace 0) waitingLaunch) (fun t => t.teams.length == 1 && t.wefts.length == 1)
    ∧ (base.nextPlacement 3).isNone ∧ (waitingLaunch.nextPlacement 3).isSome
    ∧ (let s := { base with launches := [{ armLaunch with placed := 1 }], wefts := base.wefts.map fun w => { w with exited := true } }
       (s.teams.all s.teamDone) ∧ goes (exec (.teamRetire 0) s) (fun t => t.teams.isEmpty && t.launches.isEmpty)) := by decide +kernel
/-- ItineraryCommandsAndSteps: a table in the way, one that is bad, one loaded and stopped; entries due; the ends of a step. -/
def loaded (entries : List (W64 × W64)) : State :=
  { base with itin := { base.itin with bound := some 0, loaded := true, header := zeros 1024, entries := entries } }
def running (entries : List (W64 × W64)) : State :=
  { loaded entries with itin := { (loaded entries).itin with st := 1, stash := [none] } }
theorem witness_ItineraryCommandsAndSteps :
    (let k := cmd 9 (pay 0 0x20000 1 0)
     starts k (headed k base) ∧ goes (exec (.stepLoad 0 0) (headed k base)) (fun t => stop 2 t && t.itin.st == 3 && t.itin.err == 5 && t.itin.errEntry == 0xFFFF))
    ∧ (let k := cmd 9 (pay 0 0x20001 1 0)
       starts k (headed k base) ∧ goes (exec (.stepLoad 0 0) (headed k base)) (fun t => stop 2 t && t.itin.st == 0))
    ∧ (let k := cmd 9 (pay 1 0 (7 * 2 ^ 32) 0)
       starts k (headed k base) ∧ goes (exec (.stepStart 0 0) (headed k base)) (stop 2)
       ∧ goes (exec (.stepStart 0 0) (headed k (loaded [(4, 0)]))) (fun t => gone t && t.itin.st == 1 && t.stepCtr == 7))
    ∧ (let k := cmd 9 (pay 2 0 0 0)
       starts k (headed k base) ∧ goes (exec (.stepStop 0 0) (headed k base)) gone)
    ∧ (running [(4, 0)]).dispatching ∧ goes (exec .stepend (running [(4, 0)])) (fun t => t.itin.stepSent)
    ∧ (let s := { running [(4, 0)] with itin := { (running [(4, 0)]).itin with stepSent := true, acks := [0, 1, 2] } }
       s.itinRuns ∧ s.mayAck 3 s.stepCtr.toNat ∧ goes (exec (.stependAck 3) s) (fun t => t.stepCtr == s.stepCtr + 1))
    ∧ (running [(3, 0)]).itin.hasUp = false ∧ entKind (running [(3, 0)]).itin.headEntry = 3
    ∧ goes (exec .stallReport (running [(0, 0)])) (fun t => t.itin.stalled) := by decide +kernel
/-- SnapshotSteps: a region that is legal and one of no bytes; a step that may commit. -/
theorem witness_SnapshotSteps :
    (let k := cmd 10 (pay 0 (2 ^ 55) 0 0x20000)
     starts k (headed k base) ∧ (headed k base).regionOk 0 0 (2 ^ 55) 0 = false ∧ goes (exec (.snapDefineRegion 0 0) (headed k base)) (stop 2))
    ∧ base.regionOk 0 0 (2 ^ 55) 4096 ∧ hbmAligned 0x20000 64
    ∧ (let k := cmd 10 (pay (1 + 2 ^ 32 * 63) 0 0 0)
       starts k (headed k base) ∧ goes (exec (.snapReleaseRegion 0 0) (headed k base)) (stop 2))
    ∧ (let k := cmd 10 (pay 2 0 0 1)
       starts k (headed k base) ∧ goes (exec (.snapAwaitStep 0 0) (headed k base)) (fun t => t.snap.awaits.length == 1))
    ∧ (let k := cmd 10 (pay 2 0 0 0)
       starts k (headed k base) ∧ goes (exec (.snapAwaitStep 0 0) (headed k base)) gone)
    ∧ goes (exec .stepCommit { base with snap := { base.snap with acked := 3 } }) (fun t => t.snap.c == 3 && t.snap.m == 3) := by decide +kernel
/-- MendSteps: a group of two members, this package 0 among them; a spare; a lost member. -/
def group0 : Group :=
  { k := 1, m := 1, members := [0, 1], parva := 0x20000, preg := 0, hbmiss := 10, hbp := 100, ushard := 0, landva := 0, landlen := 0, mstat := 0x4000
    spares := [2], spare := false, me := 0 }
def member (st : Nat) : State :=
  { snap0.setCtx 0 { snap0.ctx 0 with desc := { (snap0.ctx 0).desc with fjob := 7 } } with
    fab := { snap0.fab with up := 1, peers := [(1, { v := true, sport := 0, st := 0, planes := 1 })] }
    snap := { snap0.snap with group := some group0, st := st } }
theorem witness_MendSteps :
    (let k := cmd 11 (pay 0 0x20080 0 0)
     starts k (headed k base) ∧ goes (exec (.mendDeclareGroup 0 0) (headed k base)) (stop 2))
    ∧ (let k := cmd 11 (pay 1 0 511 0)
       starts k (headed k base) ∧ goes (exec (.mendRebuild 0 0 511 false) (headed k base)) (stop 2))
    ∧ (let k := cmd 11 (pay 1 0 (2 ^ 64 - 1) 0)
       starts k (headed k base) ∧ goes (exec (.mendGroupRollback 0 0) (headed k base)) (stop 2))
    ∧ (member 2).up ∧ (member 2).snapCtx = some 0 ∧ group0.has 0 ∧ group0.has 1 ∧ group0.has 2 = false
    ∧ goes (exec .heartbeatSend (member 2)) (fun t => t.fab.packets.any fun k => k.peer == 1 && k.use == .heartbeat && k.tier == 0)
    ∧ goes (exec (.memberLoss 1) (member 2)) (fun t => t.snap.lost == [1] && t.snap.st == 3)
    ∧ goes (exec .backfillComplete (member 5)) (fun t => t.snap.st == 2) := by decide +kernel
/-- FabricRequestsAndAnswers and FabricEvents: a job that is bound and one that is not, a fenced peer, a packet in flight, a plane up and
down, a weft with an event. -/
def bound : State :=
  let s := base.setCtx 0 { base.ctx 0 with desc := { (base.ctx 0).desc with fjob := 7 } }
  { s with fab := { s.fab with pkgid := 3, up := 1, trained := true } }
def req (job : BitVec 16) : FabReq :=
  { src := 4, seq := 1, fjob := job, addr := 0x20000, op := .read, bytes := [], ops := [], sport := 4, gm := 0xFF, tier := 0, plane := 0 }
/-- Peer 4 lost, and fenced by the mending sequence. -/
def fencing (peer : Nat) : State :=
  { bound with fab := { bound.fab with peers := [(peer, { v := true, sport := 0, st := 1, planes := 0 })] }
               snap := { bound.snap with lost := [peer], regions := [region0] } }
/-- Request 1 of peer 4 is answered, on its plane and in its tier. -/
def answered4 (x : FabResult) (t : State) : Bool :=
  t.fab.resps.any fun z => z.peer == 4 && z.seq == 1 && z.plane == 0 && z.tier == 0 && z.res == x
theorem witness_FabricRequestsAndAnswers :
    bound.serving ∧ bound.jobCtx 7 = some 0 ∧ bound.jobCtx 8 = none
    ∧ goes (exec (.fabricRequest (req 8)) bound) (answered4 .noBind)
    ∧ goes (exec (.fabricRequest (req 7)) bound) (answered4 (.ok (zeros 128)))
    ∧ goes (exec (.fabricRequest { req 7 with src := 3 }) bound) (fun t => t.agenda == [.fabricResponse 1 (.ok (zeros 128))])
    ∧ goes (exec (.fabricRequest (req 7)) (fencing 4)) (answered4 .fenced) ∧ (fencing 4).serving
    ∧ goes (exec (.fabricRequest { req 8 with op := .heartbeat }) (fencing 4)) (answered4 .noBind)
    ∧ goes (exec (.fabricRequest { req 7 with op := .heartbeat }) (fencing 4)) (answered4 .fenced)
    ∧ goes (exec (.fabricRequest { req 7 with op := .heartbeat }) bound) (answered4 (.ok []))
    ∧ goes (exec (.fabricRequest { req 7 with op := .atomic 1 false, ops := [(0, 1, 0)] }) bound) (answered4 (.ok []))
    ∧ goes (exec (.fabricRequest (req 7)) { bound with fab := { bound.fab with dup := [(4, 1, .noBind)] } }) (answered4 .noBind)
    ∧ goes (exec (.fabricResponse 9 .timeout) bound) (fun t => t == bound) := by decide +kernel
theorem witness_FabricEvents :
    goes (exec (.planeSilenceTimeout 0) bound) (fun t => !t.fab.up.getLsbD 0 && t.host.alertst.getLsbD 8)
    ∧ goes (exec (.switchPortFailed 35) bound) (fun t => t == bound)
    ∧ goes (exec (.switchReachabilityReport 511 1) bound) (fun t => (t.fab.peers.lookup 511).isSome)
    ∧ (bound.fab.starve[0]?).isSome
    ∧ (let s := onWeft (fun w => { w with events := [.fabric 1] }) bound
       weftIs s.eventFree s ∧ goes (exec (.fabricEvent 0 0) s) (trapped 0x15 0)) := by decide +kernel
/-- AccessAnswersAndChannelSteps: one lane that waits, on a page that is mapped and on one that is not. -/
def waitingLoad (va : W64) : State :=
  let s := withEm 1 (withS [(2, va)] base)
  after (exec (.nop Pfx.plain) s) s
theorem witness_AccessAnswersAndChannelSteps :
    ((access0 .load).lanes.all fun l => l.st == .waiting && decide (l.lane < 64) && !isFabric l.ea)
    ∧ (let s := onWeft (fun w => { w with cnt := modAt w.cnt 0 fun _ => [{ op := 9, done := false }], unsettled := some 9 })
          { base with accs := [{ access0 .load with id := 9, cnt := some 0 }] }
       (s.acc? 9).isSome ∧ goes (exec (.accessAnswer 9 (chanOf 0x20000) true) s) (fun t => t.accs.isEmpty && vIs 1 [(63, 0)] t))
    ∧ (match base.translate 0 0x20000 .read 0 with | (.ok _ _, _) => true | _ => false) = true
    ∧ (match base.translate 0 0x40000000 .read 0 with | (.notPres _, _) => true | (.page, _) => true | _ => false) = true
    ∧ goes (exec (.sleepExpiry 0 0) (onWeft (fun w => { w with sleep := 9 }) base)) (weftIs fun w => w.sleep == 0)
    ∧ goes (exec (.hbmRefresh 0 0 true) base) (fun t => t.owed 0 0 == 1) ∧ base.scrub.length = 96
    ∧ goes (exec (.patrolScrub 95) base) (fun t => (t.scrub[95]?).any fun x => x.pos == 1) := by decide +kernel
/-- SoftErrors: the last registers, a weft in a handler and one outside. -/
theorem witness_SoftErrors :
    goes (exec (.softError (.sreg 0 0 31)) base) (weftIs fun w => (w.sreg 31).pois) ∧ goes (exec (.softError (.vreg 0 0 63)) base) (weftIs fun w => (w.vreg 63).pois)
    ∧ goes (exec (.softError (.control 0 0)) base) (fun t => (t.ctx 0).lasterr == 0x92) ∧ goes (exec (.softError (.inflight 0 0)) base) (trapped 0x12 0)
    ∧ goes (exec (.softError (.inflight 0 0)) (onWeft (fun w => { w with tm := true }) base)) (fun t => (t.ctx 0).lasterr == 0x97) := by decide +kernel
/-- ShuttleSteps: the fill of the engine witnesses from acceptance to its token. -/
noncomputable def filling : State := after (exec (.shfill Pfx.plain (.s 6) (.s 0)) (fillRegs 1 base)) base
noncomputable def started : State := filling.cmds.foldl (fun t c => after (exec (.shuttleStart c.id) t) t) filling
noncomputable def filled : State := started.cmds.foldl (fun t c => after (exec (.sectorPerformed c.id 0) t) t) started
theorem witness_ShuttleSteps :
    (filling.cmds.all fun c => !c.started && c.coll.isNone && !filling.engineWaits c && !c.useSkip && c.op == 4)
    ∧ (started.cmds.all fun c => c.started && c.mayRun 0 && c.dsp && (c.knotAt started).isNone && !started.t2Held c && !c.writing)
    ∧ filled.byte (coreKey 0 0x40) = 0x11 ∧ (filled.cmds.all fun c => c.work ≤ c.sectors.length)
    ∧ (let t := filled.cmds.foldl (fun t c => after (exec (.shuttleComplete c.id) t) t) filled
       t.cmds = [] ∧ (t.teams.all fun m => m.q0 == [7]) ∧ weftIs (fun w => w.count 2 == 0) t) := by decide +kernel
/-- MatrixAndNearMemorySteps: a command with a step left and one with none. -/
def matCmd (rem : Nat) : MatCmd :=
  { id := 3, op := 1, rem := rem, total := 1, abase := 0, bbase := 0, cbase := 0, ainc := 0, binc := 0, obase := 0, ofmt := 0, scale := 0, sat := false
    rm := 0, tok := some 9, slot := 0, status := 0 }
def matTeam (rem : Nat) : State := { bigTeam with teams := bigTeam.teams.map fun t => { t with mcmds := [matCmd rem] } }
theorem witness_MatrixAndNearMemorySteps :
    ((matTeam 1).teams.all fun t => !(matTeam 1).matWaits t (matCmd 1) && (matTeam 1).runs t.ctx && !(matTeam 1).matHeld t.core) ∧ (matTeam 1).pois = []
    ∧ goes (exec (.matrixComplete 0) (matTeam 0)) (fun t => t.teams.all fun m => m.q1 == [9] && m.mcmds.isEmpty)
    ∧ (let s := withS [(1, 0x40000000000), (2, 1 + 2 ^ 32 * 128), (3, 256)] base
       goes (exec (.nmv Pfx.plain .zero (.s 0)) s) fun t => t.cmds.all fun c => !t.engineWaits c && c.nRows == 1) := by decide +kernel
/-- DebugPort: attached and not; a weft halted and not; the last registers. -/
def attached : State := { onWeft (fun w => { w with halted := true }) base with debug := some 0 }
theorem witness_DebugPort :
    goes (exec (.attach 63) base) (fun t => t.debug == some 63) ∧ (attached.halted? (.logical 0) 0).isSome ∧ (base.halted? (.logical 0) 0) = none
    ∧ goes (exec (.debugWrite (.logical 0) 0 (.s 31) 5) attached) (sIs 31 5) ∧ goes (exec (.debugWrite (.logical 0) 0 (.pv 63 63) 5) attached) (vIs 63 [(63, 5), (62, 0)])
    ∧ goes (exec .detach attached) (weftIs fun w => !w.halted) := by decide +kernel
/-- BirthRecordContents and FailIsLeftOnlyByPowerLoss: the boot states they speak of; MemoryStaysCanonical: reset and a placed program. -/
theorem witness_BirthRecordContents : (atBoot .brchk).boot.st = .brchk ∧ (atBoot .brchk).power.pf = .idle := by decide +kernel
theorem witness_FailIsLeftOnlyByPowerLoss :
    (atBoot .fail).boot.st = .fail ∧ goes (exec .vauxLoss (atBoot .fail)) (fun t => t.boot.st == .off)
    ∧ goes (exec (.railFault 0) (atBoot .fail)) (fun t => t.boot.st == .off) ∧ goes (exec (.railFault 6) (atBoot .fail)) (fun t => t.boot.st == .fail) := by
  decide +kernel
theorem witness_MemoryStaysCanonical :
    Memory.wf base.mem = true ∧ (match step base with | .next t => Memory.wf t.mem | _ => false) = true := by decide +kernel
theorem witness_StateAfterReset : Memory.wf State.reset.mem = true ∧ State.reset.boot.st = .rom := by decide +kernel

/-! ### Witnesses: clauses beside the ones above -/

/-- StepRunsTheDecodedInstruction: both vector pipes held; the scalar pipe taken in this cycle by a weft beside. -/
theorem witness_StepRunsWithPipesTaken :
    weftIs (fun w => { base with vbusy := [(0, 0, 9), (0, 0, 9)] }.pipesHeld w (some .vector)) base
    ∧ weftIs (fun w => !base.pipesHeld w (some .scalar) && base.roomToIssue w (some .scalar)
        && !{ base with wefts := w :: [{ w with slot := 1, looked := some (.issued (some .scalar)) }] }.roomToIssue w (some .scalar)) base := by
  decide +kernel
/-- PerformedLanesAndAtomics: a store of step 5 at a snapshot page whose unit has a frame of step 5, one of step 6 with a free frame, and
one with none left. -/
def unit0 : SnapUnit := { region := 0, va := 0, chan := 0, home := 4096, frames := [{ key := 4096, tag := 5, taken := [] }], landing := none }
def paged (free : List (Nat × Nat)) : State :=
  { base with snap := { base.snap with regions := [{ region0 with free := free, given := free }], units := [unit0] } }
theorem witness_PerformedLanesOfSnapshotPages :
    Memory.wf (paged []).mem = true ∧ (paged []).snap.st ≠ 1 ∧ ((paged []).openUnit 0 5).isSome ∧ ((paged []).openUnit 0 6).isNone
    ∧ (match (paged [(0, 8192)]).openUnit 0 6 with
      | some t => Memory.wf t.mem && ((t.unitAt 0).any fun u => u.frames.map (·.key) == [4096, 8192])
      | none => false) = true := by decide +kernel
/-- CommandQueuesAndCommands: an access that used a translation of a MAP's range; a MAP that has waited; a COPY that has ended; a WAITV
that is running; a FAULT. -/
def using0 : State := { base with accs := [{ access0 .load with lanes := [{ lane := 0, ea := 0, data := 0, swap := 0, st := .ready 0x500 }] }] }
def runningOne (k : Cmd) (s : State) : State := (linked s).setQueue 0 0 { Queue.off with en := true, qlog := 6, qwi := 1, ri := 1, running := [k] }
theorem witness_CommandsThatWait :
    (let k := cmd 5 (pay 0 4096 0 0)
     starts k (headed k using0) ∧ ((headed k using0).begun 0 0 k []).rangeUsers 0 k = [0]
     ∧ goes (exec (.map 0 0) (headed k using0)) (fun t => (t.queue 0 0).running.map (·.pend) == [[0]])
     ∧ goes (exec (.map 0 0) (runningOne { k with pend := [0] } base)) gone ∧ (runningOne k base).mapDone { k with pend := [0] })
    ∧ (let k := cmd 4 (pay 0x20000 1 0 0)
       goes (exec (.waitvRetest 0 0) (runningOne k base)) (fun t => (t.queue 0 0).running == [k]))
    ∧ (let k := cmd 4 (pay 0x40000000 1 0 0)
       (base.vaWord 0 0x40000000).isNone ∧ goes (exec (.waitvRetest 0 0) (runningOne k base)) (stop 3))
    ∧ (let k := cmd 3 (pay 0 0 0 0)
       let j := { k with sigaddr := 0x8000 }
       starts j (headed j base) ∧ (headed j base).hostOk 0x8000 8 ∧ goes (exec (.signal 0 0) (headed j base)) gone) := by decide +kernel
/-- HostRegistersAndQuotes: the reads of the host window; a board write of two registers, which lets ALERT_N rise. -/
theorem witness_HostReadsAndBoardWrites :
    (State.reset.hostLoad 0 8).isSome ∧ State.reset.hostLoad 8 8 = none ∧ (base.hostLoad (0x1000 + 8 * 511) 8).isSome ∧ base.hostLoad 4 8 = none
    ∧ (let s := { base with host := { base.host with alertst := 5, alerten := 5 } }
       s.alertN = false ∧ goes (exec (.registerWrite .i3c 8 16 (2 * 2 ^ 64 + 4)) s)
          (fun t => t.alertN && t.host.alertst == 1 && t.host.alerten == 2)) := by decide +kernel
/-- ContextCommandsAndSteps: no ADMIN; a descriptor outside host memory; a context that is pre-empted and may come back. -/
theorem witness_ContextCommandsThatFail :
    (let k := cmd 7 (pay (2 ^ 32) 0 0 0)
     let s := headed k base
     (base.ctx 0).desc.admin = false ∧ starts k (s.setCtx 0 { s.ctx 0 with desc := (base.ctx 0).desc })
     ∧ goes (exec (.ctxCreate 0 0) (s.setCtx 0 { s.ctx 0 with desc := (base.ctx 0).desc })) (stop 4)
     ∧ (match (s.setCtx 1 { s.ctx 1 with base := 2 ^ 63 }).readDesc 1 with | .inl e => e == 3 || e == 5 | .inr _ => false) = true
     ∧ base.holds.isEmpty)
    ∧ (let s := base.setCtx 0 { base.ctx 0 with st := .preempted, reason := .slice
                                                saved := some { wefts := [], teams := [], accs := [], allocs := [], spad := [], pois := [], cmds := [], recs := [] } }
       goes (exec (.preemptAutoResume 0) { s with wefts := [], teams := [], launches := [] }) (fun t => (t.ctx 0).st == .running)) := by decide +kernel
/-- MendSteps: a committed step to encode, encoded with a delta on its way and without; DONE of the other member and of all; heartbeats; a
loss while declaring; a sequence in progress on a survivor. -/
def ahead (f : Snap → Snap) : State := { member 2 with snap := f { (member 2).snap with c := 4, m := 3, acked := 4 } }
def packet0 (u : PktUse) : Packet :=
  { pid := 9, core := 0, ctx := 0, fjob := 7, peer := 1, sport := 0, line := 0, gm := 0xFF, tier := 0, plane := 0, op := .read, bytes := [], ops := []
    accs := [], lanes := [], use := u, sent := true, resent := false }
def flying (u : PktUse) (s : State) : State := { s with fab := { s.fab with packets := [packet0 u] } }
theorem witness_MendEncoding :
    goes (exec .encodeStep (ahead id)) (fun t => t.snap.encoded.contains 4)
    ∧ (let s := ahead fun p => { p with encoded := [4] }
       goes (exec .encodeStep (flying (.delta 4) s)) (fun t => t == flying (.delta 4) s)
       ∧ goes (exec .encodeStep s) (fun t => t.snap.dones.contains (0, 4)))
    ∧ goes (exec (.doneMessage 1 4 7) (ahead fun p => { p with dones := [(0, 4)] })) (fun t => t.snap.m == 4)
    ∧ goes (exec (.doneMessage 1 4 7) (ahead id)) (fun t => t.snap.m == 3 && t.snap.dones == [(1, 4)])
    ∧ goes (exec (.doneMessage 1 0 7) { member 1 with snap := { (member 1).snap with dones := [(0, 0)] } }) (fun t => t.snap.st == 2)
    ∧ goes (exec .heartbeatSend (ahead fun p => { p with missed := [(1, 9)] })) (fun t => t.agenda.contains (.memberLoss 1))
    ∧ goes (exec (.memberLoss 1) (member 1)) (fun t => t.snap.st == 6)
    ∧ (let s := { member 4 with snap := { (member 4).snap with mender := some (0, 0, 5), failed := 1, lost := [1] } }
       s.rebuilt group0 ∧ goes (exec (.mendRebuild 0 0 1 true) s) (fun t => t.snap.lost == [] && t.snap.st == 2)
       ∧ (flying .rebuild s).rebuilt group0 = false) := by decide +kernel
theorem witness_MendSequences :
    (let k := cmd 11 (pay 1 0 1 0)
     let s := headed k { member 3 with snap := { (member 3).snap with lost := [1] } }
     starts k s ∧ s.spareUp group0 = none ∧ goes (exec (.mendRebuild 0 0 1 false) s) (stop 2)
     ∧ (let t := { s with fab := { s.fab with peers := [(2, { v := true, sport := 6, st := 0, planes := 1 })] } }
        (t.spareUp group0).isSome ∧ goes (exec (.mendRebuild 0 0 1 false) t) (fun u => u.snap.st == 4 && u.snap.failed == 1 && (u.peer 1).sport == 6))
     ∧ (let t := { s with snap := { s.snap with group := some { group0 with spare := true }, st := 0, lost := [] } }
        goes (exec (.mendRebuild 0 0 1 false) t) (fun u => u.snap.st == 4 && u.fab.pkgid == 1)))
    ∧ (let k := cmd 11 (pay 1 0 (2 ^ 64 - 1) 0)
       starts k (headed k (member 2)) ∧ (headed k (member 2)).isMember ∧ goes (exec (.mendGroupRollback 0 0) (headed k (member 2))) gone) := by decide +kernel
/-- FabricRequestsAndAnswers: a write; a packet of each use on its way; buffered lines at age 1,023 and 1,024. -/
def line0 (age : Nat) : CombEntry := { core := 0, ctx := 0, peer := 4, line := 9, nt := false, bytes := [(0, 1, 0)], accs := [], age := age }
theorem witness_FabricWritesAndPackets :
    goes (exec (.fabricRequest { req 7 with op := .write, bytes := [(0, 5), (127, 6)] }) bound) (fun t => answered4 (.ok []) t
      && (match bound.translate 0 (req 7).va .write 0 with | (.ok k _, _) => t.byte k == 5 && t.byte (k + 127) == 6 | _ => false))
    ∧ goes (exec (.fabricResponse 9 (.ok [])) (flying (.delta 4) (ahead id))) (fun t => t.fab.packets.isEmpty && t.agenda == [.encodeStep])
    ∧ goes (exec (.fabricResponse 9 .noBind) (flying (.delta 4) (ahead id))) (fun t => t.fab.packets.all fun k => !k.sent && k.pid == 9)
    ∧ goes (exec (.fabricResponse 9 .noBind) (flying (.itin none) { base with itin := { base.itin with st := 1 } })) (fun t => t.itin.st == 3 && t.itin.err == 4)
    ∧ (let s := { bound with accs := [{ access0 .load with lanes := [{ lane := 0, ea := 0x8000000000000000, data := 0, swap := 0, st := .sent 9 }] }] }
       let t := { s with fab := { s.fab with packets := [{ packet0 .access with accs := [0], lanes := [0] }] } }
       goes (exec (.fabricResponse 9 (.ok (zeros 128))) t) (fun u => u.fab.packets.isEmpty))
    ∧ (let s := fun age => { bound with fab := { bound.fab with comb := [line0 age], peers := [(4, { v := true, sport := 6, st := 0, planes := 1 })] } }
       goes (exec (.combineIdleFlush 0 0) (s 1023)) (fun t => t == s 1023) ∧ (s 1024).fabErr 0 4 9 = none
       ∧ goes (exec (.combineIdleFlush 0 0) (s 1024)) (fun t => t.fab.comb.isEmpty && t.fab.packets.map (·.sport) == [6]))
    ∧ (let s := { bound with fab := { bound.fab with comb := [line0 1024] } }
       (s.fabErr 0 4 9).isSome ∧ goes (exec (.combineIdleFlush 0 0) s) (fun t => t.fab.comb.isEmpty && t.fab.packets.isEmpty)) := by decide +kernel
/-- FabricEvents: a link that comes back; a port with an answer and a request; forced slots at 64 and 256 flits. -/
def portWith (a b : Nat) : State :=
  { bound with fab := { bound.fab with
      packets := [{ packet0 .access with sent := false, tier := 1 }, { packet0 .access with sent := false, tier := 2 }]
      resps := [{ plane := 0, tier := 0, peer := 4, seq := 1, flits := 1, res := .ok [] }], starve := (a, b) :: bound.fab.starve.drop 1 } }
theorem witness_FabricPorts :
    goes (exec (.fabricLinkTrained 1 9) { bound with fab := { bound.fab with fell := 2 } })
      (fun t => t.fab.sport == 9 && t.fab.up.getLsbD 1 && t.host.alertst.getLsbD 8)
    ∧ goes (exec (.fabricLinkTrained 1 9) bound) (fun t => t.fab.up.getLsbD 1 && !t.host.alertst.getLsbD 8)
    ∧ (portWith 0 0).forced 0 1 = false ∧ (portWith 0 0).forced 0 2 = false ∧ ((portWith 0 0).respAt 0 0).isSome
    ∧ ((portWith 0 0).sendPort 0).host.out = [.fabric 4 1 0 (.ok [])]
    ∧ (let s := { portWith 0 0 with fab := { (portWith 0 0).fab with resps := [] } }
       s.respAt 0 1 = none ∧ (s.reqAt 0 0).isNone ∧ (s.reqAt 0 1).isSome ∧ (s.sendPort 0).host.out.length = 1)
    ∧ goes (exec (.starvationForce 0 1) (portWith 64 256)) (fun t => t.host.out.length == 1 && (t.fab.starve[0]?).any fun d => d.1 == 0)
    ∧ goes (exec (.starvationForce 0 2) (portWith 63 256)) (fun t => t.host.out.length == 1 && (t.fab.starve[0]?).any fun d => d.2 == 0)
    ∧ goes (exec (.starvationForce 0 2) (portWith 64 256)) (fun t => t == portWith 64 256) := by decide +kernel
/-- AccessAnswersAndChannelSteps: an entry at the head of a hamper; a scrubber whose key rotation has stopped, at the end of a pass; a
`swait` that waits. -/
theorem witness_HampersScrubbersAndPolls :
    (let s := { base with hamp := [{ stack := 0, bytes := [(scmKey 0 0, 7)], tag := 0, data := none }] }
     keyStack (scmKey 0 0) == 0 && keyIsScm (scmKey 0 0) && goes (exec (.hamperWriteback 0) s) (fun t => t.hamp.isEmpty && t.byte (scmKey 0 0) == 7))
    ∧ (let s := { base with scrub := base.scrub.map fun x => { x with stopped := true, pos := 2 ^ 28 - 1 } }
       goes (exec (.patrolScrub 0) s) (fun t => (t.scrub[0]?).any fun y => y.pos == 0 && y.vcur == (s.scrub.map (·.vcur)).headD [] && y.stopped))
    ∧ (let s := onWeft (fun w => { w with waiting := some .swait, unsettled := some 0 }) { base with accs := [{ access0 (.swait 0 1) with settled := true }] }
       weftIs (fun w => w.waiting == some .swait) s ∧ goes (exec (.swaitPoll 0 0) s) (weftIs fun w => w.waiting.isNone)) := by decide +kernel
/-- DebugPort: the logical core of the machine and its physical place, with a cluster harvested on die 0. -/
theorem witness_DebugPlaces :
    attached.wefts.all (fun v => attached.named (.weft (.logical 0) 0) v)
    ∧ (let s := { attached with boot := { attached.boot with harvest := 0xFFF0 } }
       s.boot.harvested 0 < 14 ∧ s.boot.physCore 0 = (0, 1, 0) ∧ s.wefts.all (fun v => s.named (.weft (.physical 0 1 0) 0) v && !s.named (.weft (.physical 0 0 0) 0) v))
    ∧ attached.up := by decide +kernel
/-- CapAndPowerControlSteps: the trip limit before READY. -/
theorem witness_ThermtripBeforeReady :
    goes (exec (.controlInterval { quietT with temps := List.replicate 52 115 }) (atBoot .meminit)) (fun t => !t.power.thermtripN && t.power.pf == .stopping)
    ∧ goes (exec .pfail (atBoot .meminit)) (fun t => t.power.pf == .stopping)
    ∧ goes (exec (.railFault 3) (atBoot .meminit)) (fun t => t.power.pf == .stopping) := by decide +kernel

/-- The weft of `base` in a stage-1 launch whose stage queue holds one entry. -/
def staged : State :=
  { base with launches := base.launches.map fun l => { l with lrec := { l.lrec with pipe := 0x1000, stage := 1 } }
              pipes := [{ Pipe.ofBytes 5 0 0x1000 [2, 1] with serials := [none, some armLaunch.serial], queues := [[], [7]] }] }
/-- SoftErrors, QueuesAndLaunches: a stage queue entry struck at the last place stops the `qtry` that meets it; a place past the end is no entry. -/
theorem witness_StageQueuePoison :
    goes (exec (.softError (.stageQueue 5 1 0)) staged) (fun t =>
      t.pipes.all (fun p => p.qpois == [(1, 0)]) && goes (exec (.qtry Pfx.plain (.s 1) (.q 3) (.s 2)) t) (trapped 0x12 allLanes))
    ∧ goes (exec (.softError (.stageQueue 5 1 1)) staged) (fun t => t.pipes.all (fun p => p.qpois == []))
    ∧ goes (exec (.qtry Pfx.plain (.s 1) (.q 3) (.s 2)) staged) (fun t => sIs 1 7 t && sIs 2 1 t)
    ∧ goes (exec (.softError (.corrected [3, 13])) staged) (fun t => t.pipes.all (fun p => p.qpois == [])) := by decide +kernel

/-! ### Witnesses: tokens, halts, pauses and faults -/

/-- ItineraryCommandsAndSteps: a SYNC at the head with a neighbour below and one above, whose planes are up and down; a stop that outlives a load. -/
def syncing (pos npos phase : Nat) (up : BitVec 36) : State :=
  let s := running [(3, 0), (4, 0)]
  let h := leBytes 2 pos ++ leBytes 2 npos ++ leBytes 2 1 ++ leBytes 2 2 ++ zeros 1016
  { member 2 with itin := { s.itin with header := h, syncPhase := phase, syncf := 1, syncb := BitVec.ofNat 64 phase }
                  fab := { s.fab with up := up, peers := [1, 2].map fun n => (n, { v := true, sport := 0, st := 0, planes := 1 }) } }
def tokenTo (peer : Nat) (t : State) : Bool := t.fab.packets.any fun k => k.peer == peer && k.tier == 0 && k.op == .sigSet
theorem witness_SyncTokens :
    (syncing 0 2 0 1).dispatching ∧ goes (exec .sync (syncing 0 2 0 1)) (fun t => tokenTo 2 t && t.itin.syncPhase == 1 && t.itin.head == 0)
    ∧ goes (exec .sync (syncing 0 2 0 0)) (fun t => t.itin.st == 3 && t.itin.err == 4)
    ∧ goes (exec .sync (syncing 1 2 0 1)) (fun t => t.itin.syncPhase == 1 && t.itin.syncb == 1)
    ∧ goes (exec .sync (syncing 1 2 1 1)) (fun t => tokenTo 1 t && t.itin.head == 1 && t.itin.syncs == 1)
    ∧ goes (exec .sync (syncing 1 2 1 0)) (fun t => t.itin.st == 3 && t.itin.err == 4) := by decide +kernel

/-- CapAndPowerControlSteps: the trip limit while a power-fail sequence runs. -/
theorem witness_ThermtripWhileFailing :
    goes (exec (.controlInterval { quietT with temps := List.replicate 52 115 }) { base with power := { base.power with pf := .sealed } })
      (fun t => !t.power.thermtripN && t.power.pf == .sealed) := by decide +kernel

/-- AccessAnswersAndChannelSteps: the scrubber's entry in its hamper, with room and without; a store whose page is not there. -/
theorem witness_ScrubsAndReplays :
    goes (exec (.patrolScrub 0) base) (fun t => t.hamp.any fun e => e.stack == 0 && e.data.isSome) ∧ base.hampRoom 0 1
    ∧ (base.translate 0 0x40000000 .write 0).1 = .notPres 3
    ∧ (let s := onWeft (fun w => { w with cnt := modAt w.cnt 1 fun _ => [{ op := 9, done := false }], unsettled := some 9 })
          { base with accs := [{ access0 .store with id := 9, cnt := some 1, dst := .vregs [], lanes := [{ lane := 63, ea := 0x40000000, data := 5, swap := 0, st := .waiting }] }] }
       goes (exec (.accessAnswer 9 (chanOf 0x40000000) true) s)
         (fun t => weftIs (fun w => w.pc == 0x10004) t && (t.ctx 0).fqseq == 1 && t.accs.all fun a => a.parked && a.lanes.map LaneAcc.st == [.replay 0 1])) := by
  decide +kernel

/-- DebugPort: a READ through an index register in modes 0 and 2; a halt of a weft with an access open; a step under a pre-emption. -/
def indexed (mode : BitVec 2) : State :=
  onWeft (fun w => { w with xregs := modAt w.xregs 2 fun _ => { base := 40, bound := 8, step := 1, mode := mode, off := List.replicate 64 7 } })
    (withV [(46, .u 5), (47, .u 6)] attached)
theorem witness_DebugReadsAndHalts :
    goes (exec (.debugRead (.logical 0) 0 (.xpv 2 63)) (indexed 0)) (fun t => t.host.out == [.debug 0x2F00000006])
    ∧ goes (exec (.debugRead (.logical 0) 0 (.xpv 2 0)) (indexed 2)) (fun t => t.host.out == [.debug 0x2E00000005])
    ∧ goes (exec (.debugHalt .context) { onWeft (fun w => { w with unsettled := some 0 }) base with debug := some 0, accs := [access0 .load] })
        (weftIs fun w => w.halting && !w.halted)
    ∧ goes (exec (.debugStep (.logical 0) 0) (onWeft (fun w => { w with preempt := true }) attached)) (weftIs fun w => w.stepping && !w.preemptFree) := by
  decide +kernel

/-- MatrixAndNearMemorySteps: an engine at the cap of outstanding requests. -/
theorem witness_NearMemoryPause :
    (let s := { base with power := { base.power with oreqcfg := 0 }
                          accs := [{ access0 .load with lanes := (List.range 255).map fun n =>
                            { lane := 0, ea := BitVec.ofNat 64 (0x20000 + 128 * n), data := 0, swap := 0, st := .waiting } }] }
     s.oreq = 256 ∧ s.inFlight 0 = 255 ∧ s.nmvPaused 0 ∧ !s.nmvPaused 4) := by decide +kernel

/-- OrderingExitAndPersistence: a fence that has completed, one that the weft goes past, and one that waits for the replay queue. -/
noncomputable def parkedStore : State := { storing with accs := storing.accs.map fun a => { a with parked := true } }
theorem witness_Fences :
    goes (exec (.fence Pfx.plain 0 5) base) (weftIs fun w => w.fence.isNone && w.pc == 0x10004)
    ∧ goes (exec (.fence Pfx.plain 1 0) loading) (fun t => weftIs (fun w => w.fence.isSome && t.fenced w) t)
    ∧ meets parkedStore Pfx.plain [] .all (fun s w _ => s.replays w) := by decide +kernel

/-- VectorResultsFrameAndTraps: every lane writes one poisoned register through an index register. -/
theorem witness_IndexedWriteClearsPoison :
    goes (exec (.vmov Pfx.plain (.x 2) (.v 1))
      (onWeft (fun w => { w with halted := false, vregs := modAt w.vregs 47 fun r => { r with pois := true } }) (indexed 0)))
      (weftIs fun w => !(w.vreg 47).pois && (w.vreg 47).val.tag == 2) := by decide +kernel

/-- CommandQueuesAndCommands: a WAITV on the fabric window asks its peer, and fails where R83 gives an error. -/
theorem witness_WaitvOverTheFabric :
    (let k := cmd 4 (pay 0x8040000000000000 1 0 0)
     goes (exec (.waitv 0 0) (headed k (member 2))) (fun t => (t.fab.packets.map (·.use)) == [.waitv 0 0 5] && (t.queue 0 0).running == [k])
     ∧ goes (exec (.waitv 0 0) (headed k base)) (stop 3)
     ∧ (let s := { runningOne k (member 2) with fab := { (member 2).fab with packets := [packet0 (.waitv 0 0 5)] } }
        goes (exec (.fabricResponse 9 (.ok (leBytes 8 1 ++ zeros 120))) s) gone)) := by decide +kernel

end Sys2Proof.Tests
end

section
/-! PROOF of O25. What a write of bytes leaves, from the laws of memory. -/

namespace Sys2Proof.Machine

/-- Settles O25: a byte read after the write is the byte written or the byte before, and the cells stay canonical. -/
theorem writtenBytesAreRead : Obligations.WrittenBytesAreRead := by
  unfold Obligations.WrittenBytesAreRead
  intro s k bs h
  refine ⟨fun i hi => ?_, fun a ha => ?_, State.write_wf s _ _ h⟩
  · rw [State.byte_writeBytes s k _ bs h, if_pos ⟨Nat.le_add_right k i, Nat.add_lt_add_left hi k⟩, Nat.add_sub_cancel_left]
  · rw [State.byte_writeBytes s k a bs h, if_neg (by omega)]

end Sys2Proof.Machine
end

section
/-! SUPPORT. Memory stays canonical under every operation that answers a state, in the order of the model's files: one lemma for
each operation that more than replaces other fields of the state (where it only does that, the memory is the old one by `rfl`). -/

namespace Sys2Proof.Machine

/-! ### Choices, folds and pairs -/

theorem State.ite_inv {c : Prop} [Decidable c] {a b : State} (ha : a.Inv) (hb : b.Inv) : (if c then a else b).Inv := by
  split
  · exact ha
  · exact hb

theorem State.pair_ite_inv {α : Type} {c : Prop} [Decidable c] {a b : State × α} (ha : a.1.Inv) (hb : b.1.Inv) :
    (if c then a else b).1.Inv := by
  split
  · exact ha
  · exact hb

theorem State.foldl_inv {α : Type} {f : State → α → State} (hf : ∀ (s : State) (x : α), s.Inv → (f s x).Inv)
    (l : List α) {s : State}
    (h : s.Inv) : (l.foldl f s).Inv := foldl_keeps State.Inv f hf l s h

theorem State.getD_inv {o : Option State} {s : State} (ho : ∀ t, o = some t → t.Inv) (h : s.Inv) : (o.getD s).Inv := by
  cases o with
  | none => exact h
  | some t => exact ho t rfl

theorem State.snd_inv {α : Type} {p : α × State} {a : α} {t : State} (e : p = (a, t)) (h : p.2.Inv) : t.Inv := by
  subst e; exact h

theorem State.fst_inv {α : Type} {p : State × α} {a : α} {t : State} (e : p = (t, a)) (h : p.1.Inv) : t.Inv := by
  subst e; exact h

variable {s : State}

/-! ### Memory and the hampers -/

theorem State.write_inv {cells : List Host.Cell} {tag : Nat} (h : s.Inv) : (s.write cells tag).Inv := State.write_wf s cells tag h

theorem State.writeBytes_inv {k : Nat} {bs : List Byte} (h : s.Inv) : (s.writeBytes k bs).Inv := State.write_inv h

theorem State.settleEntry_inv {e : HampEntry} (h : s.Inv) : (s.settleEntry e).Inv := Memory.wf_setAll _ _ h

theorem State.writeBack_inv {stack : Nat} (h : s.Inv) : (s.writeBack stack).Inv := by
  unfold State.writeBack
  split
  · exact State.settleEntry_inv (s := s) h
  · exact h

theorem State.makeRoom_inv {stack n f : Nat} (h : s.Inv) : (s.makeRoom stack n f).Inv := by
  induction f generalizing s with
  | zero => exact h
  | succ f ih =>
    unfold State.makeRoom
    exact State.ite_inv h (ih (State.writeBack_inv h))

theorem State.writeWait_inv {cells : List Host.Cell} {tag : Nat} (h : s.Inv) : (s.writeWait cells tag).Inv :=
  State.write_inv (State.foldl_inv (fun _ _ ht => State.makeRoom_inv ht) _ h)

theorem State.addMeta_inv {stack : Nat} {d : HampMeta} (h : s.Inv) : (s.addMeta stack d).Inv :=
  State.makeRoom_inv (s := s) h

theorem State.noteSteps_inv (h : s.Inv) : s.noteSteps.Inv := State.addMeta_inv h

theorem State.countLine_inv {k : Nat} {cbf : Bool} (h : s.Inv) : (s.countLine k cbf).Inv := State.ite_inv h h

/-! ### Translation, snapshot units and control-plane writes -/

theorem State.leafOf_inv {c : Nat} {va : W64} (h : s.Inv) : (s.leafOf c va).2.Inv := by
  simp only [State.leafOf]
  split
  · exact h
  · split <;> exact h

theorem State.setUnit_inv {u : SnapUnit} (h : s.Inv) : (s.setUnit u).Inv := State.addMeta_inv (s := s.holdUnit u) h

theorem State.enterUnit_inv {r : Region} {va : W64} {home : Nat} (h : s.Inv) : (s.enterUnit r va home).Inv := by
  unfold State.enterUnit
  split <;> exact h

theorem State.openUnit_inv {t : State} {va st : Nat} (h : s.Inv) (e : s.openUnit va st = some t) : t.Inv := by
  unfold State.openUnit at e
  split at e
  · cases e
  · split at e
    · cases e
    · split at e
      · cases e; exact h
      · split at e
        · cases e
        · cases e
          exact State.setUnit_inv (State.write_inv h)

theorem State.openUnit_getD_inv {va st : Nat} (h : s.Inv) : ((s.openUnit va st).getD s).Inv :=
  State.getD_inv (fun _ => State.openUnit_inv h) h

theorem State.undefine_inv {keys : List Nat} (h : s.Inv) : (s.undefine keys).Inv := Memory.wf_setAll _ _ h

theorem State.poolTouched_inv (h : s.Inv) : s.poolTouched.Inv := State.undefine_inv h

theorem State.parityTouched_inv (h : s.Inv) : s.parityTouched.Inv := by
  unfold State.parityTouched
  split
  · exact State.undefine_inv h
  · exact h

theorem State.checkLeaf_inv {c : Nat} {va : W64} {ask : Ask} {st : Nat} {e : W64} (h : s.Inv) : (s.checkLeaf c va ask st e).2.Inv := by
  have store : ∀ o : Option Region, (match o with
      | none => ((.prot, s) : Tr × State)
      | some r => ((s.enterUnit r va (leafKey va e)).snapAccept r va st, s.enterUnit r va (leafKey va e))).2.Inv := by
    intro o
    cases o with
    | none => exact h
    | some r => exact State.enterUnit_inv h
  have read : ∀ o : Option Region, (match o with
      | some r => ((.ok (snapKey va.toNat) false, s.enterUnit r va (leafKey va e)) : Tr × State)
      | none => (.ok (leafKey va e) false, s)).2.Inv := by
    intro o
    cases o with
    | none => exact h
    | some r => exact State.enterUnit_inv h
  unfold State.checkLeaf
  split
  · exact h
  · split
    · exact h
    · split
      · cases ask with
        | write => exact store _
        | atomic => exact store _
        | read => exact read _
        | fetch => exact read _
      · exact State.ite_inv (State.poolTouched_inv h) h

theorem State.reportUnit_inv {c : Nat} {va : W64} (h : s.Inv) : (s.reportUnit c va).Inv := State.ite_inv h h

theorem State.translate_inv {c : Nat} {va : W64} {ask : Ask} {st : Nat} (h : s.Inv) : (s.translate c va ask st).2.Inv := by
  unfold State.translate
  split
  · exact h
  · split <;> have h1 := State.snd_inv ‹s.leafOf c va = _› (State.leafOf_inv h)
    · exact h1
    · exact State.reportUnit_inv h1
    · exact State.checkLeaf_inv h1

theorem State.openUnits_inv {cells : List Host.Cell} {st : Nat} (h : s.Inv) : (s.openUnits cells st).Inv :=
  State.foldl_inv (fun _ _ ht => State.openUnit_getD_inv ht) _ h

theorem State.declares_inv {cells : List Host.Cell} (h : s.Inv) : (s.declares cells).Inv := State.ite_inv (State.parityTouched_inv h) h

theorem State.chanWrite_inv {cells : List Host.Cell} {st : Nat} (h : s.Inv) : (s.chanWrite cells st).Inv :=
  State.write_inv (State.openUnits_inv (State.declares_inv h))

theorem State.countSpan_inv {k n : Nat} {cbf : Bool} (h : s.Inv) : (s.countSpan k n cbf).Inv :=
  State.ite_inv (State.foldl_inv (fun _ _ ht => State.countLine_inv ht) _ h) h

theorem State.vaRanges_inv {c : Nat} {ask : Ask} {ps ks : List (Nat × Nat)} {t : State} (h : s.Inv)
    (e : s.vaRanges c ask ps = some (ks, t)) : t.Inv := by
  induction ps generalizing s ks t with
  | nil => unfold State.vaRanges at e; cases e; exact h
  | cons p r ih =>
    unfold State.vaRanges at e
    dsimp only at e
    split at e
    · cases e
    · split at e
      · have h1 := State.snd_inv ‹s.translate c _ ask _ = _› (State.translate_inv h)
        split at e
        · cases e
          exact ih (State.countSpan_inv (State.ite_inv (State.openUnit_getD_inv h1) h1)) ‹_›
        · cases e
      · cases e

theorem State.noteRead_inv {c : Nat} {va : W64} {n : Nat} (h : s.Inv) : (s.noteRead c va n).Inv := by
  unfold State.noteRead
  split
  · exact h
  · exact State.vaRanges_inv h ‹_›

theorem State.hampersFor_inv {keys : List Nat} (h : s.Inv) : (s.hampersFor keys).Inv :=
  State.foldl_inv (fun _ _ ht => State.makeRoom_inv ht) _ h

theorem State.vaWrite_inv {t : State} {c : Nat} {va : W64} {bs : List Byte} (h : s.Inv) (e : s.vaWrite c va bs = some t) : t.Inv := by
  unfold State.vaWrite at e
  dsimp only at e
  split at e
  · cases e
  · split at e
    · cases e
    · cases e
      exact State.chanWrite_inv (State.vaRanges_inv (State.hampersFor_inv h) ‹_›)

theorem State.vaWrite_getD_inv {c : Nat} {va : W64} {bs : List Byte} (h : s.Inv) : ((s.vaWrite c va bs).getD s).Inv :=
  State.getD_inv (fun _ => State.vaWrite_inv h) h

theorem State.hostPut_inv {t : State} {a : Nat} {bs : List Byte} (h : s.Inv) (e : s.hostPut a bs = some t) : t.Inv := by
  unfold State.hostPut at e
  split at e
  · cases e; exact State.writeBytes_inv h
  · cases e

theorem State.hostIndex_inv {a : Nat} {v : W32} (h : s.Inv) : (s.hostIndex a v).Inv := State.getD_inv (fun _ => State.hostPut_inv h) h

/-! ### Alerts, teardown and traps -/

theorem State.withHost_inv {x : HostIf} (h : s.Inv) : State.Inv { s with host := x } := h

theorem State.emit_inv {o : Out} (h : s.Inv) : (s.emit o).Inv := h

theorem State.alert_inv {bit : Nat} (h : s.Inv) : (s.alert bit).Inv := State.ite_inv h h

theorem State.setCtx_inv {c : Nat} {x : Context} (h : s.Inv) : (s.setCtx c x).Inv := h

theorem State.beginTeardown_inv {c : Nat} (h : s.Inv) : (s.beginTeardown c).Inv := h

theorem State.fatal_inv {w : Weft} {cause : Cause} {lanes info rpc : W64} (h : s.Inv) : (s.fatal w cause lanes info rpc).Inv :=
  State.ite_inv h (State.beginTeardown_inv (State.vaWrite_getD_inv (s := s.setCtx _ _) h))

theorem State.takeTrap_inv {w : Weft} {cause : Cause} {lanes info rpc : W64} (h : s.Inv) : (s.takeTrap w cause lanes info rpc).Inv :=
  State.ite_inv (State.fatal_inv (s := s.setWeft w) h) h

theorem State.trapF_inv {w : Weft} {cause : Cause} {lanes : W64} {t : TInfo} (h : s.Inv) : (s.trapF w cause lanes t).Inv :=
  State.takeTrap_inv h

theorem State.trapL_inv {w : Weft} {cause : Cause} {lanes : W64} {t : TInfo} (h : s.Inv) : (s.trapL w cause lanes t).Inv :=
  State.takeTrap_inv h

theorem State.trapNext_inv {w : Weft} {cause : Cause} {lanes : W64} {t : TInfo} {rpc : W64} (h : s.Inv) :
    (s.trapNext w cause lanes t rpc).Inv := State.takeTrap_inv h

theorem State.tret_inv {w : Weft} {p : Pfx} (h : s.Inv) : (s.tret w p).Inv := State.ite_inv (State.trapF_inv h) h

/-! ### Queues and operands -/

theorem State.q3Pop_inv {w : Weft} (h : s.Inv) : (s.q3Pop w).Inv := by
  unfold State.q3Pop
  split
  · exact h
  · split
    · exact h
    · split <;> exact h

theorem State.q4Push_inv {w : Weft} {v : W64} (h : s.Inv) : (s.q4Push w v).Inv := by
  unfold State.q4Push
  split <;> exact h

theorem State.qPop_inv {w : Weft} {n : Nat} (h : s.Inv) : (s.qPop w n).Inv := by
  unfold State.qPop
  split
  · exact State.q3Pop_inv h
  · split <;> exact h

theorem State.qPush_inv {w : Weft} {n : Nat} {v : W64} (h : s.Inv) : (s.qPush w n v).Inv := by
  unfold State.qPush
  split
  · exact State.q4Push_inv h
  · split <;> exact h

theorem State.stopped_inv {w : Weft} {c : Chk} {lanes : W64} (h : s.Inv) : (s.stopped w c lanes).Inv := by
  cases c with
  | ok => exact h
  | wait r => exact h
  | trap k t => exact State.trapF_inv h

theorem State.popUses_inv {w : Weft} {m : W64} {us : List Use} (h : s.Inv) : (s.popUses w m us).Inv := by
  induction us generalizing s with
  | nil => exact h
  | cons u r ih =>
    unfold State.popUses
    split
    · split
      · exact ih h
      · split
        · split
          · exact ih (s := s.setTeam _) h
          · exact ih h
        · exact ih (State.qPop_inv h)
    · exact ih h

theorem writeS_inv {w : Weft} {o : Opnd} {v : W64} (h : s.Inv) : (writeS s w o v).1.Inv := by
  unfold writeS
  split
  · exact h
  · exact State.qPush_inv h
  · exact h

theorem writeV_inv {w : Weft} {m : W64} {u : Use} {regs : List Nat} {vals : List VVal} (h : s.Inv) :
    (writeV s w m u regs vals).1.Inv := by
  unfold writeV
  split
  · exact h
  · exact h
  · split <;> exact h
  · exact h

theorem State.dataTrap_inv {w : Weft} {p : Pfx} {rounds : Bool} {uses : List Use} {m : W64} {pos : Nat} (h : s.Inv) :
    (s.dataTrap w p rounds uses m pos).Inv := State.trapL_inv h

/-! ### Outcomes -/

/-- A next state has its memory in canonical form; a stop has none. -/
def Res.Inv : Res → Prop
  | .next t => t.Inv
  | .fault _ => True
  | .refused _ => True

theorem Res.inv_next {r : Res} {t : State} (h : r.Inv) (e : r = .next t) : t.Inv := by
  subst e; exact h

theorem Res.ite_inv {c : Prop} [Decidable c] {a b : Res} (ha : a.Inv) (hb : b.Inv) : (if c then a else b).Inv := by
  split
  · exact ha
  · exact hb

theorem Res.andThen_inv {r : Res} {f : State → State} (hr : r.Inv) (hf : ∀ t : State, t.Inv → (f t).Inv) : (r.andThen f).Inv := by
  cases r with
  | next t => exact hf t hr
  | fault e => trivial
  | refused e => trivial

theorem Res.bind_inv {r : Res} {f : State → Res} (hr : r.Inv) (hf : ∀ t : State, t.Inv → (f t).Inv) : (r.bind f).Inv := by
  cases r with
  | next t => exact hf t hr
  | fault e => trivial
  | refused e => trivial

theorem issue_inv {p : Pfx} {uses : List Use} {q : QRule} {body : Weft → Plan → State} (h : s.Inv)
    (hb : ∀ w g, (body w g).Inv) : (issue s p uses q body).Inv := by
  unfold issue
  split
  · trivial
  · split
    · exact State.stopped_inv h
    · split
      · exact hb _ _
      · exact State.ite_inv (State.dataTrap_inv h) (hb _ _)

theorem execScalar_inv {p : Pfx} {srcs : List Use} {d : Opnd} {f : Weft → List W64 → W64} (h : s.Inv) :
    (execScalar s p srcs d f).Inv :=
  issue_inv h fun _ _ => State.ite_inv h (writeS_inv (State.popUses_inv h))

theorem execWide_inv {p : Pfx} {uses : List Use} {f : State → Weft → List W64 → State} (h : s.Inv)
    (hf : ∀ (t : State) w v, t.Inv → (f t w v).Inv) : (execWide s p uses f).Inv :=
  issue_inv h fun _ _ => hf _ _ _ (State.popUses_inv h)

theorem execLanes_inv {debits folds : Bool} {p : Pfx} {srcs : List Use} {dst : Use} {rounds : Bool}
    {f : Weft → W64 → List (List VVal) → VRes} (h : s.Inv) : (execLanes debits folds s p srcs dst rounds f).Inv := by
  refine issue_inv h fun w g => ?_
  have hd : (if debits then s.debit w.core (quarters g.m) else s).Inv := State.ite_inv h h
  dsimp only
  generalize (if debits then s.debit w.core (quarters g.m) else s) = t at hd
  refine State.ite_inv h (State.ite_inv (State.popUses_inv hd) ?_)
  split
  · exact State.ite_inv (State.dataTrap_inv hd) (State.trapL_inv hd)
  · refine State.ite_inv (State.trapF_inv hd) ?_
    refine State.ite_inv ?_ (State.trapL_inv ?_)
    all_goals
      refine State.pair_ite_inv (writeV_inv (State.popUses_inv hd)) ?_
      split
      · exact writeS_inv (State.popUses_inv hd)
      · exact State.popUses_inv hd

theorem execVec_inv {p : Pfx} {srcs : List Use} {dst : Use} {rounds : Bool} {f : Weft → W64 → List (List VVal) → VRes} (h : s.Inv) :
    (execVec s p srcs dst rounds f).Inv := execLanes_inv h

theorem execFold_inv {p : Pfx} {srcs : List Use} {dst : Use} {rounds : Bool} {f : Weft → W64 → List (List VVal) → VRes} (h : s.Inv) :
    (execFold s p srcs dst rounds f).Inv := execLanes_inv h

end Sys2Proof.Machine
end

section
/-! SUPPORT of O60. Canonical memory: launches, ordering, fault records and accesses. -/

namespace Sys2Proof.Machine
variable {s : State}

/-! ### Launches -/

theorem State.joinPipe_inv {c serial : Nat} {r : LaunchRec} (h : s.Inv) : (s.joinPipe c serial r).Inv := by
  unfold State.joinPipe
  split
  · exact h
  · dsimp only
    split <;> exact h

theorem State.enterLaunch_inv {c : Nat} {lva : W64} {r : LaunchRec} {die : Option Nat} {extra : List Dep}
    {cmd : Option (Nat × Nat × Nat)} {itn : Option Nat} (h : s.Inv) : (s.enterLaunch c lva r die extra cmd itn).Inv := by
  unfold State.enterLaunch
  exact State.joinPipe_inv h

/-! ### Combining buffers and ordering -/

theorem State.weftEvent_inv {core slot : Nat} {e : WeftEvent} (h : s.Inv) : (s.weftEvent core slot e).Inv := by
  unfold State.weftEvent
  split <;> exact h

theorem State.lateFault_inv {core slot : Nat} {c : Cause} {e : WeftEvent} (h : s.Inv) : (s.lateFault core slot c e).Inv :=
  State.ite_inv h (State.weftEvent_inv h)

theorem State.sendPacket_inv {k : Packet} (h : s.Inv) : (s.sendPacket k).Inv := h

theorem State.sendComb_inv {e : CombEntry} (h : s.Inv) : (s.sendComb e).Inv := by
  unfold State.sendComb
  split
  · exact State.foldl_inv (fun _ _ ht => State.weftEvent_inv ht) _ (s := s.leaveComb e .dropped) h
  · exact h

theorem State.flushComb_inv {pick : CombEntry → Bool} (h : s.Inv) : (s.flushComb pick).Inv :=
  State.foldl_inv (fun _ _ ht => State.sendComb_inv ht) _ h

theorem State.flushCore_inv {core scope : Nat} (h : s.Inv) : (s.flushCore core scope).Inv := State.ite_inv h (State.flushComb_inv h)

theorem State.waitOrder_inv {w : Weft} {scope : Nat} (h : s.Inv) : (s.waitOrder w scope).Inv := by
  unfold State.waitOrder
  dsimp only
  split <;> exact State.flushCore_inv (s := s) h

theorem State.release_inv {w : Weft} {scope : Nat} {k : State → State} (h : s.Inv) (hk : (k s).Inv) : (s.release w scope k).Inv :=
  State.ite_inv hk (State.waitOrder_inv h)

theorem State.fenceAcq_inv {w : Weft} {scope : Nat} {k : State → State} (h : s.Inv) (hk : (k s).Inv) : (s.fenceAcq w scope k).Inv :=
  State.ite_inv (State.waitOrder_inv h) hk

theorem State.fullFence_inv {w : Weft} {scope : Nat} {k : State → State} (h : s.Inv) (hk : (k s).Inv) : (s.fullFence w scope k).Inv :=
  State.ite_inv hk (State.waitOrder_inv h)

/-! ### Fault records -/

theorem State.pumpRecords_inv {c n : Nat} (h : s.Inv) : (s.pumpRecords c n).Inv := by
  induction n generalizing s with
  | zero => exact h
  | succ n ih =>
    unfold State.pumpRecords
    dsimp only
    split
    · exact h
    · split
      · exact h
      · split
        · exact h
        · have h2 {a v} := State.hostIndex_inv (a := a) (v := v) (State.hostPut_inv h ‹_›)
          exact ih (s := State.setCtx _ c _) (State.ite_inv h2 h2)

theorem State.writeRecord_inv {c : Nat} {r : FaultRec} (h : s.Inv) : (s.writeRecord c r).Inv := by
  unfold State.writeRecord
  exact State.pumpRecords_inv h

theorem State.pumpAll_inv (h : s.Inv) : s.pumpAll.Inv := State.foldl_inv (fun _ _ ht => State.pumpRecords_inv ht) _ h

theorem State.writeRecords_inv {c : Nat} {rs : List FaultRec} (h : s.Inv) : (s.writeRecords c rs).Inv :=
  State.foldl_inv (fun _ _ ht => State.writeRecord_inv ht) _ h

/-! ### Accesses -/

theorem State.verdict_inv {rep : Nat → Bool} {a : Access} {l : LaneAcc} (h : s.Inv) : (s.verdict rep a l).1.Inv := by
  unfold State.verdict
  split <;> have h1 := State.snd_inv ‹s.translate _ _ _ _ = _› (State.translate_inv h)
  · refine State.pair_ite_inv h1 (State.pair_ite_inv (State.pair_ite_inv ?_ h1) h1)
    exact State.openUnit_getD_inv h1
  · exact h1
  · exact h1
  · exact h1
  · exact State.pair_ite_inv h1 h1

theorem State.verdicts_inv {rep : Nat → Bool} {a : Access} {pick : LaneAcc → Bool} {ls : List LaneAcc} (h : s.Inv) :
    (s.verdicts rep a pick ls).1.Inv := by
  induction ls generalizing s with
  | nil => exact h
  | cons l r ih =>
    unfold State.verdicts
    exact State.pair_ite_inv (ih (State.verdict_inv h)) (ih h)

theorem State.countAccess_inv {a : Access} {ls : List LaneAcc} (h : s.Inv) : (s.countAccess a ls).Inv := by
  refine State.foldl_inv (fun t n ht => ?_) _ h
  split
  · exact State.countLine_inv ht
  · exact ht

theorem State.performWrite_inv {a : Access} {l : LaneAcc} {k v data : Nat} (h : s.Inv) : (s.performWrite a l k v data).1.Inv :=
  State.pair_ite_inv h (State.chanWrite_inv h)

theorem State.performLane_inv {a : Access} {l : LaneAcc} {k : Nat} (h : s.Inv) : (s.performLane a l k).1.Inv := by
  unfold State.performLane
  split
  case h_1 | h_2 | h_3 | h_4 => exact h
  case h_5 | h_6 | h_7 | h_8 => exact State.performWrite_inv h

theorem State.performLanes_inv {a : Access} {pick : LaneAcc → Bool} {ls : List LaneAcc} (h : s.Inv) :
    (s.performLanes a pick ls).1.Inv := by
  induction ls generalizing s with
  | nil => exact h
  | cons l r ih =>
    unfold State.performLanes
    split
    · exact State.pair_ite_inv (ih (State.performLane_inv h)) (ih h)
    · exact ih h

theorem State.settleTrap_inv {w : Weft} {a : Access} {c : Cause} {d : Nat} (h : s.Inv) : (s.settleTrap w a c d).Inv := by
  unfold State.settleTrap
  exact State.ite_inv (State.trapF_inv (s := s.dropAcc _) h) (State.trapL_inv (State.ite_inv h h))

theorem State.parkLoad_inv {w : Weft} {a : Access} (h : s.Inv) : (s.parkLoad w a).Inv := by
  unfold State.parkLoad
  exact State.writeRecords_inv h

theorem State.settleGo_inv {w : Weft} {a : Access} (h : s.Inv) : (s.settleGo w a).Inv := by
  unfold State.settleGo
  exact State.ite_inv h h

theorem State.splitLanes_inv {a : Access} (h : s.Inv) : (s.splitLanes a).Inv := by
  unfold State.splitLanes
  exact State.writeRecords_inv h

theorem State.parkLanes_inv {a : Access} (h : s.Inv) : (s.parkLanes a).Inv := State.ite_inv h (State.splitLanes_inv h)

theorem State.late_inv {id : Nat} (h : s.Inv) : (s.late id).Inv := by
  unfold State.late
  split
  · exact h
  · split
    · exact h
    · split
      · exact State.parkLanes_inv (State.lateFault_inv (s := s.setAcc _) h)
      · exact State.parkLanes_inv h

theorem State.settleReplay_inv {w : Weft} {a : Access} (h : s.Inv) : (s.settleReplay w a).Inv := by
  unfold State.settleReplay
  dsimp only
  split
  · exact State.ite_inv (State.lateFault_inv (s := State.setWeft _ _) h) (State.lateFault_inv (s := State.setWeft _ _) h)
  · exact State.parkLanes_inv h

theorem State.enterOrder_inv {a : Access} (h : s.Inv) : (s.enterOrder a).1.Inv := State.pair_ite_inv h h

theorem State.settleWait_inv {w : Weft} {a : Access} (h : s.Inv) : (s.settleWait w a).Inv := State.ite_inv h h

theorem State.settle_inv {a : Access} (h : s.Inv) : (s.settle a).Inv := by
  unfold State.settle
  split
  · exact h
  · refine State.ite_inv (State.settleWait_inv h) (State.ite_inv (State.settleReplay_inv h) ?_)
    have he : (s.enterOrder a).1.Inv := State.enterOrder_inv h
    have ho {c : Prop} [Decidable c] {ls : List LaneAcc} :=
      State.pair_ite_inv (c := c) (State.performLanes_inv (a := (s.enterOrder a).2) (pick := fun _ => true) (ls := ls) he)
      (b := ((s.enterOrder a).1, ls)) he
    refine State.ite_inv ho ?_
    split
    · exact State.settleTrap_inv ho
    · exact State.ite_inv (State.parkLoad_inv ho) (State.settleGo_inv ho)

theorem State.fillLine_inv {core ctx va : Nat} {bs : List Byte} (h : s.Inv) : (s.fillLine core ctx va bs).Inv := h

theorem State.finishLaunch_inv {w : Weft} {a : Access} {d : Opnd} {b : Option Opnd} {early : Bool} (h : s.Inv) :
    (s.finishLaunch w a d b early).Inv := by
  have hp {us : List Use} : ((s.dropAcc a.id).popUses w a.mask us).Inv := State.popUses_inv h
  unfold State.finishLaunch
  exact State.ite_inv h (State.ite_inv (writeS_inv hp) (State.ite_inv h (writeS_inv (State.enterLaunch_inv hp))))

theorem State.finish_inv {id : Nat} (h : s.Inv) : (s.finish id).Inv := by
  unfold State.finish
  split
  · exact h
  · split
    · exact h
    · split
      · exact h
      · split
        · exact h
        · exact State.ite_inv h h
        · exact State.finishLaunch_inv h
        · exact h

theorem State.checkPersist_inv {core slot : Nat} (h : s.Inv) : (s.checkPersist core slot).Inv := by
  unfold State.checkPersist
  split
  · exact h
  · exact State.ite_inv h h

theorem State.combine_inv {core ctx peer line : Nat} {nt : Bool} {bytes : List (Nat × Byte × Nat)} {acc : Nat} (h : s.Inv) :
    (s.combine core ctx peer line nt bytes acc).Inv := by
  have h1 {pick : CombEntry → Bool} : (s.flushComb pick).Inv := State.flushComb_inv h
  unfold State.combine
  dsimp only
  split
  · exact State.flushComb_inv (s := s) h
  · refine State.ite_inv ?_ h1
    split
    · exact State.sendComb_inv h1
    · exact h1

theorem State.setLanes_inv {id : Nat} {pick : LaneAcc → Bool} {st : LaneSt} (h : s.Inv) : (s.setLanes id pick st).Inv := by
  unfold State.setLanes
  split <;> exact h

theorem State.sendLine_inv {id peer line : Nat} (h : s.Inv) : (s.sendLine id peer line).Inv := by
  unfold State.sendLine
  split
  · exact h
  · dsimp only
    split
    · exact h
    · split
      · exact State.ite_inv (State.setLanes_inv h) (State.weftEvent_inv (State.setLanes_inv h))
      · exact State.ite_inv (State.setLanes_inv (State.combine_inv h)) (State.ite_inv (State.flushComb_inv h) h)

theorem State.sendFabric_inv {id : Nat} (h : s.Inv) : (s.sendFabric id).Inv := by
  unfold State.sendFabric
  split
  · exact h
  · exact State.ite_inv h (State.foldl_inv (fun _ _ ht => State.sendLine_inv ht) _ h)

theorem State.progress_inv {id : Nat} (h : s.Inv) : (s.progress id).Inv := by
  unfold State.progress
  split
  · exact h
  · have h1 {c : Prop} [Decidable c] {a : Access} : (if c then s else s.settle a).Inv := State.ite_inv h (State.settle_inv h)
    exact State.checkPersist_inv (State.finish_inv (State.late_inv (State.ite_inv h1 (State.sendFabric_inv h1))))

theorem State.coverLanes_inv {a : Access} {ls : List LaneAcc} {keys : List (Nat × Nat)} (h : s.Inv) : (s.coverLanes a ls keys).Inv :=
  State.ite_inv h h

theorem State.answer_inv {id ch : Nat} {perform : Bool} (h : s.Inv) : (s.answer id ch perform).Inv := by
  unfold State.answer
  split
  · exact h
  · refine State.ite_inv (State.progress_inv (State.sendFabric_inv h)) ?_
    have h2 {rep : Nat → Bool} {a b : Access} {pick : LaneAcc → Bool} {ls ms : List LaneAcc} :
        ((((s.verdicts rep a pick ls).1.countAccess a ms).setAcc b).progress id).Inv :=
      State.progress_inv (s := State.setAcc _ b) (State.countAccess_inv (State.verdicts_inv h))
    dsimp only
    split
    · exact h2
    · refine State.ite_inv ?_ h2
      exact State.checkPersist_inv (State.finish_inv (State.late_inv
        (State.coverLanes_inv (s := State.setAcc _ _) (State.performLanes_inv h2))))

theorem State.wakeBehind_inv (h : s.Inv) : s.wakeBehind.Inv := h

theorem State.weftGoes_inv {core slot : Nat} (h : s.Inv) : (s.weftGoes core slot).Inv := by
  unfold State.weftGoes
  split <;> exact h

theorem State.rewalk_inv {c : Nat} {covers : Nat → Bool} (h : s.Inv) : (s.rewalk c covers).Inv := by
  unfold State.rewalk
  refine State.foldl_inv (fun t id ht => ?_) _ h
  dsimp only
  split
  · exact ht
  · exact State.progress_inv (State.weftGoes_inv (s := State.setAcc _ _) (State.countAccess_inv (State.verdicts_inv ht)))

theorem State.startAccess_inv {w : Weft} {a0 : Access} {range : Option (Nat × Nat)} (h : s.Inv) : (s.startAccess w a0 range).Inv := by
  unfold State.startAccess
  exact State.progress_inv (State.sendFabric_inv h)

end Sys2Proof.Machine
end

section
/-! SUPPORT of O60. Canonical memory: boot, channels, scratchpad accesses, knots, the shuttle and the matrix engine. -/

namespace Sys2Proof.Machine
variable {s : State}

/-! ### Boot and the host link -/

theorem State.bootFail_inv {cause : Nat} (h : s.Inv) : (s.bootFail cause).Inv := by
  unfold State.bootFail
  exact State.alert_inv h

theorem State.unpowered_inv (h : s.Inv) : s.unpowered.Inv := Memory.wf_filter _ _ h

theorem State.drainHampers_inv (h : s.Inv) : s.drainHampers.Inv := State.foldl_inv (fun _ _ ht => State.settleEntry_inv ht) _ h

theorem State.restartEncode_inv (h : s.Inv) : s.restartEncode.Inv := by
  unfold State.restartEncode
  split
  · exact State.ite_inv h h
  · exact h

theorem State.toReady_inv (h : s.Inv) : s.toReady.Inv := by
  unfold State.toReady
  exact State.alert_inv h

theorem execBootStart_inv (h : s.Inv) : (execBootStart s).Inv := State.ite_inv h h

theorem execBootRom_inv (h : s.Inv) : (execBootRom s).Inv := State.ite_inv h h

theorem execBrchk_inv (h : s.Inv) : (execBrchk s).Inv := by
  refine State.ite_inv ?_ h
  split
  · exact State.bootFail_inv h
  · exact State.ite_inv (State.bootFail_inv h) h

theorem execIdent_inv (h : s.Inv) : (execIdent s).Inv := State.ite_inv (State.ite_inv h (State.bootFail_inv h)) h

theorem execFwload_inv (h : s.Inv) : (execFwload s).Inv := by
  refine State.ite_inv ?_ h
  split
  · exact State.bootFail_inv h
  · exact State.ite_inv h (State.bootFail_inv h)

theorem execDies_inv (h : s.Inv) : (execDies s).Inv :=
  State.ite_inv (State.ite_inv (State.bootFail_inv h) (State.ite_inv (State.bootFail_inv h) h)) h

theorem execMeminit_inv (h : s.Inv) : (execMeminit s).Inv := by
  refine State.ite_inv (State.ite_inv (State.bootFail_inv h) (State.ite_inv (State.bootFail_inv h) ?_)) h
  exact State.restartEncode_inv (Memory.wf_filter _ _ (State.drainHampers_inv (s := { s with draws := s.draws + 3 }) h))

theorem execReady_inv (h : s.Inv) : (execReady s).Inv := State.ite_inv (State.ite_inv h (State.toReady_inv h)) h

theorem execPcieLinkTraining_inv {width rate : Nat} {cxl : Bool} (h : s.Inv) : (execPcieLinkTraining width rate cxl s).Inv := by
  unfold execPcieLinkTraining
  exact State.ite_inv h h

theorem execConfigRequest_inv {bar0 : Option (BitVec 64)} (h : s.Inv) : (execConfigRequest bar0 s).Inv := by
  unfold execConfigRequest
  split
  · cases bar0 with
    | none => exact State.emit_inv h
    | some a => exact State.emit_inv (State.withHost_inv h)
  · exact h

theorem execPerstRelease_inv (h : s.Inv) : (execPerstRelease s).Inv := State.ite_inv (State.toReady_inv h) h

/-! ### Channels -/

theorem execAccessAnswer_inv {id ch : Nat} {perform : Bool} (h : s.Inv) : (execAccessAnswer id ch perform s).Inv :=
  State.ite_inv (State.answer_inv h) h

theorem execSwaitPoll_inv {core slot : Nat} (h : s.Inv) : (execSwaitPoll core slot s).Inv := by
  unfold execSwaitPoll
  split
  · exact h
  · split
    · exact State.ite_inv h h
    · exact h

theorem execSleepExpiry_inv {core slot : Nat} (h : s.Inv) : (execSleepExpiry core slot s).Inv := by
  unfold execSleepExpiry
  split <;> exact h

theorem execHamperWriteback_inv {stack : Nat} (h : s.Inv) : (execHamperWriteback stack s).Inv := State.ite_inv h (State.writeBack_inv h)

theorem execPatrolScrub_inv {chan : Nat} (h : s.Inv) : (execPatrolScrub chan s).Inv := by
  refine State.ite_inv h ?_
  have h1 {c : Prop} [Decidable c] {t : State} {d : HampMeta} (ht : t.Inv) : (if c then t else t.addMeta (chan / 16) d).Inv :=
    State.ite_inv ht (State.addMeta_inv ht)
  exact State.ite_inv (State.ite_inv (h1 h) (h1 h)) (State.ite_inv (h1 h) (h1 h))

theorem execHbmRefresh_inv {chan bank : Nat} {busy : Bool} (h : s.Inv) : (execHbmRefresh chan bank busy s).Inv := State.ite_inv h h

theorem execAlertBackoff_inv {chan bank : Nat} (h : s.Inv) : (execAlertBackoff chan bank s).Inv := State.ite_inv h h

/-! ### Memory instructions -/

theorem State.performSpad_inv {a : Access} {ls : List LaneAcc} (h : s.Inv) : (s.performSpad a ls).1.Inv := by
  induction ls generalizing s with
  | nil => exact h
  | cons l r ih =>
    unfold State.performSpad
    split
    · exact ih (State.performLane_inv h)
    · exact ih h

theorem State.spadIssue_inv {w : Weft} {a : Access} (h : s.Inv) : (s.spadIssue w a).Inv := by
  have h1 {ls ms : List LaneAcc} {keys : List (Nat × Nat)} : ((s.performSpad a ls).1.coverLanes a ms keys).Inv :=
    State.coverLanes_inv (State.performSpad_inv h)
  unfold State.spadIssue
  dsimp only
  split
  · exact State.settleTrap_inv h1
  · exact h1

theorem State.ordGate_inv {w : Weft} {p : Pfx} {empty : Bool} {k : State → State} (h : s.Inv) (hk : (k s).Inv) :
    (s.ordGate w p empty k).Inv := by
  unfold State.ordGate
  split
  · exact State.release_inv h hk
  · exact State.ite_inv (State.fullFence_inv h hk) (State.release_inv h hk)
  · exact State.ite_inv (State.fenceAcq_inv h hk) hk
  · exact hk

theorem memGroup_inv {p : Pfx} {uses : List Use} {spad writes : Bool} {mk : State → Weft → Plan → Access}
    {range : Weft → Option (Nat × Nat)} (h : s.Inv) : (memGroup s p uses spad writes mk range).Inv := by
  refine issue_inv h fun w g => State.ite_inv (State.ordGate_inv h h) (State.ordGate_inv h ?_)
  exact State.ite_inv h (State.ite_inv (State.spadIssue_inv h) (State.ite_inv h (State.ite_inv h (State.startAccess_inv h))))

/-! ### Knots -/

theorem State.setKnot_inv {key : Nat} {k : Knot} (h : s.Inv) : (s.setKnot key k).Inv := State.writeBytes_inv h

theorem State.knotTrap_inv {w : Weft} {m : W64} {d : Nat} (h : s.Inv) : (s.knotTrap w m d).Inv := State.trapF_inv h

theorem State.onKnot_inv {w : Weft} {m : W64} {ea : Nat} {f : Nat → Knot → State} (h : s.Inv) (hf : ∀ key k, (f key k).Inv) :
    (s.onKnot w m ea f).Inv := by
  unfold State.onKnot
  split
  · exact State.knotTrap_inv h
  · exact State.ite_inv (State.trapF_inv h) (hf _ _)

theorem execKinit_inv {p : Pfx} {a b : Opnd} (h : s.Inv) : (execKinit p a b s).Inv :=
  issue_inv h fun _ _ => State.ite_inv h (State.onKnot_inv h fun _ _ =>
    State.ite_inv (State.knotTrap_inv h) (State.ite_inv (State.knotTrap_inv h) (State.setKnot_inv (State.popUses_inv h))))

theorem execKarrive_inv {p : Pfx} {a : Opnd} (h : s.Inv) : (execKarrive p a s).Inv := by
  refine issue_inv h fun w g => State.ite_inv (State.release_inv h h) ?_
  split
  · exact State.knotTrap_inv h
  · refine State.ite_inv h (State.release_inv h (State.onKnot_inv h fun key k => ?_))
    exact State.ite_inv (State.knotTrap_inv h) (State.ite_inv (State.knotTrap_inv h) (State.setKnot_inv h))

theorem execKexpect_inv {p : Pfx} {a b : Opnd} (h : s.Inv) : (execKexpect p a b s).Inv :=
  issue_inv h fun _ _ => State.ite_inv h (State.onKnot_inv h fun _ _ =>
    State.ite_inv (State.knotTrap_inv h) (State.ite_inv (State.knotTrap_inv h) (State.setKnot_inv (State.popUses_inv h))))

theorem execKwait_inv {p : Pfx} {d a b : Opnd} (h : s.Inv) : (execKwait p d a b s).Inv :=
  issue_inv h fun _ _ => State.ite_inv (State.fenceAcq_inv h h) (State.onKnot_inv h fun _ _ =>
    State.ite_inv (State.knotTrap_inv h) (State.ite_inv h (writeS_inv (State.popUses_inv h))))

theorem execKtest_inv {p : Pfx} {d a : Opnd} (h : s.Inv) : (execKtest p d a s).Inv :=
  issue_inv h fun _ _ => State.ite_inv h (State.onKnot_inv h fun _ _ => writeS_inv h)

theorem State.failWaiters_inv {key : Nat} (h : s.Inv) : (s.failWaiters key).Inv := by
  refine State.foldl_inv (fun t w ht => ?_) _ h
  split
  · exact State.ite_inv (State.knotTrap_inv ht) ht
  · exact ht

theorem execKinval_inv {p : Pfx} {a : Opnd} (h : s.Inv) : (execKinval p a s).Inv :=
  issue_inv h fun w _ => State.ite_inv h (State.onKnot_inv h fun _ _ =>
    State.ite_inv (State.knotTrap_inv h) (State.ite_inv (State.knotTrap_inv h)
      (State.failWaiters_inv (State.setKnot_inv (s := s.setWeft (w.commit p false)) h))))

/-! ### The shuttle -/

theorem State.reserveToken_inv {team q : Nat} {tok : Option W64} (h : s.Inv) : (s.reserveToken team q tok).Inv := by
  unfold State.reserveToken
  split <;> exact h

theorem State.pushToken_inv {team q status : Nat} {tok : Option W64} (h : s.Inv) : (s.pushToken team q tok status).Inv := by
  unfold State.pushToken
  split <;> exact h

theorem State.acceptCmd_inv {w : Weft} {c : EngCmd} {cnt q : Nat} (h : s.Inv) : (s.acceptCmd w c cnt q).Inv := by
  unfold State.acceptCmd
  exact State.reserveToken_inv h

theorem shuttleOp_inv {op : Nat} {p : Pfx} {d a : Opnd} {b : Option Opnd} (h : s.Inv) : (shuttleOp op p d a b s).Inv := by
  refine issue_inv h fun w g => ?_
  dsimp only
  split
  · exact h
  · refine State.ite_inv h (State.ite_inv h (State.ite_inv h (State.ite_inv h (State.ite_inv h (State.ite_inv h ?_)))))
    split
    · exact State.trapF_inv h
    · exact State.ite_inv (State.acceptCmd_inv (s := s.debit _ _) h) (State.acceptCmd_inv (s := s.debit _ _) h)

theorem execShcopyCollectiveStart_inv {team n : Nat} (h : s.Inv) : (execShcopyCollectiveStart team n s).Inv := Res.ite_inv h h

theorem State.engineFlush_inv {c : EngCmd} (h : s.Inv) : (s.engineFlush c).Inv := State.flushCore_inv h

theorem execShuttleStart_inv {id : Nat} (h : s.Inv) : (execShuttleStart id s).Inv := by
  unfold execShuttleStart
  split
  · exact h
  · refine Res.ite_inv h (Res.ite_inv (State.engineFlush_inv h) ?_)
    dsimp only
    split
    · exact State.setKnot_inv (s := State.setCmd _ _) h
    · exact h

theorem State.engByte_inv {c : EngCmd} {spad host : Bool} {va : Nat} {ask : Ask} (h : s.Inv) : (s.engByte c spad host va ask).1.Inv := by
  unfold State.engByte
  refine State.pair_ite_inv h ?_
  split
  · split <;> exact h
  · split <;> have h1 := State.snd_inv ‹s.translate _ _ _ _ = _› (State.translate_inv h)
    · exact State.ite_inv (State.openUnit_getD_inv h1) h1
    · exact h1

theorem State.engRead_inv {c : EngCmd} {x : Nat} (h : s.Inv) : (s.engRead c x).1.Inv := by
  unfold State.engRead
  refine State.pair_ite_inv h ?_
  dsimp only
  split
  · split <;> exact h
  · split <;> have h1 := State.fst_inv ‹s.engByte _ _ _ _ _ = _› (State.engByte_inv h)
    · exact State.pair_ite_inv h1 h1
    · exact h1

theorem State.planSector_inv {c : EngCmd} {xs : List Nat} {acc : SecPlan} (h : s.Inv) : (s.planSector c xs acc).1.Inv := by
  induction xs generalizing s acc with
  | nil => exact h
  | cons x r ih =>
    unfold State.planSector
    split <;> have h1 := State.fst_inv ‹s.engRead c x = _› (State.engRead_inv h)
    · exact ih h1
    · dsimp only
      split
      · exact ih h1
      · split <;> exact ih (State.fst_inv ‹State.engByte _ _ _ _ _ _ = _› (State.engByte_inv h1))

theorem State.engPacket_inv {id key : Nat} {gm : BitVec 8} {op : FabOp} {bytes : List (Nat × Byte × Nat)} (h : s.Inv) :
    (s.engPacket id key gm op bytes).Inv := by
  unfold State.engPacket
  split
  · exact h
  · dsimp only
    split <;> exact h

theorem State.engRecords_inv {c : EngCmd} {es : List EngErr} (h : s.Inv) : (s.engRecords c es).1.Inv := by
  induction es generalizing s c with
  | nil => exact h
  | cons e r ih =>
    unfold State.engRecords
    exact State.pair_ite_inv (ih h) (ih (State.writeRecord_inv h))

theorem State.engErrors_inv {c : EngCmd} {sector : Nat} {errs : List EngErr} (h : s.Inv) : (s.engErrors c sector errs).1.Inv := by
  unfold State.engErrors
  split <;> exact State.engRecords_inv h

theorem State.endSector_inv {c : EngCmd} {sector : Nat} (h : s.Inv) : (s.endSector c sector).Inv := by
  unfold State.endSector
  refine State.ite_inv (State.ite_inv h h) ?_
  split
  · exact State.setKnot_inv (s := State.setCmd _ _) h
  · exact h

theorem State.countLines_inv {places : List (Nat × Bool)} (h : s.Inv) : (s.countLines places).Inv :=
  State.foldl_inv (fun _ _ ht => State.countLine_inv ht) _ h

theorem State.coverSectors_inv {c : EngCmd} {sector : Nat} (h : s.Inv) : (s.coverSectors c sector).Inv := State.ite_inv h h

theorem State.runSector_inv {c : EngCmd} {sector : Nat} (h : s.Inv) : (s.runSector c sector).Inv := by
  unfold State.runSector
  have h1 {cells : List Host.Cell} {places : List (Nat × Bool)} {c1 c2 : EngCmd} {errs : List EngErr} {acc : SecPlan} :
      ((((((s.planSector c (c.secBytes sector) acc).1.chanWrite cells c.step).countLines places).engErrors c1 sector errs).1).coverSectors
        c2 sector).Inv :=
    State.coverSectors_inv (State.engErrors_inv (State.countLines_inv (State.chanWrite_inv (State.planSector_inv h))))
  refine State.ite_inv h (State.ite_inv (State.endSector_inv h1) ?_)
  exact State.foldl_inv (fun _ _ ht => State.engPacket_inv ht) _ (s := State.setCmd _ _) h1

theorem execSectorPerformed_inv {id sector : Nat} (h : s.Inv) : (execSectorPerformed id sector s).Inv := by
  unfold execSectorPerformed
  split
  · exact h
  · refine Res.ite_inv h (Res.ite_inv ?_ (Res.ite_inv (State.runSector_inv h) (State.endSector_inv (State.engErrors_inv h))))
    exact State.foldl_inv (fun _ _ ht => State.engPacket_inv ht) _ (s := State.setCmd _ _) h

theorem State.endCmd_inv {c : EngCmd} {cnt q : Nat} {tokenFirst : Bool} (h : s.Inv) : (s.endCmd c cnt q tokenFirst).Inv := by
  unfold State.endCmd
  refine State.ite_inv ?_ (State.pushToken_inv ?_)
  · dsimp only
    split <;> exact State.pushToken_inv h
  · dsimp only
    split <;> exact h

theorem execShuttleComplete_inv {id : Nat} (h : s.Inv) : (execShuttleComplete id s).Inv := by
  unfold execShuttleComplete
  split
  · exact h
  · refine Res.ite_inv h (State.endCmd_inv ?_)
    split
    · exact State.ite_inv (State.writeBytes_inv h) h
    · exact h

/-! ### The matrix engine -/

theorem State.writeTile_inv {key n : Nat} {els : List Nat} (h : s.Inv) : (s.writeTile key n els).Inv := State.writeBytes_inv h

theorem matOp_inv {op n : Nat} {p : Pfx} {d a : Opnd} (h : s.Inv) : (matOp op n p d a s).Inv := by
  refine issue_inv h fun w g => ?_
  have pay {t : State} {c : Prop} [Decidable c] {core n : Nat} (ht : t.Inv) : (if c then t else t.debitAs true core n).Inv :=
    State.ite_inv ht ht
  dsimp only
  split
  · exact h
  · refine State.ite_inv h (State.ite_inv h (State.ite_inv h (State.ite_inv h (State.ite_inv (pay h) ?_))))
    split
    · exact State.trapF_inv h
    · exact State.reserveToken_inv (pay (t := { s with nextId := s.nextId + 1 }) h)

theorem execMcfg_inv {p : Pfx} {a : Opnd} (h : s.Inv) : (execMcfg p a s).Inv := by
  refine issue_inv h fun w g => ?_
  dsimp only
  split
  · exact h
  · exact State.ite_inv h (State.ite_inv h (State.ite_inv h (State.ite_inv (State.trapF_inv h) h)))

theorem State.matStep_inv {t : Team} {m : MatCmd} (h : s.Inv) : (s.matStep t m).1.Inv := by
  unfold State.matStep
  dsimp only
  split <;> exact State.writeTile_inv h

theorem execMatrixKstep_inv {team : Nat} (h : s.Inv) : (execMatrixKstep team s).Inv := by
  unfold execMatrixKstep
  split
  · exact h
  · split
    · exact h
    · exact Res.ite_inv h (Res.ite_inv h (State.matStep_inv (State.ite_inv h h)))

theorem execMatrixComplete_inv {team : Nat} (h : s.Inv) : (execMatrixComplete team s).Inv := by
  unfold execMatrixComplete
  split
  · exact h
  · split
    · exact h
    · refine Res.ite_inv h (State.pushToken_inv ?_)
      split <;> exact h

end Sys2Proof.Machine
end

section
/-! SUPPORT of O60. Canonical memory: tasks, system instructions, debugging, power and command queues. -/

namespace Sys2Proof.Machine
variable {s : State}

/-! ### Tasks of the itinerary -/

theorem State.writeStatus_inv (h : s.Inv) : s.writeStatus.Inv := by
  unfold State.writeStatus
  refine State.ite_inv ?_ (State.getD_inv (fun _ => State.hostPut_inv (s := { s with itin := _ }) h) h)
  split
  · exact State.vaWrite_getD_inv (s := { s with itin := _ }) h
  · exact h

theorem State.itinError_inv {code entry : Nat} (h : s.Inv) : (s.itinError code entry).Inv := by
  unfold State.itinError
  exact State.ite_inv (State.writeStatus_inv h) h

theorem State.sendControl_inv {core peer va v : Nat} {slot : Option Nat} {add : Bool} (h : s.Inv) :
    (s.sendControl core slot peer va add v).Inv := by
  unfold State.sendControl
  dsimp only
  split
  · split
    · exact State.weftEvent_inv (State.itinError_inv h)
    · exact State.itinError_inv h
  · exact h

theorem State.postSlot_inv {core kind q : Nat} {slot : Option Nat} (h : s.Inv) : (s.postSlot core slot kind q).Inv :=
  State.ite_inv (State.sendControl_inv h) (State.sendControl_inv h)

theorem State.fillPosts_inv {k : Task} {n j : Nat} (h : s.Inv) : (s.fillPosts k n j).Inv := by
  induction n generalizing s j with
  | zero => exact h
  | succ n ih =>
    unfold State.fillPosts
    exact ih (State.postSlot_inv (s := s) h)

theorem State.returnCredits_inv {k : Task} (h : s.Inv) : (s.returnCredits k).Inv := by
  unfold State.returnCredits
  have h1 {c : Prop} [Decidable c] {peer va : Nat} : (if c then s.sendControl ctlCore none peer va true 1 else s).Inv :=
    State.ite_inv (State.sendControl_inv h) h
  exact State.ite_inv (State.sendControl_inv h1) h1

theorem State.retireTask_inv {k : Task} (h : s.Inv) : (s.retireTask k).Inv := by
  unfold State.retireTask
  exact State.returnCredits_inv (State.fillPosts_inv h)

theorem State.settleTask_inv {l : Launch} (h : s.Inv) : (s.settleTask l).Inv := by
  unfold State.settleTask
  have h0 {c : Prop} [Decidable c] : (if c then s.answerNext l 0 else s).Inv := State.ite_inv h h
  refine State.ite_inv h0 ?_
  have h1 {t : State} (ht : t.Inv) : (match l.task with
      | none => t
      | some k => State.setLaunch (match t.itin.tasks.find? fun (x : Task) => x.slot == k && x.serial == l.serial with
          | some x => t.retireTask x
          | none => t) { l with task := none }).Inv := by
    split
    · exact ht
    · split
      · exact State.retireTask_inv ht
      · exact ht
  dsimp only
  split
  · exact h1 h0
  · exact State.ite_inv (h1 h0) (State.ite_inv (h1 h0) (h1 h0))

theorem State.taskOf_inv {w : Weft} (h : s.Inv) : (s.taskOf w).Inv := by
  unfold State.taskOf
  split
  · exact State.settleTask_inv h
  · exact h

/-! ### System instructions -/

theorem execBare_inv {p : Pfx} {f : State → Weft → State} (h : s.Inv) (hf : ∀ (t : State) w, t.Inv → (f t w).Inv) :
    (execBare s p f).Inv := execWide_inv h fun _ _ _ ht => hf _ _ ht

theorem execNop_inv {p : Pfx} (h : s.Inv) : (execNop p s).Inv := execBare_inv h fun _ _ ht => ht

theorem execBrk_inv {p : Pfx} {b : BitVec 7} (h : s.Inv) : (execBrk p b s).Inv :=
  issue_inv h fun _ _ => State.ite_inv h (State.ite_inv h (State.trapNext_inv h))

theorem State.leave_inv {w : Weft} (h : s.Inv) : (s.leave w).Inv := by
  unfold State.leave
  refine State.taskOf_inv ?_
  split <;> exact h

theorem execExit_inv {p : Pfx} (h : s.Inv) : (execExit p s).Inv :=
  execBare_inv h fun _ _ ht => State.release_inv ht (State.leave_inv ht)

theorem execTret_inv {p : Pfx} (h : s.Inv) : (execTret p s).Inv := by
  unfold execTret
  split
  · exact Res.ite_inv (execBare_inv h fun _ _ ht => State.tret_inv ht) (State.tret_inv h)
  · trivial

theorem execYield_inv {p : Pfx} (h : s.Inv) : (execYield p s).Inv := execBare_inv h fun _ _ ht => ht

theorem execTrig_inv {p : Pfx} (h : s.Inv) : (execTrig p s).Inv := execBare_inv h fun _ _ ht => State.release_inv ht ht

theorem execRgn_inv {p : Pfx} (h : s.Inv) : (execRgn p s).Inv := execBare_inv h fun _ _ ht => ht

theorem execIfence_inv {p : Pfx} (h : s.Inv) : (execIfence p s).Inv := execBare_inv h fun _ _ ht => State.fenceAcq_inv ht ht

theorem execWin_inv {p : Pfx} {b : BitVec 7} (h : s.Inv) : (execWin p b s).Inv :=
  execBare_inv h fun _ _ ht => State.ite_inv (State.trapF_inv ht) ht

theorem execSleep_inv {p : Pfx} {a : Opnd} (h : s.Inv) : (execSleep p a s).Inv := execWide_inv h fun _ _ _ ht => ht

theorem execGetsr_inv {p : Pfx} {d : Opnd} {b : BitVec 7} (h : s.Inv) : (execGetsr p d b s).Inv :=
  Res.ite_inv (execLanes_inv h) (execScalar_inv h)

theorem execSetsr_inv {p : Pfx} {a : Opnd} {b : BitVec 7} (h : s.Inv) : (execSetsr p a b s).Inv :=
  issue_inv h fun _ _ => State.ite_inv h (State.popUses_inv h)

theorem execTrap_inv {p : Pfx} {i : BitVec 12} (h : s.Inv) : (execTrap p i s).Inv :=
  issue_inv h fun _ _ => State.ite_inv h (State.trapNext_inv h)

theorem execVlset_inv {p : Pfx} {d a b : Opnd} (h : s.Inv) : (execVlset p d a b s).Inv := by
  refine issue_inv h fun w g => ?_
  have h1 {c : Prop} [Decidable c] {us : List Use} :
      (if c then s.debit w.core (quarters g.m) else (s.debit w.core (quarters g.m)).popUses w g.m us).Inv :=
    State.ite_inv h (State.popUses_inv h)
  exact State.ite_inv h (State.ite_inv h1 h1)

theorem vec1_inv {p : Pfx} {d a : Opnd} {f : VVal → VVal} (h : s.Inv) : (vec1 p d a f s).Inv := execVec_inv h

theorem vec2_inv {p : Pfx} {d a b : Opnd} {f : VVal → VVal → VVal} (h : s.Inv) : (vec2 p d a b f s).Inv := execVec_inv h

theorem vec3_inv {p : Pfx} {d a b : Opnd} {f : VVal → VVal → VVal → VVal} (h : s.Inv) : (vec3 p d a b f s).Inv := execVec_inv h

theorem execVshape_inv {p : Pfx} {d a : Opnd} (h : s.Inv) : (execVshape p d a s).Inv := by
  unfold execVshape
  exact Res.ite_inv (vec1_inv h) (execVec_inv h)

theorem execXset_inv {p : Pfx} {d a : Opnd} (h : s.Inv) : (execXset p d a s).Inv :=
  issue_inv h fun _ _ => State.ite_inv h (State.ite_inv (State.trapF_inv h) (State.popUses_inv h))

theorem xWrite_inv {p : Pfx} {d a : Opnd} {f : BitVec 8 → BitVec 8 → BitVec 8} (h : s.Inv) : (xWrite p d a f s).Inv :=
  issue_inv h fun _ _ => State.ite_inv h (State.popUses_inv h)

theorem execXclr_inv {p : Pfx} {d : Opnd} (h : s.Inv) : (execXclr p d s).Inv := issue_inv h fun _ _ => h

/-! ### Backing out and pre-emption -/

theorem State.backOut_inv {w : Weft} (h : s.Inv) : (s.backOut w).1.Inv := by
  unfold State.backOut
  dsimp only
  split
  · exact h
  · split <;> exact h

theorem State.stopWeft_inv {w : Weft} (h : s.Inv) : (s.stopWeft w).Inv := State.backOut_inv (s := s) h

theorem State.stopWefts_inv {c : Nat} (h : s.Inv) : (s.stopWefts c).Inv :=
  State.foldl_inv (fun _ _ ht => State.stopWeft_inv ht) _ (State.rewalk_inv h)

theorem State.startPreempt_inv {c : Nat} {r : PreReason} (h : s.Inv) : (s.startPreempt c r).Inv := by
  unfold State.startPreempt
  exact State.ite_inv h (State.stopWefts_inv h)

theorem State.returnToken_inv {team q : Nat} {tok : Option W64} (h : s.Inv) : (s.returnToken team q tok).Inv := by
  unfold State.returnToken
  split <;> exact h

theorem State.abandonCmd_inv {c : EngCmd} (h : s.Inv) : (s.abandonCmd c).Inv := by
  unfold State.abandonCmd
  refine State.returnToken_inv ?_
  split
  · exact State.setKnot_inv h
  · exact h

theorem State.abandonMats_inv {w : Weft} (h : s.Inv) : (s.abandonMats w).Inv := by
  unfold State.abandonMats
  split
  · exact State.foldl_inv (fun _ _ ht => State.returnToken_inv ht) _ h
  · exact h

theorem State.discardOps_inv {w : Weft} (h : s.Inv) : (s.discardOps w).Inv :=
  State.abandonMats_inv (State.foldl_inv (fun _ _ ht => State.abandonCmd_inv ht) _ h)

/-! ### The debugger -/

theorem execAttach_inv {c : Nat} (h : s.Inv) : (execAttach c s).Inv := State.ite_inv h h

theorem State.haltWeft_inv {w : Weft} (h : s.Inv) : (s.haltWeft w).Inv := State.ite_inv h (State.backOut_inv h)

theorem State.haltDue_inv (h : s.Inv) : s.haltDue.Inv := State.foldl_inv (fun _ _ ht => State.haltWeft_inv ht) _ h

theorem execDebugHalt_inv {t : DebugTarget} (h : s.Inv) : (execDebugHalt t s).Inv :=
  State.ite_inv (State.foldl_inv (fun _ _ ht => State.haltWeft_inv ht) _ h) h

theorem State.pokeQueue_inv {w : Weft} {q i : Nat} {v : W64} (h : s.Inv) : (s.pokeQueue w q i v).Inv := by
  unfold State.pokeQueue
  split
  · split
    · exact State.ite_inv h h
    · exact h
  · exact h
  · exact h
  · exact h

theorem execDebugRead_inv {core : DebugCore} {slot : Nat} {w : DebugPlace} (h : s.Inv) : (execDebugRead core slot w s).Inv := by
  unfold execDebugRead
  split <;> exact h

theorem execDebugWrite_inv {core : DebugCore} {slot : Nat} {w : DebugPlace} {v : BitVec 64} (h : s.Inv) :
    (execDebugWrite core slot w v s).Inv := by
  unfold execDebugWrite
  split
  · exact h
  · split
    · exact State.pokeQueue_inv h
    · exact h

/-! ### Power -/

theorem State.noteCap_inv {old : Nat} (h : s.Inv) : (s.noteCap old).Inv := State.ite_inv h h

theorem State.withPower_inv {x : Power} (h : s.Inv) : State.Inv { s with power := x } := h

theorem execPstepAccept_inv {v : BitVec 3} (h : s.Inv) : (execPstepAccept v s).Inv :=
  State.ite_inv h (State.ite_inv (State.noteCap_inv h) h)

theorem execCapWrite_inv {off : Nat} {v : BitVec 64} (h : s.Inv) : (execCapWrite off v s).Inv := by
  have hn {x : Power} {old : Nat} : (State.noteCap { s with power := x } old).Inv := State.noteCap_inv (State.withPower_inv h)
  exact State.ite_inv h (State.ite_inv hn (State.ite_inv hn (State.ite_inv hn h)))

theorem execOpGlideComplete_inv {rail : Nat} (h : s.Inv) : (execOpGlideComplete rail s).Inv := by
  refine State.ite_inv h ?_
  split <;> exact h

theorem State.alerts_inv {l : List (Bool × Nat)} (h : s.Inv) : (s.alerts l).Inv :=
  State.foldl_inv (fun _ _ ht => State.ite_inv (State.alert_inv ht) ht) _ h

theorem State.pfailStop_inv (h : s.Inv) : s.pfailStop.Inv := by
  refine State.foldl_inv (fun t w ht => ?_) _ h
  exact State.backOut_inv ht

theorem State.startPfail_inv (h : s.Inv) : s.startPfail.Inv := by
  unfold State.startPfail
  exact State.alert_inv (State.pfailStop_inv (s := s) h)

theorem State.powerFails_inv (h : s.Inv) : s.powerFails.Inv := State.ite_inv h (State.ite_inv (State.startPfail_inv h) h)

theorem execRailFault_inv {rail : Nat} (h : s.Inv) : (execRailFault rail s).Inv :=
  State.ite_inv h (State.ite_inv (State.unpowered_inv h) (State.ite_inv (State.ite_inv h h)
    (State.ite_inv (State.ite_inv (State.startPfail_inv h) (State.startPfail_inv h)) (State.ite_inv h (State.bootFail_inv h)))))

theorem State.landAll_inv {l : List Access} (h : s.Inv) : (s.landAll l).Inv := by
  refine State.foldl_inv (fun t a ht => ?_) _ h
  exact State.performLanes_inv ht

theorem execHamperAcceptanceClose_inv (h : s.Inv) : (execHamperAcceptanceClose s).Inv := State.ite_inv (State.landAll_inv h) h

theorem execHamperDrained_inv (h : s.Inv) : (execHamperDrained s).Inv := State.ite_inv (State.drainHampers_inv h) h

theorem execSealRecordWrite_inv (h : s.Inv) : (execSealRecordWrite s).Inv := State.ite_inv h h

theorem State.l2One_inv {c : Nat} (h : s.Inv) : (s.l2One c).Inv := by
  unfold State.l2One
  exact State.ite_inv h h

theorem execLevel2Save_inv (h : s.Inv) : (execLevel2Save s).Inv := by
  unfold execLevel2Save
  dsimp only
  split
  · exact State.ite_inv h h
  · split
    · exact State.l2One_inv h
    · exact h
  · exact h

theorem execControlInterval_inv {m : Telemetry} (h : s.Inv) : (execControlInterval m s).Inv := by
  unfold execControlInterval
  refine Res.ite_inv (State.ite_inv (State.powerFails_inv (State.withPower_inv h)) h) ?_
  have h1 {x : Power} {l : List (Bool × Nat)} : (State.alerts { s with power := x } l).Inv := State.alerts_inv (State.withPower_inv h)
  have h2 {c : Prop} [Decidable c] {x : Power} {l : List (Bool × Nat)} {cs : List Nat} :
      (if c then cs.foldl (fun t c => t.startPreempt c .device) (State.alerts { s with power := x } l)
        else State.alerts { s with power := x } l).Inv :=
    State.ite_inv (State.foldl_inv (fun _ _ ht => State.startPreempt_inv ht) _ h1) h1
  have h3 {c : Prop} [Decidable c] {t : State} {i : Instr} (ht : t.Inv) : (if c then t.post i else t).Inv := State.ite_inv ht ht
  exact State.ite_inv (State.startPfail_inv (State.withPower_inv (h3 h2))) (h3 h2)

theorem execStepLeave_inv (h : s.Inv) : (execStepLeave s).Inv := State.ite_inv h h

theorem execThermalTripRelease_inv {m : Telemetry} (h : s.Inv) : (execThermalTripRelease m s).Inv := State.ite_inv h h

/-! ### Command queues -/

theorem State.setQueue_inv {c q : Nat} {x : Queue} (h : s.Inv) : (s.setQueue c q x).Inv := State.ite_inv h h

theorem execDoorbell_inv {c q : Nat} {w : BitVec 32} (h : s.Inv) : (execDoorbell c q w s).Inv := by
  have refuse {c' : Prop} [Decidable c'] {x : Queue} : (if c' then s else s.setQueue c q x).Inv := State.ite_inv h (State.setQueue_inv h)
  exact State.ite_inv h (State.ite_inv refuse (State.ite_inv refuse (State.ite_inv h (State.ite_inv refuse (State.setQueue_inv h)))))

theorem execErrClear_inv {c q : Nat} {v : BitVec 8} (h : s.Inv) : (execErrClear c q v s).Inv :=
  State.ite_inv h (State.ite_inv (State.setQueue_inv h) (State.setQueue_inv h))

theorem State.stopQueue_inv {c q code : Nat} (h : s.Inv) : (s.stopQueue c q code).Inv := by
  unfold State.stopQueue
  exact State.emit_inv (State.setQueue_inv h)

theorem State.failRec_inv {c q code : Nat} {k : Cmd} (h : s.Inv) : (s.failRec c q k code).Inv := by
  unfold State.failRec
  have h1 {x : Queue} {o : Out} : (((s.setQueue c q x).stopQueue c q code).emit o).Inv :=
    State.emit_inv (State.stopQueue_inv (State.setQueue_inv h))
  exact State.ite_inv (State.setCtx_inv h1) h1

theorem State.failCmd_inv {c q id code : Nat} (h : s.Inv) : (s.failCmd c q id code).Inv := by
  unfold State.failCmd
  dsimp only
  split
  · exact State.failRec_inv h
  · exact h

theorem State.completionWord_inv {c : Nat} {k : Cmd} {t : State} (h : s.Inv) (e : s.completionWord c k = some t) : t.Inv := by
  unfold State.completionWord at e
  dsimp only at e
  split at e
  · cases e; exact h
  · split at e
    · split at e
      · exact State.vaWrite_inv h e
      · split at e
        · exact State.vaWrite_inv (State.noteRead_inv h) e
        · cases e
    · split at e
      · cases e
      · exact State.hostPut_inv h e

theorem State.post_inv {i : Instr} (h : s.Inv) : (s.post i).Inv := h

theorem State.retestAll_inv (h : s.Inv) : s.retestAll.Inv := State.foldl_inv (fun _ _ ht => State.post_inv ht) _ h

theorem State.completeCmd_inv {c q id : Nat} (h : s.Inv) : (s.completeCmd c q id).Inv := by
  unfold State.completeCmd
  dsimp only
  split
  · exact h
  · refine State.ite_inv h ?_
    split
    · exact State.emit_inv (State.stopQueue_inv (State.setQueue_inv h))
    · have h2 := State.completionWord_inv (State.setQueue_inv h) ‹_›
      have h3 {c : Prop} [Decidable c] {o : Out} := State.ite_inv (c := c) (State.emit_inv (o := o) h2) h2
      exact State.ite_inv h3 (State.retestAll_inv h3)

theorem State.noteRecord_inv {c : Nat} {x : Queue} (h : s.Inv) : (s.noteRecord c x).Inv := State.ite_inv (State.noteRead_inv h) h

theorem execRecordFetch_inv {c q : Nat} (h : s.Inv) : (execRecordFetch c q s).Inv := by
  refine State.ite_inv h ?_
  have h1 {x y : Queue} {a : Nat} {v : W32} {n : Nat} : State.Inv { ((s.noteRecord c x).setQueue c q y).hostIndex a v with nextId := n } :=
    State.hostIndex_inv (State.setQueue_inv (State.noteRecord_inv h))
  dsimp only
  split
  · exact State.stopQueue_inv h1
  · exact State.ite_inv (State.failRec_inv h1) (State.ite_inv (State.failRec_inv h1) (State.setQueue_inv h1))

theorem State.start_inv {c q : Nat} {is : Cmd → Bool} {f : State → Cmd → State} (h : s.Inv)
    (hf : ∀ (t : State) k, t.Inv → (f t k).Inv) : (s.start c q is f).Inv := by
  unfold State.start
  dsimp only
  split
  · exact h
  · exact State.ite_inv h (State.ite_inv (State.failRec_inv h) (hf (State.turnQueue _ _ _ _) _ h))

theorem State.startOp_inv {c q op : Nat} {f : State → Cmd → State} (h : s.Inv) (hf : ∀ (t : State) k, t.Inv → (f t k).Inv) :
    (s.startOp c q op f).Inv := State.start_inv h hf

theorem State.startSub_inv {c q op sub : Nat} {f : State → Cmd → State} (h : s.Inv) (hf : ∀ (t : State) k, t.Inv → (f t k).Inv) :
    (s.startSub c q op sub f).Inv := State.start_inv h hf

theorem execLaunch_inv {c q : Nat} (h : s.Inv) : (execLaunch c q s).Inv := by
  refine State.startOp_inv h fun t k ht => ?_
  dsimp only
  split
  · exact State.failCmd_inv ht
  · exact State.ite_inv (State.failCmd_inv (State.noteRead_inv ht)) (State.enterLaunch_inv (State.noteRead_inv ht))

theorem execSignal_inv {c q : Nat} (h : s.Inv) : (execSignal c q s).Inv := State.startOp_inv h fun _ _ ht => State.completeCmd_inv ht

theorem State.judgeWaitv_inv {c q : Nat} {k : Cmd} {x : W64} (h : s.Inv) : (s.judgeWaitv c q k x).Inv :=
  State.ite_inv (State.completeCmd_inv h) h

theorem State.askWaitv_inv {c q : Nat} {k : Cmd} (h : s.Inv) : (s.askWaitv c q k).Inv :=
  State.ite_inv h (State.ite_inv (State.failCmd_inv h) (State.sendPacket_inv h))

theorem State.testWaitv_inv {c q : Nat} {k : Cmd} (h : s.Inv) : (s.testWaitv c q k).Inv := by
  unfold State.testWaitv
  refine State.ite_inv (State.askWaitv_inv h) ?_
  split
  · exact State.failCmd_inv h
  · exact State.judgeWaitv_inv (State.noteRead_inv h)

theorem execWaitv_inv {c q : Nat} (h : s.Inv) : (execWaitv c q s).Inv := State.startOp_inv h fun _ _ ht => State.testWaitv_inv ht

theorem execWaitvRetest_inv {c q : Nat} (h : s.Inv) : (execWaitvRetest c q s).Inv := by
  unfold execWaitvRetest
  split
  · exact State.ite_inv (State.testWaitv_inv h) h
  · exact h

theorem execCopy_inv {c q : Nat} (h : s.Inv) : (execCopy c q s).Inv := by
  unfold execCopy
  split
  · exact State.ite_inv (State.completeCmd_inv h) (State.failCmd_inv h)
  · exact State.startOp_inv h fun _ _ ht => ht

theorem State.fence_inv {c : Nat} {k : Cmd} (h : s.Inv) : (s.fence c k).Inv := by
  unfold State.fence
  exact State.ite_inv (State.foldl_inv (fun _ _ ht => State.rewalk_inv ht) _ (s := s.dropRange _ _ _ _) h)
    (State.rewalk_inv (s := s.dropRange _ _ _ _) h)

theorem State.startMap_inv {c q : Nat} {k : Cmd} (h : s.Inv) : (s.startMap c q k).Inv := by
  unfold State.startMap
  exact State.setQueue_inv (s := s.dropRange _ _ _ _) h

theorem State.mapOp_inv {c q op : Nat} (h : s.Inv) : (s.mapOp c q op).Inv := by
  unfold State.mapOp
  split
  · exact State.ite_inv (State.completeCmd_inv (State.fence_inv h)) h
  · exact State.startOp_inv h fun _ _ ht => State.ite_inv (State.completeCmd_inv (State.fence_inv ht)) (State.startMap_inv ht)

theorem execResume_inv {c q : Nat} (h : s.Inv) : (execResume c q s).Inv :=
  State.startOp_inv h fun t _ ht => State.completeCmd_inv (s := t.resumeWhere _ _) ht

theorem execFqReadIndex_inv {c : Nat} {v : BitVec 32} (h : s.Inv) : (execFqReadIndex c v s).Inv :=
  State.ite_inv h (State.pumpRecords_inv h)

end Sys2Proof.Machine
end

section
/-! SUPPORT of O60. Canonical memory: contexts, the fabric, the host link, placement, the itinerary and snapshots. -/

namespace Sys2Proof.Machine
variable {s : State}

/-! ### Contexts -/

theorem State.loadQueues_inv {c : Nat} {d : CtxDesc} {f : Queue → Queue} (h : s.Inv) : (s.loadQueues c d f).Inv :=
  State.foldl_inv (fun _ _ ht => State.setQueue_inv ht) _ h

theorem State.adoptL2_inv {c : Nat} (h : s.Inv) : (s.adoptL2 c).Inv := by
  unfold State.adoptL2
  split <;> exact h

theorem State.createCtx_inv {c : Nat} {d : CtxDesc} (h : s.Inv) : (s.createCtx c d).Inv := by
  unfold State.createCtx
  exact State.adoptL2_inv (State.loadQueues_inv (State.setCtx_inv h))

theorem execContext0Create_inv (h : s.Inv) : (execContext0Create s).Inv := by
  refine State.ite_inv h ?_
  split
  · exact State.createCtx_inv h
  · exact State.setCtx_inv h

theorem State.ctxOp_inv {c q sub : Nat} {f : State → Cmd → Nat → State} (h : s.Inv)
    (hf : ∀ (t : State) k n, t.Inv → (f t k n).Inv) :
    (s.ctxOp c q sub f).Inv :=
  State.startSub_inv h fun _ _ ht => State.ite_inv (State.failCmd_inv ht) (hf _ _ _ ht)

theorem execCtxCreate_inv {c q : Nat} (h : s.Inv) : (execCtxCreate c q s).Inv := by
  refine State.ctxOp_inv h fun t k n ht => State.ite_inv (State.failCmd_inv ht) ?_
  split
  · exact State.failCmd_inv ht
  · exact State.completeCmd_inv (State.createCtx_inv ht)

theorem State.awaitCtx_inv {t c q id : Nat} (h : s.Inv) : (s.awaitCtx t c q id).Inv := State.setCtx_inv h

theorem State.wakeCtx_inv {t : Nat} (h : s.Inv) : (s.wakeCtx t).Inv :=
  State.foldl_inv (fun _ _ ht => State.completeCmd_inv ht) _ (State.setCtx_inv h)

theorem State.wakeDestroyed_inv {t : Nat} (h : s.Inv) : (s.wakeDestroyed t).Inv :=
  State.foldl_inv (fun _ _ ht => State.ite_inv (State.completeCmd_inv ht) (State.failCmd_inv ht)) _ (State.setCtx_inv h)

theorem execCtxDestroy_inv {c q : Nat} (h : s.Inv) : (execCtxDestroy c q s).Inv :=
  State.ctxOp_inv h fun _ _ _ ht => State.ite_inv (State.failCmd_inv ht) (State.ite_inv (State.awaitCtx_inv ht)
    (State.awaitCtx_inv (State.beginTeardown_inv ht)))

theorem execTeardownComplete_inv {c : Nat} (h : s.Inv) : (execTeardownComplete c s).Inv := by
  refine State.ite_inv h ?_
  exact State.wakeDestroyed_inv h

theorem execCtxPreempt_inv {c q : Nat} (h : s.Inv) : (execCtxPreempt c q s).Inv :=
  State.ctxOp_inv h fun _ _ _ ht => State.ite_inv (State.failCmd_inv ht) (State.ite_inv (State.failCmd_inv ht)
    (State.awaitCtx_inv (State.startPreempt_inv ht)))

theorem execTimeSliceExpiry_inv {ctx serial : Nat} (h : s.Inv) : (execTimeSliceExpiry ctx serial s).Inv := by
  unfold execTimeSliceExpiry
  split
  · exact h
  · refine State.ite_inv h ?_
    dsimp only
    split
    · exact State.startPreempt_inv (s := s.setLaunch _) h
    · exact h

theorem execPdlExpiry_inv {core slot : Nat} (h : s.Inv) : (execPdlExpiry core slot s).Inv := by
  unfold execPdlExpiry
  split
  · exact h
  · exact State.ite_inv (State.fatal_inv h) h

theorem State.writeRecs_inv {c : Nat} {base : W64} {l : List ((Nat × Nat) × List Byte)} (h : s.Inv) : (s.writeRecs c base l).Inv := by
  induction l generalizing s with
  | nil => exact h
  | cons x r ih =>
    obtain ⟨p, bs⟩ := x
    unfold State.writeRecs
    exact ih (State.vaWrite_getD_inv h)

theorem State.drainFor_inv {c : Nat} (h : s.Inv) : (s.drainFor c).Inv := State.ite_inv (State.flushComb_inv (State.stopWefts_inv h)) h

theorem State.vacate_inv {c : Nat} (h : s.Inv) : (s.vacate c).Inv := h

theorem execContextSave_inv {c : Nat} (h : s.Inv) : (execContextSave c s).Inv := by
  unfold execContextSave
  have h0 : (if s.up then s.drainFor c else s).Inv := State.ite_inv (State.drainFor_inv h) h
  refine State.ite_inv h0 (State.wakeCtx_inv (State.setCtx_inv (State.vacate_inv (State.vaWrite_getD_inv (State.writeRecs_inv ?_)))))
  exact h0

theorem State.withAllocs_inv {l : List SpadAlloc} (h : s.Inv) : State.Inv { s with allocs := l } := h

theorem State.placeAllocs_inv {l : List SpadAlloc} {t : State} {ps : List (SpadAlloc × SpadAlloc)} (h : s.Inv)
    (e : s.placeAllocs l = some (t, ps)) : t.Inv := by
  induction l generalizing s t ps with
  | nil => unfold State.placeAllocs at e; cases e; exact h
  | cons a r ih =>
    unfold State.placeAllocs at e
    split at e
    · cases e
    · dsimp only at e
      split at e
      · cases e
      · rename_i hr
        cases e
        exact ih (State.withAllocs_inv h) hr

theorem State.restore_inv {c : Nat} {t : State} (h : s.Inv) (e : s.restore c = some t) : t.Inv := by
  unfold State.restore at e
  split at e
  · cases e
  · split at e
    · cases e
    · split at e
      · cases e
      · rename_i hp
        cases e
        exact State.setCtx_inv (State.write_wf _ _ 0 (State.placeAllocs_inv h hp))

theorem execPreemptAutoResume_inv {c : Nat} (h : s.Inv) : (execPreemptAutoResume c s).Inv := by
  refine State.ite_inv h ?_
  split
  · exact State.retestAll_inv (State.wakeCtx_inv (State.restore_inv h ‹_›))
  · exact h

theorem execCtxResume_inv {c q : Nat} (h : s.Inv) : (execCtxResume c q s).Inv := by
  refine State.ctxOp_inv h fun t k n ht => State.ite_inv (State.failCmd_inv ht) (State.ite_inv (State.failCmd_inv ht) ?_)
  split
  · exact State.failCmd_inv ht
  · split
    · exact State.failCmd_inv ht
    · exact State.ite_inv (State.failCmd_inv ht)
        (State.post_inv (State.awaitCtx_inv (State.setCtx_inv (State.loadQueues_inv (State.setCtx_inv ht)))))

/-! ### The fabric -/

theorem State.sendTier_inv {port tier : Nat} (h : s.Inv) : (s.sendTier port tier).Inv := by
  unfold State.sendTier
  split
  · exact h
  · exact h
  · exact h

theorem execStarvationForce_inv {port tier : Nat} (h : s.Inv) : (execStarvationForce port tier s).Inv :=
  State.ite_inv (State.sendTier_inv h) h

theorem State.sendPort_inv {port : Nat} (h : s.Inv) : (s.sendPort port).Inv := by
  unfold State.sendPort
  refine State.ite_inv h ?_
  split
  · exact State.sendTier_inv h
  · exact h

theorem State.sendPorts_inv (h : s.Inv) : s.sendPorts.Inv := State.foldl_inv (fun _ _ ht => State.sendPort_inv ht) _ h

theorem State.closeSent_inv {n src : Nat} {st : LaneSt} (h : s.Inv) : (State.closeSent n s src st).Inv := by
  induction n generalizing s src with
  | zero => exact h
  | succ n ih =>
    unfold State.closeSent
    refine State.foldl_inv (fun t id ht => ?_) _ h
    have h1 {pick : LaneAcc → Bool} : ((t.setLanes id pick st).progress id).Inv := State.progress_inv (State.setLanes_inv ht)
    exact State.ite_inv (ih h1) h1

theorem State.splitFor_inv {k : Packet} {kind level slot : Nat} (h : s.Inv) : (s.splitFor k kind level slot).Inv := by
  unfold State.splitFor
  exact State.writeRecord_inv h

theorem State.answerWrite_inv {k : Packet} {r : FabResult} (h : s.Inv) : (s.answerWrite k r).Inv := by
  unfold State.answerWrite
  dsimp only
  split
  · exact State.closeSent_inv h
  · split
    · exact State.closeSent_inv (State.foldl_inv (fun _ _ ht => State.splitFor_inv ht) _ h)
    · exact State.closeSent_inv (State.foldl_inv (fun _ _ ht => State.weftEvent_inv ht) _ h)

theorem State.answerAccess_inv {k : Packet} {r : FabResult} (h : s.Inv) : (s.answerAccess k r).Inv := by
  unfold State.answerAccess
  split
  · exact h
  · dsimp only
    split
    · exact State.progress_inv h
    · exact State.progress_inv h
    · exact State.ite_inv (State.progress_inv h) (State.progress_inv (State.lateFault_inv (s := s.setAcc _) h))

theorem State.answerItin_inv {k : Packet} {slot : Option Nat} {r : FabResult} (h : s.Inv) : (s.answerItin k slot r).Inv := by
  unfold State.answerItin
  split
  · exact h
  · dsimp only
    split
    · exact State.weftEvent_inv (State.itinError_inv h)
    · exact State.itinError_inv h

theorem State.answerWaitv_inv {c q id : Nat} {r : FabResult} (h : s.Inv) : (s.answerWaitv c q id r).Inv := by
  unfold State.answerWaitv
  split
  · exact h
  · exact State.judgeWaitv_inv h
  · exact State.failCmd_inv h

theorem State.respond_inv {pid : Nat} {r : FabResult} (h : s.Inv) : (s.respond pid r).Inv := by
  unfold State.respond
  split
  · exact h
  · dsimp only
    split
    · split <;> exact h
    · exact State.answerItin_inv h
    · exact State.ite_inv (State.answerWrite_inv h) (State.answerAccess_inv h)
    · exact State.ite_inv h h
    · exact State.ite_inv h h
    · exact h
    · exact State.answerWaitv_inv h

theorem execFabricResponse_inv {pid : Nat} {r : FabResult} (h : s.Inv) : (execFabricResponse pid r s).Inv :=
  State.ite_inv (State.respond_inv h) h

theorem execFabricTimeout_inv {pid : Nat} (h : s.Inv) : (execFabricTimeout pid s).Inv := State.ite_inv (State.respond_inv h) h

theorem execCombineIdleFlush_inv {core i : Nat} (h : s.Inv) : (execCombineIdleFlush core i s).Inv := by
  unfold execCombineIdleFlush
  split
  · exact State.ite_inv (State.sendComb_inv h) h
  · exact h

theorem State.resend_inv {plane : Nat} (h : s.Inv) : (s.resend plane).Inv := by
  refine State.foldl_inv (fun t k ht => ?_) _ (s := { s with fab := _ }) h
  split
  · exact ht
  · exact State.respond_inv ht

theorem State.postLosses_inv (h : s.Inv) : s.postLosses.Inv := by
  unfold State.postLosses
  split
  · exact h
  · exact State.ite_inv h (State.foldl_inv (fun _ _ ht => State.post_inv ht) _ h)

theorem State.withFab_inv {x : Fabric} (h : s.Inv) : State.Inv { s with fab := x } := h

theorem State.planeDown_inv {plane : Nat} (h : s.Inv) : (s.planeDown plane).Inv := by
  unfold State.planeDown
  exact State.ite_inv h (State.postLosses_inv (State.alert_inv (State.resend_inv (State.withFab_inv h))))

theorem execPlaneSilenceTimeout_inv {plane : Nat} (h : s.Inv) : (execPlaneSilenceTimeout plane s).Inv :=
  State.ite_inv (State.planeDown_inv h) h

theorem execSwitchPortFailed_inv {plane : Nat} (h : s.Inv) : (execSwitchPortFailed plane s).Inv := State.ite_inv (State.planeDown_inv h) h

theorem State.replan_inv (h : s.Inv) : s.replan.Inv := h

theorem execSwitchReachabilityReport_inv {peer : Nat} {planes : BitVec 36} (h : s.Inv) :
    (execSwitchReachabilityReport peer planes s).Inv := by
  refine State.ite_inv h (State.replan_inv (State.postLosses_inv ?_))
  refine State.foldl_inv (fun t k ht => ?_) _ (s := s.putPeer _ _) h
  split
  · exact ht
  · exact State.respond_inv ht

theorem execFabricLinkTrained_inv {plane : Nat} {sport : BitVec 9} (h : s.Inv) : (execFabricLinkTrained plane sport s).Inv := by
  unfold execFabricLinkTrained
  exact State.ite_inv h (State.replan_inv (State.ite_inv (State.alert_inv (State.withFab_inv h)) (State.withFab_inv h)))

theorem execPkgidWrite_inv {v : BitVec 9} (h : s.Inv) : (execPkgidWrite v s).Inv := State.ite_inv h h

theorem State.takeEvent_inv {w : Weft} {cause : Cause} {lanes : W64} {detail : Nat} {rest : List WeftEvent} (h : s.Inv) :
    (s.takeEvent w cause lanes detail rest).Inv := State.takeTrap_inv (State.backOut_inv h)

theorem execFabricEvent_inv {core slot : Nat} (h : s.Inv) : (execFabricEvent core slot s).Inv := by
  unfold execFabricEvent
  split
  · exact h
  · split
    · exact State.ite_inv (State.takeEvent_inv h) h
    · exact h

theorem execDeferredFaultEvent_inv {core slot : Nat} (h : s.Inv) : (execDeferredFaultEvent core slot s).Inv := by
  unfold execDeferredFaultEvent
  split
  · exact h
  · split
    · exact State.ite_inv (State.takeEvent_inv h) h
    · exact h

/-! ### The host link and the board interface -/

theorem State.setAlert_inv {st en : BitVec 9} (h : s.Inv) : (s.setAlert st en).Inv := by
  unfold State.setAlert
  exact State.ite_inv (State.emit_inv (State.withHost_inv h)) (State.withHost_inv h)

theorem State.setBox_inv {i : Nat} {m : Mailbox} (h : s.Inv) : (s.setBox i m).Inv := h

theorem State.quoteAlert_inv {i : Nat} (h : s.Inv) : (s.quoteAlert i).Inv := State.ite_inv (State.alert_inv h) h

theorem State.goQuote_inv {i : Nat} (h : s.Inv) : (s.goQuote i).Inv := by
  unfold State.goQuote
  exact State.ite_inv (State.quoteAlert_inv (State.setBox_inv h))
    (State.ite_inv (State.withHost_inv (State.setBox_inv h)) (State.withHost_inv (State.setBox_inv h)))

theorem State.withDraws_inv {n : Nat} (h : s.Inv) : State.Inv { s with draws := n } := h

theorem execQuoteDone_inv (h : s.Inv) : (execQuoteDone s).Inv := by
  unfold execQuoteDone
  split
  · exact h
  · exact State.ite_inv h (State.quoteAlert_inv (State.withHost_inv (State.setBox_inv (State.withDraws_inv h))))

theorem State.writeMbctl_inv {i : Nat} {v : W64} (h : s.Inv) : (s.writeMbctl i v).Inv := by
  unfold State.writeMbctl
  exact State.ite_inv (State.goQuote_inv (State.setBox_inv h)) (State.setBox_inv h)

theorem State.writeMbdata_inv {i off : Nat} {bs : List Byte} (h : s.Inv) : (s.writeMbdata i off bs).Inv := State.setBox_inv h

theorem writeCtxReg_inv {c k : Nat} {v : W64} (h : s.Inv) : (writeCtxReg c k v s).Inv := by
  unfold writeCtxReg
  dsimp only
  split
  · exact State.setCtx_inv h
  · exact State.setCtx_inv h
  · exact execFqReadIndex_inv h
  · exact Res.ite_inv (execContext0Create_inv h) h

theorem Res.some_ite_getD_inv {c : Prop} [Decidable c] {a d : Res} {b : Option Res} (ha : a.Inv) (hb : (b.getD d).Inv) :
    ((if c then some a else b).getD d).Inv := by
  split
  · exact ha
  · exact hb

theorem hostWrite_inv {off : Nat} {v : W64} {d : Res} (h : s.Inv) (hd : d.Inv) : ((hostWrite off v s).getD d).Inv := by
  unfold hostWrite
  refine Res.some_ite_getD_inv h (Res.some_ite_getD_inv (execPkgidWrite_inv h) (Res.some_ite_getD_inv ?_ (Res.some_ite_getD_inv h
    (Res.some_ite_getD_inv (State.writeMbctl_inv h) (Res.some_ite_getD_inv (State.writeMbdata_inv h)
      (Res.some_ite_getD_inv (writeCtxReg_inv h) (Res.some_ite_getD_inv (execDoorbell_inv h)
        (Res.some_ite_getD_inv (execErrClear_inv h) hd))))))))
  exact State.withFab_inv h

theorem writeHost_inv {off : Nat} {data : List Byte} (h : s.Inv) : (writeHost off data s).Inv :=
  Res.ite_inv h (Res.ite_inv (State.emit_inv h) (hostWrite_inv h (State.emit_inv h)))

theorem i3cWrite_inv {off : Nat} {v : W64} (h : s.Inv) : (i3cWrite off v s).Inv := by
  unfold i3cWrite
  exact Res.ite_inv (State.setAlert_inv h) (Res.ite_inv (State.setAlert_inv h) (Res.ite_inv (execCapWrite_inv h)
    (Res.ite_inv (State.withPower_inv h) (Res.ite_inv (State.withPower_inv h) (Res.ite_inv (State.withPower_inv h)
      (Res.ite_inv (State.writeMbctl_inv h) h))))))

theorem i3cByteIn_inv {off i : Nat} {data : List Byte} (h : s.Inv) : (i3cByteIn off data i s).Inv := by
  unfold i3cByteIn
  exact Res.ite_inv (State.writeMbdata_inv h) (Res.ite_inv (i3cWrite_inv h) h)

theorem writeI3c_inv {off : Nat} {data : List Byte} (h : s.Inv) : (writeI3c off data s).Inv := by
  unfold writeI3c
  refine Res.ite_inv h (foldl_keeps Res.Inv _ (fun r i hr => ?_) _ _ (State.withHost_inv h))
  exact Res.bind_inv hr fun _ ht => i3cByteIn_inv ht

theorem execRegisterWrite_inv {port : Port} {off size v : Nat} (h : s.Inv) : (execRegisterWrite port off size v s).Inv := by
  cases port with
  | host => exact writeHost_inv h
  | i3c => exact writeI3c_inv h

theorem execI3cPrivateRead_inv {n : Nat} (h : s.Inv) : (execI3cPrivateRead n s).Inv := by
  unfold execI3cPrivateRead
  exact State.ite_inv h (State.emit_inv (State.withHost_inv h))

/-! ### Placement -/

theorem State.allocate_inv {n : SpadAlloc} (h : s.Inv) : (s.allocate n).Inv := by
  unfold State.allocate
  exact State.ite_inv h (Memory.wf_filter _ _ h)

theorem State.placeWefts_inv {l : Launch} {seed : W32} {core team p0 : Nat} {ws : List Nat} (h : s.Inv) :
    (s.placeWefts l seed core team p0 ws).Inv := by
  induction ws generalizing s with
  | nil => exact h
  | cons w r ih =>
    unfold State.placeWefts
    exact ih h

theorem State.placeTeam_inv {l : Launch} {core : Nat} (h : s.Inv) : (s.placeTeam l core).Inv := by
  unfold State.placeTeam
  split
  · exact h
  · refine State.placeWefts_inv (State.ite_inv (a := State.dropCode _ _ _) ?_ ?_)
    all_goals
      exact State.ite_inv (State.allocate_inv (State.allocate_inv h))
        (State.allocate_inv (State.allocate_inv (State.allocate_inv h)))

theorem execTeamPlace_inv {die : Nat} (h : s.Inv) : (execTeamPlace die s).Inv := by
  refine State.ite_inv h ?_
  split
  · exact State.placeTeam_inv h
  · exact h

theorem execPipelineStart_inv {ctx : Nat} {pipe : BitVec 64} (h : s.Inv) : (execPipelineStart ctx pipe s).Inv := by
  unfold execPipelineStart
  split
  · exact h
  · refine State.ite_inv h ?_
    split
    · exact State.allocate_inv h
    · exact h

theorem execPhase_inv {c q : Nat} (h : s.Inv) : (execPhase c q s).Inv :=
  State.startOp_inv h fun t _ ht => State.completeCmd_inv (s := { t with pipes := _ }) ht

theorem State.freeTeam_inv {t : Team} (h : s.Inv) : (s.freeTeam t).Inv := h

theorem State.reassign_inv {p : Pipe} {core : Nat} (h : s.Inv) : (s.reassign p core).Inv := by
  unfold State.reassign
  dsimp only
  split <;> exact h

theorem State.completeLaunch_inv {l : Launch} (h : s.Inv) : (s.completeLaunch l).Inv := by
  unfold State.completeLaunch
  have h1 : (match s.pipeOf l with
      | none => s
      | some p =>
        let p1 : Pipe := { p with closed := setAt p.closed (l.lrec.stage + 1) true }
        let ended := (List.range p.nstage).all fun k => k == l.lrec.stage || (s.stageLaunch p k).isNone
        if ended then
          { s with pipes := s.pipes.filter (fun q => q.id ≠ p.id)
                   allocs := s.allocs.map fun (a : SpadAlloc) => if a.level = 3 ∧ a.owner = p.id then { a with live := false } else a }
        else s.setPipe p1).Inv := by
    split
    · exact h
    · exact State.ite_inv h h
  dsimp only
  split
  · exact State.completeCmd_inv h1
  · exact h1

theorem execTeamRetire_inv {id : Nat} (h : s.Inv) : (execTeamRetire id s).Inv := by
  unfold execTeamRetire
  split
  · exact h
  · refine State.ite_inv h ?_
    dsimp only
    split
    · exact State.freeTeam_inv h
    · refine State.ite_inv ?_ (State.completeLaunch_inv ?_)
      all_goals
        split
        · exact State.reassign_inv h
        · exact h

/-! ### The itinerary sequencer -/

theorem State.loadCheckFail_inv {t : Itin} {entry : Nat} (h : s.Inv) : (s.loadCheckFail t entry).Inv := by
  unfold State.loadCheckFail
  exact State.emit_inv (State.ite_inv (State.writeStatus_inv h) h)

theorem State.withItin_inv {t : Itin} (h : s.Inv) : State.Inv { s with itin := t } := h

theorem execStepLoad_inv {c q : Nat} (h : s.Inv) : (execStepLoad c q s).Inv := by
  refine State.startSub_inv h fun t k ht => State.ite_inv (State.failCmd_inv ht) ?_
  split
  · refine State.ite_inv (State.failCmd_inv (State.loadCheckFail_inv (State.noteRead_inv (State.noteRead_inv ht)))) ?_
    split
    · exact State.failCmd_inv (State.loadCheckFail_inv (State.noteRead_inv (State.noteRead_inv ht)))
    · exact State.completeCmd_inv (State.withItin_inv (State.noteRead_inv (State.noteRead_inv ht)))
  · exact State.failCmd_inv ht

theorem State.readControl_inv (h : s.Inv) : s.readControl.Inv := by
  unfold State.readControl
  split
  · exact h
  · split
    · exact h
    · exact State.withItin_inv (State.noteRead_inv h)

theorem execControlBlockReread_inv (h : s.Inv) : (execControlBlockReread s).Inv := State.ite_inv (State.readControl_inv h) h

theorem execStepStart_inv {c q : Nat} (h : s.Inv) : (execStepStart c q s).Inv := by
  refine State.startSub_inv h fun t k ht => State.ite_inv (State.failCmd_inv ht) ?_
  exact State.completeCmd_inv (State.readControl_inv (s := { t with itin := _, stepCtr := _, dieStep := _, snap := _ }) ht)

theorem State.endWarm_inv (h : s.Inv) : s.endWarm.Inv := by
  refine State.foldl_inv (fun t l ht => ?_) _ h
  exact ht

theorem State.stopEnds_inv {c q id : Nat} (h : s.Inv) : (s.stopEnds c q id).Inv := by
  unfold State.stopEnds
  exact State.completeCmd_inv (State.writeStatus_inv (State.withItin_inv h))

theorem State.startStop_inv {c q : Nat} {k : Cmd} (h : s.Inv) : (s.startStop c q k).Inv := by
  unfold State.startStop
  have h1 {t : Itin} : (State.endWarm { s with itin := t }).Inv := State.endWarm_inv (State.withItin_inv h)
  exact State.ite_inv (State.failCmd_inv h) (State.ite_inv (State.completeCmd_inv h) (State.ite_inv (State.stopEnds_inv h1) h1))

theorem execStepStop_inv {c q : Nat} (h : s.Inv) : (execStepStop c q s).Inv := by
  have start : (s.startSub c q 9 2 fun s k => s.startStop c q k).Inv := State.startSub_inv h fun _ _ ht => State.startStop_inv ht
  unfold execStepStop
  dsimp only
  split
  · exact Res.ite_inv (State.ite_inv (State.stopEnds_inv h) h) start
  · exact start

theorem State.handTask_inv {l : Launch} {slot : Nat} (h : s.Inv) : (s.handTask l slot).Inv := h

theorem State.startTask_inv {c i : Nat} {e : Entry} {stash : List (Option Nat)} {how : Launch ⊕ LaunchRec} (h : s.Inv) :
    (s.startTask c i e stash how).Inv := by
  unfold State.startTask
  dsimp only
  split
  · exact State.handTask_inv (State.withItin_inv h)
  · split <;> exact State.enterLaunch_inv (State.withItin_inv h)

theorem State.dispatchEntry_inv {c i : Nat} (h : s.Inv) : (s.dispatchEntry c i).Inv := by
  unfold State.dispatchEntry
  dsimp only
  split
  · exact State.itinError_inv h
  · split
    · exact State.itinError_inv h
    · rename_i how _
      have h1 {c : Nat} {va : W64} {n : Nat} : (match how with | .inl _ => s | .inr _ => s.noteRead c va n).Inv := by
        cases how with
        | inl l => exact h
        | inr r => exact State.noteRead_inv h
      split
      · exact State.itinError_inv h1
      · exact State.startTask_inv (State.vaWrite_inv h1 ‹_›)

theorem execItineraryDispatch_inv (h : s.Inv) : (execItineraryDispatch s).Inv := by
  unfold execItineraryDispatch
  split
  · exact State.ite_inv (State.dispatchEntry_inv h) h
  · exact h

theorem State.setOwnSyncb_inv {n : Nat} (h : s.Inv) : (s.setOwnSyncb n).Inv := by
  unfold State.setOwnSyncb
  exact State.withItin_inv (State.vaWrite_getD_inv h)

theorem execSync_inv (h : s.Inv) : (execSync s).Inv := by
  unfold execSync
  refine State.ite_inv h (State.ite_inv (State.ite_inv h (State.ite_inv ?_ ?_)) (State.ite_inv h (State.withItin_inv (State.ite_inv ?_ h))))
  · exact State.sendControl_inv (State.withItin_inv h)
  · exact State.setOwnSyncb_inv (State.withItin_inv h)
  · exact State.sendControl_inv h

theorem execStepend_inv (h : s.Inv) : (execStepend s).Inv := State.ite_inv h h

theorem State.advanceStep_inv (h : s.Inv) : s.advanceStep.Inv := by
  unfold State.advanceStep
  have h1 {v : W64} {l : List W64} {x : Snap} {ps : List Pipe} :
      (State.writeStatus { s with stepCtr := v, dieStep := l, snap := x, pipes := ps }).Inv := State.writeStatus_inv h
  exact State.withItin_inv (State.ite_inv (State.emit_inv h1) h1)

theorem execStependAck_inv {die : Nat} (h : s.Inv) : (execStependAck die s).Inv := by
  unfold execStependAck
  exact State.ite_inv h (State.ite_inv (State.withItin_inv h) (State.advanceStep_inv (State.withItin_inv h)))

theorem execStallReport_inv (h : s.Inv) : (execStallReport s).Inv := by
  unfold execStallReport
  exact State.ite_inv h (State.emit_inv (State.writeStatus_inv (State.withItin_inv h)))

/-! ### Snapshots -/

theorem State.poolFrame_inv {c va : Nat} (h : s.Inv) : (s.poolFrame c va).1.Inv := by
  unfold State.poolFrame
  refine State.pair_ite_inv h ?_
  split <;> exact State.snd_inv ‹s.leafOf _ _ = _› (State.leafOf_inv h)

theorem State.poolFrames_inv {c n va : Nat} (h : s.Inv) : (s.poolFrames c n va).1.Inv := by
  induction n generalizing s va with
  | zero => exact h
  | succ n ih =>
    unfold State.poolFrames
    exact ih (State.poolFrame_inv h)

theorem State.withSnap_inv {x : Snap} (h : s.Inv) : State.Inv { s with snap := x } := h

theorem State.addPool_inv {c num va len pva plen : Nat} (h : s.Inv) : (s.addPool c num va len pva plen).Inv := by
  unfold State.addPool
  exact State.withSnap_inv (State.poolFrames_inv h)

theorem execSnapDefineRegion_inv {c q : Nat} (h : s.Inv) : (execSnapDefineRegion c q s).Inv := by
  refine State.startSub_inv h fun t k ht => State.ite_inv (State.failCmd_inv ht) ?_
  split
  · exact State.failCmd_inv ht
  · exact State.ite_inv (State.failCmd_inv ht) (State.completeCmd_inv (State.addPool_inv (State.noteRead_inv ht)))

theorem State.releaseRegion_inv {n : Nat} (h : s.Inv) : (s.releaseRegion n).Inv := by
  unfold State.releaseRegion
  exact State.foldl_inv (fun _ _ ht => State.addMeta_inv ht) _
    (State.withSnap_inv (State.foldl_inv (fun _ _ ht => State.writeWait_inv ht) _ h))

theorem execSnapReleaseRegion_inv {c q : Nat} (h : s.Inv) : (execSnapReleaseRegion c q s).Inv :=
  State.startSub_inv h fun _ _ ht => State.ite_inv (State.failCmd_inv ht) (State.completeCmd_inv (State.releaseRegion_inv ht))

theorem State.writeMend_inv (h : s.Inv) : s.writeMend.Inv := by
  unfold State.writeMend
  split
  · exact h
  · dsimp only
    split
    · exact State.vaWrite_getD_inv (State.withSnap_inv h)
    · exact State.withSnap_inv h

theorem State.mendState_inv {st failed : Nat} (h : s.Inv) : (s.mendState st failed).Inv := by
  unfold State.mendState
  exact State.writeMend_inv (State.withSnap_inv h)

theorem State.pruneUnits_inv {f : SnapUnit → List Frame × List Frame} (h : s.Inv) : (s.pruneUnits f).Inv := by
  unfold State.pruneUnits
  exact State.foldl_inv (fun _ _ ht => State.addMeta_inv ht) _ (State.withSnap_inv h)

theorem State.endAwaits_inv (h : s.Inv) : s.endAwaits.Inv := by
  unfold State.endAwaits
  exact State.foldl_inv (fun _ _ ht => State.completeCmd_inv ht) _ (State.withSnap_inv h)

theorem State.setM_inv {n : Nat} (h : s.Inv) : (s.setM n).Inv := by
  unfold State.setM
  exact State.foldl_inv (fun _ _ ht => State.checkPersist_inv ht) _
    (State.endAwaits_inv (State.writeMend_inv (State.pruneUnits_inv (State.noteSteps_inv (State.withSnap_inv h)))))

theorem execStepCommit_inv (h : s.Inv) : (execStepCommit s).Inv := by
  unfold execStepCommit
  have h1 {x : Snap} : (State.writeMend (State.noteSteps { s with snap := x })).Inv :=
    State.writeMend_inv (State.noteSteps_inv (State.withSnap_inv h))
  exact State.ite_inv h (State.ite_inv h1 (State.setM_inv h1))

theorem execSnapAwaitStep_inv {c q : Nat} (h : s.Inv) : (execSnapAwaitStep c q s).Inv :=
  State.startSub_inv h fun _ _ ht => State.ite_inv (State.completeCmd_inv ht) ht

end Sys2Proof.Machine
end

section
/-! SUPPORT of O60. Canonical memory: mending, requests of peers and the end of a cycle. -/

namespace Sys2Proof.Machine
variable {s : State}

/-! ### Mending -/

theorem State.clearUnit_inv {c va : Nat} (h : s.Inv) : (s.clearUnit c va).Inv := by
  unfold State.clearUnit
  split
  · have h1 {cells tag} := State.writeWait_inv (cells := cells) (tag := tag)
      (State.snd_inv ‹s.translate _ _ _ _ = _› (State.translate_inv h))
    dsimp only
    split
    · exact State.setUnit_inv h1
    · exact h1
  · exact h

theorem State.clearParity_inv {c : Nat} {g : Group} (h : s.Inv) : (s.clearParity c g).Inv :=
  State.foldl_inv (fun _ _ ht => State.clearUnit_inv ht) _ h

theorem State.sendDarner_inv {c peer line : Nat} {bs : List Byte} {op : FabOp} {use : PktUse} (h : s.Inv) :
    (s.sendDarner c peer line bs op use).Inv := State.sendPacket_inv h

theorem State.sendUnit_inv {c peer unit : Nat} {bs : List Byte} {op : FabOp} {use : PktUse} (h : s.Inv) :
    (s.sendUnit c peer unit bs op use).Inv := State.foldl_inv (fun _ _ ht => State.sendDarner_inv ht) _ h

theorem State.sendDeltas_inv {c n units : Nat} {ds : List Delta} (h : s.Inv) : (s.sendDeltas c n units ds).Inv := by
  unfold State.sendDeltas
  exact State.foldl_inv (fun _ _ ht => State.sendDarner_inv ht) _ (State.withSnap_inv h)

theorem State.endMend_inv (h : s.Inv) : s.endMend.Inv := by
  unfold State.endMend
  split
  · exact State.completeCmd_inv (State.withSnap_inv h)
  · exact h

theorem State.declared_inv {g : Group} (h : s.Inv) : (s.declared g).Inv := by
  unfold State.declared
  exact State.ite_inv (State.endMend_inv (State.mendState_inv (State.noteSteps_inv (State.withSnap_inv h)))) h

theorem State.mended_inv {g : Group} {n : Nat} (h : s.Inv) : (s.mended g n).Inv :=
  State.ite_inv (State.declared_inv h) (State.ite_inv (State.setM_inv h) h)

theorem State.finishEncode_inv {g : Group} {n : Nat} (h : s.Inv) : (s.finishEncode g n).Inv := by
  unfold State.finishEncode
  exact State.ite_inv h (State.mended_inv (State.foldl_inv (fun _ _ ht => State.emit_inv ht) _
    (State.noteSteps_inv (State.withSnap_inv h))))

theorem State.declareGroup_inv {c q id : Nat} {g : Group} (h : s.Inv) : (s.declareGroup c q id g).Inv := by
  unfold State.declareGroup
  exact State.ite_inv (State.completeCmd_inv (State.withSnap_inv h))
    (State.finishEncode_inv (State.sendDeltas_inv (State.clearParity_inv (State.mendState_inv (State.withSnap_inv h)))))

theorem execMendDeclareGroup_inv {c q : Nat} (h : s.Inv) : (execMendDeclareGroup c q s).Inv := by
  refine State.startSub_inv h fun t k ht => State.ite_inv (State.failCmd_inv ht) ?_
  split
  · exact State.failCmd_inv ht
  · exact State.ite_inv (State.failCmd_inv ht) (State.declareGroup_inv (State.noteRead_inv ht))

theorem execEncodeStep_inv (h : s.Inv) : (execEncodeStep s).Inv := by
  unfold execEncodeStep
  split
  · exact State.ite_inv h (State.ite_inv (State.mended_inv h) (State.ite_inv (State.finishEncode_inv h)
      (State.finishEncode_inv (State.sendDeltas_inv h))))
  · exact h

theorem execDoneMessage_inv {peer n : Nat} {job : BitVec 16} (h : s.Inv) : (execDoneMessage peer n job s).Inv := by
  refine State.ite_inv h ?_
  dsimp only
  split
  · exact State.mended_inv (State.noteSteps_inv (State.withSnap_inv h))
  · exact State.noteSteps_inv (State.withSnap_inv h)

theorem State.sendBeat_inv {c peer : Nat} (h : s.Inv) : (s.sendBeat c peer).Inv := State.ite_inv h (State.sendPacket_inv h)

theorem execHeartbeatSend_inv (h : s.Inv) : (execHeartbeatSend s).Inv := by
  unfold execHeartbeatSend
  split
  · exact State.ite_inv h (State.foldl_inv (fun _ _ ht => State.post_inv ht) _
      (State.foldl_inv (fun _ _ ht => State.sendBeat_inv ht) _ (State.withSnap_inv h)))
  · exact h

theorem State.haltItinerary_inv (h : s.Inv) : s.haltItinerary.Inv := by
  unfold State.haltItinerary
  refine State.ite_inv ?_ (State.withItin_inv h)
  dsimp only
  split
  · exact State.stopEnds_inv (State.withItin_inv h)
  · exact State.writeStatus_inv (State.withItin_inv h)

theorem State.exitWefts_inv {c : Nat} (h : s.Inv) : (s.exitWefts c).Inv := h

theorem State.rollBack_inv (h : s.Inv) : s.rollBack.Inv := by
  unfold State.rollBack
  exact State.noteSteps_inv (State.pruneUnits_inv (s := s) h)

theorem State.groupHalt_inv (h : s.Inv) : s.groupHalt.Inv := by
  unfold State.groupHalt
  split
  · exact h
  · exact State.emit_inv (State.writeMend_inv (State.rollBack_inv (State.exitWefts_inv (State.haltItinerary_inv h))))

theorem State.startPartials_inv {c f : Nat} {g : Group} (h : s.Inv) : (s.startPartials c g f).Inv :=
  State.ite_inv h (State.foldl_inv (fun _ _ ht => State.sendUnit_inv ht) _ h)

theorem State.restartPartials_inv (h : s.Inv) : s.restartPartials.Inv := by
  unfold State.restartPartials
  split
  · exact State.ite_inv (State.withFab_inv h) (State.startPartials_inv (State.withFab_inv h))
  · exact h

theorem execMemberLoss_inv {peer : Nat} (h : s.Inv) : (execMemberLoss peer s).Inv := by
  unfold execMemberLoss
  split
  · exact h
  · refine State.ite_inv h (State.ite_inv ?_ ?_)
    · exact State.endMend_inv (State.mendState_inv (State.noteSteps_inv (State.withSnap_inv h)))
    · have h1 {x : Snap} {c d : Prop} [Decidable c] [Decidable d] : (if c then State.mendState { s with snap := x } 6 peer
          else if d then { s with snap := x } else State.mendState { s with snap := x } 3 peer).Inv :=
        State.ite_inv (State.mendState_inv (State.withSnap_inv h)) (State.ite_inv (State.withSnap_inv h)
          (State.mendState_inv (State.withSnap_inv h)))
      have h2 {t : State} {f : Peer → Peer} (ht : t.Inv) : (t.putPeer peer f).groupHalt.Inv := State.groupHalt_inv (State.withFab_inv ht)
      exact State.ite_inv (State.endMend_inv (h2 h1)) (State.ite_inv (State.restartPartials_inv (h2 h1)) (h2 h1))

theorem State.startRebuild_inv {c q : Nat} {k : Cmd} (h : s.Inv) : (s.startRebuild c q k).Inv := by
  unfold State.startRebuild
  dsimp only
  split
  · refine State.ite_inv (State.ite_inv (State.failCmd_inv h) (State.mendState_inv h)) (State.ite_inv (State.failCmd_inv h) ?_)
    split
    · exact State.failCmd_inv h
    · exact State.startPartials_inv (State.mendState_inv h)
  · exact State.failCmd_inv h

theorem State.endRebuild_inv (h : s.Inv) : s.endRebuild.Inv := by
  unfold State.endRebuild
  refine State.ite_inv ?_ (State.endMend_inv ?_)
  · exact State.endMend_inv (State.mendState_inv (State.setM_inv (State.withSnap_inv h)))
  · dsimp only
    split <;> exact State.mendState_inv (State.withSnap_inv h)

theorem execMendRebuild_inv {c q f : Nat} {placed : Bool} (h : s.Inv) : (execMendRebuild c q f placed s).Inv := by
  unfold execMendRebuild
  exact Res.ite_inv (State.ite_inv (State.endRebuild_inv h) h) (State.start_inv h fun _ _ ht => State.startRebuild_inv ht)

theorem execMendGroupRollback_inv {c q : Nat} (h : s.Inv) : (execMendGroupRollback c q s).Inv :=
  State.start_inv h fun _ _ ht => State.ite_inv (State.completeCmd_inv (State.groupHalt_inv ht)) (State.failCmd_inv ht)

theorem execBackfillComplete_inv (h : s.Inv) : (execBackfillComplete s).Inv := by
  refine State.ite_inv h ?_
  have h1 : (s.snap.units.foldl (fun (t : State) (u : SnapUnit) => match u.landing with
      | some l => (t.writeWait (cellsFrom u.home (t.landingBytes t.regionCtx l)) 0).setUnit { u with landing := none }
      | none => t) s).Inv := by
    refine State.foldl_inv (fun t u ht => ?_) _ h
    split
    · exact State.setUnit_inv (State.writeWait_inv ht)
    · exact ht
  exact State.ite_inv (State.mendState_inv h1) h1

/-! ### Requests of a peer -/

theorem State.serveOps_inv {k minor st : Nat} {ops : List (Nat × W64 × W64)} (h : s.Inv) : (s.serveOps k minor st ops).1.Inv := by
  induction ops generalizing s with
  | nil => exact h
  | cons o r ih =>
    obtain ⟨off, b, w⟩ := o
    unfold State.serveOps
    exact ih (State.chanWrite_inv h)

theorem State.serveAt_inv {r : FabReq} {k : Nat} (h : s.Inv) : (s.serveAt r k).1.Inv := by
  unfold State.serveAt
  dsimp only
  split
  · exact State.foldl_inv (fun _ _ ht => State.chanWrite_inv ht) _ h
  · exact State.chanWrite_inv h
  · exact State.pair_ite_inv h (State.serveOps_inv h)
  · exact h

/-- What the recursive results below a list of steps keep. -/
def BelowInv : (ns : List Nat) → List.below (motive := fun _ => State → Tr × State) ns → Prop
  | [], _ => True
  | _ :: _, f => ∀ t : State, t.Inv → (f.1 t).2.Inv

/-- The recursion on the list of steps keeps the canonical form when each of its rounds does. The round of
`reqTranslate` is taken as a variable here, since the kernel does not get through unfolding it with its page. -/
theorem brecOn_inv {F : (ns : List Nat) → List.below (motive := fun _ => State → Tr × State) ns → State → Tr × State}
    (hF : ∀ ns f, BelowInv ns f → ∀ t : State, t.Inv → (F ns f t).2.Inv) (ns : List Nat) (h : s.Inv) :
    (List.brecOn (motive := fun _ => State → Tr × State) ns F s).2.Inv := by
  induction ns generalizing s with
  | nil => exact hF [] _ trivial s h
  | cons n ns ih => exact hF (n :: ns) _ (fun t ht => ih ht) s h

theorem State.reqTranslate_inv {c : Nat} {r : FabReq} {ns : List Nat} (h : s.Inv) : (s.reqTranslate c r ns).2.Inv := by
  delta State.reqTranslate
  refine brecOn_inv (fun ns f hf t ht => ?_) ns h
  delta State.reqTranslate._f
  dsimp only
  split
  · exact State.translate_inv ht
  · exact State.translate_inv ht
  · next n ns _ =>
    have h1 := State.translate_inv (c := c) (va := r.va) (ask := r.asks) (st := n) ht
    generalize t.translate c r.va r.asks n = p at h1 ⊢
    obtain ⟨tr, s1⟩ := p
    cases tr with
    | ok => exact hf s1 h1
    | _ => exact h1

theorem State.serveAccess_inv {r : FabReq} (h : s.Inv) : (s.serveAccess r).1.Inv := by
  unfold State.serveAccess
  split
  · exact h
  · refine State.pair_ite_inv h (State.pair_ite_inv h ?_)
    split <;> have h1 := State.snd_inv ‹s.reqTranslate _ _ _ = _› (State.reqTranslate_inv h)
    · exact h1
    · exact h1
    · exact h1
    · exact h1
    · exact State.pair_ite_inv h (State.ite_inv (State.countLine_inv (State.serveAt_inv h1)) (State.serveAt_inv h1))

theorem State.xorLine_inv {k n : Nat} {bs : List Byte} (h : s.Inv) : (s.xorLine k n bs).Inv :=
  State.ite_inv (State.write_inv h) (State.chanWrite_inv h)

theorem State.serveDelta_inv {c n : Nat} {g : Group} {r : FabReq} (h : s.Inv) : (s.serveDelta c g r n).1.Inv := by
  unfold State.serveDelta
  refine State.pair_ite_inv h (State.pair_ite_inv h ?_)
  split <;> have h1 := State.snd_inv ‹s.translate _ _ _ _ = _› (State.translate_inv h)
  · exact h1
  · exact h1
  · exact h1
  · exact h1
  · refine State.pair_ite_inv h ?_
    have h2 {va : Nat} := State.ite_inv (c := n = 0) h1 (State.openUnit_getD_inv (va := va) (st := n) h1)
    dsimp only
    split
    · exact h
    · exact State.pair_ite_inv h2 (State.setUnit_inv (State.xorLine_inv h2))

theorem State.placeLine_inv {c v x i home : Nat} {g : Group} {bs : List Byte} {t : State} (h : s.Inv)
    (e : s.placeLine c g v x i home bs = some t) : t.Inv := by
  unfold State.placeLine at e
  split at e
  · exact State.vaWrite_inv h e
  · cases e
    exact State.write_wf _ _ v (State.foldl_inv (fun _ _ ht => State.makeRoom_inv ht) _ h)

theorem State.mapUnit_inv {g : Group} {v x va home : Nat} (h : s.Inv) : (s.mapUnit g v x va home).Inv := by
  unfold State.mapUnit
  split
  · exact h
  · exact State.ite_inv h (State.setUnit_inv h)

theorem State.postMend_inv (h : s.Inv) : s.postMend.Inv := by
  unfold State.postMend
  split <;> exact h

theorem State.takeLine_inv {c v x i : Nat} {g : Group} {bs : List Byte} (h : s.Inv) : (s.takeLine c g v x i bs).1.Inv := by
  unfold State.takeLine
  split
  · exact h
  · refine State.pair_ite_inv h ?_
    split
    · exact h
    · split
      · exact h
      · have h1 {u : Snap} {va home : Nat} := State.mapUnit_inv (g := g) (v := v) (x := x) (va := va) (home := home)
          (State.withSnap_inv (x := u) (State.placeLine_inv h ‹_›))
        exact State.ite_inv (State.postMend_inv h1) h1

theorem State.serveRebuild_inv {c v : Nat} {g : Group} {r : FabReq} (h : s.Inv) : (s.serveRebuild c g r v).1.Inv := by
  unfold State.serveRebuild
  exact State.pair_ite_inv (State.takeLine_inv h) (State.pair_ite_inv (State.sendDarner_inv h) h)

theorem State.serve_inv {r : FabReq} (h : s.Inv) : (s.serve r).1.Inv := by
  unfold State.serve
  dsimp only
  split
  · exact State.pair_ite_inv h (State.pair_ite_inv h (State.serveDelta_inv h))
  · exact h
  · exact State.serveRebuild_inv h
  · exact h
  · split
    · exact h
    · exact State.pair_ite_inv h h
  · exact State.serveAccess_inv h

theorem State.reply_inv {r : FabReq} {x : FabResult} (h : s.Inv) : (s.reply r x).Inv :=
  State.ite_inv (State.post_inv h) (State.ite_inv h h)

theorem State.takeRequest_inv {r : FabReq} (h : s.Inv) : (s.takeRequest r).Inv := by
  unfold State.takeRequest
  split <;> have h1 := State.fst_inv ‹s.serve r = _› (State.serve_inv h)
  · exact State.ite_inv h1 h1
  · exact State.ite_inv (State.post_inv (State.reply_inv (State.withFab_inv h1))) (State.reply_inv (State.withFab_inv h1))

theorem execFabricRequest_inv {r : FabReq} (h : s.Inv) : (execFabricRequest r s).Inv := by
  refine State.ite_inv h ?_
  split
  · exact State.reply_inv h
  · exact State.ite_inv h (State.takeRequest_inv h)

/-! ### The cycle -/

theorem State.mark_inv {l : Look} (h : s.Inv) : (s.mark l).Inv := by
  unfold State.mark
  split <;> exact h

theorem State.holdPipe_inv {w : Weft} {p : Option IssuePipe} {m : W64} (h : s.Inv) : (s.holdPipe w p m).Inv := State.ite_inv h h

theorem State.lookedAt_inv {w : Weft} {p : Option IssuePipe} {m : W64} (h : s.Inv) : (s.lookedAt w p m).Inv :=
  State.ite_inv (State.mark_inv h) (State.mark_inv (State.holdPipe_inv h))

theorem State.passedOver_inv {t : State} (h : s.Inv) (ht : t.Inv) : (s.passedOver t).Inv :=
  State.ite_inv (State.mark_inv ht) (State.mark_inv h)

theorem State.rationed_inv {w : Weft} {p : Option IssuePipe} {t : State} (ht : t.Inv) : (s.rationed w p t).Inv :=
  State.ite_inv (State.mark_inv ht) (State.mark_inv (State.withPower_inv ht))

theorem State.after_inv {w : Weft} {p : Option IssuePipe} {m : W64} {t : State} (h : s.Inv) (ht : t.Inv) : (s.after w p m t).Inv :=
  State.ite_inv (State.rationed_inv ht) (State.ite_inv (State.lookedAt_inv ht) (State.passedOver_inv h ht))

theorem State.leaveInjected_inv (h : s.Inv) : s.leaveInjected.Inv := State.foldl_inv (fun _ _ ht => State.leave_inv ht) _ h

theorem State.freeExited_inv (h : s.Inv) : s.freeExited.Inv := h

theorem State.ageFabric_inv {n : Nat} (h : s.Inv) : (s.ageFabric n).Inv := h

theorem State.endCycle_inv (h : s.Inv) : s.endCycle.Inv := by
  unfold State.endCycle
  exact State.ageFabric_inv (n := 1 + Config.cycles s.draws 0) (State.haltDue_inv (State.sendPorts_inv (State.wakeBehind_inv (State.pumpAll_inv
    (State.freeExited_inv (State.leaveInjected_inv (State.withDraws_inv h)))))))

end Sys2Proof.Machine
end

section
/-! SUPPORT of O60. Canonical memory: the remaining instructions and soft errors. -/

namespace Sys2Proof.Machine
variable {s : State}

/-! ### Atomics, barriers, masks and branches -/

theorem atomOp_inv {p : Pfx} {d a b : Opnd} {n : BitVec 5} {spad : Bool} (h : s.Inv) : (atomOp p d a b n spad s).Inv := memGroup_inv h

theorem casOp_inv {p : Pfx} {d a : Opnd} {n : BitVec 5} {spad : Bool} (h : s.Inv) : (casOp p d a n spad s).Inv := memGroup_inv h

theorem State.arrive_inv {w : Weft} {b : Nat} (h : s.Inv) : (s.arrive w b).Inv := by
  unfold State.arrive
  split <;> exact h

theorem barBoth_inv {p : Pfx} {num : Weft → Nat} (h : s.Inv) : (barBoth p s num).Inv := by
  refine execBare_inv h fun t w ht => State.ite_inv (State.ite_inv ht ht) (State.release_inv ht (State.ite_inv ht ?_))
  exact State.ite_inv (State.arrive_inv ht) (State.arrive_inv ht)

theorem execBarArrive_inv {p : Pfx} {b : BitVec 7} (h : s.Inv) : (execBarArrive p b s).Inv :=
  execBare_inv h fun _ _ ht => State.release_inv ht (State.ite_inv ht (State.arrive_inv ht))

theorem execBarWait_inv {p : Pfx} {b : BitVec 7} (h : s.Inv) : (execBarWait p b s).Inv :=
  execBare_inv h fun _ _ ht => State.ite_inv ht (State.ite_inv ht ht)

theorem maskOp_inv {p : Pfx} {srcs : List Use} {d : Opnd} {f : Weft → W64 → Weft × W64} (h : s.Inv) : (maskOp s p srcs d f).Inv :=
  execWide_inv h fun _ _ _ ht => writeS_inv ht

theorem branchTo_inv {w : Weft} {p : Pfx} {taken : Bool} {target : W64} (h : s.Inv) : (branchTo s w p taken target).Inv := h

theorem execLoop_inv {p : Pfx} {r : Opnd} {o : BitVec 19} (h : s.Inv) : (execLoop p r o s).Inv :=
  execWide_inv h fun _ _ _ ht => branchTo_inv (writeS_inv ht)

theorem execCall_inv {p : Pfx} {r : Opnd} {o : BitVec 19} (h : s.Inv) : (execCall p r o s).Inv :=
  execWide_inv h fun _ _ _ ht => branchTo_inv (writeS_inv ht)

theorem execCallr_inv {p : Pfx} {d a : Opnd} (h : s.Inv) : (execCallr p d a s).Inv :=
  execWide_inv h fun _ _ _ ht => branchTo_inv (writeS_inv ht)

theorem execUniform_inv {p : Pfx} {others : List Use} {u : Use} {f : W32 → W32} {go : State → Weft → List W64 → W32 → State}
    (h : s.Inv) (hg : ∀ (t : State) w v x, t.Inv → (go t w v x).Inv) : (execUniform s p others u f go).Inv := by
  refine issue_inv h fun w g => ?_
  dsimp only
  split
  · exact State.popUses_inv h
  · exact State.trapF_inv h
  · exact State.trapF_inv h
  · exact hg _ _ _ _ (State.popUses_inv h)

theorem execBr_inv {p o} (h : s.Inv) : (execBr p o s).Inv := execWide_inv h fun _ _ _ ht => branchTo_inv ht

theorem execBrz_inv {p r o} (h : s.Inv) : (execBrz p r o s).Inv := execWide_inv h fun _ _ _ ht => branchTo_inv ht

theorem execBrnz_inv {p r o} (h : s.Inv) : (execBrnz p r o s).Inv := execWide_inv h fun _ _ _ ht => branchTo_inv ht

theorem execBrem_inv {p o} (h : s.Inv) : (execBrem p o s).Inv := execWide_inv h fun _ _ _ ht => branchTo_inv ht

theorem execJmp_inv {p a} (h : s.Inv) : (execJmp p a s).Inv := execWide_inv h fun _ _ _ ht => branchTo_inv ht

theorem execBru_inv {p r o} (h : s.Inv) : (execBru p r o s).Inv := execUniform_inv h fun _ _ _ _ ht => branchTo_inv ht

theorem execJmpv_inv {p a b} (h : s.Inv) : (execJmpv p a b s).Inv := execUniform_inv h fun _ _ _ _ ht => branchTo_inv ht

/-! ### The operations that scalar, vector and memory instructions share -/

theorem scalar1_inv {p d a f} (h : s.Inv) : (scalar1 p d a f s).Inv := execScalar_inv h

theorem scalar2_inv {p d a b f} (h : s.Inv) : (scalar2 p d a b f s).Inv := execScalar_inv h

theorem wide2_inv {p d a b f} (h : s.Inv) : (wide2 p d a b f s).Inv := execVec_inv h

theorem vecI_inv {p d a i f} (h : s.Inv) : (vecI p d a i f s).Inv := vec1_inv h

theorem compare2_inv {p d a b f} (h : s.Inv) : (compare2 p d a b f s).Inv := execVec_inv h

theorem shiftLanes_inv {p d a b f} (h : s.Inv) : (shiftLanes p d a b f s).Inv := execVec_inv h

theorem loadOp_inv {p d a b k x sz spad} (h : s.Inv) : (loadOp p d a b k x sz spad s).Inv := memGroup_inv h

theorem storeOp_inv {p d a b k sz spad} (h : s.Inv) : (storeOp p d a b k sz spad s).Inv := memGroup_inv h

theorem float_inv {p d srcs rounds f} (h : s.Inv) : (float p d srcs rounds f s).Inv := execVec_inv h

theorem f1_inv {p d a f} (h : s.Inv) : (f1 p d a f s).Inv := float_inv h

theorem f2_inv {p d a b f} (h : s.Inv) : (f2 p d a b f s).Inv := float_inv h

theorem f3_inv {p d a b f} (h : s.Inv) : (f3 p d a b f s).Inv := float_inv h

theorem f2raw_inv {p d a b f} (h : s.Inv) : (f2raw p d a b f s).Inv := float_inv h

theorem fInt_inv {p d a mode} (h : s.Inv) : (fInt p d a mode s).Inv := float_inv h

theorem h2_inv {p d a b t f} (h : s.Inv) : (h2 p d a b t f s).Inv := float_inv h

theorem h2raw_inv {p d a b t f} (h : s.Inv) : (h2raw p d a b t f s).Inv := float_inv h

theorem cvtFromInt_inv {p d a signed} (h : s.Inv) : (cvtFromInt p d a signed s).Inv := float_inv h

theorem cvtToInt_inv {p d a lo hi} (h : s.Inv) : (cvtToInt p d a lo hi s).Inv := float_inv h

theorem cvtSelect_inv {p d a b bits sel f} (h : s.Inv) : (cvtSelect p d a b bits sel f s).Inv := float_inv h

theorem cvtPack_inv {p d a b f} (h : s.Inv) : (cvtPack p d a b f s).Inv := float_inv h

theorem cvtShiftIn_inv {p d a b f bits} (h : s.Inv) : (cvtShiftIn p d a b f bits s).Inv := float_inv h

/-! ### Reductions -/

theorem reduceOp_inv {p d a rounds f ext} (h : s.Inv) : (reduceOp p d a rounds f ext s).Inv := execFold_inv h

theorem reduceInt_inv {p d a f signed} (h : s.Inv) : (reduceInt p d a f signed s).Inv := reduceOp_inv h

theorem extremum_inv {p d a rank better} (h : s.Inv) : (extremum p d a rank better s).Inv := execFold_inv h

/-! ### The itinerary -/

theorem State.itinTrap_inv {w : Weft} {m : W64} (h : s.Inv) : (s.itinTrap w m).Inv := State.trapF_inv h

theorem execItnDone_inv {p : Pfx} (h : s.Inv) : (execItnDone p s).Inv :=
  execBare_inv h fun _ _ ht => State.ite_inv (State.itinTrap_inv ht) (State.release_inv ht (State.taskOf_inv ht))

theorem execItnNext_inv {p : Pfx} {d : Opnd} (h : s.Inv) : (execItnNext p d s).Inv := by
  refine issue_inv h fun w g => State.ite_inv (State.itinTrap_inv h) ?_
  split
  · exact writeS_inv h
  · exact State.ite_inv h (State.release_inv h (State.taskOf_inv h))

theorem needsTask_inv {w : Weft} {m : W64} {f : Task → State} (h : s.Inv) (hf : ∀ k, (f k).Inv) : (needsTask s w m f).Inv := by
  refine State.ite_inv (State.itinTrap_inv h) ?_
  split
  · exact hf _
  · exact State.itinTrap_inv h

theorem execItnStash_inv {p : Pfx} {d a : Opnd} (h : s.Inv) : (execItnStash p d a s).Inv :=
  issue_inv h fun _ _ => State.ite_inv h (needsTask_inv h fun _ => writeS_inv (State.popUses_inv h))

theorem execItnFree_inv {p : Pfx} {a : Opnd} (h : s.Inv) : (execItnFree p a s).Inv :=
  issue_inv h fun _ _ => State.ite_inv h (needsTask_inv h fun _ => State.popUses_inv h)

theorem execItnPost_inv {p : Pfx} {d : Opnd} (h : s.Inv) : (execItnPost p d s).Inv := by
  refine issue_inv h fun w g => State.ite_inv (State.release_inv h h) (needsTask_inv h fun k => ?_)
  exact State.ite_inv (State.itinTrap_inv h) (State.release_inv h (State.postSlot_inv (writeS_inv h)))

/-! ### Signals and launches -/

theorem sigOp_inv {p : Pfx} {a b : Opnd} {kind : AccKind} (h : s.Inv) : (sigOp p a b kind s).Inv :=
  issue_inv h fun _ _ => State.release_inv h (State.ite_inv h (State.ite_inv h (State.startAccess_inv h)))

theorem swaitOp_inv {p : Pfx} {d a b : Opnd} {cond : Nat} (h : s.Inv) : (swaitOp p d a b cond s).Inv :=
  issue_inv h fun _ _ => State.ite_inv (State.fenceAcq_inv h h) (State.ite_inv h (State.startAccess_inv h))

theorem launchOp_inv {p : Pfx} {d a : Opnd} {b : Option Opnd} (h : s.Inv) : (launchOp p d a b s).Inv := by
  refine issue_inv h fun w g => State.ite_inv h (State.ite_inv (State.trapF_inv h) (State.release_inv h ?_))
  exact State.ite_inv h (State.ite_inv h (State.startAccess_inv h))

/-! ### Near-memory commands -/

theorem execNmv_inv {p : Pfx} {d a : Opnd} (h : s.Inv) : (execNmv p d a s).Inv := by
  refine issue_inv h fun w g => ?_
  dsimp only
  split
  · exact h
  · refine State.ite_inv h (State.ite_inv h (State.ite_inv h (State.ite_inv h ?_)))
    split
    · exact State.trapF_inv h
    · exact State.acceptCmd_inv h

theorem execNmvcfg_inv {p : Pfx} {a : Opnd} (h : s.Inv) : (execNmvcfg p a s).Inv := by
  refine issue_inv h fun w g => ?_
  dsimp only
  split
  · exact h
  · exact State.ite_inv h (State.ite_inv h (State.ite_inv (State.trapF_inv h) h))

theorem State.segKey_inv {c : EngCmd} {va : W64} (h : s.Inv) : (s.segKey c va).1.Inv := by
  refine State.pair_ite_inv h ?_
  split
  · have h1 := State.snd_inv ‹s.translate _ _ _ _ = _› (State.translate_inv h)
    split
    · have h2 := State.snd_inv ‹State.leafOf _ _ _ = _› (State.leafOf_inv h1)
      exact State.pair_ite_inv h2 (State.pair_ite_inv h2 (State.countSpan_inv h2))
    · exact State.snd_inv ‹State.leafOf _ _ _ = _› (State.leafOf_inv h1)
  · exact State.snd_inv ‹s.translate _ _ _ _ = _› (State.translate_inv h)

theorem State.segKeys_inv {c : EngCmd} {va n j : Nat} (h : s.Inv) : (s.segKeys c va n j).1.Inv := by
  induction n generalizing s j with
  | zero => exact h
  | succ n ih =>
    unfold State.segKeys
    split <;> exact ih (State.fst_inv ‹s.segKey _ _ = _› (State.segKey_inv h))

theorem State.nmvRows_inv {c : EngCmd} {vk rk n r : Nat} (h : s.Inv) : (s.nmvRows c vk rk n r).1.Inv := by
  induction n generalizing s c r with
  | zero => exact h
  | succ n ih =>
    unfold State.nmvRows
    split <;> have h1 := State.fst_inv ‹s.segKeys _ _ _ _ = _› (State.segKeys_inv h)
    · exact ih (State.engErrors_inv h1)
    · exact State.pair_ite_inv (ih (State.engErrors_inv h1)) (ih (State.writeBytes_inv h1))

theorem execNmvComplete_inv {id : Nat} (h : s.Inv) : (execNmvComplete id s).Inv := by
  unfold execNmvComplete
  split
  · exact h
  · refine Res.ite_inv h (Res.ite_inv (State.engineFlush_inv h) (Res.ite_inv h ?_))
    split
    · exact h
    · split
      · exact State.endCmd_inv (State.nmvRows_inv h)
      · exact h

/-! ### Fences, persistence and waits -/

theorem execFence_inv {p : Pfx} {k : BitVec 2} {c : BitVec 3} (h : s.Inv) : (execFence p k c s).Inv :=
  execBare_inv h fun _ _ ht => State.ite_inv (State.waitOrder_inv ht) ht

theorem State.openPoint_inv {w : Weft} {counted : Bool} {kind lo len st : Nat} (h : s.Inv) : (s.openPoint w counted kind lo len st).Inv :=
  State.checkPersist_inv h

theorem pbarOp_inv {p : Pfx} {mend : Bool} (h : s.Inv) : (pbarOp p mend s).Inv :=
  execBare_inv h fun _ _ ht => State.ite_inv ht (State.ite_inv ht (State.openPoint_inv ht))

theorem execPflush_inv {p : Pfx} {a b : Opnd} (h : s.Inv) : (execPflush p a b s).Inv := by
  refine issue_inv h fun w g => State.ite_inv h (State.ite_inv h ?_)
  dsimp only
  split
  · exact State.openPoint_inv (State.flushComb_inv h)
  · exact State.flushComb_inv h

theorem execStepmark_inv {p : Pfx} {d : Opnd} {b : BitVec 7} (h : s.Inv) : (execStepmark p d b s).Inv :=
  issue_inv h fun _ _ => State.ite_inv h (State.ite_inv h (writeS_inv h))

theorem execWaitc_inv {p : Pfx} {a : Opnd} {b : BitVec 7} (h : s.Inv) : (execWaitc p a b s).Inv := by
  refine execWide_inv h fun t w v ht => State.ite_inv ht ?_
  have h1 {pick} : (if b = 1 then t.flushComb pick else t).Inv := State.ite_inv (State.flushComb_inv ht) ht
  dsimp only
  split <;> exact h1

theorem execWaitq_inv {p : Pfx} {a b : Opnd} (h : s.Inv) : (execWaitq p a b s).Inv := by
  unfold execWaitq
  split
  · trivial
  · refine Res.ite_inv (State.trapF_inv h) (execWide_inv h fun t w v ht => ?_)
    split
    · exact ht
    · exact State.ite_inv ht ht

theorem execWaitall_inv {p : Pfx} (h : s.Inv) : (execWaitall p s).Inv := execWide_inv h fun _ _ _ ht => State.ite_inv ht ht

/-! ### Queue operations -/

theorem queueOp_inv {p : Pfx} {uses : List Use} {bad : Weft → Bool} {body : Weft → Plan → State} (h : s.Inv)
    (hb : ∀ w g, (body w g).Inv) : (queueOp s p uses bad body).Inv := by
  unfold queueOp
  split
  · trivial
  · exact Res.ite_inv (State.trapF_inv h) (issue_inv h hb)

theorem execQtry_inv {p : Pfx} {d a b : Opnd} (h : s.Inv) : (execQtry p d a b s).Inv := by
  refine Res.ite_inv (queueOp_inv h fun w g => ?_) (queueOp_inv h fun w g => State.ite_inv h ?_)
  · split
    · exact h
    · exact State.pair_ite_inv (writeV_inv h) (writeS_inv (writeV_inv h))
  · split
    · exact State.ite_inv (State.dataTrap_inv h) (writeS_inv (writeS_inv (State.qPop_inv h)))
    · exact writeS_inv h

theorem execQcount_inv {p : Pfx} {d a : Opnd} (h : s.Inv) : (execQcount p d a s).Inv :=
  queueOp_inv h fun _ _ => State.ite_inv h (writeS_inv h)

theorem execQputtry_inv {p : Pfx} {d a b : Opnd} (h : s.Inv) : (execQputtry p d a b s).Inv := by
  refine Res.ite_inv (queueOp_inv h fun w g => ?_) (queueOp_inv h fun w g => State.ite_inv h ?_)
  · split
    · exact h
    · exact State.pair_ite_inv h (writeS_inv h)
  · exact State.pair_ite_inv (writeS_inv (State.popUses_inv h)) (writeS_inv (State.qPush_inv (State.popUses_inv h)))

/-! ### Soft errors -/

theorem State.fatalSoft_inv {c : Nat} (h : s.Inv) : (s.fatalSoft c).Inv := by
  unfold State.fatalSoft
  split
  · exact State.fatal_inv h
  · exact State.ite_inv h (State.beginTeardown_inv (State.setCtx_inv h))

theorem State.softInflight_inv {w : Weft} (h : s.Inv) : (s.softInflight w).Inv :=
  State.ite_inv (State.discardOps_inv h) (State.takeTrap_inv (State.discardOps_inv h))

theorem State.dropOrphan_inv {id : Nat} (h : s.Inv) : (s.dropOrphan id).Inv := by
  unfold State.dropOrphan
  split
  · exact State.abandonCmd_inv h
  · exact h

theorem State.dropOrphanMat_inv {id : Nat} (h : s.Inv) : (s.dropOrphanMat id).Inv := by
  refine State.foldl_inv (fun u t hu => ?_) _ h
  split
  · dsimp only
    split <;> exact State.returnToken_inv hu
  · exact hu

theorem State.softEngine_inv {id : Nat} (h : s.Inv) : (s.softEngine id).Inv := by
  unfold State.softEngine
  split
  · exact State.ite_inv h (State.dropOrphan_inv (State.foldl_inv (fun _ _ ht => State.softInflight_inv ht) _ h))
  · exact State.dropOrphanMat_inv (State.foldl_inv (fun _ _ ht => State.softInflight_inv ht) _ h)

theorem State.poison_inv {k : Nat} (h : s.Inv) : (s.poison k).Inv := State.ite_inv h h

theorem State.softTranslation_inv {chan : Nat} (h : s.Inv) : (s.softTranslation chan).Inv :=
  State.foldl_inv (fun _ _ ht => State.rewalk_inv ht) _ h

theorem execSoftError_inv {place : SoftPlace} (h : s.Inv) : (execSoftError place s).Inv := by
  refine State.ite_inv h ?_
  cases place with
  | sreg core slot n | vreg core slot n =>
    dsimp only
    split <;> exact h
  | control core slot =>
    dsimp only
    split
    · exact State.fatal_inv h
    · exact h
  | queue team =>
    dsimp only
    split
    · exact State.fatalSoft_inv h
    · exact h
  | inflight core slot =>
    dsimp only
    split
    · exact State.softInflight_inv h
    · exact h
  | engine id => exact State.softEngine_inv h
  | spad key | line key => exact State.poison_inv h
  | translation chan => exact State.emit_inv (State.softTranslation_inv h)
  | ctrl ctx => exact State.fatalSoft_inv h
  | tags ctxs => exact State.foldl_inv (fun _ _ ht => State.fatalSoft_inv ht) _ h
  | icache core | stageQueue pipe k i | corrected place => exact h

end Sys2Proof.Machine
end

section
/-! PROOF of O60. Canonical memory: the fetch of a group, every instruction and every step. -/

namespace Sys2Proof.Machine
variable {s : State}

/-! ### Fetching a group -/

theorem State.codeLine_inv {w : Weft} {va : Nat} (h : s.Inv) : (s.codeLine w va).1.Inv := by
  unfold State.codeLine
  split
  · exact h
  · refine State.pair_ite_inv h ?_
    split
    · have h1 := State.snd_inv ‹s.translate _ _ _ _ = _› (State.translate_inv h)
      exact State.pair_ite_inv h (State.fillLine_inv (State.ite_inv (State.countLine_inv h1) h1))
    · exact h

theorem State.codeWord_inv {w : Weft} {va : Nat} (h : s.Inv) : (s.codeWord w va).1.Inv := by
  unfold State.codeWord
  split <;> exact State.fst_inv ‹s.codeLine _ _ = _› (State.codeLine_inv h)

theorem State.fetchWords_inv {w : Weft} {n va : Nat} {ws : List W32} (h : s.Inv) : (s.fetchWords w n va ws).1.Inv := by
  induction n generalizing s va ws with
  | zero => exact h
  | succ n ih =>
    unfold State.fetchWords
    split <;> have h1 := State.fst_inv ‹s.codeWord _ _ = _› (State.codeWord_inv h)
    · exact h1
    · exact State.pair_ite_inv (ih h1) h1

theorem State.fetchGroup_inv {w : Weft} (h : s.Inv) : (s.fetchGroup w).1.Inv := State.fetchWords_inv h

theorem State.startFetch_inv {w : Weft} {line : Nat} (h : s.Inv) : (s.startFetch w line).Inv := State.startAccess_inv h

theorem State.decodeTrap_inv {w : Weft} {f : Fate} (h : s.Inv) : (s.decodeTrap w f).Inv := by
  cases f with
  | illop d => exact State.trapF_inv h
  | illopnd => exact State.trapF_inv h
  | queue => exact State.trapF_inv h

/-! ### Every instruction and every step of the device -/

/-- The instructions in the groups that share one meaning, and each other one by the lemma of its own step. -/
theorem exec_inv (i : Instr) (h : s.Inv) : Res.Inv (exec i s) := by
  cases i with
  | perst | i3cDynamicAddressAssignment | i3cEventEnable | i3cReset | detach | run | debugStep | release | droopDetect |
    rationCycleEnd =>
    simp only [exec_perst, exec_i3cDynamicAddressAssignment, exec_i3cEventEnable, exec_i3cReset, exec_detach, exec_run,
      exec_debugStep, exec_release, exec_droopDetect, exec_rationCycleEnd]
    exact h
  | pfail => rw [exec_pfail]; exact State.powerFails_inv h
  | vauxLoss => rw [exec_vauxLoss]; exact State.unpowered_inv h
  | quoteGo | imbQuoteGo =>
    simp only [exec_quoteGo, exec_imbQuoteGo]
    exact State.goQuote_inv h
  | alertClear => rw [exec_alertClear]; exact State.setAlert_inv h
  | map | unmap =>
    simp only [exec_map, exec_unmap]
    exact State.mapOp_inv h
  | bootStart => rw [exec_bootStart]; exact execBootStart_inv h
  | bootRom => rw [exec_bootRom]; exact execBootRom_inv h
  | brchk => rw [exec_brchk]; exact execBrchk_inv h
  | ident => rw [exec_ident]; exact execIdent_inv h
  | fwload => rw [exec_fwload]; exact execFwload_inv h
  | dies => rw [exec_dies]; exact execDies_inv h
  | meminit => rw [exec_meminit]; exact execMeminit_inv h
  | ready => rw [exec_ready]; exact execReady_inv h
  | pcieLinkTraining => rw [exec_pcieLinkTraining]; exact execPcieLinkTraining_inv h
  | configRequest => rw [exec_configRequest]; exact execConfigRequest_inv h
  | railFault => rw [exec_railFault]; exact execRailFault_inv h
  | hamperAcceptanceClose => rw [exec_hamperAcceptanceClose]; exact execHamperAcceptanceClose_inv h
  | hamperDrained => rw [exec_hamperDrained]; exact execHamperDrained_inv h
  | sealRecordWrite => rw [exec_sealRecordWrite]; exact execSealRecordWrite_inv h
  | pstepAccept => rw [exec_pstepAccept]; exact execPstepAccept_inv h
  | thermalTripRelease => rw [exec_thermalTripRelease]; exact execThermalTripRelease_inv h
  | pkgidWrite => rw [exec_pkgidWrite]; exact execPkgidWrite_inv h
  | recordFetch => rw [exec_recordFetch]; exact execRecordFetch_inv h
  | context0Create => rw [exec_context0Create]; exact execContext0Create_inv h
  | quoteDone => rw [exec_quoteDone]; exact execQuoteDone_inv h
  | waitvRetest => rw [exec_waitvRetest]; exact execWaitvRetest_inv h
  | deferredFaultEvent => rw [exec_deferredFaultEvent]; exact execDeferredFaultEvent_inv h
  | accessAnswer => rw [exec_accessAnswer]; exact execAccessAnswer_inv h
  | combineIdleFlush => rw [exec_combineIdleFlush]; exact execCombineIdleFlush_inv h
  | fabricRequest => rw [exec_fabricRequest]; exact execFabricRequest_inv h
  | fabricResponse => rw [exec_fabricResponse]; exact execFabricResponse_inv h
  | fabricTimeout => rw [exec_fabricTimeout]; exact execFabricTimeout_inv h
  | fabricEvent => rw [exec_fabricEvent]; exact execFabricEvent_inv h
  | planeSilenceTimeout => rw [exec_planeSilenceTimeout]; exact execPlaneSilenceTimeout_inv h
  | switchPortFailed => rw [exec_switchPortFailed]; exact execSwitchPortFailed_inv h
  | switchReachabilityReport => rw [exec_switchReachabilityReport]; exact execSwitchReachabilityReport_inv h
  | fabricLinkTrained => rw [exec_fabricLinkTrained]; exact execFabricLinkTrained_inv h
  | starvationForce => rw [exec_starvationForce]; exact execStarvationForce_inv h
  | hamperWriteback => rw [exec_hamperWriteback]; exact execHamperWriteback_inv h
  | hbmRefresh => rw [exec_hbmRefresh]; exact execHbmRefresh_inv h
  | alertBackoff => rw [exec_alertBackoff]; exact execAlertBackoff_inv h
  | teamPlace => rw [exec_teamPlace]; exact execTeamPlace_inv h
  | pipelineStart => rw [exec_pipelineStart]; exact execPipelineStart_inv h
  | teamRetire => rw [exec_teamRetire]; exact execTeamRetire_inv h
  | timeSliceExpiry => rw [exec_timeSliceExpiry]; exact execTimeSliceExpiry_inv h
  | pdlExpiry => rw [exec_pdlExpiry]; exact execPdlExpiry_inv h
  | softError => rw [exec_softError]; exact execSoftError_inv h
  | sleepExpiry => rw [exec_sleepExpiry]; exact execSleepExpiry_inv h
  | swaitPoll => rw [exec_swaitPoll]; exact execSwaitPoll_inv h
  | itineraryDispatch => rw [exec_itineraryDispatch]; exact execItineraryDispatch_inv h
  | controlBlockReread => rw [exec_controlBlockReread]; exact execControlBlockReread_inv h
  | stallReport => rw [exec_stallReport]; exact execStallReport_inv h
  | encodeStep => rw [exec_encodeStep]; exact execEncodeStep_inv h
  | doneMessage => rw [exec_doneMessage]; exact execDoneMessage_inv h
  | heartbeatSend => rw [exec_heartbeatSend]; exact execHeartbeatSend_inv h
  | memberLoss => rw [exec_memberLoss]; exact execMemberLoss_inv h
  | backfillComplete => rw [exec_backfillComplete]; exact execBackfillComplete_inv h
  | attach => rw [exec_attach]; exact execAttach_inv h
  | debugHalt => rw [exec_debugHalt]; exact execDebugHalt_inv h
  | debugRead => rw [exec_debugRead]; exact execDebugRead_inv h
  | debugWrite => rw [exec_debugWrite]; exact execDebugWrite_inv h
  | i3cPrivateRead => rw [exec_i3cPrivateRead]; exact execI3cPrivateRead_inv h
  | perstRelease => rw [exec_perstRelease]; exact execPerstRelease_inv h
  | level2Save => rw [exec_level2Save]; exact execLevel2Save_inv h
  | controlInterval => rw [exec_controlInterval]; exact execControlInterval_inv h
  | stepLeave => rw [exec_stepLeave]; exact execStepLeave_inv h
  | opGlideComplete => rw [exec_opGlideComplete]; exact execOpGlideComplete_inv h
  | capWrite => rw [exec_capWrite]; exact execCapWrite_inv h
  | doorbell => rw [exec_doorbell]; exact execDoorbell_inv h
  | errClear => rw [exec_errClear]; exact execErrClear_inv h
  | fqReadIndex => rw [exec_fqReadIndex]; exact execFqReadIndex_inv h
  | stepStop => rw [exec_stepStop]; exact execStepStop_inv h
  | patrolScrub => rw [exec_patrolScrub]; exact execPatrolScrub_inv h
  | preemptAutoResume => rw [exec_preemptAutoResume]; exact execPreemptAutoResume_inv h
  | contextSave => rw [exec_contextSave]; exact execContextSave_inv h
  | teardownComplete => rw [exec_teardownComplete]; exact execTeardownComplete_inv h
  | shcopyCollectiveStart => rw [exec_shcopyCollectiveStart]; exact execShcopyCollectiveStart_inv h
  | sync => rw [exec_sync]; exact execSync_inv h
  | stepend => rw [exec_stepend]; exact execStepend_inv h
  | stependAck => rw [exec_stependAck]; exact execStependAck_inv h
  | stepCommit => rw [exec_stepCommit]; exact execStepCommit_inv h
  | kinit => rw [exec_kinit]; exact execKinit_inv h
  | kexpect => rw [exec_kexpect]; exact execKexpect_inv h
  | kwait => rw [exec_kwait]; exact execKwait_inv h
  | registerWrite => rw [exec_registerWrite]; exact execRegisterWrite_inv h
  | copy => rw [exec_copy]; exact execCopy_inv h
  | shuttleStart => rw [exec_shuttleStart]; exact execShuttleStart_inv h
  | sectorPerformed => rw [exec_sectorPerformed]; exact execSectorPerformed_inv h
  | shuttleComplete => rw [exec_shuttleComplete]; exact execShuttleComplete_inv h
  | matrixKstep => rw [exec_matrixKstep]; exact execMatrixKstep_inv h
  | matrixComplete => rw [exec_matrixComplete]; exact execMatrixComplete_inv h
  | nmvComplete => rw [exec_nmvComplete]; exact execNmvComplete_inv h
  | tret => rw [exec_tret]; exact execTret_inv h
  | waitq => rw [exec_waitq]; exact execWaitq_inv h
  | launch => rw [exec_launch]; exact execLaunch_inv h
  | signal => rw [exec_signal]; exact execSignal_inv h
  | waitv => rw [exec_waitv]; exact execWaitv_inv h
  | phase => rw [exec_phase]; exact execPhase_inv h
  | resume => rw [exec_resume]; exact execResume_inv h
  | ctxCreate => rw [exec_ctxCreate]; exact execCtxCreate_inv h
  | ctxDestroy => rw [exec_ctxDestroy]; exact execCtxDestroy_inv h
  | ctxPreempt => rw [exec_ctxPreempt]; exact execCtxPreempt_inv h
  | ctxResume => rw [exec_ctxResume]; exact execCtxResume_inv h
  | stepLoad => rw [exec_stepLoad]; exact execStepLoad_inv h
  | stepStart => rw [exec_stepStart]; exact execStepStart_inv h
  | snapDefineRegion => rw [exec_snapDefineRegion]; exact execSnapDefineRegion_inv h
  | snapReleaseRegion => rw [exec_snapReleaseRegion]; exact execSnapReleaseRegion_inv h
  | snapAwaitStep => rw [exec_snapAwaitStep]; exact execSnapAwaitStep_inv h
  | mendDeclareGroup => rw [exec_mendDeclareGroup]; exact execMendDeclareGroup_inv h
  | mendRebuild => rw [exec_mendRebuild]; exact execMendRebuild_inv h
  | getsr => rw [exec_getsr]; exact execGetsr_inv h
  | vshape => rw [exec_vshape]; exact execVshape_inv h
  | qtry => rw [exec_qtry]; exact execQtry_inv h
  | qputtry => rw [exec_qputtry]; exact execQputtry_inv h
  | mendGroupRollback => rw [exec_mendGroupRollback]; exact execMendGroupRollback_inv h
  | nop => rw [exec_nop]; exact execNop_inv h
  | exit => rw [exec_exit]; exact execExit_inv h
  | yield => rw [exec_yield]; exact execYield_inv h
  | trig => rw [exec_trig]; exact execTrig_inv h
  | rgn => rw [exec_rgn]; exact execRgn_inv h
  | ifence => rw [exec_ifence]; exact execIfence_inv h
  | win => rw [exec_win]; exact execWin_inv h
  | fence => rw [exec_fence]; exact execFence_inv h
  | itnDone => rw [exec_itnDone]; exact execItnDone_inv h
  | barArrive => rw [exec_barArrive]; exact execBarArrive_inv h
  | barWait => rw [exec_barWait]; exact execBarWait_inv h
  | brk => rw [exec_brk]; exact execBrk_inv h
  | setsr => rw [exec_setsr]; exact execSetsr_inv h
  | trap => rw [exec_trap]; exact execTrap_inv h
  | vlset => rw [exec_vlset]; exact execVlset_inv h
  | xset => rw [exec_xset]; exact execXset_inv h
  | xclr => rw [exec_xclr]; exact execXclr_inv h
  | pflush => rw [exec_pflush]; exact execPflush_inv h
  | stepmark => rw [exec_stepmark]; exact execStepmark_inv h
  | karrive => rw [exec_karrive]; exact execKarrive_inv h
  | ktest => rw [exec_ktest]; exact execKtest_inv h
  | kinval => rw [exec_kinval]; exact execKinval_inv h
  | mcfg => rw [exec_mcfg]; exact execMcfg_inv h
  | nmv => rw [exec_nmv]; exact execNmv_inv h
  | nmvcfg => rw [exec_nmvcfg]; exact execNmvcfg_inv h
  | itnNext => rw [exec_itnNext]; exact execItnNext_inv h
  | itnStash => rw [exec_itnStash]; exact execItnStash_inv h
  | itnFree => rw [exec_itnFree]; exact execItnFree_inv h
  | itnPost => rw [exec_itnPost]; exact execItnPost_inv h
  | sleep => rw [exec_sleep]; exact execSleep_inv h
  | br => rw [exec_br]; exact execBr_inv h
  | brz => rw [exec_brz]; exact execBrz_inv h
  | brnz => rw [exec_brnz]; exact execBrnz_inv h
  | brem => rw [exec_brem]; exact execBrem_inv h
  | loop => rw [exec_loop]; exact execLoop_inv h
  | call => rw [exec_call]; exact execCall_inv h
  | jmp => rw [exec_jmp]; exact execJmp_inv h
  | callr => rw [exec_callr]; exact execCallr_inv h
  | waitc => rw [exec_waitc]; exact execWaitc_inv h
  | waitall => rw [exec_waitall]; exact execWaitall_inv h
  | sadd | ssub | smul | smulhi | smulhn | sand | sor | sxor | sandn | sshl | sshr | ssra | smin | smax | sminn | smaxn | seq
    | sne | slt | sle | sltn | slen =>
    simp only [exec_sadd, exec_ssub, exec_smul, exec_smulhi, exec_smulhn, exec_sand, exec_sor, exec_sxor, exec_sandn, exec_sshl,
      exec_sshr, exec_ssra, exec_smin, exec_smax, exec_sminn, exec_smaxn, exec_seq, exec_sne, exec_slt, exec_sle, exec_sltn,
      exec_slen]
    exact scalar2_inv h
  | sclz | spopc | sffs | sbrev | saddi | sandi | sori | sxori =>
    simp only [exec_sclz, exec_spopc, exec_sffs, exec_sbrev, exec_saddi, exec_sandi, exec_sori, exec_sxori]
    exact scalar1_inv h
  | sli | xget | stepq | itnStat | lnchq =>
    simp only [exec_sli, exec_xget, exec_stepq, exec_itnStat, exec_lnchq]
    exact execScalar_inv h
  | vadd | vsub | vmul | vmulhi | vmulhn | vand | vor | vxor | vandn | vshl | vshr | vsra | vmin | vmax | vminn | vmaxn |
    vabsd | vsadd | vssub | vsaddn | vssubn | vbfe | vbfes | fcpys | hcpys | vperm =>
    simp only [exec_vadd, exec_vsub, exec_vmul, exec_vmulhi, exec_vmulhn, exec_vand, exec_vor, exec_vxor, exec_vandn, exec_vshl,
      exec_vshr, exec_vsra, exec_vmin, exec_vmax, exec_vminn, exec_vmaxn, exec_vabsd, exec_vsadd, exec_vssub, exec_vsaddn,
      exec_vssubn, exec_vbfe, exec_vbfes, exec_fcpys, exec_hcpys, exec_vperm]
    exact vec2_inv h
  | vmad | vbfi =>
    simp only [exec_vmad, exec_vbfi]
    exact vec3_inv h
  | vabs | vclz | vpopc | vbrev | fabs | fneg | fclass | habs | hneg | cvtE8m0F32 | vmov =>
    simp only [exec_vabs, exec_vclz, exec_vpopc, exec_vbrev, exec_fabs, exec_fneg, exec_fclass, exec_habs, exec_hneg,
      exec_cvtE8m0F32, exec_vmov]
    exact vec1_inv h
  | vaddw | vsubw =>
    simp only [exec_vaddw, exec_vsubw]
    exact wide2_inv h
  | vaddi | vandi | vshli | vshri | vsrai | vmuli =>
    simp only [exec_vaddi, exec_vandi, exec_vshli, exec_vshri, exec_vsrai, exec_vmuli]
    exact vecI_inv h
  | vcmp | vcmph =>
    simp only [exec_vcmp, exec_vcmph]
    exact compare2_inv h
  | fadd | fsub | fmul | fdiv =>
    simp only [exec_fadd, exec_fsub, exec_fmul, exec_fdiv]
    exact f2_inv h
  | ffma | ffms | fnma | fnms =>
    simp only [exec_ffma, exec_ffms, exec_fnma, exec_fnms]
    exact f3_inv h
  | fmin | fmax | fminn | fmaxn =>
    simp only [exec_fmin, exec_fmax, exec_fminn, exec_fmaxn]
    exact f2raw_inv h
  | fsqrt | frcp | frsq | fexp2 | flog2 | fsin | fcos | frint =>
    simp only [exec_fsqrt, exec_frcp, exec_frsq, exec_fexp2, exec_flog2, exec_fsin, exec_fcos, exec_frint]
    exact f1_inv h
  | ffloor | fceil | ftrunc =>
    simp only [exec_ffloor, exec_fceil, exec_ftrunc]
    exact fInt_inv h
  | fscale | hfma | hdot2 | cvtI8F32 =>
    simp only [exec_fscale, exec_hfma, exec_hdot2, exec_cvtI8F32]
    exact float_inv h
  | hadd | hsub | hmul =>
    simp only [exec_hadd, exec_hsub, exec_hmul]
    exact h2_inv h
  | hmin | hmax | hminn | hmaxn =>
    simp only [exec_hmin, exec_hmax, exec_hminn, exec_hmaxn]
    exact h2raw_inv h
  | cvtF32I32 | cvtF32N32 =>
    simp only [exec_cvtF32I32, exec_cvtF32N32]
    exact cvtFromInt_inv h
  | cvtI32F32 | cvtN32F32 =>
    simp only [exec_cvtI32F32, exec_cvtN32F32]
    exact cvtToInt_inv h
  | cvtF32F16 | cvtF32Bf16 | cvtF32E4m3 | cvtF32E5m2 | cvtF32E2m1 | cvtF32I8 | cvtF32E8m0 | cvtF32N8 =>
    simp only [exec_cvtF32F16, exec_cvtF32Bf16, exec_cvtF32E4m3, exec_cvtF32E5m2, exec_cvtF32E2m1, exec_cvtF32I8,
      exec_cvtF32E8m0, exec_cvtF32N8]
    exact cvtSelect_inv h
  | cvtF16x2F32 | cvtBf16x2F32 =>
    simp only [exec_cvtF16x2F32, exec_cvtBf16x2F32]
    exact cvtPack_inv h
  | cvtE4m3F32 | cvtE5m2F32 | cvtE2m1F32 =>
    simp only [exec_cvtE4m3F32, exec_cvtE5m2F32, exec_cvtE2m1F32]
    exact cvtShiftIn_inv h
  | vbcast | vlget | vaffine | vballot | vbits =>
    simp only [exec_vbcast, exec_vlget, exec_vaffine, exec_vballot, exec_vbits]
    exact execVec_inv h
  | vshup | vshdn | vshxor =>
    simp only [exec_vshup, exec_vshdn, exec_vshxor]
    exact shiftLanes_inv h
  | vredAddI32 | vredMinI32 | vredMaxI32 | vredAnd | vredOr | vredXor =>
    simp only [exec_vredAddI32, exec_vredMinI32, exec_vredMaxI32, exec_vredAnd, exec_vredOr, exec_vredXor]
    exact reduceInt_inv h
  | vredAddF32 | vredMinF32 | vredMaxF32 =>
    simp only [exec_vredAddF32, exec_vredMinF32, exec_vredMaxF32]
    exact reduceOp_inv h
  | vscanAddI32 | vscanAddF32 =>
    simp only [exec_vscanAddI32, exec_vscanAddF32]
    exact execFold_inv h
  | vargmaxF32 | vargminF32 =>
    simp only [exec_vargmaxF32, exec_vargminF32]
    exact extremum_inv h
  | xoff | xadd =>
    simp only [exec_xoff, exec_xadd]
    exact xWrite_inv h
  | xgetc => rw [exec_xgetc]; exact execLanes_inv h
  | mif | melse | mend | mset | mget | elect | mwhile =>
    simp only [exec_mif, exec_melse, exec_mend, exec_mset, exec_mget, exec_elect, exec_mwhile]
    exact maskOp_inv h
  | bru => rw [exec_bru]; exact execBru_inv h
  | jmpv => rw [exec_jmpv]; exact execJmpv_inv h
  | ld | lds =>
    simp only [exec_ld, exec_lds]
    exact loadOp_inv h
  | st | sts =>
    simp only [exec_st, exec_sts]
    exact storeOp_inv h
  | atomAddI32 | atomAddI64 | atomAddF32 | atomMinI32 | atomMaxI32 | atomMinN32 | atomMaxN32 | atomMinN64 | atomMaxN64 |
    atomAndB32 | atomOrB32 | atomXorB32 | atomXchgB32 | atomXchgB64 | atomFminF32 | atomFmaxF32 | atomAddBf16x2 | atomsAddI32 |
    atomsAddI64 | atomsAddF32 | atomsMinI32 | atomsMaxI32 | atomsMinN32 | atomsMaxN32 | atomsMinN64 | atomsMaxN64 | atomsAndB32
    | atomsOrB32 | atomsXorB32 | atomsXchgB32 | atomsXchgB64 | atomsFminF32 | atomsFmaxF32 | atomsAddBf16x2 =>
    simp only [exec_atomAddI32, exec_atomAddI64, exec_atomAddF32, exec_atomMinI32, exec_atomMaxI32, exec_atomMinN32,
      exec_atomMaxN32, exec_atomMinN64, exec_atomMaxN64, exec_atomAndB32, exec_atomOrB32, exec_atomXorB32, exec_atomXchgB32,
      exec_atomXchgB64, exec_atomFminF32, exec_atomFmaxF32, exec_atomAddBf16x2, exec_atomsAddI32, exec_atomsAddI64,
      exec_atomsAddF32, exec_atomsMinI32, exec_atomsMaxI32, exec_atomsMinN32, exec_atomsMaxN32, exec_atomsMinN64,
      exec_atomsMaxN64, exec_atomsAndB32, exec_atomsOrB32, exec_atomsXorB32, exec_atomsXchgB32, exec_atomsXchgB64,
      exec_atomsFminF32, exec_atomsFmaxF32, exec_atomsAddBf16x2]
    exact atomOp_inv h
  | atomCasB32 | atomCasB64 | atomsCasB32 | atomsCasB64 =>
    simp only [exec_atomCasB32, exec_atomCasB64, exec_atomsCasB32, exec_atomsCasB64]
    exact casOp_inv h
  | sigAdd | sigSet =>
    simp only [exec_sigAdd, exec_sigSet]
    exact sigOp_inv h
  | swaitGe | swaitEq | swaitNe =>
    simp only [exec_swaitGe, exec_swaitEq, exec_swaitNe]
    exact swaitOp_inv h
  | pbarPkg | pbarMend =>
    simp only [exec_pbarPkg, exec_pbarMend]
    exact pbarOp_inv h
  | shcopy | shtile | shgath | shscat | shfill =>
    simp only [exec_shcopy, exec_shtile, exec_shgath, exec_shscat, exec_shfill]
    exact shuttleOp_inv h
  | mzero | mloop | mstep | mcvt | mscal =>
    simp only [exec_mzero, exec_mloop, exec_mstep, exec_mcvt, exec_mscal]
    exact matOp_inv h
  | lnch | lnchDep =>
    simp only [exec_lnch, exec_lnchDep]
    exact launchOp_inv h
  | barTeam | barRole =>
    simp only [exec_barTeam, exec_barRole]
    exact barBoth_inv h
  | qcount => rw [exec_qcount]; exact execQcount_inv h

theorem issueWeft_inv {w : Weft} (h : s.Inv) : Res.Inv (issueWeft w s) := by
  unfold issueWeft
  split <;> have h1 := State.fst_inv ‹State.fetchGroup _ _ = _› (State.fetchGroup_inv (s := { s with focus := (w.core, w.slot) }) h)
  · exact State.mark_inv (State.startFetch_inv h1)
  · split
    · exact Res.ite_inv (State.mark_inv h1) (Res.andThen_inv (exec_inv _ h1) fun _ ht => State.after_inv h1 ht)
    · exact State.after_inv h1 (State.decodeTrap_inv h1)
    · exact State.after_inv h1 (State.decodeTrap_inv h1)

theorem step_inv (h : s.Inv) : Res.Inv (step s) := by
  unfold step
  split
  · next i r _ => exact exec_inv (s := { s with agenda := r }) i h
  · refine Res.ite_inv ?_ (Res.ite_inv ?_ ?_)
    · split
      · exact exec_inv _ h
      · exact h
    · split
      · exact exec_inv _ h
      · exact h
    · split
      · exact issueWeft_inv h
      · exact State.endCycle_inv h

theorem State.reset_inv : State.reset.Inv := rfl

/-- Settles O60: the form is kept by every writer of memory, so by each instruction and by each step. -/
theorem memoryStaysCanonical : Obligations.MemoryStaysCanonical := by
  unfold Obligations.MemoryStaysCanonical
  exact ⟨State.reset_inv, fun i _ _ h e => Res.inv_next (exec_inv i h) e, fun _ _ h e => Res.inv_next (step_inv h) e⟩

end Sys2Proof.Machine
end

section
/-! SUPPORT of O37. Boot: what a failure, a raised alert, a drain of the hampers and a drop of cells leave, and what each step of
boot answers in its own state. -/

namespace Sys2Proof.Machine
variable {s : State}

/-! ### Alerts, failures and the transition to READY -/

@[simp] theorem State.alert_boot (bit : Nat) : (s.alert bit).boot = s.boot := by
  unfold State.alert; dsimp only; split <;> rfl

@[simp] theorem State.alert_power (bit : Nat) : (s.alert bit).power = s.power := by
  unfold State.alert; dsimp only; split <;> rfl

@[simp] theorem State.alert_perst (bit : Nat) : (s.alert bit).host.perst = s.host.perst := by
  unfold State.alert; dsimp only; split <;> rfl

@[simp] theorem State.alert_alertst (bit : Nat) : (s.alert bit).host.alertst = s.host.alertst ||| BitVec.ofNat 9 (2 ^ bit) := by
  unfold State.alert; dsimp only; split <;> rfl

/-- Boot has stopped with a cause, and says so (R36, R125). -/
def State.FailsWith (t : State) (cause : Nat) : Prop :=
  t.boot.st = .fail ∧ t.boot.cause = BitVec.ofNat 8 cause ∧ t.host.alertst.getLsbD 0 = true

theorem State.bootFail_failsWith (s : State) (cause : Nat) : (s.bootFail cause).FailsWith cause := by
  unfold State.FailsWith State.bootFail
  simp

theorem State.toReady_boot : s.toReady.boot = { s.boot with st := .ready, readyPending := false } := by simp [State.toReady]

theorem State.toReady_psel : s.toReady.power.psel = s.power.pselLatched := by simp [State.toReady]

theorem State.toReady_perst : s.toReady.host.perst = s.host.perst := by simp [State.toReady]

theorem State.toReady_alerts : s.toReady.host.alertst.getLsbD 1 = true := by simp [State.toReady]

/-! ### The hampers and the cells that go -/

theorem State.foldl_settleEntry_boot (l : List HampEntry) (s : State) : (l.foldl State.settleEntry s).boot = s.boot := by
  induction l generalizing s with
  | nil => rfl
  | cons e l ih => exact ih (s.settleEntry e)

theorem State.drainHampers_boot : s.drainHampers.boot = s.boot := State.foldl_settleEntry_boot _ s

/-- Settling entries in their order leaves in a stack what the newest of them holds (R172). -/
theorem State.get_foldl_settleEntry (l : List HampEntry) (s : State) (k : Nat) (h : s.Inv) (hn : ∀ e ∈ l, (e.bytes.map Prod.fst).Nodup) :
    Memory.get (l.foldl State.settleEntry s).mem k = (hampByte k l).getD (Memory.get s.mem k) := by
  induction l generalizing s with
  | nil => rfl
  | cons e l ih =>
    have hs : Memory.get (s.settleEntry e).mem k = (cellAt k e.bytes).getD (Memory.get s.mem k) :=
      get_setAll_cellAt s.mem e.bytes k h (hn e List.mem_cons_self)
    rw [List.foldl_cons, ih _ (State.settleEntry_inv h) fun x hx => hn x (List.mem_cons_of_mem _ hx), hs, hampByte]
    cases hampByte k l <;> rfl

theorem State.get_drainHampers (k : Nat) (h : s.Inv) (hk : keyIsScm k = true) (hn : ∀ e ∈ s.hamp, (e.bytes.map Prod.fst).Nodup) :
    Memory.get s.drainHampers.mem k = s.byte k := by
  rw [State.byte, if_pos hk]
  refine (State.get_foldl_settleEntry s.hamp s k h hn).trans ?_
  cases hampByte k s.hamp <;> rfl

/-- A drop of cells by their keys leaves the others. -/
theorem Memory.get_filter (m : Memory) (p : Nat → Bool) (k : Nat) (h : Memory.wf m = true) :
    Memory.get (m.filter fun c => p c.1) k = if p k then Memory.get m k else Memory.unlisted := by
  induction m with
  | nil => simp [Memory.get]
  | cons c r ih =>
    obtain ⟨a, b⟩ := c
    obtain ⟨-, ha, hr⟩ := Memory.wf_cons.1 h
    by_cases hak : a = k
    · subst hak
      by_cases hp : p a = true
      · simp [Memory.get, hp]
      · simp [hp, Memory.get_above (Memory.above_filter r _ hr ha)]
    · have hlt : k < a → Memory.get r k = Memory.unlisted := fun hk => Memory.get_above (Memory.above_trans hk ha)
      rw [Memory.get, if_neg hak]
      by_cases hp : p a = true
      · rw [List.filter_cons, if_pos hp, Memory.get, if_neg hak, ih hr]
        split <;> simp
      · rw [List.filter_cons, if_neg hp, ih hr]
        by_cases hk : k < a
        · simp [hlt hk]
        · rw [if_neg hk]

/-! ### The steps of boot -/

theorem State.booting_of {b : BootSt} (hb : s.boot.st = b) (hp : s.power.pf = .idle) : s.booting b = true := by
  simp [State.booting, hb, hp]

@[simp] theorem length_padTo (n : Nat) (bs : List Byte) : (padTo n bs).length = n := by
  simp only [padTo, zeros, List.length_append, List.length_take, List.length_replicate]
  omega

theorem exec_bootStart_off (h : s.boot.st = .off) : exec .bootStart s = .next (s.bootTo .rom) := by
  rw [exec_bootStart, execBootStart, if_pos h]

theorem exec_bootRom_booting (h : s.booting .rom = true) : exec .bootRom s
    = .next { s with boot := { s.boot with st := .brchk, puf := padTo 8192 (Config.pufSram s.draws) }, draws := s.draws + 1 } := by
  rw [exec_bootRom, execBootRom, if_pos h, pufLen]

theorem State.bytes_birthCopy (k : Nat) : s.bytes (scmKey (16 * k) 0) 20704 = s.birthCopy k := rfl

/-- BRCHK without a copy that verifies (R28). -/
theorem exec_brchk_none (h : s.booting .brchk = true) (hk : (List.range 6).find? (fun k => recordVerifies (s.birthCopy k)) = none) :
    exec .brchk s = .next (s.bootFail 2) := by
  simp only [exec_brchk, execBrchk, if_pos h, hk]

/-- The state after BRCHK has taken the copy of a stack (R27, assumption 8). -/
def State.withCopy (s : State) (k : Nat) : State := { s with boot := { s.boot with brcopy := BitVec.ofNat 3 k } }

theorem exec_brchk_bad {k : Nat} (h : s.booting .brchk = true)
    (hk : (List.range 6).find? (fun k => recordVerifies (s.birthCopy k)) = some k) (hb : recBad (s.birthCopy k) = true) :
    exec .brchk s = .next ((s.withCopy k).bootFail 3) := by
  simp only [exec_brchk, execBrchk, if_pos h, hk, if_pos hb, State.withCopy]

/-- The state after BRCHK has read the copy of a stack (R27, R33). -/
def State.withRecord (s : State) (k : Nat) (r : List Byte) : State := { s with boot := { s.boot with
  brcopy := BitVec.ofNat 3 k, st := .ident, scmrsv := BitVec.ofNat 16 (recScmrsv r), record := r
  harvest := BitVec.ofNat 32 (recNum r 0x20 4), serial := (r.drop 0x10).take 16, fwfloor := BitVec.ofNat 32 (recNum r 0x24 4) } }

theorem State.withRecord_boot {k : Nat} {r : List Byte} : (s.withRecord k r).boot.st = .ident ∧ (s.withRecord k r).boot.record = r
    ∧ (s.withRecord k r).boot.serial = (r.drop 0x10).take 16 ∧ (s.withRecord k r).boot.harvest = BitVec.ofNat 32 (recNum r 0x20 4)
    ∧ (s.withRecord k r).boot.fwfloor = BitVec.ofNat 32 (recNum r 0x24 4)
    ∧ (s.withRecord k r).boot.scmrsv = BitVec.ofNat 16 (recNum r 0x3C 2) := ⟨rfl, rfl, rfl, rfl, rfl, rfl⟩

theorem exec_brchk_good {k : Nat} (h : s.booting .brchk = true)
    (hk : (List.range 6).find? (fun k => recordVerifies (s.birthCopy k)) = some k) (hb : ¬ recBad (s.birthCopy k) = true) :
    exec .brchk s = .next (s.withRecord k (s.birthCopy k)) := by
  simp only [exec_brchk, execBrchk, if_pos h, hk, if_neg hb, State.withRecord]

/-- The identity keys of the device hash to IDHASH (R30). -/
def State.identified (s : State) : Prop :=
  sha384 (idKeys (deviceSecret s.boot.puf (recHelp s.boot.record))) = recIdHash s.boot.record

theorem exec_ident_ok (h : s.booting .ident = true) (hi : s.identified) : exec .ident s
    = .next { s with boot := { s.boot with st := .fwload, secret := deviceSecret s.boot.puf (recHelp s.boot.record) } } := by
  rw [exec_ident, execIdent, if_pos h]
  exact congrArg _ (if_pos hi)

theorem exec_ident_fail (h : s.booting .ident = true) (hi : ¬ s.identified) : exec .ident s = .next (s.bootFail 4) := by
  rw [exec_ident, execIdent, if_pos h]
  exact congrArg _ (if_neg hi)

theorem exec_fwload_none (h : s.booting .fwload = true) (hc : s.boot.chosen = none) : exec .fwload s = .next (s.bootFail 5) := by
  simp only [exec_fwload, execFwload, if_pos h, hc]

theorem exec_fwload_counter {b : Bool} {f : FwSlot} (h : s.booting .fwload = true) (hc : s.boot.chosen = some (b, f))
    (hm : ¬ s.boot.counterOk = true) : exec .fwload s = .next (s.bootFail 5) := by
  simp only [exec_fwload, execFwload, if_pos h, hc, if_neg hm]

theorem exec_fwload_boots {b : Bool} {f : FwSlot} (h : s.booting .fwload = true) (hc : s.boot.chosen = some (b, f))
    (hm : s.boot.counterOk = true) : exec .fwload s = .next { s with boot := { s.boot with
      st := .dies, fwslot := b, fwver := f.version, bootctr := f.version
      bootMac := some (Config.counterMac s.boot.secret f.version) } } := by
  simp only [exec_fwload, execFwload, if_pos h, hc, if_pos hm]

/-- Every enabled cluster passes its self-test (R19, R33). -/
theorem Boot.enabled_all_iff {b : Boot} {q : Nat → Nat → Bool} :
    b.enabled.all (fun c => q c.1 c.2) = true ↔ ∀ d p, d < 4 → p < 14 → p ≠ b.harvested d → q d p = true := by
  simp only [Boot.enabled, List.all_eq_true, List.mem_flatMap, List.mem_map, List.mem_filter, List.mem_range, bne_iff_ne]
  constructor
  · exact fun h d p hd hp hh => h (d, p) ⟨d, hd, p, ⟨hp, hh⟩, rfl⟩
  · rintro h _ ⟨d, hd, p, ⟨hp, hh⟩, rfl⟩
    exact h d p hd hp hh

theorem exec_dies_links (h : s.booting .dies = true) (hl : Config.dieLinksTrain s.draws = false) :
    exec .dies s = .next ({ s with draws := s.draws + 1 }.bootFail 6) := by
  simp [exec_dies, execDies, h, hl]

theorem exec_dies_test (h : s.booting .dies = true) (hl : Config.dieLinksTrain s.draws = true)
    (hp : ¬ s.boot.enabled.all (fun c => Config.clusterPasses s.draws c.1 c.2) = true) :
    exec .dies s = .next ({ s with draws := s.draws + 1 }.bootFail 7) := by
  rw [exec_dies, execDies, if_pos h, hl, Bool.eq_false_of_not_eq_true hp]
  rfl

theorem exec_dies_passes (h : s.booting .dies = true) (hl : Config.dieLinksTrain s.draws = true)
    (hp : s.boot.enabled.all (fun c => Config.clusterPasses s.draws c.1 c.2) = true) :
    exec .dies s = .next { { s with draws := s.draws + 1 }.bootTo .meminit with clocks := List.replicate 4 0 } := by
  rw [exec_dies, execDies, if_pos h, hl, hp]
  rfl

/-! ### MEMINIT and READY -/

theorem State.restartEncode_boot : s.restartEncode.boot = s.boot := by
  unfold State.restartEncode; split
  · split <;> rfl
  · rfl

theorem State.restartEncode_hamp : s.restartEncode.hamp = s.hamp := by
  unfold State.restartEncode; split
  · split <;> rfl
  · rfl

theorem State.restartEncode_mem : s.restartEncode.mem = s.mem := by
  unfold State.restartEncode; split
  · split <;> rfl
  · rfl

/-- The state whose SCM is mounted and whose HBM is empty under new keys, before its registers are read back (R33, R36, R59). -/
def State.mounting (s : State) : State :=
  { { s with draws := s.draws + 3 }.drainHampers with
    mem := { s with draws := s.draws + 3 }.drainHampers.mem.filter fun c => !keyIsHbm c.1
    boot := { { s with draws := s.draws + 3 }.drainHampers.boot with
      mounted := true, xtsData := padTo 32 (Config.random (s.draws + 1) 32), xtsTweak := padTo 32 (Config.random (s.draws + 2) 32) } }

theorem exec_meminit_hbm (h : s.booting .meminit = true) (hm : s.boot.mounted = false) (ht : Config.hbmTrains s.draws = false) :
    exec .meminit s = .next ({ s with draws := s.draws + 3 }.bootFail 8) := by
  rw [exec_meminit, execMeminit, h, hm, ht]
  rfl

theorem exec_meminit_scm (h : s.booting .meminit = true) (hm : s.boot.mounted = false) (ht : Config.hbmTrains s.draws = true)
    (hs : Config.scmMounts s.draws = false) : exec .meminit s = .next ({ s with draws := s.draws + 3 }.bootFail 9) := by
  rw [exec_meminit, execMeminit, h, hm, ht, hs]
  rfl

theorem exec_meminit_mounts (h : s.booting .meminit = true) (hm : s.boot.mounted = false) (ht : Config.hbmTrains s.draws = true)
    (hs : Config.scmMounts s.draws = true) : exec .meminit s = .next s.mounting.recover.restartEncode := by
  rw [exec_meminit, execMeminit, h, hm, ht, hs]
  rfl

theorem State.mounting_boot : s.mounting.boot = { s.boot with
    mounted := true, xtsData := padTo 32 (Config.random (s.draws + 1) 32), xtsTweak := padTo 32 (Config.random (s.draws + 2) 32) } := by
  rw [State.mounting, State.drainHampers_boot]

theorem State.get_mounting (k : Nat) (h : s.Inv) : Memory.get s.mounting.mem k
    = if keyIsHbm k then Memory.unlisted else Memory.get ({ s with draws := s.draws + 3 } : State).drainHampers.mem k := by
  refine (Memory.get_filter _ (fun a => !keyIsHbm a) k (State.drainHampers_inv (s := { s with draws := s.draws + 3 }) h)).trans ?_
  cases keyIsHbm k <;> rfl

theorem not_keyIsScm_of_hbm {k : Nat} (h : keyIsHbm k = true) : keyIsScm k = false := by
  simp only [keyIsHbm, keyIsScm, decide_eq_true_eq, Bool.and_eq_false_iff, decide_eq_false_iff_not] at *
  omega

/-- HBM is empty once it is mounted under new keys (R59, log entry 1). -/
theorem State.byte_mounting_hbm {t : State} {k : Nat} (ht : t.mem = s.mounting.mem) (h : s.Inv) (hk : keyIsHbm k = true) :
    t.byte k = Memory.unlisted := by
  rw [State.byte, not_keyIsScm_of_hbm hk, ht, State.get_mounting k h, hk]
  rfl

/-- SCM keeps what its stacks and hampers held (R36, R172). -/
theorem State.byte_mounting_scm {t : State} {k : Nat} (ht : t.mem = s.mounting.mem) (hh : t.hamp = []) (h : s.Inv) (hk : keyIsScm k = true)
    (hn : ∀ e ∈ s.hamp, (e.bytes.map Prod.fst).Nodup) : t.byte k = s.byte k := by
  have hb : keyIsHbm k = false := Bool.eq_false_of_not_eq_true fun hb => by simp [not_keyIsScm_of_hbm hb] at hk
  rw [State.byte, hk, hh, ht, State.get_mounting k h, hb]
  exact State.get_drainHampers (s := { s with draws := s.draws + 3 }) k h hk hn

theorem exec_ready_waits (h : s.booting .meminit = true) (hm : s.boot.mounted = true) (hp : s.host.perst = true) :
    exec .ready s = .next { s with boot := { s.boot with readyPending := true } } := by
  rw [exec_ready, execReady, h, hm, hp]
  rfl

theorem exec_ready_goes (h : s.booting .meminit = true) (hm : s.boot.mounted = true) (hp : s.host.perst = false) :
    exec .ready s = .next s.toReady := by
  rw [exec_ready, execReady, h, hm, hp]
  rfl

/-! ### The choice of firmware -/

theorem Boot.slotOk_iff {b : Boot} {f : FwSlot} : b.slotOk f = true ↔ f.verifies = true ∧ b.floor ≤ f.version.toNat := by
  simp [Boot.slotOk]

/-- The slot that boots passes its checks, and the other one is not higher, nor as high where the other is A (R32). -/
theorem Boot.chosen_spec {b : Boot} {x : Bool} {f : FwSlot} (h : b.chosen = some (x, f)) :
    (if x then b.slotB else b.slotA) = some f ∧ b.slotOk f = true
    ∧ ∀ g, (if x then b.slotA else b.slotB) = some g → b.slotOk g = true →
        if x then g.version.toNat < f.version.toNat else g.version.toNat ≤ f.version.toNat := by
  unfold Boot.chosen at h
  dsimp only at h
  split at h
  · next a c ha hc =>
    obtain ⟨ha1, ha2⟩ := Option.filter_eq_some_iff.1 ha
    obtain ⟨hc1, hc2⟩ := Option.filter_eq_some_iff.1 hc
    split at h
    · next hlt =>
      obtain ⟨rfl, rfl⟩ := Prod.mk.inj (Option.some.inj h)
      exact ⟨hc1, hc2, fun g hg _ => by cases ha1.symm.trans hg; exact hlt⟩
    · next hlt =>
      obtain ⟨rfl, rfl⟩ := Prod.mk.inj (Option.some.inj h)
      exact ⟨ha1, ha2, fun g hg _ => by cases hc1.symm.trans hg; exact Nat.le_of_not_lt hlt⟩
  · next a ha hc =>
    obtain ⟨rfl, rfl⟩ := Prod.mk.inj (Option.some.inj h)
    obtain ⟨ha1, ha2⟩ := Option.filter_eq_some_iff.1 ha
    exact ⟨ha1, ha2, fun g hg hok => absurd hok (Option.filter_eq_none_iff.1 hc g hg)⟩
  · next c ha hc =>
    obtain ⟨rfl, rfl⟩ := Prod.mk.inj (Option.some.inj h)
    obtain ⟨hc1, hc2⟩ := Option.filter_eq_some_iff.1 hc
    exact ⟨hc1, hc2, fun g hg hok => absurd hok (Option.filter_eq_none_iff.1 ha g hg)⟩
  · cases h

end Sys2Proof.Machine
end

section
/-! PROOF of O37. Each step of boot in its own state, the loss of VAUX, and the host link. -/

namespace Sys2Proof.Machine
variable {s : State}

/-! ### VAUX -/

theorem State.get_unpowered (k : Nat) (h : s.Inv) (hk : keyIsScm k = true ∨ 2 ^ 65 ≤ k) :
    Memory.get s.unpowered.mem k = Memory.get s.mem k :=
  (Memory.get_filter s.mem (fun a => keyIsScm a || decide (2 ^ 65 ≤ a)) k h).trans (if_pos (by simpa using hk))

theorem State.unpowered_hamp (h : s.power.pf = .halted) : s.unpowered.hamp = s.hamp := by
  show s.keptHamp = s.hamp
  simp [State.keptHamp, h]

/-! ### The host link -/

theorem exec_pcieLinkTraining_trains {width rate : Nat} {cxl : Bool} (hb : s.boot.st ≠ .off) (hp : s.host.perst = false)
    (hw : width ∈ [4, 8, 16]) (hr : rate ∈ [1, 2, 3]) : exec (.pcieLinkTraining width rate cxl) s
    = .next { s with host := { s.host with width := BitVec.ofNat 5 width, rate := BitVec.ofNat 2 rate, cxl := cxl } } := by
  have hw : width = 4 ∨ width = 8 ∨ width = 16 := by simpa using hw
  have hr : rate = 1 ∨ rate = 2 ∨ rate = 3 := by simpa using hr
  rw [exec_pcieLinkTraining, execPcieLinkTraining, if_pos ⟨hb, by rw [hp]; rfl, hw, by omega, by omega⟩]

theorem exec_configRequest_answers (hb : s.boot.st ≠ .off) (hw : s.host.width ≠ 0) :
    exec (.configRequest none) s = .next (s.emit (.config 0x605)) := by
  rw [exec_configRequest, execConfigRequest, if_pos ⟨hb, hw⟩, partNumber]

/-- The state with another BAR0. -/
def State.withBar0 (s : State) (x : BitVec 64) : State := { s with host := { s.host with bar0 := x } }

theorem State.withBar0_emit_bar0 {x : BitVec 64} {o : Out} : ((s.withBar0 x).emit o).host.bar0 = x := rfl

theorem State.withBar0_emit_out {x : BitVec 64} {o : Out} : ((s.withBar0 x).emit o).host.out = o :: s.host.out := rfl

theorem exec_configRequest_assigns {a : BitVec 64} (hb : s.boot.st ≠ .off) (hw : s.host.width ≠ 0) :
    exec (.configRequest (some a)) s = .next ((s.withBar0 (BitVec.ofNat 64 (a.toNat / 2 ^ 24 * 2 ^ 24))).emit (.config 0x605)) := by
  rw [exec_configRequest, execConfigRequest, if_pos ⟨hb, hw⟩, partNumber]
  rfl

/-- BAR0 is a multiple of 16 MiB (R34). -/
theorem toNat_bar0 (a : BitVec 64) : (BitVec.ofNat 64 (a.toNat / 2 ^ 24 * 2 ^ 24)).toNat = a.toNat / 2 ^ 24 * 2 ^ 24 := by
  rw [BitVec.toNat_ofNat, Nat.mod_eq_of_lt (by have := a.isLt; omega)]

theorem exec_perstRelease_alone (h : s.boot.readyPending = false ∨ s.boot.st ≠ .meminit) :
    exec .perstRelease s = .next { s with host := { s.host with perst := false } } := by
  have hn : (s.booting .meminit && s.boot.readyPending) = false := by
    rcases h with h | h
    · simp [h]
    · simp [State.booting, h]
  rw [exec_perstRelease, execPerstRelease, hn]
  rfl

theorem exec_perstRelease_ready (hr : s.boot.readyPending = true) (h : s.booting .meminit = true) :
    exec .perstRelease s = .next ({ s with host := { s.host with perst := false } } : State).toReady := by
  rw [exec_perstRelease, execPerstRelease, h, hr]
  rfl

/-! ### The obligation -/

/-- Settles O37: each clause is the equation of its step, with what that step leaves. -/
theorem bootAndHostLinkSteps : Obligations.BootAndHostLinkSteps := by
  unfold Obligations.BootAndHostLinkSteps
  refine ⟨fun s => ?_, fun s width rate cxl a => ?_⟩
  · intro fails at_ stands
    refine ⟨fun h => ⟨_, exec_bootStart_off h, rfl⟩,
      fun ⟨hb, hp⟩ => ⟨_, exec_bootRom_booting (State.booting_of hb hp), rfl, rfl, length_padTo _ _⟩,
      fun ⟨hb, hp⟩ => ?brchk, fun ⟨hb, hp⟩ => ?ident, fun ⟨hb, hp⟩ => ?fwload, fun ⟨hb, hp⟩ => ?dies,
      fun ⟨hb, hp⟩ hm => ?meminit,
      fun ⟨hb, hp⟩ hm => ⟨fun hh => ?goes, fun hh => ?waits⟩,
      ⟨s.unpowered, exec_vauxLoss s, rfl, rfl, rfl, rfl, rfl, rfl, rfl, rfl,
        fun h => ⟨State.unpowered_inv h, fun k hk => State.get_unpowered k h hk⟩, State.unpowered_hamp⟩⟩
    case brchk =>
      have h := State.booting_of hb hp
      simp only [State.bytes_birthCopy]
      cases hk : (List.range 6).find? fun k => recordVerifies (s.birthCopy k) with
      | none => exact ⟨_, exec_brchk_none h hk, State.bootFail_failsWith s 2⟩
      | some k =>
        by_cases hbad : recBad (s.birthCopy k) = true
        · exact ⟨_, exec_brchk_bad h hk hbad, by simp [State.bootFail, State.withCopy], fun _ => State.bootFail_failsWith _ 3,
            fun hn => absurd (hbad.symm.trans hn) (by decide)⟩
        · exact ⟨_, exec_brchk_good h hk hbad, rfl, fun hn => absurd hn hbad, fun _ => State.withRecord_boot⟩
    case ident =>
      have h := State.booting_of hb hp
      by_cases hi : s.identified
      · exact ⟨_, exec_ident_ok h hi, fun _ => ⟨rfl, rfl⟩, fun hn => absurd hi hn⟩
      · exact ⟨_, exec_ident_fail h hi, fun hn => absurd hn hi, fun _ => State.bootFail_failsWith s 4⟩
    case fwload =>
      have h := State.booting_of hb hp
      cases hc : s.boot.chosen with
      | none => exact ⟨_, exec_fwload_none h hc, fun _ => State.bootFail_failsWith s 5, nofun⟩
      | some p =>
        obtain ⟨b, f⟩ := p
        obtain ⟨hslot, hok, hother⟩ := Boot.chosen_spec hc
        obtain ⟨hver, hfloor⟩ := Boot.slotOk_iff.1 hok
        by_cases hm : s.boot.counterOk = true
        · refine ⟨_, exec_fwload_boots h hc hm, nofun, fun b' f' e => ?_⟩
          cases e
          exact ⟨hslot, hver, hfloor, hother, fun hn => absurd (hm.symm.trans hn) (by decide),
            fun _ => ⟨rfl, rfl, rfl, rfl, beq_self_eq_true _⟩⟩
        · refine ⟨_, exec_fwload_counter h hc hm, nofun, fun b' f' e => ?_⟩
          cases e
          exact ⟨hslot, hver, hfloor, hother, fun _ => State.bootFail_failsWith s 5, fun hn => absurd hn hm⟩
    case dies =>
      have h := State.booting_of hb hp
      by_cases hl : Config.dieLinksTrain s.draws = true
      · by_cases hc : s.boot.enabled.all (fun c => Config.clusterPasses s.draws c.1 c.2) = true
        · exact ⟨_, exec_dies_passes h hl hc, fun hn => absurd (hl.symm.trans hn) (by decide),
            fun _ hn => absurd (Boot.enabled_all_iff.1 hc) hn, fun _ _ => ⟨rfl, rfl⟩⟩
        · exact ⟨_, exec_dies_test h hl hc, fun hn => absurd (hl.symm.trans hn) (by decide),
            fun _ _ => State.bootFail_failsWith _ 7, fun _ hn => absurd (Boot.enabled_all_iff.2 hn) hc⟩
      · exact ⟨_, exec_dies_links h (Bool.eq_false_of_not_eq_true hl), fun _ => State.bootFail_failsWith _ 6,
          fun hn => absurd hn hl, fun hn => absurd hn hl⟩
    case meminit =>
      have h := State.booting_of hb hp
      by_cases ht : Config.hbmTrains s.draws = true
      · by_cases hs : Config.scmMounts s.draws = true
        · have hmem : s.mounting.recover.restartEncode.mem = s.mounting.mem := State.restartEncode_mem
          have hhamp : s.mounting.recover.restartEncode.hamp = [] := State.restartEncode_hamp
          have hboot : s.mounting.recover.restartEncode.boot = s.mounting.boot := State.restartEncode_boot
          refine ⟨_, exec_meminit_mounts h hm ht hs, fun hn => absurd (ht.symm.trans hn) (by decide),
            fun _ hn => absurd (hs.symm.trans hn) (by decide), fun _ _ => ?_⟩
          rw [hboot, State.mounting_boot]
          exact ⟨rfl, hb, ⟨hhamp, fun hi k hk hn => State.byte_mounting_scm hmem hhamp hi hk hn⟩, length_padTo _ _, length_padTo _ _,
            fun hi => Res.inv_next (execMeminit_inv hi) (exec_meminit_mounts h hm ht hs),
            fun k hk hi => State.byte_mounting_hbm hmem hi hk⟩
        · exact ⟨_, exec_meminit_scm h hm ht (Bool.eq_false_of_not_eq_true hs), fun hn => absurd (ht.symm.trans hn) (by decide),
            fun _ _ => State.bootFail_failsWith _ 9, fun _ hn => absurd hn hs⟩
      · exact ⟨_, exec_meminit_hbm h hm (Bool.eq_false_of_not_eq_true ht), fun _ => State.bootFail_failsWith _ 8,
          fun hn => absurd hn ht, fun hn => absurd hn ht⟩
    case goes =>
      exact ⟨_, exec_ready_goes (State.booting_of hb hp) hm hh, by rw [State.toReady_boot], State.toReady_psel, State.toReady_alerts⟩
    case waits => exact ⟨_, exec_ready_waits (State.booting_of hb hp) hm hh, hb, rfl⟩
  · refine ⟨exec_pcieLinkTraining_trains, fun hb hw => ⟨exec_configRequest_answers hb hw, _, exec_configRequest_assigns hb hw,
        by rw [State.withBar0_emit_bar0, toNat_bar0], State.withBar0_emit_out⟩,
      exec_perst s, exec_perstRelease_alone, fun hr hb hp => ⟨_, exec_perstRelease_ready hr (State.booting_of hb hp), ?_, ?_, ?_, ?_⟩⟩
    · rw [State.toReady_boot]
    · rw [State.toReady_boot]
    · rw [State.toReady_perst]
    · rw [State.toReady_psel]

end Sys2Proof.Machine
end

section
/-! PROOF of O53. The debug port: which wefts a target names, what halts, steps and releases leave of each, and the values that a
halted weft reads and takes. -/

namespace Sys2Proof.Machine
variable {s : State}

/-! ### Targets -/

theorem State.named_logical_iff {core slot : Nat} {w : Weft} : s.named (.weft (.logical core) slot) w = true ↔
    s.debug = some w.ctx ∧ w.exited = false ∧ w.core = core ∧ w.slot = slot := by
  simp [State.named, State.isCore, and_assoc]

theorem State.named_physical_iff {die clus n slot : Nat} {w : Weft} : s.named (.weft (.physical die clus n) slot) w = true ↔
    s.debug = some w.ctx ∧ w.exited = false ∧ s.boot.physCore w.core = (die, clus, n) ∧ w.slot = slot := by
  simp [State.named, State.isCore, and_assoc]

/-- A logical core stands in an enabled physical cluster (R5, R19). -/
theorem Boot.physCore_enabled {b : Boot} {core : Nat} (hc : core < 208) (hh : ∀ d, d < 4 → b.harvested d < 14) :
    b.physCore core ∈ b.enabled.map fun e => (e.1, e.2, core % 4) := by
  have hd : core / 4 / 13 < 4 := by omega
  refine List.mem_map.2 ⟨b.physClus (core / 4), ?_, rfl⟩
  have := hh _ hd
  simp only [Boot.enabled, Boot.physClus, List.mem_flatMap, List.mem_map, List.mem_filter, List.mem_range, bne_iff_ne, Prod.mk.injEq]
  refine ⟨core / 4 / 13, hd, _, ⟨?_, ?_⟩, rfl, rfl⟩
  · split <;> omega
  · split <;> omega

/-! ### Halts -/

/-- What a halt leaves of a weft that it names (R291, R292). -/
def Weft.Stands (v : Weft) : Prop := v.halted = true ∨ (v.halting = true ∧ v.unsettled ≠ none)

theorem State.backOut_wefts (w : Weft) : (s.backOut w).1.wefts = s.wefts ∧ (s.backOut w).1.debug = s.debug := by
  unfold State.backOut
  dsimp only
  split
  · exact ⟨rfl, rfl⟩
  · split <;> exact ⟨rfl, rfl⟩

theorem Weft.fillV_place (w : Weft) (f : Bool) (ns : List Nat) : (w.fillV f ns).core = w.core ∧ (w.fillV f ns).slot = w.slot
    ∧ (w.fillV f ns).unsettled = w.unsettled := by
  induction ns generalizing w with
  | nil => exact ⟨rfl, rfl, rfl⟩
  | cons n ns ih => exact ih { w with vregs := modAt w.vregs n fun x => { x with full := f } }

theorem Weft.fillDest_place (w : Weft) (d : Dest) (f : Bool) : (w.fillDest d f).core = w.core ∧ (w.fillDest d f).slot = w.slot
    ∧ (w.fillDest d f).unsettled = w.unsettled := by
  unfold Weft.fillDest
  split
  · exact ⟨rfl, rfl, rfl⟩
  · exact Weft.fillV_place _ _ _
  · exact ⟨rfl, rfl, rfl⟩

theorem Weft.detach_unsettled (w : Weft) (a : Access) (h : w.unsettled = none) : (w.detach a).unsettled = none := by
  simp [Weft.detach, h]

/-- A wait that is backed out stays in its slot, and opens no group's fate. -/
theorem State.backOut_place (w : Weft) : (s.backOut w).2.core = w.core ∧ (s.backOut w).2.slot = w.slot
    ∧ (w.unsettled = none → (s.backOut w).2.unsettled = none) := by
  unfold State.backOut
  dsimp only
  split
  · exact ⟨rfl, rfl, id⟩
  · next a _ =>
    split
    · obtain ⟨hc, hs, hu⟩ := Weft.fillDest_place { w with
        waiting := none, itnNext := false, itnDone := if w.itnNext && w.itnAnswer.isNone then w.itnWas else w.itnDone } a.dst true
      exact ⟨hc, hs, fun h => Weft.detach_unsettled _ _ (hu.trans h)⟩
    · exact ⟨rfl, rfl, fun h => Weft.detach_unsettled _ _ h⟩
    · exact ⟨rfl, rfl, id⟩

theorem State.mem_setWeft_cases {w v : Weft} (h : v ∈ (s.setWeft w).wefts) :
    v = w ∨ (v ∈ s.wefts ∧ ¬(v.core = w.core ∧ v.slot = w.slot)) := by
  obtain ⟨u, hu, rfl⟩ := List.mem_map.1 h
  split
  · exact .inl rfl
  · exact .inr ⟨hu, ‹_›⟩

theorem State.haltWeft_debug (w : Weft) : (s.haltWeft w).debug = s.debug := by
  unfold State.haltWeft
  dsimp only
  split
  · rfl
  · exact (State.backOut_wefts w).2

/-- After a halt, a weft of that slot stands, and every other is as before. -/
theorem State.mem_haltWeft {w v : Weft} (h : v ∈ (s.haltWeft w).wefts) :
    v.Stands ∨ (v ∈ s.wefts ∧ ¬(v.core = w.core ∧ v.slot = w.slot)) := by
  obtain ⟨hc, hs, hu⟩ := State.backOut_place (s := s) w
  unfold State.haltWeft at h
  dsimp only at h
  split at h
  · next ho =>
    refine (State.mem_setWeft_cases h).imp_left fun e => .inr ?_
    subst e
    exact ⟨rfl, fun hn => by simp [hu hn] at ho⟩
  · rcases State.mem_setWeft_cases h with rfl | ⟨hm, hn⟩
    · exact .inl (.inl rfl)
    · exact .inr ⟨(State.backOut_wefts (s := s) w).1 ▸ hm, by rwa [← hc, ← hs]⟩

theorem State.mem_foldl_haltWeft (l : List Weft) (s : State) {v : Weft} (h : v ∈ (l.foldl State.haltWeft s).wefts) :
    v.Stands ∨ (v ∈ s.wefts ∧ ∀ w ∈ l, ¬(v.core = w.core ∧ v.slot = w.slot)) := by
  induction l generalizing s with
  | nil => exact .inr ⟨h, fun _ hw => nomatch hw⟩
  | cons w l ih =>
    rcases ih (s.haltWeft w) h with hs | ⟨hm, hl⟩
    · exact .inl hs
    · refine (State.mem_haltWeft hm).imp_right fun ⟨hm, hw⟩ => ⟨hm, fun x hx => ?_⟩
      rcases List.mem_cons.1 hx with rfl | hx
      · exact hw
      · exact hl x hx

theorem State.foldl_haltWeft_debug (l : List Weft) (s : State) : (l.foldl State.haltWeft s).debug = s.debug := by
  induction l generalizing s with
  | nil => rfl
  | cons w l ih => exact (ih (s.haltWeft w)).trans (State.haltWeft_debug w)

theorem debugHalt_does {tg : DebugTarget} (hup : s.up = true) : s.Does (.debugHalt tg) fun t => t.debug = s.debug
    ∧ ∀ v ∈ t.wefts, s.named tg v = true → v.Stands := by
  refine ⟨_, by rw [exec_debugHalt, execDebugHalt, if_pos hup], State.foldl_haltWeft_debug _ s, fun v hv hn => ?_⟩
  rcases State.mem_foldl_haltWeft _ s hv with hs | ⟨hm, hl⟩
  · exact hs
  · by_cases hh : v.halted = true
    · exact .inl hh
    · exact absurd ⟨rfl, rfl⟩ (hl v (List.mem_filter.2 ⟨hm, by simp [hn, hh]⟩))

/-! ### Lifting halts -/

theorem attach_does {c : Nat} (hup : s.up = true) (hd : s.debug = none) (hc : c < 64) :
    exec (.attach c) s = .next { s with debug := some c } := by
  rw [exec_attach, execAttach, if_pos (by simp [hup, hd, hc])]

theorem attach_refused {c : Nat} (hd : s.debug ≠ none) : exec (.attach c) s = .next s := by
  rw [exec_attach, execAttach, if_neg]
  cases h : s.debug with
  | none => exact absurd h hd
  | some d => simp

theorem Weft.unhalt_stopped (w : Weft) : w.unhalt.stopped ≠ some .debug := by
  simp only [Weft.unhalt]
  split
  · exact nofun
  · assumption

theorem detach_does {c : Nat} (hd : s.debug = some c) : s.Does .detach fun t => t.debug = none
    ∧ (∀ v ∈ t.wefts, v.ctx = c → v.halted = false ∧ v.halting = false ∧ v.stopped ≠ some .debug)
    ∧ ∀ v ∈ s.wefts, v.ctx ≠ c → v ∈ t.wefts := by
  refine ⟨_, exec_detach s, rfl, fun v hv hc => ?_, fun v hv hc => ?_⟩
  · obtain ⟨w, -, rfl⟩ := List.mem_map.1 hv
    split at hc
    · next hw => rw [if_pos hw]; exact ⟨rfl, rfl, Weft.unhalt_stopped w⟩
    · next hw => exact absurd (hd.trans (congrArg some hc.symm)) hw
  · exact List.mem_map.2 ⟨v, hv, if_neg fun h => hc (Option.some.inj (h.symm.trans hd))⟩

theorem run_does {tg : DebugTarget} : s.Does (.run tg) fun t =>
    (∀ v ∈ t.wefts, s.named tg v = true → v.halted = false ∧ v.halting = false)
    ∧ ∀ v ∈ s.wefts, ¬ s.named tg v = true → v ∈ t.wefts := by
  refine ⟨_, exec_run tg s, fun v hv hn => ?_, fun v hv hn => ?_⟩
  · obtain ⟨w, -, rfl⟩ := List.mem_map.1 hv
    split at hn
    · next hw => rw [if_pos hw]; exact ⟨rfl, rfl⟩
    · next hw =>
      rw [if_neg hw]
      simpa [hn] using hw
  · exact List.mem_map.2 ⟨v, hv, if_neg (by simp [hn])⟩

theorem debugStep_does {core slot : Nat} : s.Does (.debugStep (.logical core) slot) fun t => ∀ w ∈ s.wefts,
    s.named (.weft (.logical core) slot) w = true → w.halted = true → ∃ v ∈ t.wefts, v.core = core ∧ v.slot = slot
      ∧ v.halted = false ∧ v.stepping = true ∧ v.preemptFree = false ∧ v.pc = w.pc ∧ v.sregs = w.sregs := by
  refine ⟨_, exec_debugStep _ slot s, fun w hw hn hh => ?_⟩
  obtain ⟨-, -, hc, hs⟩ := State.named_logical_iff.1 hn
  refine ⟨{ w.unhalt with stepping := true }, List.mem_map.2 ⟨w, hw, if_pos (by simp [hn, hh])⟩, hc, hs, rfl, rfl, ?_, rfl, rfl⟩
  simp [Weft.preemptFree, Weft.unhalt]

theorem release_does {tg : DebugTarget} : s.Does (.release tg) fun t => ∀ v ∈ t.wefts, s.named tg v = true → v.halted = true →
    v.released = true := by
  refine ⟨_, exec_release tg s, fun v hv hn hh => ?_⟩
  obtain ⟨w, -, rfl⟩ := List.mem_map.1 hv
  split at hn
  · next hw => rw [if_pos hw]
  · next hw => rw [if_neg hw] at hh; simp [hn, hh] at hw

/-! ### A halted weft's values -/

theorem debugRead_halted {k : DebugCore} {slot : Nat} {w : Weft} (h : s.halted? k slot = some w) (d : DebugPlace) :
    exec (.debugRead k slot d) s = .next (s.emit (.debug (s.peek w d))) := by
  simp only [exec_debugRead, execDebugRead, h]

theorem debugRead_none {k : DebugCore} {slot : Nat} {d : DebugPlace} (h : s.halted? k slot = none) :
    exec (.debugRead k slot d) s = .next s := by
  simp only [exec_debugRead, execDebugRead, h]

theorem debugWrite_none {k : DebugCore} {slot : Nat} {d : DebugPlace} {x : W64} (h : s.halted? k slot = none) :
    exec (.debugWrite k slot d x) s = .next s := by
  simp only [exec_debugWrite, execDebugWrite, h]

/-- The offset that a source takes from an index register (R217). -/
theorem xStep_source (x : XReg) (o : BitVec 8) :
    (xStep x false o).1 = o - (if 2 ≤ x.mode.toNat then x.step.signExtend 8 else 0) := by
  have hm := x.mode.isLt
  unfold xStep
  dsimp only
  split
  · next h => simp [h]
  · next h => simp [h]
  · next h => simp [h]
  · next h0 h1 h2 =>
    have h0 : x.mode.toNat ≠ 0 := h0
    have h1 : x.mode.toNat ≠ 1 := h1
    simp [show 2 ≤ x.mode.toNat by omega]

theorem Weft.through_source (w : Weft) {n lane : Nat} (hl : lane < 64) : w.through n lane false
    = (w.xreg n).base + ((w.xreg n).off.getD lane 0 - (if 2 ≤ (w.xreg n).mode.toNat then (w.xreg n).step.signExtend 8 else 0)).toNat := by
  simp [Weft.through, xRegs, laneIdx, xStep_source, hl]

/-! ### Writing a halted weft -/

theorem Weft.fillV_one (w : Weft) (f : Bool) (n : Nat) :
    w.fillV f [n] = { w with vregs := modAt w.vregs n fun x => { x with full := f } } := rfl

theorem getD_modAt {α : Type} (l : List α) (n m : Nat) (f : α → α) (d : α) (h : m = n → n < l.length) :
    (modAt l n f).getD m d = if m = n then f (l.getD m d) else l.getD m d := by
  rw [List.getD_eq_getElem?_getD, getElem?_modAt, List.getD_eq_getElem?_getD]
  split
  · next e =>
    have hm : m < l.length := e ▸ h e
    simp [hm]
  · rfl

/-- A written scalar register (R292). -/
theorem Weft.poke_sreg (w : Weft) {n : Nat} (x : W64) (hn : n < w.sregs.length) : ((w.poke (.s n) x).sreg n).val = x
    ∧ ((w.poke (.s n) x).sreg n).full = true ∧ ∀ m, m ≠ n → (w.poke (.s n) x).sreg m = w.sreg m := by
  have h : ∀ m, (w.poke (.s n) x).sreg m = if m = n then { val := x, full := true, pois := false } else w.sreg m := by
    intro m
    simp only [Weft.sreg, Weft.poke, Weft.fillS, Weft.setS]
    rw [getD_modAt _ _ _ _ _ (fun _ => by rwa [length_modAt]), getD_modAt _ _ _ _ _ (fun _ => hn)]
    split <;> rfl
  exact ⟨by rw [h, if_pos rfl], by rw [h, if_pos rfl], fun m hm => by rw [h, if_neg hm]⟩

theorem VVal.lane_lanes (v : VVal) {i : Nat} (h : i < 64) : v.lanes.getD i 0 = v.lane i := by
  simp [VVal.lanes, laneIdx, h]

/-- A written lane of a vector register (R292). -/
theorem Weft.poke_vreg (w : Weft) {n lane : Nat} (x : W64) (hn : n < w.vregs.length) : (w.poke (.pv n lane) x).vreg n
    = { val := .g (setAt (w.vreg n).val.lanes lane (x.setWidth 32)), full := true, pois := (w.vreg n).pois } := by
  simp only [Weft.vreg, Weft.poke, Weft.fillV_one, Weft.setLane]
  rw [getD_modAt _ _ _ _ _ (fun _ => by rwa [length_modAt]), if_pos rfl, getD_modAt _ _ _ _ _ (fun _ => hn), if_pos rfl]

theorem Weft.poke_lane (w : Weft) {n lane : Nat} (x : W64) (hn : n < w.vregs.length) (hl : lane < 64) :
    ((w.poke (.pv n lane) x).vreg n).val.lane lane = x.setWidth 32
    ∧ ∀ j, j < 64 → j ≠ lane → ((w.poke (.pv n lane) x).vreg n).val.lane j = (w.vreg n).val.lane j := by
  rw [Weft.poke_vreg w x hn]
  refine ⟨getD_setAt _ _ _ _ (by simp [VVal.lanes, laneIdx, hl]), fun j hj hne => ?_⟩
  exact (getD_setAt_ne _ _ _ _ _ hne).trans (VVal.lane_lanes _ hj)

theorem getElem_three (i : Fin 64) : (3 : W64)[i] = decide (i.val < 2) := by revert i; decide

/-- A written pc is a multiple of 4 (R292). -/
theorem toNat_alignPc (x : W64) : (x &&& ~~~(3 : W64)).toNat = x.toNat / 4 * 4 := by
  have h : x &&& ~~~(3 : W64) = x >>> 2 <<< 2 := by
    ext i hi
    have h3 : (3 : W64)[i] = decide (i < 2) := getElem_three ⟨i, hi⟩
    rw [BitVec.getElem_and, BitVec.getElem_not, h3, BitVec.getElem_shiftLeft]
    by_cases h2 : i < 2
    · simp [h2]
    · simp [h2, BitVec.getLsbD_eq_getElem, hi, show 2 + (i - 2) = i by omega]
  rw [h]
  simp [Nat.shiftRight_eq_div_pow, Nat.shiftLeft_eq]
  omega
theorem debugWrite_halted {k : DebugCore} {slot : Nat} {w : Weft} {d : DebugPlace} {x : W64} (h : s.halted? k slot = some w)
    (hd : ∀ q i, d ≠ .queue q i) : exec (.debugWrite k slot d x) s = .next (s.setWeft (w.poke d x)) := by
  cases d with
  | queue q i => exact absurd rfl (hd q i)
  | _ => simp only [exec_debugWrite, execDebugWrite, h]

theorem State.halted?_slot {core slot : Nat} {w : Weft} (h : s.halted? (.logical core) slot = some w) :
    w ∈ s.wefts ∧ w.core = core ∧ w.slot = slot := by
  have hn := List.find?_some h
  simp only [Bool.and_eq_true] at hn
  obtain ⟨-, -, hc, hs⟩ := State.named_logical_iff.1 hn.1
  exact ⟨List.mem_of_find?_eq_some h, hc, hs⟩

/-- A write of a register or of the state of a halted weft changes that weft alone. -/
theorem debugWrite_does {core slot : Nat} {w : Weft} {d : DebugPlace} {x : W64} {post : Weft → Prop}
    (h : s.halted? (.logical core) slot = some w) (hd : ∀ q i, d ≠ .queue q i)
    (hp : (w.poke d x).core = w.core ∧ (w.poke d x).slot = w.slot) (hpost : post (w.poke d x)) :
    s.Does (.debugWrite (.logical core) slot d x) fun t =>
      ∃ v, t.weft? core slot = some v ∧ post v ∧ s.OtherWefts t core slot ∧ s.SameMemory t := by
  obtain ⟨hw, hc, hs⟩ := State.halted?_slot h
  obtain ⟨u, hu⟩ : ∃ u, s.weft? core slot = some u := Option.isSome_iff_exists.1 (List.find?_isSome.2 ⟨w, hw, by simp [hc, hs]⟩)
  refine ⟨_, debugWrite_halted h hd, _, weft?_setWeft hu (hp.1.trans hc) (hp.2.trans hs), hpost, fun v hv => ?_, fun k => rfl⟩
  exact mem_setWeft s _ v (by rwa [hp.1, hp.2, hc, hs])

/-- Settles O53: each clause by the lemma of its operation. -/
theorem debugPort : Obligations.DebugPort := by
  unfold Obligations.DebugPort
  intro s c core slot n lane die clus tg pl x hup
  refine ⟨fun hd v hv he => ⟨?_, ?_⟩, Boot.physCore_enabled, attach_does hup, attach_refused, detach_does, debugHalt_does hup,
    run_does, debugStep_does, release_does, fun h => ⟨debugRead_none h, debugWrite_none h⟩, fun w h => ?_⟩
  · simp [State.named_logical_iff, hd, hv, he]
  · simp [State.named_physical_iff, hd, hv, he]
  · refine ⟨debugRead_halted h _, debugRead_halted h _, debugRead_halted h _, debugRead_halted h _, debugRead_halted h _,
      debugRead_halted h _, debugRead_halted h _, fun hl => ?_, debugRead_halted h _,
      fun hn => debugWrite_does h nofun ⟨rfl, rfl⟩ (Weft.poke_sreg w x hn), fun hn hl => debugWrite_does h nofun ⟨rfl, rfl⟩ ?_,
      debugWrite_does h nofun ⟨rfl, rfl⟩ (toNat_alignPc x), debugWrite_does h nofun ⟨rfl, rfl⟩ rfl,
      debugWrite_does h nofun ⟨rfl, rfl⟩ rfl, debugWrite_does h nofun ⟨rfl, rfl⟩ rfl⟩
    · have hr := debugRead_halted h (.xpv n lane)
      rw [State.peek, Weft.through_source w hl] at hr
      exact hr
    · exact ⟨by rw [Weft.poke_vreg w x hn]; rfl, by rw [Weft.poke_vreg w x hn], Weft.poke_lane w x hn hl⟩

end Sys2Proof.Machine
end

section
/-! PROOF of O5. The words of a group in its line (R236, R299), a line entered into the cache, and what the next step is. -/

namespace Sys2Proof.Machine
variable {s : State}

/-! ### The words of a group -/

theorem State.codeLine_cached {w : Weft} {va : Nat} {bs : List Byte} (h : s.cachedLine w va = some bs) :
    s.codeLine w va = (s, some bs) := by
  simp only [State.codeLine, h]

/-- A word inside the line of the weft's pc is read from the cached line. -/
theorem State.codeWord_cached {w : Weft} {va j : Nat} {bs : List Byte} (h : s.cachedLine w (va / 128 * 128) = some bs)
    (hj : va % 128 + j < 128) : s.codeWord w (va + j) = (s, .inl (wordAt bs (va % 128 + j))) := by
  have hl : (va + j) / 128 * 128 = va / 128 * 128 := by omega
  have ho : (va + j) % 128 = va % 128 + j := by omega
  simp only [State.codeWord, hl, State.codeLine_cached h, ho]

/-- One word of a group that lies in its line with twelve bytes: the group goes on where its words leave it open. -/
theorem State.fetchWords_cached {w : Weft} {va j n : Nat} {bs : List Byte} {ws : List W32}
    (h : s.cachedLine w (va / 128 * 128) = some bs) (hj : va % 128 + j + 4 ≤ 128) (hn : n = 0 ∨ va % 128 + j + 4 < 128) :
    s.fetchWords w (n + 1) (va + j) ws =
      if groupOpen (ws ++ [wordAt bs (va % 128 + j)]) then s.fetchWords w n (va + (j + 4)) (ws ++ [wordAt bs (va % 128 + j)])
      else (s, .inl (ws ++ [wordAt bs (va % 128 + j)])) := by
  have hw := State.codeWord_cached (j := j) h (by omega)
  rcases hn with rfl | hn
  · simp only [State.fetchWords, hw]
    split <;> simp
  · have hp : ((va + (j + 4)) % 4096 != 0) = true := by simp only [bne_iff_ne]; omega
    simp only [State.fetchWords, hw, Nat.add_assoc, hp, Bool.and_true]

/-- A prefix opens a group. -/
theorem groupOpen_one (a : W32) : groupOpen [a] = true ↔ majorOf a = 0x3F ∨ majorOf a = 0x3E := by simp [groupOpen]

/-- XG and XL together keep it open. -/
theorem groupOpen_two (a b : W32) : groupOpen [a, b] = true ↔ majorOf a = 0x3F ∧ majorOf b = 0x3E := by simp [groupOpen]

/-- The words of a group that lies in a cached line with twelve bytes (R299, R300). -/
theorem State.fetchGroup_cached {w : Weft} {bs : List Byte} (h : s.cachedLine w (w.pc.toNat / 128 * 128) = some bs)
    (hr : w.pc.toNat % 128 + 12 ≤ 128) :
    let x := fun j : Nat => wordAt bs (w.pc.toNat % 128 + 4 * j)
    s.fetchGroup w = (s, .inl (if groupOpen [x 0] then (if groupOpen [x 0, x 1] then [x 0, x 1, x 2] else [x 0, x 1]) else [x 0])) := by
  have h0 := State.fetchWords_cached (j := 0) (n := 2) (ws := []) h (by omega) (by omega)
  have h1 := fun ws => State.fetchWords_cached (j := 4) (n := 1) (ws := ws) h (by omega) (by omega)
  have h2 := fun ws => State.fetchWords_cached (j := 8) (n := 0) (ws := ws) h (by omega) (by omega)
  have hc : ∀ a b c : W32, groupOpen [a, b, c] = false := fun _ _ _ => rfl
  refine h0.trans ?_
  simp only [List.nil_append, Nat.zero_add, h1, List.cons_append]
  split
  · split
    · rw [h2]; simp [hc]
    · rfl
  · rfl

/-! ### A line enters the cache -/

/-- Entering an element into a bounded list at its end leaves it to be found, where no other one has its mark. -/
theorem find?_keepNewest_append {α : Type} (mine p : α → Bool) (n : Nat) (l : List α) (x : α) (hl : ∀ y ∈ l, p y = false)
    (hx : p x = true) (hn : n ≠ 0) : (keepNewest mine n (l ++ [x])).find? p = some x := by
  have found : ∀ k : List α, (∀ y ∈ k, p y = false) → (k ++ [x]).find? p = some x := fun k hk => by
    rw [List.find?_append, List.find?_eq_none.2 fun y hy => by simp [hk y hy]]
    simp [hx]
  unfold keepNewest
  split
  · exact found l hl
  · next hlen =>
    split
    · have hm : ∃ y ∈ l, mine y = true := by
        by_contra hc
        rw [List.filter_append, List.filter_eq_nil_iff.2 fun y hy hm => hc ⟨y, hy, hm⟩] at hlen
        have := List.length_filter_le mine [x]
        simp only [List.nil_append, List.length_singleton] at hlen this
        omega
      have hi := List.findIdx_lt_length.2 hm
      rw [List.findIdx_append, if_pos hi, List.eraseIdx_append_of_lt_length hi]
      exact found _ fun y hy => hl y (List.mem_of_mem_eraseIdx hy)
    · exact found l hl

theorem State.cachedLine_fillLine (t : State) (w : Weft) (va : Nat) (bs : List Byte) :
    (t.fillLine w.core w.ctx va bs).cachedLine w va = some bs := by
  unfold State.cachedLine State.fillLine
  dsimp only
  rw [find?_keepNewest_append _ _ _ _ _ (fun y hy => ?_) (by simp) (by decide)]
  · rfl
  · simpa only [Bool.not_eq_true'] using (List.mem_filter.1 hy).2

/-- A line that is not cached, whose bytes translate and are not poisoned. -/
theorem State.codeLine_translated {s1 : State} {w : Weft} {va k : Nat} {cbf : Bool} (hc : s.cachedLine w va = none)
    (hf : isFabric (BitVec.ofNat 64 va) = false) (ht : s.translate w.ctx (BitVec.ofNat 64 va) .fetch 0 = (.ok k cbf, s1))
    (hp : s1.rpoisoned k 128 = false) : s.codeLine w va = if s1.atomicAt w.core k 128 then (s, none) else
      ((if keyIsHbm k then s1.countLine k cbf else s1).fillLine w.core w.ctx va (s1.coreBytes w.core k 128),
        some (s1.coreBytes w.core k 128)) := by
  simp only [State.codeLine, hc, hf, ht, hp, Bool.false_or, Bool.false_eq_true, if_false]

/-! ### What the next step is (assumption 4) -/

theorem step_of_event {i : Instr} {r : List Instr} (h : s.agenda = i :: r) : step s = exec i { s with agenda := r } := by
  simp only [step, h]

theorem step_of_powerFail {i : Instr} (ha : s.agenda = []) (hp : s.power.pf ≠ .idle) (hi : s.power.nextStep = some i) :
    step s = exec i s := by
  simp only [step, ha, if_pos hp, hi]

theorem step_of_boot {i : Instr} (ha : s.agenda = []) (hp : s.power.pf = .idle) (hb : s.boot.st ≠ .ready)
    (hi : s.boot.nextStep = some i) : step s = exec i s := by
  simp only [step, ha, hp, ne_eq, not_true_eq_false, if_false, if_pos hb, hi]

theorem step_of_idle (ha : s.agenda = []) (hp : s.power.pf = .idle) (hb : s.boot.st = .ready) (hw : s.nextWeft = none) :
    step s = .next s.endCycle := by
  simp only [step, ha, hp, hb, ne_eq, not_true_eq_false, if_false, hw]

/-- Settles O5: the words from the cached line, the line from what its address translates to, and one equation for each kind of step. -/
theorem fetchAndPendingEvents : Obligations.FetchAndPendingEvents := by
  unfold Obligations.FetchAndPendingEvents
  refine ⟨⟨?_, fun s s1 w va k cbf hc hf ht hp => ?_⟩,
    fun s i r => step_of_event, fun s i => step_of_powerFail, fun s i => step_of_boot, fun s => step_of_idle⟩
  · intro s w bs h hr x pre
    have hg : s.fetchGroup w = (s, .inl (if groupOpen [x 0] then (if groupOpen [x 0, x 1] then [x 0, x 1, x 2] else [x 0, x 1])
        else [x 0])) := State.fetchGroup_cached h hr
    refine ⟨fun h0 => ?_, fun h0 h1 => ?_, fun h0 h1 => ?_⟩
    · rw [hg, if_neg fun ho => h0 ((groupOpen_one _).1 ho)]
    · rw [hg, if_pos ((groupOpen_one _).2 h0), if_neg fun ho => h1 ((groupOpen_two _ _).1 ho)]
    · rw [hg, if_pos ((groupOpen_one _).2 (.inl h0)), if_pos ((groupOpen_two _ _).2 ⟨h0, h1⟩)]
  · rw [State.codeLine_translated hc hf ht hp]
    refine ⟨fun ha => if_pos ha, fun ha => ?_⟩
    rw [ha, if_neg Bool.false_ne_true]
    exact ⟨rfl, State.cachedLine_fillLine _ _ _ _⟩

end Sys2Proof.Machine
end

section
/-! PROOF of O58. The contents of a birth record that stop boot (R29). -/

namespace Sys2Proof.Machine
variable {s : State}

theorem ofLeBytes_lt (bs : List Byte) : ofLeBytes bs < 256 ^ bs.length := by
  induction bs with
  | nil => simp [ofLeBytes]
  | cons b r ih =>
    have hb : b.toNat < 256 := b.isLt
    rw [ofLeBytes, List.length_cons, Nat.pow_succ]
    omega

theorem recNum_lt (r : List Byte) (off n : Nat) : recNum r off n < 256 ^ n :=
  (ofLeBytes_lt _).trans_le (Nat.pow_le_pow_right (by decide) (List.length_take_le n _))

theorem field_eq (x lo width : Nat) : field x lo width = x / 2 ^ lo % 2 ^ width := by rw [field, Nat.shiftRight_eq_div_pow]

/-- A record with forbidden contents is refused (R29). -/
theorem recBad_of_contents {r : List Byte} (hl : 0x1000 ≤ r.length)
    (h : (∃ d : Nat, d < 4 ∧ 14 ≤ recNum r 0x20 4 / 16 ^ d % 16) ∨ recNum r 0x0C 4 ≠ 0x605 ∨ recNum r 0x20 4 / 2 ^ 16 ≠ 0
      ∨ ∃ j, 0x470 ≤ j ∧ j < 0x1000 ∧ r[j]? ≠ some 0) : recBad r = true := by
  simp only [recBad, Bool.or_eq_true]
  refine .inl (.inl ?_)
  rcases h with ⟨d, hd, hn⟩ | hp | hv | ⟨j, hj, hj', hn⟩
  · refine .inl (.inl (.inr (List.any_eq_true.2 ⟨d, List.mem_range.2 hd, ?_⟩)))
    rw [field_eq, Nat.pow_mul]
    exact decide_eq_true hn
  · exact .inl (.inl (.inl (bne_iff_ne.2 hp)))
  · have hlt : recNum r 0x20 4 / 2 ^ 16 < 2 ^ 16 := Nat.div_lt_of_lt_mul (recNum_lt r 0x20 4)
    refine .inl (.inr (bne_iff_ne.2 ?_))
    rwa [field_eq, Nat.mod_eq_of_lt hlt]
  · have hlt : j < r.length := by omega
    have hm : r[j] ∈ (r.drop 0x470).take 2960 :=
      List.mem_iff_getElem.2 ⟨j - 0x470, by simp only [List.length_take, List.length_drop]; omega, by
        simp only [List.getElem_take, List.getElem_drop, Nat.add_sub_cancel' hj]⟩
    refine .inr (List.any_eq_true.2 ⟨_, hm, bne_iff_ne.2 fun h0 => hn ?_⟩)
    rw [List.getElem?_eq_getElem hlt, h0]

/-- Settles O58: such a record is refused in the copy that verifies, and a record that is refused is FAIL 3. -/
theorem birthRecordContents : Obligations.BirthRecordContents := by
  unfold Obligations.BirthRecordContents
  intro s hb hp
  have h := State.booting_of hb hp
  simp only [State.bytes_birthCopy]
  cases hk : (List.range 6).find? fun k => recordVerifies (s.birthCopy k) with
  | none => exact ⟨_, exec_brchk_none h hk, nofun⟩
  | some k =>
    by_cases hbad : recBad (s.birthCopy k) = true
    · obtain ⟨hst, hcause, -⟩ := State.bootFail_failsWith (s.withCopy k) 3
      exact ⟨_, exec_brchk_bad h hk hbad, fun _ _ _ => ⟨hst, hcause⟩⟩
    · refine ⟨_, exec_brchk_good h hk hbad, fun k' e hc => absurd ?_ hbad⟩
      cases e
      exact recBad_of_contents (by simp [State.birthCopy, State.bytes, birthLen]) hc

end Sys2Proof.Machine
end

section
/-! PROOF of O36. The machine right after reset. -/

namespace Sys2Proof.Machine

/-- No cell is listed after reset, so every byte reads as unlisted (log entry 1). -/
theorem State.byte_reset (k : Nat) : State.reset.byte k = Memory.unlisted := ite_self _

/-- The first step from reset is the first step of boot (log entry 7). -/
theorem step_reset : step State.reset = exec .bootRom State.reset := rfl

/-- Settles O36: the fields of the reset state, read off one by one. -/
theorem stateAfterReset : Obligations.StateAfterReset := by
  unfold Obligations.StateAfterReset
  refine ⟨State.reset_inv, State.byte_reset, rfl, rfl, rfl, rfl, rfl, rfl, rfl, rfl, rfl, rfl, rfl, rfl, rfl, rfl, rfl, rfl, rfl,
    rfl, by decide, by decide, rfl, rfl, fun r hr => ?_, rfl, rfl, rfl, rfl, rfl, rfl, rfl, rfl, rfl, fun x hx => ?_, rfl, rfl, rfl,
    rfl, rfl, rfl, rfl, rfl, rfl, rfl, rfl, rfl, rfl, rfl, rfl, rfl, rfl, rfl, rfl, rfl, step_reset⟩
  · rw [List.eq_of_mem_replicate hr]
    exact ⟨rfl, rfl⟩
  · rw [List.eq_of_mem_replicate hx]
    rfl

end Sys2Proof.Machine
end

section
/-! SUPPORT of O40. Numbers in little-endian bytes, and what the host's registers, the board's and the mailboxes hold after a write. -/

namespace Sys2Proof.Machine
variable {s : State}

/-! ### Little-endian bytes (R10) -/

@[simp] theorem length_leBytes (n x : Nat) : (leBytes n x).length = n := by
  induction n generalizing x with
  | zero => rfl
  | succ n ih => simp [leBytes, ih]

theorem ofLeBytes_leBytes (n x : Nat) : ofLeBytes (leBytes n x) = x % 256 ^ n := by
  induction n generalizing x with
  | zero => simp [leBytes, ofLeBytes, Nat.mod_one]
  | succ n ih =>
    rw [leBytes, ofLeBytes, ih, BitVec.toNat_ofNat, Nat.pow_succ' (m := 256)]
    exact Nat.mod_mul.symm

theorem take_leBytes (k n x : Nat) : (leBytes (k + n) x).take k = leBytes k x := by
  induction k generalizing x with
  | zero => simp [leBytes]
  | succ k ih => rw [Nat.add_right_comm, leBytes, List.take_succ_cons, ih, leBytes]

theorem drop_leBytes (k n x : Nat) : (leBytes (k + n) x).drop k = leBytes n (x / 256 ^ k) := by
  induction k generalizing x with
  | zero => simp
  | succ k ih => rw [Nat.add_right_comm, leBytes, List.drop_succ_cons, ih, Nat.div_div_eq_div_mul, Nat.pow_succ, Nat.mul_comm (256 ^ k)]

/-- The register that eight bytes give. -/
theorem ofNat_leBytes (v : W64) : BitVec.ofNat 64 (ofLeBytes (leBytes 8 v.toNat)) = v := by
  rw [ofLeBytes_leBytes, show 256 ^ 8 = 2 ^ 64 from rfl, Nat.mod_eq_of_lt v.isLt, BitVec.ofNat_toNat, BitVec.setWidth_eq]

/-- The bytes of two registers, the lower one first. -/
theorem leBytes_append (u v : W64) : (leBytes 16 (u ++ v).toNat).take 8 = leBytes 8 v.toNat
    ∧ (leBytes 16 (u ++ v).toNat).drop 8 = leBytes 8 u.toNat := by
  have hv : (u ++ v).toNat % 2 ^ 64 = v.toNat := by
    rw [← BitVec.toNat_setWidth, BitVec.setWidth_append_eq_right]
  have hu : (u ++ v).toNat / 2 ^ 64 = u.toNat := by
    rw [BitVec.toNat_append, ← Nat.shiftLeft_add_eq_or_of_lt v.isLt, Nat.shiftLeft_eq, Nat.add_div_of_dvd_right (Dvd.intro_left _ rfl),
      Nat.div_eq_of_lt v.isLt, Nat.mul_div_cancel _ (by decide), Nat.add_zero]
  have low : ∀ n x : Nat, leBytes n x = leBytes n (x % 256 ^ n) := by
    intro n
    induction n with
    | zero => exact fun _ => rfl
    | succ n ih =>
      intro x
      rw [leBytes, leBytes, ih (x / 256), ih (x % 256 ^ (n + 1) / 256), Nat.pow_succ, Nat.mul_comm (256 ^ n), Nat.mod_mul_right_div_self,
        Nat.mod_mod]
      congr 1
      exact BitVec.eq_of_toNat_eq (by simp only [BitVec.toNat_ofNat]; exact (Nat.mod_mul_right_mod _ _ _).symm)
  exact ⟨(take_leBytes 8 8 _).trans ((low 8 _).trans (congrArg _ hv)), (drop_leBytes 8 8 _).trans (congrArg _ hu)⟩

/-! ### Writes of the host (R34, R108) -/

/-- A write of eight bytes to BAR0 in READY reaches the register at its offset, or is Unsupported. -/
theorem exec_hostWrite_ready {off : Nat} (v : W64) (hw : s.host.width ≠ 0) (hb : s.boot.st = .ready) (ho : off % 8 = 0) :
    exec (.registerWrite .host off 8 v.toNat) s = (hostWrite off v s).getD (.next (s.emit (.unsupported off))) := by
  have h1 : ¬ (s.host.width = 0 ∨ s.boot.st = .off) := not_or.2 ⟨hw, by simp [hb]⟩
  have h2 : ¬ ((leBytes 8 v.toNat).length ≠ 8 ∨ off % 8 ≠ 0 ∨ (s.boot.st ≠ .ready ∧ off ≠ 0x4000)) := by simp [ho, hb]
  simp only [exec_registerWrite, execRegisterWrite, writeHost, if_neg h1, if_neg h2, ofNat_leBytes]

theorem exec_hostWrite_unsupported {off : Nat} (v : W64) (hw : s.host.width ≠ 0) (hb : s.boot.st ≠ .off)
    (ho : off % 8 ≠ 0 ∨ (s.boot.st ≠ .ready ∧ off ≠ 0x4000)) :
    exec (.registerWrite .host off 8 v.toNat) s = .next (s.emit (.unsupported off)) := by
  have h1 : ¬ (s.host.width = 0 ∨ s.boot.st = .off) := not_or.2 ⟨hw, hb⟩
  rw [exec_registerWrite, execRegisterWrite, writeHost, if_neg h1, if_pos (.inr ho)]

theorem hostWrite_pkgid (v : W64) : hostWrite 0x100 v s = some (execPkgidWrite (v.setWidth 9) s) := rfl

theorem hostWrite_peer (v : W64) {n : Nat} (hn : n < 512) : hostWrite (0x1000 + 8 * n) v s = some (.next (s.writePeer n v)) := by
  rw [hostWrite, if_neg (by omega), if_neg (by omega), if_pos (by omega), show (0x1000 + 8 * n - 0x1000) / 8 = n by omega]

theorem hostWrite_mbdata (v : W64) {n : Nat} (hn : n < 4096) :
    hostWrite (0x8000 + 8 * n) v s = some (.next (s.writeMbdata 0 (8 * n) (leBytes 8 v.toNat))) := by
  rw [hostWrite, if_neg (by omega), if_neg (by omega), if_neg (by omega), if_neg (by omega), if_neg (by omega), if_pos (by omega),
    Nat.add_sub_cancel_left]

theorem hostWrite_ctxBase (v : W64) {n : Nat} (hn : n < 64) :
    hostWrite (0x10000 + 32 * n) v s = some (.next (s.setCtx n { s.ctx n with base := v })) := by
  rw [hostWrite, if_neg (by omega), if_neg (by omega), if_neg (by omega), if_neg (by omega), if_neg (by omega), if_neg (by omega),
    if_pos (by omega), show (0x10000 + 32 * n - 0x10000) / 32 = n by omega, show (0x10000 + 32 * n) / 8 % 4 = 0 by omega]
  rfl

theorem hostWrite_undefined (v : W64) : hostWrite 0x300000 v s = none := rfl

/-- A lookup past the entries of another key. -/
theorem lookup_filter_ne {α : Type} (l : List (Nat × α)) {m n : Nat} (h : m ≠ n) : (l.filter fun e => e.1 ≠ n).lookup m = l.lookup m := by
  induction l with
  | nil => rfl
  | cons e r ih =>
    obtain ⟨a, x⟩ := e
    by_cases ha : a = n
    · have hm : (m == a) = false := by simp [ha, h]
      rw [List.filter_cons, if_neg (by simp [ha]), List.lookup_cons, hm, ih]
    · rw [List.filter_cons, if_pos (by simp [ha]), List.lookup_cons, List.lookup_cons, ih]

theorem State.peer_putPeer_same (n : Nat) (f : Peer → Peer) : (s.putPeer n f).peer n = f (s.peer n) := by
  simp [State.peer, State.putPeer]

theorem State.peer_putPeer_ne {m n : Nat} (f : Peer → Peer) (h : m ≠ n) : (s.putPeer n f).peer m = s.peer m := by
  have hm : (m == n) = false := by simp [h]
  simp only [State.peer, State.putPeer, List.lookup_cons, hm, lookup_filter_ne _ h]

theorem exec_pkgidWrite_free {id : BitVec 9} (hu : s.up = true) (h : ∀ x ∈ s.ctxs, x.st = .free ∨ x.desc.fjob = 0) :
    exec (.pkgidWrite id) s = .next { s with fab := { s.fab with pkgid := id } } := by
  have ha : (s.ctxs.any fun x => x.st != .free && x.desc.fjob != 0) = false := by
    rw [List.any_eq_false]
    intro x hx
    rcases h x hx with h | h <;> simp [h]
  rw [exec_pkgidWrite, execPkgidWrite, hu, ha]
  rfl

theorem exec_pkgidWrite_held {id : BitVec 9} (h : ∃ x ∈ s.ctxs, x.st ≠ .free ∧ x.desc.fjob ≠ 0) : exec (.pkgidWrite id) s = .next s := by
  have ha : (s.ctxs.any fun x => x.st != .free && x.desc.fjob != 0) = true := by simpa using h
  rw [exec_pkgidWrite, execPkgidWrite, ha, Bool.or_true]
  rfl

/-! ### Reads of the host (R34, R108) -/

theorem State.hostLoad_early {off size : Nat} (hb : s.boot.st ≠ .ready) (h : s.hostLoad off size ≠ none) :
    size = 8 ∧ (off = 0 ∨ off = 0x4000) := by
  by_contra hc
  exact h (if_pos (by tauto))

theorem State.hostLoad_bootst : s.hostLoad 0 8 = some (BitVec.ofNat 64 s.boot.word) := by
  rw [State.hostLoad, if_neg (by simp)]
  rfl

theorem State.hostLoad_peer {n : Nat} (hb : s.boot.st = .ready) (hn : n < 512) :
    s.hostLoad (0x1000 + 8 * n) 8 = some (BitVec.ofNat 64 (s.peer n).word) := by
  have hr : s.hostReg (0x1000 + 8 * n) = some (s.peer n).word := by
    rw [State.hostReg, if_neg (by omega), if_neg (by omega), if_neg (by omega), if_neg (by omega), if_pos (by omega),
      show (0x1000 + 8 * n - 0x1000) / 8 = n by omega]
  have h : ¬ (8 ≠ 8 ∨ (0x1000 + 8 * n) % 8 ≠ 0 ∨ (s.boot.st ≠ .ready ∧ 0x1000 + 8 * n ≠ 0 ∧ 0x1000 + 8 * n ≠ 0x4000)) :=
    not_or.2 ⟨not_not.2 rfl, not_or.2 ⟨by omega, fun h => h.1 hb⟩⟩
  rw [State.hostLoad, if_neg h, hr]
  rfl

/-! ### The I3C map (R102, R122-R125) -/

/-- The bytes of a register before its last one only arrive (R122). -/
theorem i3cByteIn_waits {off j i : Nat} {data : List Byte} (ho : off % 8 = 0) (hr : off + 8 * j + 8 ≤ 0x8000) (hi : i < 7) :
    i3cByteIn off data (8 * j + i) s = .next s := by
  rw [i3cByteIn]
  rw [if_neg (by omega), if_neg (by omega)]

/-- A register takes effect with its last byte (R122). -/
theorem i3cByteIn_last {off j : Nat} {data : List Byte} (ho : off % 8 = 0) (hr : off + 8 * j + 8 ≤ 0x8000) :
    i3cByteIn off data (8 * j + 7) s = i3cWrite (off + 8 * j) (BitVec.ofNat 64 (ofLeBytes ((data.drop (8 * j)).take 8))) s := by
  rw [i3cByteIn]
  rw [if_neg (by omega), if_pos (by omega), show (off + (8 * j + 7)) % 2 ^ 16 - 7 = off + 8 * j by omega, Nat.add_sub_cancel]

/-- Eight bytes of a private write are a write of the register at their offset (R122). -/
theorem i3cBytesIn_register (r : Res) {off : Nat} (j : Nat) {data : List Byte} (ho : off % 8 = 0) (hr : off + 8 * j + 8 ≤ 0x8000) :
    ([0, 1, 2, 3, 4, 5, 6, 7].map (8 * j + ·)).foldl (fun r i => r.bind (i3cByteIn off data i)) r
      = r.bind (i3cWrite (off + 8 * j) (BitVec.ofNat 64 (ofLeBytes ((data.drop (8 * j)).take 8)))) := by
  have hw := fun (s : State) (i : Nat) (hi : i < 7) => i3cByteIn_waits (s := s) (data := data) ho hr hi
  cases r with
  | next s =>
    simp only [List.map_cons, List.map_nil, List.foldl_cons, List.foldl_nil, Res.bind, hw s 0 (by decide), hw s 1 (by decide),
      hw s 2 (by decide), hw s 3 (by decide), hw s 4 (by decide), hw s 5 (by decide), hw s 6 (by decide), i3cByteIn_last ho hr]
  | fault e => rfl
  | refused e => rfl

/-- The state with another offset pointer of the board's interface. -/
def State.withI3cOff (s : State) (n : Nat) : State := { s with host := { s.host with i3cOff := n } }

/-- A private write of one register (R122). -/
theorem exec_boardWrite {off : Nat} (v : W64) (hb : s.boot.st ≠ .off) (ho : off % 8 = 0) (hr : off + 8 ≤ 0x8000) :
    exec (.registerWrite .i3c off 8 v.toNat) s = i3cWrite off v (s.withI3cOff (off + 8)) := by
  have hm : (off + 8) % 2 ^ 16 = off + 8 := by omega
  have h8 : (leBytes 8 v.toNat).take 8 = leBytes 8 v.toNat := List.take_of_length_le (by simp)
  have h := i3cBytesIn_register (.next (s.withI3cOff (off + 8))) 0 (data := leBytes 8 v.toNat) ho hr
  rw [Nat.mul_zero, Nat.add_zero, List.drop_zero, h8, ofNat_leBytes] at h
  rw [exec_registerWrite, execRegisterWrite, writeI3c, if_neg hb, length_leBytes, hm]
  exact h

/-- A private write of two registers, one after the other (R122). -/
theorem exec_boardWrite_two {off : Nat} (u v : W64) (hb : s.boot.st ≠ .off) (ho : off % 8 = 0) (hr : off + 16 ≤ 0x8000) :
    exec (.registerWrite .i3c off 16 (u ++ v).toNat) s = (i3cWrite off v (s.withI3cOff (off + 16))).bind (i3cWrite (off + 8) u) := by
  obtain ⟨hv, hu⟩ := leBytes_append u v
  have hm : (off + 16) % 2 ^ 16 = off + 16 := by omega
  have hu8 : ((leBytes 16 (u ++ v).toNat).drop (8 * 1)).take 8 = leBytes 8 u.toNat := by
    rw [Nat.mul_one, hu, List.take_of_length_le (by simp)]
  have hsplit : List.range 16 = [0, 1, 2, 3, 4, 5, 6, 7].map (8 * 0 + ·) ++ [0, 1, 2, 3, 4, 5, 6, 7].map (8 * 1 + ·) := rfl
  rw [exec_registerWrite, execRegisterWrite, writeI3c, if_neg hb, length_leBytes, hm, hsplit, List.foldl_append,
    i3cBytesIn_register _ 1 ho hr, i3cBytesIn_register _ 0 ho (by omega), hu8, Nat.mul_zero, List.drop_zero, hv, ofNat_leBytes, ofNat_leBytes]
  rfl

/-! ### Alerts (R123, R125) -/

theorem State.setAlert_alertst {st en : BitVec 9} : (s.setAlert st en).host.alertst = st := by
  unfold State.setAlert; dsimp only; split <;> rfl

theorem State.setAlert_alerten {st en : BitVec 9} : (s.setAlert st en).host.alerten = en := by
  unfold State.setAlert; dsimp only; split <;> rfl

theorem State.setAlert_i3cOff {st en : BitVec 9} : (s.setAlert st en).host.i3cOff = s.host.i3cOff := by
  unfold State.setAlert; dsimp only; split <;> rfl

/-- ALERT_N is released while no enabled bit is set (R23). -/
theorem State.setAlert_alertN {st en : BitVec 9} : (s.setAlert st en).alertN = decide (st &&& en = 0) := by
  rw [State.alertN, State.setAlert_alertst, State.setAlert_alerten]
  rfl

/-- An in-band interrupt goes out when the enabled bits rise from none (R125). -/
theorem State.setAlert_out {st en : BitVec 9} (hi : s.host.ibiOn = true) (h0 : s.host.alertst &&& s.host.alerten = 0) (h1 : st &&& en ≠ 0) :
    (s.setAlert st en).host.out = .ibi ((st &&& en).setWidth 8) :: s.host.out := by
  have hc : (s.host.ibiOn && (s.host.alertst &&& s.host.alerten) == 0 && (st &&& en) != 0) = true := by
    rw [hi, h0, bne_iff_ne.2 h1]; rfl
  unfold State.setAlert
  dsimp only
  rw [if_pos hc]
  rfl

/-! ### Mailboxes and quotes (R31, R109, R124) -/

theorem State.box_setBox (i : Nat) (m : Mailbox) : (s.setBox i m).host.box i = m := by
  unfold State.setBox HostIf.box
  by_cases h : i = 0 <;> simp [h]

theorem State.setBox_quote (i : Nat) (m : Mailbox) : (s.setBox i m).host.quote = s.host.quote := by
  unfold State.setBox; dsimp only; split <;> rfl

theorem State.setBox_quoteWait (i : Nat) (m : Mailbox) : (s.setBox i m).host.quoteWait = s.host.quoteWait := by
  unfold State.setBox; dsimp only; split <;> rfl

theorem State.alert_box (bit i : Nat) : (s.alert bit).host.box i = s.host.box i := by
  unfold State.alert; dsimp only; split <;> rfl

theorem State.alert_quote (bit : Nat) : (s.alert bit).host.quote = s.host.quote := by
  unfold State.alert; dsimp only; split <;> rfl

theorem State.quoteAlert_box (i j : Nat) : (s.quoteAlert i).host.box j = s.host.box j := by
  unfold State.quoteAlert
  split
  · exact State.alert_box 2 j
  · rfl

theorem State.quoteAlert_quote (i : Nat) : (s.quoteAlert i).host.quote = s.host.quote := by
  unfold State.quoteAlert
  split
  · exact State.alert_quote 2
  · rfl

/-- An I3C quote's end sets ALERTST.QDONE (R124, R125). -/
theorem State.quoteAlert_qdone : (s.quoteAlert 1).host.alertst.getLsbD 2 = true := by
  rw [State.quoteAlert, if_pos rfl, State.alert_alertst]
  simp

/-- The mailbox takes a GO (R109, R124). -/
def Mailbox.takes (m : Mailbox) : Prop := m.busy = false ∧ 32 ≤ ofLeBytes (m.bytes 0 2) ∧ ofLeBytes (m.bytes 0 2) ≤ 64

theorem State.goQuote_refused {i : Nat} (h : ¬ (s.host.box i).takes) :
    s.goQuote i = (s.setBox i { s.host.box i with err := true }).quoteAlert i := by
  refine if_pos ?_
  by_contra hc
  simp only [Bool.or_eq_true, Bool.not_eq_true', decide_eq_true_eq, not_or, Nat.not_lt, Bool.not_eq_true] at hc
  obtain ⟨⟨⟨-, hb⟩, hl⟩, hu⟩ := hc
  exact h ⟨hb, hl, hu⟩

/-- GO that is taken: the quote starts, or waits for the shared engine. -/
theorem State.goQuote_taken {i : Nat} (hu : s.up = true) (h : (s.host.box i).takes) :
    s.goQuote i = (let t := s.setBox i { s.host.box i with busy := true }
      if s.host.quote.isNone then { t with host := { t.host with quote := some i } } else { t with host := { t.host with quoteWait := some i } }) := by
  obtain ⟨hb, hl, hh⟩ := h
  refine if_neg ?_
  simp only [hu, hb, Bool.or_eq_true, Bool.not_true, decide_eq_true_eq, Bool.false_eq_true, false_or, not_or, Nat.not_lt]
  exact ⟨hl, hh⟩

/-- Another record of which quote runs and which waits leaves the mailboxes. -/
theorem State.box_withQuote (t : State) (a b : Option Nat) (i : Nat) :
    HostIf.box { t.host with quote := a, quoteWait := b } i = t.host.box i := rfl

theorem State.goQuote_starts {i : Nat} (hu : s.up = true) (h : (s.host.box i).takes) (hq : s.host.quote = none) :
    ((s.goQuote i).host.box i).busy = true ∧ (s.goQuote i).host.quote = some i := by
  rw [State.goQuote_taken hu h, hq]
  exact ⟨congrArg Mailbox.busy ((State.box_withQuote (s.setBox i _) _ _ i).trans (State.box_setBox i _)), rfl⟩

theorem State.goQuote_waits {i j : Nat} (hu : s.up = true) (h : (s.host.box i).takes) (hq : s.host.quote = some j) :
    ((s.goQuote i).host.box i).busy = true ∧ (s.goQuote i).host.quote = some j ∧ (s.goQuote i).host.quoteWait = some i := by
  rw [State.goQuote_taken hu h, hq]
  exact ⟨congrArg Mailbox.busy ((State.box_withQuote (s.setBox i _) _ _ i).trans (State.box_setBox i _)),
    (State.setBox_quote i _).trans hq, rfl⟩

theorem State.goQuote_err {i : Nat} (h : ¬ (s.host.box i).takes) :
    ((s.goQuote i).host.box i).err = true ∧ (s.goQuote i).host.quote = s.host.quote := by
  rw [State.goQuote_refused h, State.quoteAlert_box, State.box_setBox, State.quoteAlert_quote, State.setBox_quote]
  exact ⟨rfl, rfl⟩

/-- Bytes written to a mailbox read back (R109). -/
theorem get_setAll_cellsFrom {m : Memory} (hm : Memory.wf m = true) (off : Nat) (bs : List Byte) {i : Nat} (hi : i < bs.length) :
    Memory.get (Memory.setAll m (cellsFrom off bs)) (off + i) = bs.getD i 0 := by
  rw [get_setAll_cellAt m _ _ hm (nodup_cellsFrom off bs), cellAt_cellsFrom, if_pos (by omega), Nat.add_sub_cancel_left]
  rfl

/-- The length of a quote (R109). -/
theorem State.length_quoteBytes (nonce : List Byte) : (s.quoteBytes nonce).length = 16792 := by
  simp [State.quoteBytes, State.quoteBody, rsaLen, slhSigLen]

/-- The mailbox of a quote that has ended (R109). -/
def Mailbox.quoted (m : Mailbox) (q : List Byte) : Mailbox :=
  { m with busy := false, done := true, len := quoteLen, data := Memory.setAll m.data (cellsFrom 0 q) }

theorem Mailbox.get_quoted {m : Mailbox} {q : List Byte} (hm : Memory.wf m.data = true) {j : Nat} (hj : j < q.length) :
    Memory.get (m.quoted q).data j = q.getD j 0 := by
  have h := get_setAll_cellsFrom hm 0 q hj
  rwa [Nat.zero_add] at h

/-- The state after the running quote has been written (R109, R124). -/
def State.quoted (s : State) (i : Nat) : State :=
  let m := s.host.box i
  let t := State.setBox { s with draws := s.draws + 2 } i (m.quoted (s.quoteBytes (m.bytes 8 (ofLeBytes (m.bytes 0 2)))))
  State.quoteAlert { t with host := { t.host with quote := t.host.quoteWait, quoteWait := none } } i

theorem exec_quoteDone_runs {i : Nat} (hu : s.up = true) (h : s.host.quote = some i) : exec .quoteDone s = .next (s.quoted i) := by
  rw [exec_quoteDone, execQuoteDone, h]
  dsimp only
  rw [hu]
  rfl

theorem State.box_quoted (i : Nat) : (s.quoted i).host.box i
    = (s.host.box i).quoted (s.quoteBytes ((s.host.box i).bytes 8 (ofLeBytes ((s.host.box i).bytes 0 2)))) :=
  (State.quoteAlert_box i i).trans (State.box_setBox (s := { s with draws := s.draws + 2 }) i _)

theorem State.quoted_quote (i : Nat) : (s.quoted i).host.quote = s.host.quoteWait :=
  (State.quoteAlert_quote i).trans (State.setBox_quoteWait (s := { s with draws := s.draws + 2 }) i _)

end Sys2Proof.Machine
end

section
/-! PROOF of O40. The registers of the host and of the board, alerts and quotes. -/

namespace Sys2Proof.Machine
variable {s : State}

/-! ### The obligation -/

/-- A host write to a register in READY. -/
theorem hostWrites {v : W64} {off n : Nat} (hu : s.up = true) (hw : s.host.width ≠ 0) :
    exec (.registerWrite .host 0x100 8 v.toNat) s = exec (.pkgidWrite (v.setWidth 9)) s
    ∧ (n < 512 → ∃ t, exec (.registerWrite .host (0x1000 + 8 * n) 8 v.toNat) s = .next t ∧ (t.peer n).v = v.getLsbD 0
        ∧ (t.peer n).sport = v.extractLsb' 1 9 ∧ (t.peer n).st = v.extractLsb' 10 2 ∧ (t.peer n).planes = (s.peer n).planes
        ∧ ∀ m, m ≠ n → t.peer m = s.peer m)
    ∧ (n < 64 → n < s.ctxs.length → ∃ t, exec (.registerWrite .host (0x10000 + 32 * n) 8 v.toNat) s = .next t ∧ (t.ctx n).base = v)
    ∧ (off % 8 ≠ 0 → exec (.registerWrite .host off 8 v.toNat) s = .next (s.emit (.unsupported off)))
    ∧ exec (.registerWrite .host 0x300000 8 v.toNat) s = .next (s.emit (.unsupported 0x300000))
    ∧ (n < 4096 → ∃ t, exec (.registerWrite .host (0x8000 + 8 * n) 8 v.toNat) s = .next t ∧ (Memory.wf s.host.mb.data = true →
        ∀ i, i < 8 → Memory.get t.host.mb.data (8 * n + i) = (leBytes 8 v.toNat).getD i 0)) := by
  have hb : s.boot.st = .ready := by
    simp only [State.up, State.booting, Bool.and_eq_true, beq_iff_eq] at hu
    exact hu.1
  refine ⟨?_, fun hn => ?_, fun hn hc => ?_, fun ho => ?_, ?_, fun hn => ?_⟩
  · rw [exec_hostWrite_ready v hw hb rfl, hostWrite_pkgid, exec_pkgidWrite]
    rfl
  · rw [exec_hostWrite_ready v hw hb (by omega), hostWrite_peer v hn]
    refine ⟨_, rfl, ?_⟩
    rw [State.writePeer, State.peer_putPeer_same]
    exact ⟨rfl, rfl, rfl, rfl, fun m hm => State.peer_putPeer_ne _ hm⟩
  · rw [exec_hostWrite_ready v hw hb (by omega), hostWrite_ctxBase v hn]
    refine ⟨_, rfl, ?_⟩
    rw [ctx_setCtx _ _ _ hc]
  · exact exec_hostWrite_unsupported v hw (by simp [hb]) (.inl ho)
  · rw [exec_hostWrite_ready v hw hb rfl, hostWrite_undefined]
    rfl
  · rw [exec_hostWrite_ready v hw hb (by omega), hostWrite_mbdata v hn]
    exact ⟨_, rfl, fun hm i hi => get_setAll_cellsFrom hm _ _ (by simpa using hi)⟩

/-- A write or a read of the board. -/
theorem boardAccesses {v u : W64} {n : Nat} (hb : s.boot.st ≠ .off) :
    (∃ t, exec (.registerWrite .i3c 0x0010 8 v.toNat) s = .next t ∧ t.host.alerten = v.setWidth 9
        ∧ t.alertN = decide (s.host.alertst &&& v.setWidth 9 = 0)
        ∧ (s.host.ibiOn = true → s.host.alertst &&& s.host.alerten = 0 → s.host.alertst &&& v.setWidth 9 ≠ 0 →
            t.host.out = .ibi ((s.host.alertst &&& v.setWidth 9).setWidth 8) :: s.host.out))
    ∧ (∃ t, exec (.registerWrite .i3c 0x0158 8 v.toNat) s = .next t ∧ t.power.holdup = v.setWidth 16)
    ∧ (∃ t, exec (.registerWrite .i3c 0x0160 8 v.toNat) s = .next t ∧ t.power.icclim = v.setWidth 24)
    ∧ (∃ t, exec (.registerWrite .i3c 0x0168 8 v.toNat) s = .next t ∧ t.power.oreqcfg = v.setWidth 13)
    ∧ (∃ t, exec (.registerWrite .i3c 0x0008 8 v.toNat) s = .next t ∧ t.host.alertst = s.host.alertst &&& ~~~(v.setWidth 9))
    ∧ (∃ t, exec (.registerWrite .i3c 0x0008 16 (u ++ v).toNat) s = .next t
        ∧ t.host.alertst = s.host.alertst &&& ~~~(v.setWidth 9) ∧ t.host.alerten = u.setWidth 9 ∧ t.host.i3cOff = 0x18)
    ∧ (∃ t, exec (.alertClear v) s = .next t ∧ t.host.alertst = s.host.alertst &&& ~~~(v.setWidth 9) ∧ t.host.alerten = s.host.alerten)
    ∧ (∃ t, exec (.i3cPrivateRead n) s = .next t ∧ t.host.i3cOff = (s.host.i3cOff + n) % 2 ^ 16
        ∧ t.host.out = .i3cData ((List.range n).map fun i => s.i3cByte ((s.host.i3cOff + i) % 2 ^ 16)) :: s.host.out) := by
  have hn : (s.boot.st == .off) = false := by simpa using hb
  refine ⟨?enable, ⟨_, (exec_boardWrite v hb rfl (by decide)).trans rfl, rfl⟩, ⟨_, (exec_boardWrite v hb rfl (by decide)).trans rfl, rfl⟩,
    ⟨_, (exec_boardWrite v hb rfl (by decide)).trans rfl, rfl⟩, ?clear, ?both,
    ⟨_, exec_alertClear v s, State.setAlert_alertst, State.setAlert_alerten⟩, ?read⟩
  case enable =>
    rw [exec_boardWrite v hb rfl (by decide)]
    exact ⟨_, rfl, State.setAlert_alerten, State.setAlert_alertN, fun hi h0 h1 => State.setAlert_out (s := s.withI3cOff _) hi h0 h1⟩
  case clear =>
    rw [exec_boardWrite v hb rfl (by decide)]
    exact ⟨_, rfl, State.setAlert_alertst⟩
  case both =>
    rw [exec_boardWrite_two u v hb rfl (by decide)]
    exact ⟨_, rfl, State.setAlert_alertst.trans State.setAlert_alertst, State.setAlert_alerten,
      State.setAlert_i3cOff.trans State.setAlert_i3cOff⟩
  case read =>
    rw [exec_i3cPrivateRead, execI3cPrivateRead, hn]
    exact ⟨_, rfl, rfl, rfl⟩

/-- Settles O40: each clause by the lemma of its register, its transfer or its mailbox. -/
theorem hostRegistersAndQuotes : Obligations.HostRegistersAndQuotes := by
  unfold Obligations.HostRegistersAndQuotes
  refine ⟨?_, ?_⟩
  · intro s v u off n a on id host board
    refine ⟨State.hostLoad_bootst, fun hb size => State.hostLoad_early hb, State.hostLoad_peer,
      fun hw ho hr hm => exec_hostWrite_unsupported v hw ho (.inr ⟨hr, hm⟩),
      fun hu => ⟨hostWrites hu, fun h => ⟨_, exec_pkgidWrite_free hu h, rfl⟩, exec_pkgidWrite_held⟩, boardAccesses,
      exec_i3cDynamicAddressAssignment a s, exec_i3cEventEnable on s, exec_i3cReset s⟩
  · intro s hu len good
    refine ⟨fun h hq => ⟨_, exec_quoteGo s, State.goQuote_starts (i := 0) hu h hq⟩,
      fun h hq => ⟨_, exec_quoteGo s, State.goQuote_waits (i := 0) hu h hq⟩,
      fun h => ⟨_, exec_quoteGo s, State.goQuote_err (i := 0) h⟩,
      fun h hq => ⟨_, exec_imbQuoteGo s, State.goQuote_starts (i := 1) hu h hq⟩,
      fun h => ⟨_, exec_imbQuoteGo s, (State.goQuote_err (i := 1) h).1, ?_⟩,
      fun i hq hi => ⟨_, exec_quoteDone_runs hu hq, ?_⟩⟩
    · rw [State.goQuote_refused (i := 1) h]
      exact State.quoteAlert_qdone
    · intro m q
      have hl : q.length = 16792 := State.length_quoteBytes _
      rw [State.box_quoted]
      refine ⟨rfl, rfl, rfl, State.quoted_quote i, hl, fun h1 => ?_, fun hm j hj => ?_⟩
      · subst h1
        exact State.quoteAlert_qdone
      · exact Mailbox.get_quoted hm (hj.trans_eq hl.symm)

end Sys2Proof.Machine
end

section
/-! SUPPORT of O38, O39 and O59. What accesses, traps and pre-emption leave alone: BOOTST, power control and ALERTST. -/

namespace Sys2Proof.Machine

/-! ### Keeping a property of states -/

theorem ite_keeps {σ : Type} {P : σ → Prop} {c : Prop} [Decidable c] {a b : σ} (ha : P a) (hb : P b) : P (if c then a else b) := by
  split
  · exact ha
  · exact hb

theorem pair_ite_keeps {σ α : Type} {P : σ → Prop} {c : Prop} [Decidable c] {a b : σ × α} (ha : P a.1) (hb : P b.1) :
    P (if c then a else b).1 := by
  split
  · exact ha
  · exact hb

theorem getD_keeps {σ : Type} {P : σ → Prop} {o : Option σ} {s : σ} (ho : ∀ t, o = some t → P t) (h : P s) : P (o.getD s) := by
  cases o with
  | none => exact h
  | some t => exact ho t rfl

theorem fst_keeps {σ α : Type} {P : σ → Prop} {p : σ × α} {a : α} {t : σ} (e : p = (t, a)) (h : P p.1) : P t := by
  subst e; exact h

theorem snd_keeps {σ α : Type} {P : σ → Prop} {p : α × σ} {a : α} {t : σ} (e : p = (a, t)) (h : P p.2) : P t := by
  subst e; exact h

/-- Boot, power control and the alerts stand in both states alike: what one access, trap or pre-emption never changes. -/
def State.Steady (s t : State) : Prop := t.boot = s.boot ∧ t.power = s.power ∧ t.host.alertst = s.host.alertst

variable {s₀ s : State}

theorem State.Steady.refl : s.Steady s := ⟨rfl, rfl, rfl⟩

theorem State.MemOnly.steady {t : State} (k : s.MemOnly t) (h : s₀.Steady s) : s₀.Steady t := by
  rw [k]; exact h

theorem State.writeBytes_memOnly (s : State) (k : Nat) (bs : List Byte) : s.MemOnly (s.writeBytes k bs) := State.write_memOnly ..

theorem State.countLine_memOnly (s : State) (k : Nat) (cbf : Bool) : s.MemOnly (s.countLine k cbf) := by
  unfold State.countLine
  dsimp only
  split <;> rfl

theorem State.openUnit_getD_memOnly (s : State) (va st : Nat) : s.MemOnly ((s.openUnit va st).getD s) :=
  .getD fun _ => State.openUnit_memOnly

theorem State.setCtx_steady {c : Nat} {x : Context} (h : s₀.Steady s) : s₀.Steady (s.setCtx c x) := h

theorem State.emit_steady {o : Out} (h : s₀.Steady s) : s₀.Steady (s.emit o) := h

/-! ### Host memory, traps and teardown -/

theorem State.hostPut_steady {t : State} {a : Nat} {bs : List Byte} (h : s₀.Steady s) (e : s.hostPut a bs = some t) : s₀.Steady t := by
  unfold State.hostPut at e
  split at e
  · cases e; exact (State.writeBytes_memOnly ..).steady h
  · cases e

theorem State.hostIndex_steady {a : Nat} {v : W32} (h : s₀.Steady s) : s₀.Steady (s.hostIndex a v) := getD_keeps (fun _ => State.hostPut_steady h) h

theorem State.beginTeardown_steady {c : Nat} (h : s₀.Steady s) : s₀.Steady (s.beginTeardown c) := h

theorem State.fatal_steady {w : Weft} {cause : Cause} {lanes info rpc : W64} (h : s₀.Steady s) : s₀.Steady (s.fatal w cause lanes info rpc) :=
  ite_keeps h (State.beginTeardown_steady ((State.vaWrite_getD_memOnly ..).steady h))

theorem State.takeTrap_steady {w : Weft} {cause : Cause} {lanes info rpc : W64} (h : s₀.Steady s) : s₀.Steady (s.takeTrap w cause lanes info rpc) :=
  ite_keeps (State.fatal_steady (s := s.setWeft w) h) h

theorem State.trapF_steady {w : Weft} {cause : Cause} {lanes : W64} {t : TInfo} (h : s₀.Steady s) : s₀.Steady (s.trapF w cause lanes t) :=
  State.takeTrap_steady h

theorem State.trapL_steady {w : Weft} {cause : Cause} {lanes : W64} {t : TInfo} (h : s₀.Steady s) : s₀.Steady (s.trapL w cause lanes t) :=
  State.takeTrap_steady h

/-! ### Queues and launches -/

theorem State.q3Pop_steady {w : Weft} (h : s₀.Steady s) : s₀.Steady (s.q3Pop w) := by
  unfold State.q3Pop
  split
  · exact h
  · split
    · exact h
    · split <;> exact h

theorem State.q4Push_steady {w : Weft} {v : W64} (h : s₀.Steady s) : s₀.Steady (s.q4Push w v) := by
  unfold State.q4Push
  split <;> exact h

theorem State.qPop_steady {w : Weft} {n : Nat} (h : s₀.Steady s) : s₀.Steady (s.qPop w n) := by
  unfold State.qPop
  split
  · exact State.q3Pop_steady h
  · split <;> exact h

theorem State.qPush_steady {w : Weft} {n : Nat} {v : W64} (h : s₀.Steady s) : s₀.Steady (s.qPush w n v) := by
  unfold State.qPush
  split
  · exact State.q4Push_steady h
  · split <;> exact h

theorem State.popUses_steady {w : Weft} {m : W64} {us : List Use} (h : s₀.Steady s) : s₀.Steady (s.popUses w m us) := by
  induction us generalizing s with
  | nil => exact h
  | cons u r ih =>
    unfold State.popUses
    split
    · split
      · exact ih h
      · split
        · split
          · exact ih (s := s.setTeam _) h
          · exact ih h
        · exact ih (State.qPop_steady h)
    · exact ih h

theorem writeS_steady {w : Weft} {o : Opnd} {v : W64} (h : s₀.Steady s) : s₀.Steady (writeS s w o v).1 := by
  unfold writeS
  split
  · exact h
  · exact State.qPush_steady h
  · exact h

theorem State.joinPipe_steady {c serial : Nat} {r : LaunchRec} (h : s₀.Steady s) : s₀.Steady (s.joinPipe c serial r) := by
  unfold State.joinPipe
  split
  · exact h
  · dsimp only
    split <;> exact h

theorem State.enterLaunch_steady {c : Nat} {lva : W64} {r : LaunchRec} {die : Option Nat} {extra : List Dep}
    {cmd : Option (Nat × Nat × Nat)} {itn : Option Nat} (h : s₀.Steady s) : s₀.Steady (s.enterLaunch c lva r die extra cmd itn) := by
  unfold State.enterLaunch
  exact State.joinPipe_steady h

/-! ### Combining buffers and fault records -/

theorem State.weftEvent_steady {core slot : Nat} {e : WeftEvent} (h : s₀.Steady s) : s₀.Steady (s.weftEvent core slot e) := by
  unfold State.weftEvent
  split <;> exact h

theorem State.lateFault_steady {core slot : Nat} {c : Cause} {e : WeftEvent} (h : s₀.Steady s) : s₀.Steady (s.lateFault core slot c e) :=
  ite_keeps h (State.weftEvent_steady h)

theorem State.sendComb_steady {e : CombEntry} (h : s₀.Steady s) : s₀.Steady (s.sendComb e) := by
  unfold State.sendComb
  split
  · exact foldl_keeps _ _ (fun _ _ ht => State.weftEvent_steady ht) _ (s.leaveComb e .dropped) h
  · exact h

theorem State.flushComb_steady {pick : CombEntry → Bool} (h : s₀.Steady s) : s₀.Steady (s.flushComb pick) :=
  foldl_keeps _ _ (fun _ _ ht => State.sendComb_steady ht) _ _ h

theorem State.pumpRecords_steady {c n : Nat} (h : s₀.Steady s) : s₀.Steady (s.pumpRecords c n) := by
  induction n generalizing s with
  | zero => exact h
  | succ n ih =>
    unfold State.pumpRecords
    dsimp only
    split
    · exact h
    · split
      · exact h
      · split
        · exact h
        · have h2 {a v} := State.hostIndex_steady (a := a) (v := v) (State.hostPut_steady h ‹_›)
          exact ih (State.setCtx_steady (ite_keeps (State.emit_steady h2) h2))

theorem State.writeRecord_steady {c : Nat} {r : FaultRec} (h : s₀.Steady s) : s₀.Steady (s.writeRecord c r) := by
  unfold State.writeRecord
  exact State.pumpRecords_steady h

theorem State.writeRecords_steady {c : Nat} {rs : List FaultRec} (h : s₀.Steady s) : s₀.Steady (s.writeRecords c rs) :=
  foldl_keeps _ _ (fun _ _ ht => State.writeRecord_steady ht) _ _ h

/-! ### Accesses -/

theorem State.verdict_steady {rep : Nat → Bool} {a : Access} {l : LaneAcc} (h : s₀.Steady s) : s₀.Steady (s.verdict rep a l).1 := by
  unfold State.verdict
  split <;> have h1 := snd_keeps ‹s.translate _ _ _ _ = _› ((State.translate_memOnly ..).steady h)
  · refine pair_ite_keeps h1 (pair_ite_keeps (pair_ite_keeps ?_ h1) h1)
    exact (State.openUnit_getD_memOnly ..).steady h1
  · exact h1
  · exact h1
  · exact h1
  · exact pair_ite_keeps h1 h1

theorem State.verdicts_steady {rep : Nat → Bool} {a : Access} {pick : LaneAcc → Bool} {ls : List LaneAcc} (h : s₀.Steady s) :
    s₀.Steady (s.verdicts rep a pick ls).1 := by
  induction ls generalizing s with
  | nil => exact h
  | cons l r ih =>
    unfold State.verdicts
    exact pair_ite_keeps (ih (State.verdict_steady h)) (ih h)

theorem State.countAccess_steady {a : Access} {ls : List LaneAcc} (h : s₀.Steady s) : s₀.Steady (s.countAccess a ls) := by
  refine foldl_keeps _ _ (fun t n ht => ?_) _ _ h
  split
  · exact (State.countLine_memOnly ..).steady ht
  · exact ht

theorem State.performWrite_steady {a : Access} {l : LaneAcc} {k v data : Nat} (h : s₀.Steady s) : s₀.Steady (s.performWrite a l k v data).1 :=
  pair_ite_keeps h ((State.chanWrite_memOnly ..).steady h)

theorem State.performLane_steady {a : Access} {l : LaneAcc} {k : Nat} (h : s₀.Steady s) : s₀.Steady (s.performLane a l k).1 := by
  unfold State.performLane
  split
  case h_1 | h_2 | h_3 | h_4 => exact h
  case h_5 | h_6 | h_7 | h_8 => exact State.performWrite_steady h

theorem State.performLanes_steady {a : Access} {pick : LaneAcc → Bool} {ls : List LaneAcc} (h : s₀.Steady s) :
    s₀.Steady (s.performLanes a pick ls).1 := by
  induction ls generalizing s with
  | nil => exact h
  | cons l r ih =>
    unfold State.performLanes
    split
    · exact pair_ite_keeps (ih (State.performLane_steady h)) (ih h)
    · exact ih h

theorem State.settleTrap_steady {w : Weft} {a : Access} {c : Cause} {d : Nat} (h : s₀.Steady s) : s₀.Steady (s.settleTrap w a c d) := by
  unfold State.settleTrap
  exact ite_keeps (State.trapF_steady (s := s.dropAcc _) h) (State.trapL_steady (ite_keeps h h))

theorem State.parkLoad_steady {w : Weft} {a : Access} (h : s₀.Steady s) : s₀.Steady (s.parkLoad w a) := by
  unfold State.parkLoad
  exact State.writeRecords_steady h

theorem State.settleGo_steady {w : Weft} {a : Access} (h : s₀.Steady s) : s₀.Steady (s.settleGo w a) := by
  unfold State.settleGo
  exact ite_keeps h h

theorem State.splitLanes_steady {a : Access} (h : s₀.Steady s) : s₀.Steady (s.splitLanes a) := by
  unfold State.splitLanes
  exact State.writeRecords_steady h

theorem State.parkLanes_steady {a : Access} (h : s₀.Steady s) : s₀.Steady (s.parkLanes a) := ite_keeps h (State.splitLanes_steady h)

theorem State.late_steady {id : Nat} (h : s₀.Steady s) : s₀.Steady (s.late id) := by
  unfold State.late
  split
  · exact h
  · split
    · exact h
    · split
      · exact State.parkLanes_steady (State.lateFault_steady (s := s.setAcc _) h)
      · exact State.parkLanes_steady h

theorem State.settleReplay_steady {w : Weft} {a : Access} (h : s₀.Steady s) : s₀.Steady (s.settleReplay w a) := by
  unfold State.settleReplay
  dsimp only
  split
  · exact ite_keeps (State.lateFault_steady (s := State.setWeft _ _) h) (State.lateFault_steady (s := State.setWeft _ _) h)
  · exact State.parkLanes_steady h

theorem State.enterOrder_steady {a : Access} (h : s₀.Steady s) : s₀.Steady (s.enterOrder a).1 := pair_ite_keeps h h

theorem State.settleWait_steady {w : Weft} {a : Access} (h : s₀.Steady s) : s₀.Steady (s.settleWait w a) := ite_keeps h h

theorem State.settle_steady {a : Access} (h : s₀.Steady s) : s₀.Steady (s.settle a) := by
  unfold State.settle
  split
  · exact h
  · refine ite_keeps (State.settleWait_steady h) (ite_keeps (State.settleReplay_steady h) ?_)
    have he : s₀.Steady (s.enterOrder a).1 := State.enterOrder_steady h
    have ho {c : Prop} [Decidable c] {ls : List LaneAcc} :=
      pair_ite_keeps (c := c) (State.performLanes_steady (a := (s.enterOrder a).2) (pick := fun _ => true) (ls := ls) he)
      (b := ((s.enterOrder a).1, ls)) he
    refine ite_keeps ho ?_
    split
    · exact State.settleTrap_steady ho
    · exact ite_keeps (State.parkLoad_steady ho) (State.settleGo_steady ho)

theorem State.finishLaunch_steady {w : Weft} {a : Access} {d : Opnd} {b : Option Opnd} {early : Bool} (h : s₀.Steady s) :
    s₀.Steady (s.finishLaunch w a d b early) := by
  have hp {us : List Use} : s₀.Steady ((s.dropAcc a.id).popUses w a.mask us) := State.popUses_steady h
  unfold State.finishLaunch
  exact ite_keeps h (ite_keeps (writeS_steady hp) (ite_keeps h (writeS_steady (State.enterLaunch_steady hp))))

theorem State.finish_steady {id : Nat} (h : s₀.Steady s) : s₀.Steady (s.finish id) := by
  unfold State.finish
  split
  · exact h
  · split
    · exact h
    · split
      · exact h
      · split
        · exact h
        · exact ite_keeps h h
        · exact State.finishLaunch_steady h
        · exact h

theorem State.checkPersist_steady {core slot : Nat} (h : s₀.Steady s) : s₀.Steady (s.checkPersist core slot) := by
  unfold State.checkPersist
  split
  · exact h
  · exact ite_keeps h h

theorem State.combine_steady {core ctx peer line : Nat} {nt : Bool} {bytes : List (Nat × Byte × Nat)} {acc : Nat} (h : s₀.Steady s) :
    s₀.Steady (s.combine core ctx peer line nt bytes acc) := by
  have h1 {pick : CombEntry → Bool} : s₀.Steady (s.flushComb pick) := State.flushComb_steady h
  unfold State.combine
  dsimp only
  split
  · exact State.flushComb_steady (s := s) h
  · refine ite_keeps ?_ h1
    split
    · exact State.sendComb_steady h1
    · exact h1

theorem State.setLanes_steady {id : Nat} {pick : LaneAcc → Bool} {st : LaneSt} (h : s₀.Steady s) : s₀.Steady (s.setLanes id pick st) := by
  unfold State.setLanes
  split <;> exact h

theorem State.sendLine_steady {id peer line : Nat} (h : s₀.Steady s) : s₀.Steady (s.sendLine id peer line) := by
  unfold State.sendLine
  split
  · exact h
  · dsimp only
    split
    · exact h
    · split
      · exact ite_keeps (State.setLanes_steady h) (State.weftEvent_steady (State.setLanes_steady h))
      · exact ite_keeps (State.setLanes_steady (State.combine_steady h)) (ite_keeps (State.flushComb_steady h) h)

theorem State.sendFabric_steady {id : Nat} (h : s₀.Steady s) : s₀.Steady (s.sendFabric id) := by
  unfold State.sendFabric
  split
  · exact h
  · exact ite_keeps h (foldl_keeps _ _ (fun _ _ ht => State.sendLine_steady ht) _ _ h)

theorem State.progress_steady {id : Nat} (h : s₀.Steady s) : s₀.Steady (s.progress id) := by
  unfold State.progress
  split
  · exact h
  · have h1 {c : Prop} [Decidable c] {a : Access} : s₀.Steady (if c then s else s.settle a) := ite_keeps h (State.settle_steady h)
    exact State.checkPersist_steady (State.finish_steady (State.late_steady (ite_keeps h1 (State.sendFabric_steady h1))))

theorem State.weftGoes_steady {core slot : Nat} (h : s₀.Steady s) : s₀.Steady (s.weftGoes core slot) := by
  unfold State.weftGoes
  split <;> exact h

/-! ### Pre-emption -/

theorem State.rewalk_steady {c : Nat} {covers : Nat → Bool} (h : s₀.Steady s) : s₀.Steady (s.rewalk c covers) := by
  unfold State.rewalk
  refine foldl_keeps _ _ (fun t id ht => ?_) _ _ h
  dsimp only
  split
  · exact ht
  · exact State.progress_steady (State.weftGoes_steady (s := State.setAcc _ _) (State.countAccess_steady (State.verdicts_steady ht)))

theorem State.backOut_steady {w : Weft} (h : s₀.Steady s) : s₀.Steady (s.backOut w).1 := by
  unfold State.backOut
  dsimp only
  split
  · exact h
  · split <;> exact h

theorem State.stopWeft_steady {w : Weft} (h : s₀.Steady s) : s₀.Steady (s.stopWeft w) := State.backOut_steady (s := s) h

theorem State.stopWefts_steady {c : Nat} (h : s₀.Steady s) : s₀.Steady (s.stopWefts c) :=
  foldl_keeps _ _ (fun _ _ ht => State.stopWeft_steady ht) _ _ (State.rewalk_steady h)

theorem State.startPreempt_steady {c : Nat} {r : PreReason} (h : s₀.Steady s) : s₀.Steady (s.startPreempt c r) := by
  unfold State.startPreempt
  exact ite_keeps h (State.stopWefts_steady h)

end Sys2Proof.Machine
end

section
/-! PROOF of O39. The start of the power-fail sequence, its steps, and the level 2 save. -/

namespace Sys2Proof.Machine
variable {s : State}

/-! ### Every weft stops (R103) -/

theorem State.alert_hamp (bit : Nat) : (s.alert bit).hamp = s.hamp := by
  unfold State.alert; dsimp only; split <;> rfl

theorem State.alert_wefts (bit : Nat) : (s.alert bit).wefts = s.wefts := by
  unfold State.alert; dsimp only; split <;> rfl

theorem State.alert_teams (bit : Nat) : (s.alert bit).teams = s.teams := by
  unfold State.alert; dsimp only; split <;> rfl

theorem State.alert_cmds (bit : Nat) : (s.alert bit).cmds = s.cmds := by
  unfold State.alert; dsimp only; split <;> rfl

theorem State.alert_fab (bit : Nat) : (s.alert bit).fab = s.fab := by
  unfold State.alert; dsimp only; split <;> rfl

theorem State.backOut_hamp (w : Weft) : (s.backOut w).1.hamp = s.hamp := by
  unfold State.backOut
  dsimp only
  split
  · rfl
  · split <;> rfl

/-- The weft has run out, or stands with PFAIL recorded and holds no event (R103). -/
def Weft.Failed (v : Weft) : Prop := v.exited = false → v.stopped = some .pfail ∧ v.events = []

theorem Weft.pfailStop_failed (w : Weft) : w.pfailStop.Failed := by
  unfold Weft.pfailStop
  split
  · next he => exact fun hn => absurd (he.symm.trans hn) (by decide)
  · exact fun _ => ⟨rfl, rfl⟩

theorem Weft.pfailStop_place (w : Weft) : w.pfailStop.core = w.core ∧ w.pfailStop.slot = w.slot := by
  unfold Weft.pfailStop
  split <;> exact ⟨rfl, rfl⟩

/-- One weft stops for a power failure. -/
def State.failWeft (s : State) (w : Weft) : State := (s.backOut w).1.setWeft (s.backOut w).2.pfailStop

theorem State.pfailStop_eq (s : State) : s.pfailStop = (s.wefts.filter fun w => !w.exited).foldl State.failWeft s := rfl

theorem State.mem_failWeft {w v : Weft} (h : v ∈ (s.failWeft w).wefts) :
    v.Failed ∨ (v ∈ s.wefts ∧ ¬(v.core = w.core ∧ v.slot = w.slot)) := by
  obtain ⟨hc, hs, -⟩ := State.backOut_place (s := s) w
  obtain ⟨pc, ps⟩ := Weft.pfailStop_place (s.backOut w).2
  rcases State.mem_setWeft_cases h with rfl | ⟨hm, hn⟩
  · exact .inl (Weft.pfailStop_failed _)
  · rw [pc, ps, hc, hs] at hn
    exact .inr ⟨(State.backOut_wefts (s := s) w).1 ▸ hm, hn⟩

theorem State.mem_foldl_failWeft (l : List Weft) (s : State) {v : Weft} (h : v ∈ (l.foldl State.failWeft s).wefts) :
    v.Failed ∨ (v ∈ s.wefts ∧ ∀ w ∈ l, ¬(v.core = w.core ∧ v.slot = w.slot)) := by
  induction l generalizing s with
  | nil => exact .inr ⟨h, fun _ hw => nomatch hw⟩
  | cons w l ih =>
    rcases ih (s.failWeft w) h with hs | ⟨hm, hl⟩
    · exact .inl hs
    · refine (State.mem_failWeft hm).imp_right fun ⟨hm, hw⟩ => ⟨hm, fun x hx => ?_⟩
      rcases List.mem_cons.1 hx with rfl | hx
      · exact hw
      · exact hl x hx

theorem State.pfailStop_failed {v : Weft} (h : v ∈ s.pfailStop.wefts) : v.Failed := by
  rcases State.mem_foldl_failWeft _ s h with hv | ⟨hm, hl⟩
  · exact hv
  · exact fun he => absurd ⟨rfl, rfl⟩ (hl v (List.mem_filter.2 ⟨hm, by simp [he]⟩))

theorem State.pfailStop_hamp : s.pfailStop.hamp = s.hamp :=
  foldl_keeps (fun t : State => t.hamp = s.hamp) State.failWeft (fun t w ht => (State.backOut_hamp (s := t) w).trans ht) _ s rfl

theorem State.pfailStop_steady {s₀ : State} (h : s₀.Steady s) : s₀.Steady s.pfailStop :=
  foldl_keeps (State.Steady s₀) State.failWeft (fun _ _ ht => State.backOut_steady ht) _ s h

/-! ### The sequence starts (R24, R103) -/

/-- What a power failure leaves (R103): every weft stopped, nothing that had not left a core, and ALERTST.PF. -/
def State.PowerStopped (t : State) : Prop :=
  t.power.pfact = true ∧ t.power.limiter = 1 ∧ t.host.alertst.getLsbD 7 = true ∧ t.cmds = [] ∧ t.fab.packets = [] ∧ t.fab.comb = []
    ∧ (∀ x ∈ t.teams, x.mcmds = []) ∧ ∀ v ∈ t.wefts, v.Failed

theorem State.startPfail_stopped : s.startPfail.PowerStopped := by
  unfold State.startPfail State.PowerStopped
  simp only [State.alert_power, State.alert_alertst, State.alert_cmds, State.alert_fab, State.alert_teams, State.alert_wefts]
  refine ⟨trivial, trivial, by simp, trivial, trivial, trivial, fun x hx => ?_, fun v hv => State.pfailStop_failed hv⟩
  obtain ⟨t, -, rfl⟩ := List.mem_map.1 hx
  rfl

theorem State.startPfail_hamp : s.startPfail.hamp = s.hamp := (State.alert_hamp 7).trans State.pfailStop_hamp

/-- Power control as the sequence starts (R103): every glide stops where it is. -/
theorem State.startPfail_power : s.startPfail.power = { s.power with
    pf := .stopping, pfact := true, limiter := 1, mopT := s.power.mop, vopT := s.power.vop, fopT := s.power.fop } := by
  obtain ⟨-, hp, -⟩ := State.pfailStop_steady (s := s) .refl
  unfold State.startPfail
  simp only [State.alert_power, hp]

theorem Boot.persists_iff {b : Boot} : b.persists = true ↔ b.st = .meminit ∨ b.st = .ready ∨ b.st = .fail ∧ 8 ≤ b.cause.toNat := by
  simp [Boot.persists, or_assoc]

theorem State.powerFails_reached (hp : s.power.pf = .idle) (hb : s.boot.st ≠ .off) (hr : s.boot.persists = true) :
    s.powerFails = s.startPfail := by
  rw [State.powerFails, if_neg (by simp [hp, hb]), if_pos hr]

theorem State.powerFails_early (hp : s.power.pf = .idle) (hb : s.boot.st ≠ .off) (hr : ¬ s.boot.persists = true) :
    s.powerFails = { s with power := { s.power with pf := .halted } } := by
  rw [State.powerFails, if_neg (by simp [hp, hb]), if_neg hr]

/-- A rail fault once boot has reached MEMINIT acts as PFAIL does; without VSCM nothing is written any more (R22, R105). -/
theorem exec_railFault_reached {rail : Nat} (hp : s.power.pf = .idle) (hb : s.boot.st ≠ .off) (hr : s.boot.persists = true) (h1 : 1 ≤ rail)
    (h6 : rail ≤ 6) : exec (.railFault rail) s = .next (if rail = 6 then s.startPfail.stopWriting else s.startPfail) := by
  rw [exec_railFault, execRailFault, if_neg (by simp [hb]; omega), if_neg (by omega), if_neg (by simp [hp]), if_pos hr]

theorem exec_railFault_early {rail : Nat} (hp : s.power.pf = .idle) (hb : s.boot.st ≠ .off) (hr : ¬ s.boot.persists = true)
    (hf : s.boot.st ≠ .fail) (h1 : 1 ≤ rail) (h6 : rail ≤ 6) : exec (.railFault rail) s = .next (s.bootFail 1) := by
  rw [exec_railFault, execRailFault, if_neg (by simp [hb]; omega), if_neg (by omega), if_neg (by simp [hp]), if_neg hr, if_neg hf]

theorem exec_railFault_vaux (hb : s.boot.st ≠ .off) : exec (.railFault 0) s = exec .vauxLoss s := by
  rw [exec_railFault, execRailFault, if_neg (by simp [hb]), if_pos rfl, exec_vauxLoss, execVauxLoss]

/-! ### The steps to the seal (R103) -/

theorem exec_hamperAcceptanceClose_stopping (h : s.power.pf = .stopping) : exec .hamperAcceptanceClose s
    = .next { s.landAll s.accs with accs := [], power := { (s.landAll s.accs).power with pf := .closed } } := by
  rw [exec_hamperAcceptanceClose, execHamperAcceptanceClose, if_pos h]

theorem exec_hamperDrained_closed (h : s.power.pf = .closed) : exec .hamperDrained s
    = .next { s.drainHampers with power := { s.drainHampers.power with pf := .drained } } := by
  rw [exec_hamperDrained, execHamperDrained, if_pos h]

theorem exec_sealRecordWrite_drained (h : s.power.pf = .drained) : exec .sealRecordWrite s
    = .next { s with power := { s.power with pf := .sealed }, rsv := { s.rsv with seals := List.range 6 } } := by
  rw [exec_sealRecordWrite, execSealRecordWrite, if_pos h]

/-! ### Level 2 (R104, R105) -/

/-- Without energy, or before READY, level 2 saves nothing (R104). -/
theorem exec_level2Save_none (h : s.power.pf = .sealed) (hn : s.power.holdup.toNat ≤ 24 ∨ s.boot.st ≠ .ready) :
    exec .level2Save s = .next s.stopWriting := by
  rw [exec_level2Save, execLevel2Save, h]
  exact congrArg _ (if_neg fun ⟨h1, h2⟩ => hn.elim (by omega) fun hb => hb h2)

theorem exec_level2Save_begins (h : s.power.pf = .sealed) (he : 24 < s.power.holdup.toNat) (hb : s.boot.st = .ready) :
    exec .level2Save s = .next { s with power := { s.power with pf := .level2, l2 := [], l2left := l2Bytes s.power.holdup.toNat } } := by
  rw [exec_level2Save, execLevel2Save, h]
  exact congrArg _ (if_pos ⟨he, hb⟩)

theorem exec_level2Save_ends (h : s.power.pf = .level2) (hn : s.l2Next = none) : exec .level2Save s = .next s.stopWriting := by
  rw [exec_level2Save, execLevel2Save, h, hn]
  rfl

theorem exec_level2Save_context {c : Nat} (h : s.power.pf = .level2) (hn : s.l2Next = some c) : exec .level2Save s = .next (s.l2One c) := by
  rw [exec_level2Save, execLevel2Save, h, hn]

/-- The itinerary and context records come first in a save record (R295). -/
theorem Sections.head_le_length (x : Sections) : 1 + b2n (x.itn != []) ≤ x.records.length := by
  unfold Sections.records
  by_cases h : x.itn = []
  · simp [h, b2n]
  · simp [h, b2n]

/-- The save of one context appends it, or ends level 2 (R104, R105). -/
theorem State.l2One_cases (c : Nat) : (s.l2One c).power.pf = .halted ∨ ∃ e, (s.l2One c).power.l2 = s.power.l2 ++ [e] ∧ e.ctx = c := by
  have hh := Sections.head_le_length ((s.expand c).sections c 0x11)
  unfold State.l2One
  dsimp only
  split
  · next hn => exact .inl (if_neg fun ⟨he, _⟩ => absurd hh (Nat.not_le_of_lt (he ▸ hn)))
  · exact .inr ⟨_, rfl, rfl⟩

/-- Settles O39: the start of the sequence by what it leaves of every weft, each later step by its equation. -/
theorem powerFailSteps : Obligations.PowerFailSteps := by
  unfold Obligations.PowerFailSteps
  intro s rail reached runs stops
  refine ⟨fun ⟨hp, hb⟩ hr => ?pfail, fun ⟨hp, hb⟩ hr => ?early, fun ⟨hp, hb⟩ hr h1 h5 => ?rail, fun ⟨hp, hb⟩ hr => ?vscm,
    exec_railFault_vaux, fun ⟨hp, hb⟩ hr hf h1 h6 => ?fails, fun h => ⟨_, exec_hamperAcceptanceClose_stopping h, rfl, rfl⟩,
    fun h => ⟨_, exec_hamperDrained_closed h, rfl, rfl, fun hi => ⟨State.drainHampers_inv hi, fun k hk hn => State.get_drainHampers k hi hk hn⟩⟩,
    fun h => ⟨_, exec_sealRecordWrite_drained h, rfl, fun k hk => List.mem_range.2 hk⟩,
    fun h hn => ⟨_, exec_level2Save_none h hn, rfl⟩,
    fun h he hb => ⟨_, exec_level2Save_begins h he hb, rfl, rfl, rfl⟩,
    fun h hn => ⟨_, exec_level2Save_ends h hn, rfl⟩,
    fun h c hc => ⟨_, exec_level2Save_context h hc, State.l2One_cases c⟩⟩
  case pfail =>
    refine ⟨_, by rw [exec_pfail, execPfail, State.powerFails_reached hp hb (Boot.persists_iff.2 hr)], State.startPfail_stopped, ?_⟩
    rw [State.startPfail_power]
  case early => rw [exec_pfail, execPfail, State.powerFails_early hp hb fun h => hr (Boot.persists_iff.1 h)]
  case rail =>
    refine ⟨_, exec_railFault_reached hp hb (Boot.persists_iff.2 hr) h1 (by omega), ?_⟩
    rw [if_neg (by omega), State.startPfail_power]
    exact ⟨State.startPfail_stopped, rfl⟩
  case vscm =>
    obtain ⟨hact, hlim, hrest⟩ := State.startPfail_stopped (s := s)
    exact ⟨_, exec_railFault_reached hp hb (Boot.persists_iff.2 hr) (by decide) (by decide), ⟨hact, hlim, hrest⟩, rfl, State.startPfail_hamp⟩
  case fails =>
    obtain ⟨hst, hcause, -⟩ := State.bootFail_failsWith s 1
    exact ⟨_, exec_railFault_early hp hb (fun h => hr (Boot.persists_iff.1 h)) hf h1 h6, hst, hcause⟩

end Sys2Proof.Machine
end

section
/-! PROOF of O38. Caps, rations, glides, the control interval and the trip limit. -/

namespace Sys2Proof.Machine
variable {s : State}

/-! ### Caps (R25, R99, R102) -/

theorem setAt_eq_set {α : Type} (l : List α) (n : Nat) (y : α) : setAt l n y = l.set n y := by
  induction l generalizing n with
  | nil => rfl
  | cons x r ih =>
    cases n with
    | zero => rfl
    | succ n => rw [setAt, ih, List.set_cons_succ]

theorem State.noteCap_power (old : Nat) : (s.noteCap old).power = { s.power with capFell := s.power.capFell || decide (s.effCap < old) } := by
  unfold State.noteCap
  split
  · next h => simp [h]
  · next h => simp [h]

theorem State.noteCap_effCap (old : Nat) : (s.noteCap old).effCap = s.effCap := by
  unfold State.noteCap
  split <;> rfl

/-- A fall of the effective cap is noted (R99). -/
theorem State.noteCap_noted {old : Nat} (h : (s.noteCap old).effCap < old) : (s.noteCap old).power.capFell = true := by
  rw [State.noteCap_effCap] at h
  simp [State.noteCap_power, h]

theorem State.effCap_early (h : s.boot.st ≠ .ready) : s.effCap = 400 := if_pos h

theorem State.effCap_ready {y : BitVec 12} (h : s.boot.st = .ready) (hy : s.power.pcap[s.power.psel.toNat]? = some y) : s.effCap
    = if s.power.icapEn then min (min (capActs s.power.pkgcap) (capActs y)) (capActs s.power.icap)
      else min (capActs s.power.pkgcap) (capActs y) := by
  have hg : s.power.pcap.getD s.power.psel.toNat 3200 = y := by rw [List.getD_eq_getElem?_getD, hy, Option.getD_some]
  rw [State.effCap, if_neg (not_not.2 h), hg]

theorem exec_pstepAccept_ready {v : BitVec 3} (hb : s.boot.st = .ready) (hp : s.power.pf = .idle) : exec (.pstepAccept v) s
    = .next (State.noteCap { s with power := { s.power with psel := v, pselLatched := v } } s.effCap) := by
  rw [exec_pstepAccept, execPstepAccept, if_neg (by simp [hb, hp]), if_pos hb]

theorem exec_pstepAccept_early {v : BitVec 3} (hb : s.boot.st ≠ .off) (hr : s.boot.st ≠ .ready) (hp : s.power.pf = .idle) :
    exec (.pstepAccept v) s = .next { s with power := { s.power with pselLatched := v } } := by
  rw [exec_pstepAccept, execPstepAccept, if_neg (by simp [hb, hp]), if_neg hr]

theorem exec_capWrite_pkgcap {x : W64} (hb : s.boot.st ≠ .off) (hp : s.power.pf = .idle) : exec (.capWrite 0x108 x) s
    = .next (State.noteCap { s with power := { s.power with pkgcap := x.setWidth 12 } } s.effCap) := by
  rw [exec_capWrite, execCapWrite, if_neg (by simp [hb, hp]), if_pos rfl]

theorem exec_capWrite_pcap {x : W64} {n : Nat} (hb : s.boot.st ≠ .off) (hp : s.power.pf = .idle) (hn : n < 8) :
    exec (.capWrite (0x110 + 8 * n) x) s
      = .next (State.noteCap { s with power := { s.power with pcap := s.power.pcap.set n (x.setWidth 12) } } s.effCap) := by
  rw [exec_capWrite, execCapWrite, if_neg (by simp [hb, hp]), if_neg (by omega), if_pos (by omega),
    show (0x110 + 8 * n - 0x110) / 8 = n by omega, setAt_eq_set]

theorem exec_capWrite_icap {x : W64} (hb : s.boot.st ≠ .off) (hp : s.power.pf = .idle) : exec (.capWrite 0x150 x) s
    = .next (State.noteCap { s with power := { s.power with icap := x.setWidth 12, icapEn := x.getLsbD 12 } } s.effCap) := by
  rw [exec_capWrite, execCapWrite, if_neg (by simp [hb, hp]), if_neg (by decide), if_neg (by decide), if_pos rfl]

/-! ### Rations and glides (R86-R89, R93) -/

/-- The clock rule of R86. -/
theorem clocksOk_iff {mop vop : Nat} : clocksOk mop vop = true ↔ if mop = 0 then vop = 0 else vop < mop := by
  unfold clocksOk
  split <;> simp

theorem exec_opGlideComplete_held {rail : Nat} (h : ¬ s.power.mayGlide rail = true) : exec (.opGlideComplete rail) s = .next s := by
  have hc : s.power.pf ≠ .idle ∨ (!s.power.mayGlide rail) = true := .inr (by simp [h])
  simp only [exec_opGlideComplete, execOpGlideComplete, if_pos hc]

/-- A glide that may end is past the two tests (R86, R103). -/
theorem Power.glides {p : Power} {rail : Nat} (hp : p.pf = .idle) (h : p.mayGlide rail = true) :
    ¬ (p.pf ≠ .idle ∨ (!p.mayGlide rail) = true) := by simp [hp, h]

theorem exec_opGlideComplete_vmat (hp : s.power.pf = .idle) (h : s.power.mayGlide 0 = true) : exec (.opGlideComplete 0) s
    = .next { s with power := { s.power with mop := s.power.mopT, mvlt := s.power.mopT } } := by
  simp only [exec_opGlideComplete, execOpGlideComplete, if_neg (Power.glides hp h)]

theorem exec_opGlideComplete_vvec (hp : s.power.pf = .idle) (h : s.power.mayGlide 1 = true) : exec (.opGlideComplete 1) s
    = .next { s with power := { s.power with vop := s.power.vopT, vvlt := s.power.vopT } } := by
  simp only [exec_opGlideComplete, execOpGlideComplete, if_neg (Power.glides hp h)]

theorem exec_opGlideComplete_vfab (hp : s.power.pf = .idle) : exec (.opGlideComplete 2) s
    = .next { s with power := { s.power with fop := s.power.fopT, fvlt := s.power.fopT } } := by
  simp only [exec_opGlideComplete, execOpGlideComplete, if_neg (Power.glides (rail := 2) hp rfl)]

/-! ### The control interval (R88, R95-R98, R100, R101) -/

theorem le_foldl_max (l : List Nat) (a n : Nat) : n ≤ l.foldl max a ↔ n ≤ a ∨ ∃ x ∈ l, n ≤ x := by
  induction l generalizing a with
  | nil => simp
  | cons x r ih => simp [ih, or_assoc]

/-- Some sensor reads at least a temperature. -/
theorem le_hottest {m : Telemetry} {n : Nat} (hn : 0 < n) : n ≤ m.temps.foldl max 0 ↔ ∃ x ∈ m.temps, n ≤ x := by
  rw [le_foldl_max]
  simp [Nat.not_le_of_lt hn]

/-- The step that a demand asks for, none asks for 0. -/
def demandStep (o : Option Demand) : Nat := match o with | some d => d.2 | none => 0

/-- No demand is for a higher step than the top one (R98). -/
theorem le_topDemand {l : List Demand} {d : Demand} (h : d ∈ l) : d.2 ≤ demandStep (topDemand l) := by
  have key : ∀ (l : List Demand) (acc : Option Demand), let f := fun (acc : Option Demand) (d : Demand) => match acc with
      | some a => if a.2 < d.2 then some d else some a
      | none => some d
      demandStep acc ≤ demandStep (l.foldl f acc) ∧ ∀ d ∈ l, d.2 ≤ demandStep (l.foldl f acc) := by
    intro l
    induction l with
    | nil => exact fun acc => ⟨Nat.le_refl _, nofun⟩
    | cons x r ih =>
      intro acc f
      obtain ⟨h1, h2⟩ := ih (f acc x)
      have hx : demandStep acc ≤ demandStep (f acc x) ∧ x.2 ≤ demandStep (f acc x) := by
        cases acc with
        | none => exact ⟨Nat.zero_le _, Nat.le_refl _⟩
        | some a =>
          show _ ≤ demandStep (if _ then _ else _) ∧ _ ≤ demandStep (if _ then _ else _)
          split
          · next hlt => exact ⟨Nat.le_of_lt hlt, Nat.le_refl _⟩
          · next hle => exact ⟨Nat.le_refl _, Nat.le_of_not_lt hle⟩
      refine ⟨hx.1.trans h1, fun d hd => ?_⟩
      rcases List.mem_cons.1 hd with rfl | hd
      · exact hx.2.trans h1
      · exact h2 d hd
  exact (key l none).2 d h

/-- The trip limit holds in an interval (R95). -/
def State.tripped (s : State) (m : Telemetry) : Bool := s.power.trip || decide (110 ≤ m.temps.foldl max 0)

theorem State.tripped_eq (m : Telemetry) : s.tripped m = (s.power.trip || m.temps.any fun x => decide (110 ≤ x)) := by
  rw [State.tripped, Bool.eq_iff_iff]
  simp [le_hottest]

theorem State.tripped_iff {m : Telemetry} : s.tripped m = true ↔ s.power.trip = true ∨ ∃ x ∈ m.temps, 110 ≤ x := by
  simp [State.tripped_eq]

/-- The step that an interval sets (R98, R100): it never goes down by itself, and goes up to the highest demand. -/
def State.intervalStep (s : State) (m : Telemetry) : Nat := min 9 (max s.power.step (demandStep (topDemand (s.demands m (s.tripped m)))))

theorem State.intervalStep_le (m : Telemetry) : s.intervalStep m ≤ 9 := Nat.min_le_left _ _

theorem State.le_intervalStep {m : Telemetry} (h : s.power.step ≤ 9) : s.power.step ≤ s.intervalStep m := Nat.le_min.2 ⟨h, Nat.le_max_left _ _⟩

theorem State.demand_le_intervalStep {m : Telemetry} {d : Demand} (h : d ∈ s.demands m (s.tripped m)) : min 9 d.2 ≤ s.intervalStep m := by
  have := le_topDemand h
  unfold State.intervalStep
  omega

/-- The trip limit asks for step 7 (R95, R98). -/
theorem State.seven_le_intervalStep {m : Telemetry} (h : s.tripped m = true) : 7 ≤ s.intervalStep m :=
  State.demand_le_intervalStep (d := (3, 7)) (by rw [h]; simp [State.demands])

/-- The rations that an interval sets (R92, R95). -/
def State.intervalRations (s : State) (m : Telemetry) : List Ration :=
  (List.range 52).map fun k => (s.power.rations.getD k Ration.init).interval (s.intervalStep m) (m.temps.getD k 0) s.power.icyc

/-- Power control as an interval sets it (R88, R92, R95, R98, R100). -/
structure State.IntervalSets (s : State) (m : Telemetry) (p : Power) : Prop where
  step : p.step = s.intervalStep m
  rations : p.rations = s.intervalRations m
  trip : p.trip = s.tripped m
  capFell : p.capFell = false
  vopT : p.vopT = stepVop (s.intervalStep m)
  fopT : p.fopT = stepFop (s.intervalStep m)
  t2off : p.t2off = decide (2 ≤ s.intervalStep m)
  pf : p.pf = s.power.pf

/-- What ends an interval: at 115 degrees the power-fail sequence starts (R95). -/
def State.endInterval (u : State) (hottest : Nat) : State :=
  if 115 ≤ hottest then State.startPfail { u with power := { u.power with thermtripN := false } } else u

theorem State.alerts_keeps {l : List (Bool × Nat)} {k : Nat} (h : s.host.alertst.getLsbD k = true) : (s.alerts l).host.alertst.getLsbD k = true := by
  refine foldl_keeps (fun t : State => t.host.alertst.getLsbD k = true) _ (fun t b ht => ?_) l s h
  split
  · simp [ht]
  · exact ht

theorem State.alerts_power {l : List (Bool × Nat)} : (s.alerts l).power = s.power := by
  refine foldl_keeps (fun t : State => t.power = s.power) _ (fun t b ht => ?_) l s rfl
  split
  · exact (State.alert_power _).trans ht
  · exact ht

/-- A raise of the step sets ALERTST bit 3 (R125). -/
theorem State.alerts_head {b : Bool} {l : List (Bool × Nat)} (h : b = true) : (s.alerts ((b, 3) :: l)).host.alertst.getLsbD 3 = true := by
  refine State.alerts_keeps (s := if b = true then s.alert 3 else s) (l := l) ?_
  rw [if_pos h]
  simp

/-- What an interval does once power control is set leaves it: pre-emptions at step 9, and a step that may be left (R100, R101). -/
theorem State.afterInterval_steady {c d : Prop} [Decidable c] [Decidable d] {l : List Nat} {i : Instr} :
    s.Steady (if d then (if c then l.foldl (fun t c => t.startPreempt c .device) s else s).post i
      else if c then l.foldl (fun t c => t.startPreempt c .device) s else s) := by
  have ht : s.Steady (if c then l.foldl (fun t c => t.startPreempt c .device) s else s) :=
    ite_keeps (foldl_keeps _ _ (fun _ _ ht => State.startPreempt_steady ht) _ _ .refl) .refl
  exact ite_keeps (P := s.Steady) ht ht

/-- A control interval (R88): power control is set, the alerts are raised, and all that follows leaves them. -/
theorem exec_controlInterval_up {m : Telemetry} (hu : s.up = true) : ∃ u : State,
    exec (.controlInterval m) s = .next (u.endInterval (m.temps.foldl max 0)) ∧ s.IntervalSets m u.power
    ∧ (s.power.step < s.intervalStep m → u.host.alertst.getLsbD 3 = true) := by
  have hn : ¬ (!s.up) = true := by simp [hu]
  refine ⟨_, (exec_controlInterval m s).trans (if_neg hn), ?power, fun hlt => ?alert⟩
  case power =>
    rw [State.afterInterval_steady.2.1, State.alerts_power]
    exact ⟨rfl, rfl, rfl, rfl, rfl, rfl, rfl, rfl⟩
  case alert =>
    rw [State.afterInterval_steady.2.2]
    exact State.alerts_head (decide_eq_true hlt)

theorem State.startPfail_alertst : s.startPfail.host.alertst = s.host.alertst ||| BitVec.ofNat 9 (2 ^ 7) := by
  obtain ⟨-, -, ha⟩ := State.pfailStop_steady (s := s) .refl
  unfold State.startPfail
  simp only [State.alert_alertst, ha]

/-- The end of an interval leaves what the interval set, glides apart. -/
theorem State.endInterval_sets {h : Nat} : (s.endInterval h).power.step = s.power.step ∧ (s.endInterval h).power.rations = s.power.rations
    ∧ (s.endInterval h).power.trip = s.power.trip ∧ (s.endInterval h).power.capFell = s.power.capFell := by
  unfold State.endInterval
  split
  · rw [State.startPfail_power]
    exact ⟨rfl, rfl, rfl, rfl⟩
  · exact ⟨rfl, rfl, rfl, rfl⟩

theorem State.endInterval_alert {h : Nat} (hs : s.host.alertst.getLsbD 3 = true) : (s.endInterval h).host.alertst.getLsbD 3 = true := by
  unfold State.endInterval
  split
  · rw [State.startPfail_alertst]
    simp [hs]
  · exact hs

theorem State.endInterval_hot {h : Nat} (hh : 115 ≤ h) : (s.endInterval h).power.pf = .stopping ∧ (s.endInterval h).power.thermtripN = false := by
  rw [State.endInterval, if_pos hh, State.startPfail_power]
  exact ⟨rfl, rfl⟩

theorem State.endInterval_cool {h : Nat} (hh : ¬ 115 ≤ h) : s.endInterval h = s := if_neg hh

/-- The ration of a cluster after an interval (R92, R95). -/
theorem State.getElem?_intervalRations {m : Telemetry} {j : Nat} (hj : j < 52) : (s.intervalRations m)[j]?
    = some ((s.power.rations.getD j Ration.init).interval (s.intervalStep m) (m.temps.getD j 0) s.power.icyc) := by
  rw [State.intervalRations, List.getElem?_map, List.getElem?_range hj, Option.map_some]

/-- Away from the thermal throttle the rate is the step's (R92). -/
theorem Ration.interval_rate {r : Ration} {step temp cycles : Nat} (h : (r.interval step temp cycles).hot = false) :
    (r.interval step temp cycles).rate = stepRate step (perCycle r.dm cycles) (perCycle r.dv cycles) :=
  if_neg fun hh => Bool.false_ne_true (h.symm.trans hh)

theorem Ration.interval_early {r : Ration} {step temp cycles : Nat} (h : step < 4) : (r.interval step temp cycles).mthr = 0
    ∧ ((r.interval step temp cycles).hot = false → (r.interval step temp cycles).rate = 65535) :=
  ⟨if_pos h, fun hh => (Ration.interval_rate hh).trans (if_pos h)⟩

theorem Ration.interval_late {r : Ration} {step temp cycles : Nat} (h : 4 ≤ step) : (r.interval step temp cycles).mthr = 1024 * 256
    ∧ ((r.interval step temp cycles).hot = false → (r.interval step temp cycles).rate = max 64 (min 65535
        (if step < 6 then 256 * r.dv / max 1 cycles + 3 * (256 * r.dm / max 1 cycles) / 4
          else 3 * (256 * r.dv / max 1 cycles + 256 * r.dm / max 1 cycles) / 4))) := by
  have hn : ¬ step < 4 := Nat.not_lt.2 h
  refine ⟨if_neg hn, fun hh => (Ration.interval_rate hh).trans ((if_neg hn).trans ?_)⟩
  unfold clampRate perCycle
  split <;> rfl

/-- Too hot before READY, or in a power-fail sequence (R95, assumption 4). -/
theorem exec_controlInterval_down {m : Telemetry} (hu : s.up = false) (hb : s.boot.st ≠ .off) (hh : 115 ≤ m.temps.foldl max 0) :
    exec (.controlInterval m) s = .next (State.powerFails { s with power := { s.power with thermtripN := false } }) := by
  have hn : (!s.up) = true := by simp [hu]
  exact (exec_controlInterval m s).trans ((if_pos hn).trans (congrArg _ (if_pos ⟨hb, hh⟩)))

theorem State.powerFails_thermtrip (h : s.power.thermtripN = false) : s.powerFails.power.thermtripN = false := by
  unfold State.powerFails
  split
  · exact h
  · split
    · rw [State.startPfail_power]; exact h
    · exact h

theorem State.powerFails_stopping (hp : s.power.pf = .idle) (hb : s.boot.st ≠ .off) (hr : s.boot.persists = true) :
    s.powerFails.power.pf = .stopping := by
  rw [State.powerFails_reached hp hb hr, State.startPfail_power]

/-- One step back (R98, R101). -/
theorem exec_stepLeave_leaves (hu : s.up = true) (hb : 100 ≤ s.power.below) (h0 : s.power.step ≠ 0)
    (ht : ¬(s.power.trip = true ∧ s.power.step ≤ 7)) : ∃ t, exec .stepLeave s = .next t
      ∧ t.power.step = s.power.step - 1 ∧ t.power.below = 0 ∧ t.power.t2off = decide (2 ≤ s.power.step - 1) := by
  have hn : ¬ (!s.up || s.power.below < 100 || s.power.step = 0 || (s.power.trip && s.power.step ≤ 7)) = true := by
    simpa [hu, h0, Nat.not_lt.2 hb] using ht
  exact ⟨_, (exec_stepLeave s).trans (congrArg Host.Outcome.next (if_neg hn)), rfl, rfl, rfl⟩

theorem exec_thermalTripRelease_cool {m : Telemetry} (hu : s.up = true) (h : ∀ x ∈ m.temps, x < 100) :
    exec (.thermalTripRelease m) s = .next { s with power := { s.power with trip := false } } := by
  have hc : (s.up && m.temps.all fun t => decide (t < 100)) = true := by simpa [hu] using h
  rw [exec_thermalTripRelease, execThermalTripRelease, if_pos hc]

/-! ### The obligation -/

/-- The caps and the straps. -/
theorem capWrites {v : BitVec 3} {n : Nat} {x : W64} (hb : s.boot.st ≠ .off) (hp : s.power.pf = .idle) :
    (s.boot.st = .ready → ∃ t, exec (.pstepAccept v) s = .next t ∧ t.power.psel = v ∧ (t.effCap < s.effCap → t.power.capFell = true))
    ∧ (s.boot.st ≠ .ready → ∃ t, exec (.pstepAccept v) s = .next t ∧ t.power.pselLatched = v ∧ t.power.psel = s.power.psel
        ∧ (t.effCap < s.effCap → t.power.capFell = true))
    ∧ (∃ t, exec (.capWrite 0x108 x) s = .next t ∧ t.power.pkgcap = x.setWidth 12 ∧ (t.effCap < s.effCap → t.power.capFell = true))
    ∧ (n < 8 → s.power.pcap.length = 8 → ∃ t, exec (.capWrite (0x110 + 8 * n) x) s = .next t ∧ t.power.pcap[n]? = some (x.setWidth 12)
        ∧ (t.effCap < s.effCap → t.power.capFell = true) ∧ ∀ k, k ≠ n → t.power.pcap[k]? = s.power.pcap[k]?)
    ∧ (∃ t, exec (.capWrite 0x150 x) s = .next t ∧ t.power.icap = x.setWidth 12 ∧ t.power.icapEn = x.getLsbD 12
        ∧ (t.effCap < s.effCap → t.power.capFell = true)) := by
  refine ⟨fun hr => ⟨_, exec_pstepAccept_ready hr hp, ?_, State.noteCap_noted⟩,
    fun hr => ⟨_, exec_pstepAccept_early hb hr hp, rfl, rfl, fun hlt => ?_⟩,
    ⟨_, exec_capWrite_pkgcap hb hp, ?_, State.noteCap_noted⟩,
    fun hn hl => ⟨_, exec_capWrite_pcap hb hp hn, ?_, State.noteCap_noted, fun k hk => ?_⟩,
    ⟨_, exec_capWrite_icap hb hp, ?_, ?_, State.noteCap_noted⟩⟩
  · rw [State.noteCap_power]
  · exact absurd hlt (Nat.not_lt.2 (le_of_eq ((State.effCap_early hr).trans (State.effCap_early hr).symm)))
  · rw [State.noteCap_power]
  · rw [State.noteCap_power]
    exact List.getElem?_set_self (hl ▸ hn)
  · rw [State.noteCap_power]
    exact List.getElem?_set_ne (Ne.symm hk)
  · rw [State.noteCap_power]
  · rw [State.noteCap_power]

/-- Settles O38: caps, rations and glides by their equations, an interval by what it sets. -/
theorem capAndPowerControlSteps : Obligations.CapAndPowerControlSteps := by
  unfold Obligations.CapAndPowerControlSteps
  refine ⟨?_, ?_⟩
  · intro s v n x hb hp noted hold
    obtain ⟨h1, h2, h3, h4, h5⟩ := capWrites (v := v) (n := n) (x := x) hb hp
    exact ⟨h1, h2, h3, h4, h5, State.effCap_early, fun hr y hy => State.effCap_ready hr hy⟩
  · intro s m k p keeps
    refine ⟨fun hk => ⟨⟨_, exec_rationCycleEnd k s, fun r hr => ?_⟩, ⟨_, exec_droopDetect k s, fun r hr => ?_⟩⟩,
      fun hp => ⟨fun h => exec_opGlideComplete_vmat hp (clocksOk_iff.2 h), fun h => exec_opGlideComplete_vvec hp (clocksOk_iff.2 h),
        fun h => exec_opGlideComplete_held fun hg => h (clocksOk_iff.1 hg), fun h => exec_opGlideComplete_held fun hg => h (clocksOk_iff.1 hg),
        exec_opGlideComplete_vfab hp⟩,
      fun hu hs => ?interval, fun hb hu hh => ?down, exec_stepLeave_leaves, exec_thermalTripRelease_cool⟩
    · exact (getElem?_modAt _ _ _ _).trans (by rw [if_pos rfl, hr]; rfl)
    · exact (getElem?_modAt _ _ _ _).trans (by rw [if_pos rfl, hr]; rfl)
    case down =>
      have h115 := (le_hottest (by decide)).2 hh
      refine ⟨_, exec_controlInterval_down hu hb h115, State.powerFails_thermtrip rfl, fun hp hm => ?_⟩
      exact State.powerFails_stopping hp hb (Boot.persists_iff.2 (.inl hm))
    case interval =>
      obtain ⟨u, he, hset, halert⟩ := exec_controlInterval_up (m := m) hu
      obtain ⟨ustep, urations, utrip, ucap⟩ := State.endInterval_sets (s := u) (h := m.temps.foldl max 0)
      have hidle : s.power.pf = .idle := by
        simp only [State.up, State.booting, Bool.and_eq_true, beq_iff_eq] at hu
        exact hu.2
      refine ⟨_, he, ?_⟩
      rw [ustep, urations, utrip, ucap, hset.step, hset.rations, hset.trip, hset.capFell, ← State.tripped_eq]
      refine ⟨State.le_intervalStep hs, s.intervalStep_le m, rfl,
        fun h => ⟨State.seven_le_intervalStep (State.tripped_iff.2 h), State.tripped_iff.2 h⟩,
        fun d hd => State.demand_le_intervalStep hd, fun hlt => State.endInterval_alert (halert hlt), fun j hj => ?_,
        fun hh => State.endInterval_hot ((le_hottest (by decide)).2 hh), fun hh => ?_⟩
      · refine ⟨_, State.getElem?_intervalRations hj, rfl, rfl, Ration.interval_early, fun h4 => ?_⟩
        obtain ⟨hm, hr⟩ := Ration.interval_late h4
        refine ⟨hm, fun q hq hhot => (hr hhot).trans ?_⟩
        rw [List.getD_eq_getElem?_getD, hq, Option.getD_some]
      · have hc : ¬ 115 ≤ m.temps.foldl max 0 := fun h => by
          obtain ⟨x, hx, hle⟩ := (le_hottest (by decide)).1 h
          exact absurd (hh x hx) (Nat.not_lt.2 hle)
        rw [State.endInterval_cool hc, hset.pf, hset.vopT, hset.fopT, hset.t2off]
        exact ⟨hidle, rfl, rfl, rfl⟩

end Sys2Proof.Machine
end

section
/-! SUPPORT of O59. No instruction, and few steps of the device, change BOOTST. -/

namespace Sys2Proof.Machine

/-! ### BOOTST of a state and of an outcome -/

/-- The state holds exactly this BOOTST. -/
def State.BootIs (b₀ : Boot) (s : State) : Prop := s.boot = b₀

/-- The next state, where one is answered, holds exactly this BOOTST. -/
def Res.BootIs (b₀ : Boot) : Res → Prop
  | .next t => t.BootIs b₀
  | _ => True

variable {b₀ : Boot} {s : State}

theorem State.Steady.boot {t : State} (k : s.Steady t) (h : s.BootIs b₀) : t.BootIs b₀ := k.1.trans h

theorem State.MemOnly.boot {t : State} (k : s.MemOnly t) (h : s.BootIs b₀) : t.BootIs b₀ := (k.steady .refl).boot h

theorem State.ite_boot {c : Prop} [Decidable c] {a b : State} (ha : a.BootIs b₀) (hb : b.BootIs b₀) :
    (if c then a else b).BootIs b₀ := ite_keeps ha hb

theorem State.pair_ite_boot {α : Type} {c : Prop} [Decidable c] {a b : State × α} (ha : a.1.BootIs b₀) (hb : b.1.BootIs b₀) :
    (if c then a else b).1.BootIs b₀ := pair_ite_keeps ha hb

theorem State.getD_boot {o : Option State} (ho : ∀ t, o = some t → t.BootIs b₀) (h : s.BootIs b₀) : (o.getD s).BootIs b₀ :=
  getD_keeps ho h

theorem Res.ite_boot {c : Prop} [Decidable c] {a b : Res} (ha : a.BootIs b₀) (hb : b.BootIs b₀) :
    (if c then a else b).BootIs b₀ := ite_keeps ha hb

theorem State.foldl_boot {α : Type} {f : State → α → State} (hf : ∀ t x, t.BootIs b₀ → (f t x).BootIs b₀) (l : List α)
    (h : s.BootIs b₀) : (l.foldl f s).BootIs b₀ := foldl_keeps _ f hf l s h

/-! ### Traps, issue and what scalar and vector instructions write -/

theorem State.withHost_boot {x : HostIf} (h : s.BootIs b₀) : State.BootIs b₀ { s with host := x } := h

theorem State.trapNext_boot {w : Weft} {cause : Cause} {lanes : W64} {t : TInfo} {rpc : W64} (h : s.BootIs b₀) :
    (s.trapNext w cause lanes t rpc).BootIs b₀ := (State.takeTrap_steady .refl).boot h

theorem State.tret_boot {w : Weft} {p : Pfx} (h : s.BootIs b₀) : (s.tret w p).BootIs b₀ :=
  State.ite_boot ((State.trapF_steady .refl).boot h) h

theorem State.stopped_boot {w : Weft} {c : Chk} {lanes : W64} (h : s.BootIs b₀) : (s.stopped w c lanes).BootIs b₀ := by
  cases c with
  | ok => exact h
  | wait r => exact h
  | trap k t => exact (State.trapF_steady .refl).boot h

theorem writeV_boot {w : Weft} {m : W64} {u : Use} {regs : List Nat} {vals : List VVal} (h : s.BootIs b₀) :
    (writeV s w m u regs vals).1.BootIs b₀ := by
  unfold writeV
  split
  · exact h
  · exact h
  · split <;> exact h
  · exact h

theorem State.dataTrap_boot {w : Weft} {p : Pfx} {rounds : Bool} {uses : List Use} {m : W64} {pos : Nat} (h : s.BootIs b₀) :
    (s.dataTrap w p rounds uses m pos).BootIs b₀ := (State.trapL_steady .refl).boot h

theorem Res.bind_boot {r : Res} {f : State → Res} (hr : r.BootIs b₀) (hf : ∀ t : State, t.BootIs b₀ → (f t).BootIs b₀) :
    (r.bind f).BootIs b₀ := by
  cases r with
  | next t => exact hf t hr
  | fault e => trivial
  | refused e => trivial

theorem issue_boot {p : Pfx} {uses : List Use} {q : QRule} {body : Weft → Plan → State} (h : s.BootIs b₀)
    (hb : ∀ w g, (body w g).BootIs b₀) : (issue s p uses q body).BootIs b₀ := by
  unfold issue
  split
  · trivial
  · split
    · exact State.stopped_boot h
    · split
      · exact hb _ _
      · exact State.ite_boot (State.dataTrap_boot h) (hb _ _)

theorem execScalar_boot {p : Pfx} {srcs : List Use} {d : Opnd} {f : Weft → List W64 → W64} (h : s.BootIs b₀) :
    (execScalar s p srcs d f).BootIs b₀ :=
  issue_boot h fun _ _ => State.ite_boot h ((writeS_steady .refl).boot ((State.popUses_steady .refl).boot h))

theorem execWide_boot {p : Pfx} {uses : List Use} {f : State → Weft → List W64 → State} (h : s.BootIs b₀)
    (hf : ∀ (t : State) w v, t.BootIs b₀ → (f t w v).BootIs b₀) : (execWide s p uses f).BootIs b₀ :=
  issue_boot h fun _ _ => hf _ _ _ ((State.popUses_steady .refl).boot h)

theorem execLanes_boot {debits folds : Bool} {p : Pfx} {srcs : List Use} {dst : Use} {rounds : Bool}
    {f : Weft → W64 → List (List VVal) → VRes} (h : s.BootIs b₀) : (execLanes debits folds s p srcs dst rounds f).BootIs b₀ := by
  refine issue_boot h fun w g => ?_
  have hd : (if debits then s.debit w.core (quarters g.m) else s).BootIs b₀ := State.ite_boot h h
  dsimp only
  generalize (if debits then s.debit w.core (quarters g.m) else s) = t at hd
  refine State.ite_boot h (State.ite_boot ((State.popUses_steady .refl).boot hd) ?_)
  split
  · exact State.ite_boot (State.dataTrap_boot hd) ((State.trapL_steady .refl).boot hd)
  · refine State.ite_boot ((State.trapF_steady .refl).boot hd) ?_
    refine State.ite_boot ?_ ((State.trapL_steady .refl).boot ?_)
    all_goals
      refine State.pair_ite_boot (writeV_boot ((State.popUses_steady .refl).boot hd)) ?_
      split
      · exact (writeS_steady .refl).boot ((State.popUses_steady .refl).boot hd)
      · exact (State.popUses_steady .refl).boot hd

theorem execVec_boot {p : Pfx} {srcs : List Use} {dst : Use} {rounds : Bool} {f : Weft → W64 → List (List VVal) → VRes}
    (h : s.BootIs b₀) : (execVec s p srcs dst rounds f).BootIs b₀ := execLanes_boot h

theorem execFold_boot {p : Pfx} {srcs : List Use} {dst : Use} {rounds : Bool} {f : Weft → W64 → List (List VVal) → VRes}
    (h : s.BootIs b₀) : (execFold s p srcs dst rounds f).BootIs b₀ := execLanes_boot h

/-! ### Order, accesses and memory instructions -/

theorem State.flushCore_boot {core scope : Nat} (h : s.BootIs b₀) : (s.flushCore core scope).BootIs b₀ :=
  State.ite_boot h ((State.flushComb_steady .refl).boot h)

theorem State.waitOrder_boot {w : Weft} {scope : Nat} (h : s.BootIs b₀) : (s.waitOrder w scope).BootIs b₀ := by
  unfold State.waitOrder
  dsimp only
  split <;> exact State.flushCore_boot (s := s) h

theorem State.release_boot {w : Weft} {scope : Nat} {k : State → State} (h : s.BootIs b₀) (hk : (k s).BootIs b₀) :
    (s.release w scope k).BootIs b₀ :=
  State.ite_boot hk (State.waitOrder_boot h)

theorem State.fenceAcq_boot {w : Weft} {scope : Nat} {k : State → State} (h : s.BootIs b₀) (hk : (k s).BootIs b₀) :
    (s.fenceAcq w scope k).BootIs b₀ :=
  State.ite_boot (State.waitOrder_boot h) hk

theorem State.fullFence_boot {w : Weft} {scope : Nat} {k : State → State} (h : s.BootIs b₀) (hk : (k s).BootIs b₀) :
    (s.fullFence w scope k).BootIs b₀ :=
  State.ite_boot hk (State.waitOrder_boot h)

theorem State.coverLanes_boot {a : Access} {ls : List LaneAcc} {keys : List (Nat × Nat)} (h : s.BootIs b₀) :
    (s.coverLanes a ls keys).BootIs b₀ :=
  State.ite_boot h h

theorem State.startAccess_boot {w : Weft} {a0 : Access} {range : Option (Nat × Nat)} (h : s.BootIs b₀) :
    (s.startAccess w a0 range).BootIs b₀ := by
  unfold State.startAccess
  exact (State.progress_steady .refl).boot ((State.sendFabric_steady .refl).boot h)

theorem execSleepExpiry_boot {core slot : Nat} (h : s.BootIs b₀) : (execSleepExpiry core slot s).BootIs b₀ := by
  unfold execSleepExpiry
  split <;> exact h

theorem execHamperWriteback_boot {stack : Nat} (h : s.BootIs b₀) : (execHamperWriteback stack s).BootIs b₀ :=
  State.ite_boot h ((State.writeBack_memOnly ..).boot h)

theorem execHbmRefresh_boot {chan bank : Nat} {busy : Bool} (h : s.BootIs b₀) : (execHbmRefresh chan bank busy s).BootIs b₀ :=
  State.ite_boot h h

theorem execAlertBackoff_boot {chan bank : Nat} (h : s.BootIs b₀) : (execAlertBackoff chan bank s).BootIs b₀ := State.ite_boot h h

theorem State.performSpad_boot {a : Access} {ls : List LaneAcc} (h : s.BootIs b₀) : (s.performSpad a ls).1.BootIs b₀ := by
  induction ls generalizing s with
  | nil => exact h
  | cons l r ih =>
    unfold State.performSpad
    split
    · exact ih ((State.performLane_steady .refl).boot h)
    · exact ih h

theorem State.spadIssue_boot {w : Weft} {a : Access} (h : s.BootIs b₀) : (s.spadIssue w a).BootIs b₀ := by
  have h1 {ls ms : List LaneAcc} {keys : List (Nat × Nat)} : ((s.performSpad a ls).1.coverLanes a ms keys).BootIs b₀ :=
    State.coverLanes_boot (State.performSpad_boot h)
  unfold State.spadIssue
  dsimp only
  split
  · exact (State.settleTrap_steady .refl).boot h1
  · exact h1

theorem State.ordGate_boot {w : Weft} {p : Pfx} {empty : Bool} {k : State → State} (h : s.BootIs b₀) (hk : (k s).BootIs b₀) :
    (s.ordGate w p empty k).BootIs b₀ := by
  unfold State.ordGate
  split
  · exact State.release_boot h hk
  · exact State.ite_boot (State.fullFence_boot h hk) (State.release_boot h hk)
  · exact State.ite_boot (State.fenceAcq_boot h hk) hk
  · exact hk

theorem memGroup_boot {p : Pfx} {uses : List Use} {spad writes : Bool} {mk : State → Weft → Plan → Access}
    {range : Weft → Option (Nat × Nat)} (h : s.BootIs b₀) : (memGroup s p uses spad writes mk range).BootIs b₀ := by
  refine issue_boot h fun w g => State.ite_boot (State.ordGate_boot h h) (State.ordGate_boot h ?_)
  exact State.ite_boot h (State.ite_boot (State.spadIssue_boot h) (State.ite_boot h (State.ite_boot h (State.startAccess_boot h))))

/-! ### Knots -/

theorem State.setKnot_boot {key : Nat} {k : Knot} (h : s.BootIs b₀) : (s.setKnot key k).BootIs b₀ :=
  (State.writeBytes_memOnly ..).boot h

theorem State.knotTrap_boot {w : Weft} {m : W64} {d : Nat} (h : s.BootIs b₀) : (s.knotTrap w m d).BootIs b₀ :=
  (State.trapF_steady .refl).boot h

theorem State.onKnot_boot {w : Weft} {m : W64} {ea : Nat} {f : Nat → Knot → State} (h : s.BootIs b₀)
    (hf : ∀ key k, (f key k).BootIs b₀) :
    (s.onKnot w m ea f).BootIs b₀ := by
  unfold State.onKnot
  split
  · exact State.knotTrap_boot h
  · exact State.ite_boot ((State.trapF_steady .refl).boot h) (hf _ _)

theorem execKinit_boot {p : Pfx} {a b : Opnd} (h : s.BootIs b₀) : (execKinit p a b s).BootIs b₀ :=
  issue_boot h fun _ _ => State.ite_boot h (State.onKnot_boot h fun _ _ =>
    State.ite_boot (State.knotTrap_boot h) (State.ite_boot (State.knotTrap_boot h) ((State.popUses_steady .refl).boot h)))

theorem execKarrive_boot {p : Pfx} {a : Opnd} (h : s.BootIs b₀) : (execKarrive p a s).BootIs b₀ := by
  refine issue_boot h fun w g => State.ite_boot (State.release_boot h h) ?_
  split
  · exact State.knotTrap_boot h
  · refine State.ite_boot h (State.release_boot h (State.onKnot_boot h fun key k => ?_))
    exact State.ite_boot (State.knotTrap_boot h) (State.ite_boot (State.knotTrap_boot h) h)

theorem execKexpect_boot {p : Pfx} {a b : Opnd} (h : s.BootIs b₀) : (execKexpect p a b s).BootIs b₀ :=
  issue_boot h fun _ _ => State.ite_boot h (State.onKnot_boot h fun _ _ =>
    State.ite_boot (State.knotTrap_boot h) (State.ite_boot (State.knotTrap_boot h) ((State.popUses_steady .refl).boot h)))

theorem execKwait_boot {p : Pfx} {d a b : Opnd} (h : s.BootIs b₀) : (execKwait p d a b s).BootIs b₀ :=
  issue_boot h fun _ _ => State.ite_boot (State.fenceAcq_boot h h) (State.onKnot_boot h fun _ _ =>
    State.ite_boot (State.knotTrap_boot h) (State.ite_boot h ((writeS_steady .refl).boot ((State.popUses_steady .refl).boot h))))

theorem execKtest_boot {p : Pfx} {d a : Opnd} (h : s.BootIs b₀) : (execKtest p d a s).BootIs b₀ :=
  issue_boot h fun _ _ => State.ite_boot h (State.onKnot_boot h fun _ _ => (writeS_steady .refl).boot h)

theorem State.failWaiters_boot {key : Nat} (h : s.BootIs b₀) : (s.failWaiters key).BootIs b₀ := by
  refine State.foldl_boot (fun t w ht => ?_) _ h
  split
  · exact State.ite_boot (State.knotTrap_boot ht) ht
  · exact ht

theorem execKinval_boot {p : Pfx} {a : Opnd} (h : s.BootIs b₀) : (execKinval p a s).BootIs b₀ :=
  issue_boot h fun w _ => State.ite_boot h (State.onKnot_boot h fun _ _ =>
    State.ite_boot (State.knotTrap_boot h) (State.ite_boot (State.knotTrap_boot h)
      (State.failWaiters_boot (State.setKnot_boot (s := s.setWeft (w.commit p false)) h))))

/-! ### The shuttle and the matrix engine -/

theorem State.reserveToken_boot {team q : Nat} {tok : Option W64} (h : s.BootIs b₀) : (s.reserveToken team q tok).BootIs b₀ := by
  unfold State.reserveToken
  split <;> exact h

theorem State.pushToken_boot {team q status : Nat} {tok : Option W64} (h : s.BootIs b₀) :
    (s.pushToken team q tok status).BootIs b₀ := by
  unfold State.pushToken
  split <;> exact h

theorem State.acceptCmd_boot {w : Weft} {c : EngCmd} {cnt q : Nat} (h : s.BootIs b₀) : (s.acceptCmd w c cnt q).BootIs b₀ := by
  unfold State.acceptCmd
  exact State.reserveToken_boot h

theorem shuttleOp_boot {op : Nat} {p : Pfx} {d a : Opnd} {b : Option Opnd} (h : s.BootIs b₀) :
    (shuttleOp op p d a b s).BootIs b₀ := by
  refine issue_boot h fun w g => ?_
  dsimp only
  split
  · exact h
  · refine State.ite_boot h (State.ite_boot h (State.ite_boot h (State.ite_boot h (State.ite_boot h (State.ite_boot h ?_)))))
    split
    · exact (State.trapF_steady .refl).boot h
    · exact State.ite_boot (State.acceptCmd_boot (s := s.debit _ _) h) (State.acceptCmd_boot (s := s.debit _ _) h)

theorem execShcopyCollectiveStart_boot {team n : Nat} (h : s.BootIs b₀) : (execShcopyCollectiveStart team n s).BootIs b₀ :=
  Res.ite_boot h h

theorem State.engineFlush_boot {c : EngCmd} (h : s.BootIs b₀) : (s.engineFlush c).BootIs b₀ := State.flushCore_boot h

theorem execShuttleStart_boot {id : Nat} (h : s.BootIs b₀) : (execShuttleStart id s).BootIs b₀ := by
  unfold execShuttleStart
  split
  · exact h
  · refine Res.ite_boot h (Res.ite_boot (State.engineFlush_boot h) ?_)
    dsimp only
    split
    · exact State.setKnot_boot (s := State.setCmd _ _) h
    · exact h

theorem State.engByte_boot {c : EngCmd} {spad host : Bool} {va : Nat} {ask : Ask} (h : s.BootIs b₀) :
    (s.engByte c spad host va ask).1.BootIs b₀ := by
  unfold State.engByte
  refine State.pair_ite_boot h ?_
  split
  · split <;> exact h
  · split <;> have h1 := snd_keeps ‹s.translate _ _ _ _ = _› ((State.translate_memOnly ..).boot h)
    · exact State.ite_boot ((State.openUnit_getD_memOnly ..).boot h1) h1
    · exact h1

theorem State.engRead_boot {c : EngCmd} {x : Nat} (h : s.BootIs b₀) : (s.engRead c x).1.BootIs b₀ := by
  unfold State.engRead
  refine State.pair_ite_boot h ?_
  dsimp only
  split
  · split <;> exact h
  · split <;> have h1 := fst_keeps ‹s.engByte _ _ _ _ _ = _› (State.engByte_boot h)
    · exact State.pair_ite_boot h1 h1
    · exact h1

theorem State.planSector_boot {c : EngCmd} {xs : List Nat} {acc : SecPlan} (h : s.BootIs b₀) :
    (s.planSector c xs acc).1.BootIs b₀ := by
  induction xs generalizing s acc with
  | nil => exact h
  | cons x r ih =>
    unfold State.planSector
    split <;> have h1 := fst_keeps ‹s.engRead c x = _› (State.engRead_boot h)
    · exact ih h1
    · dsimp only
      split
      · exact ih h1
      · split <;> exact ih (fst_keeps ‹State.engByte _ _ _ _ _ _ = _› (State.engByte_boot h1))

theorem State.engPacket_boot {id key : Nat} {gm : BitVec 8} {op : FabOp} {bytes : List (Nat × Byte × Nat)} (h : s.BootIs b₀) :
    (s.engPacket id key gm op bytes).BootIs b₀ := by
  unfold State.engPacket
  split
  · exact h
  · dsimp only
    split <;> exact h

theorem State.engRecords_boot {c : EngCmd} {es : List EngErr} (h : s.BootIs b₀) : (s.engRecords c es).1.BootIs b₀ := by
  induction es generalizing s c with
  | nil => exact h
  | cons e r ih =>
    unfold State.engRecords
    exact State.pair_ite_boot (ih h) (ih ((State.writeRecord_steady .refl).boot h))

theorem State.engErrors_boot {c : EngCmd} {sector : Nat} {errs : List EngErr} (h : s.BootIs b₀) :
    (s.engErrors c sector errs).1.BootIs b₀ := by
  unfold State.engErrors
  split <;> exact State.engRecords_boot h

theorem State.endSector_boot {c : EngCmd} {sector : Nat} (h : s.BootIs b₀) : (s.endSector c sector).BootIs b₀ := by
  unfold State.endSector
  refine State.ite_boot (State.ite_boot h h) ?_
  split
  · exact State.setKnot_boot (s := State.setCmd _ _) h
  · exact h

theorem State.countLines_boot {places : List (Nat × Bool)} (h : s.BootIs b₀) : (s.countLines places).BootIs b₀ :=
  State.foldl_boot (fun _ _ ht => (State.countLine_memOnly ..).boot ht) _ h

theorem State.coverSectors_boot {c : EngCmd} {sector : Nat} (h : s.BootIs b₀) : (s.coverSectors c sector).BootIs b₀ :=
  State.ite_boot h h

theorem State.runSector_boot {c : EngCmd} {sector : Nat} (h : s.BootIs b₀) : (s.runSector c sector).BootIs b₀ := by
  unfold State.runSector
  have h1 {cells : List Host.Cell} {places : List (Nat × Bool)} {c1 c2 : EngCmd} {errs : List EngErr} {acc : SecPlan} :
      ((((((s.planSector c (c.secBytes sector) acc).1.chanWrite cells c.step).countLines places).engErrors c1 sector errs).1).coverSectors
        c2 sector).BootIs b₀ :=
    State.coverSectors_boot (State.engErrors_boot (State.countLines_boot ((State.chanWrite_memOnly ..).boot (State.planSector_boot h))))
  refine State.ite_boot h (State.ite_boot (State.endSector_boot h1) ?_)
  exact State.foldl_boot (fun _ _ ht => State.engPacket_boot ht) _ (s := State.setCmd _ _) h1

theorem execSectorPerformed_boot {id sector : Nat} (h : s.BootIs b₀) : (execSectorPerformed id sector s).BootIs b₀ := by
  unfold execSectorPerformed
  split
  · exact h
  · refine Res.ite_boot h (Res.ite_boot ?_ (Res.ite_boot (State.runSector_boot h) (State.endSector_boot (State.engErrors_boot h))))
    exact State.foldl_boot (fun _ _ ht => State.engPacket_boot ht) _ (s := State.setCmd _ _) h

theorem State.endCmd_boot {c : EngCmd} {cnt q : Nat} {tokenFirst : Bool} (h : s.BootIs b₀) :
    (s.endCmd c cnt q tokenFirst).BootIs b₀ := by
  unfold State.endCmd
  refine State.ite_boot ?_ (State.pushToken_boot ?_)
  · dsimp only
    split <;> exact State.pushToken_boot h
  · dsimp only
    split <;> exact h

theorem execShuttleComplete_boot {id : Nat} (h : s.BootIs b₀) : (execShuttleComplete id s).BootIs b₀ := by
  unfold execShuttleComplete
  split
  · exact h
  · refine Res.ite_boot h (State.endCmd_boot ?_)
    split
    · exact State.ite_boot ((State.writeBytes_memOnly ..).boot h) h
    · exact h

theorem State.writeTile_boot {key n : Nat} {els : List Nat} (h : s.BootIs b₀) : (s.writeTile key n els).BootIs b₀ :=
  (State.writeBytes_memOnly ..).boot h

theorem matOp_boot {op n : Nat} {p : Pfx} {d a : Opnd} (h : s.BootIs b₀) : (matOp op n p d a s).BootIs b₀ := by
  refine issue_boot h fun w g => ?_
  have pay {t : State} {c : Prop} [Decidable c] {core n : Nat} (ht : t.BootIs b₀) : (if c then t else t.debitAs true core n).BootIs b₀ :=
    State.ite_boot ht ht
  dsimp only
  split
  · exact h
  · refine State.ite_boot h (State.ite_boot h (State.ite_boot h (State.ite_boot h (State.ite_boot (pay h) ?_))))
    split
    · exact (State.trapF_steady .refl).boot h
    · exact State.reserveToken_boot (pay (t := { s with nextId := s.nextId + 1 }) h)

theorem execMcfg_boot {p : Pfx} {a : Opnd} (h : s.BootIs b₀) : (execMcfg p a s).BootIs b₀ := by
  refine issue_boot h fun w g => ?_
  dsimp only
  split
  · exact h
  · exact State.ite_boot h (State.ite_boot h (State.ite_boot h (State.ite_boot ((State.trapF_steady .refl).boot h) h)))

theorem State.matStep_boot {t : Team} {m : MatCmd} (h : s.BootIs b₀) : (s.matStep t m).1.BootIs b₀ := by
  unfold State.matStep
  dsimp only
  split <;> exact State.writeTile_boot h

theorem execMatrixKstep_boot {team : Nat} (h : s.BootIs b₀) : (execMatrixKstep team s).BootIs b₀ := by
  unfold execMatrixKstep
  split
  · exact h
  · split
    · exact h
    · exact Res.ite_boot h (Res.ite_boot h (State.matStep_boot (State.ite_boot h h)))

theorem execMatrixComplete_boot {team : Nat} (h : s.BootIs b₀) : (execMatrixComplete team s).BootIs b₀ := by
  unfold execMatrixComplete
  split
  · exact h
  · split
    · exact h
    · refine Res.ite_boot h (State.pushToken_boot ?_)
      split <;> exact h

/-! ### The itinerary -/

theorem State.writeStatus_boot (h : s.BootIs b₀) : s.writeStatus.BootIs b₀ := by
  unfold State.writeStatus
  refine State.ite_boot ?_ (State.getD_boot (fun _ e => (State.hostPut_steady (s := { s with itin := _ }) .refl e).boot h) h)
  split
  · exact (State.vaWrite_getD_memOnly ..).boot h
  · exact h

theorem State.itinError_boot {code entry : Nat} (h : s.BootIs b₀) : (s.itinError code entry).BootIs b₀ := by
  unfold State.itinError
  exact State.ite_boot (State.writeStatus_boot h) h

theorem State.sendControl_boot {core peer va v : Nat} {slot : Option Nat} {add : Bool} (h : s.BootIs b₀) :
    (s.sendControl core slot peer va add v).BootIs b₀ := by
  unfold State.sendControl
  dsimp only
  split
  · split
    · exact (State.weftEvent_steady .refl).boot (State.itinError_boot h)
    · exact State.itinError_boot h
  · exact h

theorem State.postSlot_boot {core kind q : Nat} {slot : Option Nat} (h : s.BootIs b₀) : (s.postSlot core slot kind q).BootIs b₀ :=
  State.ite_boot (State.sendControl_boot h) (State.sendControl_boot h)

theorem State.fillPosts_boot {k : Task} {n j : Nat} (h : s.BootIs b₀) : (s.fillPosts k n j).BootIs b₀ := by
  induction n generalizing s j with
  | zero => exact h
  | succ n ih =>
    unfold State.fillPosts
    exact ih (State.postSlot_boot (s := s) h)

theorem State.returnCredits_boot {k : Task} (h : s.BootIs b₀) : (s.returnCredits k).BootIs b₀ := by
  unfold State.returnCredits
  have h1 {c : Prop} [Decidable c] {peer va : Nat} : (if c then s.sendControl ctlCore none peer va true 1 else s).BootIs b₀ :=
    State.ite_boot (State.sendControl_boot h) h
  exact State.ite_boot (State.sendControl_boot h1) h1

theorem State.retireTask_boot {k : Task} (h : s.BootIs b₀) : (s.retireTask k).BootIs b₀ := by
  unfold State.retireTask
  exact State.returnCredits_boot (State.fillPosts_boot h)

theorem State.settleTask_boot {l : Launch} (h : s.BootIs b₀) : (s.settleTask l).BootIs b₀ := by
  unfold State.settleTask
  have h0 {c : Prop} [Decidable c] : (if c then s.answerNext l 0 else s).BootIs b₀ := State.ite_boot h h
  refine State.ite_boot h0 ?_
  have h1 {t : State} (ht : t.BootIs b₀) : (match l.task with
      | none => t
      | some k => State.setLaunch (match t.itin.tasks.find? fun (x : Task) => x.slot == k && x.serial == l.serial with
          | some x => t.retireTask x
          | none => t) { l with task := none }).BootIs b₀ := by
    split
    · exact ht
    · split
      · exact State.retireTask_boot ht
      · exact ht
  dsimp only
  split
  · exact h1 h0
  · exact State.ite_boot (h1 h0) (State.ite_boot (h1 h0) (h1 h0))

theorem State.taskOf_boot {w : Weft} (h : s.BootIs b₀) : (s.taskOf w).BootIs b₀ := by
  unfold State.taskOf
  split
  · exact State.settleTask_boot h
  · exact h

/-! ### Control, traps and special registers -/

theorem execBare_boot {p : Pfx} {f : State → Weft → State} (h : s.BootIs b₀)
    (hf : ∀ (t : State) w, t.BootIs b₀ → (f t w).BootIs b₀) :
    (execBare s p f).BootIs b₀ := execWide_boot h fun _ _ _ ht => hf _ _ ht

theorem execNop_boot {p : Pfx} (h : s.BootIs b₀) : (execNop p s).BootIs b₀ := execBare_boot h fun _ _ ht => ht

theorem execBrk_boot {p : Pfx} {b : BitVec 7} (h : s.BootIs b₀) : (execBrk p b s).BootIs b₀ :=
  issue_boot h fun _ _ => State.ite_boot h (State.ite_boot h (State.trapNext_boot h))

theorem State.leave_boot {w : Weft} (h : s.BootIs b₀) : (s.leave w).BootIs b₀ := by
  unfold State.leave
  refine State.taskOf_boot ?_
  split <;> exact h

theorem execExit_boot {p : Pfx} (h : s.BootIs b₀) : (execExit p s).BootIs b₀ :=
  execBare_boot h fun _ _ ht => State.release_boot ht (State.leave_boot ht)

theorem execTret_boot {p : Pfx} (h : s.BootIs b₀) : (execTret p s).BootIs b₀ := by
  unfold execTret
  split
  · exact Res.ite_boot (execBare_boot h fun _ _ ht => State.tret_boot ht) (State.tret_boot h)
  · trivial

theorem execYield_boot {p : Pfx} (h : s.BootIs b₀) : (execYield p s).BootIs b₀ := execBare_boot h fun _ _ ht => ht

theorem execTrig_boot {p : Pfx} (h : s.BootIs b₀) : (execTrig p s).BootIs b₀ :=
  execBare_boot h fun _ _ ht => State.release_boot ht ht

theorem execRgn_boot {p : Pfx} (h : s.BootIs b₀) : (execRgn p s).BootIs b₀ := execBare_boot h fun _ _ ht => ht

theorem execIfence_boot {p : Pfx} (h : s.BootIs b₀) : (execIfence p s).BootIs b₀ :=
  execBare_boot h fun _ _ ht => State.fenceAcq_boot ht ht

theorem execWin_boot {p : Pfx} {b : BitVec 7} (h : s.BootIs b₀) : (execWin p b s).BootIs b₀ :=
  execBare_boot h fun _ _ ht => State.ite_boot ((State.trapF_steady .refl).boot ht) ht

theorem execSleep_boot {p : Pfx} {a : Opnd} (h : s.BootIs b₀) : (execSleep p a s).BootIs b₀ := execWide_boot h fun _ _ _ ht => ht

theorem execGetsr_boot {p : Pfx} {d : Opnd} {b : BitVec 7} (h : s.BootIs b₀) : (execGetsr p d b s).BootIs b₀ :=
  Res.ite_boot (execLanes_boot h) (execScalar_boot h)

theorem execSetsr_boot {p : Pfx} {a : Opnd} {b : BitVec 7} (h : s.BootIs b₀) : (execSetsr p a b s).BootIs b₀ :=
  issue_boot h fun _ _ => State.ite_boot h ((State.popUses_steady .refl).boot h)

theorem execTrap_boot {p : Pfx} {i : BitVec 12} (h : s.BootIs b₀) : (execTrap p i s).BootIs b₀ :=
  issue_boot h fun _ _ => State.ite_boot h (State.trapNext_boot h)

theorem execVlset_boot {p : Pfx} {d a b : Opnd} (h : s.BootIs b₀) : (execVlset p d a b s).BootIs b₀ := by
  refine issue_boot h fun w g => ?_
  have h1 {c : Prop} [Decidable c] {us : List Use} :
      (if c then s.debit w.core (quarters g.m) else (s.debit w.core (quarters g.m)).popUses w g.m us).BootIs b₀ :=
    State.ite_boot h ((State.popUses_steady .refl).boot h)
  exact State.ite_boot h (State.ite_boot h1 h1)

/-! ### Vector and index registers -/

theorem vec1_boot {p : Pfx} {d a : Opnd} {f : VVal → VVal} (h : s.BootIs b₀) : (vec1 p d a f s).BootIs b₀ := execVec_boot h

theorem vec2_boot {p : Pfx} {d a b : Opnd} {f : VVal → VVal → VVal} (h : s.BootIs b₀) : (vec2 p d a b f s).BootIs b₀ :=
  execVec_boot h

theorem vec3_boot {p : Pfx} {d a b : Opnd} {f : VVal → VVal → VVal → VVal} (h : s.BootIs b₀) : (vec3 p d a b f s).BootIs b₀ :=
  execVec_boot h

theorem execVshape_boot {p : Pfx} {d a : Opnd} (h : s.BootIs b₀) : (execVshape p d a s).BootIs b₀ := by
  unfold execVshape
  exact Res.ite_boot (vec1_boot h) (execVec_boot h)

theorem execXset_boot {p : Pfx} {d a : Opnd} (h : s.BootIs b₀) : (execXset p d a s).BootIs b₀ :=
  issue_boot h fun _ _ => State.ite_boot h (State.ite_boot ((State.trapF_steady .refl).boot h) ((State.popUses_steady .refl).boot h))

theorem xWrite_boot {p : Pfx} {d a : Opnd} {f : BitVec 8 → BitVec 8 → BitVec 8} (h : s.BootIs b₀) :
    (xWrite p d a f s).BootIs b₀ :=
  issue_boot h fun _ _ => State.ite_boot h ((State.popUses_steady .refl).boot h)

theorem execXclr_boot {p : Pfx} {d : Opnd} (h : s.BootIs b₀) : (execXclr p d s).BootIs b₀ := issue_boot h fun _ _ => h

/-! ### Debug, power and the power-fail sequence -/

theorem State.pokeQueue_boot {w : Weft} {q i : Nat} {v : W64} (h : s.BootIs b₀) : (s.pokeQueue w q i v).BootIs b₀ := by
  unfold State.pokeQueue
  split
  · split
    · exact State.ite_boot h h
    · exact h
  · exact h
  · exact h
  · exact h

theorem execDebugRead_boot {core : DebugCore} {slot : Nat} {w : DebugPlace} (h : s.BootIs b₀) :
    (execDebugRead core slot w s).BootIs b₀ := by
  unfold execDebugRead
  split <;> exact h

theorem execDebugWrite_boot {core : DebugCore} {slot : Nat} {w : DebugPlace} {v : BitVec 64} (h : s.BootIs b₀) :
    (execDebugWrite core slot w v s).BootIs b₀ := by
  unfold execDebugWrite
  split
  · exact h
  · split
    · exact State.pokeQueue_boot h
    · exact h

theorem State.noteCap_boot {old : Nat} (h : s.BootIs b₀) : (s.noteCap old).BootIs b₀ := State.ite_boot h h

theorem State.withPower_boot {x : Power} (h : s.BootIs b₀) : State.BootIs b₀ { s with power := x } := h

theorem execPstepAccept_boot {v : BitVec 3} (h : s.BootIs b₀) : (execPstepAccept v s).BootIs b₀ :=
  State.ite_boot h (State.ite_boot (State.noteCap_boot h) h)

theorem execCapWrite_boot {off : Nat} {v : BitVec 64} (h : s.BootIs b₀) : (execCapWrite off v s).BootIs b₀ := by
  have hn {x : Power} {old : Nat} : (State.noteCap { s with power := x } old).BootIs b₀ := State.noteCap_boot (State.withPower_boot h)
  exact State.ite_boot h (State.ite_boot hn (State.ite_boot hn (State.ite_boot hn h)))

theorem execOpGlideComplete_boot {rail : Nat} (h : s.BootIs b₀) : (execOpGlideComplete rail s).BootIs b₀ := by
  refine State.ite_boot h ?_
  split <;> exact h

theorem State.startPfail_boot (h : s.BootIs b₀) : s.startPfail.BootIs b₀ := by
  unfold State.startPfail
  exact (State.alert_boot ..).trans ((State.pfailStop_steady (s := s) .refl).boot h)

theorem State.powerFails_boot (h : s.BootIs b₀) : s.powerFails.BootIs b₀ :=
  State.ite_boot h (State.ite_boot (State.startPfail_boot h) h)

theorem State.landAll_boot {l : List Access} (h : s.BootIs b₀) : (s.landAll l).BootIs b₀ := by
  refine State.foldl_boot (fun t a ht => ?_) _ h
  exact (State.performLanes_steady .refl).boot ht

theorem execHamperAcceptanceClose_boot (h : s.BootIs b₀) : (execHamperAcceptanceClose s).BootIs b₀ :=
  State.ite_boot (State.landAll_boot h) h

theorem execHamperDrained_boot (h : s.BootIs b₀) : (execHamperDrained s).BootIs b₀ :=
  State.ite_boot ((State.drainHampers_boot ..).trans h) h

theorem execSealRecordWrite_boot (h : s.BootIs b₀) : (execSealRecordWrite s).BootIs b₀ := State.ite_boot h h

theorem State.l2One_boot {c : Nat} (h : s.BootIs b₀) : (s.l2One c).BootIs b₀ := by
  unfold State.l2One
  exact State.ite_boot h h

theorem execLevel2Save_boot (h : s.BootIs b₀) : (execLevel2Save s).BootIs b₀ := by
  unfold execLevel2Save
  dsimp only
  split
  · exact State.ite_boot h h
  · split
    · exact State.l2One_boot h
    · exact h
  · exact h

/-! ### Timers, the alerts and the host -/

theorem execPdlExpiry_boot {core slot : Nat} (h : s.BootIs b₀) : (execPdlExpiry core slot s).BootIs b₀ := by
  unfold execPdlExpiry
  split
  · exact h
  · exact State.ite_boot ((State.fatal_steady .refl).boot h) h

theorem State.sendTier_boot {port tier : Nat} (h : s.BootIs b₀) : (s.sendTier port tier).BootIs b₀ := by
  unfold State.sendTier
  split
  · exact h
  · exact h
  · exact h

theorem execStarvationForce_boot {port tier : Nat} (h : s.BootIs b₀) : (execStarvationForce port tier s).BootIs b₀ :=
  State.ite_boot (State.sendTier_boot h) h

theorem State.setAlert_boot {st en : BitVec 9} (h : s.BootIs b₀) : (s.setAlert st en).BootIs b₀ := by
  unfold State.setAlert
  exact State.ite_boot ((State.emit_steady .refl).boot (State.withHost_boot h)) (State.withHost_boot h)

theorem State.setBox_boot {i : Nat} {m : Mailbox} (h : s.BootIs b₀) : (s.setBox i m).BootIs b₀ := h

theorem State.quoteAlert_boot {i : Nat} (h : s.BootIs b₀) : (s.quoteAlert i).BootIs b₀ :=
  State.ite_boot ((State.alert_boot ..).trans h) h

theorem State.goQuote_boot {i : Nat} (h : s.BootIs b₀) : (s.goQuote i).BootIs b₀ := by
  unfold State.goQuote
  exact State.ite_boot (State.quoteAlert_boot (State.setBox_boot h))
    (State.ite_boot (State.withHost_boot (State.setBox_boot h)) (State.withHost_boot (State.setBox_boot h)))

theorem State.writeMbctl_boot {i : Nat} {v : W64} (h : s.BootIs b₀) : (s.writeMbctl i v).BootIs b₀ := by
  unfold State.writeMbctl
  exact State.ite_boot (State.goQuote_boot (State.setBox_boot h)) (State.setBox_boot h)

theorem State.writeMbdata_boot {i off : Nat} {bs : List Byte} (h : s.BootIs b₀) : (s.writeMbdata i off bs).BootIs b₀ :=
  State.setBox_boot h

theorem i3cWrite_boot {off : Nat} {v : W64} (h : s.BootIs b₀) : (i3cWrite off v s).BootIs b₀ := by
  unfold i3cWrite
  exact Res.ite_boot (State.setAlert_boot h) (Res.ite_boot (State.setAlert_boot h) (Res.ite_boot (execCapWrite_boot h)
    (Res.ite_boot (State.withPower_boot h) (Res.ite_boot (State.withPower_boot h) (Res.ite_boot (State.withPower_boot h)
      (Res.ite_boot (State.writeMbctl_boot h) h))))))

theorem i3cByteIn_boot {off i : Nat} {data : List Byte} (h : s.BootIs b₀) : (i3cByteIn off data i s).BootIs b₀ := by
  unfold i3cByteIn
  exact Res.ite_boot (State.writeMbdata_boot h) (Res.ite_boot (i3cWrite_boot h) h)

theorem writeI3c_boot {off : Nat} {data : List Byte} (h : s.BootIs b₀) : (writeI3c off data s).BootIs b₀ := by
  unfold writeI3c
  refine Res.ite_boot h (foldl_keeps (Res.BootIs b₀) _ (fun r i hr => ?_) _ _ (State.withHost_boot h))
  exact Res.bind_boot hr fun _ ht => i3cByteIn_boot ht

theorem execI3cPrivateRead_boot {n : Nat} (h : s.BootIs b₀) : (execI3cPrivateRead n s).BootIs b₀ := by
  unfold execI3cPrivateRead
  exact State.ite_boot h ((State.emit_steady .refl).boot (State.withHost_boot h))

/-! ### Atomics, barriers, masks and branches -/

theorem atomOp_boot {p : Pfx} {d a b : Opnd} {n : BitVec 5} {spad : Bool} (h : s.BootIs b₀) :
    (atomOp p d a b n spad s).BootIs b₀ :=
  memGroup_boot h

theorem casOp_boot {p : Pfx} {d a : Opnd} {n : BitVec 5} {spad : Bool} (h : s.BootIs b₀) : (casOp p d a n spad s).BootIs b₀ :=
  memGroup_boot h

theorem State.arrive_boot {w : Weft} {b : Nat} (h : s.BootIs b₀) : (s.arrive w b).BootIs b₀ := by
  unfold State.arrive
  split <;> exact h

theorem barBoth_boot {p : Pfx} {num : Weft → Nat} (h : s.BootIs b₀) : (barBoth p s num).BootIs b₀ := by
  refine execBare_boot h fun t w ht => State.ite_boot (State.ite_boot ht ht) (State.release_boot ht (State.ite_boot ht ?_))
  exact State.ite_boot (State.arrive_boot ht) (State.arrive_boot ht)

theorem execBarArrive_boot {p : Pfx} {b : BitVec 7} (h : s.BootIs b₀) : (execBarArrive p b s).BootIs b₀ :=
  execBare_boot h fun _ _ ht => State.release_boot ht (State.ite_boot ht (State.arrive_boot ht))

theorem execBarWait_boot {p : Pfx} {b : BitVec 7} (h : s.BootIs b₀) : (execBarWait p b s).BootIs b₀ :=
  execBare_boot h fun _ _ ht => State.ite_boot ht (State.ite_boot ht ht)

theorem maskOp_boot {p : Pfx} {srcs : List Use} {d : Opnd} {f : Weft → W64 → Weft × W64} (h : s.BootIs b₀) :
    (maskOp s p srcs d f).BootIs b₀ :=
  execWide_boot h fun _ _ _ ht => (writeS_steady .refl).boot ht

theorem branchTo_boot {w : Weft} {p : Pfx} {taken : Bool} {target : W64} (h : s.BootIs b₀) :
    (branchTo s w p taken target).BootIs b₀ :=
  h

theorem execLoop_boot {p : Pfx} {r : Opnd} {o : BitVec 19} (h : s.BootIs b₀) : (execLoop p r o s).BootIs b₀ :=
  execWide_boot h fun _ _ _ ht => branchTo_boot ((writeS_steady .refl).boot ht)

theorem execCall_boot {p : Pfx} {r : Opnd} {o : BitVec 19} (h : s.BootIs b₀) : (execCall p r o s).BootIs b₀ :=
  execWide_boot h fun _ _ _ ht => branchTo_boot ((writeS_steady .refl).boot ht)

theorem execCallr_boot {p : Pfx} {d a : Opnd} (h : s.BootIs b₀) : (execCallr p d a s).BootIs b₀ :=
  execWide_boot h fun _ _ _ ht => branchTo_boot ((writeS_steady .refl).boot ht)

theorem execUniform_boot {p : Pfx} {others : List Use} {u : Use} {f : W32 → W32} {go : State → Weft → List W64 → W32 → State}
    (h : s.BootIs b₀) (hg : ∀ (t : State) w v x, t.BootIs b₀ → (go t w v x).BootIs b₀) : (execUniform s p others u f go).BootIs b₀ := by
  refine issue_boot h fun w g => ?_
  dsimp only
  split
  · exact (State.popUses_steady .refl).boot h
  · exact (State.trapF_steady .refl).boot h
  · exact (State.trapF_steady .refl).boot h
  · exact hg _ _ _ _ ((State.popUses_steady .refl).boot h)

theorem execBr_boot {p o} (h : s.BootIs b₀) : (execBr p o s).BootIs b₀ := execWide_boot h fun _ _ _ ht => branchTo_boot ht

theorem execBrz_boot {p r o} (h : s.BootIs b₀) : (execBrz p r o s).BootIs b₀ := execWide_boot h fun _ _ _ ht => branchTo_boot ht

theorem execBrnz_boot {p r o} (h : s.BootIs b₀) : (execBrnz p r o s).BootIs b₀ := execWide_boot h fun _ _ _ ht => branchTo_boot ht

theorem execBrem_boot {p o} (h : s.BootIs b₀) : (execBrem p o s).BootIs b₀ := execWide_boot h fun _ _ _ ht => branchTo_boot ht

theorem execJmp_boot {p a} (h : s.BootIs b₀) : (execJmp p a s).BootIs b₀ := execWide_boot h fun _ _ _ ht => branchTo_boot ht

theorem execBru_boot {p r o} (h : s.BootIs b₀) : (execBru p r o s).BootIs b₀ :=
  execUniform_boot h fun _ _ _ _ ht => branchTo_boot ht

theorem execJmpv_boot {p a b} (h : s.BootIs b₀) : (execJmpv p a b s).BootIs b₀ :=
  execUniform_boot h fun _ _ _ _ ht => branchTo_boot ht

/-! ### The forms that share one meaning -/

theorem scalar1_boot {p d a f} (h : s.BootIs b₀) : (scalar1 p d a f s).BootIs b₀ := execScalar_boot h

theorem scalar2_boot {p d a b f} (h : s.BootIs b₀) : (scalar2 p d a b f s).BootIs b₀ := execScalar_boot h

theorem wide2_boot {p d a b f} (h : s.BootIs b₀) : (wide2 p d a b f s).BootIs b₀ := execVec_boot h

theorem vecI_boot {p d a i f} (h : s.BootIs b₀) : (vecI p d a i f s).BootIs b₀ := vec1_boot h

theorem compare2_boot {p d a b f} (h : s.BootIs b₀) : (compare2 p d a b f s).BootIs b₀ := execVec_boot h

theorem shiftLanes_boot {p d a b f} (h : s.BootIs b₀) : (shiftLanes p d a b f s).BootIs b₀ := execVec_boot h

theorem loadOp_boot {p d a b k x sz spad} (h : s.BootIs b₀) : (loadOp p d a b k x sz spad s).BootIs b₀ := memGroup_boot h

theorem storeOp_boot {p d a b k sz spad} (h : s.BootIs b₀) : (storeOp p d a b k sz spad s).BootIs b₀ := memGroup_boot h

theorem float_boot {p d srcs rounds f} (h : s.BootIs b₀) : (float p d srcs rounds f s).BootIs b₀ := execVec_boot h

theorem f1_boot {p d a f} (h : s.BootIs b₀) : (f1 p d a f s).BootIs b₀ := float_boot h

theorem f2_boot {p d a b f} (h : s.BootIs b₀) : (f2 p d a b f s).BootIs b₀ := float_boot h

theorem f3_boot {p d a b f} (h : s.BootIs b₀) : (f3 p d a b f s).BootIs b₀ := float_boot h

theorem f2raw_boot {p d a b f} (h : s.BootIs b₀) : (f2raw p d a b f s).BootIs b₀ := float_boot h

theorem fInt_boot {p d a mode} (h : s.BootIs b₀) : (fInt p d a mode s).BootIs b₀ := float_boot h

theorem h2_boot {p d a b t f} (h : s.BootIs b₀) : (h2 p d a b t f s).BootIs b₀ := float_boot h

theorem h2raw_boot {p d a b t f} (h : s.BootIs b₀) : (h2raw p d a b t f s).BootIs b₀ := float_boot h

theorem cvtFromInt_boot {p d a signed} (h : s.BootIs b₀) : (cvtFromInt p d a signed s).BootIs b₀ := float_boot h

theorem cvtToInt_boot {p d a lo hi} (h : s.BootIs b₀) : (cvtToInt p d a lo hi s).BootIs b₀ := float_boot h

theorem cvtSelect_boot {p d a b bits sel f} (h : s.BootIs b₀) : (cvtSelect p d a b bits sel f s).BootIs b₀ := float_boot h

theorem cvtPack_boot {p d a b f} (h : s.BootIs b₀) : (cvtPack p d a b f s).BootIs b₀ := float_boot h

theorem cvtShiftIn_boot {p d a b f bits} (h : s.BootIs b₀) : (cvtShiftIn p d a b f bits s).BootIs b₀ := float_boot h

theorem reduceOp_boot {p d a rounds f ext} (h : s.BootIs b₀) : (reduceOp p d a rounds f ext s).BootIs b₀ := execFold_boot h

theorem reduceInt_boot {p d a f signed} (h : s.BootIs b₀) : (reduceInt p d a f signed s).BootIs b₀ := reduceOp_boot h

theorem extremum_boot {p d a rank better} (h : s.BootIs b₀) : (extremum p d a rank better s).BootIs b₀ := execFold_boot h

/-! ### Task instructions, signals and launches -/

theorem State.itinTrap_boot {w : Weft} {m : W64} (h : s.BootIs b₀) : (s.itinTrap w m).BootIs b₀ :=
  (State.trapF_steady .refl).boot h

theorem execItnDone_boot {p : Pfx} (h : s.BootIs b₀) : (execItnDone p s).BootIs b₀ :=
  execBare_boot h fun _ _ ht => State.ite_boot (State.itinTrap_boot ht) (State.release_boot ht (State.taskOf_boot ht))

theorem execItnNext_boot {p : Pfx} {d : Opnd} (h : s.BootIs b₀) : (execItnNext p d s).BootIs b₀ := by
  refine issue_boot h fun w g => State.ite_boot (State.itinTrap_boot h) ?_
  split
  · exact (writeS_steady .refl).boot h
  · exact State.ite_boot h (State.release_boot h (State.taskOf_boot h))

theorem needsTask_boot {w : Weft} {m : W64} {f : Task → State} (h : s.BootIs b₀) (hf : ∀ k, (f k).BootIs b₀) :
    (needsTask s w m f).BootIs b₀ := by
  refine State.ite_boot (State.itinTrap_boot h) ?_
  split
  · exact hf _
  · exact State.itinTrap_boot h

theorem execItnStash_boot {p : Pfx} {d a : Opnd} (h : s.BootIs b₀) : (execItnStash p d a s).BootIs b₀ :=
  issue_boot h fun _ _ => State.ite_boot h (needsTask_boot h fun _ => (writeS_steady .refl).boot ((State.popUses_steady .refl).boot h))

theorem execItnFree_boot {p : Pfx} {a : Opnd} (h : s.BootIs b₀) : (execItnFree p a s).BootIs b₀ :=
  issue_boot h fun _ _ => State.ite_boot h (needsTask_boot h fun _ => (State.popUses_steady .refl).boot h)

theorem execItnPost_boot {p : Pfx} {d : Opnd} (h : s.BootIs b₀) : (execItnPost p d s).BootIs b₀ := by
  refine issue_boot h fun w g => State.ite_boot (State.release_boot h h) (needsTask_boot h fun k => ?_)
  exact State.ite_boot (State.itinTrap_boot h) (State.release_boot h (State.postSlot_boot ((writeS_steady .refl).boot h)))

theorem sigOp_boot {p : Pfx} {a b : Opnd} {kind : AccKind} (h : s.BootIs b₀) : (sigOp p a b kind s).BootIs b₀ :=
  issue_boot h fun _ _ => State.release_boot h (State.ite_boot h (State.ite_boot h (State.startAccess_boot h)))

theorem swaitOp_boot {p : Pfx} {d a b : Opnd} {cond : Nat} (h : s.BootIs b₀) : (swaitOp p d a b cond s).BootIs b₀ :=
  issue_boot h fun _ _ => State.ite_boot (State.fenceAcq_boot h h) (State.ite_boot h (State.startAccess_boot h))

theorem launchOp_boot {p : Pfx} {d a : Opnd} {b : Option Opnd} (h : s.BootIs b₀) : (launchOp p d a b s).BootIs b₀ := by
  refine issue_boot h fun w g => State.ite_boot h (State.ite_boot ((State.trapF_steady .refl).boot h) (State.release_boot h ?_))
  exact State.ite_boot h (State.ite_boot h (State.startAccess_boot h))

/-! ### Near-memory commands -/

theorem execNmv_boot {p : Pfx} {d a : Opnd} (h : s.BootIs b₀) : (execNmv p d a s).BootIs b₀ := by
  refine issue_boot h fun w g => ?_
  dsimp only
  split
  · exact h
  · refine State.ite_boot h (State.ite_boot h (State.ite_boot h (State.ite_boot h ?_)))
    split
    · exact (State.trapF_steady .refl).boot h
    · exact State.acceptCmd_boot h

theorem execNmvcfg_boot {p : Pfx} {a : Opnd} (h : s.BootIs b₀) : (execNmvcfg p a s).BootIs b₀ := by
  refine issue_boot h fun w g => ?_
  dsimp only
  split
  · exact h
  · exact State.ite_boot h (State.ite_boot h (State.ite_boot ((State.trapF_steady .refl).boot h) h))

theorem State.segKey_boot {c : EngCmd} {va : W64} (h : s.BootIs b₀) : (s.segKey c va).1.BootIs b₀ := by
  refine State.pair_ite_boot h ?_
  split
  · have h1 := snd_keeps ‹s.translate _ _ _ _ = _› ((State.translate_memOnly ..).boot h)
    split
    · have h2 := snd_keeps ‹State.leafOf _ _ _ = _› ((State.leafOf_memOnly ..).boot h1)
      exact State.pair_ite_boot h2 (State.pair_ite_boot h2 ((State.countSpan_memOnly ..).boot h2))
    · exact snd_keeps ‹State.leafOf _ _ _ = _› ((State.leafOf_memOnly ..).boot h1)
  · exact snd_keeps ‹s.translate _ _ _ _ = _› ((State.translate_memOnly ..).boot h)

theorem State.segKeys_boot {c : EngCmd} {va n j : Nat} (h : s.BootIs b₀) : (s.segKeys c va n j).1.BootIs b₀ := by
  induction n generalizing s j with
  | zero => exact h
  | succ n ih =>
    unfold State.segKeys
    split <;> exact ih (fst_keeps ‹s.segKey _ _ = _› (State.segKey_boot h))

theorem State.nmvRows_boot {c : EngCmd} {vk rk n r : Nat} (h : s.BootIs b₀) : (s.nmvRows c vk rk n r).1.BootIs b₀ := by
  induction n generalizing s c r with
  | zero => exact h
  | succ n ih =>
    unfold State.nmvRows
    split <;> have h1 := fst_keeps ‹s.segKeys _ _ _ _ = _› (State.segKeys_boot h)
    · exact ih (State.engErrors_boot h1)
    · exact State.pair_ite_boot (ih (State.engErrors_boot h1)) (ih ((State.writeBytes_memOnly ..).boot h1))

theorem execNmvComplete_boot {id : Nat} (h : s.BootIs b₀) : (execNmvComplete id s).BootIs b₀ := by
  unfold execNmvComplete
  split
  · exact h
  · refine Res.ite_boot h (Res.ite_boot (State.engineFlush_boot h) (Res.ite_boot h ?_))
    split
    · exact h
    · split
      · exact State.endCmd_boot (State.nmvRows_boot h)
      · exact h

/-! ### Fences, persistence and waits -/

theorem execFence_boot {p : Pfx} {k : BitVec 2} {c : BitVec 3} (h : s.BootIs b₀) : (execFence p k c s).BootIs b₀ :=
  execBare_boot h fun _ _ ht => State.ite_boot (State.waitOrder_boot ht) ht

theorem State.openPoint_boot {w : Weft} {counted : Bool} {kind lo len st : Nat} (h : s.BootIs b₀) :
    (s.openPoint w counted kind lo len st).BootIs b₀ :=
  (State.checkPersist_steady .refl).boot h

theorem pbarOp_boot {p : Pfx} {mend : Bool} (h : s.BootIs b₀) : (pbarOp p mend s).BootIs b₀ :=
  execBare_boot h fun _ _ ht => State.ite_boot ht (State.ite_boot ht (State.openPoint_boot ht))

theorem execPflush_boot {p : Pfx} {a b : Opnd} (h : s.BootIs b₀) : (execPflush p a b s).BootIs b₀ := by
  refine issue_boot h fun w g => State.ite_boot h (State.ite_boot h ?_)
  dsimp only
  split
  · exact State.openPoint_boot ((State.flushComb_steady .refl).boot h)
  · exact (State.flushComb_steady .refl).boot h

theorem execStepmark_boot {p : Pfx} {d : Opnd} {b : BitVec 7} (h : s.BootIs b₀) : (execStepmark p d b s).BootIs b₀ :=
  issue_boot h fun _ _ => State.ite_boot h (State.ite_boot h ((writeS_steady .refl).boot h))

theorem execWaitc_boot {p : Pfx} {a : Opnd} {b : BitVec 7} (h : s.BootIs b₀) : (execWaitc p a b s).BootIs b₀ := by
  refine execWide_boot h fun t w v ht => State.ite_boot ht ?_
  have h1 {pick} : (if b = 1 then t.flushComb pick else t).BootIs b₀ := State.ite_boot ((State.flushComb_steady .refl).boot ht) ht
  dsimp only
  split <;> exact h1

theorem execWaitq_boot {p : Pfx} {a b : Opnd} (h : s.BootIs b₀) : (execWaitq p a b s).BootIs b₀ := by
  unfold execWaitq
  split
  · trivial
  · refine Res.ite_boot ((State.trapF_steady .refl).boot h) (execWide_boot h fun t w v ht => ?_)
    split
    · exact ht
    · exact State.ite_boot ht ht

theorem execWaitall_boot {p : Pfx} (h : s.BootIs b₀) : (execWaitall p s).BootIs b₀ :=
  execWide_boot h fun _ _ _ ht => State.ite_boot ht ht

/-! ### Queues -/

theorem queueOp_boot {p : Pfx} {uses : List Use} {bad : Weft → Bool} {body : Weft → Plan → State} (h : s.BootIs b₀)
    (hb : ∀ w g, (body w g).BootIs b₀) : (queueOp s p uses bad body).BootIs b₀ := by
  unfold queueOp
  split
  · trivial
  · exact Res.ite_boot ((State.trapF_steady .refl).boot h) (issue_boot h hb)

theorem execQtry_boot {p : Pfx} {d a b : Opnd} (h : s.BootIs b₀) : (execQtry p d a b s).BootIs b₀ := by
  refine Res.ite_boot (queueOp_boot h fun w g => ?_) (queueOp_boot h fun w g => State.ite_boot h ?_)
  · split
    · exact h
    · exact State.pair_ite_boot (writeV_boot h) ((writeS_steady .refl).boot (writeV_boot h))
  · split
    · exact State.ite_boot (State.dataTrap_boot h)
        ((writeS_steady .refl).boot ((writeS_steady .refl).boot ((State.qPop_steady .refl).boot h)))
    · exact (writeS_steady .refl).boot h

theorem execQcount_boot {p : Pfx} {d a : Opnd} (h : s.BootIs b₀) : (execQcount p d a s).BootIs b₀ :=
  queueOp_boot h fun _ _ => State.ite_boot h ((writeS_steady .refl).boot h)

theorem execQputtry_boot {p : Pfx} {d a b : Opnd} (h : s.BootIs b₀) : (execQputtry p d a b s).BootIs b₀ := by
  refine Res.ite_boot (queueOp_boot h fun w g => ?_) (queueOp_boot h fun w g => State.ite_boot h ?_)
  · split
    · exact h
    · exact State.pair_ite_boot h ((writeS_steady .refl).boot h)
  · exact State.pair_ite_boot ((writeS_steady .refl).boot ((State.popUses_steady .refl).boot h))
      ((writeS_steady .refl).boot ((State.qPush_steady .refl).boot ((State.popUses_steady .refl).boot h)))

/-! ### Commands that end, in any boot state -/

theorem State.setQueue_boot {c q : Nat} {x : Queue} (h : s.BootIs b₀) : (s.setQueue c q x).BootIs b₀ := State.ite_boot h h

theorem State.stopQueue_boot {c q code : Nat} (h : s.BootIs b₀) : (s.stopQueue c q code).BootIs b₀ := State.setQueue_boot h

theorem State.failRec_boot {c q code : Nat} {k : Cmd} (h : s.BootIs b₀) : (s.failRec c q k code).BootIs b₀ := by
  unfold State.failRec
  have h1 {x : Queue} : ((s.setQueue c q x).stopQueue c q code).BootIs b₀ := State.stopQueue_boot (State.setQueue_boot h)
  exact State.ite_boot h1 h1

theorem State.failCmd_boot {c q id code : Nat} (h : s.BootIs b₀) : (s.failCmd c q id code).BootIs b₀ := by
  unfold State.failCmd
  dsimp only
  split
  · exact State.failRec_boot h
  · exact h

theorem State.noteRead_memOnly (s : State) (c : Nat) (va : W64) (n : Nat) : s.MemOnly (s.noteRead c va n) := by
  unfold State.noteRead
  split
  · rfl
  · exact State.vaRanges_memOnly _ _ _ _ _ _ ‹_›

theorem State.completionWord_boot {c : Nat} {k : Cmd} {t : State} (h : s.BootIs b₀) (e : s.completionWord c k = some t) :
    t.BootIs b₀ := by
  unfold State.completionWord at e
  dsimp only at e
  split at e
  · cases e; exact h
  · split at e
    · split at e
      · exact (State.vaWrite_memOnly e).boot h
      · split at e
        · exact (State.vaWrite_memOnly e).boot ((State.noteRead_memOnly ..).boot h)
        · cases e
    · split at e
      · cases e
      · exact (State.hostPut_steady .refl e).boot h

theorem State.retestAll_boot (h : s.BootIs b₀) : s.retestAll.BootIs b₀ := by
  unfold State.retestAll
  refine State.foldl_boot (fun _ _ ht => ?_) _ h
  exact ht

theorem State.completeCmd_boot {c q id : Nat} (h : s.BootIs b₀) : (s.completeCmd c q id).BootIs b₀ := by
  unfold State.completeCmd
  dsimp only
  split
  · exact h
  · refine State.ite_boot h ?_
    split
    · exact State.stopQueue_boot (State.setQueue_boot h)
    · have h2 := State.completionWord_boot (State.setQueue_boot h) ‹_›
      exact State.ite_boot (State.ite_boot h2 h2) (State.retestAll_boot (State.ite_boot h2 h2))

/-! ### Steps that run in several boot states and leave BOOTST alone -/

theorem execFabricLinkTrained_boot {plane : Nat} {sport : BitVec 9} (h : s.BootIs b₀) :
    (execFabricLinkTrained plane sport s).BootIs b₀ := by
  unfold execFabricLinkTrained
  refine State.ite_boot h ?_
  exact State.ite_boot (a := State.alert _ _) ((State.alert_boot ..).trans h) h

theorem execPcieLinkTraining_boot {width rate : Nat} {cxl : Bool} (h : s.BootIs b₀) :
    (execPcieLinkTraining width rate cxl s).BootIs b₀ := State.ite_boot h h

theorem execConfigRequest_boot {bar0 : Option (BitVec 64)} (h : s.BootIs b₀) : (execConfigRequest bar0 s).BootIs b₀ := by
  unfold execConfigRequest
  refine State.ite_boot ?_ h
  cases bar0 with
  | none => exact (State.emit_steady .refl).boot h
  | some a => exact (State.emit_steady .refl).boot (State.withHost_boot h)

/-! ### What waits for READY or a boot state of its own does nothing in FAIL -/

/-- Boot stands in FAIL. -/
def State.Failed (s : State) : Prop := s.boot.st = .fail

theorem State.Failed.booting {x : BootSt} (hf : s.Failed) (hx : x ≠ .fail) : s.booting x = false := by
  unfold State.booting
  rw [hf, beq_eq_false_iff_ne.mpr hx.symm, Bool.false_and]

theorem State.Failed.up (hf : s.Failed) : s.up = false := hf.booting (by decide)

theorem State.Failed.serving (hf : s.Failed) : s.serving = false := by
  unfold State.serving
  rw [hf]; rfl

theorem State.Failed.darning (hf : s.Failed) : s.darning = false := by
  rw [State.darning, hf.up, hf.booting (by decide)]; rfl

theorem State.itinRuns_of_down (hu : s.up = false) : s.itinRuns = false := by rw [State.itinRuns, hu]; rfl

theorem State.dispatching_of_down (hu : s.up = false) : s.dispatching = false := by
  rw [State.dispatching, State.itinRuns_of_down hu]; rfl

theorem State.canFetch_of_down {c q : Nat} (hu : s.up = false) : s.canFetch c q = false := by
  simp only [State.canFetch, hu, Bool.false_and]

theorem State.rebuildEnds_of_down {c q f : Nat} (hu : s.up = false) : s.rebuildEnds c q f = false := by
  unfold State.rebuildEnds
  split
  · simp only [hu, Bool.and_false, Bool.false_and]
  · rfl

theorem State.start_of_down {c q : Nat} {is : Cmd → Bool} {f : State → Cmd → State} (hu : s.up = false) :
    s.start c q is f = .next s := by
  unfold State.start
  dsimp only
  split
  · rfl
  · simp only [hu, Bool.not_false, Bool.true_or, if_true]

theorem State.mapOp_of_down {c q op : Nat} (hu : s.up = false) : s.mapOp c q op = .next s := by
  unfold State.mapOp
  split
  · simp [hu]
  · exact State.start_of_down hu

theorem execStepStop_of_down {c q : Nat} (hu : s.up = false) : execStepStop c q s = .next s := by
  have hs : s.startSub c q 9 2 (fun s k => s.startStop c q k) = .next s := State.start_of_down hu
  unfold execStepStop
  rw [hs]
  dsimp only
  split
  · simp [hu]
  · rfl

theorem execMendRebuild_of_down {c q f : Nat} {placed : Bool} (hu : s.up = false) : execMendRebuild c q f placed s = .next s := by
  unfold execMendRebuild
  rw [State.rebuildEnds_of_down hu, State.start_of_down hu]
  exact ite_self _

theorem execCopy_of_down {c q : Nat} (hu : s.up = false) (h : s.BootIs b₀) : (execCopy c q s).BootIs b₀ := by
  unfold execCopy
  split
  · exact State.ite_boot (State.completeCmd_boot h) (State.failCmd_boot h)
  · rw [State.startOp, State.start_of_down hu]
    exact h

theorem execControlInterval_of_down {m : Telemetry} (hu : s.up = false) (h : s.BootIs b₀) :
    (execControlInterval m s).BootIs b₀ := by
  unfold execControlInterval
  simp only [hu, Bool.not_false, if_true]
  exact State.ite_boot (State.powerFails_boot h) h

/-- Before READY a host write reaches MBCTL or nothing. -/
theorem State.Failed.writeHost_boot {off : Nat} {data : List Byte} (hf : s.Failed) (h : s.BootIs b₀) :
    (writeHost off data s).BootIs b₀ := by
  unfold writeHost
  refine Res.ite_boot h ?_
  split
  · exact h
  · next hn =>
    obtain rfl : off = 0x4000 := by
      by_contra ho
      exact hn (.inr (.inr ⟨by rw [hf]; decide, ho⟩))
    exact State.writeMbctl_boot h

theorem State.Failed.execRegisterWrite_boot {port : Port} {off size v : Nat} (hf : s.Failed) (h : s.BootIs b₀) :
    (execRegisterWrite port off size v s).BootIs b₀ := by
  cases port with
  | host => exact hf.writeHost_boot h
  | i3c => exact writeI3c_boot h

theorem State.Failed.execRailFault_boot {rail : Nat} (hf : s.Failed) (hr : rail ≠ 0) (h : s.BootIs b₀) :
    (execRailFault rail s).BootIs b₀ := by
  unfold execRailFault
  rw [if_neg hr, if_pos (c := s.boot.st = .fail) hf]
  have hp : s.startPfail.BootIs b₀ := State.startPfail_boot h
  exact State.ite_boot h (State.ite_boot (State.ite_boot h h) (State.ite_boot (State.ite_boot hp hp) h))

/-! ### Every instruction and every step of the device -/

theorem Res.bootIs_next {t : State} : Res.BootIs b₀ (.next t) ↔ t.BootIs b₀ := Iff.rfl

/-- In FAIL nothing but the loss of VAUX changes BOOTST. The steps that wait for READY or for a boot state of their own come
first, and then what runs in any state and leaves BOOTST alone. -/
theorem State.Failed.exec_boot {i : Instr} (hf : s.Failed) (hv : i ≠ .vauxLoss) (hr : i ≠ .railFault 0) (h : s.BootIs b₀) :
    Res.BootIs b₀ (exec i s) := by
  have hst : s.boot.st = .fail := hf
  have hu : s.up = false := hf.up
  cases i with
  | thermalTripRelease | pkgidWrite | context0Create | accessAnswer | fabricResponse | fabricTimeout | teamPlace | softError |
    backfillComplete | attach | debugHalt | stepLeave | doorbell | errClear | fqReadIndex | patrolScrub | preemptAutoResume |
    contextSave | teardownComplete | stepCommit =>
    simp [execThermalTripRelease, execPkgidWrite, execContext0Create, execAccessAnswer, execFabricResponse, execFabricTimeout,
      execTeamPlace, execSoftError, execBackfillComplete, execAttach, execDebugHalt, execStepLeave, execDoorbell, execErrClear,
      execFqReadIndex, execPatrolScrub, execPreemptAutoResume, execContextSave, execTeardownComplete, execStepCommit, hu,
      Res.bootIs_next, h]
  | recordFetch | controlBlockReread | stallReport | sync | stepend | stependAck | fabricRequest | planeSilenceTimeout |
    switchPortFailed | switchReachabilityReport | doneMessage =>
    simp [execRecordFetch, execControlBlockReread, execStallReport, execSync, execStepend, execStependAck, execFabricRequest,
      execPlaneSilenceTimeout, execSwitchPortFailed, execSwitchReachabilityReport, execDoneMessage, State.canFetch_of_down hu,
      State.itinRuns_of_down hu, State.dispatching_of_down hu, hf.serving, hf.darning, Res.bootIs_next, h]
  | bootStart | bootRom | brchk | ident | fwload | dies | meminit | ready =>
    simp [execBootStart, execBootRom, execBrchk, execIdent, execFwload, execDies, execMeminit, execReady, hst, hf.booting,
      Res.bootIs_next, h]
  | quoteDone | waitvRetest | combineIdleFlush | pipelineStart | teamRetire | timeSliceExpiry | heartbeatSend | memberLoss |
    itineraryDispatch | encodeStep =>
    simp only [exec_quoteDone, exec_waitvRetest, exec_combineIdleFlush, exec_pipelineStart, exec_teamRetire,
      exec_timeSliceExpiry, exec_heartbeatSend, exec_memberLoss, exec_itineraryDispatch, exec_encodeStep, execQuoteDone,
      execWaitvRetest, execCombineIdleFlush, execPipelineStart, execTeamRetire, execTimeSliceExpiry, execHeartbeatSend,
      execMemberLoss, execItineraryDispatch, execEncodeStep, hu, State.dispatching_of_down hu, hf.darning, Bool.not_false,
      Bool.true_or, Bool.false_and, if_true, Bool.false_eq_true, if_false]
    split <;> exact h
  | deferredFaultEvent | fabricEvent | swaitPoll =>
    simp only [exec_deferredFaultEvent, exec_fabricEvent, exec_swaitPoll, execDeferredFaultEvent, execFabricEvent, execSwaitPoll,
      hu, Bool.false_and, Bool.false_eq_true, if_false]
    split
    · exact h
    · split <;> exact h
  | launch | signal | waitv | phase | resume | ctxCreate | ctxDestroy | ctxPreempt | ctxResume | stepLoad | stepStart |
    snapDefineRegion | snapReleaseRegion | snapAwaitStep | mendDeclareGroup | mendGroupRollback =>
    simp only [exec_launch, exec_signal, exec_waitv, exec_phase, exec_resume, exec_ctxCreate, exec_ctxDestroy, exec_ctxPreempt,
      exec_ctxResume, exec_stepLoad, exec_stepStart, exec_snapDefineRegion, exec_snapReleaseRegion, exec_snapAwaitStep,
      exec_mendDeclareGroup, exec_mendGroupRollback, execLaunch, execSignal, execWaitv, execPhase, execResume, execCtxCreate,
      execCtxDestroy, execCtxPreempt, execCtxResume, execStepLoad, execStepStart, execSnapDefineRegion, execSnapReleaseRegion,
      execSnapAwaitStep, execMendDeclareGroup, execMendGroupRollback, State.ctxOp, State.startOp, State.startSub,
      State.start_of_down hu]
    exact h
  | perstRelease =>
    simp only [exec_perstRelease, execPerstRelease, hf.booting (x := .meminit) (by decide), Bool.false_and, Bool.false_eq_true,
      if_false]
    exact h
  | map | unmap =>
    simp only [exec_map, exec_unmap, execMap, execUnmap, State.mapOp_of_down hu]
    exact h
  | stepStop => rw [exec_stepStop, execStepStop_of_down hu]; exact h
  | mendRebuild => rw [exec_mendRebuild, execMendRebuild_of_down hu]; exact h
  | copy => rw [exec_copy]; exact execCopy_of_down hu h
  | controlInterval => rw [exec_controlInterval]; exact execControlInterval_of_down hu h
  | registerWrite => rw [exec_registerWrite]; exact hf.execRegisterWrite_boot h
  | railFault rail => rw [exec_railFault]; exact hf.execRailFault_boot (fun e => hr (congrArg _ e)) h
  | vauxLoss => exact absurd rfl hv
  | perst | i3cDynamicAddressAssignment | i3cEventEnable | i3cReset | detach | run | debugStep | release | droopDetect |
    rationCycleEnd =>
    simp only [exec_perst, exec_i3cDynamicAddressAssignment, exec_i3cEventEnable, exec_i3cReset, exec_detach, exec_run,
      exec_debugStep, exec_release, exec_droopDetect, exec_rationCycleEnd]
    exact h
  | pfail => rw [exec_pfail]; exact State.powerFails_boot h
  | quoteGo | imbQuoteGo =>
    simp only [exec_quoteGo, exec_imbQuoteGo]
    exact State.goQuote_boot h
  | alertClear => rw [exec_alertClear]; exact State.setAlert_boot h
  | pcieLinkTraining => rw [exec_pcieLinkTraining]; exact execPcieLinkTraining_boot h
  | configRequest => rw [exec_configRequest]; exact execConfigRequest_boot h
  | hamperAcceptanceClose => rw [exec_hamperAcceptanceClose]; exact execHamperAcceptanceClose_boot h
  | hamperDrained => rw [exec_hamperDrained]; exact execHamperDrained_boot h
  | sealRecordWrite => rw [exec_sealRecordWrite]; exact execSealRecordWrite_boot h
  | pstepAccept => rw [exec_pstepAccept]; exact execPstepAccept_boot h
  | fabricLinkTrained => rw [exec_fabricLinkTrained]; exact execFabricLinkTrained_boot h
  | starvationForce => rw [exec_starvationForce]; exact execStarvationForce_boot h
  | hamperWriteback => rw [exec_hamperWriteback]; exact execHamperWriteback_boot h
  | hbmRefresh => rw [exec_hbmRefresh]; exact execHbmRefresh_boot h
  | alertBackoff => rw [exec_alertBackoff]; exact execAlertBackoff_boot h
  | pdlExpiry => rw [exec_pdlExpiry]; exact execPdlExpiry_boot h
  | sleepExpiry => rw [exec_sleepExpiry]; exact execSleepExpiry_boot h
  | debugRead => rw [exec_debugRead]; exact execDebugRead_boot h
  | debugWrite => rw [exec_debugWrite]; exact execDebugWrite_boot h
  | i3cPrivateRead => rw [exec_i3cPrivateRead]; exact execI3cPrivateRead_boot h
  | level2Save => rw [exec_level2Save]; exact execLevel2Save_boot h
  | opGlideComplete => rw [exec_opGlideComplete]; exact execOpGlideComplete_boot h
  | capWrite => rw [exec_capWrite]; exact execCapWrite_boot h
  | shcopyCollectiveStart => rw [exec_shcopyCollectiveStart]; exact execShcopyCollectiveStart_boot h
  | kinit => rw [exec_kinit]; exact execKinit_boot h
  | kexpect => rw [exec_kexpect]; exact execKexpect_boot h
  | kwait => rw [exec_kwait]; exact execKwait_boot h
  | shuttleStart => rw [exec_shuttleStart]; exact execShuttleStart_boot h
  | sectorPerformed => rw [exec_sectorPerformed]; exact execSectorPerformed_boot h
  | shuttleComplete => rw [exec_shuttleComplete]; exact execShuttleComplete_boot h
  | matrixKstep => rw [exec_matrixKstep]; exact execMatrixKstep_boot h
  | matrixComplete => rw [exec_matrixComplete]; exact execMatrixComplete_boot h
  | nmvComplete => rw [exec_nmvComplete]; exact execNmvComplete_boot h
  | tret => rw [exec_tret]; exact execTret_boot h
  | waitq => rw [exec_waitq]; exact execWaitq_boot h
  | getsr => rw [exec_getsr]; exact execGetsr_boot h
  | vshape => rw [exec_vshape]; exact execVshape_boot h
  | qtry => rw [exec_qtry]; exact execQtry_boot h
  | qputtry => rw [exec_qputtry]; exact execQputtry_boot h
  | nop => rw [exec_nop]; exact execNop_boot h
  | exit => rw [exec_exit]; exact execExit_boot h
  | yield => rw [exec_yield]; exact execYield_boot h
  | trig => rw [exec_trig]; exact execTrig_boot h
  | rgn => rw [exec_rgn]; exact execRgn_boot h
  | ifence => rw [exec_ifence]; exact execIfence_boot h
  | win => rw [exec_win]; exact execWin_boot h
  | fence => rw [exec_fence]; exact execFence_boot h
  | itnDone => rw [exec_itnDone]; exact execItnDone_boot h
  | barArrive => rw [exec_barArrive]; exact execBarArrive_boot h
  | barWait => rw [exec_barWait]; exact execBarWait_boot h
  | brk => rw [exec_brk]; exact execBrk_boot h
  | setsr => rw [exec_setsr]; exact execSetsr_boot h
  | trap => rw [exec_trap]; exact execTrap_boot h
  | vlset => rw [exec_vlset]; exact execVlset_boot h
  | xset => rw [exec_xset]; exact execXset_boot h
  | xclr => rw [exec_xclr]; exact execXclr_boot h
  | pflush => rw [exec_pflush]; exact execPflush_boot h
  | stepmark => rw [exec_stepmark]; exact execStepmark_boot h
  | karrive => rw [exec_karrive]; exact execKarrive_boot h
  | ktest => rw [exec_ktest]; exact execKtest_boot h
  | kinval => rw [exec_kinval]; exact execKinval_boot h
  | mcfg => rw [exec_mcfg]; exact execMcfg_boot h
  | nmv => rw [exec_nmv]; exact execNmv_boot h
  | nmvcfg => rw [exec_nmvcfg]; exact execNmvcfg_boot h
  | itnNext => rw [exec_itnNext]; exact execItnNext_boot h
  | itnStash => rw [exec_itnStash]; exact execItnStash_boot h
  | itnFree => rw [exec_itnFree]; exact execItnFree_boot h
  | itnPost => rw [exec_itnPost]; exact execItnPost_boot h
  | sleep => rw [exec_sleep]; exact execSleep_boot h
  | br => rw [exec_br]; exact execBr_boot h
  | brz => rw [exec_brz]; exact execBrz_boot h
  | brnz => rw [exec_brnz]; exact execBrnz_boot h
  | brem => rw [exec_brem]; exact execBrem_boot h
  | loop => rw [exec_loop]; exact execLoop_boot h
  | call => rw [exec_call]; exact execCall_boot h
  | jmp => rw [exec_jmp]; exact execJmp_boot h
  | callr => rw [exec_callr]; exact execCallr_boot h
  | waitc => rw [exec_waitc]; exact execWaitc_boot h
  | waitall => rw [exec_waitall]; exact execWaitall_boot h
  | sadd | ssub | smul | smulhi | smulhn | sand | sor | sxor | sandn | sshl | sshr | ssra | smin | smax | sminn | smaxn | seq
    | sne | slt | sle | sltn | slen =>
    simp only [exec_sadd, exec_ssub, exec_smul, exec_smulhi, exec_smulhn, exec_sand, exec_sor, exec_sxor, exec_sandn, exec_sshl,
      exec_sshr, exec_ssra, exec_smin, exec_smax, exec_sminn, exec_smaxn, exec_seq, exec_sne, exec_slt, exec_sle, exec_sltn,
      exec_slen]
    exact scalar2_boot h
  | sclz | spopc | sffs | sbrev | saddi | sandi | sori | sxori =>
    simp only [exec_sclz, exec_spopc, exec_sffs, exec_sbrev, exec_saddi, exec_sandi, exec_sori, exec_sxori]
    exact scalar1_boot h
  | sli | xget | stepq | itnStat | lnchq =>
    simp only [exec_sli, exec_xget, exec_stepq, exec_itnStat, exec_lnchq]
    exact execScalar_boot h
  | vadd | vsub | vmul | vmulhi | vmulhn | vand | vor | vxor | vandn | vshl | vshr | vsra | vmin | vmax | vminn | vmaxn |
    vabsd | vsadd | vssub | vsaddn | vssubn | vbfe | vbfes | fcpys | hcpys | vperm =>
    simp only [exec_vadd, exec_vsub, exec_vmul, exec_vmulhi, exec_vmulhn, exec_vand, exec_vor, exec_vxor, exec_vandn, exec_vshl,
      exec_vshr, exec_vsra, exec_vmin, exec_vmax, exec_vminn, exec_vmaxn, exec_vabsd, exec_vsadd, exec_vssub, exec_vsaddn,
      exec_vssubn, exec_vbfe, exec_vbfes, exec_fcpys, exec_hcpys, exec_vperm]
    exact vec2_boot h
  | vmad | vbfi =>
    simp only [exec_vmad, exec_vbfi]
    exact vec3_boot h
  | vabs | vclz | vpopc | vbrev | fabs | fneg | fclass | habs | hneg | cvtE8m0F32 | vmov =>
    simp only [exec_vabs, exec_vclz, exec_vpopc, exec_vbrev, exec_fabs, exec_fneg, exec_fclass, exec_habs, exec_hneg,
      exec_cvtE8m0F32, exec_vmov]
    exact vec1_boot h
  | vaddw | vsubw =>
    simp only [exec_vaddw, exec_vsubw]
    exact wide2_boot h
  | vaddi | vandi | vshli | vshri | vsrai | vmuli =>
    simp only [exec_vaddi, exec_vandi, exec_vshli, exec_vshri, exec_vsrai, exec_vmuli]
    exact vecI_boot h
  | vcmp | vcmph =>
    simp only [exec_vcmp, exec_vcmph]
    exact compare2_boot h
  | fadd | fsub | fmul | fdiv =>
    simp only [exec_fadd, exec_fsub, exec_fmul, exec_fdiv]
    exact f2_boot h
  | ffma | ffms | fnma | fnms =>
    simp only [exec_ffma, exec_ffms, exec_fnma, exec_fnms]
    exact f3_boot h
  | fmin | fmax | fminn | fmaxn =>
    simp only [exec_fmin, exec_fmax, exec_fminn, exec_fmaxn]
    exact f2raw_boot h
  | fsqrt | frcp | frsq | fexp2 | flog2 | fsin | fcos | frint =>
    simp only [exec_fsqrt, exec_frcp, exec_frsq, exec_fexp2, exec_flog2, exec_fsin, exec_fcos, exec_frint]
    exact f1_boot h
  | ffloor | fceil | ftrunc =>
    simp only [exec_ffloor, exec_fceil, exec_ftrunc]
    exact fInt_boot h
  | fscale | hfma | hdot2 | cvtI8F32 =>
    simp only [exec_fscale, exec_hfma, exec_hdot2, exec_cvtI8F32]
    exact float_boot h
  | hadd | hsub | hmul =>
    simp only [exec_hadd, exec_hsub, exec_hmul]
    exact h2_boot h
  | hmin | hmax | hminn | hmaxn =>
    simp only [exec_hmin, exec_hmax, exec_hminn, exec_hmaxn]
    exact h2raw_boot h
  | cvtF32I32 | cvtF32N32 =>
    simp only [exec_cvtF32I32, exec_cvtF32N32]
    exact cvtFromInt_boot h
  | cvtI32F32 | cvtN32F32 =>
    simp only [exec_cvtI32F32, exec_cvtN32F32]
    exact cvtToInt_boot h
  | cvtF32F16 | cvtF32Bf16 | cvtF32E4m3 | cvtF32E5m2 | cvtF32E2m1 | cvtF32I8 | cvtF32E8m0 | cvtF32N8 =>
    simp only [exec_cvtF32F16, exec_cvtF32Bf16, exec_cvtF32E4m3, exec_cvtF32E5m2, exec_cvtF32E2m1, exec_cvtF32I8,
      exec_cvtF32E8m0, exec_cvtF32N8]
    exact cvtSelect_boot h
  | cvtF16x2F32 | cvtBf16x2F32 =>
    simp only [exec_cvtF16x2F32, exec_cvtBf16x2F32]
    exact cvtPack_boot h
  | cvtE4m3F32 | cvtE5m2F32 | cvtE2m1F32 =>
    simp only [exec_cvtE4m3F32, exec_cvtE5m2F32, exec_cvtE2m1F32]
    exact cvtShiftIn_boot h
  | vbcast | vlget | vaffine | vballot | vbits =>
    simp only [exec_vbcast, exec_vlget, exec_vaffine, exec_vballot, exec_vbits]
    exact execVec_boot h
  | vshup | vshdn | vshxor =>
    simp only [exec_vshup, exec_vshdn, exec_vshxor]
    exact shiftLanes_boot h
  | vredAddI32 | vredMinI32 | vredMaxI32 | vredAnd | vredOr | vredXor =>
    simp only [exec_vredAddI32, exec_vredMinI32, exec_vredMaxI32, exec_vredAnd, exec_vredOr, exec_vredXor]
    exact reduceInt_boot h
  | vredAddF32 | vredMinF32 | vredMaxF32 =>
    simp only [exec_vredAddF32, exec_vredMinF32, exec_vredMaxF32]
    exact reduceOp_boot h
  | vscanAddI32 | vscanAddF32 =>
    simp only [exec_vscanAddI32, exec_vscanAddF32]
    exact execFold_boot h
  | vargmaxF32 | vargminF32 =>
    simp only [exec_vargmaxF32, exec_vargminF32]
    exact extremum_boot h
  | xoff | xadd =>
    simp only [exec_xoff, exec_xadd]
    exact xWrite_boot h
  | xgetc => rw [exec_xgetc]; exact execLanes_boot h
  | mif | melse | mend | mset | mget | elect | mwhile =>
    simp only [exec_mif, exec_melse, exec_mend, exec_mset, exec_mget, exec_elect, exec_mwhile]
    exact maskOp_boot h
  | bru => rw [exec_bru]; exact execBru_boot h
  | jmpv => rw [exec_jmpv]; exact execJmpv_boot h
  | ld | lds =>
    simp only [exec_ld, exec_lds]
    exact loadOp_boot h
  | st | sts =>
    simp only [exec_st, exec_sts]
    exact storeOp_boot h
  | atomAddI32 | atomAddI64 | atomAddF32 | atomMinI32 | atomMaxI32 | atomMinN32 | atomMaxN32 | atomMinN64 | atomMaxN64 |
    atomAndB32 | atomOrB32 | atomXorB32 | atomXchgB32 | atomXchgB64 | atomFminF32 | atomFmaxF32 | atomAddBf16x2 | atomsAddI32 |
    atomsAddI64 | atomsAddF32 | atomsMinI32 | atomsMaxI32 | atomsMinN32 | atomsMaxN32 | atomsMinN64 | atomsMaxN64 | atomsAndB32
    | atomsOrB32 | atomsXorB32 | atomsXchgB32 | atomsXchgB64 | atomsFminF32 | atomsFmaxF32 | atomsAddBf16x2 =>
    simp only [exec_atomAddI32, exec_atomAddI64, exec_atomAddF32, exec_atomMinI32, exec_atomMaxI32, exec_atomMinN32,
      exec_atomMaxN32, exec_atomMinN64, exec_atomMaxN64, exec_atomAndB32, exec_atomOrB32, exec_atomXorB32, exec_atomXchgB32,
      exec_atomXchgB64, exec_atomFminF32, exec_atomFmaxF32, exec_atomAddBf16x2, exec_atomsAddI32, exec_atomsAddI64,
      exec_atomsAddF32, exec_atomsMinI32, exec_atomsMaxI32, exec_atomsMinN32, exec_atomsMaxN32, exec_atomsMinN64,
      exec_atomsMaxN64, exec_atomsAndB32, exec_atomsOrB32, exec_atomsXorB32, exec_atomsXchgB32, exec_atomsXchgB64,
      exec_atomsFminF32, exec_atomsFmaxF32, exec_atomsAddBf16x2]
    exact atomOp_boot h
  | atomCasB32 | atomCasB64 | atomsCasB32 | atomsCasB64 =>
    simp only [exec_atomCasB32, exec_atomCasB64, exec_atomsCasB32, exec_atomsCasB64]
    exact casOp_boot h
  | sigAdd | sigSet =>
    simp only [exec_sigAdd, exec_sigSet]
    exact sigOp_boot h
  | swaitGe | swaitEq | swaitNe =>
    simp only [exec_swaitGe, exec_swaitEq, exec_swaitNe]
    exact swaitOp_boot h
  | pbarPkg | pbarMend =>
    simp only [exec_pbarPkg, exec_pbarMend]
    exact pbarOp_boot h
  | shcopy | shtile | shgath | shscat | shfill =>
    simp only [exec_shcopy, exec_shtile, exec_shgath, exec_shscat, exec_shfill]
    exact shuttleOp_boot h
  | mzero | mloop | mstep | mcvt | mscal =>
    simp only [exec_mzero, exec_mloop, exec_mstep, exec_mcvt, exec_mscal]
    exact matOp_boot h
  | lnch | lnchDep =>
    simp only [exec_lnch, exec_lnchDep]
    exact launchOp_boot h
  | barTeam | barRole =>
    simp only [exec_barTeam, exec_barRole]
    exact barBoth_boot h
  | qcount => rw [exec_qcount]; exact execQcount_boot h

theorem exec_vauxLoss_off : ∃ t, exec .vauxLoss s = .next t ∧ t.boot.st = .off := ⟨s.unpowered, rfl, rfl⟩

theorem State.Failed.exec_railFault_vaux (hf : s.Failed) : exec (.railFault 0) s = exec .vauxLoss s :=
  Machine.exec_railFault_vaux (by rw [hf]; decide)

/-- Settles O59: with VAUX standing no step changes BOOTST in FAIL, and its loss leaves boot OFF. -/
theorem failIsLeftOnlyByPowerLoss : Obligations.FailIsLeftOnlyByPowerLoss := by
  unfold Obligations.FailIsLeftOnlyByPowerLoss
  intro i s t hf he
  have hf : s.Failed := hf
  obtain ⟨u, hu, hoff⟩ := exec_vauxLoss_off (s := s)
  by_cases hv : i = .vauxLoss
  · obtain rfl : u = t := Host.Outcome.next.inj (hu.symm.trans (hv ▸ he))
    exact .inr ⟨hoff, .inl hv⟩
  · by_cases hr : i = .railFault 0
    · obtain rfl : u = t := Host.Outcome.next.inj (hu.symm.trans (hf.exec_railFault_vaux.symm.trans (hr ▸ he)))
      exact .inr ⟨hoff, .inr hr⟩
    · have hb : Res.BootIs s.boot (exec i s) := hf.exec_boot hv hr rfl
      rw [he] at hb
      exact .inl ((congrArg Boot.st hb).trans hf)

end Sys2Proof.Machine
end

section
/-! PROOF of O54. Non-canonical addresses take PAGE. -/

namespace Sys2Proof.Machine

/-- Bit `k` of a field of a number is the bit of the number above the field's lowest (R10). -/
theorem testBit_field (x lo width k : Nat) : (field x lo width).testBit k = (decide (k < width) && x.testBit (lo + k)) := by
  rw [field, Nat.testBit_mod_two_pow, Nat.testBit_shiftRight]

/-- An address with bit 63 zero and one of bits 62 to 56 set is non-canonical (R38). -/
theorem nonCanonical_of_bit {va : W64} {k : Nat} (h63 : va.getLsbD 63 = false) (h56 : 56 ≤ k) (h62 : k ≤ 62)
    (hk : va.getLsbD k = true) : nonCanonical va = true := by
  have hbit : (field va.toNat 56 7).testBit (k - 56) = true := by
    rw [testBit_field, show 56 + (k - 56) = k by omega]
    rw [decide_eq_true (show k - 56 < 7 by omega)]
    exact hk
  have hne : field va.toNat 56 7 ≠ 0 := by
    intro h0
    rw [h0, Nat.zero_testBit] at hbit
    cases hbit
  rw [nonCanonical, h63]
  simpa using hne

theorem State.translate_nonCanonical (s : State) (c st : Nat) (ask : Ask) {va : W64} (h : nonCanonical va = true) :
    s.translate c va ask st = (.page, s) := if_pos h

/-- A channel answers PAGE to a lane whose address translates to PAGE (R50). -/
theorem State.verdict_page {s s1 : State} {a : Access} {l : LaneAcc} (rep : Nat → Bool)
    (h : s.translate a.ctx l.ea a.kind.ask a.step = (.page, s1)) : s.verdict rep a l = (s1, { l with st := .bad .page 0 }) := by
  rw [State.verdict, h]

/-- Settles O54: such an address is non-canonical, so the walk ends before any table is read. -/
theorem nonCanonicalAddressesFault : Obligations.NonCanonicalAddressesFault := by
  unfold Obligations.NonCanonicalAddressesFault
  rintro s c st ask va rep a l h63 ⟨k, h56, h62, hk⟩ rfl
  have hva := nonCanonical_of_bit h63 h56 h62 hk
  exact ⟨s.translate_nonCanonical c st ask hva, State.verdict_page rep (s.translate_nonCanonical _ _ _ hva)⟩

end Sys2Proof.Machine
end

section
/-! PROOF of O27. Memory instructions start one access, and the checks of a lane that are known at issue. -/

namespace Sys2Proof.Machine

/-! ### Order and issue of a memory group -/

theorem State.ordGate_plain {s : State} {w : Weft} {p : Pfx} {empty : Bool} {k : State → State} (h : p.ord = 0) :
    s.ordGate w p empty k = k s := by
  simp [State.ordGate, h]

/-- The ORD bits of a group with an active lane let it issue once its release may complete (R251, R252). -/
theorem State.ordGate_active {s : State} {w : Weft} {p : Pfx} {k : State → State}
    (h : p.ord = 2 ∨ p.ord = 3 → s.Released w p.scope) : s.ordGate w p false k = k s := by
  unfold State.ordGate
  split
  case h_1 h2 => exact release_next (h (.inl h2)) k
  case h_2 h3 => exact release_next (h (.inr h3)) k
  case h_3 => rfl
  case h_4 => rfl

theorem Weft.cntFull_eq_false {w : Weft} {c : Option Nat} (h : ∀ n, c = some n → w.count n < 1023) : w.cntFull c = false := by
  cases c with
  | none => rfl
  | some n => simpa [Weft.cntFull] using h n rfl

section
variable {s : State} {w : Weft} {p : Pfx} {uses : List Use} {g : Plan}

/-- A memory group with an active lane starts its access when nothing that it waits for is outstanding. -/
theorem memGroup_starts {writes : Bool} {mk : State → Weft → Plan → Access} {range : Weft → Option (Nat × Nat)} {acc : Access}
    (h : s.Issues w p uses .active g) (hm : g.m ≠ 0) (hmk : mk s w g = acc) (hw : acc.kind.writes = writes) (hs : s.MayStart w p acc) :
    memGroup s p uses false writes mk range = .next (s.startAccess w acc (range w)) := by
  obtain ⟨hord, hacq, hcnt, hcap⟩ := hs
  have hloads : (writes && s.loadsOpen w) = false := by
    cases writes with
    | false => rfl
    | true => exact hacq hw
  rw [memGroup, issue_of_issues h, if_neg hm, State.ordGate_active hord]
  simp [hloads, hmk, Weft.cntFull_eq_false hcnt, hcap]

/-- With no active lane a memory group without ORD bits only issues. -/
theorem memGroup_empty {spad writes : Bool} {mk : State → Weft → Plan → Access} {range : Weft → Option (Nat × Nat)}
    (h : s.Issues w p uses .active g) (hm : g.m = 0) (ho : p.ord = 0) :
    memGroup s p uses spad writes mk range = .next (s.passes w p) := by
  rw [memGroup, issue_of_issues h, if_pos hm, State.ordGate_plain ho]
  rfl

/-- A signal starts its access once the release that comes with it may complete (R418, R256). -/
theorem sigOp_starts {a b : Opnd} (h : s.Issues w p [srcS .a a, srcS .b b] .active g) (hr : s.Released w p.scope) (hm : g.m ≠ 0)
    (hc : s.capOpen w.core (sigLane (s.sVal w a) (s.sVal w b).toNat g.m) = true) (kind : AccKind) :
    sigOp p a b kind s = .next (s.startAccess w
      { baseAccess s w p g kind 8 (sigLane (s.sVal w a) (s.sVal w b).toNat g.m) with scalar := true, gm := 0 } none) := by
  rw [sigOp, issue_of_issues h, release_next hr, if_neg hm]
  simp [baseAccess, hc]

theorem sigOp_empty {a b : Opnd} (h : s.Issues w p [srcS .a a, srcS .b b] .active g) (hr : s.Released w p.scope) (hm : g.m = 0)
    (kind : AccKind) : sigOp p a b kind s = .next (s.passes w p) := by
  rw [sigOp, issue_of_issues h, release_next hr, if_pos hm]
  rfl

theorem swaitOp_starts {d a b : Opnd} (h : s.Issues w p [srcS .a a, srcS .b b, dstS d] .active g) (hm : g.m ≠ 0)
    (hc : s.capOpen w.core (sigLane (s.sVal w a) 0 g.m) = true) (cond : Nat) :
    swaitOp p d a b cond s = .next (s.startAccess w
      { baseAccess s w p g (.swait cond (s.sVal w b)) 8 (sigLane (s.sVal w a) 0 g.m) with
        scalar := true, gm := 0, acq := true, dst := destOf w g d 1 } none) := by
  rw [swaitOp, issue_of_issues h, if_neg hm]
  simp [baseAccess, hc]

/-- With no active lane a `swait` is an acquire fence (R419). -/
theorem swaitOp_empty {d a b : Opnd} (h : s.Issues w p [srcS .a a, srcS .b b, dstS d] .active g) (hm : g.m = 0)
    (hf : s.AcqFenced w p.scope) (cond : Nat) : swaitOp p d a b cond s = .next (s.passes w p) := by
  rw [swaitOp, issue_of_issues h, if_pos hm, fenceAcq_next hf]
  rfl

/-- An atomic is counted on c0 when it returns a value and on c1 when it does not (R229). -/
theorem atomic_counter (d : Opnd) : (if (d != .zero) = true then 0 else 1) = if d = .zero then 1 else 0 := by
  by_cases hd : d = .zero <;> simp [hd]

/-- An atomic with one operand starts one access of its minor (R412, R413). -/
theorem atomOp_starts {d a b : Opnd} {minor : BitVec 5} {size : Nat} (hz : atomSize minor.toNat = size) :
    let uses := [baseUse a false, srcV .b b (regsOf size), dstV d (regsOf size)]
    let vs := s.vVals w g uses
    let acc := { baseAccess s w p g (.atomic minor (d != .zero)) size
      ((accLanes g.m false).map fun l =>
        mkLane g.bad (xlGm p) size (laneEa (vs.getD 0 []) (.u 0) 0 (xlDisp p) l) (laneData (vs.getD 1 []) size l) 0 l) with
      dst := destOf w g d (regsOf size), cnt := some (if d = .zero then 1 else 0), acq := p.ord == 3 || p.ord == 1 }
    s.Issues w p uses .active g →
    (g.m ≠ 0 → s.MayStart w p acc → atomOp p d a b minor false s = .next (s.startAccess w acc (busyOf d w)))
    ∧ (g.m = 0 → p.ord = 0 → atomOp p d a b minor false s = .next (s.passes w p)) := by
  subst hz
  intro uses vs acc h
  refine ⟨fun hm hs => memGroup_starts h hm ?_ rfl hs, memGroup_empty h⟩
  dsimp only
  rw [atomic_counter]
  rfl

/-- A compare and swap starts one access with the compare and the swap value of each lane (R415). -/
theorem casOp_starts {d a : Opnd} {minor : BitVec 5} {size : Nat} (hz : atomSize minor.toNat = size) :
    let r := regsOf size
    let uses := [baseUse a false, srcV .ds d (2 * r), dstV d r]
    let vs := s.vVals w g uses
    let acc := { baseAccess s w p g (.atomic minor true) size
      ((accLanes g.m false).map fun l =>
        mkLane g.bad (xlGm p) size (laneEa (vs.getD 0 []) (.u 0) 0 (xlDisp p) l) (laneData ((vs.getD 1 []).take r) size l)
          (laneData ((vs.getD 1 []).drop r) size l) l) with
      dst := destOf w g d r, cnt := some 0, acq := p.ord == 3 || p.ord == 1 }
    s.Issues w p uses .active g →
    (g.m ≠ 0 → s.MayStart w p acc → casOp p d a minor false s = .next (s.startAccess w acc none))
    ∧ (g.m = 0 → p.ord = 0 → casOp p d a minor false s = .next (s.passes w p)) := by
  subst hz
  intro r uses vs acc h
  exact ⟨fun hm hs => memGroup_starts h hm rfl rfl hs, memGroup_empty h⟩

end

/-! ### The address and the checks of a lane -/

theorem signExtend_eq_ofInt (x : W32) : x.signExtend 64 = BitVec.ofInt 64 x.toInt := rfl

theorem join64_eq_ofInt (lo hi : W32) : join64 lo hi = BitVec.ofInt 64 (lo.toNat + 2 ^ 32 * hi.toNat) := by
  have hcast : ((lo.toNat : Int) + 2 ^ 32 * (hi.toNat : Int)) = ((lo.toNat + 2 ^ 32 * hi.toNat : Nat) : Int) := by push_cast; rfl
  rw [hcast, BitVec.ofInt_natCast]
  apply BitVec.eq_of_toNat_eq
  have hlo := lo.isLt
  have hhi := hi.isLt
  rw [join64, BitVec.toNat_append, ← Nat.shiftLeft_add_eq_or_of_lt hlo, Nat.shiftLeft_eq, BitVec.toNat_ofNat, Nat.mod_eq_of_lt (by omega)]
  omega

/-- The address of a lane is the base plus the scaled index plus the displacement, modulo 2^64 (R407). -/
theorem laneEa_eq_ofInt (lo hi idx : VVal) (scale : Nat) (disp : W64) (l : Nat) :
    laneEa [lo, hi] idx scale disp l
      = BitVec.ofInt 64 ((lo.lane l).toNat + 2 ^ 32 * (hi.lane l).toNat + (idx.lane l).toInt * scale + disp.toInt) := by
  rw [BitVec.ofInt_add, BitVec.ofInt_add, BitVec.ofInt_mul, BitVec.ofInt_toInt, ← join64_eq_ofInt, ← signExtend_eq_ofInt,
    BitVec.ofInt_natCast]
  rfl

/-- The bytes of an aligned access of up to 16 bytes lie in one 16-byte granule (R43). -/
theorem granule_of_aligned {z k ea : Nat} (hz : z ≤ 4) (hk : k < 2 ^ z) (hea : ea % 2 ^ z = 0) :
    (ea + k) % 128 / 16 = ea % 128 / 16 := by
  interval_cases z <;> norm_num at hk hea <;> omega

theorem gmBad_of_aligned {gm : BitVec 8} {ea : W64} {z : Nat} (hz : z ≤ 4) (hea : ea.toNat % 2 ^ z = 0) :
    gmBad gm ea (2 ^ z) = true ↔ gm ≠ 0 ∧ gm.getLsbD (ea.toNat % 128 / 16) = false := by
  simp only [gmBad, Bool.and_eq_true, bne_iff_ne, List.any_eq_true, List.mem_range, Bool.not_eq_true']
  refine and_congr_right fun _ => ⟨?_, fun h => ⟨0, Nat.two_pow_pos z, by simpa using h⟩⟩
  rintro ⟨k, hk, h⟩
  rwa [granule_of_aligned hz hk hea] at h

section
variable {bad : W64} {gm : BitVec 8} {ea : W64} {data swap l size : Nat}

theorem mkLane_bound (h : bad.getLsbD l = true) : (mkLane bad gm size ea data swap l).st = .bad .bound 0 := if_pos h

theorem mkLane_align (h : bad.getLsbD l = false) (ha : ea.toNat % size ≠ 0 ∨ gmBad gm ea size = true) :
    (mkLane bad gm size ea data swap l).st = .bad .align 0 := by
  simp [mkLane, inMask, h, ha]

theorem mkLane_waiting (h : bad.getLsbD l = false) (ha : ea.toNat % size = 0) (hg : ¬ gmBad gm ea size = true) :
    (mkLane bad gm size ea data swap l).st = .waiting := by
  simp [mkLane, inMask, h, ha, hg]

end

/-! ### The instructions -/

/-- Settles O27: each form by the lemma of its operation, a lane by its address and its three outcomes. -/
theorem memoryInstructionsAndLaneChecks : Obligations.MemoryInstructionsAndLaneChecks := by
  unfold Obligations.MemoryInstructionsAndLaneChecks
  refine ⟨fun s w p d a b k x sz g => ⟨fun h => ?load, fun h => ?store, fun minor i hi h => ?atomic, fun minor i hi h => ?cas,
    fun h hr => ?signal, fun h => ?swait⟩, laneEa_eq_ofInt, fun bad gm z l ea data swap hz => ?checks⟩
  case load =>
    simp only [exec_ld]
    exact ⟨fun hm hs => memGroup_starts h hm rfl rfl hs, memGroup_empty h⟩
  case store =>
    simp only [exec_st]
    exact ⟨fun hm hs => memGroup_starts h hm rfl rfl hs, memGroup_empty h⟩
  case atomic =>
    simp only [List.mem_cons, Prod.mk.injEq, List.not_mem_nil, or_false] at hi
    obtain ⟨rfl, rfl⟩ | ⟨rfl, rfl⟩ | ⟨rfl, rfl⟩ | ⟨rfl, rfl⟩ | ⟨rfl, rfl⟩ | ⟨rfl, rfl⟩ | ⟨rfl, rfl⟩ | ⟨rfl, rfl⟩ | ⟨rfl, rfl⟩ |
      ⟨rfl, rfl⟩ | ⟨rfl, rfl⟩ | ⟨rfl, rfl⟩ | ⟨rfl, rfl⟩ | ⟨rfl, rfl⟩ | ⟨rfl, rfl⟩ | ⟨rfl, rfl⟩ | ⟨rfl, rfl⟩ := hi <;>
      exact atomOp_starts rfl h
  case cas =>
    simp only [List.mem_cons, Prod.mk.injEq, List.not_mem_nil, or_false] at hi
    obtain ⟨rfl, rfl⟩ | ⟨rfl, rfl⟩ := hi <;> exact casOp_starts rfl h
  case signal =>
    simp only [exec_sigAdd, exec_sigSet]
    exact ⟨fun hm hc => ⟨sigOp_starts h hr hm hc _, sigOp_starts h hr hm hc _⟩, fun hm => ⟨sigOp_empty h hr hm _, sigOp_empty h hr hm _⟩⟩
  case swait =>
    simp only [exec_swaitGe, exec_swaitEq, exec_swaitNe]
    exact ⟨fun hm hc => ⟨swaitOp_starts h hm hc _, swaitOp_starts h hm hc _, swaitOp_starts h hm hc _⟩,
      fun hm hf => ⟨swaitOp_empty h hm hf _, swaitOp_empty h hm hf _, swaitOp_empty h hm hf _⟩⟩
  case checks =>
    refine ⟨mkLane_bound, fun hb ha => mkLane_align hb (.inl ha), fun hb ha hg => ?_, fun hb ha hg => ?_⟩
    · exact mkLane_align hb (.inr ((gmBad_of_aligned hz ha).2 hg))
    · exact mkLane_waiting hb ha fun h => hg ((gmBad_of_aligned hz ha).1 h)

end Sys2Proof.Machine
end

section
/-! PROOF of O41. STEP stop is also the event that ends a stop of its queue which waits (R150): while the tasks of the first one
run, a second stop with a reserved flag stands at the head of the queue and does not fail. -/

namespace Sys2Proof.Machine

/-- A STEP stop with reserved bits set in FLAGS (R115, R492). -/
def reservedFlagStop : Cmd :=
  { id := 1, op := 9, flags := 16, tag := 0, sigaddr := 0, sigval := 0, pay := leBytes 40 2, pend := [] }

/-- The STEP stop before it, which has started. -/
def startedStop : Cmd := { reservedFlagStop with id := 0, flags := 0 }

/-- A task that has not retired. -/
def unretiredTask : Task :=
  { slot := 0, entry := 0, kind := 0, mb := 0, serial := 1, nout := 0, resBase := 0, posts := 0, usedA := false, usedG := false
    freeAtEnd := false }

/-- Context 0 runs; a STEP stop of its queue 0 waits for a task to retire, and another one with a reserved flag is the next command. -/
def stopBehindStop : State :=
  { State.reset with
    boot := { Boot.init with st := .ready }
    ctxs := [{ Context.free with st := .running }]
    queues := [((0, 0), { Queue.off with en := true, st := 1, fetched := [reservedFlagStop], running := [startedStop] })]
    itin := { Itin.init with bound := some 0, loaded := true, st := 1, tasks := [unretiredTask], stopper := some (0, 0, 0) } }

/-- The event finds the first stop waiting, and changes nothing. -/
theorem exec_stepStop_behind : exec (.stepStop 0 0) stopBehindStop = .next stopBehindStop := by
  rw [exec_stepStop]
  rfl

/-- Refutes O41: while a STEP stop of the queue waits for its tasks, the next stop's bad field does not stop the queue. -/
theorem not_commandQueuesAndCommands : ¬ Obligations.CommandQueuesAndCommands := by
  unfold Obligations.CommandQueuesAndCommands
  intro h
  have hsub : reservedFlagStop.sub = 2 := by decide
  obtain ⟨t, ht, ⟨hst, -⟩, -⟩ := h.1.2 stopBehindStop 0 0 reservedFlagStop [] (.stepStop 0 0) rfl rfl rfl rfl rfl (by decide) rfl
    (.inl (by rw [hsub]; simp [reservedFlagStop]))
  rw [exec_stepStop_behind] at ht
  obtain rfl := Host.Outcome.next.inj ht
  exact absurd hst (by decide)

end Sys2Proof.Machine
end

section
/-! PROOF of O47. A peer's read of a page of a snapshot pool is an access to the pool (R175): it leaves the contents of every snapshot
frame of the context undefined, so memory is not as it was. -/

namespace Sys2Proof.Machine

/-! ### Memory after an access to a pool -/

/-- A byte of a frame whose contents are undefined is the free value drawn for it (R175). -/
theorem State.get_undefine_frame (s : State) (k : Nat) (h : s.Inv) : Memory.get (s.undefine [k]).mem k = Config.freeByte s.draws k := by
  have hnodup : (((List.range 4096).map fun i => (k + i, Config.freeByte s.draws (k + i))).map Prod.fst).Nodup := by
    rw [List.map_map]
    exact List.nodup_range.map fun i j hij => Nat.add_left_cancel hij
  have hfirst : cellAt k ((List.range 4096).map fun i => (k + i, Config.freeByte s.draws (k + i))) = some (Config.freeByte s.draws k) := by
    rw [show (4096 : Nat) = 4095 + 1 from rfl, List.range_succ_eq_map]
    exact if_pos (Nat.add_zero k)
  rw [State.undefine, List.flatMap_singleton, get_setAll_cellAt _ _ _ h hnodup, hfirst, Option.getD_some]

/-- Taking a request in changes memory as serving it does. -/
theorem State.takeRequest_mem (s : State) (r : FabReq) : (s.takeRequest r).mem = (s.serve r).1.mem := by
  have hreply : ∀ (t : State) (x : FabResult), (t.reply r x).mem = t.mem := by
    intro t x
    unfold State.reply
    split
    · rfl
    · split <;> rfl
  unfold State.takeRequest
  split
  · rename_i he
    rw [he]
    split <;> rfl
  · rename_i he
    rw [he]
    dsimp only
    split
    · exact hreply _ _
    · exact hreply _ _

/-! ### The package and the request -/

/-- The first byte of the pool's one frame, and of the one frame of the armed unit. -/
def poolKey : Nat := scmKey 0 0
def unitKey : Nat := scmKey 1 0

/-- A byte that is neither 0 nor the free value drawn for the unit's first byte. -/
def heldValue : Byte := if Config.freeByte 0 unitKey = 1 then 2 else 1

/-- The armed unit at the second SCM page, and its region, whose pool has given the frame of the first page. -/
def armedUnit : SnapUnit :=
  { region := 0, va := 2 ^ 55 + 4096, chan := 1, home := unitKey, frames := [{ key := unitKey, tag := 0, taken := [] }], landing := none }

def armedRegion : Region :=
  { num := 0, ctx := 0, va := 2 ^ 55 + 4096, len := 4096, pools := [(2 ^ 55, 4096)], given := [(0, poolKey)], free := [(0, poolKey)] }

/-- Context 0 serves job 1; its first SCM page, readable and held by the translation unit of its channel, is the pool of the armed region. -/
def poolPackage : State :=
  { State.reset with
    boot := { Boot.init with st := .ready }
    ctxs := [{ Context.free with st := .running, desc := { CtxDesc.zero with fjob := 1 } }]
    tlb := [{ chan := 512, ctx := 0, base := 2 ^ 55, size := 4096, leaf := 64 }]
    snap := { Snap.init with regions := [armedRegion], units := [armedUnit] }
    mem := [(unitKey, heldValue)] }

/-- Peer 5 reads the first line of that page. -/
def poolRead : FabReq :=
  { src := 5, seq := 0, sport := 0, fjob := 1, addr := BitVec.ofNat 54 (2 ^ 53), gm := 0xFF, tier := 1, plane := 0, op := .read, bytes := [], ops := [] }

theorem heldValue_ne : heldValue ≠ 0 ∧ heldValue ≠ Config.freeByte 0 unitKey := by
  unfold heldValue
  split
  · rename_i h
    exact ⟨by decide, by rw [h]; decide⟩
  · rename_i h
    exact ⟨by decide, Ne.symm h⟩

theorem poolPackage_inv : poolPackage.Inv := by
  simpa [State.Inv, poolPackage, Memory.wf, Memory.above, Memory.unlisted] using heldValue_ne.1

theorem get_poolPackage : Memory.get poolPackage.mem unitKey = heldValue := if_pos rfl

/-- The read is translated to the pool's frame, and the frames of the region are undefined from there on. -/
theorem poolRead_translates : poolPackage.reqTranslate 0 poolRead (poolPackage.reqSteps poolRead) = (.ok poolKey false, poolPackage.undefine [unitKey]) := by
  rfl

theorem poolRead_serves : (poolPackage.serve poolRead).1 = poolPackage.undefine [unitKey] := by
  rfl

/-- Refutes O47: the read is answered with the line's bytes, and the first byte of the armed unit is no longer what it was. -/
theorem not_fabricRequestsAndAnswers : ¬ Obligations.FabricRequestsAndAnswers := by
  unfold Obligations.FabricRequestsAndAnswers
  intro h
  obtain ⟨-, -, -, haccess⟩ := h.1 poolPackage poolRead rfl
  obtain ⟨-, -, -, hserved⟩ := haccess ⟨by simp [poolPackage, State.reset, Fabric.init], by simp [poolPackage, State.reset]⟩ (.inl rfl) 0 rfl
  obtain ⟨-, -, -, -, -, hok⟩ := hserved (by simp [poolPackage, Snap.init]) (by decide)
  rw [poolRead_translates] at hok
  obtain ⟨hread, -⟩ := hok poolKey false rfl
  obtain ⟨t, ht, -, -, hmem⟩ := hread (.inl rfl) rfl
  have htake : exec (.fabricRequest poolRead) poolPackage = .next (poolPackage.takeRequest poolRead) := rfl
  obtain rfl := Host.Outcome.next.inj (htake.symm.trans ht)
  rw [State.takeRequest_mem, poolRead_serves] at hmem
  have hget := State.get_undefine_frame poolPackage unitKey poolPackage_inv
  rw [hmem, get_poolPackage] at hget
  exact heldValue_ne.2 hget

end Sys2Proof.Machine
end

section
/-! PROOF of O50. What an uncorrectable soft error leaves in each structure. -/

namespace Sys2Proof.Machine

variable {s : State}

/-! ### Contexts -/

/-- A context that is not free is one of the machine's. -/
theorem State.ctx_lt {c : Nat} (h : (s.ctx c).st ≠ .free) : c < s.ctxs.length := by
  by_contra hn
  exact h (by rw [State.ctx, List.getD_eq_default _ _ (Nat.le_of_not_lt hn)]; rfl)

/-- A context has ended fatally (R290, R148): its LASTERR holds the code, it is torn down, and an exit is injected into every weft of it. -/
def State.Fatal (t : State) (c : Nat) (code : BitVec 8) : Prop :=
  (t.ctx c).lasterr = code ∧ (t.ctx c).st = .tearing ∧ ∀ v ∈ t.wefts, v.ctx = c → v.injected = true

/-- The teardown of a context of the machine, with LASTERR as it was. -/
theorem State.beginTeardown_fatal {c : Nat} {code : BitVec 8} (hc : c < s.ctxs.length) (he : (s.ctx c).lasterr = code) :
    (s.beginTeardown c).Fatal c code := by
  obtain ⟨hst, herr, hinj, -⟩ := beginTeardown_next s c hc
  exact ⟨herr.trans he, hst, hinj⟩

theorem State.MemOnly.ctxs {t : State} (h : s.MemOnly t) : t.ctxs = s.ctxs := by rw [h]

theorem State.MemOnly.ctx {t : State} (h : s.MemOnly t) (c : Nat) : t.ctx c = s.ctx c := by rw [State.ctx, State.ctx, h.ctxs]

/-- A fatal cause at a weft whose context is neither free nor being torn down (R290). -/
theorem State.fatal_fatal {w : Weft} {cause : Cause} {lanes info rpc : W64} (hf : (s.ctx w.ctx).st ≠ .free)
    (ht : (s.ctx w.ctx).st ≠ .tearing) : (s.fatal w cause lanes info rpc).Fatal w.ctx (BitVec.ofNat 8 (0x80 ||| cause.code)) := by
  have hc := State.ctx_lt hf
  rw [State.fatal, if_neg (not_or.2 ⟨ht, hf⟩)]
  dsimp only
  set s1 := s.setCtx w.ctx { s.ctx w.ctx with lasterr := BitVec.ofNat 8 (0x80 ||| cause.code) } with hs1
  have hm := s1.vaWrite_getD_memOnly w.ctx ((s.ctx w.ctx).desc.save + 0x40) (fatalBytes w cause.code lanes info rpc)
  refine State.beginTeardown_fatal ?_ ?_
  · rw [hm.ctxs, hs1, State.setCtx, length_setAt]
    exact hc
  · rw [hm.ctx, hs1, ctx_setCtx _ _ _ hc]

/-- A fatal soft error of a context that some weft still runs (R286). -/
theorem State.fatalSoft_fatal {c core slot : Nat} {w : Weft} (hw : s.weft? core slot = some w) (hwc : w.ctx = c) (hx : w.exited = false)
    (hf : (s.ctx c).st ≠ .free) (ht : (s.ctx c).st ≠ .tearing) : (s.fatalSoft c).Fatal c 0x92 := by
  have hmem : w ∈ s.wefts := List.mem_of_find?_eq_some hw
  obtain ⟨u, hu⟩ := Option.isSome_iff_exists.1 (List.find?_isSome.2 ⟨w, hmem, by simp [hwc, hx]⟩ :
    (s.wefts.find? fun w => w.ctx == c && !w.exited).isSome = true)
  have huc : u.ctx = c := by
    have := List.find?_some hu
    simp only [Bool.and_eq_true, beq_iff_eq] at this
    exact this.1
  rw [State.fatalSoft, hu]
  subst huc
  exact State.fatal_fatal hf ht

/-! ### Poison -/

theorem Weft.sreg_poisoned (w : Weft) {n : Nat} (hn : n < w.sregs.length) (m : Nat) :
    ({ w with sregs := modAt w.sregs n fun (r : SReg) => { r with pois := true } } : Weft).sreg m
      = if m = n then { w.sreg n with pois := true } else w.sreg m := by
  simp only [Weft.sreg]
  rw [getD_modAt _ _ _ _ _ fun _ => hn]
  split
  · next h => rw [h]
  · rfl

theorem Weft.vreg_poisoned (w : Weft) {n : Nat} (hn : n < w.vregs.length) (m : Nat) :
    ({ w with vregs := modAt w.vregs n fun (r : VReg) => { r with pois := true } } : Weft).vreg m
      = if m = n then { w.vreg n with pois := true } else w.vreg m := by
  simp only [Weft.vreg]
  rw [getD_modAt _ _ _ _ _ fun _ => hn]
  split
  · next h => rw [h]
  · rfl

/-- The unit of poison that a key lies in has the size of the key's own (R63, R286). -/
theorem poisUnit_base (k : Nat) : poisUnit (k / poisUnit k * poisUnit k) = poisUnit k := by
  unfold poisUnit
  by_cases h : keyIsSpad k = true
  · rw [if_pos h]
    simp only [keyIsSpad, Bool.and_eq_true, decide_eq_true_eq] at h ⊢
    exact if_pos (by omega)
  · rw [if_neg h]
    simp only [keyIsSpad, Bool.and_eq_true, decide_eq_true_eq] at h ⊢
    exact if_neg (by omega)

/-- The unit at a key is poisoned, and no byte of memory differs. -/
theorem State.poison_poisons (k : Nat) : (s.poison k).poisoned k 1 = true ∧ s.SameMemory (s.poison k) := by
  have hpos : 0 < poisUnit k := by unfold poisUnit; split <;> decide
  have hmem : k / poisUnit k * poisUnit k ∈ (s.poison k).pois := by
    unfold State.poison
    dsimp only
    split
    · assumption
    · exact List.mem_append_right _ List.mem_cons_self
  constructor
  · rw [State.poisoned, List.any_eq_true]
    refine ⟨_, hmem, ?_⟩
    have hlo := Nat.div_mul_le_self k (poisUnit k)
    have hhi := Nat.lt_div_mul_add (a := k) hpos
    rw [poisUnit_base]
    simp only [Bool.and_eq_true, decide_eq_true_eq]
    omega
  · intro x
    unfold State.poison
    dsimp only
    split <;> rfl

/-! ### In-flight state -/

theorem State.foldl_ctxs {α : Type} {f : State → α → State} (hf : ∀ t x, (f t x).ctxs = t.ctxs) (l : List α) (s : State) :
    (l.foldl f s).ctxs = s.ctxs :=
  foldl_keeps (fun t : State => t.ctxs = s.ctxs) f (fun t x h => (hf t x).trans h) l s rfl

theorem State.foldl_wefts {α : Type} {f : State → α → State} (hf : ∀ t x, (f t x).wefts = t.wefts) (l : List α) (s : State) :
    (l.foldl f s).wefts = s.wefts :=
  foldl_keeps (fun t : State => t.wefts = s.wefts) f (fun t x h => (hf t x).trans h) l s rfl

theorem State.returnToken_keeps (team q : Nat) (tok : Option W64) :
    (s.returnToken team q tok).ctxs = s.ctxs ∧ (s.returnToken team q tok).wefts = s.wefts := by
  unfold State.returnToken
  split <;> exact ⟨rfl, rfl⟩

theorem State.abandonCmd_keeps (c : EngCmd) : (s.abandonCmd c).ctxs = s.ctxs ∧ (s.abandonCmd c).wefts = s.wefts := by
  unfold State.abandonCmd
  dsimp only
  split
  · exact State.returnToken_keeps ..
  · exact State.returnToken_keeps ..

theorem State.abandonMats_keeps (w : Weft) : (s.abandonMats w).ctxs = s.ctxs ∧ (s.abandonMats w).wefts = s.wefts := by
  unfold State.abandonMats
  split
  · exact ⟨State.foldl_ctxs (fun t m => (t.returnToken_keeps ..).1) _ _, State.foldl_wefts (fun t m => (t.returnToken_keeps ..).2) _ _⟩
  · exact ⟨rfl, rfl⟩

/-- What a region restart discards touches no context and no weft (R284). -/
theorem State.discardOps_keeps (w : Weft) : (s.discardOps w).ctxs = s.ctxs ∧ (s.discardOps w).wefts = s.wefts :=
  ⟨(State.abandonMats_keeps w).1.trans (State.foldl_ctxs (fun t c => (t.abandonCmd_keeps c).1) _ _),
   (State.abandonMats_keeps w).2.trans (State.foldl_wefts (fun t c => (t.abandonCmd_keeps c).2) _ _)⟩

theorem State.discardOps_ctx (w : Weft) (c : Nat) : (s.discardOps w).ctx c = s.ctx c := by
  rw [State.ctx, State.ctx, (State.discardOps_keeps w).1]

theorem State.discardOps_weft? (w : Weft) (core slot : Nat) : (s.discardOps w).weft? core slot = s.weft? core slot := by
  rw [State.weft?, State.weft?, (State.discardOps_keeps w).2]

/-- A region restart fills every register and clears every counter (R284). -/
theorem Weft.regionRestart_full (w : Weft) : (∀ c, w.regionRestart.count c = 0)
    ∧ ∀ m, (w.regionRestart.sreg m).full = true ∧ (w.regionRestart.vreg m).full = true := by
  have hs : ∀ (l : List SReg) (m : Nat),
      ((l.map fun (r : SReg) => { r with full := true }).getD m { val := 0, full := true, pois := false }).full = true := by
    intro l m
    rw [List.getD_eq_getElem?_getD, List.getElem?_map]
    cases l[m]? <;> rfl
  have hv : ∀ (l : List VReg) (m : Nat), ((l.map fun (r : VReg) => { r with full := true }).getD m VReg.zero).full = true := by
    intro l m
    rw [List.getD_eq_getElem?_getD, List.getElem?_map]
    cases l[m]? <;> rfl
  refine ⟨fun c => ?_, fun m => ⟨hs _ _, hv _ _⟩⟩
  rw [Weft.count, Weft.regionRestart, List.getD_eq_getElem?_getD, List.getElem?_replicate]
  split <;> rfl

/-- In a handler an error in flight is NESTED (R287, R290). -/
theorem State.softInflight_nested {w : Weft} (hx : w.exited = false) (htm : w.tm = true) (hf : (s.ctx w.ctx).st ≠ .free)
    (ht : (s.ctx w.ctx).st ≠ .tearing) : (s.softInflight w).Fatal w.ctx 0x97 := by
  have htm' : w.regionRestart.tm = true := htm
  have hctx : ((s.discardOps w).setWeft w.regionRestart).ctx w.regionRestart.ctx = s.ctx w.ctx := State.discardOps_ctx w w.ctx
  rw [State.softInflight, hx, if_neg Bool.false_ne_true, State.takeTrap, if_pos htm']
  exact State.fatal_fatal (by rwa [hctx]) (by rwa [hctx])

/-- Outside a handler the weft restarts its region and traps with SOFTERR, REACH INFLIGHT, at the region's entry (R284, R286, R278). -/
theorem State.softInflight_traps {core slot : Nat} {w : Weft} (hw : s.weft? core slot = some w) (hx : w.exited = false)
    (htm : w.tm = false) : ∃ v, (s.softInflight w).weft? core slot = some v ∧ v.tcause = 0x12 ∧ v.tmask = 0
      ∧ v.tpc = w.rgnpc ∧ v.tem = w.rgnem ∧ v.tinfo = 0x50 ∧ v.tm = true ∧ v.pc = (s.ctx w.ctx).desc.tvec ∧ v.busy = []
      ∧ (∀ c, v.count c = 0) ∧ (∀ m, (v.sreg m).full = true ∧ (v.vreg m).full = true) := by
  have htm' : ¬ w.regionRestart.tm = true := by rw [show w.regionRestart.tm = w.tm from rfl, htm]; exact Bool.false_ne_true
  have hplace := weft?_slot hw
  obtain ⟨hcount, hfull⟩ := w.regionRestart_full
  rw [State.softInflight, hx, if_neg Bool.false_ne_true, State.takeTrap, if_neg htm']
  refine ⟨_, weft?_setWeft ((State.discardOps_weft? w core slot).trans hw) hplace.1 hplace.2, rfl, rfl, rfl, rfl, rfl, rfl, ?_, rfl,
    hcount, hfull⟩
  exact congrArg (fun x : Context => x.desc.tvec) (State.discardOps_ctx w w.ctx)

/-! ### Engine commands -/

theorem State.cmd?_setCmd {n : Nat} {c d : EngCmd} (h : s.cmd? n = some c) (hd : d.id = n) : (s.setCmd d).cmd? n = some d := by
  simp only [State.cmd?, State.setCmd] at h ⊢
  have hfun : ((fun x : EngCmd => x.id == n) ∘ fun x => if x.id = d.id then d else x) = fun x => x.id == n := by
    funext x
    by_cases hx : x.id = d.id
    · simp [hx, hd]
    · simp [hx]
  have hid := List.find?_some h
  rw [List.find?_map, hfun, h]
  simp only [beq_iff_eq] at hid
  simp [hid, hd]

theorem State.dropOrphan_cmd? (n : Nat) : (s.dropOrphan n).cmd? n = none := by
  unfold State.dropOrphan
  split
  · rw [State.cmd?, List.find?_eq_none]
    intro d hd
    simpa using (List.mem_filter.1 hd).2
  · assumption

/-- An error in the state of an engine command marks a COPY as failed and abandons any other (R286). -/
theorem State.softEngine_ends {n : Nat} {c : EngCmd} (h : s.cmd? n = some c) :
    (c.op = 6 → (s.softEngine n).cmd? n = some { c with status := 0x12 }) ∧ (c.op ≠ 6 → (s.softEngine n).cmd? n = none) := by
  have hid : c.id = n := by simpa using List.find?_some h
  rw [State.softEngine, h]
  dsimp only
  constructor
  · intro h6
    rw [if_pos h6]
    exact State.cmd?_setCmd h hid
  · intro h6
    rw [if_neg h6]
    exact State.dropOrphan_cmd? n

/-! ### Translation units and stage queues -/

/-- With no request held, a translation structure that loses what it holds has nothing to walk again (R286). -/
theorem State.softTranslation_empty {n : Nat} (h : s.holds = []) :
    (∀ e ∈ (s.softTranslation n).tlb, e.chan ≠ n) ∧ ∀ e ∈ (s.softTranslation n).wcache, e.chan ≠ n := by
  rw [State.softTranslation, h]
  exact ⟨fun e he => by simpa using (List.mem_filter.1 he).2, fun e he => by simpa using (List.mem_filter.1 he).2⟩

/-- Settles O50: each place by the lemma of what the error does to it. -/
theorem softErrors : Obligations.SoftErrors := by
  unfold Obligations.SoftErrors
  intro s core slot n key w hup hw hx hf ht does fatal
  have hplace := weft?_slot hw
  refine ⟨fun hn => ?sreg, fun hn => ?vreg, ?spad, ?line, ?stageQueue, fun place => ?corrected, ?icache, fun hh => ?translation, ?control,
    ?ctrl, ?tags, fun m hm hmc => ?queue, fun htm => ?nested, fun htm => ?traps, fun c hc => ?engine⟩
  all_goals simp only [does, State.Does, exec_softError, execSoftError, hup, hw, Bool.not_true, Bool.false_eq_true, if_false]
  case sreg =>
    have hr := w.sreg_poisoned hn
    refine ⟨_, rfl, _, weft?_setWeft hw hplace.1 hplace.2, ?_, ?_, fun m hm => ?_⟩
    · rw [hr, if_pos rfl]
    · rw [hr, if_pos rfl]
    · rw [hr, if_neg hm]
  case vreg =>
    have hr := w.vreg_poisoned hn
    refine ⟨_, rfl, _, weft?_setWeft hw hplace.1 hplace.2, ?_, ?_, fun m hm => ?_⟩
    · rw [hr, if_pos rfl]
    · rw [hr, if_pos rfl]
    · rw [hr, if_neg hm]
  case spad => exact ⟨_, rfl, State.poison_poisons key⟩
  case line => exact ⟨_, rfl, State.poison_poisons key⟩
  case stageQueue =>
    refine ⟨_, rfl, fun p hp hid hlen => ?_⟩
    obtain ⟨p0, -, rfl⟩ := List.mem_map.1 hp
    by_cases hc : p0.id = n ∧ slot < (p0.queues.getD core []).length ∧ (core, slot) ∉ p0.qpois
    · rw [if_pos hc]
      exact List.mem_cons_self
    · rw [if_neg hc] at hid hlen ⊢
      by_contra hq
      exact hc ⟨hid, hlen, hq⟩
  case corrected => exact ⟨_, rfl, rfl⟩
  case icache => exact ⟨_, rfl, fun l hl => by simpa using (List.mem_filter.1 hl).2⟩
  case translation => exact ⟨_, rfl, State.softTranslation_empty hh⟩
  case control => exact ⟨_, rfl, State.fatal_fatal hf ht⟩
  case ctrl => exact ⟨_, rfl, State.fatalSoft_fatal hw rfl hx hf ht⟩
  case tags => exact ⟨_, rfl, State.fatalSoft_fatal hw rfl hx hf ht⟩
  case queue =>
    rw [hm]
    refine ⟨_, rfl, ?_⟩
    show (s.fatalSoft m.ctx).Fatal w.ctx 0x92
    rw [hmc]
    exact State.fatalSoft_fatal hw rfl hx hf ht
  case nested => exact ⟨_, rfl, State.softInflight_nested hx htm hf ht⟩
  case traps => exact ⟨_, rfl, State.softInflight_traps hw hx htm⟩
  case engine => exact ⟨_, rfl, State.softEngine_ends hc⟩

end Sys2Proof.Machine
end

section
/-! PROOF of O52. The steps and the completion of matrix and near-memory commands. -/

namespace Sys2Proof.Machine
variable {s : State}

/-! ### Numbers in the tiles of memory -/

theorem length_flatten_leBytes (n : Nat) (els : List Nat) : ((els.map (leBytes n)).flatten).length = n * els.length := by
  induction els with
  | nil => rfl
  | cons x r ih => rw [List.map_cons, List.flatten_cons, List.length_append, length_leBytes, ih, List.length_cons, Nat.mul_succ, Nat.add_comm]

/-- Byte `i` of element `j` of a tile. -/
theorem getD_flatten_leBytes {n i j : Nat} {els : List Nat} (hi : i < n) (hj : j < els.length) :
    ((els.map (leBytes n)).flatten).getD (n * j + i) 0 = (leBytes n els[j]).getD i 0 := by
  induction els generalizing j with
  | nil => exact absurd hj (Nat.not_lt_zero j)
  | cons x r ih =>
    rw [List.map_cons, List.flatten_cons]
    cases j with
    | zero => rw [List.getD_append _ _ _ _ (by simpa using hi), Nat.mul_zero, Nat.zero_add]; rfl
    | succ j =>
      rw [List.getD_append_right _ _ _ _ (by rw [length_leBytes, Nat.mul_succ]; omega), length_leBytes,
        show n * (j + 1) + i - n = n * j + i by rw [Nat.mul_succ]; omega, ih (Nat.lt_of_succ_lt_succ hj)]
      rfl

/-- The bytes of a number that was written. -/
theorem State.nat_writeBytes_leBytes (h : s.Inv) (k n x : Nat) : (s.writeBytes k (leBytes n x)).nat k n = x % 256 ^ n := by
  rw [← ofLeBytes_leBytes, State.nat]
  congr 1
  refine List.ext_getElem (by simp [State.bytes]) fun i hi _ => ?_
  have hn : i < n := by simpa [State.bytes] using hi
  have hl : i < (leBytes n x).length := by rwa [length_leBytes]
  simp only [State.bytes, List.getElem_map, List.getElem_range, State.byte_writeBytes s _ _ _ h, length_leBytes]
  rw [if_pos ⟨Nat.le_add_right k i, Nat.add_lt_add_left hn k⟩, Nat.add_sub_cancel_left, List.getD_eq_getElem _ _ hl]

theorem State.byte_writeTile (h : s.Inv) {key n i j : Nat} {els : List Nat} (hi : i < n) (hj : j < els.length) :
    (s.writeTile key n els).byte (key + n * j + i) = (leBytes n els[j]).getD i 0 := by
  have hlt : n * j + i < n * els.length := calc
    n * j + i < n * j + n := Nat.add_lt_add_left hi _
    _ = n * (j + 1) := (Nat.mul_succ n j).symm
    _ ≤ n * els.length := Nat.mul_le_mul_left n hj
  rw [State.writeTile, State.byte_writeBytes s _ _ _ h, length_flatten_leBytes, if_pos (by omega), Nat.add_assoc, Nat.add_sub_cancel_left,
    getD_flatten_leBytes hi hj]

/-- A tile leaves every byte outside it. -/
theorem State.byte_writeTile_outside (h : s.Inv) {key n x : Nat} {els : List Nat} (hx : x < key ∨ key + n * els.length ≤ x) :
    (s.writeTile key n els).byte x = s.byte x := by
  rw [State.writeTile, State.byte_writeBytes s _ _ _ h, length_flatten_leBytes, if_neg (by omega)]

/-- An element of a tile that was written. -/
theorem State.nat_writeTile (h : s.Inv) {key n j : Nat} {els : List Nat} (hj : j < els.length) :
    (s.writeTile key n els).nat (key + n * j) n = els[j] % 256 ^ n := by
  rw [← ofLeBytes_leBytes, State.nat]
  congr 1
  refine List.ext_getElem (by simp [State.bytes]) fun i hi hi' => ?_
  have hn : i < n := by simpa [State.bytes] using hi
  simp only [State.bytes, List.getElem_map, List.getElem_range]
  rw [State.byte_writeTile h hn hj, List.getD_eq_getElem _ _ hi']

/-! ### The places of a tile -/

theorem length_rowMajor (m n : Nat) : ((List.range m).flatMap fun r => (List.range n).map fun k => (r, k)).length = m * n := by
  simp [List.length_flatMap]

theorem getElem?_rowMajor {m n r col : Nat} (hr : r < m) (hc : col < n) :
    ((List.range m).flatMap fun r => (List.range n).map fun k => (r, k))[n * r + col]? = some (r, col) := by
  induction m with
  | zero => exact absurd hr (Nat.not_lt_zero r)
  | succ m ih =>
    rw [List.range_succ, List.flatMap_append, List.flatMap_singleton]
    by_cases h : r < m
    · have hlt : n * r + col < m * n := calc
        n * r + col < n * r + n := Nat.add_lt_add_left hc _
        _ = (r + 1) * n := by rw [Nat.succ_mul, Nat.mul_comm]
        _ ≤ m * n := Nat.mul_le_mul_right n h
      rw [List.getElem?_append_left (by rwa [length_rowMajor]), ih h]
    · obtain rfl : r = m := by omega
      rw [List.getElem?_append_right (by rw [length_rowMajor, Nat.mul_comm]; omega), length_rowMajor, Nat.mul_comm r n, Nat.add_sub_cancel_left,
        List.getElem?_map, List.getElem?_range hc]
      rfl

theorem length_tileIdx (c : BitVec 10) : (tileIdx c).length = tileM c * tileN c := length_rowMajor ..

theorem four_mul_tileIdx (c : BitVec 10) : 4 * (tileIdx c).length = tileBytes c := by rw [length_tileIdx, tileBytes, Nat.mul_assoc]

/-! ### A K-step -/

theorem State.poisoned_of_no_pois (h : s.pois = []) (k n : Nat) : s.poisoned k n = false := by rw [State.poisoned, h]; rfl

theorem State.slabElem_i8 (h : s.pois = []) (c : BitVec 10) (key r k : Nat) : s.slabElem c 5 key r k = (s.nat (key + tileK c * r + k) 1, false) := by
  rw [Nat.add_assoc, ← State.poisoned_of_no_pois h (key + (tileK c * r + k)) 1]
  rfl

theorem foldl_add_map {α : Type} (f : α → Int) (l : List α) (x : Int) : l.foldl (fun acc p => acc + f p) x = x + (l.map f).sum := by
  induction l generalizing x with
  | nil => exact (Int.add_zero x).symm
  | cons y r ih => rw [List.foldl_cons, ih, List.map_cons, List.sum_cons, Int.add_assoc]

/-- The sum that an INT8 step forms at an element of C (R449). -/
def State.dotInt (s : State) (c : BitVec 10) (a b cb r col : Nat) : Int :=
  signedOf 32 (s.nat (cb + 4 * (tileN c * r + col)) 4)
    + ((List.range (tileK c)).map fun k => signedOf 8 (s.nat (a + tileK c * r + k) 1) * signedOf 8 (s.nat (b + tileK c * col + k) 1)).sum

theorem State.stepInt_eq (h : s.pois = []) (c : BitVec 10) (sat : Bool) (a b cb r col : Nat) :
    s.stepInt c sat a b cb r col
      = (wrapInt 32 (if sat then max (-(2 ^ 31)) (min (2 ^ 31 - 1) (s.dotInt c a b cb r col)) else s.dotInt c a b cb r col), false) := by
  have hany : ∀ l : List Nat, (l.any fun _ => false) = false := fun l => by simp
  simp only [State.stepInt, State.slabElem_i8 h, State.poisoned_of_no_pois h, Bool.or_false, List.any_map, Function.comp_def, hany,
    Bool.false_eq_true, if_false, foldl_add_map, List.map_map, Int.zero_add]
  rfl

/-- The element of C after an integer step, as its four bytes read. -/
theorem State.kStep_int (hi : s.Inv) (h : s.pois = []) {c : BitVec 10} (hc : mcfgInt c = true) (sat : Bool) (a b cb : Nat) {r col : Nat}
    (hr : r < tileM c) (hcol : col < tileN c) :
    (s.writeTile cb 4 ((s.kStep c sat a b cb).map (·.1))).nat (cb + 4 * (tileN c * r + col)) 4
      = ((if sat then max (-(2 ^ 31)) (min (2 ^ 31 - 1) (s.dotInt c a b cb r col)) else s.dotInt c a b cb r col) % 2 ^ 32).toNat := by
  have hel : ((s.kStep c sat a b cb).map (·.1))[tileN c * r + col]? = some (s.stepInt c sat a b cb r col).1 := by
    rw [State.kStep, List.map_map, List.getElem?_map, tileIdx, getElem?_rowMajor hr hcol, Option.map_some, Function.comp_apply, if_pos hc]
  obtain ⟨hj, he⟩ := List.getElem?_eq_some_iff.1 hel
  rw [State.nat_writeTile hi hj, he, State.stepInt_eq h]
  generalize (if sat = true then _ else _ : Int) = v
  simp only [wrapInt]
  omega

/-! ### Teams and wefts -/

theorem State.team?_id {n : Nat} {t : Team} (h : s.team? n = some t) : t.id = n := by simpa using List.find?_some h

theorem State.team?_setTeam {n : Nat} {t u : Team} (h : s.team? n = some t) (hu : u.id = n) : (s.setTeam u).team? n = some u := by
  simp only [State.team?, State.setTeam] at h ⊢
  have hfun : ((fun x : Team => x.id == n) ∘ fun x => if x.id = u.id then u else x) = fun x => x.id == n := by
    funext x
    by_cases hx : x.id = u.id
    · simp [hx, hu]
    · simp [hx]
  have hid := List.find?_some h
  rw [List.find?_map, hfun, h]
  simp only [beq_iff_eq] at hid
  simp [hid, hu]

/-- A weft's counter falls, if its slot still holds the weft (R229). -/
def State.lowerAt (s : State) (core slot cnt op : Nat) : State :=
  match s.weft? core slot with
  | some w => s.setWeft (w.lower cnt op)
  | none => s

theorem State.lowerAt_weft? {core slot cnt op : Nat} {w : Weft} (h : s.weft? core slot = some w) :
    (s.lowerAt core slot cnt op).weft? core slot = some (w.lower cnt op) := by
  rw [State.lowerAt, h]
  exact weft?_setWeft h (weft?_slot h).1 (weft?_slot h).2

/-- Only the wefts differ. -/
theorem State.lowerAt_frame (s : State) (core slot cnt op : Nat) : ∃ l, s.lowerAt core slot cnt op = { s with wefts := l } := by
  unfold State.lowerAt
  split
  · exact ⟨_, rfl⟩
  · exact ⟨s.wefts, rfl⟩

/-- Only the teams differ. -/
theorem State.pushToken_frame (s : State) (team q status : Nat) (tok : Option W64) : ∃ l, s.pushToken team q tok status = { s with teams := l } := by
  unfold State.pushToken
  split
  · exact ⟨_, rfl⟩
  · exact ⟨s.teams, rfl⟩

theorem State.pushToken_some {team q status : Nat} {t : Team} (v : W64) (h : s.team? team = some t) :
    s.pushToken team q (some v) status
      = s.setTeam ((t.reserve q false).setQ q ((t.reserve q false).q q ++ [v ||| BitVec.ofNat 64 (status * 2 ^ 56)])) := by
  simp only [State.pushToken, h]

theorem execMatrixComplete_ends {team : Nat} {tm : Team} {m : MatCmd} {rest : List MatCmd} (ht : s.team? team = some tm) (hm : tm.mcmds = m :: rest)
    (hr : m.rem = 0) (hp : s.power.pf = .idle) :
    execMatrixComplete team s
      = .next (((s.setTeam { tm with mcmds := rest }).lowerAt tm.core m.slot 3 m.id).pushToken team 1 m.tok m.status) := by
  have hgo : ¬ (m.rem ≠ 0 || s.power.pf != .idle) = true := by simp [hr, hp]
  simp only [execMatrixComplete, ht, hm]
  exact if_neg hgo

/-- A matrix command with no step left (R452). -/
theorem State.matrixComplete_does {team : Nat} {tm : Team} {m : MatCmd} {rest : List MatCmd} (ht : s.team? team = some tm)
    (hm : tm.mcmds = m :: rest) (hr : m.rem = 0) (hp : s.power.pf = .idle) : s.Does (.matrixComplete team) fun t =>
      (∀ w, s.weft? tm.core m.slot = some w → t.weft? tm.core m.slot = some (w.lower 3 m.id)) ∧ s.SameMemory t
      ∧ ∃ u, t.team? team = some u ∧ u.mcmds = rest
        ∧ u.q1 = tm.q1 ++ (match m.tok with | some v => [v ||| BitVec.ofNat 64 (m.status * 2 ^ 56)] | none => []) := by
  refine ⟨_, execMatrixComplete_ends ht hm hr hp, ?_⟩
  have hid := State.team?_id ht
  have hteam : (s.setTeam { tm with mcmds := rest }).team? team = some { tm with mcmds := rest } := State.team?_setTeam ht hid
  obtain ⟨ws, hws⟩ := State.lowerAt_frame (s.setTeam { tm with mcmds := rest }) tm.core m.slot 3 m.id
  have hteam' : ((s.setTeam { tm with mcmds := rest }).lowerAt tm.core m.slot 3 m.id).team? team = some { tm with mcmds := rest } := by
    rw [hws]; exact hteam
  obtain ⟨ts, hts⟩ := State.pushToken_frame ((s.setTeam { tm with mcmds := rest }).lowerAt tm.core m.slot 3 m.id) team 1 m.status m.tok
  refine ⟨fun w hw => ?weft, fun k => by rw [hts, hws]; rfl, ?token⟩
  case weft =>
    rw [hts]
    exact State.lowerAt_weft? (s := s.setTeam { tm with mcmds := rest }) hw
  case token =>
    cases m.tok with
    | none => exact ⟨_, hteam', rfl, (List.append_nil _).symm⟩
    | some v =>
      rw [State.pushToken_some v hteam']
      exact ⟨_, State.team?_setTeam hteam' hid, rfl, rfl⟩

/-! ### A step of the matrix sequencer -/

theorem execMatrixKstep_steps {team : Nat} {tm : Team} {m : MatCmd} {rest : List MatCmd} (ht : s.team? team = some tm) (hm : tm.mcmds = m :: rest)
    (hr : m.rem ≠ 0) (hw : s.matWaits tm m = false) (hrun : s.runs tm.ctx = true) (hp : s.power.pf = .idle)
    (hh : m.op = 2 → s.matHeld tm.core = false) :
    execMatrixKstep team s = .next (((if m.op = 2 then s.debitAs true tm.core 32 else s).matStep tm m).1.setTeam
      { tm with mcmds := m.next ((if m.op = 2 then s.debitAs true tm.core 32 else s).matStep tm m).2 :: rest }) := by
  have hgo : ¬ (m.rem = 0 || s.matWaits tm m || !s.runs tm.ctx || s.power.pf != .idle) = true := by simp [hr, hw, hrun, hp]
  have hrat : ¬ (m.op == 2 && s.matHeld tm.core) = true := by
    rw [Bool.and_eq_true, beq_iff_eq]
    exact fun ⟨h2, h⟩ => Bool.false_ne_true ((hh h2).symm.trans h)
  simp only [execMatrixKstep, ht, hm]
  rw [if_neg hgo, if_neg hrat]

theorem State.matStep_memOnly (s : State) (t : Team) (m : MatCmd) : s.MemOnly (s.matStep t m).1 := by
  unfold State.matStep
  dsimp only
  split <;> exact State.writeBytes_memOnly ..

/-- `mzero` clears the tile (R450). -/
theorem State.matStep_zero (h : s.Inv) (t : Team) {m : MatCmd} (hop : m.op = 1) :
    (∀ i, i < tileBytes t.mcfg → (s.matStep t m).1.byte (t.key m.cbase + i) = 0)
    ∧ ∀ k, k < t.key m.cbase ∨ t.key m.cbase + tileBytes t.mcfg ≤ k → (s.matStep t m).1.byte k = s.byte k := by
  have hstep : s.matStep t m = (s.writeTile (t.key m.cbase) 4 ((tileIdx t.mcfg).map fun _ => 0), false) := by rw [State.matStep]; simp only [hop]
  have hlen : ((tileIdx t.mcfg).map fun _ => (0 : Nat)).length = (tileIdx t.mcfg).length := List.length_map _
  rw [hstep]
  refine ⟨fun i hi => ?_, fun k hk => State.byte_writeTile_outside h (by rwa [hlen, four_mul_tileIdx])⟩
  rw [← four_mul_tileIdx] at hi
  have hi4 : i % 4 < 4 := Nat.mod_lt i (by decide)
  have hb := State.byte_writeTile h (key := t.key m.cbase) (els := (tileIdx t.mcfg).map fun _ => 0) (j := i / 4) hi4 (by rw [hlen]; omega)
  have hz : ∀ n, n < 4 → (leBytes 4 0).getD n 0 = 0 := by decide
  rw [List.getElem_map, hz _ hi4] at hb
  rwa [Nat.add_assoc, Nat.div_add_mod] at hb

/-- An INT8 step of `mloop` and `mstep` (R449). -/
theorem State.matStep_int (h : s.Inv) (hp : s.pois = []) {t : Team} {m : MatCmd} (hop : m.op = 2 ∨ m.op = 3) (hc : mcfgInt t.mcfg = true)
    {r col : Nat} (hr : r < tileM t.mcfg) (hcol : col < tileN t.mcfg) :
    (s.matStep t m).1.nat (t.key m.cbase + 4 * (tileN t.mcfg * r + col)) 4
      = ((if m.sat then max (-(2 ^ 31)) (min (2 ^ 31 - 1) (s.dotInt t.mcfg (t.key m.abase) (t.key m.bbase) (t.key m.cbase) r col))
          else s.dotInt t.mcfg (t.key m.abase) (t.key m.bbase) (t.key m.cbase) r col) % 2 ^ 32).toNat := by
  have hstep : (s.matStep t m).1
      = s.writeTile (t.key m.cbase) 4 ((s.kStep t.mcfg m.sat (t.key m.abase) (t.key m.bbase) (t.key m.cbase)).map (·.1)) := by
    rw [State.matStep]
    rcases hop with hop | hop <;> simp only [hop]
  rw [hstep]
  exact State.kStep_int h hp hc m.sat _ _ _ hr hcol

/-! ### Near-memory rows -/

/-- What reads of memory, engine errors and their records change: memory, the translation units, contexts and host memory alone. -/
def State.RecordOnly (s t : State) : Prop :=
  t = { s with host := t.host, ctxs := t.ctxs, mem := t.mem, hamp := t.hamp, ctrs := t.ctrs, rsv := t.rsv, pois := t.pois, tlb := t.tlb,
               wcache := t.wcache, holds := t.holds, cmplines := t.cmplines, plnlines := t.plnlines, snap := t.snap, draws := t.draws }

theorem State.RecordOnly.refl (s : State) : s.RecordOnly s := rfl

theorem State.RecordOnly.trans {s t u : State} (h : s.RecordOnly t) (k : t.RecordOnly u) : s.RecordOnly u := by
  unfold State.RecordOnly at *
  rw [k, h]

theorem State.MemOnly.recordOnly {s t : State} (h : s.MemOnly t) : s.RecordOnly t := by rw [State.MemOnly] at h; rw [h]; exact rfl

theorem State.hostPut_recordOnly {t : State} {a : Nat} {bs : List Byte} (e : s.hostPut a bs = some t) : s.RecordOnly t := by
  unfold State.hostPut at e
  split at e
  · cases e; exact (State.writeBytes_memOnly ..).recordOnly
  · cases e

theorem State.hostIndex_recordOnly (s : State) (a : Nat) (v : W32) : s.RecordOnly (s.hostIndex a v) :=
  getD_keeps (fun _ => State.hostPut_recordOnly) (.refl s)

theorem State.emit_recordOnly (s : State) (o : Out) : s.RecordOnly (s.emit o) := rfl

theorem State.setCtx_recordOnly (s : State) (c : Nat) (x : Context) : s.RecordOnly (s.setCtx c x) := rfl

theorem State.pumpRecords_recordOnly (s : State) (c n : Nat) : s.RecordOnly (s.pumpRecords c n) := by
  induction n generalizing s with
  | zero => exact .refl s
  | succ n ih =>
    unfold State.pumpRecords
    dsimp only
    split
    · exact .refl s
    · split
      · exact rfl
      · split
        · exact .refl s
        · rename_i s1 hput
          have h2 := (State.hostPut_recordOnly hput).trans (s1.hostIndex_recordOnly (s.ctx c).desc.fqwaddr.toNat ((s.ctx c).fqwi + 1))
          exact (State.RecordOnly.trans (ite_keeps (P := s.RecordOnly) (h2.trans (State.emit_recordOnly ..)) h2)
            (State.setCtx_recordOnly ..)).trans (ih _)

theorem State.writeRecord_recordOnly (s : State) (c : Nat) (r : FaultRec) : s.RecordOnly (s.writeRecord c r) :=
  (State.setCtx_recordOnly ..).trans (State.pumpRecords_recordOnly ..)

/-- A command after some of its errors: its number, its place and its token are the same. -/
def EngCmd.SameOrder (c d : EngCmd) : Prop := d.id = c.id ∧ d.core = c.core ∧ d.slot = c.slot ∧ d.team = c.team ∧ d.tok = c.tok

theorem EngCmd.SameOrder.trans {c d e : EngCmd} (h : c.SameOrder d) (k : d.SameOrder e) : c.SameOrder e := by
  obtain ⟨h1, h2, h3, h4, h5⟩ := h
  obtain ⟨k1, k2, k3, k4, k5⟩ := k
  exact ⟨k1.trans h1, k2.trans h2, k3.trans h3, k4.trans h4, k5.trans h5⟩

theorem State.engRecords_keeps (s : State) (c : EngCmd) (es : List EngErr) :
    s.RecordOnly (s.engRecords c es).1 ∧ c.SameOrder (s.engRecords c es).2 := by
  induction es generalizing s c with
  | nil => exact ⟨.refl s, rfl, rfl, rfl, rfl, rfl⟩
  | cons e r ih =>
    unfold State.engRecords
    dsimp only
    split
    · exact ih s c
    · obtain ⟨hs, hc⟩ := ih (s.writeRecord c.ctx _) { c with units := c.units ++ [e.va / 4096] }
      exact ⟨(State.writeRecord_recordOnly ..).trans hs, hc⟩

theorem State.engErrors_keeps (s : State) (c : EngCmd) (sector : Nat) (es : List EngErr) :
    s.RecordOnly (s.engErrors c sector es).1 ∧ c.SameOrder (s.engErrors c sector es).2 := by
  obtain ⟨hs, hc⟩ := s.engRecords_keeps c es
  cases es with
  | nil => exact ⟨hs, hc⟩
  | cons e r => exact ⟨hs, hc⟩

theorem State.segKey_memOnly (s : State) (c : EngCmd) (va : W64) : s.MemOnly (s.segKey c va).1 := by
  unfold State.segKey
  split
  · exact .refl s
  · split
    · rename_i k _ s1 ht
      have h1 : s.MemOnly s1 := snd_keeps ht (State.translate_memOnly ..)
      split
      · rename_i e s2 hl
        have h2 : s.MemOnly s2 := h1.trans (snd_keeps hl (State.leafOf_memOnly ..))
        exact pair_ite_keeps h2 (pair_ite_keeps h2 (h2.trans (State.countSpan_memOnly ..)))
      · rename_i s2 _ hl
        exact h1.trans (snd_keeps hl (State.leafOf_memOnly ..))
    · rename_i t s1 _ ht
      exact snd_keeps ht (State.translate_memOnly ..)

theorem State.segKeys_memOnly (s : State) (c : EngCmd) (va n j : Nat) : s.MemOnly (s.segKeys c va n j).1 := by
  induction n generalizing s j with
  | zero => exact .refl s
  | succ n ih =>
    unfold State.segKeys
    have h1 := s.segKey_memOnly c (BitVec.ofNat 64 (va + 256 * j))
    split
    · rename_i s1 e hk
      rw [hk] at h1
      exact h1.trans (ih s1 (j + 1))
    · rename_i s1 k hk
      rw [hk] at h1
      exact h1.trans (ih s1 (j + 1))

theorem State.nmvRows_keeps (s : State) (c : EngCmd) (vk rk n r : Nat) :
    s.RecordOnly (s.nmvRows c vk rk n r).1 ∧ c.SameOrder (s.nmvRows c vk rk n r).2 := by
  induction n generalizing s c r with
  | zero => exact ⟨.refl s, rfl, rfl, rfl, rfl, rfl⟩
  | succ n ih =>
    have hseg := (s.segKeys_memOnly c ((c.desc.getD 0 0).toNat + r * c.pitch) (c.nLen / c.segLen) 0).recordOnly
    have errors : ∀ (s1 : State) (es : List EngErr), s.RecordOnly s1 →
        s.RecordOnly ((s1.engErrors c 0 es).1.nmvRows (s1.engErrors c 0 es).2 vk rk n (r + 1)).1
        ∧ c.SameOrder ((s1.engErrors c 0 es).1.nmvRows (s1.engErrors c 0 es).2 vk rk n (r + 1)).2 := fun s1 es h1 =>
      have ⟨he, hce⟩ := s1.engErrors_keeps c 0 es
      have ⟨hn, hcn⟩ := ih (s1.engErrors c 0 es).1 (s1.engErrors c 0 es).2 (r + 1)
      ⟨(h1.trans he).trans hn, hce.trans hcn⟩
    unfold State.nmvRows
    split
    · rename_i s1 _ e es hk
      rw [hk] at hseg
      exact errors s1 _ hseg
    · rename_i s1 keys hk
      rw [hk] at hseg
      dsimp only
      split
      · exact errors s1 _ hseg
      · obtain ⟨hn, hc⟩ := ih _ c (r + 1)
        exact ⟨(hseg.trans (State.writeBytes_memOnly ..).recordOnly).trans hn, hc⟩

/-- One row without a fault: its value is written at the result (R455). -/
theorem State.nmvRows_one {c : EngCmd} {vk rk : Nat} {keys : List Nat}
    (hk : (s.segKeys c (c.desc.getD 0 0).toNat (c.nLen / c.segLen) 0).2 = (keys, []))
    (hp : (s.segKeys c (c.desc.getD 0 0).toNat (c.nLen / c.segLen) 0).1.poisoned vk (2 * c.nLen) = false) (ha : c.ncfg.getLsbD 1 = false) :
    s.nmvRows c vk rk 1 0 = ((s.segKeys c (c.desc.getD 0 0).toNat (c.nLen / c.segLen) 0).1.writeBytes rk
      (leBytes 4 ((s.segKeys c (c.desc.getD 0 0).toNat (c.nLen / c.segLen) 0).1.rowValue c vk keys)), c) := by
  generalize hs : s.segKeys c (c.desc.getD 0 0).toNat (c.nLen / c.segLen) 0 = seg at hk hp ⊢
  obtain ⟨s1, ks, es⟩ := seg
  cases hk
  simp only at hp ⊢
  simp only [State.nmvRows, Nat.zero_mul, Nat.add_zero, Nat.mul_zero, hs, hp, ha, Bool.false_and, Bool.or_false, Bool.false_eq_true, if_false]

/-- A command of the near-memory engine leaves: its counter falls, then its token is delivered. -/
theorem State.endCmd_eq (s : State) (c : EngCmd) (cnt q : Nat) :
    s.endCmd c cnt q false
      = ({ s with cmds := s.cmds.filter fun d => d.id ≠ c.id }.lowerAt c.core c.slot cnt c.id).pushToken c.team q c.tok c.status := rfl

theorem State.endCmd_frame (s : State) (c : EngCmd) (cnt q : Nat) : ∃ ws ts, s.endCmd c cnt q false
    = { s with cmds := s.cmds.filter fun d => d.id ≠ c.id, wefts := ws, teams := ts } := by
  obtain ⟨ws, hws⟩ := State.lowerAt_frame { s with cmds := s.cmds.filter fun d => d.id ≠ c.id } c.core c.slot cnt c.id
  obtain ⟨ts, hts⟩ := State.pushToken_frame
    ({ s with cmds := s.cmds.filter fun d => d.id ≠ c.id }.lowerAt c.core c.slot cnt c.id) c.team q c.status c.tok
  exact ⟨ws, ts, by rw [State.endCmd_eq, hts, hws]⟩

theorem State.endCmd_cmd? (s : State) (c : EngCmd) (cnt q : Nat) : (s.endCmd c cnt q false).cmd? c.id = none := by
  obtain ⟨ws, ts, h⟩ := s.endCmd_frame c cnt q
  rw [h, State.cmd?, List.find?_eq_none]
  intro d hd
  simpa using (List.mem_filter.1 hd).2

theorem State.endCmd_weft? {c : EngCmd} {w : Weft} (cnt q : Nat) (h : s.weft? c.core c.slot = some w) :
    (s.endCmd c cnt q false).weft? c.core c.slot = some (w.lower cnt c.id) := by
  obtain ⟨ts, hts⟩ := State.pushToken_frame
    ({ s with cmds := s.cmds.filter fun d => d.id ≠ c.id }.lowerAt c.core c.slot cnt c.id) c.team q c.status c.tok
  rw [State.endCmd_eq, hts]
  exact State.lowerAt_weft? (s := { s with cmds := s.cmds.filter fun d => d.id ≠ c.id }) h

/-- The token of an `nmv`, with the status above its 56 bits. -/
theorem State.endCmd_token {c : EngCmd} {tm : Team} {v : W64} (cnt : Nat) (h : s.team? c.team = some tm) (hv : c.tok = some v) :
    ∃ u, (s.endCmd c cnt 2 false).team? c.team = some u ∧ u.q2 = tm.q2 ++ [v ||| BitVec.ofNat 64 (c.status * 2 ^ 56)] := by
  obtain ⟨ws, hws⟩ := State.lowerAt_frame { s with cmds := s.cmds.filter fun d => d.id ≠ c.id } c.core c.slot cnt c.id
  have ht : ({ s with cmds := s.cmds.filter fun d => d.id ≠ c.id }.lowerAt c.core c.slot cnt c.id).team? c.team = some tm := by
    rw [hws]; exact h
  rw [State.endCmd_eq, hv, State.pushToken_some v ht]
  have hid := State.team?_id h
  exact ⟨_, State.team?_setTeam ht hid, rfl⟩

theorem setWidth_status_above (v : W64) (n : Nat) : (v ||| BitVec.ofNat 64 (n * 2 ^ 56)).setWidth 56 = v.setWidth 56 := by
  have hz : (BitVec.ofNat 64 (n * 2 ^ 56)).setWidth 56 = 0#56 := by
    apply BitVec.eq_of_toNat_eq
    simp only [BitVec.toNat_setWidth, BitVec.toNat_ofNat]
    omega
  rw [BitVec.setWidth_or, hz, BitVec.or_zero]

theorem State.nmvPaused_eq_false (s : State) (core : Nat) :
    s.nmvPaused core = false ↔ s.inFlight (clusOf core) = 0 ∨ s.inFlight (clusOf core) + 2 ≤ s.oreq := by
  simp [State.nmvPaused, Bool.and_eq_false_imp]
  omega

section nmv
variable {id vk rk : Nat} {c : EngCmd} {tm : Team} (hc : s.cmd? id = some c) (hop : c.op = 5) (hw : s.engineWaits c = false)

include hc hop hw in
theorem execNmvComplete_paused (hp : s.nmvPaused c.core = true) : execNmvComplete id s = .next s := by
  have h5 : ¬ c.op ≠ 5 := fun h => h hop
  simp only [execNmvComplete, hc]
  rw [if_neg h5, hw, if_neg Bool.false_ne_true, if_pos hp]

include hc hop hw in
theorem execNmvComplete_ends (ht : s.team? c.team = some tm) (hvk : tm.spadKey c.vec (2 * c.nLen) = some vk)
    (hrk : tm.spadKey c.res (4 * c.nRows) = some rk) (hp : s.nmvPaused c.core = false) :
    execNmvComplete id s = .next ((s.nmvRows c vk rk c.nRows 0).1.endCmd (s.nmvRows c vk rk c.nRows 0).2 4 2 false) := by
  have h5 : ¬ c.op ≠ 5 := fun h => h hop
  simp only [execNmvComplete, hc, ht, hvk, hrk]
  rw [if_neg h5, hw, if_neg Bool.false_ne_true, hp, if_neg Bool.false_ne_true]

end nmv

/-- An `nmv` that is not held back ends: the counter, the token, and the value of a single row (R454, R455). -/
theorem State.nmv_ends {id vk rk : Nat} {c : EngCmd} {tm : Team} (hc : s.cmd? id = some c) (ht : s.team? c.team = some tm) :
    let o := s.nmvRows c vk rk c.nRows 0
    let t := o.1.endCmd o.2 4 2 false
    t.cmd? id = none ∧ (∀ w, s.weft? c.core c.slot = some w → t.weft? c.core c.slot = some (w.lower 4 c.id))
    ∧ ∀ v, c.tok = some v → ∃ u x, t.team? c.team = some u ∧ u.q2 = tm.q2 ++ [x] ∧ x.setWidth 56 = v.setWidth 56 := by
  obtain ⟨hs, hid, hcore, hslot, hteam, htok⟩ := s.nmvRows_keeps c vk rk c.nRows 0
  generalize s.nmvRows c vk rk c.nRows 0 = o at hs hid hcore hslot hteam htok
  have hcid : c.id = id := by simpa using List.find?_some hc
  refine ⟨?_, fun w hw => ?_, fun v hv => ?_⟩
  · rw [← hcid, ← hid]; exact State.endCmd_cmd? ..
  · rw [← hcore, ← hslot] at hw ⊢
    rw [← hid]
    exact State.endCmd_weft? 4 2 (by rw [hs]; exact hw)
  · rw [← hteam] at ht ⊢
    obtain ⟨u, hu, hq⟩ := State.endCmd_token (s := o.1) (c := o.2) 4 (by rw [hs]; exact ht) (htok.trans hv)
    exact ⟨u, _, hu, hq, setWidth_status_above ..⟩

/-- Settles O52: a step of the sequencer by what it writes, then the commands that leave. -/
theorem matrixAndNearMemorySteps : Obligations.MatrixAndNearMemorySteps := by
  unfold Obligations.MatrixAndNearMemorySteps
  intro s hinv
  refine ⟨fun team tm m rest ht hm hr hw hrun hp hh => ?step, fun team tm m rest ht hm hr hp => State.matrixComplete_does ht hm hr hp,
    fun id c tm vk rk hc hop hw ht hvk hrk => ⟨execNmvComplete_paused hc hop hw, s.nmvPaused_eq_false c.core, fun hp => ?nmv⟩⟩
  case step =>
    have hid := State.team?_id ht
    refine ⟨_, execMatrixKstep_steps ht hm hr hw hrun hp hh, ?_⟩
    generalize hs1 : (if m.op = 2 then s.debitAs true tm.core 32 else s) = s1
    have hpay : s1 = { s with power := s1.power } := by rw [← hs1]; split <;> rfl
    have hinv1 : s1.Inv := by rw [hpay]; exact hinv
    have hmo := s1.matStep_memOnly tm m
    refine ⟨State.matStep_inv hinv1, ⟨_, _, State.team?_setTeam (t := tm) ?_ hid, rfl, rfl, rfl, rfl, rfl⟩, ?power, fun hop => ?zero,
      fun hop hc hpois r col hr hcol => ?int⟩
    · rw [hmo, hpay]; exact ht
    case power =>
      rw [State.setTeam_power, hmo, ← hs1, apply_ite State.power]
    case zero =>
      obtain ⟨hz, hout⟩ := State.matStep_zero hinv1 tm hop
      refine ⟨hz, fun k hk => (hout k hk).trans ?_⟩
      rw [hpay]; rfl
    case int =>
      refine (State.matStep_int hinv1 (by rw [hpay]; exact hpois) hop hc hr hcol).trans ?_
      rw [hpay]; rfl
  case nmv =>
    refine ⟨_, execNmvComplete_ends hc hop hw ht hvk hrk hp, ?_⟩
    obtain ⟨hcmd, hweft, htok⟩ := State.nmv_ends (vk := vk) (rk := rk) hc ht
    refine ⟨hcmd, hweft, htok, fun keys hrows => ?_⟩
    intro seg hk hi hpois hacc
    rw [hrows, State.nmvRows_one hk hpois hacc]
    obtain ⟨ws, ts, hend⟩ := (seg.1.writeBytes rk (leBytes 4 (seg.1.rowValue c vk keys))).endCmd_frame c 4 2
    rw [hend]
    refine ⟨State.nat_writeBytes_leBytes hi rk 4 _, fun k hk' => ?_⟩
    refine (State.byte_writeBytes _ _ _ _ hi).trans (if_neg ?_)
    rw [length_leBytes]
    omega

end Sys2Proof.Machine
end

section
/-! SUPPORT of O28 and O49. Accesses in the machine, the registers they write, and the masks of their lanes. -/

namespace Sys2Proof.Machine
variable {s : State}

/-! ### Masks of lanes -/

theorem foldl_lanes_lt (f : Nat → Bool) (n : Nat) : (List.range n).foldl (fun acc i => if f i then acc + 2 ^ i else acc) 0 < 2 ^ n := by
  induction n with
  | zero => exact Nat.one_pos
  | succ n ih =>
    rw [List.range_succ, List.foldl_append, List.foldl_cons, List.foldl_nil, Nat.pow_succ]
    split <;> omega

theorem testBit_foldl_lanes (f : Nat → Bool) {n i : Nat} (hi : i < n) :
    ((List.range n).foldl (fun acc i => if f i then acc + 2 ^ i else acc) 0).testBit i = f i := by
  induction n with
  | zero => exact absurd hi (Nat.not_lt_zero i)
  | succ n ih =>
    have hlt := foldl_lanes_lt f n
    rw [List.range_succ, List.foldl_append, List.foldl_cons, List.foldl_nil]
    by_cases h : i < n
    · rw [← ih h]
      split
      · rw [Nat.add_comm, Nat.testBit_two_pow_add_gt h]
      · rfl
    · obtain rfl : i = n := by omega
      split
      · next hf => rw [Nat.add_comm, Nat.testBit_two_pow_add_eq, Nat.testBit_lt_two_pow hlt, hf]; rfl
      · next hf => rw [Nat.testBit_lt_two_pow hlt, Bool.eq_false_iff.2 hf]

/-- A lane is in the mask of the lanes that a test picks. -/
theorem inMask_maskOf (f : Nat → Bool) {i : Nat} (hi : i < 64) : inMask (maskOf f) i = f i := by
  rw [inMask, maskOf, BitVec.getLsbD_ofNat, laneIdx, testBit_foldl_lanes f hi, decide_eq_true hi, Bool.true_and]

theorem inMask_zero (i : Nat) : inMask 0 i = false := BitVec.getLsbD_zero

/-! ### Accesses by their numbers -/

theorem State.acc?_dropAcc (s : State) (id : Nat) : (s.dropAcc id).acc? id = none := by
  rw [State.acc?, List.find?_eq_none]
  intro a ha
  simpa using (List.mem_filter.1 ha).2

/-- An access replaced by itself. -/
theorem State.setAcc_self {a : Access} (h : ∀ b ∈ s.accs, b.id = a.id → b = a) : s.setAcc a = s := by
  have hmap : s.accs.map (fun b => if b.id = a.id then a else b) = s.accs := by
    refine (List.map_congr_left fun b hb => ?_).trans (List.map_id _)
    split
    · next hid => exact (h b hb hid).symm
    · rfl
  rw [State.setAcc, hmap]

/-! ### What only registers -/

/-- The scalar and the vector registers alone differ. -/
def Weft.RegsOnly (w v : Weft) : Prop := v = { w with sregs := v.sregs, vregs := v.vregs }

theorem Weft.RegsOnly.refl (w : Weft) : w.RegsOnly w := rfl

theorem Weft.RegsOnly.trans {w v u : Weft} (h : w.RegsOnly v) (k : v.RegsOnly u) : w.RegsOnly u := by
  unfold Weft.RegsOnly at *
  rw [k, h]

theorem Weft.RegsOnly.foldl {α : Type} (f : Weft → α → Weft) (h : ∀ (w : Weft) (x : α), w.RegsOnly (f w x)) (l : List α) (w : Weft) :
    w.RegsOnly (l.foldl f w) := by
  induction l generalizing w with
  | nil => exact .refl w
  | cons x r ih => exact (h w x).trans (ih _)

theorem Weft.setV_regsOnly (w : Weft) (n : Nat) (m : W64) (v : VVal) : w.RegsOnly (w.setV n m v) := by
  unfold Weft.setV
  split <;> rfl

theorem Weft.setLane_regsOnly (w : Weft) (n i : Nat) (v : W32) : w.RegsOnly (w.setLane n i v) := rfl

theorem Weft.setS_regsOnly (w : Weft) (n : Nat) (v : W64) : w.RegsOnly (w.setS n v) := rfl

theorem Weft.fillV_regsOnly (w : Weft) (f : Bool) (ns : List Nat) : w.RegsOnly (w.fillV f ns) := by
  induction ns generalizing w with
  | nil => exact .refl w
  | cons n r ih => exact Weft.RegsOnly.trans (v := { w with vregs := modAt w.vregs n fun x => { x with full := f } }) rfl (ih _)

theorem Weft.fillDest_regsOnly (w : Weft) (d : Dest) (f : Bool) : w.RegsOnly (w.fillDest d f) := by
  unfold Weft.fillDest
  split
  · exact rfl
  · exact Weft.fillV_regsOnly ..
  · exact rfl

theorem Weft.writeWords_regsOnly (w : Weft) (a : Access) (m : W64) (k : Nat) (ns : List Nat) : w.RegsOnly (w.writeWords a m k ns) := by
  induction ns generalizing w k with
  | nil => exact .refl w
  | cons n r ih => exact (Weft.setV_regsOnly ..).trans (ih _ (k + 1))

theorem Weft.writeLane_regsOnly (w : Weft) (a : Access) (l : LaneAcc) (k : Nat) (ns : List Nat) : w.RegsOnly (w.writeLane a l k ns) := by
  induction ns generalizing w k with
  | nil => exact .refl w
  | cons n r ih => exact (Weft.setLane_regsOnly ..).trans (ih _ (k + 1))

theorem Weft.wholeWritten_regsOnly (w : Weft) (rs : List (List Nat)) : w.RegsOnly (w.wholeWritten rs) := by
  unfold Weft.wholeWritten
  split
  · exact .refl w
  · refine .foldl _ (fun w n => ?_) _ _
    split <;> rfl

theorem Weft.writeDest_regsOnly (w : Weft) (a : Access) : w.RegsOnly (w.writeDest a) := by
  unfold Weft.writeDest
  split
  · exact .refl w
  · dsimp only
    split
    · exact .refl w
    · split
      · exact Weft.setS_regsOnly ..
      · exact .refl w
    · exact Weft.writeWords_regsOnly ..
    · exact Weft.RegsOnly.trans (.foldl _ (fun w l => Weft.writeLane_regsOnly ..) _ _) (Weft.wholeWritten_regsOnly ..)

/-! ### Registers empty and full (R226) -/

/-- A part that a change of an entry keeps. -/
theorem getD_modAt_keeps {α β : Type} (g : α → β) (f : α → α) (h : ∀ x, g (f x) = g x) (l : List α) (n m : Nat) (d : α) :
    g ((modAt l n f).getD m d) = g (l.getD m d) := by
  rw [List.getD_eq_getElem?_getD, List.getD_eq_getElem?_getD, getElem?_modAt]
  split
  · cases l[m]? with
    | none => rfl
    | some x => exact h x
  · rfl

theorem Weft.fillV_val (w : Weft) (f : Bool) (ns : List Nat) (m : Nat) : ((w.fillV f ns).vreg m).val = (w.vreg m).val := by
  induction ns generalizing w with
  | nil => rfl
  | cons n r ih =>
    exact (ih _).trans (getD_modAt_keeps VReg.val (fun x : VReg => { x with full := f }) (fun _ => rfl) w.vregs n m VReg.zero)

theorem Weft.fillV_sregs (w : Weft) (f : Bool) (ns : List Nat) : (w.fillV f ns).sregs = w.sregs := by
  induction ns generalizing w with
  | nil => rfl
  | cons n r ih => exact ih _

/-- A register outside the list keeps its state. -/
theorem Weft.fillV_full (w : Weft) (f : Bool) (ns : List Nat) {m : Nat} (hm : m < w.vregs.length) :
    ((w.fillV f ns).vreg m).full = if m ∈ ns then f else (w.vreg m).full := by
  induction ns generalizing w with
  | nil => rfl
  | cons n r ih =>
    have hlen : m < (modAt w.vregs n fun x : VReg => { x with full := f }).length := by rwa [length_modAt]
    have hone : ((modAt w.vregs n fun x : VReg => { x with full := f }).getD m VReg.zero).full
        = if m = n then f else (w.vreg m).full := by
      rw [getD_modAt _ _ _ _ _ (fun h => h ▸ hm), apply_ite VReg.full]; rfl
    rw [Weft.fillV, ih { w with vregs := modAt w.vregs n fun x => { x with full := f } } hlen]
    show (if m ∈ r then f else ((modAt w.vregs n fun x : VReg => { x with full := f }).getD m VReg.zero).full) = _
    rw [hone]
    by_cases h : m = n <;> by_cases hr : m ∈ r <;> simp [h, hr]

theorem Weft.fillS_sreg (w : Weft) (f : Bool) {n : Nat} (hn : n < w.sregs.length) (m : Nat) :
    (w.fillS n f).sreg m = if m = n then { w.sreg n with full := f } else w.sreg m := by
  rw [Weft.sreg, Weft.fillS, getD_modAt _ _ _ _ _ (fun _ => hn)]
  split
  · next h => rw [h]; rfl
  · rfl

theorem Weft.fillDest_val (w : Weft) (d : Dest) (f : Bool) (m : Nat) :
    ((w.fillDest d f).sreg m).val = (w.sreg m).val ∧ ((w.fillDest d f).vreg m).val = (w.vreg m).val := by
  cases d with
  | sreg n => exact ⟨getD_modAt_keeps SReg.val (fun x : SReg => { x with full := f }) (fun _ => rfl) w.sregs n m _, rfl⟩
  | vregs ns => exact ⟨congrArg (fun l : List SReg => (l.getD m { val := 0, full := true, pois := false }).val) (w.fillV_sregs f ns),
      w.fillV_val f ns m⟩
  | discard => exact ⟨rfl, rfl⟩
  | xregs pv => exact ⟨rfl, rfl⟩

/-- The scalar register that an access fills or empties is its destination. -/
theorem Weft.fillDest_sreg_full (w : Weft) (d : Dest) (f : Bool) {n : Nat} (hn : n < w.sregs.length) :
    (d ≠ .sreg n → ((w.fillDest d f).sreg n).full = (w.sreg n).full) ∧ (d = .sreg n → ((w.fillDest d f).sreg n).full = f) := by
  refine ⟨fun hd => ?_, fun hd => ?_⟩
  · cases d with
    | sreg m =>
      have hne : n ≠ m := fun h => hd (h ▸ rfl)
      exact congrArg SReg.full ((List.getD_eq_getElem?_getD ..).trans ((congrArg (Option.getD · _) ((getElem?_modAt ..).trans (if_neg hne))).trans
        (List.getD_eq_getElem?_getD ..).symm))
    | vregs ns => exact congrArg (fun l : List SReg => (l.getD n { val := 0, full := true, pois := false }).full) (w.fillV_sregs f ns)
    | discard => rfl
    | xregs pv => rfl
  · subst hd
    exact (congrArg SReg.full (w.fillS_sreg f hn n)).trans (by rw [if_pos rfl])

/-! ### Counters (R229) -/

theorem Weft.count_raise (w : Weft) {c : Nat} (k id : Nat) (hc : c < w.cnt.length) :
    (w.raise k id).count c = w.count c + if k = c then 1 else 0 := by
  rw [Weft.count, Weft.raise, getD_modAt _ _ _ _ _ (fun h => h ▸ hc)]
  by_cases h : c = k
  · rw [if_pos h, if_pos h.symm, List.length_append]; rfl
  · rw [if_neg h, if_neg (Ne.symm h)]; rfl

/-- The one operation on a counter completes. -/
theorem Weft.count_lower {w : Weft} {e : CntEntry} (h : w.cnt.head? = some [e]) : (w.lower 0 e.op).count 0 = 0 := by
  cases hc : w.cnt with
  | nil => rw [hc] at h; cases h
  | cons x r =>
    rw [hc] at h
    cases h
    simp [Weft.count, Weft.lower, hc, modAt, dropDone]

end Sys2Proof.Machine
end

section
/-! PROOF of O28. An access starts and finishes. -/

namespace Sys2Proof.Machine
variable {s : State}

/-! ### An access whose lanes wait for local channels -/

/-- The lanes all wait for channels of this package (R52). -/
def Access.WaitsHere (a : Access) : Prop := a.lanes ≠ [] ∧ ∀ l ∈ a.lanes, l.st = .waiting ∧ isFabric l.ea = false

theorem State.sendFabric_local {id : Nat} {a : Access} (h : s.acc? id = some a) (hl : ∀ l ∈ a.lanes, l.st = .waiting → isFabric l.ea = false) :
    s.sendFabric id = s := by
  have hnone : (a.lanes.filter fun l => l.st == .waiting && isFabric l.ea) = [] := by
    rw [List.filter_eq_nil_iff]
    intro l hm hb
    rw [Bool.and_eq_true, beq_iff_eq] at hb
    exact Bool.false_ne_true ((hl l hm hb.1).symm.trans hb.2)
  simp only [State.sendFabric, h, hnone]
  exact ite_self _

/-- With no persist barrier outstanding there is no persist point to take (R422). -/
theorem State.checkPersist_none {core slot : Nat} {w : Weft} (hw : s.weft? core slot = some w) (hp : w.pbars = []) : s.checkPersist core slot = s := by
  simp only [State.checkPersist, hw, hp]
  rfl

theorem Access.WaitsHere.undecided {a : Access} (h : a.WaitsHere) : a.lanes.all (LaneAcc.decided a.kind.reads) = false
    ∧ (a.lanes.all fun l => l.decided a.kind.reads || l.isHeld) = false := by
  obtain ⟨hne, hl⟩ := h
  obtain ⟨l, hm⟩ := List.exists_mem_of_ne_nil _ hne
  obtain ⟨hst, hf⟩ := hl l hm
  have hd : l.decided a.kind.reads = false := by rw [LaneAcc.decided, hst]; simp [hf]
  have hh : l.isHeld = false := by rw [LaneAcc.isHeld, hst]
  exact ⟨List.all_eq_false.2 ⟨l, hm, by simp [hd]⟩, List.all_eq_false.2 ⟨l, hm, by simp [hd, hh]⟩⟩

/-- An access whose channels have not answered stays as it is (R52). -/
theorem State.progress_waits {a : Access} {w : Weft} (ha : s.acc? a.id = some a) (hu : ∀ b ∈ s.accs, b.id = a.id → b = a)
    (hw : s.weft? a.core a.slot = some w) (hs : a.settled = false) (hp : a.parked = false) (hl : a.WaitsHere) (hb : w.pbars = []) :
    s.progress a.id = s := by
  obtain ⟨hd, hh⟩ := hl.undecided
  have hset : s.settle a = s := by
    simp only [State.settle, hw, hd, Bool.not_false, if_true]
    rw [State.settleWait, hh, if_neg Bool.false_ne_true, State.setAcc_self hu]
  have hlate : s.late a.id = s := by
    simp only [State.late, ha, hs]
    rfl
  have hfin : s.finish a.id = s := by
    simp only [State.finish, ha, hs]
    rfl
  have hsend : s.sendFabric a.id = s := State.sendFabric_local ha fun l hm _ => (hl.2 l hm).2
  simp only [State.progress, ha, hs, hp, Bool.false_and, Bool.or_false, Bool.false_eq_true, hset, hsend, ite_self, hlate, hfin]
  exact State.checkPersist_none hw hb

/-! ### The start of an access -/

/-- The weft of an access that starts (R226, R229): its counter is higher, its destination empty, and the fate of its group open. -/
def Weft.starts (w : Weft) (a : Access) (id tag : Nat) (range : Option (Nat × Nat)) : Weft :=
  let w1 := (match a.cnt with | some c => w.raise c id | none => w).fillDest a.dst false
  { w1 with unsettled := some id, waiting := none, snapStep := tag
            busy := match range with | some r => w1.busy ++ [(id, r.1, r.2)] | none => w1.busy }

/-- What a start changes of its weft. -/
theorem Weft.starts_frame (w : Weft) (a : Access) (id tag : Nat) (range : Option (Nat × Nat)) : ∃ sr vr cn bu, w.starts a id tag range
    = { w with sregs := sr, vregs := vr, cnt := cn, unsettled := some id, waiting := none, snapStep := tag, busy := bu } := by
  have hr := (match a.cnt with | some c => w.raise c id | none => w).fillDest_regsOnly a.dst false
  unfold Weft.starts
  rw [hr]
  cases a.cnt with
  | none => exact ⟨_, _, w.cnt, _, rfl⟩
  | some c => exact ⟨_, _, _, _, rfl⟩

theorem Weft.starts_keeps (w : Weft) (a : Access) (id tag : Nat) (range : Option (Nat × Nat)) :
    (w.starts a id tag range).core = w.core ∧ (w.starts a id tag range).slot = w.slot ∧ (w.starts a id tag range).pbars = w.pbars
    ∧ (w.starts a id tag range).pc = w.pc ∧ (w.starts a id tag range).em = w.em ∧ (w.starts a id tag range).xregs = w.xregs := by
  obtain ⟨sr, vr, cn, bu, hv⟩ := w.starts_frame a id tag range
  rw [hv]
  exact ⟨rfl, rfl, rfl, rfl, rfl, rfl⟩

theorem Weft.starts_count (w : Weft) (a : Access) (id tag : Nat) (range : Option (Nat × Nat)) {c : Nat} (hc : c < w.cnt.length) :
    (w.starts a id tag range).count c = w.count c + if a.cnt = some c then 1 else 0 := by
  have hr := (match a.cnt with | some c => w.raise c id | none => w).fillDest_regsOnly a.dst false
  have hcnt : (w.starts a id tag range).cnt = (match a.cnt with | some c => w.raise c id | none => w).cnt := by
    unfold Weft.starts
    rw [hr]
  rw [Weft.count, hcnt]
  cases a.cnt with
  | none => rfl
  | some k =>
    simp only [Option.some_inj]
    exact w.count_raise k id hc

theorem Weft.starts_regs (w : Weft) (a : Access) (id tag : Nat) (range : Option (Nat × Nat)) :
    (w.starts a id tag range).sregs = (w.fillDest a.dst false).sregs ∧ (w.starts a id tag range).vregs = (w.fillDest a.dst false).vregs := by
  have h : ∀ v : Weft, v.sregs = w.sregs → v.vregs = w.vregs →
      (v.fillDest a.dst false).sregs = (w.fillDest a.dst false).sregs ∧ (v.fillDest a.dst false).vregs = (w.fillDest a.dst false).vregs := by
    intro v hs hv
    cases a.dst with
    | sreg n => exact ⟨by simp only [Weft.fillDest, Weft.fillS, hs], hv⟩
    | vregs ns =>
      refine ⟨by simp only [Weft.fillDest, Weft.fillV_sregs, hs], ?_⟩
      simp only [Weft.fillDest]
      induction ns generalizing v w with
      | nil => exact hv
      | cons n r ih => exact ih _ _ hs (by simp only [hv])
    | discard => exact ⟨hs, hv⟩
    | xregs pv => exact ⟨hs, hv⟩
  unfold Weft.starts
  cases a.cnt with
  | none => exact ⟨rfl, rfl⟩
  | some c => exact h (w.raise c id) rfl rfl

theorem Weft.starts_busy (w : Weft) (a : Access) (id tag : Nat) (r : Nat × Nat) : (id, r.1, r.2) ∈ (w.starts a id tag (some r)).busy :=
  List.mem_append_right _ (List.mem_singleton.2 rfl)

/-- The access that a start puts in flight: its number is new. -/
def State.newAcc (s : State) (a : Access) : Access := { a with id := s.nextId, op := s.nextId, heldBy := none }

/-- The state in which a new access is in flight and nothing else has happened. -/
def State.inFlightWith (s : State) (w : Weft) (a : Access) (range : Option (Nat × Nat)) : State :=
  (({ s with nextId := s.nextId + 1, accs := s.accs ++ [s.newAcc a] }).addRequests w.core
    (if a.kind == AccKind.fetch then 0 else openLines a.lanes)).setWeft (w.starts a s.nextId (s.snapTag w (s.newAcc a)) range)

section start
variable {w : Weft} {a : Access} {range : Option (Nat × Nat)} (hw : s.weft? w.core w.slot = some w) (hl : a.WaitsHere) (hb : w.pbars = [])
  (hnew : ∀ b ∈ s.accs, b.id ≠ s.nextId ∧ b.parked = false ∧ ∀ l ∈ b.lanes, l.replaying = false)

include hw in
theorem State.inFlightWith_weft? : (s.inFlightWith w a range).weft? w.core w.slot = some (w.starts a s.nextId (s.snapTag w (s.newAcc a)) range) := by
  obtain ⟨hcore, hslot, -⟩ := w.starts_keeps a s.nextId (s.snapTag w (s.newAcc a)) range
  exact weft?_setWeft (s := ({ s with nextId := s.nextId + 1, accs := s.accs ++ [s.newAcc a] }).addRequests w.core
    (if a.kind == AccKind.fetch then 0 else openLines a.lanes)) hw hcore hslot

include hnew in
theorem State.inFlightWith_acc? : (s.inFlightWith w a range).acc? s.nextId = some (s.newAcc a) := by
  have hnone : s.accs.find? (fun b => b.id == s.nextId) = none := by
    rw [List.find?_eq_none]
    intro b hm
    simpa using (hnew b hm).1
  show (s.accs ++ [s.newAcc a]).find? (fun b => b.id == s.nextId) = _
  rw [List.find?_append, hnone]
  simp [State.newAcc]

include hnew in
theorem State.inFlightWith_unique {b : Access} (hm : b ∈ (s.inFlightWith w a range).accs) (hid : b.id = s.nextId) : b = s.newAcc a := by
  rcases List.mem_append.1 (show b ∈ s.accs ++ [s.newAcc a] from hm) with h | h
  · exact absurd hid (hnew b h).1
  · exact List.mem_singleton.1 h

include hnew in
/-- No store of the weft stands in the replay queue (R248). -/
theorem State.olderParked_none (x : Access) (ea : W64) : s.olderParked x ea = false := by
  have hlane : ∀ b ∈ s.accs, (b.lanes.any fun l => (b.parked || l.replaying) && !l.closed && decide (l.ea.toNat / 4096 = ea.toNat / 4096)) = false := by
    intro b hm
    rw [List.any_eq_false]
    intro l hlm
    simp [(hnew b hm).2.1, (hnew b hm).2.2 l hlm]
  rw [State.olderParked, State.parkedBefore, List.any_eq_false]
  intro b hm
  have := hlane b hm
  simp only [Bool.and_eq_true, not_and]
  intro _ h
  exact absurd h (by simpa using hlane b hm)

include hw hl hb hnew in
theorem State.startAccess_waits (hc : a.core = w.core) (hs : a.slot = w.slot) (hset : a.settled = false) (hpark : a.parked = false) :
    s.startAccess w a range = s.inFlightWith w a range := by
  have hjoin : (a.lanes.any fun l => s.olderParked { a with id := s.nextId, op := s.nextId } l.ea) = false := by
    simp [State.olderParked_none hnew]
  have hhold : w.holder = none := by rw [Weft.holder, hb]; rfl
  have hstart : s.startAccess w a range = ((s.inFlightWith w a range).sendFabric s.nextId).progress s.nextId := by
    simp only [State.startAccess, hjoin, Bool.and_false, Bool.false_eq_true, if_false, hhold, ite_self]
    rfl
  have hacc := State.inFlightWith_acc? (w := w) (a := a) (range := range) hnew
  obtain ⟨-, -, hbars, -⟩ := w.starts_keeps a s.nextId (s.snapTag w (s.newAcc a)) range
  rw [hstart, State.sendFabric_local hacc fun l hm _ => (hl.2 l hm).2]
  refine State.progress_waits (a := s.newAcc a) hacc (fun b hm hid => State.inFlightWith_unique hnew hm hid) ?_ hset hpark hl (hbars.trans hb)
  rw [show (s.newAcc a).core = w.core from hc, show (s.newAcc a).slot = w.slot from hs]
  exact State.inFlightWith_weft? hw

end start

/-! ### The end of a load -/

/-- The weft of a load or a store that finishes (R228, R229). -/
def Weft.loaded (w : Weft) (a : Access) : Weft := ((((w.writeDest a).fillDest a.dst true)).lowerAcc a).detach a

theorem State.finish_performed {a : Access} {w : Weft} (ha : s.acc? a.id = some a) (hw : s.weft? a.core a.slot = some w) (hk : a.kind = .load ∨ a.kind = .store)
    (hs : a.settled = true) (hq : a.acq = false) (hd : ∀ l ∈ a.lanes, l.st = .done) (hlast : s.lastOf a = true) :
    s.finish a.id = (s.dropAcc a.id).setWeft (w.loaded a) := by
  have hclosed : a.lanes.all LaneAcc.closed = true := List.all_eq_true.2 fun l hm => by rw [LaneAcc.closed, hd l hm]
  have hgo : ¬ (!a.settled || !a.lanes.all LaneAcc.closed) = true := by simp [hs, hclosed]
  rcases hk with hk | hk
  all_goals
    simp only [State.finish, ha, hw, hk, hlast, hq, if_true, Bool.false_eq_true, if_false]
    exact if_neg hgo

theorem Weft.loaded_frame {w : Weft} {a : Access} (hc : a.cnt = some 0) : ∃ sr vr bu us pk, w.loaded a
    = { w.lower 0 a.op with sregs := sr, vregs := vr, busy := bu, unsettled := us, parked := pk } := by
  have hr := (w.writeDest_regsOnly a).trans ((w.writeDest a).fillDest_regsOnly a.dst true)
  unfold Weft.loaded Weft.lowerAcc
  rw [hc, hr]
  exact ⟨_, _, _, _, _, rfl⟩

theorem Weft.loaded_regs (w : Weft) (a : Access) : (w.loaded a).sregs = ((w.writeDest a).fillDest a.dst true).sregs
    ∧ (w.loaded a).vregs = ((w.writeDest a).fillDest a.dst true).vregs := by
  unfold Weft.loaded Weft.lowerAcc
  cases a.cnt <;> exact ⟨rfl, rfl⟩

theorem filter_done {ls : List LaneAcc} (h : ∀ l ∈ ls, l.st = .done) : (ls.filter fun l => l.st == .done) = ls :=
  List.filter_eq_self.2 fun l hm => beq_iff_eq.2 (h l hm)

/-- A scalar destination after a load (R409). -/
theorem Weft.writeDest_sreg {w : Weft} {a : Access} {l : LaneAcc} {n : Nat} (hk : a.kind.reads = true) (hd : ∀ l ∈ a.lanes, l.st = .done)
    (hdst : a.dst = .sreg n) (hn : n < w.sregs.length) (hl : a.lanes.head? = some l) :
    ((w.writeDest a).fillDest a.dst true).sreg n = { val := a.scalarValue l, full := true, pois := false } := by
  have hwrite : w.writeDest a = w.setS n (a.scalarValue l) := by
    obtain ⟨r, hr⟩ := List.head?_eq_some_iff.1 hl
    rw [hr] at hd
    simp only [Weft.writeDest, hk, hdst, Bool.not_true, Bool.false_eq_true, if_false, hr, filter_done hd]
  rw [hwrite, hdst]
  show ((w.setS n (a.scalarValue l)).fillS n true).sreg n = _
  rw [Weft.fillS_sreg _ _ (by rw [Weft.setS, length_modAt]; exact hn), if_pos rfl, Weft.sreg, Weft.setS, getD_modAt _ _ _ _ _ (fun _ => hn),
    if_pos rfl]

theorem find?_lane {ls : List LaneAcc} {l : LaneAcc} (h : (ls.map LaneAcc.lane).Nodup) (hl : l ∈ ls) :
    (ls.find? fun m => m.lane == l.lane) = some l := by
  induction ls with
  | nil => cases hl
  | cons x r ih =>
    rw [List.map_cons, List.nodup_cons] at h
    rcases List.mem_cons.1 hl with rfl | hm
    · exact List.find?_cons_of_pos (beq_self_eq_true _)
    · have hne : ¬ (x.lane == l.lane) = true := fun he => h.1 (List.mem_map.2 ⟨l, hm, (beq_iff_eq.1 he).symm⟩)
      exact (List.find?_cons_of_neg (p := fun m : LaneAcc => m.lane == l.lane) hne).trans (ih h.2 hm)

/-- A value written under a mask, in a lane of the mask (R202). -/
theorem lane_mergeV {m : W64} {old new : VVal} {i : Nat} (hi : i < 64) (hm : inMask m i = true) : (mergeV m old new).lane i = new.lane i := by
  unfold mergeV
  split
  · rfl
  · split
    · next h0 => rw [h0, inMask_zero] at hm; cases hm
    · rw [lane_g _ hi, hm, if_pos rfl]

/-- A vector destination after a load of words (R409). -/
theorem Weft.writeDest_vreg {w : Weft} {a : Access} {n : Nat} (hk : a.kind.reads = true) (hd : ∀ l ∈ a.lanes, l.st = .done)
    (hdst : a.dst = .vregs [n]) (hn : n < w.vregs.length) (hsz : a.size = 4) (h64 : ∀ l ∈ a.lanes, l.lane < 64)
    (hnd : (a.lanes.map LaneAcc.lane).Nodup) : (((w.writeDest a).fillDest a.dst true).vreg n).full = true
      ∧ ∀ l ∈ a.lanes, (((w.writeDest a).fillDest a.dst true).vreg n).val.lane l.lane = BitVec.ofNat 32 l.data := by
  have hwrite : w.writeDest a = w.setV n (maskOf fun i => a.lanes.any fun l => l.lane == i) (a.gword 0) := by
    simp only [Weft.writeDest, hk, filter_done hd, hdst, Bool.not_true, Bool.false_eq_true, if_false]
    rfl
  have hlen : n < (w.setV n (maskOf fun i => a.lanes.any fun l => l.lane == i) (a.gword 0)).vregs.length := by
    unfold Weft.setV
    split
    · exact hn
    · rwa [length_modAt]
  rw [hwrite, hdst]
  refine ⟨(Weft.fillV_full _ _ [n] hlen).trans (if_pos (List.mem_singleton.2 rfl)), fun l hl => ?_⟩
  have hi := h64 l hl
  have hin : inMask (maskOf fun i => a.lanes.any fun l => l.lane == i) l.lane = true := by
    rw [inMask_maskOf _ hi]
    exact List.any_eq_true.2 ⟨l, hl, beq_self_eq_true _⟩
  have hne : ¬ maskOf (fun i => a.lanes.any fun l => l.lane == i) = 0 := fun h0 => by
    rw [h0, inMask_zero] at hin; cases hin
  refine (congrArg (VVal.lane · l.lane) (Weft.fillV_val _ true [n] n)).trans ?_
  rw [Weft.setV, if_neg hne, Weft.vreg, getD_modAt _ _ _ _ _ (fun _ => hn), if_pos rfl]
  refine (lane_mergeV hi hin).trans ?_
  rw [Access.gword, lane_g _ hi, find?_lane hnd hl]
  simp [Access.word, hsz]

/-- Settles O28: the start by the state it leaves, the end by what a finished load writes. -/
theorem accessesStartAndFinish : Obligations.AccessesStartAndFinish := by
  unfold Obligations.AccessesStartAndFinish
  refine ⟨fun s w a range hw hc hs hset hpark hne hl hb hnew => ?start, fun s w a e ha hw hk hs hq hne hd hc he hop hlast => ?finish⟩
  case start =>
    obtain ⟨hsr, hvr⟩ := w.starts_regs a s.nextId (s.snapTag w (s.newAcc a)) range
    obtain ⟨hcore, hslot, -, hpc, hem, hx⟩ := w.starts_keeps a s.nextId (s.snapTag w (s.newAcc a)) range
    refine ⟨_, _, State.startAccess_waits hw ⟨hne, hl⟩ hb hnew hc hs hset hpark, State.inFlightWith_weft? hw, rfl, rfl,
      fun c hlt => w.starts_count a _ _ range hlt, fun n hn => ?_, fun ns hdst n hmem hn => ?_, fun n => ?_, rfl, ?_, ?_, ?_, fun r hr => ?_,
      fun k => rfl, fun v hv => ?_⟩
    · obtain ⟨hother, hdest⟩ := w.fillDest_sreg_full a.dst false hn
      rw [Weft.sreg, hsr]
      by_cases hd : a.dst = .sreg n
      · exact .inr ⟨hdest hd, hd⟩
      · exact .inl ⟨hother hd, hd⟩
    · rw [Weft.vreg, hvr, hdst]
      exact (w.fillV_full false ns hn).trans (if_pos hmem)
    · rw [Weft.sreg, Weft.vreg, hsr, hvr]
      exact w.fillDest_val a.dst false n
    · exact hpc
    · exact hem
    · exact hx
    · rw [hr]
      exact w.starts_busy ..
    · exact mem_setWeft _ _ v (by rwa [hcore, hslot])
  case finish =>
    have hl : s.lastOf a = true := by
      rw [State.lastOf, Bool.not_eq_true', List.any_eq_false]
      intro b hm hb
      simp only [Bool.and_eq_true, bne_iff_ne, beq_iff_eq] at hb
      obtain ⟨⟨⟨hid, hcore⟩, hslot⟩, hop⟩ := hb
      exact hid (hlast b hm hop hcore hslot)
    obtain ⟨sr, vr, bu, us, pk, hv⟩ := Weft.loaded_frame (w := w) hc
    obtain ⟨hsr, hvr⟩ := w.loaded_regs a
    have hr : a.kind.reads = true := by rw [hk]; rfl
    obtain ⟨hcore, hslot⟩ := weft?_slot hw
    refine ⟨_, w.loaded a, State.finish_performed ha hw (.inl hk) hs hq hd hl, weft?_setWeft (s := s.dropAcc a.id) hw (by rw [hv]; exact hcore)
      (by rw [hv]; exact hslot), State.acc?_dropAcc s a.id, ?_, fun n hdst hn l hhead => ?_, fun n hdst hn hsz h64 hnd => ?_, by rw [hv]; rfl,
      fun k => rfl⟩
    · rw [hv, ← hop]
      exact Weft.count_lower he
    · rw [Weft.sreg, hsr]
      exact Weft.writeDest_sreg hr hd hdst hn hhead
    · rw [Weft.vreg, hvr]
      exact Weft.writeDest_vreg hr hd hdst hn hsz h64 hnd

end Sys2Proof.Machine
end

section
/-! PROOF of O49, first part. The steps of the channels: polls, sleeps, hampers, the scrubber and refreshes. -/

namespace Sys2Proof.Machine
variable {s : State}

/-! ### Polls and sleeps -/

theorem State.acc?_setAcc {a b : Access} (h : s.acc? a.id = some a) (hb : b.id = a.id) : (s.setAcc b).acc? a.id = some b := by
  simp only [State.acc?, State.setAcc] at h ⊢
  have hfun : ((fun x : Access => x.id == a.id) ∘ fun x => if x.id = b.id then b else x) = fun x => x.id == a.id := by
    funext x
    by_cases hx : x.id = b.id
    · simp [hx, hb]
    · simp [hx]
  rw [List.find?_map, hfun, h]
  simp [hb]

/-- A poll of a `swait` (R419). -/
theorem execSwaitPoll_asks {core slot : Nat} {w : Weft} {a : Access} (hw : s.weft? core slot = some w) (hup : s.up = true)
    (hwait : w.waiting = some .swait) (hu : w.unsettled = some a.id) (ha : s.acc? a.id = some a) (hs : a.settled = true) :
    execSwaitPoll core slot s = .next ((s.setAcc a.again).setWeft { w with waiting := none }) := by
  simp only [execSwaitPoll, hw, hu, Option.bind_some, ha, hup, hwait, hs]
  rfl

theorem execSwaitPoll_idle {core slot : Nat} {w : Weft} (hw : s.weft? core slot = some w) (hwait : w.waiting ≠ some .swait) :
    execSwaitPoll core slot s = .next s := by
  have hne : (w.waiting == some .swait) = false := by simpa using hwait
  simp only [execSwaitPoll, hw, hne, Bool.and_false, Bool.false_and, Bool.false_eq_true, if_false]
  split <;> rfl

theorem State.swaitPoll_does {core slot : Nat} {w : Weft} {a : Access} (hw : s.weft? core slot = some w) (hup : s.up = true)
    (hwait : w.waiting = some .swait) (hu : w.unsettled = some a.id) (ha : s.acc? a.id = some a) (hs : a.settled = true) :
    s.Does (.swaitPoll core slot) fun t => t.weft? core slot = some { w with waiting := none }
      ∧ ∃ b, t.acc? a.id = some b ∧ b.settled = false ∧ (∀ l ∈ b.lanes, l.st = .waiting) ∧ b.lanes.length = a.lanes.length := by
  obtain ⟨hcore, hslot⟩ := weft?_slot hw
  refine ⟨_, execSwaitPoll_asks hw hup hwait hu ha hs, weft?_setWeft (s := s.setAcc a.again) hw hcore hslot,
    a.again, State.acc?_setAcc (b := a.again) ha rfl, rfl, fun l hl => ?_, List.length_map _⟩
  obtain ⟨x, -, rfl⟩ := List.mem_map.1 hl
  rfl

theorem State.sleepExpiry_does {core slot : Nat} {w : Weft} (hw : s.weft? core slot = some w) :
    s.Does (.sleepExpiry core slot) fun t => t.weft? core slot = some { w with sleep := 0 } ∧ s.OtherWefts t core slot := by
  obtain ⟨hcore, hslot⟩ := weft?_slot hw
  have hrun : execSleepExpiry core slot s = .next (s.setWeft { w with sleep := 0 }) := by rw [execSleepExpiry, hw]
  refine ⟨_, hrun, weft?_setWeft hw hcore hslot, fun v hv => mem_setWeft s _ v ?_⟩
  rwa [← hcore, ← hslot] at hv

/-! ### Hampers (R172) -/

/-- The bytes that hampers hold lie in their own stacks, each once an entry. -/
def State.HampersApart (s : State) : Prop :=
  ∀ h ∈ s.hamp, (h.bytes.map Prod.fst).Nodup ∧ ∀ c ∈ h.bytes, keyStack c.1 = h.stack ∧ keyIsScm c.1 = true

theorem splitHamp_first {old new : List HampEntry} {e : HampEntry} (h : ∀ x ∈ old, x.stack ≠ e.stack) :
    splitHamp e.stack (old ++ e :: new) = some (e, old ++ new) := by
  induction old with
  | nil => exact if_pos rfl
  | cons x r ih =>
    rw [List.cons_append, splitHamp, if_neg (h x List.mem_cons_self), ih fun y hy => h y (List.mem_cons_of_mem _ hy)]
    rfl

theorem splitHamp_some {stack : Nat} {l r : List HampEntry} {e : HampEntry} (h : splitHamp stack l = some (e, r)) :
    ∃ old new, l = old ++ e :: new ∧ r = old ++ new ∧ e.stack = stack ∧ ∀ x ∈ old, x.stack ≠ stack := by
  induction l generalizing r with
  | nil => cases h
  | cons x l ih =>
    rw [splitHamp] at h
    split at h
    · next hx => cases h; exact ⟨[], l, rfl, rfl, hx, nofun⟩
    · next hx =>
      split at h
      · next y q hs =>
        cases h
        obtain ⟨old, new, rfl, rfl, he, hold⟩ := ih hs
        exact ⟨x :: old, new, rfl, rfl, he, fun z hz => (List.mem_cons.1 hz).elim (fun e => e ▸ hx) (hold z)⟩
      · cases h

/-- Entries of other stacks hold no byte of a key. -/
theorem hampByte_none {k : Nat} {l : List HampEntry} (h : ∀ e ∈ l, ∀ c ∈ e.bytes, c.1 ≠ k) : hampByte k l = none := by
  induction l with
  | nil => rfl
  | cons e r ih => rw [hampByte, ih fun x hx => h x (List.mem_cons_of_mem _ hx), cellAt_none k e.bytes (h e List.mem_cons_self)]

section writeBack
variable {old new : List HampEntry} {e : HampEntry} (hh : s.hamp = old ++ e :: new) (hold : ∀ x ∈ old, x.stack ≠ e.stack)

include hh hold in
theorem State.writeBack_eq : s.writeBack e.stack = { s.settleEntry e with hamp := old ++ new } := by
  rw [State.writeBack, hh, splitHamp_first hold]

include hh hold in
/-- The oldest entry of a stack goes where no older entry hides it: no byte reads otherwise (R172). -/
theorem State.writeBack_sameMemory (hi : s.Inv) (ha : s.HampersApart) : s.SameMemory (s.writeBack e.stack) := by
  intro k
  have heh : e ∈ s.hamp := by rw [hh]; exact List.mem_append_right _ List.mem_cons_self
  obtain ⟨hnd, hcells⟩ := ha e heh
  have hget : Memory.get (s.settleEntry e).mem k = (cellAt k e.bytes).getD (Memory.get s.mem k) := get_setAll_cellAt s.mem e.bytes k hi hnd
  rw [State.writeBack_eq hh hold]
  show (if keyIsScm k = true then match hampByte k (old ++ new) with | some b => b | none => Memory.get (s.settleEntry e).mem k
    else Memory.get (s.settleEntry e).mem k) = s.byte k
  rw [hget, State.byte, hh]
  cases hc : cellAt k e.bytes with
  | none =>
    have hbytes : hampByte k (old ++ e :: new) = hampByte k (old ++ new) := by
      rw [hampByte_append, hampByte_append, hampByte, hc]
      cases hampByte k new <;> rfl
    rw [hbytes]
    rfl
  | some b =>
    obtain ⟨c, hm, rfl⟩ := mem_of_cellAt hc
    obtain ⟨hst, hscm⟩ := hcells c hm
    have hnone : hampByte c.1 old = none := hampByte_none fun x hx d hd hk =>
      hold x hx (((ha x (by rw [hh]; exact List.mem_append_left _ hx)).2 d hd).1.symm.trans ((congrArg keyStack hk).trans hst))
    rw [if_pos hscm, if_pos hscm, hampByte_append, hampByte_append, hnone, hampByte, hc]
    cases hampByte c.1 new <;> rfl

end writeBack

theorem cellAt_mem {l : List Host.Cell} {c : Host.Cell} (h : (l.map Prod.fst).Nodup) (hc : c ∈ l) : cellAt c.1 l = some c.2 := by
  induction l with
  | nil => cases hc
  | cons x r ih =>
    rw [List.map_cons, List.nodup_cons] at h
    rw [cellAt]
    rcases List.mem_cons.1 hc with rfl | hm
    · exact if_pos rfl
    · rw [if_neg fun e => h.1 (List.mem_map.2 ⟨c, hm, e.symm⟩), ih h.2 hm]

theorem State.hamperWriteback_does {old new : List HampEntry} {e : HampEntry} (hb : s.boot.st = .ready) (hp : s.power.pf ≠ .halted)
    (hh : s.hamp = old ++ e :: new) (hold : ∀ x ∈ old, x.stack ≠ e.stack) (hi : s.Inv) (ha : s.HampersApart) :
    s.Does (.hamperWriteback e.stack) fun t => t.hamp = old ++ new ∧ s.SameMemory t ∧ t.Inv ∧ ∀ c ∈ e.bytes, Memory.get t.mem c.1 = c.2 := by
  have hgo : ¬ (s.boot.st != .ready || s.power.pf == .halted) = true := by simp [hb, hp]
  have hrun : execHamperWriteback e.stack s = .next (s.writeBack e.stack) := by rw [execHamperWriteback, if_neg hgo]
  have hnd := (ha e (by rw [hh]; exact List.mem_append_right _ List.mem_cons_self)).1
  refine ⟨_, hrun, by rw [State.writeBack_eq hh hold], State.writeBack_sameMemory hh hold hi ha, State.writeBack_inv hi, fun c hc => ?_⟩
  rw [State.writeBack_eq hh hold]
  refine (get_setAll_cellAt s.mem e.bytes c.1 hi hnd).trans ?_
  rw [cellAt_mem hnd hc]
  rfl

/-- An entry that carries no line makes room for itself, and no byte reads otherwise. -/
theorem State.addMeta_sameMemory {stack : Nat} (d : HampMeta) (h : s.hampRoom stack 1 = true ∨ s.Inv ∧ s.HampersApart) :
    s.SameMemory (s.addMeta stack d) := by
  have hroom : s.SameMemory (s.makeRoom stack 1 1) := by
    rw [State.makeRoom]
    split
    · exact fun k => rfl
    · next hr =>
      obtain ⟨hi, ha⟩ := h.resolve_left hr
      rw [State.makeRoom]
      cases hs : splitHamp stack s.hamp with
      | none => rw [State.writeBack, hs]; exact fun k => rfl
      | some p =>
        obtain ⟨e, r⟩ := p
        obtain ⟨old, new, hh, -, rfl, hold⟩ := splitHamp_some hs
        exact State.writeBack_sameMemory hh hold hi ha
  intro k
  rw [← hroom k, State.byte, State.byte]
  show (if keyIsScm k = true then match hampByte k ((s.makeRoom stack 1 1).hamp ++ [metaEntry stack d]) with
      | some b => b | none => Memory.get (s.makeRoom stack 1 1).mem k
    else Memory.get (s.makeRoom stack 1 1).mem k) = _
  rw [hampByte_append]
  rfl

theorem State.addMeta_enters (stack : Nat) (d : HampMeta) : metaEntry stack d ∈ (s.addMeta stack d).hamp :=
  List.mem_append_right _ (List.mem_singleton.2 rfl)

/-- Making room changes hampers and what they are written to, no more. -/
theorem State.addMeta_keeps (stack : Nat) (d : HampMeta) : (s.addMeta stack d).scrub = s.scrub ∧ (s.addMeta stack d).pois = s.pois := by
  have hback : ∀ t : State, (t.writeBack stack).scrub = t.scrub ∧ (t.writeBack stack).pois = t.pois := fun t => by
    unfold State.writeBack
    split <;> exact ⟨rfl, rfl⟩
  rw [State.addMeta, State.makeRoom]
  split
  · exact ⟨rfl, rfl⟩
  · exact hback s

/-! ### The scrubber (R62, R63) -/

theorem getElem?_setAt_same {α : Type} {l : List α} {n : Nat} (y : α) (h : n < l.length) : (setAt l n y)[n]? = some y := by
  induction l generalizing n with
  | nil => exact absurd h (Nat.not_lt_zero n)
  | cons x r ih =>
    cases n with
    | zero => rfl
    | succ n => exact ih (Nat.lt_of_succ_lt_succ h)

theorem Scrub.advance_stopped {x : Scrub} (h : x.stopped = true) : x.advance = { x with pos := if x.pos + 1 < 2 ^ 28 then x.pos + 1 else 0 } := by
  rw [Scrub.advance, if_pos h]
  rfl

theorem Scrub.advance_within {x : Scrub} (h : x.stopped = false) (hp : x.pos + 1 < 2 ^ 28) : x.advance.pos = x.pos + 1
    ∧ x.advance.vcur = x.vcur ∧ x.advance.stopped = false := by
  have hlt : x.pos + 1 < scmLines := hp
  simp only [Scrub.advance, h, Bool.false_eq_true, if_false, if_pos hlt, and_self]

theorem Scrub.advance_end {x : Scrub} (h : x.stopped = false) (hp : 2 ^ 28 ≤ x.pos + 1) : x.advance.pos = 0
    ∧ x.advance.vcur = x.vcur.map (· + 1) ∧ x.advance.oldest = x.oldest + 1 ∧ ∀ b ∈ x.advance.boundary, b = 0 := by
  have hge : ¬ x.pos + 1 < scmLines := Nat.not_lt.2 hp
  simp only [Scrub.advance, h, Bool.false_eq_true, if_false, if_neg hge, true_and]
  intro b hb
  obtain ⟨-, -, rfl⟩ := List.mem_map.1 hb
  rfl

/-- The scrubber's state after a line, with the counters of the group that it has encrypted again. -/
def State.scrubbed (s : State) (chan : Nat) (x : Scrub) (b : Option CtrBlock) : State :=
  { s with scrub := setAt s.scrub chan x.advance, ctrs := match b with | some b => s.ctrs.setBlock b | none => s.ctrs }

section scrub
variable {chan : Nat} {x : Scrub} (hup : s.up = true) (ht : s.power.t2off = false) (hc : chan < 96) (hx : s.scrub[chan]? = some x)

include hup ht hc hx in
theorem execPatrolScrub_rotates (hs : x.stopped = false) (hp : s.poisoned (scmKey chan (128 * x.pos)) 128 = false) :
    ∃ (b : Option CtrBlock) (t : State), execPatrolScrub chan s = .next t ∧ (t = (s.scrubbed chan x b).addMeta (chan / 16) (.scrub x.advance b)
      ∨ ∃ o, t = ((s.scrubbed chan x b).addMeta (chan / 16) (.scrub x.advance b)).emit o) := by
  have hgo : ¬ (!s.up || s.power.t2off || decide (96 ≤ chan)) = true := by simp [hup, ht, hc]
  have hget : s.scrub.getD chan (Scrub.init chan) = x := by rw [List.getD_eq_getElem?_getD, hx]; rfl
  refine ⟨s.ctrs.rekeyed s.scrub chan (x.pos / 32) (x.vcur.getD (128 * x.pos / 2 ^ 30) 0 + 1), _, rfl, ?_⟩
  simp only [hget, if_neg hgo, hp, hs, Bool.or_false, Bool.false_eq_true, if_false, Bool.not_false, Bool.and_true]
  split
  · exact .inr ⟨_, rfl⟩
  · exact .inl rfl

include hup ht hc hx in
theorem execPatrolScrub_stopped (hs : x.stopped = true) :
    ∃ t : State, execPatrolScrub chan s = .next t ∧ (t = s.scrubbed chan x none ∨ ∃ o, t = (s.scrubbed chan x none).emit o) := by
  have hgo : ¬ (!s.up || s.power.t2off || decide (96 ≤ chan)) = true := by simp [hup, ht, hc]
  have hget : s.scrub.getD chan (Scrub.init chan) = x := by rw [List.getD_eq_getElem?_getD, hx]; rfl
  refine ⟨_, rfl, ?_⟩
  simp only [hget, if_neg hgo, hs, Bool.or_true, if_true, Bool.not_true, Bool.and_false, Bool.false_eq_true, if_false]
  split
  · exact .inr ⟨_, rfl⟩
  · exact .inl rfl

include hx in
theorem State.scrubbed_scrub (b : Option CtrBlock) : (s.scrubbed chan x b).scrub[chan]? = some x.advance :=
  getElem?_setAt_same x.advance (List.getElem?_eq_some_iff.1 hx).1

include hup ht hc hx in
theorem State.patrolScrub_rotates (hs : x.stopped = false) (hp : s.poisoned (scmKey chan (128 * x.pos)) 128 = false) :
    s.Does (.patrolScrub chan) fun t => ∃ y, t.scrub[chan]? = some y
      ∧ (x.pos + 1 < 2 ^ 28 → y.pos = x.pos + 1 ∧ y.vcur = x.vcur ∧ y.stopped = false)
      ∧ (2 ^ 28 ≤ x.pos + 1 → y.pos = 0 ∧ y.vcur = x.vcur.map (· + 1) ∧ y.oldest = x.oldest + 1 ∧ ∀ b ∈ y.boundary, b = 0)
      ∧ (∃ b, metaEntry (chan / 16) (.scrub y b) ∈ t.hamp) ∧ t.pois = s.pois
      ∧ (s.hampRoom (chan / 16) 1 = true ∨ s.Inv ∧ s.HampersApart → s.SameMemory t) := by
  obtain ⟨b, t, hrun, ht⟩ := execPatrolScrub_rotates hup ht hc hx hs hp
  refine ⟨t, hrun, x.advance, ?_⟩
  obtain ⟨hscrub, hpois⟩ := (s.scrubbed chan x b).addMeta_keeps (chan / 16) (.scrub x.advance b)
  have hy := (congrArg (·[chan]?) hscrub).trans (State.scrubbed_scrub hx b)
  have hin := (s.scrubbed chan x b).addMeta_enters (chan / 16) (.scrub x.advance b)
  have hmem := (s.scrubbed chan x b).addMeta_sameMemory (stack := chan / 16) (.scrub x.advance b)
  rcases ht with rfl | ⟨o, rfl⟩
  · exact ⟨hy, Scrub.advance_within hs, Scrub.advance_end hs, ⟨b, hin⟩, hpois, hmem⟩
  · exact ⟨hy, Scrub.advance_within hs, Scrub.advance_end hs, ⟨b, hin⟩, hpois, hmem⟩

include hup ht hc hx in
theorem State.patrolScrub_stopped (hs : x.stopped = true) :
    s.Does (.patrolScrub chan) fun t => t.ctrs = s.ctrs ∧ t.pois = s.pois ∧ s.SameMemory t
      ∧ ∃ y, t.scrub[chan]? = some y ∧ y.vcur = x.vcur ∧ y.stopped = true ∧ y.pos = if x.pos + 1 < 2 ^ 28 then x.pos + 1 else 0 := by
  obtain ⟨t, hrun, ht⟩ := execPatrolScrub_stopped hup ht hc hx hs
  have hy := State.scrubbed_scrub hx none
  have hadv : x.advance.vcur = x.vcur ∧ x.advance.stopped = true ∧ x.advance.pos = if x.pos + 1 < 2 ^ 28 then x.pos + 1 else 0 := by
    rw [Scrub.advance_stopped hs]
    exact ⟨rfl, hs, rfl⟩
  refine ⟨t, hrun, ?_⟩
  rcases ht with rfl | ⟨o, rfl⟩
  · exact ⟨rfl, rfl, fun k => rfl, x.advance, hy, hadv⟩
  · exact ⟨rfl, rfl, fun k => rfl, x.advance, hy, hadv⟩

end scrub

/-! ### Refreshes (R64) -/

theorem State.owed_setOwed (chan bank n : Nat) : (s.setOwed chan bank n).owed chan bank = n := by
  have hrest : (s.banks.filter fun b => !(b.chan == chan && b.bank == bank)).find? (fun b => b.chan == chan && b.bank == bank) = none := by
    rw [List.find?_eq_none]
    intro b hb
    have hother := (List.mem_filter.1 hb).2
    rw [Bool.not_eq_true'] at hother
    exact fun hsame => Bool.false_ne_true (hother.symm.trans hsame)
  rw [State.owed, State.setOwed]
  by_cases hn : n = 0
  · simp only [hn, if_true, hrest]
  · simp only [if_neg hn, List.find?_append, hrest]
    simp

theorem State.refreshes_do (chan bank : Nat) : s.Does (.hbmRefresh chan bank true) (fun t => t.owed chan bank = min 8 (s.owed chan bank + 1))
    ∧ s.Does (.hbmRefresh chan bank false) (fun t => t.owed chan bank = 0)
    ∧ s.Does (.alertBackoff chan bank) fun t => t.owed chan bank = if s.owed chan bank = 8 then 0 else s.owed chan bank := by
  refine ⟨⟨_, rfl, State.owed_setOwed ..⟩, ⟨_, rfl, State.owed_setOwed ..⟩, ⟨_, rfl, ?_⟩⟩
  show (if s.owed chan bank = 8 then s.setOwed chan bank 0 else s).owed chan bank = _
  split
  · exact State.owed_setOwed ..
  · rfl

end Sys2Proof.Machine
end

section
/-! PROOF of O49, second part. What the answer of a channel makes of an access of one lane, and the settlement of O49. -/

namespace Sys2Proof.Machine
variable {s : State}

/-! ### The channel of an address -/

theorem field_lt (x lo width : Nat) : field x lo width < 2 ^ width := by
  rw [field_eq]
  exact Nat.mod_lt _ (Nat.two_pow_pos width)

/-- No address has the number of the fabric for its channel. -/
theorem chanOf_ne_fabChan (va : W64) : chanOf va ≠ fabChan := by
  have hscm : scmChan va < 96 := Nat.mod_lt _ (by decide)
  have hhbm : hbmChan va < 2 ^ 9 := by
    have h2 : field (field va.toNat 8 47) 45 2 < 2 ^ 9 := (field_lt _ 45 2).trans (by decide)
    exact Nat.xor_lt_two_pow (Nat.xor_lt_two_pow (Nat.xor_lt_two_pow (Nat.xor_lt_two_pow (Nat.xor_lt_two_pow (field_lt ..) (field_lt ..))
      (field_lt ..)) (field_lt ..)) (field_lt ..)) h2
  unfold chanOf fabChan
  split <;> omega

/-! ### Counting lines, and fault records -/

/-- The counts of the lines transferred alone differ (R58). -/
def State.LinesOnly (s t : State) : Prop := t = { s with cmplines := t.cmplines, plnlines := t.plnlines }

theorem State.countLine_linesOnly (s : State) (k : Nat) (cbf : Bool) : s.LinesOnly (s.countLine k cbf) := by
  unfold State.countLine
  dsimp only
  split <;> rfl

theorem State.LinesOnly.trans {s t u : State} (h : s.LinesOnly t) (k : t.LinesOnly u) : s.LinesOnly u := by
  unfold State.LinesOnly at *
  rw [k, h]

theorem State.countAccess_linesOnly (s : State) (a : Access) (ls : List LaneAcc) : s.LinesOnly (s.countAccess a ls) := by
  refine foldl_keeps s.LinesOnly _ (fun t n ht => ?_) _ s rfl
  split
  · exact ht.trans (State.countLine_linesOnly ..)
  · exact ht

theorem State.hostPut_ctxs {t : State} {x : Nat} {bs : List Byte} (e : s.hostPut x bs = some t) : t.ctxs = s.ctxs := by
  unfold State.hostPut at e
  split at e
  · cases e; rfl
  · cases e

theorem State.hostIndex_ctxs (s : State) (x : Nat) (v : W32) : (s.hostIndex x v).ctxs = s.ctxs :=
  getD_keeps (P := fun t : State => t.ctxs = s.ctxs) (fun _ => State.hostPut_ctxs) rfl

theorem State.pumpRecords_fqseq {c : Nat} (n : Nat) (hc : c < s.ctxs.length) : ((s.pumpRecords c n).ctx c).fqseq = (s.ctx c).fqseq := by
  induction n generalizing s with
  | zero => rfl
  | succ n ih =>
    unfold State.pumpRecords
    dsimp only
    split
    · rfl
    · split
      · rw [ctx_setCtx s c _ hc]
      · split
        · rfl
        · next s1 hput =>
          have hctxs : ∀ (b : Prop) [Decidable b] (o : Out), (if b then (s1.hostIndex (s.ctx c).desc.fqwaddr.toNat ((s.ctx c).fqwi + 1)).emit o
              else s1.hostIndex (s.ctx c).desc.fqwaddr.toNat ((s.ctx c).fqwi + 1)).ctxs = s.ctxs := fun b _ o => by
            have h := (s1.hostIndex_ctxs (s.ctx c).desc.fqwaddr.toNat ((s.ctx c).fqwi + 1)).trans (State.hostPut_ctxs hput)
            split <;> exact h
          rw [ih (by rw [State.setCtx, length_setAt, hctxs]; exact hc), ctx_setCtx _ c _ (by rw [hctxs]; exact hc)]

/-- A record takes the next number of its fault queue (R120). -/
theorem State.writeRecord_fqseq {c : Nat} (r : FaultRec) (hc : c < s.ctxs.length) : ((s.writeRecord c r).ctx c).fqseq = (s.ctx c).fqseq + 1 := by
  rw [State.writeRecord, State.pumpRecords_fqseq _ (by rw [State.setCtx, length_setAt]; exact hc), ctx_setCtx s c _ hc]

/-- A lane that has faulted replayably makes one record (R53). -/
theorem Access.records_one {a : Access} {l : LaneAcc} (h : a.lanes = [l]) (hf : l.fault.isSome = true) : ∃ r, a.records = [r] := by
  obtain ⟨f, hf'⟩ := Option.isSome_iff_exists.1 hf
  simp [Access.records, h, hf', distinct]

/-! ### What a translated read depends on -/

/-- The parts of the machine on which a read of memory through the translation units depends are the same. -/
structure State.SameReads (s t : State) : Prop where
  mem : t.mem = s.mem
  hamp : t.hamp = s.hamp
  snap : t.snap = s.snap
  ctxs : t.ctxs = s.ctxs
  wcache : t.wcache = s.wcache
  draws : t.draws = s.draws

section reads
variable {t : State} (h : s.SameReads t)
include h

theorem State.SameReads.byte : t.byte = s.byte := by
  funext k
  rw [State.byte, State.byte, h.mem, h.hamp]

theorem State.SameReads.tableEntry : t.tableEntry = s.tableEntry := by
  funext nch node idx
  simp only [State.tableEntry, State.nat, State.bytes, h.byte]

theorem State.SameReads.pickLeaf : t.pickLeaf = s.pickLeaf := by
  have hrun : t.runLeaves = s.runLeaves := by
    funext nch node idx sz
    rw [State.runLeaves, State.runLeaves, h.tableEntry]
  funext nch node idx e
  rw [State.pickLeaf, State.pickLeaf, hrun, h.draws]

theorem State.SameReads.walkFrom : t.walkFrom = s.walkFrom := by
  funext va lvl
  induction lvl with
  | zero => rfl
  | succ lvl ih =>
    funext nch node ps
    rw [State.walkFrom, State.walkFrom, h.tableEntry, h.pickLeaf, ih]

theorem State.SameReads.walk : t.walk = s.walk := by
  have hroot : t.root = s.root := by
    funext c va
    rw [State.root, State.root, State.ctx, State.ctx, h.ctxs]
  have hptr : t.cachedPtr = s.cachedPtr := by
    funext ch c va lvl
    rw [State.cachedPtr, State.cachedPtr, h.wcache]
  funext ch c va
  rw [State.walk, State.walk, hroot, hptr, h.walkFrom]

theorem State.SameReads.physKey : t.physKey = s.physKey := by
  funext k
  simp only [State.physKey, State.unitAt, State.regionCtx, State.landingKey, h.snap, h.walk]

theorem State.SameReads.rnat : t.rnat = s.rnat := by
  funext k n
  simp only [State.rnat, State.rbytes, State.rbyte, h.physKey, h.byte]

end reads

/-! ### The one access in flight -/

/-- An access is the only one in flight, and its weft has no persist barrier outstanding. -/
structure State.Alone (s : State) (a : Access) (w : Weft) : Prop where
  accs : s.accs = [a]
  weft : s.weft? a.core a.slot = some w
  pbars : w.pbars = []

section alone
variable {a b : Access} {l : LaneAcc} {w v : Weft} (h : s.Alone a w)

include h in
theorem State.Alone.acc? : s.acc? a.id = some a := by rw [State.acc?, h.accs]; simp

include h in
theorem State.Alone.setAcc (hid : b.id = a.id) (hc : b.core = a.core) (hs : b.slot = a.slot) : (s.setAcc b).Alone b w where
  accs := by simp [State.setAcc, h.accs, hid]
  weft := by rw [hc, hs]; exact h.weft
  pbars := h.pbars

include h in
theorem State.Alone.setWeft (hc : v.core = w.core) (hs : v.slot = w.slot) (hp : v.pbars = w.pbars) : (s.setWeft v).Alone a v where
  accs := h.accs
  weft := weft?_setWeft h.weft (hc.trans (weft?_slot h.weft).1) (hs.trans (weft?_slot h.weft).2)
  pbars := hp.trans h.pbars

include h in
theorem State.Alone.checkPersist : s.checkPersist a.core a.slot = s := State.checkPersist_none h.weft h.pbars

include h in
theorem State.Alone.lastOf : s.lastOf a = true := by simp [State.lastOf, h.accs]

include h in
theorem State.Alone.setAcc_self : s.setAcc a = s := State.setAcc_self fun b hb _ => by
  rw [h.accs] at hb
  exact List.mem_singleton.1 hb

include h in
theorem State.Alone.finish_unsettled (hu : a.settled = false) : s.finish a.id = s := by
  simp only [State.finish, h.acc?, hu]
  rfl

include h in
theorem State.Alone.late_unsettled (hu : a.settled = false) : s.late a.id = s := by
  simp only [State.late, h.acc?, hu]
  rfl

include h in
theorem State.Alone.late_read (hr : a.kind.reads = true) : s.late a.id = s := by
  have hstay : (!a.settled || a.kind.reads) = true := by simp [hr]
  simp only [State.late, h.acc?]
  exact if_pos hstay

include h in
/-- A settled write without an outcome that drops it: its faulted lanes are parked (R248). -/
theorem State.Alone.late_write (hs : a.settled = true) (hr : a.kind.reads = false) (hl : a.lanes = [l]) (hc : l.cause = none) :
    s.late a.id = s.parkLanes a := by
  have hgo : ¬ (!a.settled || a.kind.reads) = true := by simp [hs, hr]
  have hw : a.worst = none := by rw [Access.worst, hl]; simp [lowerCause, hc]
  simp only [State.late, h.acc?, hw]
  exact if_neg hgo

include h in
theorem State.Alone.progress (hu : a.settled = false) (hp : a.parked = false) : s.progress a.id
    = ((((if a.kind.reads then s.settle a else (s.settle a).sendFabric a.id).late a.id).finish a.id).checkPersist a.core a.slot) := by
  simp only [State.progress, h.acc?, hu, hp]
  rfl

include h in
/-- A performed load or store leaves (R228, R229). -/
theorem State.Alone.finish_performed (hk : a.kind = .load ∨ a.kind = .store) (hs : a.settled = true) (hq : a.acq = false) (hl : a.lanes = [l])
    (hd : l.st = .done) : s.finish a.id = (s.dropAcc a.id).setWeft (w.loaded a) :=
  State.finish_performed h.acc? h.weft hk hs hq (fun m hm => by rw [hl, List.mem_singleton] at hm; rw [hm, hd]) h.lastOf

end alone

theorem State.late_gone {id : Nat} (h : s.acc? id = none) : s.late id = s := by rw [State.late, h]

theorem State.finish_gone {id : Nat} (h : s.acc? id = none) : s.finish id = s := by rw [State.finish, h]

theorem State.parkLanes_parked {a : Access} (h : a.parked = true) : s.parkLanes a = s := by rw [State.parkLanes, h]; rfl

/-! ### What an access changes of its weft -/

/-- Nothing differs but registers, `dm`, counters and what the access held of the weft. -/
def Weft.AccOnly (w v : Weft) : Prop :=
  v = { w with sregs := v.sregs, vregs := v.vregs, xregs := v.xregs, dm := v.dm, cnt := v.cnt, busy := v.busy, unsettled := v.unsettled
               parked := v.parked, rctr := v.rctr }

theorem Weft.AccOnly.trans {w v u : Weft} (h : w.AccOnly v) (k : v.AccOnly u) : w.AccOnly u := by
  unfold Weft.AccOnly at *
  rw [k, h]

theorem Weft.RegsOnly.accOnly {w v : Weft} (h : w.RegsOnly v) : w.AccOnly v := by rw [Weft.RegsOnly] at h; rw [h]; exact rfl

theorem Weft.uncountAcc_accOnly (w : Weft) (a : Access) : w.AccOnly (w.uncountAcc a) := by
  unfold Weft.uncountAcc
  cases a.cnt <;> exact rfl

theorem Weft.lowerAcc_accOnly (w : Weft) (a : Access) : w.AccOnly (w.lowerAcc a) := by
  unfold Weft.lowerAcc
  cases a.cnt <;> exact rfl

theorem Weft.detach_accOnly (w : Weft) (a : Access) : w.AccOnly (w.detach a) := rfl

theorem Weft.applyOffs_xregs (w : Weft) (a : Access) (ok : W64) : ∃ xr, w.applyOffs a ok = { w with xregs := xr } := by
  refine foldl_keeps (fun v : Weft => ∃ xr, v = { w with xregs := xr }) _ (fun v o hv => ?_) _ w ⟨w.xregs, rfl⟩
  obtain ⟨xr, rfl⟩ := hv
  split
  · exact ⟨_, rfl⟩
  · exact ⟨xr, rfl⟩

theorem Weft.reportAcc_dm (w : Weft) (a : Access) (ok : W64) : ∃ d, w.reportAcc a ok = { w with dm := d } := by
  unfold Weft.reportAcc
  split
  · exact ⟨w.dm, rfl⟩
  · split <;> exact ⟨_, rfl⟩

theorem Weft.loaded_accOnly (w : Weft) (a : Access) : w.AccOnly (w.loaded a) :=
  ((((w.writeDest_regsOnly a).trans (Weft.fillDest_regsOnly ..)).accOnly).trans (Weft.lowerAcc_accOnly ..)).trans (Weft.detach_accOnly ..)

/-- The weft of a load that traps at its group (R231, R278). -/
def Weft.trapping (w : Weft) (a : Access) : Weft :=
  let w1 := ((w.uncountAcc a).detach a).fillDest a.dst true
  let w2 := { w1 with rctr := w1.rctr + a.rstep }
  if a.scalar then w2 else ((w2.writeDest a).applyOffs a (a.lanesWhere LaneAcc.good)).reportAcc a (a.lanesWhere LaneAcc.good)

theorem Weft.trapping_accOnly (w : Weft) (a : Access) : w.AccOnly (w.trapping a) := by
  have h2 : w.AccOnly { ((w.uncountAcc a).detach a).fillDest a.dst true with
      rctr := (((w.uncountAcc a).detach a).fillDest a.dst true).rctr + a.rstep } :=
    Weft.AccOnly.trans (((w.uncountAcc_accOnly a).trans (Weft.detach_accOnly ..)).trans (Weft.fillDest_regsOnly ..).accOnly) rfl
  unfold Weft.trapping
  dsimp only
  split
  · exact h2
  · obtain ⟨xr, hx⟩ := Weft.applyOffs_xregs (({ ((w.uncountAcc a).detach a).fillDest a.dst true with
      rctr := (((w.uncountAcc a).detach a).fillDest a.dst true).rctr + a.rstep }).writeDest a) a (a.lanesWhere LaneAcc.good)
    rw [hx]
    obtain ⟨d, hd⟩ := Weft.reportAcc_dm _ a (a.lanesWhere LaneAcc.good)
    rw [hd]
    exact h2.trans (Weft.AccOnly.trans (Weft.writeDest_regsOnly ..).accOnly rfl)

/-- With no lane performed a scalar destination is not written. -/
theorem Weft.writeDest_unperformed {w : Weft} {a : Access} {l : LaneAcc} {n : Nat} (hl : a.lanes = [l]) (hst : l.st ≠ .done) (hd : a.dst = .sreg n) :
    w.writeDest a = w := by
  have hnone : (a.lanes.filter fun l => l.st == .done) = [] := by simp [hl, hst]
  simp only [Weft.writeDest, hnone, hd]
  exact ite_self w

/-- A trap leaves its scalar destination full, with its old value (R278). -/
theorem Weft.trapping_sreg {w : Weft} {a : Access} {l : LaneAcc} {n : Nat} (hl : a.lanes = [l]) (hst : l.st ≠ .done) (hd : a.dst = .sreg n)
    (hn : n < w.sregs.length) : ((w.trapping a).sreg n).full = true ∧ ((w.trapping a).sreg n).val = (w.sreg n).val := by
  have hu : (w.uncountAcc a).sregs = w.sregs := by
    unfold Weft.uncountAcc
    cases a.cnt <;> rfl
  have hfill : ((((w.uncountAcc a).detach a).fillS n true).sreg n) = { w.sreg n with full := true } := by
    have hs : ((w.uncountAcc a).detach a).sreg n = w.sreg n := congrArg (fun l : List SReg => l.getD n { val := 0, full := true, pois := false }) hu
    rw [Weft.fillS_sreg _ _ (show n < ((w.uncountAcc a).detach a).sregs.length by rw [Weft.detach, hu]; exact hn), if_pos rfl, hs]
  have hreg : (w.trapping a).sreg n = { w.sreg n with full := true } := by
    rw [← hfill]
    unfold Weft.trapping
    rw [hd]
    dsimp only
    split
    · rfl
    · rw [Weft.writeDest_unperformed hl hst hd]
      obtain ⟨xr, hx⟩ := Weft.applyOffs_xregs { ((w.uncountAcc a).detach a).fillDest (.sreg n) true with
        rctr := (((w.uncountAcc a).detach a).fillDest (.sreg n) true).rctr + a.rstep } a (a.lanesWhere LaneAcc.good)
      rw [hx]
      obtain ⟨d, hd⟩ := Weft.reportAcc_dm _ a (a.lanesWhere LaneAcc.good)
      rw [hd]
      rfl
  rw [hreg]
  exact ⟨rfl, rfl⟩

/-- The weft of a load that parks (R228, R282). -/
def Weft.parking (w : Weft) (a : Access) : Weft :=
  let ok := a.lanesWhere fun l => l.st == .done
  { (((w.writeDest a).applyOffs a ok).reportAcc a ok).detach a with parked := some a.id, busy := w.busy }

theorem Weft.parking_accOnly (w : Weft) (a : Access) : w.AccOnly (w.parking a) := by
  obtain ⟨xr, hx⟩ := (w.writeDest a).applyOffs_xregs a (a.lanesWhere fun l => l.st == .done)
  unfold Weft.parking
  dsimp only
  rw [hx]
  obtain ⟨d, hd⟩ := Weft.reportAcc_dm { w.writeDest a with xregs := xr } a (a.lanesWhere fun l => l.st == .done)
  rw [hd]
  exact (w.writeDest_regsOnly a).accOnly.trans rfl

theorem Weft.parking_unsettled (w : Weft) (a : Access) : (w.parking a).unsettled ≠ some a.id := by
  show (if _ = some a.id then none else _) ≠ some a.id
  split
  · exact nofun
  · assumption

/-- The access of a group that has gone on, with its place in the core store order (R246, R281). -/
def Access.entered (a : Access) (o : Option Nat) : Access :=
  { a with ord := o, settled := true, parked := false, offs := if a.kind.reads then a.offs else [] }

/-- The weft of a group that goes on (R281). -/
def Weft.going (w : Weft) (a : Access) : Weft :=
  let ok := a.lanesWhere LaneAcc.good
  { ((w.applyOffs a (if a.kind.reads then ok else allLanes)).reportAcc a ok).commitAcc a with
    unsettled := if w.unsettled = some a.id then none else w.unsettled
    parked := if w.parked = some a.id then none else w.parked }

theorem Weft.going_frame (w : Weft) (a : Access) : ∃ xr d, w.going a = { w.afterGroup with
    xregs := xr, dm := d, pc := a.next, rctr := w.rctr + a.rstep, unsettled := if w.unsettled = some a.id then none else w.unsettled
    parked := if w.parked = some a.id then none else w.parked } := by
  obtain ⟨xr, hx⟩ := w.applyOffs_xregs a (if a.kind.reads then a.lanesWhere LaneAcc.good else allLanes)
  unfold Weft.going
  dsimp only
  rw [hx]
  obtain ⟨d, hd⟩ := Weft.reportAcc_dm { w with xregs := xr } a (a.lanesWhere LaneAcc.good)
  rw [hd]
  exact ⟨xr, d, rfl⟩

theorem Weft.going_place (w : Weft) (a : Access) : (w.going a).core = w.core ∧ (w.going a).slot = w.slot ∧ (w.going a).pbars = w.pbars
    ∧ (w.going a).pc = a.next ∧ (w.going a).sregs = w.sregs ∧ (w.going a).parked ≠ some a.id := by
  obtain ⟨xr, d, hv⟩ := w.going_frame a
  rw [hv]
  refine ⟨rfl, rfl, rfl, rfl, rfl, ?_⟩
  show (if w.parked = some a.id then none else w.parked) ≠ some a.id
  split
  · exact nofun
  · assumption

/-- The state in which the group of an access has committed and nothing has been performed. -/
def State.goneOn (s : State) (a : Access) (w : Weft) (n : Nat) (o : Option Nat) : State :=
  ({ s with nextId := n }.setAcc (a.entered o)).setWeft (w.going a)

/-! ### The fate of an access of one lane (R52) -/

section settle
variable {a : Access} {l : LaneAcc} {w : Weft} (h : s.Alone a w) (hl : a.lanes = [l])

include h hl in
theorem State.Alone.settle_trap {c : Cause} {d : Nat} (hst : l.st = .bad c d) (hk : a.kind = .load) : s.settle a = s.settleTrap w a c d := by
  have hdec : a.lanes.all (LaneAcc.decided true) = true := by simp [hl, LaneAcc.decided, hst]
  have hworst : a.worst = some (c, d) := by simp [Access.worst, hl, lowerCause, LaneAcc.cause, hst]
  have hready : a.lanes.any LaneAcc.isReady = false := by simp [hl, LaneAcc.isReady, hst]
  have horder : s.enterOrder a = (s, a) := by rw [State.enterOrder, hk]; rfl
  have hperf : s.performLanes a (fun _ => true) a.lanes = (s, a.lanes) := by rw [hl]; simp [State.performLanes, hst]
  have hr : a.kind.reads = true := by rw [hk]; rfl
  simp only [State.settle, h.weft, hdec, hr, hworst, horder, hperf, hready, Bool.not_true, Bool.and_false, Bool.false_eq_true, if_false,
    Option.isSome_some, Bool.true_or, Bool.and_true, if_true]

include h hl in
theorem State.Alone.settle_park {k lv : Nat} (hst : l.st = .replay k lv) (hk : a.kind = .load) : s.settle a = s.parkLoad w a := by
  have hdec : a.lanes.all (LaneAcc.decided true) = true := by simp [hl, LaneAcc.decided, hst]
  have hworst : a.worst = none := by simp [Access.worst, hl, lowerCause, LaneAcc.cause, hst]
  have hrep : a.lanes.any LaneAcc.replaying = true := by simp [hl, LaneAcc.replaying, hst]
  have hready : a.lanes.any LaneAcc.isReady = false := by simp [hl, LaneAcc.isReady, hst]
  have horder : s.enterOrder a = (s, a) := by rw [State.enterOrder, hk]; rfl
  have hperf : s.performLanes a (fun _ => true) a.lanes = (s, a.lanes) := by rw [hl]; simp [State.performLanes, hst]
  have hr : a.kind.reads = true := by rw [hk]; rfl
  simp only [State.settle, h.weft, hdec, hr, hworst, hrep, horder, hperf, hready, Bool.not_true, Bool.and_false, Bool.false_eq_true,
    if_false, Bool.or_true, Bool.and_true, if_true]

include h hl in
/-- A lane that is accepted, or that faulted replayably in a store: the weft goes on (R52, R281). -/
theorem State.Alone.settle_go (hst : (∃ k, l.st = .ready k) ∨ a.kind = .store ∧ ∃ k lv, l.st = .replay k lv)
    (hk : a.kind = .load ∨ a.kind = .store) (hrep : a.replayed = false) (hq : a.acq = false) : ∃ n o,
    s.settle a = s.goneOn a w n o := by
  have hdec : a.lanes.all (LaneAcc.decided a.kind.reads) = true := by
    rcases hst with ⟨k, hst⟩ | ⟨-, k, lv, hst⟩ <;> simp [hl, LaneAcc.decided, hst]
  have hworst : ∀ o, Access.worst { a with ord := o } = none := by
    rcases hst with ⟨k, hst⟩ | ⟨-, k, lv, hst⟩ <;> simp [Access.worst, hl, lowerCause, LaneAcc.cause, hst]
  have hstop : (a.lanes.any LaneAcc.replaying && a.kind.reads) = false := by
    rcases hst with ⟨k, hst⟩ | ⟨hs, -⟩
    · simp [hl, LaneAcc.replaying, hst]
    · simp [hs, AccKind.reads]
  have hfetch : (a.acq || a.kind == .fetch) = false := by rcases hk with hk | hk <;> simp [hq, hk]
  have hgo : ∀ (n : Nat) (o : Option Nat), { s with nextId := n }.settleGo w { a with ord := o } = s.goneOn a w n o := fun n o => by
    rw [State.settleGo, if_neg (show ¬ (a.acq || a.kind == .fetch) = true by rw [hfetch]; exact Bool.false_ne_true)]
    rfl
  obtain ⟨n, o, horder⟩ : ∃ n o, s.enterOrder a = ({ s with nextId := n }, { a with ord := o }) := by
    unfold State.enterOrder
    split
    · exact ⟨_, _, rfl⟩
    · exact ⟨s.nextId, a.ord, rfl⟩
  have hstop' : (a.kind.reads && a.lanes.any LaneAcc.replaying) = false := by rw [Bool.and_comm, hstop]
  have hfirst : (a.replayed && !a.kind.reads) = false := by rw [hrep]; rfl
  refine ⟨n, o, ?_⟩
  simp only [State.settle, h.weft, hdec, hfirst, horder, hworst, hstop, hstop', Bool.not_true, Bool.false_and,
    Bool.false_eq_true, if_false, Option.isSome_none, Bool.false_or]
  exact hgo n o

end settle

/-! ### The answer of a channel -/

/-- The second half of an answer: the performance of a settled access (R52). -/
def State.performAt (s : State) (id ch core slot : Nat) (perform : Bool) : State :=
  match s.acc? id with
  | none => s
  | some b =>
    if perform && b.settled then
      let o := s.performLanes b (fun l => !isFabric l.ea && chanOf l.ea == ch) b.lanes
      ((((o.1.setAcc { b with lanes := o.2 }).coverLanes b o.2 b.readyKeys).late id).finish id).checkPersist core slot
    else s

/-- An access of one lane, with the lane as it stands. -/
def Access.withLane (a : Access) (l : LaneAcc) : Access := { a with lanes := [l] }

/-- The state in which a lane's outcome is known and nothing has been made of it. -/
def State.Told (s t : State) (a : Access) (l : LaneAcc) : Prop :=
  t = { s with cmplines := t.cmplines, plnlines := t.plnlines, accs := [a.withLane l] }

theorem State.Told.sameReads {t : State} {a : Access} {l : LaneAcc} (h : s.Told t a l) : s.SameReads t where
  mem := by rw [h]
  hamp := by rw [h]
  snap := by rw [h]
  ctxs := by rw [h]
  wcache := by rw [h]
  draws := by rw [h]

theorem State.answer_one {a : Access} {l : LaneAcc} {perform : Bool} (ha : s.acc? a.id = some a) (hl : a.lanes = [l]) (hst : l.st = .waiting)
    (hf : isFabric l.ea = false) (hr : a.replayed = false) (haccs : ∀ rep, (s.verdict rep a l).1.accs = [a]) : ∃ t,
    (s.verdict (s.reported (chanOf l.ea) a.ctx) a l).1.Told t a (s.verdict (s.reported (chanOf l.ea) a.ctx) a l).2
    ∧ s.answer a.id (chanOf l.ea) perform = (t.progress a.id).performAt a.id (chanOf l.ea) a.core a.slot perform := by
  have hrep : (fun u => !a.replayed && s.reported (chanOf l.ea) a.ctx u) = s.reported (chanOf l.ea) a.ctx := by rw [hr]; rfl
  have hpick : (l.st == .waiting && (!isFabric l.ea && chanOf l.ea == chanOf l.ea)) = true := by simp [hst, hf]
  have hone : s.verdicts (s.reported (chanOf l.ea) a.ctx) a (fun m => m.st == .waiting && (!isFabric m.ea && chanOf m.ea == chanOf l.ea)) [l]
      = ((s.verdict (s.reported (chanOf l.ea) a.ctx) a l).1, [(s.verdict (s.reported (chanOf l.ea) a.ctx) a l).2]) := by
    rw [State.verdicts, if_pos hpick]
    rfl
  refine ⟨((s.verdict (s.reported (chanOf l.ea) a.ctx) a l).1.countAccess a
    (a.answered (fun m => m.st == .waiting && (!isFabric m.ea && chanOf m.ea == chanOf l.ea)) [(s.verdict (s.reported (chanOf l.ea) a.ctx) a l).2])).setAcc
      (a.withLane (s.verdict (s.reported (chanOf l.ea) a.ctx) a l).2), ?_, ?_⟩
  rotate_left
  · simp only [State.answer, ha, if_neg (chanOf_ne_fabChan l.ea), hrep]
    rw [hl, hone]
    rfl
  · have hlines := (s.verdict (s.reported (chanOf l.ea) a.ctx) a l).1.countAccess_linesOnly a
      (a.answered (fun m => m.st == .waiting && (!isFabric m.ea && chanOf m.ea == chanOf l.ea)) [(s.verdict (s.reported (chanOf l.ea) a.ctx) a l).2])
    have hset := haccs (s.reported (chanOf l.ea) a.ctx)
    generalize (s.verdict (s.reported (chanOf l.ea) a.ctx) a l).1 = s1 at hlines hset ⊢
    rw [hlines]
    simp [State.Told, State.setAcc, hset, Access.withLane]

/-! ### A load that traps (R278) -/

theorem maskOf_single (n : Nat) : maskOf (fun i => n == i) = BitVec.ofNat 64 (2 ^ n) := by
  refine BitVec.eq_of_getLsbD_eq fun i hi => ?_
  refine (inMask_maskOf (fun i => n == i) hi).trans ?_
  rw [BitVec.getLsbD_ofNat, Nat.testBit_two_pow, decide_eq_true hi, Bool.true_and]
  rfl

/-- A weft after a trap at its group (R275). -/
def Weft.trapped (v : Weft) (c : Cause) (lanes info tvec : W64) : Weft :=
  { v.afterGroup with tpc := v.pc, tcause := BitVec.ofNat 8 c.code, tmask := lanes, tinfo := info, tem := v.em, tdm := v.dm, em := allLanes
                      tm := true, pc := tvec }

theorem State.takeTrap_outside {v : Weft} {c : Cause} {lanes info : W64} (h : v.tm = false) :
    s.takeTrap v c lanes info v.pc = s.setWeft (v.trapped c lanes info (s.ctx v.ctx).desc.tvec) := by
  rw [State.takeTrap, h]
  exact if_neg Bool.false_ne_true

/-- The lanes of a trap of an access of one lane: the lane, or the mask of a scalar form (R278). -/
def Access.trapMask (a : Access) (l : LaneAcc) : W64 := if a.scalar then a.mask else BitVec.ofNat 64 (2 ^ l.lane)

/-- What such a trap reports: PL is set of kind L, and clear of kind F (R278). -/
def Access.trapInfo (a : Access) (c : Cause) (d : Nat) : W64 :=
  if a.scalar then (a.info c d).word else { a.info c d with pl := true }.word

theorem Access.lanesWhere_one {a : Access} {l : LaneAcc} {f : LaneAcc → Bool} (hl : a.lanes = [l]) (hf : f l = true) :
    a.lanesWhere f = BitVec.ofNat 64 (2 ^ l.lane) := by
  rw [← maskOf_single l.lane]
  simp [Access.lanesWhere, hl, hf]

theorem State.settleTrap_one {a : Access} {l : LaneAcc} {w : Weft} {c : Cause} {d : Nat} (hl : a.lanes = [l]) (hst : l.st = .bad c d) :
    s.settleTrap w a c d = (s.dropAcc a.id).takeTrap (w.trapping a) c (a.trapMask l) (a.trapInfo c d) (w.trapping a).pc := by
  have hrest : (a.lanes.filter fun l => l.good && !l.closed) = [] := by simp [hl, LaneAcc.good, hst]
  cases hs : a.scalar with
  | true =>
    simp only [State.settleTrap, hs, Access.trapMask, Access.trapInfo, Weft.trapping, if_true]
    rfl
  | false =>
    simp only [State.settleTrap, hs, hrest, Access.trapMask, Access.trapInfo, Weft.trapping, List.isEmpty_nil, Bool.false_eq_true, if_false, if_true,
      State.trapL]
    generalize a.lanesWhere LaneAcc.good = ok
    rw [Access.lanesWhere_one hl]
    rw [LaneAcc.cause, hst]
    exact beq_self_eq_true c

theorem Access.trapInfo_pl {a : Access} {c : Cause} (hk : a.kind = .load) (hc : c = .page ∨ c = .prot) :
    (a.trapInfo c 0).getLsbD 3 = !a.scalar := by
  have hinfo : a.info c 0 = TInfo.none := by
    rw [Access.info, hk]
    rcases hc with rfl | rfl <;> rfl
  rw [Access.trapInfo, hinfo]
  cases a.scalar <;> decide

section trap
variable {a : Access} {l : LaneAcc} {w : Weft} {c : Cause} (h : s.Alone a w) (hl : a.lanes = [l])

include h hl in
theorem State.Alone.progress_trap {d : Nat} (hst : l.st = .bad c d) (hk : a.kind = .load) (hu : a.settled = false)
    (hp : a.parked = false) (htm : w.tm = false) : s.progress a.id = (s.dropAcc a.id).setWeft
      ((w.trapping a).trapped c (a.trapMask l) (a.trapInfo c d) (s.ctx w.ctx).desc.tvec) := by
  have hv := w.trapping_accOnly a
  have hr : a.kind.reads = true := by rw [hk]; rfl
  have htm' : (w.trapping a).tm = false := by rw [hv]; exact htm
  have hctx : (s.ctx (w.trapping a).ctx).desc.tvec = (s.ctx w.ctx).desc.tvec := by rw [hv]
  obtain ⟨hcore, hslot⟩ := weft?_slot h.weft
  have hset : s.settle a = (s.dropAcc a.id).setWeft
      ((w.trapping a).trapped c (a.trapMask l) (a.trapInfo c d) (s.ctx w.ctx).desc.tvec) := by
    rw [h.settle_trap hl hst hk, State.settleTrap_one hl hst, State.takeTrap_outside htm', ← hctx]
    rfl
  have hgone : ((s.dropAcc a.id).setWeft ((w.trapping a).trapped c (a.trapMask l) (a.trapInfo c d) (s.ctx w.ctx).desc.tvec)).acc? a.id = none :=
    State.acc?_dropAcc s a.id
  rw [h.progress hu hp, hr, if_pos rfl, hset, State.late_gone hgone, State.finish_gone hgone]
  refine State.checkPersist_none (weft?_setWeft (s := s.dropAcc a.id) h.weft ?_ ?_) ?_
  · rw [hv]; exact hcore
  · rw [hv]; exact hslot
  · rw [hv]; exact h.pbars

end trap

/-! ### An access that parks (R228, R248, R282) -/

section park
variable {a : Access} {l : LaneAcc} {w : Weft} {lv : Nat} (h : s.Alone a w) (hl : a.lanes = [l]) (hst : l.st = .replay 1 lv)

include h in
theorem State.Alone.recordOnly {t : State} (ht : s.RecordOnly t) : t.Alone a w where
  accs := by rw [ht]; exact h.accs
  weft := by rw [ht]; exact h.weft
  pbars := h.pbars

include hl hst in
theorem Access.records_parked : ∃ r, a.records = [r] := Access.records_one hl (by simp [LaneAcc.fault, hst])

include h hl hst in
/-- A load that faults replayably parks its weft, and makes one record. -/
theorem State.Alone.progress_park (hk : a.kind = .load) (hu : a.settled = false) (hp : a.parked = false) : ∃ r,
    s.progress a.id = ((s.setWeft (w.parking a)).setAcc { a with parked := true }).writeRecord a.ctx r
    ∧ (s.progress a.id).Alone { a with parked := true } (w.parking a) := by
  obtain ⟨r, hrec⟩ := Access.records_parked hl hst
  have hv := w.parking_accOnly a
  have hr : a.kind.reads = true := by rw [hk]; rfl
  have hset : s.settle a = ((s.setWeft (w.parking a)).setAcc { a with parked := true }).writeRecord a.ctx r := by
    rw [h.settle_park hl hst hk, show s.parkLoad w a
      = ((s.setWeft (w.parking a)).setAcc { a with parked := true }).writeRecords a.ctx a.records from rfl, hrec]
    rfl
  have hal : (((s.setWeft (w.parking a)).setAcc { a with parked := true }).writeRecord a.ctx r).Alone { a with parked := true } (w.parking a) :=
    ((h.setWeft (v := w.parking a) (by rw [hv]) (by rw [hv]) (by rw [hv])).setAcc (b := { a with parked := true }) rfl rfl rfl).recordOnly
      (State.writeRecord_recordOnly ..)
  have hprog : s.progress a.id = ((s.setWeft (w.parking a)).setAcc { a with parked := true }).writeRecord a.ctx r := by
    rw [h.progress hu hp, hr, if_pos rfl, hset]
    refine (congrArg (fun x : State => (x.finish a.id).checkPersist a.core a.slot) (hal.late_unsettled hu)).trans ?_
    exact (congrArg (fun x : State => x.checkPersist a.core a.slot) (hal.finish_unsettled hu)).trans hal.checkPersist
  exact ⟨r, hprog, hprog ▸ hal⟩

end park

/-- An access of one lane that is not performed is not finished, under whatever number. -/
theorem State.finish_waiting {e : Access} {l : LaneAcc} (ha : s.accs = [e]) (hl : e.lanes = [l]) (ho : l.closed = false) (id : Nat) :
    s.finish id = s := by
  have hstay : (!e.settled || !e.lanes.all LaneAcc.closed) = true := by simp [hl, ho]
  by_cases hid : e.id = id
  · have hacc : s.acc? id = some e := by rw [State.acc?, ha]; simp [hid]
    simp only [State.finish, hacc]
    exact if_pos hstay
  · exact State.finish_gone (by rw [State.acc?, ha]; simp [hid])

theorem State.coverLanes_pois (a : Access) (ls : List LaneAcc) (keys : List (Nat × Nat)) : ∃ p, s.coverLanes a ls keys = { s with pois := p } := by
  unfold State.coverLanes
  split
  · exact ⟨s.pois, rfl⟩
  · exact ⟨_, rfl⟩

/-- An entry of the replay queue is not performed: at most poison is counted again. -/
theorem State.Alone.performAt_parked {e : Access} {l : LaneAcc} {w : Weft} {k lv : Nat} (h : s.Alone e w) (hl : e.lanes = [l]) (hst : l.st = .replay k lv)
    (hp : e.parked = true) (hk : e.kind = .store) (id ch : Nat) (perform : Bool) :
    ∃ p, s.performAt id ch e.core e.slot perform = { s with pois := p } := by
  by_cases hid : e.id = id
  · subst hid
    rw [State.performAt, h.acc?]
    dsimp only
    split
    · next hgo =>
      have hs : e.settled = true := (Bool.and_eq_true _ _ ▸ hgo).2
      have hr : e.kind.reads = false := by rw [hk]; rfl
      have hperf : s.performLanes e (fun l => !isFabric l.ea && chanOf l.ea == ch) e.lanes = (s, e.lanes) := by
        rw [hl]
        simp [State.performLanes, hst]
      rw [hperf]
      obtain ⟨p, hc⟩ := State.coverLanes_pois (s := s.setAcc { e with lanes := e.lanes }) e e.lanes e.readyKeys
      have hself : s.setAcc { e with lanes := e.lanes } = s := h.setAcc_self
      refine ⟨p, ?_⟩
      have hal : State.Alone { s with pois := p } e w := ⟨h.accs, h.weft, h.pbars⟩
      rw [hself] at hc
      show (((((s.setAcc { e with lanes := e.lanes }).coverLanes e e.lanes e.readyKeys).late e.id).finish e.id).checkPersist e.core e.slot) = _
      rw [hself, hc, hal.late_write hs hr hl (by rw [LaneAcc.cause, hst]), State.parkLanes_parked hp,
        State.finish_waiting hal.accs hl (by rw [LaneAcc.closed, hst]), hal.checkPersist]
    · exact ⟨s.pois, rfl⟩
  · have hnone : s.acc? id = none := by rw [State.acc?, h.accs]; simp [hid]
    rw [State.performAt, hnone]
    exact ⟨s.pois, rfl⟩

/-- The entry of the replay queue that a store of one faulted lane leaves (R248). -/
def Access.parkedEntry (a : Access) (id : Nat) (l : LaneAcc) : Access := { a.entry id with lanes := [{ l with st := .replay 0 1 }] }

/-- The lanes of such a store leave it for the replay queue, and are recorded (R52, R53, R248). -/
theorem State.Alone.parkLanes_one {a : Access} {l : LaneAcc} {w : Weft} {lv : Nat} (h : s.Alone a w) (hl : a.lanes = [l]) (hst : l.st = .replay 1 lv)
    (hk : a.kind = .store) (hp : a.parked = false) : ∃ r, s.parkLanes a
      = { s with nextId := s.nextId + 1, accs := [a.parkedEntry s.nextId l] }.writeRecord a.ctx r := by
  have hrep : l.replaying = true := by rw [LaneAcc.replaying, hst]
  have hent : (a.entry s.nextId).lanes = [l] := by simp [Access.entry, hl, hrep]
  obtain ⟨r, hrec⟩ := Access.records_parked hent hst
  have hmap : (a.entry s.nextId).lanes.map LaneAcc.recorded = [{ l with st := .replay 0 1 }] := by
    simp [hent, LaneAcc.recorded, LaneAcc.fault, hst]
  have hgo : ¬ (a.parked || !a.lanes.any LaneAcc.replaying || (a.kind != .store && a.fabOpen)) = true := by simp [hp, hl, hrep, hk]
  have hrest : (a.lanes.filter fun l => !l.replaying) = [] := by simp [hl, hrep]
  refine ⟨r, ?_⟩
  rw [State.parkLanes, if_neg hgo]
  simp only [State.splitLanes, hrec, hmap, hrest, h.accs, List.flatMap_singleton, List.isEmpty_nil, if_true]
  rfl

/-! ### A group that goes on (R281) -/

section go
variable {a : Access} {l : LaneAcc} {w : Weft} (h : s.Alone a w) (hl : a.lanes = [l])

include h in
theorem State.Alone.goneOn (n : Nat) (o : Option Nat) : (s.goneOn a w n o).Alone (a.entered o) (w.going a) := by
  obtain ⟨hcore, hslot, hp, -⟩ := w.going_place a
  have h1 : State.Alone { s with nextId := n } a w := ⟨h.accs, h.weft, h.pbars⟩
  exact (h1.setAcc (b := a.entered o) rfl rfl rfl).setWeft hcore hslot hp

include h hl in
/-- A lane of this package is not sent over the fabric. -/
theorem State.Alone.sendFabric_goneOn (n : Nat) (o : Option Nat) (hst : l.st ≠ .waiting) : (s.goneOn a w n o).sendFabric a.id = s.goneOn a w n o := by
  have hacc : (s.goneOn a w n o).acc? a.id = some (a.entered o) := (h.goneOn n o).acc?
  refine State.sendFabric_local hacc fun m hm hw => absurd hw ?_
  have hlanes : (a.entered o).lanes = [l] := hl
  rw [hlanes, List.mem_singleton] at hm
  rwa [hm]

include h hl in
/-- A load or a store whose lane is accepted: its group commits (R281). -/
theorem State.Alone.progress_ready {k : Nat} (hst : l.st = .ready k) (hk : a.kind = .load ∨ a.kind = .store) (hrep : a.replayed = false)
    (hq : a.acq = false) (hu : a.settled = false) (hp : a.parked = false) : ∃ n o, s.progress a.id = s.goneOn a w n o := by
  obtain ⟨n, o, hset⟩ := h.settle_go hl (.inl ⟨k, hst⟩) hk hrep hq
  have hal := h.goneOn n o
  have hlate : (s.goneOn a w n o).late a.id = s.goneOn a w n o := by
    rcases hk with hk | hk
    · exact hal.late_read (show a.kind.reads = true by rw [hk]; rfl)
    · have hno : ((a.entered o).parked || !(a.entered o).lanes.any LaneAcc.replaying || ((a.entered o).kind != .store && (a.entered o).fabOpen)) = true := by
        simp [Access.entered, hl, LaneAcc.replaying, hst]
      exact (hal.late_write rfl (show a.kind.reads = false by rw [hk]; rfl) hl (by rw [LaneAcc.cause, hst])).trans (if_pos hno)
  have hsent : (if a.kind.reads then s.goneOn a w n o else (s.goneOn a w n o).sendFabric a.id) = s.goneOn a w n o := by
    rw [h.sendFabric_goneOn hl n o (by rw [hst]; exact nofun)]
    exact ite_self _
  refine ⟨n, o, ?_⟩
  rw [h.progress hu hp, hset, hsent, hlate, State.finish_waiting hal.accs hl (by rw [LaneAcc.closed, hst])]
  exact hal.checkPersist

/-- The state after a store of one lane has gone to the replay queue, but for its record. -/
def State.behind (s : State) (a : Access) (l : LaneAcc) (w : Weft) (n : Nat) (o : Option Nat) : State :=
  { s.goneOn a w n o with nextId := n + 1, accs := [(a.entered o).parkedEntry n l] }

include h in
theorem State.Alone.behind (n : Nat) (o : Option Nat) : (s.behind a l w n o).Alone ((a.entered o).parkedEntry n l) (w.going a) where
  accs := rfl
  weft := (h.goneOn n o).weft
  pbars := (h.goneOn n o).pbars

include h hl in
/-- A store that faults replayably: its weft goes on, and its lane stands in the replay queue (R52, R248). -/
theorem State.Alone.progress_behind {lv : Nat} (hst : l.st = .replay 1 lv) (hk : a.kind = .store) (hrep : a.replayed = false)
    (hq : a.acq = false) (hu : a.settled = false) (hp : a.parked = false) : ∃ n o r,
      s.progress a.id = (s.behind a l w n o).writeRecord a.ctx r := by
  obtain ⟨n, o, hset⟩ := h.settle_go hl (.inr ⟨hk, 1, lv, hst⟩) (.inr hk) hrep hq
  have hal := h.goneOn n o
  have hr : a.kind.reads = false := by rw [hk]; rfl
  obtain ⟨r, hpark⟩ := hal.parkLanes_one hl hst hk rfl
  have hlate : (s.goneOn a w n o).late a.id = (s.behind a l w n o).writeRecord a.ctx r :=
    (hal.late_write rfl hr hl (by rw [LaneAcc.cause, hst])).trans hpark
  have hal' := (h.behind (l := l) n o).recordOnly (State.writeRecord_recordOnly _ a.ctx r)
  refine ⟨n, o, r, ?_⟩
  rw [h.progress hu hp, hr, if_neg Bool.false_ne_true, hset, h.sendFabric_goneOn hl n o (by rw [hst]; exact nofun), hlate,
    State.finish_waiting hal'.accs rfl rfl]
  exact hal'.checkPersist

end go

/-! ### A lane that is performed -/

theorem getD_leBytes {i n : Nat} (x : Nat) (hi : i < n) : (leBytes n x).getD i 0 = BitVec.ofNat 8 (x >>> (8 * i)) := by
  induction n generalizing i x with
  | zero => exact absurd hi (Nat.not_lt_zero i)
  | succ n ih =>
    cases i with
    | zero => rfl
    | succ i =>
      refine (ih (x / 256) (Nat.lt_of_succ_lt_succ hi)).trans ?_
      rw [Nat.shiftRight_eq_div_pow, Nat.shiftRight_eq_div_pow, Nat.div_div_eq_div_mul, Nat.mul_succ, Nat.add_comm (8 * i), Nat.pow_add]

/-- Cells below the snapshot units are written where they are (R171, R179). -/
theorem State.chanWrite_plain {cells : List Host.Cell} {st : Nat} (h : ∀ c ∈ cells, keyIsSnap c.1 = false) :
    s.chanWrite cells st = s.write cells st := by
  have hany : (cells.any fun c => keyIsSnap c.1) = false := by
    rw [List.any_eq_false]
    exact fun c hc hs => Bool.false_ne_true ((h c hc).symm.trans hs)
  have hnone : (cells.filter fun c => keyIsSnap c.1) = [] := by
    rw [List.filter_eq_nil_iff]
    exact fun c hc hs => Bool.false_ne_true ((h c hc).symm.trans hs)
  have hdecl : s.declares cells = s := by
    rw [State.declares, hany]
    exact if_neg fun hs => Bool.false_ne_true hs.2
  have hopen : s.openUnits cells st = s := by rw [State.openUnits, cellUnits, hnone]; rfl
  have hspread : s.spread cells st = cells := by
    have hmap : ∀ l : List Host.Cell, (∀ c ∈ l, keyIsSnap c.1 = false) → s.spread l st = l := fun l hl => by
      induction l with
      | nil => rfl
      | cons c r ih =>
        have hc : (!keyIsSnap c.1) = true := by rw [hl c List.mem_cons_self]; rfl
        have hr := ih fun d hd => hl d (List.mem_cons_of_mem _ hd)
        rw [State.spread] at hr ⊢
        rw [List.map_cons, List.flatten_cons, if_pos hc, hr]
        rfl
    exact hmap cells h
  rw [State.chanWrite, hdecl, hopen, hspread]

theorem State.performAt_unsettled {b : Access} {id ch core slot : Nat} {perform : Bool} (h : s.acc? id = some b) (hs : b.settled = false) :
    s.performAt id ch core slot perform = s := by
  simp only [State.performAt, h, hs, Bool.and_false, Bool.false_eq_true, if_false]

theorem State.performLanes_one {a : Access} {l : LaneAcc} {k : Nat} {pick : LaneAcc → Bool} (hst : l.st = .ready k) (hp : pick l = true)
    (hf : s.free a l k = true) : s.performLanes a pick [l] = ((s.performLane a l k).1, [(s.performLane a l k).2]) := by
  simp only [State.performLanes, hst, hp, hf, Bool.and_self, if_true]

section performed
variable {a : Access} {l m : LaneAcc} {w : Weft} {k : Nat} (h : s.Alone a w)

include h in
/-- Nothing stands before the one access in flight (R246). -/
theorem State.Alone.free (hk : a.kind = .load ∨ a.kind = .store ∧ a.heldBy = none ∧ s.accepts k = true) : s.free a l k = true := by
  have hbefore : a.kind = .store → a.before a = false := fun hs => by
    unfold Access.before
    cases a.ord with
    | none => rfl
    | some x => simp
  rcases hk with hk | ⟨hk, hheld, hacc⟩
  · simp [State.free, hk, AccKind.writes, AccKind.reads, State.olderWrite, State.parkedBytes, State.parkedBefore, State.olderLoad, h.accs]
  · simp [State.free, hk, AccKind.writes, AccKind.reads, State.olderWrite, State.olderParked, State.parkedBefore, h.accs, Access.holds, hheld,
      hacc, hbefore hk]

include h in
/-- With no store in flight a core reads memory (R246). -/
theorem State.Alone.coreBytes (hk : a.kind = .load) (core n : Nat) : s.coreBytes core k n = s.rbytes k n := by
  have hnone : ∀ x, pendingByte core x s.accs = none := fun x => by
    rw [h.accs, pendingByte]
    simp [hk, newestByte]
  rw [State.coreBytes, State.rbytes]
  simp only [hnone]

include h in
/-- A performed access leaves (R228, R229). -/
theorem State.Alone.leaves (hk : a.kind = .load ∨ a.kind = .store) (hs : a.settled = true) (hq : a.acq = false) (hl : a.lanes = [l])
    (hd : l.st = .done) : ((s.late a.id).finish a.id).checkPersist a.core a.slot = (s.dropAcc a.id).setWeft (w.loaded a) := by
  have hlate : s.late a.id = s := by
    rcases hk with hk | hk
    · exact h.late_read (by rw [hk]; rfl)
    · have hno : (a.parked || !a.lanes.any LaneAcc.replaying || (a.kind != .store && a.fabOpen)) = true := by
        simp [hl, LaneAcc.replaying, hd]
      exact (h.late_write hs (by rw [hk]; rfl) hl (by rw [LaneAcc.cause, hd])).trans (if_pos hno)
  have hv := w.loaded_accOnly a
  obtain ⟨hcore, hslot⟩ := weft?_slot h.weft
  rw [hlate, h.finish_performed hk hs hq hl hd]
  refine State.checkPersist_none (weft?_setWeft (s := s.dropAcc a.id) h.weft ?_ ?_) ?_
  · rw [hv]; exact hcore
  · rw [hv]; exact hslot
  · rw [hv]; exact h.pbars

/-- The state that a performed access leaves. -/
def State.left (t : State) (a : Access) (w : Weft) (m : LaneAcc) (p : List Nat) : State :=
  ({ t.setAcc (a.withLane m) with pois := p }.dropAcc a.id).setWeft (w.loaded (a.withLane m))

include h in
theorem State.Alone.performAt_ready {t : State} (hl : a.lanes = [l]) (hst : l.st = .ready k) (hf : isFabric l.ea = false) (hs : a.settled = true)
    (hk : a.kind = .load ∨ a.kind = .store) (hq : a.acq = false) (hfree : s.free a l k = true) (ho : s.performLane a l k = (t, m))
    (hm : m.st = .done) (ht : s.MemOnly t) : ∃ p, s.performAt a.id (chanOf l.ea) a.core a.slot true = t.left a w m p := by
  have hpick : (!isFabric l.ea && chanOf l.ea == chanOf l.ea) = true := by simp [hf]
  obtain ⟨p, hp⟩ := State.coverLanes_pois (s := t.setAcc (a.withLane m)) a [m] a.readyKeys
  have hal : State.Alone { t.setAcc (a.withLane m) with pois := p } (a.withLane m) w := by
    have h1 := (h.recordOnly ht.recordOnly).setAcc (b := (a.withLane m)) rfl rfl rfl
    exact ⟨h1.accs, h1.weft, h1.pbars⟩
  refine ⟨p, ?_⟩
  have hgo : (true && a.settled) = true := by rw [hs]; rfl
  rw [State.performAt, h.acc?]
  dsimp only
  rw [if_pos hgo, hl, State.performLanes_one hst hpick hfree, ho]
  refine (congrArg (fun x : State => ((x.late a.id).finish a.id).checkPersist a.core a.slot) hp).trans ?_
  exact hal.leaves hk hs hq rfl hm

include h in
theorem State.Alone.left_weft? {t : State} (ht : s.MemOnly t) (p : List Nat) :
    (t.left a w m p).weft? a.core a.slot = some (w.loaded (a.withLane m)) := by
  have hv := w.loaded_accOnly (a.withLane m)
  obtain ⟨hcore, hslot⟩ := weft?_slot h.weft
  have hw : t.weft? a.core a.slot = some w := by rw [ht]; exact h.weft
  refine weft?_setWeft (s := { t.setAcc (a.withLane m) with pois := p }.dropAcc a.id) hw ?_ ?_
  · rw [hv]; exact hcore
  · rw [hv]; exact hslot

theorem State.left_acc? (t : State) (p : List Nat) : (t.left a w m p).acc? a.id = none := State.acc?_dropAcc _ a.id

theorem State.left_mem (t : State) (p : List Nat) : (t.left a w m p).mem = t.mem := rfl

theorem State.left_byte (t : State) (p : List Nat) : (t.left a w m p).byte = t.byte := rfl

theorem Weft.loaded_pc (w : Weft) (a : Access) : (w.loaded a).pc = w.pc := by rw [w.loaded_accOnly a]

end performed

section performs
variable {a : Access} {l : LaneAcc} {w : Weft} {k : Nat} (h : s.Alone a w) (hl : a.lanes = [l]) (hst : l.st = .ready k)

include h hl hst

/-- An accepted load is performed with the answer: its lane holds what the core reads (R246, R409). -/
theorem State.Alone.performs_load (hk : a.kind = .load) (hf : isFabric l.ea = false) (hrep : a.replayed = false) (hq : a.acq = false)
    (hu : a.settled = false) (hp : a.parked = false) : ∃ n o p, (s.progress a.id).performAt a.id (chanOf l.ea) a.core a.slot true
      = (s.goneOn a w n o).left (a.entered o) (w.going a) { l with data := s.rnat k a.size, st := .done } p := by
  obtain ⟨n, o, hprog⟩ := h.progress_ready hl hst (.inl hk) hrep hq hu hp
  have hal := h.goneOn n o
  have hlane : (s.goneOn a w n o).performLane (a.entered o) l k = (s.goneOn a w n o, { l with data := s.rnat k a.size, st := .done }) := by
    have hreads : s.SameReads (s.goneOn a w n o) := ⟨rfl, rfl, rfl, rfl, rfl, rfl⟩
    rw [← hreads.rnat, State.rnat, ← hal.coreBytes hk a.core a.size]
    simp only [State.performLane, Access.entered, hk]
  obtain ⟨p, hperf⟩ := hal.performAt_ready hl hst hf rfl (.inl hk) hq (hal.free (.inl hk)) hlane rfl (.refl _)
  exact ⟨n, o, p, (congrArg (State.performAt · a.id (chanOf l.ea) a.core a.slot true) hprog).trans hperf⟩

/-- An accepted store is performed with the answer: its bytes are written (R171, R409). -/
theorem State.Alone.performs_store (hk : a.kind = .store) (hf : isFabric l.ea = false) (hrep : a.replayed = false) (hq : a.acq = false)
    (hu : a.settled = false) (hp : a.parked = false) (hheld : a.heldBy = none) (hroom : s.accepts k = true) (hlow : k + a.size ≤ 2 ^ 66)
    (hlow' : k < 2 ^ 66) : ∃ n o p, (s.progress a.id).performAt a.id (chanOf l.ea) a.core a.slot true
      = ((s.goneOn a w n o).write (cellsFrom k (leBytes a.size l.data)) a.step).left (a.entered o) (w.going a) { l with st := .done } p := by
  obtain ⟨n, o, hprog⟩ := h.progress_ready hl hst (.inr hk) hrep hq hu hp
  have hal := h.goneOn n o
  have hplain : ∀ c ∈ cellsFrom k (leBytes a.size l.data), keyIsSnap c.1 = false := fun c hc => by
    have hlt := (mem_cellsFrom hc).2
    rw [length_leBytes] at hlt
    exact decide_eq_false (by omega)
  have hsnap : keyIsSnap k = false := decide_eq_false (by omega)
  have hlane : (s.goneOn a w n o).performLane (a.entered o) l k
      = ((s.goneOn a w n o).write (cellsFrom k (leBytes a.size l.data)) a.step, { l with st := .done }) := by
    rw [← State.chanWrite_plain hplain]
    simp only [State.performLane, Access.entered, hk, State.performWrite, hsnap, Bool.false_and, Bool.false_eq_true, if_false]
  obtain ⟨p, hperf⟩ := hal.performAt_ready hl hst hf rfl (.inr hk) hq (hal.free (.inr ⟨hk, hheld, hroom⟩)) hlane rfl (State.write_memOnly ..)
  exact ⟨n, o, p, (congrArg (State.performAt · a.id (chanOf l.ea) a.core a.slot true) hprog).trans hperf⟩

end performs

/-! ### One access of one lane, at its channel -/

theorem State.verdict_memOnly (s : State) (rep : Nat → Bool) (a : Access) (l : LaneAcc) : s.MemOnly (s.verdict rep a l).1 := by
  unfold State.verdict
  split <;> have h1 := snd_keeps ‹s.translate _ _ _ _ = _› (State.translate_memOnly ..)
  · refine pair_ite_keeps h1 (pair_ite_keeps (pair_ite_keeps ?_ h1) h1)
    exact h1.trans (State.openUnit_getD_memOnly ..)
  · exact h1
  · exact h1
  · exact h1
  · exact pair_ite_keeps (h1.trans rfl) h1

/-- An access of one lane waits for its channel, and it is the only one in flight. -/
structure State.OneLane (s : State) (a : Access) (l : LaneAcc) (w : Weft) : Prop where
  up : s.up = true
  accs : s.accs = [a]
  lanes : a.lanes = [l]
  waits : l.st = .waiting
  here : isFabric l.ea = false
  open_ : a.settled = false
  inFlight : a.parked = false
  first : a.replayed = false
  noAcq : a.acq = false
  unheld : a.heldBy = none
  weft : s.weft? a.core a.slot = some w
  pbars : w.pbars = []

section oneLane
variable {a : Access} {l m : LaneAcc} {w : Weft} {s1 : State} (h : s.OneLane a l w) (go : Bool)
  (hv : s.verdict (s.reported (chanOf l.ea) a.ctx) a l = (s1, m))

include h hv in
theorem State.OneLane.answers : ∃ t, s1.Told t a m ∧ s.MemOnly s1 ∧ t.Alone (a.withLane m) w
    ∧ execAccessAnswer a.id (chanOf l.ea) go s = .next ((t.progress a.id).performAt a.id (chanOf l.ea) a.core a.slot go) := by
  have hacc : s.acc? a.id = some a := by rw [State.acc?, h.accs]; simp
  have hmo : s.MemOnly s1 := fst_keeps hv (s.verdict_memOnly ..)
  obtain ⟨t, ht, hans⟩ := State.answer_one (perform := go) hacc h.lanes h.waits h.here h.first fun rep =>
    (show (s.verdict rep a l).1.accs = s.accs by rw [s.verdict_memOnly rep a l]).trans h.accs
  rw [hv] at ht
  refine ⟨t, ht, hmo, ⟨by rw [ht], ?_, h.pbars⟩, ?_⟩
  · rw [ht, hmo]
    exact h.weft
  · rw [execAccessAnswer, h.up, if_pos rfl, hans]

include h hv in
/-- PAGE or PROT on a load (R52, R278). -/
theorem State.OneLane.traps {c : Cause} (hc : c = .page ∨ c = .prot) (hm : m = { l with st := .bad c 0 }) (hk : a.kind = .load)
    (htm : w.tm = false) (hctx : w.ctx = a.ctx) : s.Does (.accessAnswer a.id (chanOf l.ea) go) fun t =>
      ∃ v, t.weft? a.core a.slot = some v ∧ v.tcause = BitVec.ofNat 8 c.code ∧ v.tpc = w.pc
        ∧ v.tmask = (if a.scalar then a.mask else BitVec.ofNat 64 (2 ^ l.lane)) ∧ v.tem = w.em ∧ v.em = allLanes ∧ v.tm = true
        ∧ v.pc = (s.ctx a.ctx).desc.tvec ∧ v.tinfo.getLsbD 3 = !a.scalar ∧ t.acc? a.id = none
        ∧ ∀ n, a.dst = .sreg n → n < w.sregs.length → (v.sreg n).full = true ∧ (v.sreg n).val = (w.sreg n).val := by
  have hst : m.st = .bad c 0 := by rw [hm]
  have hlane : m.lane = l.lane := by rw [hm]
  obtain ⟨t, ht, hmo, hal, hrun⟩ := h.answers go hv
  have hprog := hal.progress_trap rfl hst hk h.open_ h.inFlight htm
  have hgone : (t.progress a.id).acc? a.id = none := (congrArg (State.acc? · a.id) hprog).trans (State.acc?_dropAcc t a.id)
  have hperf : (t.progress a.id).performAt a.id (chanOf l.ea) a.core a.slot go = t.progress a.id := by rw [State.performAt, hgone]
  have hacc := w.trapping_accOnly (a.withLane m)
  obtain ⟨hcore, hslot⟩ := weft?_slot h.weft
  have hdesc : (t.ctx w.ctx).desc.tvec = (s.ctx a.ctx).desc.tvec := by rw [hctx, ht, hmo]; rfl
  refine ⟨_, hrun, (w.trapping (a.withLane m)).trapped c ((a.withLane m).trapMask m) ((a.withLane m).trapInfo c 0) (t.ctx w.ctx).desc.tvec,
    ?_, rfl, ?_, ?_, ?_, rfl, rfl, hdesc, Access.trapInfo_pl hk hc, ?_, fun n hd hn => ?_⟩
  · rw [hperf]
    refine (congrArg (State.weft? · a.core a.slot) hprog).trans (weft?_setWeft (s := t.dropAcc a.id) hal.weft ?_ ?_)
    · rw [hacc]; exact hcore
    · rw [hacc]; exact hslot
  · rw [hacc]; rfl
  · rw [← hlane]; rfl
  · rw [hacc]; rfl
  · rw [hperf]; exact hgone
  · exact Weft.trapping_sreg rfl (by rw [hst]; exact nofun) hd hn

include h hv in
/-- NOTPRES, first reported, on a load (R52, R54, R282). -/
theorem State.OneLane.parks {lv : Nat} (hm : m = { l with st := .replay 1 lv }) (hk : a.kind = .load) (hctx : a.ctx < s.ctxs.length) :
    s.Does (.accessAnswer a.id (chanOf l.ea) go) fun t =>
      ∃ v, t.weft? a.core a.slot = some v ∧ v.parked = some a.id ∧ v.pc = w.pc ∧ v.unsettled ≠ some a.id
        ∧ (t.ctx a.ctx).fqseq = (s.ctx a.ctx).fqseq + 1 ∧ ∃ b, t.acc? a.id = some b ∧ b.parked = true ∧ b.lanes = [m] := by
  obtain ⟨t, ht, hmo, hal, hrun⟩ := h.answers go hv
  obtain ⟨r, hprog, hal'⟩ := hal.progress_park rfl (show m.st = .replay 1 lv by rw [hm]) hk h.open_ h.inFlight
  have hctxs : t.ctxs = s.ctxs := by rw [ht, hmo]
  have hperf : (t.progress a.id).performAt a.id (chanOf l.ea) a.core a.slot go = t.progress a.id :=
    State.performAt_unsettled hal'.acc? h.open_
  refine ⟨_, hrun, w.parking (a.withLane m), ?_, rfl, ?_, w.parking_unsettled (a.withLane m), ?_, ?_⟩
  · rw [hperf]; exact hal'.weft
  · rw [w.parking_accOnly]
  · rw [hperf]
    refine (congrArg (fun x : State => (x.ctx a.ctx).fqseq) hprog).trans ((State.writeRecord_fqseq r ?_).trans ?_)
    · exact hctxs ▸ hctx
    · exact congrArg (fun l : List Context => (l.getD a.ctx Context.free).fqseq + 1) hctxs
  · rw [hperf]
    exact ⟨_, hal'.acc?, rfl, rfl⟩

include h hv in
/-- NOTPRES, first reported, on a store (R52, R248). -/
theorem State.OneLane.staysBehind {lv : Nat} (hm : m = { l with st := .replay 1 lv }) (hk : a.kind = .store) (hctx : a.ctx < s.ctxs.length) :
    s.Does (.accessAnswer a.id (chanOf l.ea) go) fun t =>
      ∃ v, t.weft? a.core a.slot = some v ∧ v.pc = a.next ∧ v.parked ≠ some a.id ∧ (t.ctx a.ctx).fqseq = (s.ctx a.ctx).fqseq + 1
        ∧ ∃ b ∈ t.accs, b.op = a.op ∧ b.parked = true ∧ b.lanes = [{ l with st := .replay 0 1 }] := by
  obtain ⟨t, ht, hmo, hal, hrun⟩ := h.answers go hv
  obtain ⟨n, o, r, hprog⟩ := hal.progress_behind rfl (show m.st = .replay 1 lv by rw [hm]) hk h.first h.noAcq h.open_ h.inFlight
  have hctxs : t.ctxs = s.ctxs := by rw [ht, hmo]
  have hal' := (hal.behind (l := m) n o).recordOnly (State.writeRecord_recordOnly _ a.ctx r)
  obtain ⟨p, hperf⟩ := hal'.performAt_parked rfl rfl rfl hk a.id (chanOf l.ea) go
  obtain ⟨-, -, -, hpc, -, hpark⟩ := w.going_place (a.withLane m)
  have hend : (t.progress a.id).performAt a.id (chanOf l.ea) a.core a.slot go
      = { (t.behind (a.withLane m) m w n o).writeRecord a.ctx r with pois := p } :=
    (congrArg (State.performAt · a.id (chanOf l.ea) a.core a.slot go) hprog).trans hperf
  refine ⟨_, hrun, w.going (a.withLane m), ?_, hpc, hpark, ?_, ?_⟩
  · rw [hend]; exact hal'.weft
  · rw [hend]
    refine (State.writeRecord_fqseq r ?_).trans ?_
    · exact hctxs ▸ hctx
    · exact congrArg (fun l : List Context => (l.getD a.ctx Context.free).fqseq + 1) hctxs
  · rw [hend]
    exact ⟨_, (congrArg (_ ∈ ·) hal'.accs).mpr (List.mem_singleton.2 rfl), rfl, rfl, by rw [hm]; rfl⟩

include h hv in
/-- A load that is accepted (R228, R281, R409). -/
theorem State.OneLane.loads {k : Nat} (hm : m = { l with st := .ready k }) (hk : a.kind = .load) :
    s.Does (.accessAnswer a.id (chanOf l.ea) true) fun t =>
      ∃ v, t.weft? a.core a.slot = some v ∧ v.pc = a.next ∧ t.acc? a.id = none ∧ t.mem = s1.mem
        ∧ ∀ n, a.dst = .sreg n → n < w.sregs.length →
            let x := s1.rnat k a.size
            v.sreg n = { val := if a.signExt then BitVec.ofInt 64 (signedOf (8 * a.size) x) else BitVec.ofNat 64 x, full := true, pois := false } := by
  have hea : m.ea = l.ea := by rw [hm]
  obtain ⟨t, ht, -, hal, hrun⟩ := h.answers true hv
  obtain ⟨n, o, p, hend⟩ := hal.performs_load rfl (show m.st = .ready k by rw [hm]) hk (by rw [hea]; exact h.here) h.first h.noAcq h.open_ h.inFlight
  have hnat : t.rnat k a.size = s1.rnat k a.size := congrArg (fun f : Nat → Nat → Nat => f k a.size) ht.sameReads.rnat
  obtain ⟨-, -, -, hpc, hsregs, -⟩ := w.going_place (a.withLane m)
  rw [← hea] at hrun ⊢
  have hrun' := hrun.trans (congrArg Host.Outcome.next hend)
  refine ⟨_, hrun', (w.going (a.withLane m)).loaded (((a.withLane m).entered o).withLane { m with data := t.rnat k a.size, st := .done }),
    (hal.goneOn n o).left_weft? (.refl _) p, (Weft.loaded_pc ..).trans hpc, State.left_acc? _ p, by rw [ht]; rfl, fun j hd hj => ?_⟩
  obtain ⟨hsr, -⟩ := (w.going (a.withLane m)).loaded_regs (((a.withLane m).entered o).withLane { m with data := t.rnat k a.size, st := .done })
  rw [Weft.sreg, hsr, ← hnat]
  exact Weft.writeDest_sreg (l := { m with data := t.rnat k a.size, st := .done }) (show a.kind.reads = true by rw [hk]; rfl)
    (fun x hx => by rw [List.mem_singleton.1 hx]) hd (by rw [hsregs]; exact hj) rfl

include h hv in
/-- A store that is accepted (R281, R409). -/
theorem State.OneLane.stores {k : Nat} (hm : m = { l with st := .ready k }) (hk : a.kind = .store) (hacc : s1.accepts k = true) (hi : s1.Inv)
    (hlow : k + a.size ≤ 2 ^ 66) (hlow' : k < 2 ^ 66) : s.Does (.accessAnswer a.id (chanOf l.ea) true) fun t =>
      ∃ v, t.weft? a.core a.slot = some v ∧ v.pc = a.next ∧ t.acc? a.id = none ∧ t.Inv
        ∧ (∀ i, i < a.size → t.byte (k + i) = BitVec.ofNat 8 (l.data >>> (8 * i))) ∧ s1.SameBut t (cellsFrom k (leBytes a.size l.data)) := by
  have hea : m.ea = l.ea := by rw [hm]
  have hdata : m.data = l.data := by rw [hm]
  obtain ⟨t, ht, -, hal, hrun⟩ := h.answers true hv
  have hroom : t.accepts k = true := by rw [ht]; exact hacc
  have hmem : t.Inv := by rw [ht]; exact hi
  obtain ⟨n, o, p, hend⟩ := hal.performs_store rfl (show m.st = .ready k by rw [hm]) hk (by rw [hea]; exact h.here) h.first h.noAcq h.open_ h.inFlight
    h.unheld hroom hlow hlow'
  obtain ⟨-, -, -, hpc, -, -⟩ := w.going_place (a.withLane m)
  rw [← hea] at hrun ⊢
  have hrun' := hrun.trans (congrArg Host.Outcome.next hend)
  have hwf : Memory.wf (t.goneOn (a.withLane m) w n o).mem = true := hmem
  have hgone : s1.SameReads (t.goneOn (a.withLane m) w n o) := by rw [ht]; exact ⟨rfl, rfl, rfl, rfl, rfl, rfl⟩
  have hbyte : ∀ x, ((t.goneOn (a.withLane m) w n o).write (cellsFrom k (leBytes a.size m.data)) a.step).byte x
      = (cellAt x (cellsFrom k (leBytes a.size l.data))).getD (s1.byte x) := fun x => by
    rw [State.byte_write _ _ a.step x hwf (nodup_cellsFrom ..), hdata, hgone.byte]
  refine ⟨_, hrun', (w.going (a.withLane m)).loaded (((a.withLane m).entered o).withLane { m with st := .done }),
    (hal.goneOn n o).left_weft? (State.write_memOnly _ _ a.step) p, (Weft.loaded_pc ..).trans hpc, State.left_acc? _ p,
    (congrArg (Memory.wf · = true) (State.left_mem _ p)).mpr (State.write_wf _ _ a.step hwf),
    fun i hi => (congrFun (State.left_byte _ p) _).trans ((hbyte (k + i)).trans ?_),
    fun x hx => (congrFun (State.left_byte _ p) _).trans ((hbyte x).trans ?_)⟩
  · rw [cellAt_cellsFrom, length_leBytes, if_pos (by omega), Nat.add_sub_cancel_left, getD_leBytes _ hi]
    rfl
  · rw [cellAt_none _ _ fun c hc hk => hx (List.mem_map.2 ⟨c, hc, hk⟩)]
    rfl

end oneLane

/-! ### The outcome at the channel (R50, R54) -/

section verdict
variable {s1 : State} {a : Access} {l : LaneAcc} (rep : Nat → Bool)

theorem State.verdict_prot (h : s.translate a.ctx l.ea a.kind.ask a.step = (.prot, s1)) :
    s.verdict rep a l = (s1, { l with st := .bad .prot 0 }) := by
  rw [State.verdict, h]

theorem State.verdict_notPres {lv : Nat} (h : s.translate a.ctx l.ea a.kind.ask a.step = (.notPres lv, s1)) (hr : rep (l.ea.toNat / 4096) = false) :
    s.verdict rep a l = (s1, { l with st := .replay 1 lv }) := by
  simp only [State.verdict, h, hr, Bool.false_and, Bool.false_eq_true, if_false]

theorem State.verdict_load {k : Nat} {cbf : Bool} (h : s.translate a.ctx l.ea a.kind.ask a.step = (.ok k cbf, s1)) (hk : a.kind = .load)
    (hp : s1.rpoisoned k a.size = false) : s.verdict rep a l = (s1, { l with st := .ready k }) := by
  have hw : a.kind.writes = false := by rw [hk]; rfl
  simp only [State.verdict, h, hp, hw, Bool.and_false, Bool.false_and, Bool.false_eq_true, if_false]

theorem State.verdict_store {k : Nat} {cbf : Bool} (h : s.translate a.ctx l.ea a.kind.ask a.step = (.ok k cbf, s1)) (hk : a.kind = .store) :
    s.verdict rep a l = (s1, { l with st := .ready k }) := by
  have hr : a.kind.reads = false := by rw [hk]; rfl
  have hat : a.kind.isAtomic = false := by rw [hk]; rfl
  simp only [State.verdict, h, hr, hat, Bool.or_false, Bool.and_false, Bool.false_and, Bool.false_eq_true, if_false]

end verdict

/-- Settles O49: each outcome of a lane at its channel, then the steps of the channels. -/
theorem accessAnswersAndChannelSteps : Obligations.AccessAnswersAndChannelSteps := by
  unfold Obligations.AccessAnswersAndChannelSteps
  refine ⟨fun s a l w go hup ha hl hst hf h64 hset hpark hrep hacq hw htm hpb haccs hheld => ?answers,
    fun s core slot w hw => ⟨fun hup hwait a hu ha hs => State.swaitPoll_does hw hup hwait hu ha hs, execSwaitPoll_idle hw,
      State.sleepExpiry_does hw, fun old e new hb hp hh hold hi hap => State.hamperWriteback_does hb hp hh hold hi hap,
      fun chan x hup ht hc hx hs hp => State.patrolScrub_rotates hup ht hc hx hs hp,
      fun chan x hup ht hc hx hs => State.patrolScrub_stopped hup ht hc hx hs, State.refreshes_do⟩⟩
  have h : s.OneLane a l w := ⟨hup, haccs, hl, hst, hf, hset, hpark, hrep, hacq, hheld, hw, hpb⟩
  refine ⟨fun hctx hk => ⟨fun hp => ?page, fun hp => ?prot⟩, fun lv hn hr hctx => ⟨fun hk => ?parks, fun hk => ?behind⟩,
    fun k cbf hok hgo => ⟨fun hk hp => ?loads, fun hk hacc hi hlt hle => ?stores⟩⟩
  case page => exact h.traps go (State.verdict_page _ (Prod.ext hp rfl)) (.inl rfl) rfl hk htm hctx
  case prot => exact h.traps go (State.verdict_prot _ (Prod.ext hp rfl)) (.inr rfl) rfl hk htm hctx
  case parks => exact h.parks go (State.verdict_notPres _ (Prod.ext hn rfl) hr) rfl hk hctx
  case behind => exact h.staysBehind go (State.verdict_notPres _ (Prod.ext hn rfl) hr) rfl hk hctx
  case loads =>
    subst hgo
    exact h.loads (State.verdict_load _ (Prod.ext hok rfl) hk hp) rfl hk
  case stores =>
    subst hgo
    exact h.stores (State.verdict_store _ (Prod.ext hok rfl) hk) rfl hk hacc hi hle hlt

end Sys2Proof.Machine
end

section
/-! SUPPORT of O48. What an access and the answer of a request leave alone of the fabric: the planes and the peer table. -/

namespace Sys2Proof.Machine
variable {s₀ s : State}

/-- Planes that are up, planes that have fallen, and the peer table stand in both states alike: only the switch, the links and the
host change them (R67, R69, R76). -/
def State.SameLinks (s t : State) : Prop := t.fab.up = s.fab.up ∧ t.fab.fell = s.fab.fell ∧ t.fab.peers = s.fab.peers

theorem State.SameLinks.refl : s.SameLinks s := ⟨rfl, rfl, rfl⟩

theorem State.SameLinks.peer {t : State} (h : s.SameLinks t) (n : Nat) : t.peer n = s.peer n := by
  obtain ⟨-, -, hpeers⟩ := h
  rw [State.peer, State.peer, hpeers]

theorem State.RecordOnly.links {t : State} (k : s.RecordOnly t) (h : s₀.SameLinks s) : s₀.SameLinks t := by
  rw [State.RecordOnly] at k; rw [k]; exact h

theorem State.MemOnly.links {t : State} (k : s.MemOnly t) (h : s₀.SameLinks s) : s₀.SameLinks t := k.recordOnly.links h

/-! ### Traps, events and the combining buffers -/

theorem State.beginTeardown_links {c : Nat} (h : s₀.SameLinks s) : s₀.SameLinks (s.beginTeardown c) := h

theorem State.fatal_links {w : Weft} {cause : Cause} {lanes info rpc : W64} (h : s₀.SameLinks s) :
    s₀.SameLinks (s.fatal w cause lanes info rpc) := 
  ite_keeps h (State.beginTeardown_links ((State.vaWrite_getD_memOnly ..).links h))

theorem State.takeTrap_links {w : Weft} {cause : Cause} {lanes info rpc : W64} (h : s₀.SameLinks s) :
    s₀.SameLinks (s.takeTrap w cause lanes info rpc) := ite_keeps (State.fatal_links (s := s.setWeft w) h) h

theorem State.weftEvent_links {core slot : Nat} {e : WeftEvent} (h : s₀.SameLinks s) : s₀.SameLinks (s.weftEvent core slot e) := by
  unfold State.weftEvent
  split <;> exact h

theorem State.lateFault_links {core slot : Nat} {c : Cause} {e : WeftEvent} (h : s₀.SameLinks s) :
    s₀.SameLinks (s.lateFault core slot c e) := ite_keeps h (State.weftEvent_links h)

theorem State.sendComb_links {e : CombEntry} (h : s₀.SameLinks s) : s₀.SameLinks (s.sendComb e) := by
  unfold State.sendComb
  split
  · exact foldl_keeps _ _ (fun _ _ ht => State.weftEvent_links ht) _ (s.leaveComb e .dropped) h
  · exact h

theorem State.flushComb_links {pick : CombEntry → Bool} (h : s₀.SameLinks s) : s₀.SameLinks (s.flushComb pick) :=
  foldl_keeps _ _ (fun _ _ ht => State.sendComb_links ht) _ _ h

theorem State.combine_links {core ctx peer line : Nat} {nt : Bool} {bytes : List (Nat × Byte × Nat)} {acc : Nat} (h : s₀.SameLinks s) :
    s₀.SameLinks (s.combine core ctx peer line nt bytes acc) := by
  have h1 {pick : CombEntry → Bool} : s₀.SameLinks (s.flushComb pick) := State.flushComb_links h
  unfold State.combine
  dsimp only
  split
  · exact State.flushComb_links (s := s) h
  · refine ite_keeps ?_ h1
    split
    · exact State.sendComb_links h1
    · exact h1

/-! ### Queues and launches -/

theorem State.qPop_links {w : Weft} {n : Nat} (h : s₀.SameLinks s) : s₀.SameLinks (s.qPop w n) := by
  unfold State.qPop State.q3Pop
  repeat' split
  all_goals exact h

theorem State.qPush_links {w : Weft} {n : Nat} {v : W64} (h : s₀.SameLinks s) : s₀.SameLinks (s.qPush w n v) := by
  unfold State.qPush State.q4Push
  repeat' split
  all_goals exact h

theorem State.popUses_links {w : Weft} {m : W64} {us : List Use} (h : s₀.SameLinks s) : s₀.SameLinks (s.popUses w m us) := by
  induction us generalizing s with
  | nil => exact h
  | cons u r ih =>
    unfold State.popUses
    split
    · split
      · exact ih h
      · split
        · split
          · exact ih (s := s.setTeam _) h
          · exact ih h
        · exact ih (State.qPop_links h)
    · exact ih h

theorem writeS_links {w : Weft} {o : Opnd} {v : W64} (h : s₀.SameLinks s) : s₀.SameLinks (writeS s w o v).1 := by
  unfold writeS
  split
  · exact h
  · exact State.qPush_links h
  · exact h

theorem State.enterLaunch_links {c : Nat} {lva : W64} {r : LaunchRec} {die : Option Nat} {extra : List Dep}
    {cmd : Option (Nat × Nat × Nat)} {itn : Option Nat} (h : s₀.SameLinks s) : s₀.SameLinks (s.enterLaunch c lva r die extra cmd itn) := by
  unfold State.enterLaunch State.joinPipe
  dsimp only
  repeat' split
  all_goals exact h

/-! ### Accesses -/

theorem State.writeRecords_links {c : Nat} {rs : List FaultRec} (h : s₀.SameLinks s) : s₀.SameLinks (s.writeRecords c rs) :=
  foldl_keeps _ _ (fun t r ht => (State.writeRecord_recordOnly t c r).links ht) _ _ h

theorem State.performLane_links {a : Access} {l : LaneAcc} {k : Nat} (h : s₀.SameLinks s) : s₀.SameLinks (s.performLane a l k).1 := by
  have hw {v data : Nat} : s₀.SameLinks (s.performWrite a l k v data).1 := pair_ite_keeps h ((State.chanWrite_memOnly ..).links h)
  unfold State.performLane
  split
  case h_1 | h_2 | h_3 | h_4 => exact h
  case h_5 | h_6 | h_7 | h_8 => exact hw

theorem State.performLanes_links {a : Access} {pick : LaneAcc → Bool} {ls : List LaneAcc} (h : s₀.SameLinks s) :
    s₀.SameLinks (s.performLanes a pick ls).1 := by
  induction ls generalizing s with
  | nil => exact h
  | cons l r ih =>
    unfold State.performLanes
    split
    · exact pair_ite_keeps (ih (State.performLane_links h)) (ih h)
    · exact ih h

theorem State.settleTrap_links {w : Weft} {a : Access} {c : Cause} {d : Nat} (h : s₀.SameLinks s) :
    s₀.SameLinks (s.settleTrap w a c d) := by
  unfold State.settleTrap
  exact ite_keeps (State.takeTrap_links (s := s.dropAcc _) h) (State.takeTrap_links (ite_keeps h h))

theorem State.parkLanes_links {a : Access} (h : s₀.SameLinks s) : s₀.SameLinks (s.parkLanes a) :=
  ite_keeps h (State.writeRecords_links h)

theorem State.late_links {id : Nat} (h : s₀.SameLinks s) : s₀.SameLinks (s.late id) := by
  unfold State.late
  split
  · exact h
  · split
    · exact h
    · split
      · exact State.parkLanes_links (State.lateFault_links (s := s.setAcc _) h)
      · exact State.parkLanes_links h

theorem State.settleReplay_links {w : Weft} {a : Access} (h : s₀.SameLinks s) : s₀.SameLinks (s.settleReplay w a) := by
  unfold State.settleReplay
  dsimp only
  split
  · exact ite_keeps (State.lateFault_links (s := State.setWeft _ _) h) (State.lateFault_links (s := State.setWeft _ _) h)
  · exact State.parkLanes_links h

theorem State.settle_links {a : Access} (h : s₀.SameLinks s) : s₀.SameLinks (s.settle a) := by
  unfold State.settle
  split
  · exact h
  · have hwait {w : Weft} : s₀.SameLinks (s.settleWait w a) := ite_keeps h h
    have horder : s₀.SameLinks (s.enterOrder a).1 := pair_ite_keeps h h
    have hlanes {c : Prop} [Decidable c] {ls : List LaneAcc} :=
      pair_ite_keeps (c := c) (State.performLanes_links (a := (s.enterOrder a).2) (pick := fun _ => true) (ls := ls) horder)
      (b := ((s.enterOrder a).1, ls)) horder
    refine ite_keeps hwait (ite_keeps (State.settleReplay_links h) (ite_keeps hlanes ?_))
    split
    · exact State.settleTrap_links hlanes
    · refine ite_keeps (State.writeRecords_links hlanes) ?_
      unfold State.settleGo
      exact ite_keeps hlanes hlanes

theorem State.finishLaunch_links {w : Weft} {a : Access} {d : Opnd} {b : Option Opnd} {early : Bool} (h : s₀.SameLinks s) :
    s₀.SameLinks (s.finishLaunch w a d b early) := by
  have hp {us : List Use} : s₀.SameLinks ((s.dropAcc a.id).popUses w a.mask us) := State.popUses_links h
  unfold State.finishLaunch
  exact ite_keeps h (ite_keeps (writeS_links hp) (ite_keeps h (writeS_links (State.enterLaunch_links hp))))

theorem State.finish_links {id : Nat} (h : s₀.SameLinks s) : s₀.SameLinks (s.finish id) := by
  unfold State.finish
  split
  · exact h
  · split
    · exact h
    · split
      · exact h
      · split
        · exact h
        · exact ite_keeps h h
        · exact State.finishLaunch_links h
        · exact h

theorem State.checkPersist_links {core slot : Nat} (h : s₀.SameLinks s) : s₀.SameLinks (s.checkPersist core slot) := by
  unfold State.checkPersist
  split
  · exact h
  · exact ite_keeps h h

theorem State.setLanes_links {id : Nat} {pick : LaneAcc → Bool} {st : LaneSt} (h : s₀.SameLinks s) :
    s₀.SameLinks (s.setLanes id pick st) := by
  unfold State.setLanes
  split <;> exact h

theorem State.sendLine_links {id peer line : Nat} (h : s₀.SameLinks s) : s₀.SameLinks (s.sendLine id peer line) := by
  unfold State.sendLine
  split
  · exact h
  · dsimp only
    split
    · exact h
    · split
      · exact ite_keeps (State.setLanes_links h) (State.weftEvent_links (State.setLanes_links h))
      · exact ite_keeps (State.setLanes_links (State.combine_links h)) (ite_keeps (State.flushComb_links h) h)

theorem State.sendFabric_links {id : Nat} (h : s₀.SameLinks s) : s₀.SameLinks (s.sendFabric id) := by
  unfold State.sendFabric
  split
  · exact h
  · exact ite_keeps h (foldl_keeps _ _ (fun _ _ ht => State.sendLine_links ht) _ _ h)

theorem State.progress_links {id : Nat} (h : s₀.SameLinks s) : s₀.SameLinks (s.progress id) := by
  unfold State.progress
  split
  · exact h
  · have h1 {c : Prop} [Decidable c] {a : Access} : s₀.SameLinks (if c then s else s.settle a) := ite_keeps h (State.settle_links h)
    exact State.checkPersist_links (State.finish_links (State.late_links (ite_keeps h1 (State.sendFabric_links h1))))

/-! ### A request that no plane can carry (R74, R83) -/

theorem State.closeSent_links {n src : Nat} {st : LaneSt} (h : s₀.SameLinks s) : s₀.SameLinks (State.closeSent n s src st) := by
  induction n generalizing s src with
  | zero => exact h
  | succ n ih =>
    unfold State.closeSent
    refine foldl_keeps _ _ (fun t id ht => ?_) _ _ h
    have h1 {pick : LaneAcc → Bool} : s₀.SameLinks ((t.setLanes id pick st).progress id) := State.progress_links (State.setLanes_links ht)
    exact ite_keeps (ih h1) h1

theorem State.answerWrite_links {k : Packet} (h : s₀.SameLinks s) : s₀.SameLinks (s.answerWrite k .peerDown) :=
  State.closeSent_links (foldl_keeps _ _ (fun _ _ ht => State.weftEvent_links ht) _ _ h)

theorem State.answerAccess_links {k : Packet} (h : s₀.SameLinks s) : s₀.SameLinks (s.answerAccess k .peerDown) := by
  unfold State.answerAccess
  split
  · exact h
  · exact ite_keeps (State.progress_links h) (State.progress_links (State.lateFault_links (s := s.setAcc _) h))

theorem State.writeStatus_links (h : s₀.SameLinks s) : s₀.SameLinks s.writeStatus := by
  unfold State.writeStatus
  refine ite_keeps ?_ (getD_keeps (fun _ e => (State.hostPut_recordOnly e).links h) h)
  split
  · exact (State.vaWrite_getD_memOnly ..).links h
  · exact h

theorem State.itinError_links {code entry : Nat} (h : s₀.SameLinks s) : s₀.SameLinks (s.itinError code entry) :=
  ite_keeps (State.writeStatus_links (s := { s with itin := _ }) h) h

theorem State.answerItin_links {k : Packet} {slot : Option Nat} (h : s₀.SameLinks s) : s₀.SameLinks (s.answerItin k slot .peerDown) := by
  cases slot with
  | none => exact State.itinError_links h
  | some n => exact State.weftEvent_links (State.itinError_links h)

theorem State.failCmd_links {c q id code : Nat} (h : s₀.SameLinks s) : s₀.SameLinks (s.failCmd c q id code) := by
  have hset {x : Queue} : s₀.SameLinks (s.setQueue c q x) := ite_keeps h h
  have hstop {x y : Queue} : s₀.SameLinks ((s.setQueue c q x).setQueue c q y) := ite_keeps hset hset
  unfold State.failCmd
  dsimp only
  split
  · exact ite_keeps (P := s₀.SameLinks) hstop hstop
  · exact h

theorem State.answerWaitv_links {c q id : Nat} (h : s₀.SameLinks s) : s₀.SameLinks (s.answerWaitv c q id .peerDown) := by
  unfold State.answerWaitv
  split
  · exact h
  · contradiction
  · exact State.failCmd_links h

theorem State.respondDown_links {pid : Nat} (h : s₀.SameLinks s) : s₀.SameLinks (s.respondDown pid) := by
  unfold State.respondDown State.respond
  split
  · exact h
  · dsimp only
    split
    · split <;> exact h
    · exact State.answerItin_links h
    · exact ite_keeps (State.answerWrite_links h) (State.answerAccess_links h)
    · exact h
    · exact h
    · exact h
    · exact State.answerWaitv_links h

theorem State.resend_links {plane : Nat} (h : s₀.SameLinks s) : s₀.SameLinks (s.resend plane) := by
  unfold State.resend
  refine foldl_keeps s₀.SameLinks _ (fun t k ht => ?_) _ _ ?_
  · split
    · exact ht
    · exact State.respondDown_links ht
  · exact h

theorem State.alert_links {bit : Nat} (h : s₀.SameLinks s) : s₀.SameLinks (s.alert bit) := by
  rw [State.SameLinks, State.alert_fab]; exact h

/-- Losses are steps to come: nothing but the agenda grows. -/
theorem State.postLosses_agenda (s : State) : s.postLosses = { s with agenda := s.postLosses.agenda } := by
  unfold State.postLosses
  split
  · rfl
  · refine ite_keeps (P := fun t : State => t = { s with agenda := t.agenda }) rfl ?_
    refine foldl_keeps (fun t : State => t = { s with agenda := t.agenda }) _ (fun t p ht => ?_) _ s rfl
    rw [ht]
    rfl

end Sys2Proof.Machine
end

section
/-! PROOF of O48. Planes and reports of the fabric, the slots of a port, and the events of a weft. -/

namespace Sys2Proof.Machine
variable {s : State}

/-! ### Planes (R67, R69, R76) -/

theorem getLsbD_or_one {w : Nat} (x : BitVec w) (p n : Nat) :
    (x ||| BitVec.ofNat w (2 ^ p)).getLsbD n = (x.getLsbD n || decide (n < w ∧ p = n)) := by
  rw [BitVec.getLsbD_or, BitVec.getLsbD_ofNat, Nat.testBit_two_pow, Bool.decide_and]

theorem getLsbD_andNot_one {w : Nat} (x : BitVec w) (p n : Nat) :
    (x &&& ~~~BitVec.ofNat w (2 ^ p)).getLsbD n = (x.getLsbD n && decide (p ≠ n)) := by
  rw [BitVec.getLsbD_and, BitVec.getLsbD_not, BitVec.getLsbD_ofNat, Nat.testBit_two_pow]
  by_cases hn : n < w
  · simp [hn]
  · simp [BitVec.getLsbD_of_ge x n (Nat.le_of_not_lt hn)]

/-- ALERTST.FAB is set (R125). -/
def State.FabricAlert (t : State) : Prop := t.host.alertst.getLsbD 8 = true

theorem State.alert_fabricAlert (s : State) : (s.alert 8).FabricAlert := by
  rw [State.FabricAlert, State.alert_alertst, getLsbD_or_one]
  simp

/-- A plane has fallen, before its requests go out again (R76). -/
def State.planeFallen (s : State) (p : Nat) : State :=
  { s with fab := { s.fab with up := s.fab.up &&& ~~~BitVec.ofNat 36 (2 ^ p), fell := s.fab.fell ||| BitVec.ofNat 36 (2 ^ p) } }

theorem State.planeDown_up {p : Nat} (h : s.fab.up.getLsbD p = true) : s.planeDown p = (((s.planeFallen p).resend p).alert 8).postLosses := by
  rw [State.planeDown, h]; rfl

theorem State.planeDown_idle {p : Nat} (h : s.fab.up.getLsbD p = false) : s.planeDown p = s := by
  rw [State.planeDown, h]; rfl

/-- A plane that carries no packet falls without one being sent again. -/
theorem State.resend_packets {p : Nat} (h : ∀ k ∈ s.fab.packets, k.plane ≠ p) : (s.resend p).fab.packets = s.fab.packets := by
  have hnone : (s.fab.packets.filter fun k => k.plane == p && k.peer != s.fab.pkgid.toNat) = [] :=
    List.filter_eq_nil_iff.2 fun k hk => by simp [h k hk]
  rw [State.resend, hnone]
  rfl

theorem State.planeDown_links {p : Nat} (h : s.fab.up.getLsbD p = true) : (s.planeFallen p).SameLinks (s.planeDown p) := by
  rw [State.planeDown_up h, State.postLosses_agenda]
  exact State.alert_links (State.resend_links .refl)

/-- What the fall of a plane leaves (R76, R125). -/
def State.Down (s : State) (p : Nat) (t : State) : Prop :=
  t.FabricAlert ∧ t.fab.fell.getLsbD p = true ∧ t.fab.up.getLsbD p = false ∧ (∀ n, n ≠ p → t.fab.up.getLsbD n = s.fab.up.getLsbD n)
    ∧ ((∀ k ∈ s.fab.packets, k.plane ≠ p) → t.fab.packets = s.fab.packets)

theorem State.planeDown_falls {p : Nat} (hp : p < 36) (h : s.fab.up.getLsbD p = true) : s.Down p (s.planeDown p) := by
  obtain ⟨hup, hfell, -⟩ := State.planeDown_links h
  refine ⟨?_, ?_, ?_, fun n hn => ?_, fun hk => ?_⟩
  · rw [State.planeDown_up h, State.postLosses_agenda]
    exact State.alert_fabricAlert _
  · rw [hfell, State.planeFallen, getLsbD_or_one]
    simp [hp]
  · rw [hup, State.planeFallen, getLsbD_andNot_one]
    simp
  · rw [hup, State.planeFallen, getLsbD_andNot_one]
    simp [Ne.symm hn]
  · rw [State.planeDown_up h, State.postLosses_agenda]
    exact (congrArg Fabric.packets (State.alert_fab 8)).trans (State.resend_packets (s := s.planeFallen p) hk)

/-- A step that takes a plane down: an event when it was up, and nothing when it was down. -/
theorem State.planeStep_downs {p : Nat} {i : Instr} (hi : exec i s = .next (if s.serving then s.planeDown p else s)) (hp : p < 36) :
    (s.fab.up.getLsbD p = true → s.serving = true → s.Does i (s.Down p)) ∧ (s.fab.up.getLsbD p = false → exec i s = .next s) := by
  refine ⟨fun hup hs => ⟨_, hi, ?_⟩, fun hdn => ?_⟩
  · rw [if_pos hs]
    exact State.planeDown_falls hp hup
  · rw [hi, State.planeDown_idle hdn, ite_self]

/-- A reachability report (R76). -/
theorem State.reachabilityReport_does {peer : Nat} {planes : BitVec 36} (hs : s.serving = true) (hp : peer < 512) :
    s.Does (.switchReachabilityReport peer planes) fun t => (t.peer peer).planes = planes ∧ (t.peer peer).v = (s.peer peer).v
      ∧ (t.peer peer).sport = (s.peer peer).sport ∧ (t.peer peer).st = (s.peer peer).st := by
  have hgo : ¬ (!s.serving || decide (512 ≤ peer)) = true := by simp [hs, hp]
  refine ⟨_, by rw [exec_switchReachabilityReport, execSwitchReachabilityReport, if_neg hgo], ?_⟩
  have hreport {t : State} (h : (s.putPeer peer fun e => { e with planes := planes }).SameLinks t) : (t.peer peer).planes = planes
      ∧ (t.peer peer).v = (s.peer peer).v ∧ (t.peer peer).sport = (s.peer peer).sport ∧ (t.peer peer).st = (s.peer peer).st := by
    rw [h.peer, State.peer_putPeer_same]
    exact ⟨rfl, rfl, rfl, rfl⟩
  refine hreport ?_
  dsimp only
  rw [State.postLosses_agenda]
  refine foldl_keeps (State.SameLinks _) _ (fun t k ht => ?_) _ _ .refl
  split
  · exact ht
  · exact State.respondDown_links ht

/-- A trained link (R67, R69). -/
theorem State.linkTrained_does {p : Nat} {sport : BitVec 9} (hb : s.boot.st ≠ .off) (hp : p < 36) :
    s.Does (.fabricLinkTrained p sport) fun t => t.fab.sport = sport ∧ t.fab.trained = true ∧ t.fab.up.getLsbD p = true
      ∧ (s.fab.fell.getLsbD p = true → t.FabricAlert) ∧ (s.fab.fell.getLsbD p = false → t.host.alertst = s.host.alertst) := by
  have hgo : ¬ (s.boot.st == .off || decide (36 ≤ p)) = true := by simp [hb, hp]
  refine ⟨_, by rw [exec_fabricLinkTrained, execFabricLinkTrained, if_neg hgo], ?_⟩
  have hbit : (s.fab.up ||| BitVec.ofNat 36 (2 ^ p)).getLsbD p = true := by
    rw [getLsbD_or_one]
    simp [hp]
  cases hf : s.fab.fell.getLsbD p with
  | false => exact ⟨rfl, rfl, hbit, nofun, fun _ => rfl⟩
  | true =>
    have hfab : ∀ t : State, (t.alert 8).replan.fab.sport = t.fab.sport ∧ (t.alert 8).replan.fab.trained = t.fab.trained
        ∧ (t.alert 8).replan.fab.up = t.fab.up := fun t => by
      simp only [State.replan, State.alert_fab, and_self]
    obtain ⟨hsport, htrained, hup⟩ := hfab _
    exact ⟨hsport, htrained, (congrArg (BitVec.getLsbD · p) hup).trans hbit, fun _ => State.alert_fabricAlert _, nofun⟩

/-! ### The slots of a port (R80, R81) -/

section ports
variable {p tier : Nat}

theorem State.sendTier_resp {x : Resp} (h : s.respAt p tier = some x) :
    (s.sendTier p tier).host.out = .fabric x.peer x.seq x.plane x.res :: s.host.out
      ∧ (s.sendTier p tier).fab.starve = (s.starveAfter p tier x.flits).fab.starve := by
  rw [State.sendTier, h]
  exact ⟨rfl, rfl⟩

theorem State.sendTier_req {k : Packet} (hn : s.respAt p tier = none) (h : s.reqAt p tier = some k) :
    (s.sendTier p tier).host.out = .request (s.leaving k p).sport (s.asRequest (s.leaving k p)) :: s.host.out
      ∧ (s.sendTier p tier).fab.starve = (s.starveAfter p tier k.flits).fab.starve := by
  rw [State.sendTier, hn, h]
  exact ⟨rfl, rfl⟩

theorem State.tierReady_iff : s.tierReady p tier = true
    ↔ ((s.respAt p tier).isSome = true ∨ (s.reqAt p tier).isSome = true) ∧ (tier = 2 → s.power.t2off = false) := by
  simp [State.tierReady, imp_iff_not_or]

theorem State.tierReady_none (h : s.respAt p tier = none ∧ s.reqAt p tier = none) : s.tierReady p tier = false := by
  obtain ⟨hresp, hreq⟩ := h
  rw [State.tierReady, hresp, hreq]
  rfl

/-- A tier that is ready sends one packet, and its flits go to the starvation counters. -/
theorem State.sendTier_ready (h : s.tierReady p tier = true) : (s.sendTier p tier).host.out.length = s.host.out.length + 1
    ∧ ∃ n, (s.sendTier p tier).fab.starve = (s.starveAfter p tier n).fab.starve := by
  obtain ⟨hready, -⟩ := State.tierReady_iff.1 h
  cases hr : s.respAt p tier with
  | some x =>
    obtain ⟨hout, hstarve⟩ := State.sendTier_resp hr
    exact ⟨congrArg List.length hout, _, hstarve⟩
  | none =>
    obtain ⟨k, hk⟩ := Option.isSome_iff_exists.1 (hready.resolve_left (by simp [hr]))
    obtain ⟨hout, hstarve⟩ := State.sendTier_req hr hk
    exact ⟨congrArg List.length hout, _, hstarve⟩

/-- The lowest tier that is ready has the ordinary slot (R80). -/
theorem State.sendPort_lowest (h1 : s.forced p 1 = false) (h2 : s.forced p 2 = false) (ht : tier < 3) (hready : s.tierReady p tier = true)
    (hlow : ∀ n, n < tier → s.tierReady p n = false) : s.sendPort p = s.sendTier p tier := by
  have hfind : [0, 1, 2].find? (s.tierReady p) = some tier := by
    interval_cases tier
    · rw [List.find?_cons_of_pos hready]
    · rw [List.find?_cons_of_neg (by simp [hlow 0]), List.find?_cons_of_pos hready]
    · rw [List.find?_cons_of_neg (by simp [hlow 0]), List.find?_cons_of_neg (by simp [hlow 1]), List.find?_cons_of_pos hready]
  rw [State.sendPort, h1, h2, hfind]
  rfl

variable {c : Nat × Nat} (hc : s.fab.starve[p]? = some c)

/-- T1 has starved (R81). -/
def State.Due (s : State) (p : Nat) (c : Nat × Nat) : Prop := 64 ≤ c.1 ∧ s.tierReady p 1 = true

include hc

theorem State.forced_one_iff : s.forced p 1 = true ↔ s.Due p c := by
  simp [State.forced, State.Due, List.getD_eq_getElem?_getD, hc, starveLimit, and_comm]

/-- T1 takes the first of two slots that are due (R81). -/
theorem State.forced_two_iff : s.forced p 2 = true ↔ (256 ≤ c.2 ∧ s.tierReady p 2 = true) ∧ ¬ s.Due p c := by
  simp [State.forced, State.Due, List.getD_eq_getElem?_getD, hc, starveLimit, and_comm, or_comm, imp_iff_not_or]

/-- The counters of a port after a tier has sent (R81). -/
theorem State.starveAfter_counters (n : Nat) :
    ∃ d, (s.starveAfter p tier n).fab.starve[p]? = some d ∧ (tier = 1 → d.1 = 0) ∧ (tier = 2 → d.2 = 0) := by
  refine ⟨_, (getElem?_modAt ..).trans (by rw [if_pos rfl, hc]; rfl), fun h => ?_, fun h => ?_⟩
  · exact if_pos h.symm
  · exact if_pos h.symm

/-- A forced slot sends one packet, and the counter of its tier is anew (R81). -/
theorem State.starvationForce_does (hf : s.forced p tier = true) (hr : s.tierReady p tier = true) :
    s.Does (.starvationForce p tier) fun t => t.host.out.length = s.host.out.length + 1
      ∧ ∃ d, t.fab.starve[p]? = some d ∧ (tier = 1 → d.1 = 0) ∧ (tier = 2 → d.2 = 0) := by
  obtain ⟨hout, n, hstarve⟩ := State.sendTier_ready hr
  refine ⟨_, by rw [exec_starvationForce, execStarvationForce, if_pos hf], hout, ?_⟩
  rw [hstarve]
  exact State.starveAfter_counters hc n

end ports

theorem State.starvationForce_idle {p tier : Nat} (h : ¬ s.forced p tier = true) : exec (.starvationForce p tier) s = .next s := by
  rw [exec_starvationForce, execStarvationForce, if_neg h]

/-! ### Events of a weft (R84, R288, R491) -/

/-- A weft is in the same place, at the same group: what it waits on, its registers and its part of a task may differ. -/
structure Weft.SameGroup (w v : Weft) : Prop where
  core : v.core = w.core
  slot : v.slot = w.slot
  ctx : v.ctx = w.ctx
  pc : v.pc = w.pc
  em : v.em = w.em
  dm : v.dm = w.dm
  tm : v.tm = w.tm
  events : v.events = w.events

theorem Weft.RegsOnly.sameGroup {w v : Weft} (h : w.RegsOnly v) : w.SameGroup v := by
  rw [Weft.RegsOnly] at h
  rw [h]
  exact ⟨rfl, rfl, rfl, rfl, rfl, rfl, rfl, rfl⟩

theorem State.backOut_sameGroup (w : Weft) : w.SameGroup (s.backOut w).2 := by
  unfold State.backOut
  dsimp only
  split
  · exact ⟨rfl, rfl, rfl, rfl, rfl, rfl, rfl, rfl⟩
  · next a _ =>
    split
    · obtain ⟨hcore, hslot, hctx, hpc, hem, hdm, htm, hev⟩ := (Weft.fillDest_regsOnly { w with
        waiting := none, itnNext := false, itnDone := if w.itnNext && w.itnAnswer.isNone then w.itnWas else w.itnDone } a.dst true).sameGroup
      exact ⟨hcore, hslot, hctx, hpc, hem, hdm, htm, hev⟩
    · exact ⟨rfl, rfl, rfl, rfl, rfl, rfl, rfl, rfl⟩
    · exact ⟨rfl, rfl, rfl, rfl, rfl, rfl, rfl, rfl⟩

theorem State.backOut_ctxs (w : Weft) : (s.backOut w).1.ctxs = s.ctxs := by
  unfold State.backOut
  dsimp only
  split
  · rfl
  · split <;> rfl

/-- `tinfo` of an event: DETAIL, and NXT unless the weft waits inside an instruction (R277, R288). -/
theorem eventInfo_word (inside : Bool) (detail : Nat) :
    { TInfo.none with nxt := !inside, detail := detail }.word = BitVec.ofNat 64 (256 * detail + if inside then 0 else 16) := by
  unfold TInfo.word
  congr 1
  cases inside
  · simp [TInfo.none, b2n]
    omega
  · simp [TInfo.none, b2n]

/-- A weft that has taken an event (R275, R278, R288): the trap at its group, with the event spent. -/
def State.EventTaken (s : State) (w : Weft) (cause detail : Nat) (lanes : W64) (rest : List WeftEvent) (v : Weft) : Prop :=
  v.tcause = BitVec.ofNat 8 cause ∧ v.tmask = lanes ∧ v.tpc = w.pc ∧ v.tem = w.em ∧ v.tdm = w.dm ∧ v.em = allLanes ∧ v.tm = true
    ∧ v.pc = (s.ctx w.ctx).desc.tvec ∧ v.events = rest ∧ v.tinfo = BitVec.ofNat 64 (256 * detail + if w.inside then 0 else 16)

theorem State.takeEvent_taken {core slot : Nat} {w : Weft} (hw : s.weft? core slot = some w) (htm : w.tm = false) (cause : Cause)
    (lanes : W64) (detail : Nat) (rest : List WeftEvent) :
    ∃ v, (s.takeEvent w cause lanes detail rest).weft? core slot = some v ∧ s.EventTaken w cause.code detail lanes rest v := by
  have hkept := s.backOut_sameGroup { w with events := rest, sleep := 0, yielded := false }
  have hwefts := (s.backOut_wefts { w with events := rest, sleep := 0, yielded := false }).1
  have hctxs := s.backOut_ctxs { w with events := rest, sleep := 0, yielded := false }
  unfold State.takeEvent
  dsimp only
  generalize s.backOut { w with events := rest, sleep := 0, yielded := false } = r at hkept hwefts hctxs ⊢
  obtain ⟨u, v⟩ := r
  obtain ⟨hcore, hslot, hctx, hpc, hem, hdm, hvtm, hev⟩ := hkept
  have hat : u.weft? core slot = some w := by rw [State.weft?, hwefts]; exact hw
  have htvec : (u.ctx v.ctx).desc.tvec = (s.ctx w.ctx).desc.tvec := by rw [State.ctx, State.ctx, hctxs, hctx]
  obtain ⟨hwcore, hwslot⟩ := weft?_slot hw
  rw [show w.pc = v.pc from hpc.symm, State.takeTrap_outside (hvtm.trans htm), eventInfo_word]
  exact ⟨_, weft?_setWeft hat (hcore.trans hwcore) (hslot.trans hwslot), rfl, rfl, hpc, hem, hdm, rfl, rfl, htvec, hev, rfl⟩

theorem State.eventFree_outside {w : Weft} (h : s.eventFree w = true) : w.tm = false := by
  simp only [State.eventFree, Bool.and_eq_true, Bool.not_eq_true'] at h
  tauto

section events
variable {core slot : Nat} {w : Weft} {rest : List WeftEvent} (hw : s.weft? core slot = some w) (hup : s.up = true) (hf : s.eventFree w = true)
include hw hup hf

theorem State.fabricEvent_does {d : Nat} (he : w.events = .fabric d :: rest) :
    s.Does (.fabricEvent core slot) fun t => ∃ v, t.weft? core slot = some v ∧ s.EventTaken w 0x15 d 0 rest v := by
  refine ⟨_, ?_, State.takeEvent_taken hw (State.eventFree_outside hf) .fabric 0 d rest⟩
  simp only [exec_fabricEvent, execFabricEvent, hw, he, hup, hf, Bool.and_self, if_true]

theorem State.deferredFaultEvent_does {c : Cause} {m : W64} (he : w.events = .deferred c m :: rest) :
    s.Does (.deferredFaultEvent core slot) fun t => ∃ v, t.weft? core slot = some v ∧ s.EventTaken w c.code 0 m rest v := by
  refine ⟨_, ?_, State.takeEvent_taken hw (State.eventFree_outside hf) c m 0 rest⟩
  simp only [exec_deferredFaultEvent, execDeferredFaultEvent, hw, he, hup, hf, Bool.and_self, if_true]

end events

/-- Settles O48: planes and reports of the fabric, the slots of a port, and the events of a weft. -/
theorem fabricEvents : Obligations.FabricEvents := by
  unfold Obligations.FabricEvents
  intro s p peer planes sport
  refine ⟨fun hp => ⟨State.planeStep_downs rfl hp, State.planeStep_downs rfl hp⟩,
    fun hs hp => State.reachabilityReport_does hs hp, fun hb hp => State.linkTrained_does hb hp,
    fun h1 h2 tier ht hoff hlow =>
      ⟨fun x hx => ?answer, fun hn k hk => ⟨?request, fun hd => ?leaves⟩⟩,
    fun c hc => ⟨fun hdue => ?forceT1, fun hlim hr hdue => ?forceT2, fun h => ?idle⟩,
    fun core slot w hw hup hf rest =>
      ⟨fun d he => State.fabricEvent_does hw hup hf he, fun c m he => State.deferredFaultEvent_does hw hup hf he⟩⟩
  case answer =>
    rw [State.sendPort_lowest h1 h2 ht (State.tierReady_iff.2 ⟨.inl (by rw [hx]; rfl), hoff⟩) fun n hn => State.tierReady_none (hlow n hn)]
    exact (State.sendTier_resp hx).1
  case request =>
    rw [State.sendPort_lowest h1 h2 ht (State.tierReady_iff.2 ⟨.inr (by rw [hk]; rfl), hoff⟩) fun n hn => State.tierReady_none (hlow n hn)]
    exact (State.sendTier_req hn hk).1
  case leaves => rw [State.leaving, hd]; rfl
  case forceT1 =>
    obtain ⟨t, ht, hout, d, hd, hzero, -⟩ := State.starvationForce_does hc ((State.forced_one_iff hc).2 hdue) hdue.2
    exact ⟨t, ht, hout, d, hd, hzero rfl⟩
  case forceT2 =>
    obtain ⟨t, ht, hout, d, hd, -, hzero⟩ := State.starvationForce_does hc ((State.forced_two_iff hc).2 ⟨⟨hlim, hr⟩, hdue⟩) hr
    exact ⟨t, ht, hout, d, hd, hzero rfl⟩
  case idle =>
    refine State.starvationForce_idle fun hf => ?_
    obtain ⟨⟨hlim, hr⟩, hnot⟩ := (State.forced_two_iff hc).1 hf
    rcases h with hdue | hlt | hoff
    · exact hnot hdue
    · omega
    · exact Bool.false_ne_true (((State.tierReady_iff.1 hr).2 rfl).symm.trans hoff)

end Sys2Proof.Machine
end

section
/-! PROOF of O55. The ration counters: what a debit, the end of a cycle and a control interval make of them. -/

namespace Sys2Proof.Machine
variable {s : State}

/-! ### A debit (R89, R90) -/

/-- A debit changes the ration of its core's cluster alone. -/
theorem State.debit_rations (core units k : Nat) : (s.debit core units).power.rations[k]?
    = if k = clusOf core then s.power.rations[k]?.map fun r => { r.demand false units with debits := r.debits + 256 * units }
      else s.power.rations[k]? :=
  getElem?_modAt ..

/-- What a debit leaves of a cluster's ration: C, RATE and MTHR stay, and the cluster owes the units (R89). -/
theorem State.debit_ration {core k : Nat} {r : Ration} (units : Nat) (h : s.power.rations[k]? = some r) :
    ∃ d, (s.debit core units).power.rations[k]? = some d ∧ d.c = r.c ∧ d.rate = r.rate ∧ d.mthr = r.mthr
      ∧ d.debits = r.debits + if k = clusOf core then 256 * units else 0 := by
  rw [State.debit_rations, h]
  split
  · exact ⟨_, rfl, rfl, rfl, rfl, rfl⟩
  · exact ⟨r, rfl, rfl, rfl, rfl, rfl⟩

/-! ### The end of a cycle (R89) -/

/-- The ration of a cluster at the end of a cycle. -/
def Ration.endCycle (r : Ration) : Ration := { r with c := max rationMin (min rationCap (r.c - r.debits + r.rate)), debits := 0 }

/-- C saturates at both of its bounds. -/
theorem Ration.endCycle_bounds (r : Ration) : rationMin ≤ r.endCycle.c ∧ r.endCycle.c ≤ rationCap :=
  ⟨Int.le_max_left _ _, max_le (by decide) (Int.min_le_left _ _)⟩

theorem exec_rationCycleEnd_rations (k : Nat) : ∃ t, exec (.rationCycleEnd k) s = .next t
    ∧ ∀ j, t.power.rations[j]? = if j = k then s.power.rations[j]?.map Ration.endCycle else s.power.rations[j]? :=
  ⟨_, exec_rationCycleEnd k s, fun j => getElem?_modAt _ k j Ration.endCycle⟩

/-! ### MTHR (R89, R92) -/

/-- MTHR is within 0 and CAP - 32. -/
def Ration.MthrOk (r : Ration) : Prop := 0 ≤ r.mthr ∧ r.mthr ≤ (4096 - 32) * 256

theorem Ration.interval_mthrOk (r : Ration) (step temp cycles : Nat) : (r.interval step temp cycles).MthrOk := by
  have h : (r.interval step temp cycles).mthr = 0 ∨ (r.interval step temp cycles).mthr = 1024 * 256 :=
    (Nat.lt_or_ge step 4).imp (fun h => (Ration.interval_early h).1) fun h => (Ration.interval_late h).1
  unfold Ration.MthrOk
  omega

theorem State.powerFails_rations : s.powerFails.power.rations = s.power.rations := by
  unfold State.powerFails
  split
  · rfl
  · split
    · rw [State.startPfail_power]
    · rfl

/-- A control interval sets the rations, or leaves them where the device is not up (R88, assumption 4). -/
theorem exec_controlInterval_rations {t : State} {m : Telemetry} (h : exec (.controlInterval m) s = .next t) :
    t.power.rations = s.power.rations ∨ t.power.rations = s.intervalRations m := by
  cases hu : s.up with
  | true =>
    obtain ⟨u, he, hset, -⟩ := exec_controlInterval_up (m := m) hu
    obtain ⟨-, hr, -⟩ := State.endInterval_sets (s := u) (h := m.temps.foldl max 0)
    cases h.symm.trans he
    exact .inr (hr.trans hset.rations)
  | false =>
    have hn : (!s.up) = true := by simp [hu]
    cases h.symm.trans ((exec_controlInterval m s).trans (if_pos hn))
    left
    split
    · exact State.powerFails_rations
    · rfl

/-- Settles O55: each step by what it makes of the list of rations. -/
theorem rationCounters : Obligations.RationCounters := by
  unfold Obligations.RationCounters
  refine ⟨fun s core units k r hr => ⟨State.debit_ration units hr, ?cycle⟩, fun r hr => ?reset, fun s t m h hok r hr => ?interval⟩
  case cycle =>
    obtain ⟨t, he, ht⟩ := exec_rationCycleEnd_rations (s := s) k
    have hk : t.power.rations[k]? = some r.endCycle := by rw [ht, if_pos rfl, hr]; rfl
    refine ⟨t, he, hk, fun j hj => (ht j).trans (if_neg hj), fun r2 h2 => ?_⟩
    cases hk.symm.trans h2
    exact r.endCycle_bounds
  case reset => rw [List.eq_of_mem_replicate hr]; rfl
  case interval =>
    rcases exec_controlInterval_rations h with hsame | hset
    · exact hok r (hsame ▸ hr)
    · rw [hset] at hr
      obtain ⟨k, -, rfl⟩ := List.mem_map.1 hr
      exact Ration.interval_mthrOk ..

end Sys2Proof.Machine
end

section
/-! SUPPORT of O31 and O32. What the issue of a command leaves: its counter is raised and a place for its token is kept. -/

namespace Sys2Proof.Machine
variable {s : State} {w : Weft} {tm : Team}

/-! ### Conditions of issue (R225, R229, R434) -/

theorem Weft.cntFull_of_lt {c : Nat} (h : w.count c < 1023) : w.cntFull (some c) = false := decide_eq_false (Nat.not_le.2 h)

/-- A command with a token finds a place for it. -/
theorem Team.tokenRoom_of {tok : Option W64} {q : Nat} (h : tok ≠ none → tm.tokenRoom q = true) : (tok.isSome && !tm.tokenRoom q) = false := by
  cases tok with
  | none => rfl
  | some v => simp [h (Option.some_ne_none v)]

/-! ### The token's place (R225) -/

theorem State.reserveToken_frame (s : State) (team q : Nat) (tok : Option W64) : ∃ l, s.reserveToken team q tok = { s with teams := l } := by
  unfold State.reserveToken
  split
  · exact ⟨_, rfl⟩
  · exact ⟨s.teams, rfl⟩

theorem Team.reserve_id (t : Team) (up : Bool) : ∀ q, (t.reserve q up).id = t.id
  | 0 => rfl
  | 1 => rfl
  | _ + 2 => rfl

theorem State.reserveToken_team {team : Nat} (q : Nat) (tok : Option W64) (h : s.team? team = some tm) :
    (s.reserveToken team q tok).team? team = some (if tok = none then tm else tm.reserve q true) := by
  cases tok with
  | none => exact h
  | some v =>
    have hset : s.reserveToken team q (some v) = s.setTeam (tm.reserve q true) := by simp only [State.reserveToken, h]
    rw [hset]
    exact State.team?_setTeam h ((tm.reserve_id true q).trans (State.team?_id h))

theorem Team.reserve_res0 (tok : Option W64) :
    (if tok = none then tm else tm.reserve 0 true) = { tm with res0 := tm.res0 + if tok = none then 0 else 1 } := by
  cases tok <;> rfl

theorem Team.reserve_res1 (tok : Option W64) :
    (if tok = none then tm else tm.reserve 1 true) = { tm with res1 := tm.res1 + if tok = none then 0 else 1 } := by
  cases tok <;> rfl

/-! ### The counter and the token's place together (R229, R435) -/

/-- The weft is stored with its counter raised for operation `id`, and `q` keeps a place for the token. -/
def State.counts (s : State) (w : Weft) (cnt id q : Nat) (tok : Option W64) : State :=
  (s.setWeft (w.raise cnt id)).reserveToken w.team q tok

/-- Only the wefts and the teams change. -/
theorem State.counts_frame (s : State) (w : Weft) (cnt id q : Nat) (tok : Option W64) :
    ∃ l, s.counts w cnt id q tok = { s with wefts := (s.setWeft (w.raise cnt id)).wefts, teams := l } := by
  obtain ⟨l, hl⟩ := (s.setWeft (w.raise cnt id)).reserveToken_frame w.team q tok
  exact ⟨l, hl⟩

theorem State.counts_keeps (s : State) (w : Weft) (cnt id q : Nat) (tok : Option W64) :
    (s.counts w cnt id q tok).cmds = s.cmds ∧ (s.counts w cnt id q tok).power = s.power ∧ s.SameMemory (s.counts w cnt id q tok) := by
  obtain ⟨l, hl⟩ := s.counts_frame w cnt id q tok
  rw [hl]
  exact ⟨rfl, rfl, fun k => rfl⟩

theorem State.counts_otherWefts (s : State) (w : Weft) (cnt id q : Nat) (tok : Option W64) :
    s.OtherWefts (s.counts w cnt id q tok) w.core w.slot := fun v hv => by
  obtain ⟨l, hl⟩ := s.counts_frame w cnt id q tok
  rw [hl]
  exact mem_setWeft s (w.raise cnt id) v hv

theorem State.counts_weft {v : Weft} (cnt id q : Nat) (tok : Option W64) (h : s.weft? w.core w.slot = some v) :
    (s.counts w cnt id q tok).weft? w.core w.slot = some (w.raise cnt id) := by
  obtain ⟨l, hl⟩ := s.counts_frame w cnt id q tok
  rw [hl]
  exact weft?_setWeft (v := w.raise cnt id) h rfl rfl

theorem State.counts_team (cnt id q : Nat) (tok : Option W64) (h : s.team? w.team = some tm) :
    (s.counts w cnt id q tok).team? w.team = some (if tok = none then tm else tm.reserve q true) :=
  State.reserveToken_team q tok (s := s.setWeft (w.raise cnt id)) h

theorem Weft.count_raise_self {c : Nat} (id : Nat) (h : c < w.cnt.length) : (w.raise c id).count c = w.count c + 1 := by
  rw [Weft.count_raise w c id h, if_pos rfl]

/-! ### A command that its engine accepts (R434, R435) -/

theorem State.acceptCmd_weft {v : Weft} (c : EngCmd) (cnt q : Nat) (h : s.weft? w.core w.slot = some v) :
    (s.acceptCmd w c cnt q).weft? w.core w.slot = some (w.raise cnt c.id) :=
  State.counts_weft (s := { s with nextId := s.nextId + 1, cmds := s.cmds ++ [c] }) cnt c.id q c.tok h

theorem State.acceptCmd_team (c : EngCmd) (cnt q : Nat) (h : s.team? w.team = some tm) :
    (s.acceptCmd w c cnt q).team? w.team = some (if c.tok = none then tm else tm.reserve q true) :=
  State.counts_team (s := { s with nextId := s.nextId + 1, cmds := s.cmds ++ [c] }) cnt c.id q c.tok h

/-- The command joins the list; the bytes of memory and the other wefts stay. -/
theorem State.acceptCmd_keeps (s : State) (w : Weft) (c : EngCmd) (cnt q : Nat) : (s.acceptCmd w c cnt q).cmds = s.cmds ++ [c]
    ∧ s.SameMemory (s.acceptCmd w c cnt q) ∧ s.OtherWefts (s.acceptCmd w c cnt q) w.core w.slot := by
  obtain ⟨hcmds, -, hmem⟩ := State.counts_keeps { s with nextId := s.nextId + 1, cmds := s.cmds ++ [c] } w cnt c.id q c.tok
  exact ⟨hcmds, hmem, State.counts_otherWefts { s with nextId := s.nextId + 1, cmds := s.cmds ++ [c] } w cnt c.id q c.tok⟩

/-- The weft that issues stands in its own slot. -/
theorem State.Issues.weft {p : Pfx} {uses : List Use} {q : QRule} {g : Plan} (h : s.Issues w p uses q g) : s.weft? w.core w.slot = some w := by
  obtain ⟨hw, -, -⟩ := h
  obtain ⟨hcore, hslot⟩ := weft?_slot hw
  rwa [hcore, hslot]

end Sys2Proof.Machine
end

section
/-! PROOF of O31. The commands of the shuttle at issue. -/

namespace Sys2Proof.Machine
variable {s : State} {w : Weft} {tm : Team}

/-! ### Operands (R432, R434) -/

/-- The operand uses of a shuttle command: its descriptor, the index vector of a gather or scatter, the token. -/
def shuttleUses (d a : Opnd) (b : Option Opnd) : List Use :=
  descUses a 6 ++ (match b with | some o => [srcV .b o 1] | none => []) ++ [srcS .ds d]

/-- The indexes that a command takes from its index vector at issue (R443). -/
def State.shuttleIdx (s : State) (w : Weft) (m : W64) (b : Option Opnd) : List W32 :=
  match b with | some o => ((s.vVal w m (srcV .b o 1) []).headD (.u 0)).lanes | none => []

/-- The command that a shuttle instruction makes. -/
def State.shuttleCmd (s : State) (w : Weft) (p : Pfx) (op : Nat) (m : W64) (d a : Opnd) (b : Option Opnd) : EngCmd :=
  mkCmd s w p op m ((descUses a 6).map fun u => s.sVal w u.o) (s.shuttleIdx w m b) (s.tokenOf w d)

/-- A `shcopy` takes the next number of the weft's slices (R445). -/
def EngCmd.numbered (c : EngCmd) (n : Nat) : EngCmd := { c with coll := if c.op = 0 then some n else none }

/-- The weft after a shuttle command: it has issued one more `shcopy`, if it was one (R445). -/
def Weft.sent (w : Weft) (p : Pfx) (op : Nat) : Weft := { w.commit p false with shcopies := w.shcopies + if op = 0 then 1 else 0 }

/-! ### The cases of issue (R434, R436, R445, R446) -/

section issued
variable {p : Pfx} {d a : Opnd} {b : Option Opnd} {op : Nat} {g : Plan} (h : s.Issues w p (shuttleUses d a b) .active g)
  (ht : s.team? w.team = some tm) (hc : 0 ≤ (s.ration w.core).c)

include h ht hc

/-- With no active lane a command that is no `shcopy` is only debited. -/
theorem shuttleOp_idle (hm : g.m = 0) (hop : op ≠ 0) : shuttleOp op p d a b s = .next ((s.debit w.core 4).passes w p) := by
  have hop' : (op == 0) = false := beq_eq_false_iff_ne.2 hop
  refine (issue_of_issues h _).trans ?_
  simp only [ht, bne_eq_false_iff_eq.2 hm, hop', Bool.or_false, Bool.false_and, Bool.false_eq_true, if_false, if_neg (Int.not_lt.2 hc)]
  rw [if_pos ⟨hm, hop⟩]
  rfl

/-- With no active lane a `shcopy` is accepted as an empty slice (R445). -/
theorem shuttleOp_vacant (hm : g.m = 0) (hf : s.shuttleFull w.core = false) : shuttleOp 0 p d a b s
    = .next ({ s.debit w.core 4 with
        nextId := s.nextId + 1
        cmds := s.cmds ++ [{ s.shuttleCmd w p 0 g.m .zero a b with mask := 0, coll := some w.shcopies, vacant := true }] }.setWeft (w.sent p 0)) := by
  refine (issue_of_issues h _).trans ?_
  simp only [ht, bne_eq_false_iff_eq.2 hm, hf, Bool.and_false, Bool.false_and, Bool.false_eq_true, if_false, if_neg (Int.not_lt.2 hc)]
  rw [if_neg fun hn => hn.2 rfl, if_pos hm]
  rfl

/-- With an active lane and room for it, the command's own checks decide (R436, R441). -/
theorem shuttleOp_active (hm : g.m ≠ 0) (hf : s.shuttleFull w.core = false) (hn : w.count 2 < 1023)
    (hr : s.tokenOf w d ≠ none → tm.tokenRoom 0 = true) : shuttleOp op p d a b s
    = .next (match s.shuttleCheck tm (s.shuttleCmd w p op g.m d a b) with
        | some k => s.trapF (w.issued p false) k.1 g.m { TInfo.none with detail := k.2 }
        | none => (s.debit w.core 4).acceptCmd (w.sent p op) ((s.shuttleCmd w p op g.m d a b).numbered w.shcopies) 2 0) := by
  refine (issue_of_issues h _).trans ?_
  simp only [ht, bne_iff_ne.2 hm, hf, Weft.cntFull_of_lt hn, Team.tokenRoom_of hr, Bool.and_false, Bool.true_and, Bool.false_eq_true, if_false,
    if_neg (Int.not_lt.2 hc)]
  rw [if_neg fun hz => hm hz.1, if_neg hm]
  split
  · next k n hs => rw [show s.shuttleCheck tm (s.shuttleCmd w p op g.m d a b) = some (k, n) from hs]
  · next hs =>
    rw [show s.shuttleCheck tm (s.shuttleCmd w p op g.m d a b) = none from hs]
    by_cases hop : op = 0
    · subst hop; rfl
    · rw [if_neg hop, Weft.sent, if_neg hop, EngCmd.numbered, if_neg (show ¬ (s.shuttleCmd w p op g.m d a b).op = 0 from hop)]
      rfl

end issued

/-- Settles O31: each of the cases of issue by the state it leaves, for the five instructions at once. -/
theorem shuttleCommands : Obligations.ShuttleCommands := by
  unfold Obligations.ShuttleCommands
  intro s w t p d a b g ht hc hlen desc tok room sends plain withB lanes
  have issued : ∀ (i : Instr) (op : Nat) (b : Option Opnd), exec i s = shuttleOp op p d a b s →
      sends i (shuttleUses d a b) op (s.shuttleIdx w g.m b) := by
    intro i op b hi h c
    refine ⟨fun hm ⟨hf, hn, hr⟩ hk => ?accepts, fun hm ⟨hf, hn, hr⟩ k n hk => ?traps,
      fun hm hop => hi.trans (shuttleOp_idle h ht hc hm hop), fun hm hop hf => ?vacant⟩
    case traps =>
      have he := hi.trans (shuttleOp_active h ht hc hm hf hn hr)
      rwa [show s.shuttleCheck t (s.shuttleCmd w p op g.m d a b) = some (k, n) from hk] at he
    case accepts =>
      have he := hi.trans (shuttleOp_active h ht hc hm hf hn hr)
      rw [show s.shuttleCheck t (s.shuttleCmd w p op g.m d a b) = none from hk] at he
      have hplace := State.acceptCmd_team (s := s.debit w.core 4) (w := w.sent p op) (c.numbered w.shcopies) 2 0 ht
      rw [Team.reserve_res0] at hplace
      obtain ⟨hcmds, hmem, hother⟩ := (s.debit w.core 4).acceptCmd_keeps (w.sent p op) (c.numbered w.shcopies) 2 0
      exact ⟨_, _, he, State.acceptCmd_weft (w := w.sent p op) (c.numbered w.shcopies) 2 0 h.weft, hcmds,
        Weft.count_raise_self (w := w.sent p op) _ hlen, rfl, rfl, rfl, rfl, hplace, hmem, hother⟩
    case vacant =>
      subst hop
      exact ⟨_, w.sent p 0, hi.trans (shuttleOp_vacant h ht hc hm hf), weft?_setWeft (v := w.sent p 0) h.weft rfl rfl, rfl, rfl, rfl⟩
  exact ⟨issued _ 0 none rfl, issued _ 1 none rfl, issued _ 4 none rfl, issued _ 2 (some b) rfl, issued _ 3 (some b) rfl⟩

end Sys2Proof.Machine
end

section
/-! PROOF of O32. The matrix commands, the near-memory command and the two configurations at issue. -/

namespace Sys2Proof.Machine
variable {s : State} {w : Weft} {tm : Team} {p : Pfx} {d a : Opnd} {g : Plan}

/-! ### Matrix commands (R90, R434, R436, R450-R452) -/

/-- What a matrix command charges at issue: `mloop` nothing, its steps pay (R90, R452). -/
def State.matPay (op : Nat) (w : Weft) (s : State) : State := if op = 2 then s else s.debitAs true w.core 32

/-- The registers of a matrix command. -/
def State.matRegs (s : State) (w : Weft) (a : Opnd) (n : Nat) : List W64 := (descUses a n).map fun u => s.sVal w u.o

/-- The charge and the command as the team's sequencer takes it. -/
def State.queueMat (s : State) (w : Weft) (tm : Team) (op : Nat) (m : MatCmd) : State :=
  (State.matPay op w { s with nextId := s.nextId + 1 }).setTeam { tm with mcmds := tm.mcmds ++ [m] }

/-- A charge changes the rations alone. -/
theorem State.matPay_eq (op : Nat) (w : Weft) (s : State) : State.matPay op w s = { s with power := (State.matPay op w s).power } := by
  unfold State.matPay
  split <;> rfl

theorem State.matPay_nextId (op n : Nat) (w : Weft) (s : State) :
    (State.matPay op w { s with nextId := n }).power = (State.matPay op w s).power := by
  unfold State.matPay
  split <;> rfl

/-- What the sequencer takes changes neither wefts nor memory, and of the teams only the issuing one. -/
theorem State.queueMat_eq (s : State) (w : Weft) (tm : Team) (op : Nat) (m : MatCmd) : s.queueMat w tm op m
    = { s.setTeam { tm with mcmds := tm.mcmds ++ [m] } with nextId := s.nextId + 1, power := (State.matPay op w s).power } := by
  rw [State.queueMat, State.matPay_eq, State.matPay_nextId]
  rfl

theorem State.queueMat_team (op : Nat) (m : MatCmd) (ht : s.team? w.team = some tm) :
    (s.queueMat w tm op m).team? w.team = some { tm with mcmds := tm.mcmds ++ [m] } := by
  have hid := State.team?_id ht
  rw [State.queueMat_eq]
  exact State.team?_setTeam (u := { tm with mcmds := tm.mcmds ++ [m] }) ht hid

section matrix
variable {op n : Nat} (h : s.Issues w p (descUses a n ++ [srcS .ds d]) .active g) (ht : s.team? w.team = some tm)
  (hc : s.matHeld w.core = false)

include h ht hc

theorem matOp_idle (hm : g.m = 0) : matOp op n p d a s = .next ((State.matPay op w s).setWeft (w.commit p (op == 4))) := by
  refine (issue_of_issues h _).trans ?_
  simp only [ht, bne_eq_false_iff_eq.2 hm, hc, Bool.false_and, Bool.false_eq_true, if_false]
  rw [if_pos hm]
  rfl

/-- With an active lane and room for it, the command's own checks decide (R436). -/
theorem matOp_active (hm : g.m ≠ 0) (hb : tm.matBusy = false) (hn : w.count 3 < 1023)
    (hr : s.tokenOf w d ≠ none → tm.tokenRoom 1 = true) : matOp op n p d a s
    = .next (match tm.matCheck op (s.matRegs w a n) with
        | some k => s.trapF (w.issued p (op == 4)) k g.m { TInfo.none with detail := if k = .illop then 3 else 0 }
        | none => (s.queueMat w tm op (mkMat s w p op (s.matRegs w a n) (s.tokenOf w d))).counts (w.commit p (op == 4)) 3
            (mkMat s w p op (s.matRegs w a n) (s.tokenOf w d)).id 1 (s.tokenOf w d)) := by
  refine (issue_of_issues h _).trans ?_
  simp only [ht, bne_iff_ne.2 hm, hb, Weft.cntFull_of_lt hn, Team.tokenRoom_of hr, hc, Bool.and_false, Bool.true_and, Bool.false_eq_true,
    if_false]
  rw [if_neg hm]
  rfl

end matrix

/-! ### Configurations (R447, R455) -/

section config
variable (h : s.Issues w p (descUses a 1) .active g) (ht : s.team? w.team = some tm)

include h ht

theorem execMcfg_idle (hc : s.matHeld w.core = false) (hm : g.m = 0) : execMcfg p a s = .next (s.passes w p) := by
  refine (issue_of_issues h _).trans ?_
  simp only [ht, bne_eq_false_iff_eq.2 hm, hc, Bool.false_and, Bool.false_eq_true, if_false]
  rw [if_pos hm]
  rfl

/-- With an active lane and an idle sequencer the word decides (R447). -/
theorem execMcfg_active (hc : s.matHeld w.core = false) (hm : g.m ≠ 0) (he : tm.mcmds = []) : execMcfg p a s
    = .next (if badMcfg (s.sVal w a) then s.trapF (w.issued p false) .illop g.m { TInfo.none with detail := 3 }
        else (s.setTeam { tm with mcfg := (s.sVal w a).setWidth 10 }).passes w p) := by
  refine (issue_of_issues h _).trans ?_
  simp only [ht, he, hc, List.isEmpty_nil, Bool.not_true, Bool.and_false, Bool.false_eq_true, if_false]
  rw [if_neg hm]
  rfl

theorem execNmvcfg_idle (hc : 0 ≤ (s.ration w.core).c) (hm : g.m = 0) : execNmvcfg p a s = .next ((s.debit w.core 4).passes w p) := by
  refine (issue_of_issues h _).trans ?_
  simp only [ht, if_neg (Int.not_lt.2 hc)]
  rw [if_pos hm]
  rfl

/-- With an active lane the word decides (R455). -/
theorem execNmvcfg_active (hc : 0 ≤ (s.ration w.core).c) (hm : g.m ≠ 0) : execNmvcfg p a s
    = .next (if 4 ≤ (s.sVal w a).toNat then s.trapF (w.issued p false) .illop g.m { TInfo.none with detail := 3 }
        else ((s.debit w.core 4).setTeam { tm with ncfg := (s.sVal w a).setWidth 2 }).passes w p) := by
  refine (issue_of_issues h _).trans ?_
  simp only [ht, if_neg (Int.not_lt.2 hc)]
  rw [if_neg hm]
  rfl

end config

/-! ### The near-memory command (R436, R454, R455) -/

/-- The command that an `nmv` makes. -/
def State.nmvCmd (s : State) (w : Weft) (p : Pfx) (m : W64) (d a : Opnd) : EngCmd :=
  mkCmd s w p 5 m ((descUses a 4).map fun u => s.sVal w u.o) [] (s.tokenOf w d)

section nmv
variable (h : s.Issues w p (descUses a 4 ++ [srcS .ds d]) .active g) (ht : s.team? w.team = some tm) (hc : 0 ≤ (s.ration w.core).c)

include h ht hc

theorem execNmv_idle (hm : g.m = 0) : execNmv p d a s = .next ((s.debit w.core 4).passes w p) := by
  refine (issue_of_issues h _).trans ?_
  simp only [ht, bne_eq_false_iff_eq.2 hm, Bool.false_and, Bool.false_eq_true, if_false, if_neg (Int.not_lt.2 hc)]
  rw [if_pos hm]
  rfl

/-- With an active lane the command's own check decides. -/
theorem execNmv_active (hm : g.m ≠ 0) (hn : w.count 4 < 1023) (hr : s.tokenOf w d ≠ none → tm.tokenRoom 2 = true) : execNmv p d a s
    = .next (match (s.nmvCmd w p g.m d a).nmvCheck tm with
        | some k => s.trapF (w.issued p false) k g.m { TInfo.none with detail := if k = .illop then 3 else 0 }
        | none => (s.debit w.core 4).acceptCmd (w.commit p false) (s.nmvCmd w p g.m d a) 4 2) := by
  refine (issue_of_issues h _).trans ?_
  simp only [ht, bne_iff_ne.2 hm, Weft.cntFull_of_lt hn, Team.tokenRoom_of hr, Bool.and_false, Bool.true_and, Bool.false_eq_true, if_false,
    if_neg (Int.not_lt.2 hc)]
  rw [if_neg hm]
  rfl

end nmv

/-- Settles O32: each of the cases of issue by the state it leaves, for the five matrix commands at once. -/
theorem matrixAndNearMemoryCommands : Obligations.MatrixAndNearMemoryCommands := by
  unfold Obligations.MatrixAndNearMemoryCommands
  intro s w t p d a g ht hc hlen tok mat
  have issued : ∀ (i : Instr) (op n : Nat), exec i s = matOp op n p d a s → mat i op n (op == 4) := by
    intro i op n hi h v
    refine ⟨fun hm ⟨hb, hn, hr⟩ hk => ?accepts, fun hm ⟨hb, hn, hr⟩ k hk => ?traps, fun hm => hi.trans (matOp_idle h ht hc hm)⟩
    case traps =>
      have he := hi.trans (matOp_active h ht hc hm hb hn hr)
      rwa [show t.matCheck op (s.matRegs w a n) = some k from hk] at he
    case accepts =>
      have he := hi.trans (matOp_active h ht hc hm hb hn hr)
      rw [show t.matCheck op (s.matRegs w a n) = none from hk] at he
      have hteam := State.queueMat_team op (mkMat s w p op v tok) ht
      rw [State.queueMat_eq] at he hteam
      have hplace := State.counts_team (w := w.commit p (op == 4)) 3 (mkMat s w p op v tok).id 1 tok hteam
      rw [Team.reserve_res1] at hplace
      obtain ⟨-, hpower, hmem⟩ := State.counts_keeps _ (w.commit p (op == 4)) 3 (mkMat s w p op v tok).id 1 tok
      exact ⟨_, _, he, State.counts_weft (w := w.commit p (op == 4)) 3 _ 1 tok h.weft, hplace,
        Weft.count_raise_self (w := w.commit p (op == 4)) _ (Nat.lt_of_succ_lt hlen), rfl, rfl, rfl, hpower, hmem,
        State.counts_otherWefts _ (w.commit p (op == 4)) 3 _ 1 tok⟩
  refine ⟨issued _ 1 1 rfl, issued _ 2 6 rfl, issued _ 3 3 rfl, issued _ 4 3 rfl, issued _ 5 2 rfl,
    fun h => ⟨execMcfg_idle h ht hc, fun hm he hv => ?_, fun hm he hv => ?_,
      fun hc => ⟨execNmvcfg_idle h ht hc, fun hm hv => ?_, fun hm hv => ?_⟩⟩,
    fun h hc => ⟨execNmv_idle h ht hc, fun hm ⟨hn, hr⟩ hk => ?nmv, fun hm ⟨hn, hr⟩ k hk => ?_⟩⟩
  · exact (execMcfg_active h ht hc hm he).trans (congrArg _ (if_neg (by simp [hv])))
  · exact (execMcfg_active h ht hc hm he).trans (congrArg _ (if_pos hv))
  · exact (execNmvcfg_active h ht hc hm).trans (congrArg _ (if_neg (Nat.not_le.2 hv)))
  · exact (execNmvcfg_active h ht hc hm).trans (congrArg _ (if_pos hv))
  case nmv =>
    have he := execNmv_active h ht hc hm hn hr
    rw [show (s.nmvCmd w p g.m d a).nmvCheck t = none from hk] at he
    obtain ⟨hcmds, hmem, -⟩ := (s.debit w.core 4).acceptCmd_keeps (w.commit p false) (s.nmvCmd w p g.m d a) 4 2
    exact ⟨_, _, he, State.acceptCmd_weft (w := w.commit p false) (s.nmvCmd w p g.m d a) 4 2 h.weft, hcmds,
      Weft.count_raise_self (w := w.commit p false) _ hlen, rfl, rfl, hmem⟩
  · have he := execNmv_active h ht hc hm hn hr
    rwa [show (s.nmvCmd w p g.m d a).nmvCheck t = some k from hk] at he

end Sys2Proof.Machine
end

section
/-! PROOF of O8. Trap entry, and the trap inside a handler that is fatal. -/

namespace Sys2Proof.Machine
variable {s : State} {w : Weft} {c : Cause} {lanes info rpc : W64}

/-- Outside a handler a trap vectors: nothing but the weft is replaced, and it reports `rpc` (R275). -/
theorem State.takeTrap_vectors (h : w.tm = false) :
    s.takeTrap w c lanes info rpc = s.setWeft { w.trapped c lanes info (s.ctx w.ctx).desc.tvec with tpc := rpc } := by
  rw [State.takeTrap, h]
  exact if_neg Bool.false_ne_true

/-- Inside a handler a trap is fatal with cause NESTED (R275, R290). -/
theorem State.takeTrap_nested (h : w.tm = true) : s.takeTrap w c lanes info rpc = (s.setWeft w).fatal w .nested lanes info rpc := by
  rw [State.takeTrap, if_pos h]

/-- Settles O8: a trap outside a handler replaces the weft by the one that has entered its handler; one inside a handler is a fatal cause. -/
theorem trapEntryAndNestedTraps : Obligations.TrapEntryAndNestedTraps := by
  unfold Obligations.TrapEntryAndNestedTraps
  refine ⟨fun s w v c lanes info rpc hv htm => ?vectors, fun s w c lanes info rpc htm _ hrun => ?nested⟩
  case vectors =>
    rw [State.takeTrap_vectors htm]
    have hweft := weft?_setWeft (v := { w.trapped c lanes info (s.ctx w.ctx).desc.tvec with tpc := rpc }) hv rfl rfl
    exact ⟨_, hweft, rfl, rfl, rfl, rfl, rfl, rfl, rfl, rfl, rfl, rfl, rfl, rfl, rfl, rfl, rfl, rfl, rfl, rfl, rfl, rfl, rfl, rfl, rfl, rfl,
      rfl, fun u hu => mem_setWeft s _ u hu⟩
  case nested =>
    have hst : ((s.setWeft w).ctx w.ctx).st = .running := hrun
    obtain ⟨herr, htear, hinj⟩ := State.fatal_fatal (s := s.setWeft w) (cause := .nested) (lanes := lanes) (info := info) (rpc := rpc)
      (by rw [hst]; decide) (by rw [hst]; decide)
    rw [State.takeTrap_nested htm]
    exact ⟨rfl, htear, herr, hinj⟩

end Sys2Proof.Machine
end

section
/-! PROOF of O42. A command that fails is looked for by its number, among the fetched records first; where the next record of the
queue has the same number, that record fails in its place, and LASTERR of the CTX command's target is left as it was. -/

namespace Sys2Proof.Machine

/-- A CTX create of context 1. -/
def createOne : Cmd :=
  { id := 0, op := 7, flags := 0, tag := 0, sigaddr := 0, sigval := 0, pay := leBytes 40 (2 ^ 32), pend := [] }

/-- A SIGNAL of the same number. -/
def twinSignal : Cmd := { createOne with op := 3, pay := leBytes 40 0 }

/-- Context 0 runs without ADMIN; its queue 0 has fetched the create, and behind it the SIGNAL. -/
def twinNumbers : State :=
  { State.reset with
    boot := { Boot.init with st := .ready }
    ctxs := { Context.free with st := .running } :: List.replicate 63 Context.free
    queues := [((0, 0), { Queue.off with en := true, st := 1, fetched := [createOne, twinSignal] })] }

theorem twinNumbers_starts : twinNumbers.Starts 0 0 7 createOne [twinSignal] where
  up := rfl
  runs := rfl
  ready := rfl
  head := rfl
  code := rfl
  good := by decide
  fresh := fun j hj => absurd hj (List.not_mem_nil)

/-- The create is refused for want of ADMIN, and the record that is found to fail is the SIGNAL. -/
theorem exec_ctxCreate_twin : exec (.ctxCreate 0 0) twinNumbers
    = .next ((twinNumbers.begun 0 0 createOne [twinSignal]).failRec 0 0 twinSignal 4) := by
  rw [exec_ctxCreate]
  rfl

/-- Refutes O42: the create that context 0 may not issue leaves LASTERR of context 1 at 0, not 4, when the SIGNAL fetched behind it has
the same number, which `State.Starts` allows. -/
theorem not_contextCommandsAndSteps : ¬ Obligations.ContextCommandsAndSteps := by
  unfold Obligations.ContextCommandsAndSteps
  intro h
  obtain ⟨hnoAdmin, -⟩ := h.1 twinNumbers 0 0 createOne [twinSignal] twinNumbers_starts rfl
  have hsub : createOne.sub = 0 := by decide
  obtain ⟨t, ht, -, -, hlasterr, -⟩ := hnoAdmin rfl (.ctxCreate 0 0) (by simp [hsub])
  rw [exec_ctxCreate_twin] at ht
  obtain rfl := Host.Outcome.next.inj ht
  exact absurd hlasterr (by decide)

end Sys2Proof.Machine
end

section
/-! PROOF of O14. When the ordering instructions go on, when a fence is done, what an exit leaves, and what the persistence instructions
leave. -/

namespace Sys2Proof.Machine
variable {s : State} {w : Weft} {p : Pfx} {g : Plan}

/-! ### Groups without operands -/

/-- A weft-wide group without operands runs its body. -/
theorem execBare_next (h : s.Issues w p [] .all g) (f : State → Weft → State) : execBare s p f = .next (f s w) := execWide_next h _

/-- A group that waits on the ordering of a scope leaves its weft waiting. -/
theorem State.Issues.waitOrder {uses : List Use} {q : QRule} (h : s.Issues w p uses q g) (scope : Nat) :
    (s.flushCore w.core scope).Waits w .order (.next (s.waitOrder w scope)) :=
  waits_waitOrder scope (by rw [h.weft]; rfl)

/-- A group whose effect comes behind a release has that effect once the release may complete (R252). -/
theorem execBare_released (h : s.Issues w p [] .all g) {scope : Nat} (hr : s.Released w scope) (k : Weft → State → State) :
    execBare s p (fun s w => s.release w scope (k w)) = .next (k w s) := by
  rw [execBare_next h, release_next hr]

theorem execBare_release_waits (h : s.Issues w p [] .all g) {scope : Nat} (hr : ¬ s.Released w scope) (k : Weft → State → State) :
    (s.flushCore w.core scope).Waits w .order (execBare s p fun s w => s.release w scope (k w)) := by
  rw [execBare_next h, release_waits hr]
  exact h.waitOrder scope

/-! ### The instruction fence (R272) -/

/-- Every line of a core's instruction cache goes, and what is being fetched of any. -/
theorem State.dropCode_all (s : State) (core : Nat) : (s.dropCode core fun _ => true) = { s with
    icache := s.icache.filter fun l => l.core ≠ core
    accs := s.accs.map fun (x : Access) => if x.kind = AccKind.fetch ∧ x.core = core then x.refetch else x } := by
  have hline : (fun l : ICLine => !(l.core == core && true)) = fun l => decide (l.core ≠ core) := by
    funext l
    rw [Bool.and_true, Bool.eq_iff_iff, Bool.not_eq_true', beq_eq_false_iff_ne, decide_eq_true_eq]
  have hacc : (fun x : Access => if x.kind = AccKind.fetch ∧ x.core = core ∧ true = true then x.refetch else x)
      = fun x => if x.kind = AccKind.fetch ∧ x.core = core then x.refetch else x := by
    funext x
    exact if_congr (by simp) rfl rfl
  rw [State.dropCode, hline, hacc]

/-- Nothing that has come of a line is left of its fetch. -/
theorem Access.refetch_asks {a : Access} {l : LaneAcc} (hl : l ∈ a.refetch.lanes) (n : Nat) :
    l.st ≠ .done ∧ l.st ≠ .ready n ∧ l.st ≠ .sent n := by
  obtain ⟨l, -, rfl⟩ := List.mem_map.1 hl
  cases hst : l.st <;> simp [hst]

theorem execIfence_next (h : s.Issues w p [] .all g) (hf : s.AcqFenced w p.scope) :
    execIfence p s = .next ((s.dropCode w.core fun _ => true).setWeft (w.commit p false)) := by
  rw [execIfence, execBare_next h, fenceAcq_next hf]

theorem execIfence_waits (h : s.Issues w p [] .all g) (hf : ¬ s.AcqFenced w p.scope) :
    (s.flushCore w.core p.scope).Waits w .order (execIfence p s) := by
  rw [execIfence, execBare_next h, fenceAcq_waits hf]
  exact h.waitOrder p.scope

/-! ### The fence (R254, R420) -/

/-- What a fence has to complete is complete (R254): the weft's earlier loads, its parked stores from core scope on and, of a full fence, all
its earlier writes; but for kind acq also its earlier persist points and, wider than core, the earlier writes of its core. -/
def State.FenceDone (s : State) (w : Weft) (f : PFence) : Prop :=
  (∀ x ∈ s.accs, x.isOf w = true → x.op < f.op → x.kind.reads = false
    ∧ (f.scope ≠ 0 → x.kind.writes = true → x.parked = false ∧ ∀ l ∈ x.lanes, l.replaying = false)
    ∧ (f.kind ≠ 1 → f.kind ≠ 2 → f.scope ≠ 0 → x.kind.writes = false))
  ∧ (f.kind ≠ 1 → (∀ b ∈ w.pbars, b.kind < 2 → f.op ≤ b.op)
    ∧ (1 < f.scope → ∀ x ∈ s.accs, x.core = w.core → x.kind.writes = true → ∀ o, x.ord = some o → o < f.op →
        ∀ l ∈ x.lanes, l.closed = true ∨ l.replaying = true))

/-- Some earlier access of the weft is of a kind. -/
def State.earlier (s : State) (w : Weft) (n : Nat) (f : Access → Bool) : Bool := s.accs.any fun a => a.isOf w && decide (a.op < n) && f a

theorem State.earlier_eq_false_iff {n : Nat} {f : Access → Bool} : s.earlier w n f = false
    ↔ ∀ x ∈ s.accs, x.isOf w = true → x.op < n → f x = false := by
  simp only [State.earlier, List.any_eq_false, Bool.and_eq_true, decide_eq_true_eq, not_and, Bool.not_eq_true, and_imp]

/-- Some earlier persist point of the weft is not reached. -/
def Weft.earlierPoint (w : Weft) (n : Nat) : Bool := w.pbars.any fun b => decide (b.kind < 2) && decide (b.op < n)

theorem Weft.earlierPoint_eq_false_iff {n : Nat} : w.earlierPoint n = false ↔ ∀ b ∈ w.pbars, b.kind < 2 → n ≤ b.op := by
  simp only [Weft.earlierPoint, List.any_eq_false, Bool.and_eq_true, decide_eq_true_eq, not_and, Nat.not_lt]

/-- A place in the core store order lies before another (R246). -/
def placeBefore (n : Nat) (o : Option Nat) : Bool := match o with | some o => decide (o < n) | none => false

/-- Some write that entered the core's order earlier is not performed. -/
def State.earlierInOrder (s : State) (core n : Nat) : Bool :=
  s.accs.any fun a => a.core == core && a.kind.writes && placeBefore n a.ord && a.lanes.any fun l => !l.closed && !l.replaying

theorem State.earlierInOrder_eq_false_iff {core n : Nat} : s.earlierInOrder core n = false
    ↔ ∀ x ∈ s.accs, x.core = core → x.kind.writes = true → ∀ o, x.ord = some o → o < n →
        ∀ l ∈ x.lanes, l.closed = true ∨ l.replaying = true := by
  rw [State.earlierInOrder, List.any_eq_false]
  refine forall₂_congr fun x _ => ?_
  cases x.ord with
  | none => simp [placeBefore]
  | some o =>
    simp only [placeBefore, Bool.and_eq_true, beq_iff_eq, decide_eq_true_eq, not_and, List.any_eq_true, Bool.not_eq_true', not_exists,
      and_imp, Option.some.injEq, forall_eq', Bool.not_eq_false, or_iff_not_imp_left, Bool.not_eq_true]

theorem State.fenceDone_eq (s : State) (w : Weft) (f : PFence) : s.fenceDone w f = (!s.earlier w f.op (fun a => a.kind.reads)
    && (f.scope == 0 || !s.earlier w f.op (fun a => a.kind.writes && !a.kind.reads && (a.parked || a.lanes.any LaneAcc.replaying)))
    && (f.kind == 1 || (!w.earlierPoint f.op && (decide (f.scope ≤ 1) || !s.earlierInOrder w.core f.op)
      && (f.kind == 2 || f.scope == 0 || !s.earlier w f.op fun a => a.kind.writes)))) := rfl

/-- A fence is done just when nothing is left that it has to complete. -/
theorem State.fenceDone_iff {f : PFence} : s.fenceDone w f = true ↔ s.FenceDone w f := by
  simp only [State.fenceDone_eq, Bool.and_eq_true, Bool.or_eq_true, Bool.not_eq_true', beq_iff_eq, decide_eq_true_eq,
    State.earlier_eq_false_iff, Weft.earlierPoint_eq_false_iff, State.earlierInOrder_eq_false_iff]
  constructor
  · rintro ⟨⟨hloads, hparked⟩, hrel⟩
    refine ⟨fun x hx hof hop => ⟨hloads x hx hof hop, fun hsc hwr => ?parked, fun h1 h2 hsc => ?writes⟩, fun h1 => ?released⟩
    case parked =>
      have hp := (hparked.resolve_left hsc) x hx hof hop
      simpa [hwr, hloads x hx hof hop] using hp
    case writes =>
      obtain ⟨-, hfull⟩ := hrel.resolve_left h1
      exact (hfull.resolve_left (not_or.2 ⟨h2, hsc⟩)) x hx hof hop
    case released =>
      obtain ⟨⟨hpoints, horder⟩, -⟩ := hrel.resolve_left h1
      exact ⟨hpoints, fun hsc => horder.resolve_left (Nat.not_le.2 hsc)⟩
  · rintro ⟨hacc, hrel⟩
    refine ⟨⟨fun x hx hof hop => (hacc x hx hof hop).1, ?parked⟩, ?released⟩
    case parked =>
      refine or_iff_not_imp_left.2 fun hsc x hx hof hop => ?_
      obtain ⟨-, hp, -⟩ := hacc x hx hof hop
      cases hwr : x.kind.writes with
      | false => rfl
      | true =>
        obtain ⟨hpark, hlanes⟩ := hp hsc hwr
        simpa [hpark] using fun _ => hlanes
    case released =>
      refine or_iff_not_imp_left.2 fun h1 => ?_
      obtain ⟨hpoints, horder⟩ := hrel h1
      refine ⟨⟨hpoints, or_iff_not_imp_left.2 fun hsc => horder (Nat.not_le.1 hsc)⟩, or_iff_not_imp_left.2 fun h2 x hx hof hop => ?_⟩
      obtain ⟨hkind, hsc⟩ := not_or.1 h2
      obtain ⟨-, -, hwrites⟩ := hacc x hx hof hop
      exact hwrites h1 hkind hsc

theorem State.fenced_iff {f : PFence} (h : w.fence = some f) : s.fenced w = true ↔ ¬ s.FenceDone w f := by
  rw [State.fenced, h, ← State.fenceDone_iff]
  simp

theorem State.fenceWaits_iff {scope : Nat} : s.fenceWaits w scope = true
    ↔ (1 ≤ scope ∧ s.replays w = true) ∨ (2 ≤ scope ∧ (s.fabricWrites w = true ∨ s.combines w.core = true)) := by
  simp only [State.fenceWaits, Bool.or_eq_true, Bool.and_eq_true, decide_eq_true_eq]

/-- The weft of a fence goes on; the fence stays with it until it is done. -/
theorem execFence_next (h : s.Issues w p [] .all g) {k : BitVec 2} {c : BitVec 3} (hw : ¬ s.fenceWaits w c.toNat = true) :
    execFence p k c s = .next ({ s with nextId := s.nextId + 1 }.setWeft { w.commit p false with
      fence := if s.fenceDone w { op := s.nextId, kind := k.toNat, scope := c.toNat } then none
        else some { op := s.nextId, kind := k.toNat, scope := c.toNat } }) := by
  rw [execFence, execBare_next h, if_neg hw]

theorem execFence_waits (h : s.Issues w p [] .all g) {k : BitVec 2} {c : BitVec 3} (hw : s.fenceWaits w c.toNat = true) :
    (s.flushCore w.core c.toNat).Waits w .order (execFence p k c s) := by
  rw [execFence, execBare_next h, if_pos hw]
  exact h.waitOrder c.toNat

/-! ### The end of a weft (R331, R148) -/

/-- A weft that has left: it has exited and triggered, and holds no step. -/
def Weft.left (w : Weft) : Weft := { w.afterGroup with exited := true, triggered := true, hold := false, halted := false }

/-- Outside the itinerary there is no task to settle (R162). -/
theorem State.taskOf_outside (h : s.inTask w = false) : s.taskOf w = s := by
  unfold State.inTask at h
  unfold State.taskOf
  cases hl : s.launchOf w with
  | none => rfl
  | some l =>
    rw [hl] at h
    have hn : l.itn = none := Option.isSome_eq_false_iff.1 h |> Option.isNone_iff_eq_none.1
    simp [State.settleTask, hn]

/-- A team with one more exited weft, its barriers opened where they can open (R461). -/
def Team.exits (t : Team) (wid : Nat) : Team := { t with exitedMask := t.exitedMask ||| BitVec.ofNat 32 (2 ^ wid) }.openBars

/-- The launch of a weft is found by its team's context and serial. -/
theorem State.inTask_setTeam {t u : Team} (ht : s.team? w.team = some t) (hid : u.id = t.id) (hc : u.ctx = t.ctx) (hs : u.serial = t.serial) :
    (s.setTeam u).inTask w = s.inTask w := by
  have hu := State.team?_setTeam ht (hid.trans (State.team?_id ht))
  simp only [State.inTask, State.launchOf, hu, ht, hc, hs]
  rfl

theorem State.leave_outside {t : Team} (ht : s.team? w.team = some t) (h : s.inTask w = false) :
    s.leave w = (s.setWeft w.left).setTeam (t.exits w.wid) := by
  have htask : ((s.setWeft w.left).setTeam (t.exits w.wid)).inTask w = false :=
    (State.inTask_setTeam (s := s.setWeft w.left) (u := t.exits w.wid) ht rfl rfl rfl).trans h
  have hteam : (s.setWeft { w.afterGroup with exited := true, triggered := true, hold := false, halted := false }).team? w.team = some t := ht
  rw [State.leave, hteam]
  exact State.taskOf_outside htask

/-! ### Persistence instructions (R422-R425) -/

theorem pbarOp_next (h : s.Issues w p [] .all g) (mend : Bool) (hr : s.replays w = false) (hc : w.count 5 < 1023) : pbarOp p mend s
    = .next (s.openPoint (w.commit p false) (decide (w.effMask p ≠ 0)) (b2n (mend && s.armed w.ctx)) 0 0 w.snapStep) := by
  have hmask : (w.effMask p != 0) = decide (w.effMask p ≠ 0) := by
    rw [Bool.eq_iff_iff, bne_iff_ne, decide_eq_true_eq]
  rw [pbarOp, execBare_next h, hr, Weft.cntFull_of_lt hc, hmask]
  simp only [Bool.and_false, Bool.false_eq_true, if_false]

theorem State.armed_iff {c : Nat} : s.armed c = true ↔ ∃ r ∈ s.snap.regions, r.ctx = c := by
  simp only [State.armed, List.any_eq_true, beq_iff_eq]

theorem execPflush_next {a b : Opnd} (h : s.Issues w p [srcS .a a, srcS .b b] .active g) (hm : g.m ≠ 0) (hc : w.count 5 < 1023) :
    let t := s.flushComb (flushes w (s.sVal w a).toNat (s.sVal w b).toNat)
    ∃ u, t.weft? w.core w.slot = some u ∧ execPflush p a b s
      = .next (t.openPoint (u.commit p false) true 2 (s.sVal w a).toNat (s.sVal w b).toNat 0) := by
  intro t
  have hs : (t.weft? w.core w.slot).isSome = true := weft?_flushComb_isSome _ (by rw [h.weft]; rfl)
  obtain ⟨u, hu⟩ := Option.isSome_iff_exists.1 hs
  refine ⟨u, hu, ?_⟩
  rw [execPflush, issue_of_issues h, if_neg hm, Weft.cntFull_of_lt hc, if_neg Bool.false_ne_true]
  simp only [t] at hu
  simp only [hu]
  rfl

theorem execStepmark_waits {d : Opnd} {k : BitVec 7} (h : s.Issues w p [dstS d] .active g) (hm : g.m ≠ 0) (hk : k = 1)
    (ha : dieOf w.core ∈ s.itin.acks) : execStepmark p d k s = .next (s.waits w .step) := by
  rw [execStepmark, issue_of_issues h, if_neg hm, if_pos ⟨hk, ha⟩]

theorem execStepmark_next {d : Opnd} {k : BitVec 7} (h : s.Issues w p [dstS d] .active g) (hm : g.m ≠ 0)
    (hk : k ≠ 1 ∨ dieOf w.core ∉ s.itin.acks) : execStepmark p d k s
    = .next ((writeS s w d (s.dieStep.getD (dieOf w.core) 0)).1.setWeft
        ({ (writeS s w d (s.dieStep.getD (dieOf w.core) 0)).2 with hold := k == 1 }.commit p false)) := by
  rw [execStepmark, issue_of_issues h, if_neg hm, if_neg (by tauto)]

/-! ### The obligation -/

/-- Settles O14: each instruction by when it goes on and what it then leaves. -/
theorem orderingExitAndPersistence : Obligations.OrderingExitAndPersistence := by
  unfold Obligations.OrderingExitAndPersistence
  refine ⟨?ordering, ?exit, ?persistence⟩
  case ordering =>
    intro s w p k c g h v waits slow this goes done
    have hslow : s.fenceWaits w c.toNat = true ↔ slow := State.fenceWaits_iff
    have hdone : s.fenceDone w this = true ↔ done s w this := State.fenceDone_iff
    have hgoes : ¬ slow → goes (if s.fenceDone w this then none else some this) := fun hs => execFence_next h (mt hslow.1 hs)
    refine ⟨fun hr => ⟨execBare_released h hr _, execBare_released h hr _⟩,
      fun hr => ⟨execBare_release_waits h hr _, execBare_release_waits h hr _⟩,
      fun hf => ⟨?_, fun x n l hl => Access.refetch_asks hl n⟩, fun hf => execIfence_waits h hf, fun hs => execFence_waits h (hslow.2 hs),
      fun hs => ⟨fun hd => ?_, fun hd => ?_⟩, fun t u f hf => State.fenced_iff hf⟩
    · rw [← State.dropCode_all]
      exact execIfence_next h hf
    · have hnext := hgoes hs
      rwa [if_pos (hdone.2 hd)] at hnext
    · have hnext := hgoes hs
      rwa [if_neg (mt hdone.1 hd)] at hnext
  case exit =>
    intro s w t hw ht htask
    have hid : (t.exits w.wid).id = w.team := (State.team?_id ht : t.id = w.team)
    rw [State.leave_outside ht htask]
    exact ⟨w.left, weft?_setWeft (v := w.left) hw rfl rfl, rfl, rfl, rfl, rfl, rfl,
      State.team?_setTeam (s := s.setWeft w.left) ht hid, mem_setWeft s w.left, fun k => rfl⟩
  case persistence =>
    intro s w p a b d k g v active
    refine ⟨fun h hr hc => ⟨pbarOp_next h false hr hc, fun ha => ?armed, fun ha => ?disarmed⟩,
      fun h => ⟨fun hm => ?idle, fun hm hc => execPflush_next h hm hc⟩,
      fun h hm => ⟨fun hk ha => execStepmark_waits h hm hk ha, fun hk => execStepmark_next h hm hk⟩⟩
    case armed =>
      have hp := pbarOp_next h true hr hc
      rwa [State.armed_iff.2 ha] at hp
    case disarmed =>
      have hp := pbarOp_next h true hr hc
      have hn : s.armed w.ctx = false := Bool.eq_false_iff.2 fun hy => by
        obtain ⟨r, hr, hrc⟩ := State.armed_iff.1 hy
        exact ha r hr hrc
      rwa [hn] at hp
    case idle =>
      exact (issue_of_issues h _).trans (congrArg _ (if_pos hm))

end Sys2Proof.Machine
end

section
/-! PROOF of O33. Queue operations that QUEUE bars and those that act, and a launch from its issue to its answer. -/

namespace Sys2Proof.Machine
variable {s : State} {w : Weft} {p : Pfx} {g : Plan} {d a b : Opnd} {t : Team}

/-! ### Queue operations (R463, R464) -/

/-- The group writes one scalar destination and passes. -/
def State.answers (s : State) (w : Weft) (p : Pfx) (o : Opnd) (v : W64) : State := (writeS s w o v).1.passes (writeS s w o v).2 p

/-- A queue operation that QUEUE bars traps before its checks (R464, assumption 69). -/
theorem queueOp_bad {uses : List Use} {bad : Weft → Bool} (body : Weft → Plan → State) (hw : s.weft? s.focus.1 s.focus.2 = some w)
    (h : bad w = true) : queueOp s p uses bad body = .next (s.trapF w .queue w.em TInfo.none) := by
  simp only [queueOp, hw, h, if_true]

/-- Any other one issues. -/
theorem queueOp_next {uses : List Use} {bad : Weft → Bool} (h : s.Issues w p uses .active g) (hb : bad w = false)
    (body : Weft → Plan → State) : queueOp s p uses bad body = .next (body w g) := by
  rw [← issue_of_issues h body]
  simp only [queueOp, h.1, hb, Bool.false_eq_true, if_false]

theorem execQtry_bad (hw : s.weft? s.focus.1 s.focus.2 = some w) (h : qopBad s w a false = true) :
    execQtry p d a b s = .next (s.trapF w .queue w.em TInfo.none) := by
  unfold execQtry
  split <;> exact queueOp_bad _ hw h

theorem execQputtry_bad (hw : s.weft? s.focus.1 s.focus.2 = some w) (h : qopBad s w a true = true) :
    execQputtry p d a b s = .next (s.trapF w .queue w.em TInfo.none) := by
  unfold execQputtry
  split <;> exact queueOp_bad _ hw h

section qtry
variable (hb : qopBad s w a false = false) (hn : opndNum a ≠ 5)
  (h : s.Issues w p [dstS d, { dstS b with pos := .b }] .active g)
include hb hn h

theorem execQtry_empty (hm : g.m = 0) : execQtry p d a b s = .next (s.passes w p) := by
  rw [execQtry, if_neg hn, queueOp_next h hb, if_pos hm]
  rfl

/-- An entry is popped, written to D and reported. -/
theorem execQtry_pops (hm : g.m ≠ 0) {v : W64} (hv : s.qHead w (opndNum a) = some v) (hq : opndNum a = 3 → s.q3Poisoned w = false) :
    execQtry p d a b s = .next ((writeS (s.qPop w (opndNum a)) w d v).1.answers (writeS (s.qPop w (opndNum a)) w d v).2 p b 1) := by
  have hp : (decide (opndNum a = 3) && s.q3Poisoned w) = false := by
    rw [Bool.and_eq_false_imp, decide_eq_true_iff]
    exact hq
  rw [execQtry, if_neg hn, queueOp_next h hb, if_neg hm]
  simp only [hv, hp, Bool.false_eq_true, if_false]
  rfl

/-- A poisoned stage queue entry traps (R286). -/
theorem execQtry_poisoned (hm : g.m ≠ 0) (hq : opndNum a = 3) (hp : s.q3Poisoned w = true) (hv : s.qHead w (opndNum a) ≠ none) :
    execQtry p d a b s = .next (s.trapL (w.issued p false) .softerr g.m { TInfo.none with opnd := 1, reach := 3 }) := by
  obtain ⟨v, hv⟩ := Option.ne_none_iff_exists'.1 hv
  have hp : (decide (opndNum a = 3) && s.q3Poisoned w) = true := by rw [hp, decide_eq_true hq]; rfl
  rw [execQtry, if_neg hn, queueOp_next h hb, if_neg hm]
  simp only [hv, hp, if_true]
  rfl

/-- An empty queue is reported. -/
theorem execQtry_none (hm : g.m ≠ 0) (hv : s.qHead w (opndNum a) = none) : execQtry p d a b s = .next (s.answers w p b 0) := by
  rw [execQtry, if_neg hn, queueOp_next h hb, if_neg hm]
  simp only [hv]
  rfl

end qtry

/-- Entries of q5 go to the lowest active lanes. -/
theorem execQtry_refill (hb : qopBad s w a false = false) (hn : opndNum a = 5) (ht : s.team? w.team = some t) {k : Fin 64}
    (h : s.Issues w p [dstV (.v k) 1, { dstS b with pos := .b }] .active g) (hm : g.m ≠ 0) :
    execQtry p (.v k) a b s = .next ((s.setTeam { t with q5 := t.q5.drop (popCount (lowLanes g.m t.q5.length)) }).answers
      (w.setVs (lowLanes g.m t.q5.length) (w.phys (dstV (.v k) 1)) [.g (spreadQ (lowLanes g.m t.q5.length) laneIdx t.q5)]) p b
      (lowLanes g.m t.q5.length)) := by
  rw [execQtry, if_pos hn, queueOp_next h hb]
  simp only [ht, if_neg hm]
  rfl

theorem execQcount_bad (hw : s.weft? s.focus.1 s.focus.2 = some w) (h : s.waitqBad w (opndNum a) = true) :
    execQcount p d a s = .next (s.trapF w .queue w.em TInfo.none) := queueOp_bad _ hw h

section qcount
variable (hb : s.waitqBad w (opndNum a) = false) (h : s.Issues w p [dstS d] .active g)
include hb h

theorem execQcount_empty (hm : g.m = 0) : execQcount p d a s = .next (s.passes w p) := by
  rw [execQcount, queueOp_next h hb, if_pos hm]
  rfl

theorem execQcount_next (hm : g.m ≠ 0) :
    execQcount p d a s = .next (s.answers w p d (BitVec.ofNat 64 (s.qcountOf w (opndNum a)))) := by
  rw [execQcount, queueOp_next h hb, if_neg hm]
  rfl

end qcount

/-- A token queue counts its entries. -/
theorem State.qcountOf_token (ht : s.team? w.team = some t) {n : Nat} (hn : n < 3) : s.qcountOf w n = (t.q n).length := by
  have h : s.queueServes w n = some ((t.q n).length, tokenDepth) := by
    rcases n with _ | _ | _ | n
    · simp only [State.queueServes, ht]
    · simp only [State.queueServes, ht]
    · simp only [State.queueServes, ht]
    · omega
  rcases n with _ | _ | _ | n
  · simp only [State.qcountOf, h]
  · simp only [State.qcountOf, h]
  · simp only [State.qcountOf, h]
  · omega

/-- The refill queue counts its entries. -/
theorem State.qcountOf_refill (ht : s.team? w.team = some t) : s.qcountOf w 5 = t.q5.length := by
  simp only [State.qcountOf, State.queueServes, ht]

section qputtry
variable (hb : qopBad s w a true = false) (hn : opndNum a ≠ 5) (h : s.Issues w p [srcS .b b, dstS d] .active g)
include hb hn h

theorem execQputtry_empty (hm : g.m = 0) : execQputtry p d a b s = .next (s.passes w p) := by
  rw [execQputtry, if_neg hn, queueOp_next h hb, if_pos hm]
  rfl

/-- A full queue takes nothing, and this is reported. -/
theorem execQputtry_full (hm : g.m ≠ 0) (hf : (s.popUses w g.m [srcS .b b]).qFull w (opndNum a) = true) :
    execQputtry p d a b s = .next ((s.popUses w g.m [srcS .b b]).answers w p d 0) := by
  rw [execQputtry, if_neg hn, queueOp_next h hb, if_neg hm]
  simp only [hf, if_true]
  rfl

/-- A queue with room takes the entry. -/
theorem execQputtry_pushes (hm : g.m ≠ 0) (hf : (s.popUses w g.m [srcS .b b]).qFull w (opndNum a) = false) :
    execQputtry p d a b s = .next (((s.popUses w g.m [srcS .b b]).qPush w (opndNum a) (s.sVal w b)).answers w p d 1) := by
  rw [execQputtry, if_neg hn, queueOp_next h hb, if_neg hm]
  simp only [hf, Bool.false_eq_true, if_false]
  rfl

end qputtry

/-- The lowest active lanes push what q5 has room for. -/
theorem execQputtry_refill (hb : qopBad s w a true = false) (hn : opndNum a = 5) (ht : s.team? w.team = some t)
    (h : s.Issues w p [srcV .b b 1, dstS d] .active g) (hm : g.m ≠ 0) :
    execQputtry p d a b s = .next ((s.setTeam { t with
        q5 := t.q5 ++ (activeLanes (lowLanes g.m (t.refill - t.q5.length))).map
          ((s.vVal w g.m (srcV .b b 1) []).headD (.u 0)).lane }).answers w p d
      (lowLanes g.m (t.refill - t.q5.length))) := by
  rw [execQputtry, if_pos hn, queueOp_next h hb]
  simp only [ht, if_neg hm]
  rfl

/-! ### The issue of a launch (R458, R459) -/

/-- The operand uses of a launch: the record's address, the flag of `lnch.dep`, the answer. -/
def launchUses (d a : Opnd) (b : Option Opnd) : List Use :=
  [srcS .a a] ++ (match b with | some o => [srcS .b o] | none => []) ++ [dstS d]

/-- The flag of a launch: 0 without one. -/
def State.launchFlag (s : State) (w : Weft) (b : Option Opnd) : W64 := match b with | some o => s.sVal w o | none => 0

theorem State.launchFlag_none : (s.launchFlag w none).toNat ≤ 1 ∧ (s.launchFlag w none).getLsbD 0 = false :=
  ⟨Nat.zero_le 1, BitVec.getLsbD_zero⟩

/-- The read of a launch record, 64 bytes at s[A]. -/
def State.launchRead (s : State) (w : Weft) (p : Pfx) (g : Plan) (d a : Opnd) (b : Option Opnd) (early : Bool) : Access :=
  { baseAccess s w p g (.launch d b early) 64 ((accLanes g.m true).map fun i => mkLane 0 0 64 (s.sVal w a) 0 0 i) with
    scalar := true, gm := 0, acq := true }

/-- A flag of 0 or 1 is its lowest bit. -/
theorem getLsbD_zero_of_le_one {v : W64} (h : v.toNat ≤ 1) : v.getLsbD 0 = (v == 1) := by
  have hv : v = 0 ∨ v = 1 := by
    rcases Nat.le_one_iff_eq_zero_or_eq_one.1 h with h | h
    · exact .inl (BitVec.eq_of_toNat_eq h)
    · exact .inr (BitVec.eq_of_toNat_eq h)
  rcases hv with rfl | rfl <;> rfl

section launchOp
variable {b : Option Opnd} (h : s.Issues w p (launchUses d a b) .active g)
include h

theorem launchOp_empty (hm : g.m = 0) : launchOp p d a b s = .next (s.passes w p) :=
  (issue_of_issues h _).trans (congrArg _ (if_pos hm))

theorem launchOp_badFlag (hm : g.m ≠ 0) (hv : 1 < (s.launchFlag w b).toNat) :
    launchOp p d a b s = .next (s.trapF (w.issued p false) .illop g.m { TInfo.none with detail := 3 }) :=
  (issue_of_issues h _).trans (congrArg _ ((if_neg hm).trans (if_pos hv)))

/-- With its release done, room in the die launch queue and under the request cap, the record is read. -/
theorem launchOp_reads (hm : g.m ≠ 0) {early : Bool} (hv : (s.launchFlag w b).toNat ≤ 1) (he : (s.launchFlag w b).getLsbD 0 = early)
    (hr : s.Released w 5) (hf : s.launchFull w.ctx (dieOf w.core) = false)
    (hc : s.capOpen w.core (s.launchRead w p g d a b early).lanes = true) :
    launchOp p d a b s = .next (s.startAccess w (s.launchRead w p g d a b early) none) := by
  subst he
  refine (issue_of_issues h _).trans (congrArg _ ((if_neg hm).trans ((if_neg (Nat.not_lt.2 hv)).trans ?_)))
  rw [release_next hr, hf, if_neg Bool.false_ne_true]
  exact if_neg (by rw [Bool.not_eq_true', Bool.not_eq_false]; exact hc)

end launchOp

/-! ### The end of a launch (R459, R127, R130) -/

/-- Entering a pipeline changes the pipelines alone. -/
theorem State.joinPipe_frame (s : State) (c serial : Nat) (r : LaunchRec) :
    ∃ ps n, s.joinPipe c serial r = { s with pipes := ps, nextId := n } := by
  unfold State.joinPipe
  split
  · exact ⟨_, _, rfl⟩
  · dsimp only
    split
    · exact ⟨_, _, rfl⟩
    · exact ⟨_, _, rfl⟩

/-- A launch as it enters a die launch queue for a weft without a flag (R130). -/
def State.newLaunch (s : State) (c : Nat) (lva : W64) (r : LaunchRec) (die : Nat) : Launch :=
  { ctx := c, serial := (s.ctx c).nextSerial, lrec := r, lva := lva
    deps := s.depOn c r.dep0 r.early0 ++ s.depOn c r.dep1 r.early1 ++ s.depOn c r.hdl false ++ []
    nextTeam := 0, placed := 0, retired := 0, die := some die, cmd := none, itn := none, task := none, warm := false, waited := 0 }

/-- It takes the next serial of its context, and nothing else but the pipelines and the context's handles changes. -/
theorem State.enterLaunch_frame (s : State) (c : Nat) (lva : W64) (r : LaunchRec) (die : Nat) : ∃ hs ps n,
    s.enterLaunch c lva r (some die) [] none none = { s.setCtx c { s.ctx c with nextSerial := (s.ctx c).nextSerial + 1, handles := hs } with
      launches := s.launches ++ [s.newLaunch c lva r die], pipes := ps, nextId := n } := by
  obtain ⟨ps, n, h⟩ := State.joinPipe_frame ({ s with launches := s.launches ++ [s.newLaunch c lva r die] }.setCtx c { s.ctx c with
    nextSerial := (s.ctx c).nextSerial + 1
    handles := if r.hdl = 0 then (s.ctx c).handles else (r.hdl, (s.ctx c).nextSerial) :: (s.ctx c).handles.filter fun h => h.1 ≠ r.hdl })
    c (s.ctx c).nextSerial r
  exact ⟨_, ps, n, h⟩

section finish
variable {acc : Access} {k : Fin 32} {early : Bool} {l : LaneAcc}

/-- The weft of a launch that is answered: the serial or 0 in its register, and it goes on. -/
def Weft.launchAnswered (w : Weft) (acc : Access) (k : Nat) (v : W64) : Weft := ((w.setS k v).detach acc).commitAcc acc

/-- What the weft and the state are once the answer is written. -/
theorem State.launchAnswered_ends {t : State} (hw : t.weft? acc.core acc.slot = some w) (hk : k.val < w.sregs.length) (v : W64) :
    (t.setWeft (w.launchAnswered acc k v)).weft? acc.core acc.slot = some (w.launchAnswered acc k v)
    ∧ ((w.launchAnswered acc k v).sreg k.val).val = v ∧ (w.launchAnswered acc k v).pc = acc.next := by
  obtain ⟨hcore, hslot⟩ := weft?_slot hw
  refine ⟨weft?_setWeft (v := w.launchAnswered acc k v) hw hcore hslot, ?_, rfl⟩
  show (((w.setS k v).sregs.getD k _).val) = v
  rw [Weft.setS, getD_modAt _ _ _ _ _ (fun _ => hk), if_pos rfl]

variable (ha : s.acc? acc.id = some acc) (hw : s.weft? acc.core acc.slot = some w) (hk : acc.kind = .launch (.s k) none early)
  (hs : acc.settled = true) (hl : acc.lanes = [l]) (hst : l.st = .done)
include ha hw hk hs hl hst

theorem State.finish_launch : s.finish acc.id = s.finishLaunch w acc (.s k) none early := by
  have hgo : ¬ (!acc.settled || !acc.lanes.all LaneAcc.closed) = true := by simp [hs, hl, LaneAcc.closed, hst]
  simp only [State.finish, ha, if_neg hgo, hw, hk]

/-- An invalid record is answered with 0. -/
theorem State.finish_launch_invalid {r : LaunchRec} (he : LaunchRec.ofBytes (leBytes 64 l.data) = r) (hr : s.recordOk acc.ctx r = false) :
    s.finish acc.id = (s.dropAcc acc.id).setWeft (w.launchAnswered acc k 0) := by
  rw [State.finish_launch ha hw hk hs hl hst]
  unfold State.finishLaunch
  rw [hl]
  dsimp only [List.headD_cons]
  rw [he, hr, if_neg Bool.false_ne_true, Bool.not_false, if_pos rfl]
  rfl

/-- A valid one enters the die launch queue, and its serial is the answer. -/
theorem State.finish_launch_valid {r : LaunchRec} (he : LaunchRec.ofBytes (leBytes 64 l.data) = r) (hr : s.recordOk acc.ctx r = true)
    (hf : s.launchFull acc.ctx (dieOf acc.core) = false) :
    s.finish acc.id = ((s.dropAcc acc.id).enterLaunch acc.ctx l.ea r (some (dieOf acc.core)) [] none none).setWeft
      (w.launchAnswered acc k (BitVec.ofNat 64 ((s.ctx acc.ctx).nextSerial % 2 ^ 32))) := by
  rw [State.finish_launch ha hw hk hs hl hst]
  unfold State.finishLaunch
  rw [hl]
  dsimp only [List.headD_cons]
  rw [he, hr, hf, if_neg Bool.false_ne_true, Bool.not_true, if_neg Bool.false_ne_true, if_neg Bool.false_ne_true]
  rfl

end finish

/-! ### The obligation -/

/-- Settles O33: each queue operation by the case it meets, a launch by its issue and by its end. -/
theorem queuesAndLaunches : Obligations.QueuesAndLaunches := by
  unfold Obligations.QueuesAndLaunches
  refine ⟨?queues, ?issue, ?finish⟩
  case queues =>
    intro s w t p d a b g ht hw n rep both one queue
    refine ⟨execQtry_bad hw, execQputtry_bad hw, execQcount_bad hw, fun hb hn h => ?qtry, fun hb hn h hm k hk => ?qtryRefill,
      fun hb h => ?qcount, fun hb hn h => ?qputtry, fun hb hn h hm => execQputtry_refill hb hn ht h hm⟩
    case qtry =>
      exact ⟨execQtry_empty hb hn h, fun hm v hv hq => execQtry_pops hb hn h hm hv hq,
        fun hm h3 hp hv => execQtry_poisoned hb hn h hm h3 hp hv, fun hm hv => execQtry_none hb hn h hm hv⟩
    case qtryRefill =>
      subst hk
      exact execQtry_refill hb hn ht h hm
    case qcount =>
      refine ⟨execQcount_empty hb h, fun hm => ⟨execQcount_next hb h hm, State.qcountOf_token ht, fun h5 => ?_⟩⟩
      rw [h5]
      exact State.qcountOf_refill ht
    case qputtry =>
      exact ⟨execQputtry_empty hb hn h, fun hm hf => execQputtry_full hb hn h hm hf, fun hm hf => execQputtry_pushes hb hn h hm hf⟩
  case issue =>
    intro s w p d a b g acc ready
    refine ⟨fun h => ⟨launchOp_empty (b := none) h, fun hm ⟨hr, hf, hc⟩ => ?lnch⟩,
      fun h => ⟨launchOp_empty (b := some b) h, launchOp_badFlag (b := some b) h, fun hm hv ⟨hr, hf, hc⟩ => ?lnchDep⟩⟩
    case lnch =>
      exact launchOp_reads (b := none) h hm State.launchFlag_none.1 State.launchFlag_none.2 hr hf (hc none false)
    case lnchDep =>
      exact launchOp_reads (b := some b) h hm hv (getLsbD_zero_of_le_one hv) hr hf (hc (some b) _)
  case finish =>
    intro s w a k early l ha hw hk hs hl hst hlen hctx r n ends
    have he : LaunchRec.ofBytes (leBytes 64 l.data) = r := rfl
    clear_value r
    have hacc := State.acc?_dropAcc s a.id
    have hdrop : (s.dropAcc a.id).weft? a.core a.slot = some w := hw
    refine ⟨fun hr => ?invalid, fun hr hf => ?valid⟩
    case invalid =>
      obtain ⟨hweft, hval, hpc⟩ := State.launchAnswered_ends hdrop hlen 0
      exact ⟨_, ⟨_, State.finish_launch_invalid ha hw hk hs hl hst he hr, hweft, hval, hpc, hacc, fun _ => rfl⟩, rfl⟩
    case valid =>
      obtain ⟨handles, ps, n', hent⟩ := State.enterLaunch_frame (s.dropAcc a.id) a.ctx l.ea r (dieOf a.core)
      have hfin := State.finish_launch_valid ha hw hk hs hl hst he hr hf
      rw [hent] at hfin
      obtain ⟨hweft, hval, hpc⟩ := State.launchAnswered_ends (t := { (s.dropAcc a.id).setCtx a.ctx { (s.dropAcc a.id).ctx a.ctx with
        nextSerial := n + 1, handles := handles } with
        launches := s.launches ++ [(s.dropAcc a.id).newLaunch a.ctx l.ea r (dieOf a.core)], pipes := ps, nextId := n' }) hdrop hlen
        (BitVec.ofNat 64 (n % 2 ^ 32))
      refine ⟨_, _, ⟨_, hfin, hweft, hval, hpc, hacc, fun _ => rfl⟩, rfl, rfl, rfl, rfl, rfl, rfl, rfl, ?_⟩
      exact congrArg Context.nextSerial (ctx_setCtx s a.ctx _ hctx)

end Sys2Proof.Machine
end

section
/-! PROOF of O4. What a group looked at makes of the step: not looked into while its pipes are held, else its meaning at the state after the
fetch, with what becomes of it in the cycle. -/

namespace Sys2Proof.Machine
variable {s s1 t : State} {w : Weft} {pipe : Option IssuePipe}

/-- A group is not looked into (R142, R420): its pipes are held from earlier cycles, or it is a memory group behind a fence. -/
theorem notLooked_iff : (s.pipesHeld w pipe || (pipe == some .memory && s.fenced w)) = true
    ↔ s.pipesHeld w pipe = true ∨ (pipe = some .memory ∧ s.fenced w = true) := by
  rw [Bool.or_eq_true, Bool.and_eq_true, beq_iff_eq]

/-- With nothing else to do, the weft that the scheduler picks issues (R143). -/
theorem step_of_weft (ha : s.agenda = []) (hp : s.power.pf = .idle) (hb : s.boot.st = .ready) (hw : s.nextWeft = some w) :
    step s = issueWeft w s := by
  simp only [step, ha, hp, hb, ne_eq, not_true_eq_false, if_false, hw]

section fetched
variable {ws : List W32} {i : Instr} {n : Nat} (hf : State.fetchGroup { s with focus := (w.core, w.slot) } w = (s1, .inl ws))
  (hd : decodeGroup ws = .instr i n)

include hf hd

/-- A group whose pipes are held, or that stands behind a fence, leaves its weft waiting. -/
theorem issueWeft_held (hh : s1.pipesHeld w (issuePipe i) = true ∨ (issuePipe i = some .memory ∧ s1.fenced w = true)) :
    issueWeft w s = .next (s1.mark .waits) := by
  simp only [issueWeft, hf, hd, if_pos (notLooked_iff.2 hh)]

/-- Any other group has its meaning. -/
theorem issueWeft_looks (hh : ¬ (s1.pipesHeld w (issuePipe i) = true ∨ (issuePipe i = some .memory ∧ s1.fenced w = true))) :
    issueWeft w s = Res.andThen (exec i s1) (s1.after w (issuePipe i) (w.effMask (groupPfx i))) := by
  simp only [issueWeft, hf, hd, if_neg (mt notLooked_iff.1 hh)]

end fetched

/-- What becomes of a group with an issue slot and a pipe (R92, R143). -/
theorem State.after_room (m : W64) (hr : s.roomToIssue w pipe = true) (t : State) :
    s.after w pipe m t = if t.waitsOn = some .ration then s.rationed w pipe t else t.lookedAt w pipe m := by
  simp only [State.after, hr, beq_iff_eq, if_true]

/-- What becomes of a group without one: only whether it waits is seen. -/
theorem State.after_noRoom (m : W64) (hr : s.roomToIssue w pipe = false) (t : State) :
    s.after w pipe m t = if t.waitsOn = some .ration then s.rationed w pipe t
      else if t.waitsOn.isSome then t.mark .waits else s.mark .passed := by
  simp only [State.after, hr, beq_iff_eq, Bool.false_eq_true, if_false, State.passedOver]

/-- Settles O4: the picked weft's group is held, or has its meaning and then what its room to issue makes of it. -/
theorem stepRunsTheDecodedInstruction : Obligations.StepRunsTheDecodedInstruction := by
  unfold Obligations.StepRunsTheDecodedInstruction
  intro s s1 w ws i n ha hp hb hw hf hd pipe held looks
  have hstep : step s = issueWeft w s := step_of_weft ha hp hb hw
  refine ⟨fun hh => hstep.trans (issueWeft_held hf hd hh), fun hh hr => ?_, fun hh hr => ?_⟩
  · exact hstep.trans ((issueWeft_looks hf hd hh).trans (congrArg _ (funext (State.after_room _ hr))))
  · exact hstep.trans ((issueWeft_looks hf hd hh).trans (congrArg _ (funext (State.after_noRoom _ hr))))

end Sys2Proof.Machine
end

section
/-! SUPPORT of O43. The dispatcher's order and the core that it picks (R132, R133). -/

namespace Sys2Proof.Machine
variable {s : State} {l m : Launch} {die : Nat}

/-! ### The order of the waiting launches (R132) -/

/-- The model's sort is insertion sort. -/
theorem insertBy_eq_orderedInsert {α : Type} (le : α → α → Bool) (x : α) (xs : List α) :
    insertBy le x xs = xs.orderedInsert (fun a b => le a b = true) x := by
  induction xs with
  | nil => rfl
  | cons y r ih => rw [insertBy, List.orderedInsert_cons, ih]

theorem sortBy_eq_insertionSort {α : Type} (le : α → α → Bool) (xs : List α) :
    sortBy le xs = xs.insertionSort (fun a b => le a b = true) := by
  induction xs with
  | nil => rfl
  | cons x r ih => rw [sortBy, List.insertionSort_cons, ih, insertBy_eq_orderedInsert]

theorem State.mem_dispatchOrder : m ∈ s.dispatchOrder ↔ m ∈ s.launches ∧ s.waiting m = true := by
  rw [State.dispatchOrder, sortBy_eq_insertionSort, List.mem_insertionSort, List.mem_filter]

/-- A launch of higher LPRIO comes first. -/
theorem State.pairwise_dispatchOrder (s : State) : s.dispatchOrder.Pairwise fun a b => b.lrec.lprio ≤ a.lrec.lprio := by
  have htotal : Std.Total fun a b : Launch => decide (b.lrec.lprio ≤ a.lrec.lprio) = true :=
    ⟨fun a b => by simpa only [decide_eq_true_eq] using Nat.le_total b.lrec.lprio a.lrec.lprio⟩
  have htrans : IsTrans Launch fun a b => decide (b.lrec.lprio ≤ a.lrec.lprio) = true :=
    ⟨fun a b c hab hbc => by
      rw [decide_eq_true_eq] at *
      exact Nat.le_trans hbc hab⟩
  rw [State.dispatchOrder, sortBy_eq_insertionSort]
  exact (List.pairwise_insertionSort _ _).imp fun h => of_decide_eq_true h

/-! ### The core (R133) -/

/-- The one with more free slots of a core already chosen and the next one. -/
def betterCore (free : Nat → Nat) (acc : Option Nat) (c : Nat) : Option Nat :=
  match acc with
  | none => some c
  | some b => if free b < free c then some c else some b

theorem betterCore_isBetter {free : Nat → Nat} {acc : Option Nat} {x b : Nat} (h : betterCore free acc x = some b) :
    (b = x ∨ acc = some b) ∧ free x ≤ free b ∧ ∀ a, acc = some a → free a ≤ free b := by
  cases acc with
  | none =>
    obtain rfl : x = b := Option.some.inj h
    exact ⟨.inl rfl, Nat.le_refl _, fun a ha => nomatch ha⟩
  | some a =>
    rw [betterCore] at h
    split at h
    · next hlt =>
      obtain rfl : x = b := Option.some.inj h
      exact ⟨.inl rfl, Nat.le_refl _, fun c hc => Option.some.inj hc ▸ Nat.le_of_lt hlt⟩
    · next hge =>
      obtain rfl : a = b := Option.some.inj h
      exact ⟨.inr rfl, Nat.not_lt.1 hge, fun c hc => Option.some.inj hc ▸ Nat.le_refl _⟩

theorem betterCore_isSome (free : Nat → Nat) (acc : Option Nat) (x : Nat) : ∃ b, betterCore free acc x = some b := by
  cases acc with
  | none => exact ⟨x, rfl⟩
  | some a =>
    rw [betterCore]
    split
    · exact ⟨x, rfl⟩
    · exact ⟨a, rfl⟩

/-- The fold picks a core of the list, or keeps the one it has, and none has more free slots. -/
theorem foldl_betterCore {free : Nat → Nat} {cs : List Nat} {acc : Option Nat} {c : Nat} (h : cs.foldl (betterCore free) acc = some c) :
    (c ∈ cs ∨ acc = some c) ∧ (∀ d ∈ cs, free d ≤ free c) ∧ ∀ a, acc = some a → free a ≤ free c := by
  induction cs generalizing acc with
  | nil => exact ⟨.inr h, fun d hd => absurd hd List.not_mem_nil, fun a ha => Option.some.inj (ha.symm.trans h) ▸ Nat.le_refl _⟩
  | cons x r ih =>
    obtain ⟨b, hb⟩ := betterCore_isSome free acc x
    obtain ⟨hfrom, hx, hacc⟩ := betterCore_isBetter hb
    obtain ⟨hmem, hmax, hle⟩ := ih (List.foldl_cons (f := betterCore free) .. ▸ h)
    have hbc : free b ≤ free c := hle b hb
    refine ⟨?_, List.forall_mem_cons.2 ⟨hx.trans hbc, hmax⟩, fun a ha => (hacc a ha).trans hbc⟩
    rcases hmem with hr | hc
    · exact .inl (List.mem_cons_of_mem _ hr)
    · obtain rfl : b = c := Option.some.inj (hb.symm.trans hc)
      rcases hfrom with rfl | ha
      · exact .inl List.mem_cons_self
      · exact .inr ha

theorem mem_dieCores {core : Nat} (h : core ∈ dieCores die) : dieOf core = die := by
  obtain ⟨i, hi, rfl⟩ := List.mem_map.1 h
  have := List.mem_range.1 hi
  show (die * 52 + i) / 52 = die
  omega

/-- Free weft slots of a core. -/
def State.slotsOf (s : State) (core : Nat) : Nat := (s.freeSlots core).foldl (· + ·) 0

/-- The chosen core is one of the die that takes the team, and no other such core has more free slots. -/
theorem State.chooseCore_spec {c : Nat} (h : s.chooseCore l die = some c) : dieOf c = die ∧ s.fits l c = true
    ∧ ∀ d ∈ dieCores die, s.fits l d = true → s.slotsOf d ≤ s.slotsOf c := by
  have hfold : ((dieCores die).filter (s.fits l)).foldl (betterCore s.slotsOf) none = some c := h
  obtain ⟨hmem, hmax, -⟩ := foldl_betterCore hfold
  obtain ⟨hdie, hfit⟩ := List.mem_filter.1 (hmem.resolve_right nofun)
  exact ⟨mem_dieCores hdie, hfit, fun d hd hf => hmax d (List.mem_filter.2 ⟨hd, hf⟩)⟩

/-! ### The launch (R132) -/

/-- Of launches in order, the first that fits the die is picked. -/
theorem State.pickFrom_spec {ls : List Launch} {core : Nat} (h : s.pickFrom die ls = some (l, core))
    (ho : ls.Pairwise fun a b => b.lrec.lprio ≤ a.lrec.lprio) : l ∈ ls ∧ s.chooseCore l die = some core
      ∧ ∀ m ∈ ls, (s.chooseCore m die).isSome → m.lrec.lprio ≤ l.lrec.lprio := by
  induction ls with
  | nil => exact nomatch h
  | cons x r ih =>
    obtain ⟨hx, hr⟩ := List.pairwise_cons.1 ho
    rw [State.pickFrom] at h
    split at h
    · next c hc =>
      obtain ⟨rfl, rfl⟩ := Prod.mk.inj (Option.some.inj h)
      exact ⟨List.mem_cons_self, hc, List.forall_mem_cons.2 ⟨fun _ => Nat.le_refl _, fun m hm _ => hx m hm⟩⟩
    · next hnone =>
      obtain ⟨hl, hc, hmax⟩ := ih h hr
      exact ⟨List.mem_cons_of_mem _ hl, hc, List.forall_mem_cons.2 ⟨fun hs => by simp [hnone] at hs, hmax⟩⟩

/-- What is placed next is the first that fits, unless a coresident launch holds it back (R137). -/
theorem State.nextPlacement_pick {x : Launch × Nat} (h : s.nextPlacement die = some x) : s.pickFrom die s.dispatchOrder = some x := by
  unfold State.nextPlacement at h
  split at h
  · exact nomatch h
  · next l r ho =>
    rw [ho, State.pickFrom]
    split at h
    · exact h
    · split at h
      · exact nomatch h
      · exact h

theorem State.nextPlacement_spec {core : Nat} (h : s.nextPlacement die = some (l, core)) :
    (l ∈ s.launches ∧ s.waiting l = true) ∧ s.chooseCore l die = some core
    ∧ ∀ m ∈ s.launches, s.waiting m = true → (s.chooseCore m die).isSome → m.lrec.lprio ≤ l.lrec.lprio := by
  obtain ⟨hl, hc, hmax⟩ := State.pickFrom_spec (State.nextPlacement_pick h) s.pairwise_dispatchOrder
  exact ⟨State.mem_dispatchOrder.1 hl, hc, fun m hm hw => hmax m (State.mem_dispatchOrder.2 ⟨hm, hw⟩)⟩

end Sys2Proof.Machine
end

section
/-! SUPPORT of O43. What a resume keeps free on a core, the slots that wefts are placed in, and a placed team (R129, R133, R146). -/

namespace Sys2Proof.Machine
variable {s t : State} {core : Nat}

/-! ### Slots that no weft has and no resume needs (R146) -/

/-- The wefts for which resumes keep their slots. -/
def State.keptWefts (s : State) : List Weft := s.resumingSaves.flatMap Saved.wefts

theorem State.foldl_keepAlloc_wefts (as : List SpadAlloc) (s : State) : (as.foldl State.keepAlloc s).wefts = s.wefts :=
  foldl_keeps (fun u : State => u.wefts = s.wefts) State.keepAlloc (fun _ _ h => h) as s rfl

theorem State.withKept_wefts (s : State) : s.withKept.wefts = s.wefts ++ s.keptWefts := by
  have hfold : ∀ (vs : List Saved) (t : State), (vs.foldl (fun t v =>
      { v.allocs.foldl State.keepAlloc t with wefts := (v.allocs.foldl State.keepAlloc t).wefts ++ v.wefts }) t).wefts
      = t.wefts ++ vs.flatMap Saved.wefts := by
    intro vs
    induction vs with
    | nil => exact fun t => (List.append_nil _).symm
    | cons v r ih =>
      intro t
      rw [List.foldl_cons, ih, State.foldl_keepAlloc_wefts, List.flatMap_cons, List.append_assoc]
  exact hfold _ s

/-- The slot of a core is free, and no resume needs it. -/
def State.openSlot (s : State) (core slot : Nat) : Bool := s.withKept.slotFree core slot

theorem State.openSlot_eq (s : State) (core slot : Nat) :
    s.openSlot core slot = !(s.wefts ++ s.keptWefts).any fun w => w.core == core && w.slot == slot := by
  rw [State.openSlot, State.slotFree, State.weft?, State.withKept_wefts, Bool.eq_iff_iff, Option.isNone_iff_eq_none, List.find?_eq_none,
    Bool.not_eq_true', List.any_eq_false]

/-- Only wefts and contexts tell which slots are open. -/
theorem State.openSlot_congr (hw : t.wefts = s.wefts) (hc : t.ctxs = s.ctxs) (core slot : Nat) :
    t.openSlot core slot = s.openSlot core slot := by
  rw [State.openSlot_eq, State.openSlot_eq, State.keptWefts, State.resumingSaves, hw, hc]
  rfl

/-- The state with one more weft. -/
def State.addWeft (s : State) (v : Weft) : State := { s with wefts := s.wefts ++ [v] }

/-- A new weft takes its own slot and no other. -/
theorem State.openSlot_addWeft (s : State) (v : Weft) (core slot : Nat) :
    (s.addWeft v).openSlot core slot = (s.openSlot core slot && !(v.core == core && v.slot == slot)) := by
  have hk : (s.addWeft v).keptWefts = s.keptWefts := rfl
  rw [State.openSlot_eq, State.openSlot_eq, hk, State.addWeft, ← Bool.not_or]
  simp only [List.any_append, List.any_cons, List.any_nil, Bool.or_false]
  rw [Bool.or_right_comm]

/-! ### Open slots of a partition (R133, R200) -/

/-- Open slots of partition `q` of a core. -/
def State.openIn (s : State) (core q : Nat) : Nat := ((List.range 8).filter fun i => s.openSlot core (8 * q + i)).length

theorem State.openIn_congr (hw : t.wefts = s.wefts) (hc : t.ctxs = s.ctxs) (core q : Nat) : t.openIn core q = s.openIn core q := by
  rw [State.openIn, State.openIn]
  simp only [State.openSlot_congr hw hc]

/-- A weft in another partition takes none of them. -/
theorem State.openIn_addWeft_ne {v : Weft} {q : Nat} (hv : v.slot / 8 ≠ q) : (s.addWeft v).openIn core q = s.openIn core q := by
  refine congrArg List.length (List.filter_congr fun i hi => ?_)
  have hne : (v.slot == 8 * q + i) = false := by
    have := List.mem_range.1 hi
    rw [beq_eq_false_iff_ne]
    omega
  rw [State.openSlot_addWeft, hne, Bool.and_false, Bool.not_false, Bool.and_true]

/-- A weft takes at most one of them. -/
theorem State.openIn_addWeft_le (s : State) (v : Weft) (core q : Nat) : s.openIn core q - 1 ≤ (s.addWeft v).openIn core q := by
  have hsub : ((List.range 8).filter fun i => s.openSlot core (8 * q + i)).erase (v.slot - 8 * q)
      ⊆ (List.range 8).filter fun i => (s.addWeft v).openSlot core (8 * q + i) := by
    intro i hi
    have hnd : ((List.range 8).filter fun i => s.openSlot core (8 * q + i)).Nodup := List.nodup_range.filter _
    obtain ⟨hne, hmem⟩ := hnd.mem_erase_iff.1 hi
    obtain ⟨hr, hopen⟩ := List.mem_filter.1 hmem
    have hslot : (v.slot == 8 * q + i) = false := by
      rw [beq_eq_false_iff_ne]
      omega
    rw [List.mem_filter, State.openSlot_addWeft, hopen, hslot, Bool.and_false]
    exact ⟨hr, rfl⟩
  have hnd : (((List.range 8).filter fun i => s.openSlot core (8 * q + i)).erase (v.slot - 8 * q)).Nodup := (List.nodup_range.filter _).erase _
  exact (List.le_length_erase ..).trans (hnd.subperm hsub).length_le

/-- A partition with open slots gives its lowest one. -/
theorem State.find_openSlot {q : Nat} (h : 0 < s.openIn core q) :
    ∃ slot, ((List.range 8).map (8 * q + ·)).find? (s.withKept.slotFree core) = some slot ∧ slot / 8 = q := by
  obtain ⟨i, hi⟩ := List.exists_mem_of_length_pos h
  obtain ⟨hr, hopen⟩ := List.mem_filter.1 hi
  obtain ⟨slot, hs⟩ := Option.isSome_iff_exists.1 (List.find?_isSome.2 ⟨8 * q + i, List.mem_map.2 ⟨i, hr, rfl⟩, hopen⟩)
  obtain ⟨j, hj, rfl⟩ := List.mem_map.1 (List.mem_of_find?_eq_some hs)
  have := List.mem_range.1 hj
  exact ⟨_, hs, by omega⟩

/-! ### Wefts on consecutive partitions (R133) -/

/-- The partitions of a core have at least so many open slots. -/
def State.HasRoom (s : State) (core : Nat) (slots : List Nat) : Prop := ∀ q, q < 8 → slots.getD q 0 ≤ s.openIn core q

/-- The free slots that a dispatcher sees are open. -/
theorem State.hasRoom_freeSlots (s : State) (core : Nat) : s.HasRoom core (s.withKept.freeSlots core) := by
  intro q hq
  rw [State.freeSlots, List.getD_eq_getElem?_getD, List.getElem?_map, List.getElem?_range hq]
  exact Nat.le_refl _

theorem State.HasRoom.congr {slots : List Nat} (h : s.HasRoom core slots) (hw : t.wefts = s.wefts) (hc : t.ctxs = s.ctxs) :
    t.HasRoom core slots := fun q hq => (h q hq).trans_eq (State.openIn_congr hw hc core q).symm

/-- A weft in a partition leaves room for one fewer there. -/
theorem State.HasRoom.addWeft {slots : List Nat} {v : Weft} (h : s.HasRoom core slots) (hs : slots.getD (v.slot / 8) 0 ≠ 0) :
    (s.addWeft v).HasRoom core (modAt slots (v.slot / 8) (· - 1)) := by
  have hlen : v.slot / 8 < slots.length := by
    by_contra hge
    exact hs (List.getD_eq_default _ _ (Nat.not_lt.1 hge))
  intro q hq
  rw [getD_modAt _ _ _ _ _ fun _ => hlen]
  split
  · exact (Nat.sub_le_sub_right (h q hq) 1).trans (s.openIn_addWeft_le v core q)
  · next hne => exact (h q hq).trans_eq (State.openIn_addWeft_ne (Ne.symm hne)).symm

/-- Each weft of a team that fits is placed in its partition. -/
theorem State.placeWefts_spec (l : Launch) (seed : W32) (core team p0 : Nat) (n w : Nat) (slots regs : List Nat) (s : State)
    (hfit : (l.lrec.spreadWefts p0 n w slots regs).isSome = true) (hroom : s.HasRoom core slots) :
    ∃ ws, s.placeWefts l seed core team p0 (List.range' w n) = { s with wefts := s.wefts ++ ws } ∧ ws.length = n
      ∧ ∀ i v, ws[i]? = some v → ∃ slot, v = Weft.placed l seed core slot team (w + i) ∧ slot / 8 = (p0 + (w + i)) % 8 := by
  induction n generalizing s w slots regs with
  | zero => exact ⟨[], by simp [State.placeWefts], rfl, fun i v hv => by simp at hv⟩
  | succ n ih =>
    rw [LaunchRec.spreadWefts] at hfit
    split at hfit
    · exact nomatch hfit
    · next hfree =>
      have hpos : slots.getD ((p0 + w) % 8) 0 ≠ 0 := fun h0 => hfree (.inl h0)
      obtain ⟨slot, hslot, hpart⟩ := State.find_openSlot (s := s) (core := core) (q := (p0 + w) % 8)
        ((Nat.pos_of_ne_zero hpos).trans_le (hroom _ (Nat.mod_lt _ (by decide))))
      have hroom' : (s.addWeft (Weft.placed l seed core slot team w)).HasRoom core (modAt slots ((p0 + w) % 8) (· - 1)) := by
        rw [← hpart] at hpos ⊢
        exact hroom.addWeft (v := Weft.placed l seed core slot team w) hpos
      obtain ⟨ws, hws, hlen, hall⟩ := ih _ _ _ _ hfit hroom'
      refine ⟨Weft.placed l seed core slot team w :: ws, ?_, by rw [List.length_cons, hlen], fun i v hv => ?_⟩
      · rw [List.range'_succ, State.placeWefts]
        simp only [hslot, Option.getD_some]
        refine hws.trans ?_
        rw [State.addWeft, List.append_assoc]
        rfl
      · cases i with
        | zero =>
          obtain rfl := Option.some.inj hv
          exact ⟨slot, rfl, hpart⟩
        | succ i =>
          obtain ⟨slot', hv', hp'⟩ := hall i v hv
          rw [show w + (i + 1) = w + 1 + i by omega]
          exact ⟨slot', hv', hp'⟩

/-- The registers of a placed weft (R129). -/
theorem Weft.placed_sreg (l : Launch) (seed : W32) (core slot team wid : Nat) :
    ((Weft.placed l seed core slot team wid).sreg 0).val = l.lrec.param ∧ ((Weft.placed l seed core slot team wid).sreg 1).val = l.lva
    ∧ ∀ j, 2 ≤ j → ((Weft.placed l seed core slot team wid).sreg j).val = 0 := by
  refine ⟨rfl, rfl, fun j hj => ?_⟩
  obtain ⟨j, rfl⟩ := Nat.exists_eq_add_of_le' hj
  show (((List.replicate 30 (⟨0, true, false⟩ : SReg))).getD j _).val = 0
  rw [List.getD_eq_getElem?_getD, List.getElem?_replicate]
  split <;> rfl

/-! ### A placed team (R129, R133, R134) -/

/-- A launch replaced is found under its context and serial. -/
theorem State.launch?_setLaunch {l k : Launch} (h : l ∈ s.launches) (hc : k.ctx = l.ctx) (hn : k.serial = l.serial) :
    (s.setLaunch k).launch? l.ctx l.serial = some k := by
  have hk : k ∈ (s.setLaunch k).launches := List.mem_map.2 ⟨l, h, if_pos ⟨hc.symm, hn.symm⟩⟩
  cases hf : (s.setLaunch k).launch? l.ctx l.serial with
  | none => exact absurd (List.find?_eq_none.1 hf k hk) (by simp [hc, hn])
  | some x =>
    have hkey := List.find?_some hf
    obtain ⟨y, -, rfl⟩ := List.mem_map.1 (List.mem_of_find?_eq_some hf)
    split at hkey
    · next hy => rw [if_pos hy]
    · next hy =>
      rw [Bool.and_eq_true, beq_iff_eq, beq_iff_eq] at hkey
      exact absurd ⟨hkey.1.trans hc.symm, hkey.2.trans hn.symm⟩ hy

/-- Scratchpad bytes and the list of ranges alone differ (R134). -/
def State.SpaceOnly (s t : State) : Prop := t = { s with mem := t.mem, pois := t.pois, allocs := t.allocs }

theorem State.SpaceOnly.trans {u : State} (h : s.SpaceOnly t) (k : t.SpaceOnly u) : s.SpaceOnly u := by
  unfold State.SpaceOnly at *
  rw [k, h]

theorem State.allocate_spaceOnly (s : State) (n : SpadAlloc) : s.SpaceOnly (s.allocate n) := by
  unfold State.allocate
  exact ite_keeps rfl rfl

/-- The ranges of a new team are taken: on its core, its cluster and, for the first of a launch there, its die (R133). -/
def State.takeRanges (s : State) (l : Launch) (core : Nat) (b : Nat × Nat × Nat) : State :=
  let range := fun (level unit base len owner : Nat) =>
    ({ level := level, unit := unit, base := base, len := len, ctx := l.ctx, owner := owner, live := true } : SpadAlloc)
  let s1 := (s.allocate (range 0 core b.1 l.lrec.coreNeed s.nextId)).allocate (range 1 (clusOf core) b.2.1 l.lrec.lspad s.nextId)
  if s.onDie l (dieOf core) then s1 else s1.allocate (range 2 (dieOf core) b.2.2 l.lrec.dspad l.serial)

theorem State.takeRanges_spaceOnly (s : State) (l : Launch) (core : Nat) (b : Nat × Nat × Nat) : s.SpaceOnly (s.takeRanges l core b) :=
  have h := (s.allocate_spaceOnly _).trans (State.allocate_spaceOnly _ _)
  ite_keeps h (h.trans (State.allocate_spaceOnly _ _))

/-- The state with a new team, in which its wefts are placed: code fetched before is dropped for the first team of a launch on the core (R272). -/
def State.addTeam (s : State) (l : Launch) (core : Nat) (b : Nat × Nat × Nat) : State :=
  let t := { s.takeRanges l core b with
    nextId := s.nextId + 1, teams := (s.takeRanges l core b).teams ++ [Team.placed s.nextId l core b] }
  if !s.teams.any fun u => u.ctx == l.ctx && u.serial == l.serial && u.core == core then t.dropCode core (· == l.ctx) else t

theorem State.placeTeam_eq {l : Launch} {b : Nat × Nat × Nat} (hb : s.teamBases l core = some b) : s.placeTeam l core
    = ((s.addTeam l core b).placeWefts l (s.ctx l.ctx).desc.seed core s.nextId (firstPart (s.withKept.freeRegsOf core))
        (List.range l.lrec.wpt)).setLaunch { l with nextTeam := l.nextTeam + 1, placed := l.placed + 1, waited := 0 } := by
  rw [State.placeTeam, hb]
  rfl

theorem State.addTeam_keeps (s : State) (l : Launch) (core : Nat) (b : Nat × Nat × Nat) :
    (s.addTeam l core b).teams = s.teams ++ [Team.placed s.nextId l core b] ∧ (s.addTeam l core b).wefts = s.wefts
    ∧ (s.addTeam l core b).ctxs = s.ctxs ∧ (s.addTeam l core b).launches = s.launches := by
  have hspace := s.takeRanges_spaceOnly l core b
  unfold State.addTeam
  generalize s.takeRanges l core b = u at hspace
  rw [hspace]
  dsimp only
  split
  · exact ⟨rfl, rfl, rfl, rfl⟩
  · exact ⟨rfl, rfl, rfl, rfl⟩

/-- What placing the next team of a launch on a core that fits leaves (R129, R133). -/
theorem State.placeTeam_spec {l : Launch} (hl : l ∈ s.launches) (hfit : s.fits l core = true) : ∃ b ws,
    (s.placeTeam l core).teams = s.teams ++ [Team.placed s.nextId l core b] ∧ (s.placeTeam l core).wefts = s.wefts ++ ws
    ∧ ws.length = l.lrec.wpt
    ∧ (∀ i v, ws[i]? = some v → ∃ slot, v = Weft.placed l (s.ctx l.ctx).desc.seed core slot s.nextId i
        ∧ slot / 8 = (firstPart (s.withKept.freeRegsOf core) + i) % 8)
    ∧ (s.placeTeam l core).launch? l.ctx l.serial = some { l with nextTeam := l.nextTeam + 1, placed := l.placed + 1, waited := 0 } := by
  rw [State.fits, Bool.and_eq_true, Bool.and_eq_true] at hfit
  obtain ⟨⟨hparts, hbases⟩, -⟩ := hfit
  obtain ⟨b, hb⟩ := Option.isSome_iff_exists.1 hbases
  obtain ⟨hteams, hwefts, hctxs, hlaunches⟩ := s.addTeam_keeps l core b
  obtain ⟨ws, hws, hlen, hall⟩ := State.placeWefts_spec l (s.ctx l.ctx).desc.seed core s.nextId (firstPart (s.withKept.freeRegsOf core))
    l.lrec.wpt 0 _ _ (s.addTeam l core b) hparts ((s.hasRoom_freeSlots core).congr hwefts hctxs)
  rw [State.placeTeam_eq hb, List.range_eq_range', hws]
  refine ⟨b, ws, hteams, congrArg (· ++ ws) hwefts, hlen, fun i v hv => ?_, ?_⟩
  · simpa only [Nat.zero_add] using hall i v hv
  · exact State.launch?_setLaunch (s := { s.addTeam l core b with wefts := (s.addTeam l core b).wefts ++ ws }) (hlaunches ▸ hl) rfl rfl

end Sys2Proof.Machine
end

section
/-! SUPPORT of O43. The cores that a pipeline reserves (R138), and what the retirement of a team and the end of its launch leave (R136, R140). -/

namespace Sys2Proof.Machine
variable {s t : State}

/-! ### Reservations (R138) -/

/-- The minimum of a stage under the pipeline's variant. -/
def Pipe.least (p : Pipe) (k : Nat) : Nat := (p.vmin.getD p.variant []).getD k 0

/-- A stage that can be reserved takes its minimum of cores that no stage before it has. -/
theorem State.reserveStages_cons {p : Pipe} {k : Nat} {ks : List Nat} {acc cs : List (Nat × Nat)}
    (h : s.reserveStages p (k :: ks) acc = some cs) : ∃ new : List Nat, new.length = p.least k ∧ new.Nodup
      ∧ (∀ c ∈ new, c ∉ acc.map Prod.fst) ∧ s.reserveStages p ks (acc ++ new.map fun c => (c, k)) = some cs := by
  rw [State.reserveStages] at h
  split at h
  · exact nomatch h
  · dsimp only at h
    split at h
    · exact nomatch h
    · next l _ hlen =>
      refine ⟨_, le_antisymm (List.length_take_le ..) (Nat.not_lt.1 hlen), (List.nodup_range.filter _).sublist (List.take_sublist ..),
        fun c hc hacc => ?_, h⟩
      obtain ⟨e, he, rfl⟩ := List.mem_map.1 hacc
      have hcan := (List.mem_filter.1 (List.mem_of_mem_take hc)).2
      simp only [Bool.and_eq_true, Bool.not_eq_true', List.any_eq_false] at hcan
      obtain ⟨⟨⟨hnew, -⟩, -⟩, -⟩ := hcan
      exact hnew e he (beq_self_eq_true _)

/-- A core of each stage's own, as many as the stage's minimum. -/
theorem State.reserveStages_spec {p : Pipe} {ks : List Nat} {acc cs : List (Nat × Nat)} (h : s.reserveStages p ks acc = some cs)
    (hks : ks.Nodup) (hacc : (acc.map Prod.fst).Nodup) : (cs.map Prod.fst).Nodup
      ∧ ∀ j, (cs.filter fun e => e.2 == j).length = (acc.filter fun e => e.2 == j).length + if j ∈ ks then p.least j else 0 := by
  induction ks generalizing acc with
  | nil =>
    obtain rfl : acc = cs := Option.some.inj h
    exact ⟨hacc, fun j => rfl⟩
  | cons k r ih =>
    obtain ⟨hk, hr⟩ := List.nodup_cons.1 hks
    obtain ⟨new, hlen, hnd, hnew, hrest⟩ := State.reserveStages_cons h
    have hmap : (new.map fun c => (c, k)).map Prod.fst = new := List.map_map.trans (List.map_id new)
    have hnodup : ((acc ++ new.map fun c => (c, k)).map Prod.fst).Nodup := by
      rw [List.map_append, hmap]
      exact hacc.append hnd fun c hc hn => hnew c hn hc
    obtain ⟨hcs, hcount⟩ := ih hrest hr hnodup
    refine ⟨hcs, fun j => ?_⟩
    rw [hcount j, List.filter_append, List.length_append, Nat.add_assoc]
    by_cases hj : j = k
    · subst hj
      have hall : ((new.map fun c => (c, j)).filter fun e => e.2 == j) = new.map fun c => (c, j) := by
        rw [List.filter_eq_self]
        simp
      rw [hall, List.length_map, hlen, if_neg hk, if_pos List.mem_cons_self, Nat.add_zero]
    · have hnone : ((new.map fun c => (c, k)).filter fun e => e.2 == j) = [] := by
        rw [List.filter_eq_nil_iff]
        simpa using fun _ _ => Ne.symm hj
      rw [hnone, List.length_nil, Nat.zero_add]
      simp only [List.mem_cons, hj, false_or]

/-- A start that can reserve its stages, of a pipeline without queue bytes (R138). -/
theorem execPipelineStart_starts {c : Nat} {va : W64} {p : Pipe} {cs : List (Nat × Nat)} (hup : s.up = true) (hc : (s.ctx c).st = .running)
    (hp : (s.pipes.find? fun p => p.ctx == c && p.va == va && !p.started && p.whole) = some p) (hq : p.queueBytes = 0)
    (hr : s.reserveStages p (List.range p.nstage) [] = some cs) :
    execPipelineStart c va s = .next (s.setPipe { p with started := true, cores := cs, qbase := 0 }) := by
  simp only [execPipelineStart, hp, hup, hc, hr, hq, if_true, State.allocate, bne_self_eq_false, Bool.not_true, Bool.or_false,
    Bool.false_eq_true, if_false]

theorem execPipelineStart_waits {c : Nat} {va : W64} {p : Pipe}
    (hp : (s.pipes.find? fun p => p.ctx == c && p.va == va && !p.started && p.whole) = some p)
    (hr : s.reserveStages p (List.range p.nstage) [] = none) : execPipelineStart c va s = .next s := by
  simp only [execPipelineStart, hp, hr, ite_self]

/-- A pipeline replaced by one of its number is there. -/
theorem State.mem_setPipe {p r : Pipe} (hp : p ∈ s.pipes) (hr : r.id = p.id) : r ∈ (s.setPipe r).pipes :=
  List.mem_map.2 ⟨p, hp, if_pos hr.symm⟩

/-! ### The end of a command (R115, R118) -/

/-- A key whose entry is replaced finds the new one. -/
theorem lookup_replaced {κ α : Type} [BEq κ] [LawfulBEq κ] [DecidableEq κ] (l : List (κ × α)) (k : κ) (x : α)
    (h : (l.any fun e => e.1 == k) = true) :
    (l.map fun e => if e.1 = k then (e.1, x) else e).lookup k = some x := by
  induction l with
  | nil => exact nomatch h
  | cons e r ih =>
    by_cases he : e.1 = k
    · rw [List.map_cons, if_pos he, he, List.lookup_cons_self]
    · have hne : (k == e.1) = false := beq_eq_false_iff_ne.2 (Ne.symm he)
      rw [List.any_cons, beq_eq_false_iff_ne.2 he, Bool.false_or] at h
      rw [List.map_cons, if_neg he, List.lookup_cons, hne]
      exact ih h

/-- A queue replaced is the queue found. -/
theorem State.queue_setQueue (s : State) (c q : Nat) (x : Queue) : (s.setQueue c q x).queue c q = x := by
  unfold State.setQueue State.queue
  split
  · next h => exact congrArg (Option.getD · Queue.off) (lookup_replaced s.queues (c, q) x h)
  · next h =>
    have hnone : s.queues.lookup (c, q) = none := by
      rw [List.lookup_eq_none_iff]
      intro e he
      rw [Bool.not_eq_true, List.any_eq_false] at h
      exact bne_iff_ne.2 fun hk => h e he (beq_iff_eq.2 hk.symm)
    rw [List.lookup_append, hnone]
    simp

/-- No command of the number runs in the queue. -/
def State.Ended (t : State) (c q id : Nat) : Prop := ∀ j ∈ (t.queue c q).running, j.id ≠ id

theorem State.Ended.congr {c q id : Nat} (h : s.Ended c q id) (hq : t.queues = s.queues) : t.Ended c q id := by
  rwa [State.Ended, State.queue, hq]

/-- What leaves the teams, the wefts and the launches as they are. -/
def State.KeepsTeams (s t : State) : Prop := t.teams = s.teams ∧ t.wefts = s.wefts ∧ t.launches = s.launches

theorem State.KeepsTeams.trans {u : State} (h : s.KeepsTeams t) (k : t.KeepsTeams u) : s.KeepsTeams u := by
  obtain ⟨ht, hw, hl⟩ := h
  obtain ⟨kt, kw, kl⟩ := k
  exact ⟨kt.trans ht, kw.trans hw, kl.trans hl⟩

theorem State.setQueue_keepsTeams (s : State) (c q : Nat) (x : Queue) : s.KeepsTeams (s.setQueue c q x) :=
  ite_keeps ⟨rfl, rfl, rfl⟩ ⟨rfl, rfl, rfl⟩

theorem State.RecordOnly.keepsTeams (h : s.RecordOnly t) : s.KeepsTeams t := by
  rw [h]
  exact ⟨rfl, rfl, rfl⟩

theorem State.RecordOnly.queues (h : s.RecordOnly t) : t.queues = s.queues := by rw [h]

theorem State.completionWord_recordOnly {c : Nat} {k : Cmd} (h : s.completionWord c k = some t) : s.RecordOnly t := by
  unfold State.completionWord at h
  split at h
  · cases h; exact .refl s
  · split at h
    · split at h
      · exact (State.vaWrite_memOnly h).recordOnly
      · split at h
        · exact ((State.noteRead_memOnly ..).trans (State.vaWrite_memOnly h)).recordOnly
        · cases h
    · dsimp only at h
      split at h
      · cases h
      · exact State.hostPut_recordOnly h

theorem State.retestAll_frame (s : State) : s.KeepsTeams s.retestAll ∧ s.retestAll.queues = s.queues :=
  foldl_keeps (fun t : State => s.KeepsTeams t ∧ t.queues = s.queues)
    (fun (t : State) (e : (Nat × Nat) × Queue) => t.post (.waitvRetest e.1.1 e.1.2)) (fun _ _ h => h) _ s ⟨⟨rfl, rfl, rfl⟩, rfl⟩

theorem Queue.restat_running (x : Queue) : x.restat.running = x.running := by
  unfold Queue.restat
  split <;> rfl

/-- A command that has been dropped runs no more. -/
theorem Queue.drop_ended (x : Queue) (id : Nat) {k : Cmd} (h : k ∈ (x.drop id).running) : k.id ≠ id := by
  simpa using (List.mem_filter.1 h).2

/-- A command that completes, or stops its queue with its completion word, runs no more. -/
theorem State.completeCmd_ended (c q id : Nat) (hp : s.power.pf = .idle) :
    (s.completeCmd c q id).Ended c q id ∧ s.KeepsTeams (s.completeCmd c q id) := by
  have hidle : (s.power.pf != .idle) = false := by rw [hp]; rfl
  unfold State.completeCmd
  dsimp only
  split
  · next hnone => exact ⟨fun j hj hid => List.find?_eq_none.1 hnone j hj (beq_iff_eq.2 hid), rfl, rfl, rfl⟩
  · next k _ =>
    rw [hidle, if_neg Bool.false_ne_true]
    have hdrop : (s.setQueue c q ((s.queue c q).drop id).restat).Ended c q id := by
      rw [State.Ended, State.queue_setQueue, Queue.restat_running]
      exact fun j => Queue.drop_ended (s.queue c q) id
    have hkeep := s.setQueue_keepsTeams c q ((s.queue c q).drop id).restat
    generalize s.setQueue c q ((s.queue c q).drop id).restat = s1 at hdrop hkeep
    split
    · refine ⟨?_, hkeep.trans (s1.setQueue_keepsTeams ..)⟩
      show (s1.setQueue c q { s1.queue c q with st := 3, err := BitVec.ofNat 8 3 }).Ended c q id
      rw [State.Ended, State.queue_setQueue]
      exact hdrop
    · next s2 hword =>
      have hrec := State.completionWord_recordOnly hword
      have hend : s2.Ended c q id ∧ s.KeepsTeams s2 := ⟨hdrop.congr hrec.queues, hkeep.trans hrec.keepsTeams⟩
      generalize hs3 : (if bitOf k.flags 1 = true then s2.emit (.msix (s.queue c q).qvec) else s2) = s3
      have hend3 : s3.Ended c q id ∧ s.KeepsTeams s3 := hs3 ▸ ite_keeps (P := fun t : State => t.Ended c q id ∧ s.KeepsTeams t) hend hend
      obtain ⟨hkeeps, hqueues⟩ := s3.retestAll_frame
      exact ite_keeps (P := fun t : State => t.Ended c q id ∧ s.KeepsTeams t) hend3 ⟨hend3.1.congr hqueues, hend3.2.trans hkeeps⟩

end Sys2Proof.Machine
end

section
/-! PROOF of O43. Retirement and the end of a launch (R136, R140), and the obligation. -/

namespace Sys2Proof.Machine
variable {s t : State} {m : Team} {l : Launch}

/-! ### Retirement -/

/-- Only the pipelines change as a core passes to another stage (R140). -/
theorem State.reassign_frame (s : State) (p : Pipe) (core : Nat) : ∃ ps, s.reassign p core = { s with pipes := ps } := by
  unfold State.reassign
  dsimp only
  split
  · exact ⟨_, rfl⟩
  · exact ⟨_, rfl⟩

/-- The launches without one. -/
def State.launchesBut (s : State) (l : Launch) : List Launch := s.launches.filter fun m => !(m.ctx == l.ctx && m.serial == l.serial)

/-- The stage of a launch that completes closes the next stage's queue; with the last of its stages the pipeline ends (R139, R140). -/
def State.closeStage (s : State) (l : Launch) : State :=
  match s.pipeOf l with
  | none => s
  | some p =>
    if (List.range p.nstage).all fun k => k == l.lrec.stage || (s.stageLaunch p k).isNone then
      { s with pipes := s.pipes.filter (fun q => q.id ≠ p.id)
               allocs := s.allocs.map fun (a : SpadAlloc) => if a.level = 3 ∧ a.owner = p.id then { a with live := false } else a }
    else s.setPipe { p with closed := setAt p.closed (l.lrec.stage + 1) true }

theorem State.closeStage_frame (s : State) (l : Launch) : ∃ ps al, s.closeStage l = { s with pipes := ps, allocs := al } := by
  unfold State.closeStage
  split
  · exact ⟨_, _, rfl⟩
  · split
    · exact ⟨_, _, rfl⟩
    · exact ⟨_, _, rfl⟩

theorem State.completeLaunch_none (h : l.cmd = none) :
    s.completeLaunch l = { s.closeStage l with launches := (s.closeStage l).launchesBut l } := by
  rw [State.completeLaunch, h]
  rfl

theorem State.completeLaunch_cmd {c q n : Nat} (h : l.cmd = some (c, q, n)) :
    s.completeLaunch l = State.completeCmd { s.closeStage l with launches := (s.closeStage l).launchesBut l } c q n := by
  rw [State.completeLaunch, h]
  rfl

/-- What is left once a launch has completed: the teams and the wefts, every other launch, and no command of it. -/
theorem State.completeLaunch_spec (hp : s.power.pf = .idle) (l : Launch) : (s.completeLaunch l).teams = s.teams
    ∧ (s.completeLaunch l).wefts = s.wefts ∧ (s.completeLaunch l).launches = s.launchesBut l
    ∧ ∀ c q n, l.cmd = some (c, q, n) → (s.completeLaunch l).Ended c q n := by
  obtain ⟨ps, al, hclose⟩ := s.closeStage_frame l
  cases hc : l.cmd with
  | none =>
    rw [State.completeLaunch_none hc, hclose]
    exact ⟨rfl, rfl, rfl, fun c q n h => nomatch h⟩
  | some x =>
    obtain ⟨c, q, n⟩ := x
    rw [State.completeLaunch_cmd hc, hclose]
    obtain ⟨hend, hteams, hwefts, hlaunches⟩ :=
      State.completeCmd_ended (s := { s with pipes := ps, allocs := al, launches := s.launchesBut l }) c q n hp
    exact ⟨hteams, hwefts, hlaunches, fun c' q' n' h => by cases h; exact hend⟩

theorem State.launch?_launchesBut (ht : t.launches = s.launchesBut l) : t.launch? l.ctx l.serial = none := by
  rw [State.launch?, ht, State.launchesBut, List.find?_eq_none]
  intro k hk
  simpa [imp_iff_not_or] using (List.mem_filter.1 hk).2

/-- Of a retired team no weft is left and not the team itself. -/
def State.WithoutTeam (t : State) (id : Nat) : Prop := t.team? id = none ∧ ∀ w ∈ t.wefts, w.team ≠ id

theorem State.WithoutTeam.congr {id : Nat} (h : s.WithoutTeam id) (ht : t.teams = s.teams) (hw : t.wefts = s.wefts) : t.WithoutTeam id := by
  rwa [State.WithoutTeam, State.team?, ht, hw]

theorem State.freeTeam_without (s : State) (m : Team) : (s.freeTeam m).WithoutTeam m.id := by
  refine ⟨List.find?_eq_none.2 fun u hu => ?_, fun w hw => ?_⟩
  · have := (List.mem_filter.1 hu).2
    simpa using this
  · have := (List.mem_filter.1 hw).2
    simpa using this

/-- A team has retired from the state after its resources are free: its launch counts it, and its core passes on (R136, R140). -/
def State.countRetired (s : State) (l : Launch) (core : Nat) : State :=
  let s1 := s.setLaunch { l with retired := l.retired + 1 }
  match s1.pipeOf { l with retired := l.retired + 1 } with | some p => s1.reassign p core | none => s1

theorem State.countRetired_frame (s : State) (l : Launch) (core : Nat) : ∃ ps,
    s.countRetired l core = { s.setLaunch { l with retired := l.retired + 1 } with pipes := ps } := by
  unfold State.countRetired
  dsimp only
  split
  · exact State.reassign_frame ..
  · exact ⟨_, rfl⟩

section retire
variable {id : Nat} (hup : s.up = true) (hm : s.team? id = some m) (hc : (s.ctx m.ctx).st ≠ .tearing) (hd : s.teamDone m = true)
include hup hm hc hd

theorem execTeamRetire_noLaunch (hl : s.launch? m.ctx m.serial = none) : execTeamRetire id s = .next (s.freeTeam m) := by
  have hl' : (s.freeTeam m).launch? m.ctx m.serial = none := hl
  simp only [execTeamRetire, hm, hup, hd, hl', beq_eq_false_iff_ne.2 hc, Bool.not_true, Bool.or_false, Bool.false_eq_true, if_false]

theorem execTeamRetire_launch (hl : s.launch? m.ctx m.serial = some l) : execTeamRetire id s
    = .next (if l.retired + 1 < l.lrec.total then (s.freeTeam m).countRetired l m.core
        else ((s.freeTeam m).countRetired l m.core).completeLaunch { l with retired := l.retired + 1 }) := by
  have hl' : (s.freeTeam m).launch? m.ctx m.serial = some l := hl
  simp only [execTeamRetire, hm, hup, hd, hl', beq_eq_false_iff_ne.2 hc, Bool.not_true, Bool.or_false, Bool.false_eq_true, if_false]
  rfl

end retire

/-- A team that is not the last of its launch to retire leaves the launch with one more retired; the last one completes it. -/
theorem State.countRetired_spec (hp : s.power.pf = .idle) (hl : s.launch? l.ctx l.serial = some l) (core : Nat)
    {id : Nat} (hw : s.WithoutTeam id) :
    (s.countRetired l core).WithoutTeam id
    ∧ (s.countRetired l core).launch? l.ctx l.serial = some { l with retired := l.retired + 1 }
    ∧ ((s.countRetired l core).completeLaunch { l with retired := l.retired + 1 }).WithoutTeam id
    ∧ ((s.countRetired l core).completeLaunch { l with retired := l.retired + 1 }).launch? l.ctx l.serial = none
    ∧ ∀ c q n, l.cmd = some (c, q, n) → ((s.countRetired l core).completeLaunch { l with retired := l.retired + 1 }).Ended c q n := by
  obtain ⟨ps, hcount⟩ := s.countRetired_frame l core
  rw [hcount]
  obtain ⟨hteams, hwefts, hlaunches, hended⟩ := State.completeLaunch_spec
    (s := { s.setLaunch { l with retired := l.retired + 1 } with pipes := ps }) hp { l with retired := l.retired + 1 }
  exact ⟨hw, State.launch?_setLaunch (List.mem_of_find?_eq_some hl) rfl rfl, hw.congr hteams hwefts,
    State.launch?_launchesBut hlaunches, hended⟩

/-! ### The obligation -/

theorem State.up_idle (h : s.up = true) : s.power.pf = .idle := by
  simp only [State.up, State.booting, Bool.and_eq_true, beq_iff_eq] at h
  exact h.2

/-- Settles O43: the choice of launch and core, the placed team, the reserve of a pipeline, and a retired team with its launch. -/
theorem placementSteps : Obligations.PlacementSteps := by
  unfold Obligations.PlacementSteps
  intro s hup
  refine ⟨fun die l core hdie hnext => ?place, fun die hnone => ?noPlace, fun c va p hc hp hq => ⟨fun cs hr => ?starts, fun hr => ?waits⟩,
    fun id m hm hc hd => ?retire⟩
  case place =>
    obtain ⟨⟨hl, hwaits⟩, hchoose, hmax⟩ := State.nextPlacement_spec hnext
    obtain ⟨hcore, hfit, hmost⟩ := State.chooseCore_spec hchoose
    obtain ⟨b, ws, hteams, hwefts, hlen, hall, hlaunch⟩ := State.placeTeam_spec hl hfit
    have hexec : exec (.teamPlace die) s = .next (s.placeTeam l core) := by
      simp only [exec_teamPlace, execTeamPlace, hup, hnext, Nat.not_le.2 hdie, decide_false, Bool.not_true, Bool.or_false, Bool.false_eq_true,
        if_false]
    refine ⟨⟨hwaits, hl, hcore, hfit⟩, hmax, hmost, _, hexec, _, ws, hteams, hwefts, rfl, rfl, rfl, rfl, rfl, hlen,
      fun i w hw => ?_, hlaunch⟩
    obtain ⟨slot, rfl, hslot⟩ := hall i w hw
    obtain ⟨h0, h1, hrest⟩ := Weft.placed_sreg l (s.ctx l.ctx).desc.seed core slot s.nextId i
    exact ⟨rfl, rfl, rfl, rfl, rfl, rfl, rfl, rfl, rfl, hslot, rfl, h0, h1, hrest, rfl⟩
  case noPlace =>
    simp only [exec_teamPlace, execTeamPlace, hnone, ite_self]
  case starts =>
    obtain ⟨hnodup, hcount⟩ := State.reserveStages_spec hr List.nodup_range List.nodup_nil
    refine ⟨_, execPipelineStart_starts hup hc hp hq hr, { p with started := true, cores := cs, qbase := 0 },
      State.mem_setPipe (List.mem_of_find?_eq_some hp) rfl, rfl, rfl, rfl, hnodup, fun j hj => ?_⟩
    rw [hcount j, if_pos (List.mem_range.2 hj)]
    exact Nat.zero_add _
  case waits => exact execPipelineStart_waits hp hr
  case retire =>
    have hwithout : (s.freeTeam m).WithoutTeam id := State.team?_id hm ▸ s.freeTeam_without m
    cases hl : s.launch? m.ctx m.serial with
    | none => exact ⟨_, execTeamRetire_noLaunch hup hm hc hd hl, hwithout.1, hwithout.2, fun l h => nomatch h⟩
    | some l =>
      have hkey := List.find?_some hl
      rw [Bool.and_eq_true, beq_iff_eq, beq_iff_eq] at hkey
      obtain ⟨hctx, hserial⟩ := hkey
      rw [← hctx, ← hserial]
      have hfree : (s.freeTeam m).launch? l.ctx l.serial = some l := by
        rw [hctx, hserial]
        exact hl
      obtain ⟨hteam, hcounted, hteam', hgone, hended⟩ :=
        State.countRetired_spec (s := s.freeTeam m) (State.up_idle hup) hfree m.core hwithout
      refine ⟨_, execTeamRetire_launch hup hm hc hd hl, ?_⟩
      split
      · next hlt =>
        refine ⟨hteam.1, hteam.2, fun k hk => ?_⟩
        obtain rfl := Option.some.inj hk
        exact ⟨fun _ => hcounted, fun hle => absurd hlt (Nat.not_lt.2 hle)⟩
      · next hge =>
        refine ⟨hteam'.1, hteam'.2, fun k hk => ?_⟩
        obtain rfl := Option.some.inj hk
        exact ⟨fun hlt => absurd hlt hge, fun _ => ⟨hgone, hended⟩⟩

end Sys2Proof.Machine
end

section
/-! SUPPORT of O11 and O34. What the pops and the result of a scalar group leave of the machine and of its weft. -/

namespace Sys2Proof.Machine
variable {s t : State} {w : Weft}

/-- The teams and the pipelines alone differ: what popping a queue and pushing to one can change (R222, R224). -/
def State.QueuesOnly (s t : State) : Prop := t = { s with teams := t.teams, pipes := t.pipes }

theorem State.QueuesOnly.trans {u : State} (h : s.QueuesOnly t) (k : t.QueuesOnly u) : s.QueuesOnly u := by
  unfold State.QueuesOnly at *
  rw [k, h]

theorem State.QueuesOnly.wefts (h : s.QueuesOnly t) : t.wefts = s.wefts := by rw [h]
theorem State.QueuesOnly.itin (h : s.QueuesOnly t) : t.itin = s.itin := by rw [h]

theorem State.QueuesOnly.sameMemory (h : s.QueuesOnly t) : s.SameMemory t := by
  rw [h]
  exact fun _ => rfl

theorem State.QueuesOnly.weft? (h : s.QueuesOnly t) (core slot : Nat) : t.weft? core slot = s.weft? core slot := by
  rw [State.weft?, State.weft?, h.wefts]

theorem State.qPop_queuesOnly (s : State) (w : Weft) (n : Nat) : s.QueuesOnly (s.qPop w n) := by
  unfold State.qPop State.q3Pop
  repeat' split
  all_goals rfl

theorem State.qPush_queuesOnly (s : State) (w : Weft) (n : Nat) (v : W64) : s.QueuesOnly (s.qPush w n v) := by
  unfold State.qPush State.q4Push
  repeat' split
  all_goals rfl

theorem State.popUses_queuesOnly (s : State) (w : Weft) (m : W64) (us : List Use) : s.QueuesOnly (s.popUses w m us) := by
  induction us generalizing s with
  | nil => rfl
  | cons u r ih =>
    unfold State.popUses
    split
    · split
      · exact ih s
      · split
        · split
          · exact State.QueuesOnly.trans (t := s.setTeam _) rfl (ih _)
          · exact ih s
        · exact (s.qPop_queuesOnly w _).trans (ih _)
    · exact ih s

theorem writeS_queuesOnly (s : State) (w : Weft) (o : Opnd) (v : W64) : s.QueuesOnly (writeS s w o v).1 := by
  unfold writeS
  split
  · rfl
  · exact s.qPush_queuesOnly ..
  · rfl

/-- The weft that a scalar result leaves does not depend on the state, and differs in its scalar registers alone (R214). -/
theorem writeS_weft (s : State) (w : Weft) (o : Opnd) (v : W64) : ∃ l, (writeS s w o v).2 = { w with sregs := l }
    ∧ (∀ n, (∀ k : Fin 32, o = .s k → k.val ≠ n) → l[n]? = w.sregs[n]?)
    ∧ ∀ (k : Fin 32) (r : SReg), o = .s k → w.sregs[k.val]? = some r → l[k.val]? = some { val := v, full := r.full, pois := false } := by
  cases o with
  | s i =>
    refine ⟨_, rfl, fun n hn => ?_, fun k r hk hr => ?_⟩
    · rw [getElem?_modAt, if_neg (Ne.symm (hn i rfl))]
    · cases hk
      rw [getElem?_modAt, if_pos rfl, hr]
      rfl
  | _ => exact ⟨_, rfl, fun _ _ => rfl, fun _ _ h => nomatch h⟩

/-- A weft replaced leaves the wefts of every other slot. -/
theorem State.otherWefts_setWeft {v : Weft} (h : t.wefts = s.wefts) : s.OtherWefts (t.setWeft v) v.core v.slot :=
  fun x hx => (mem_setWeft t v x hx).trans (by rw [h])

end Sys2Proof.Machine
end

section
/-! PROOF of O11. Special registers as `getsr` reads them and `setsr` writes them, and what a scalar result leaves. -/

namespace Sys2Proof.Machine
variable {s t : State} {w : Weft} {p : Pfx} {d a : Opnd} {g : Plan}

/-! ### Reads (R232, R334) -/

/-- A read of a special register above `lane` writes its value. -/
theorem execGetsr_reads (h : s.Issues w p [dstS d] .active g) (hm : g.m ≠ 0) (n : Nat) {v : W64} (hv : s.special w n = v)
    (hn : 0 < n ∧ n < 2 ^ 7 := by decide) : execGetsr p d (BitVec.ofNat 7 n) s = .next (s.scalarNext w p g.m [] d v) := by
  have hval : (BitVec.ofNat 7 n).toNat = n := Nat.mod_eq_of_lt hn.2
  rw [execGetsr, if_neg (by omega), hval, ← hv]
  exact execScalar_next (srcs := []) h hm _

theorem execItnStat_next (h : s.Issues w p [dstS d] .active g) (hm : g.m ≠ 0) (k : BitVec 7) : execItnStat p d k s
    = .next (s.scalarNext w p g.m [] d (if s.itin.bound = some w.ctx then s.itin.counters.getD k.toNat 0 else 0)) :=
  execScalar_next (srcs := []) h hm _

theorem execStepq_next (h : s.Issues w p [dstS d] .active g) (hm : g.m ≠ 0) (k : BitVec 7) : execStepq p d k s
    = .next (s.scalarNext w p g.m [] d (if s.armed w.ctx then BitVec.ofNat 64 (if k = 0 then s.snap.c else s.snap.m) else 0)) :=
  execScalar_next (srcs := []) h hm _

theorem execXget_next (h : s.Issues w p [dstS d] .active g) (hm : g.m ≠ 0) (a : Opnd) : execXget p d a s
    = .next (s.scalarNext w p g.m [] d (w.xreg (opndNum a)).word) := execScalar_next (srcs := []) h hm _

/-! ### Results (R202, R214, R286, R326) -/

/-- What a group that writes one scalar result leaves of its weft, and of everything else. -/
theorem State.scalarNext_leaves (hw : s.weft? w.core w.slot = some w) (m : W64) (srcs : List Use) (v : W64) :
    ∃ u, (s.scalarNext w p m srcs d v).weft? w.core w.slot = some u ∧ w.KeepsScalar u d ∧ u.pc = w.nextPc p
      ∧ u.rctr = w.rctr + w.rctrStep p false
      ∧ (∀ (k : Fin 32) (r : SReg), d = .s k → w.sregs[k.val]? = some r →
          u.sregs[k.val]? = some { val := v, full := r.full, pois := false })
      ∧ s.OtherWefts (s.scalarNext w p m srcs d v) w.core w.slot ∧ s.SameMemory (s.scalarNext w p m srcs d v) := by
  have hq : s.QueuesOnly (writeS (s.popUses w m srcs) w d v).1 := (s.popUses_queuesOnly w m srcs).trans (writeS_queuesOnly ..)
  obtain ⟨l, hweft, hothers, hdest⟩ := writeS_weft (s.popUses w m srcs) w d v
  have hnext : s.scalarNext w p m srcs d v
      = (writeS (s.popUses w m srcs) w d v).1.setWeft ({ w with sregs := l }.commit p false) := by rw [State.scalarNext, hweft]
  rw [hnext]
  have hslot := weft?_setWeft (v := { w with sregs := l }.commit p false) ((hq.weft? ..).trans hw) rfl rfl
  refine ⟨_, hslot, ?_, rfl, rfl, hdest, State.otherWefts_setWeft hq.wefts, hq.sameMemory⟩
  exact ⟨⟨rfl, rfl, rfl, rfl, rfl, rfl⟩, ⟨rfl, rfl, rfl⟩, hothers, ⟨rfl, rfl⟩, ⟨rfl, rfl, rfl, rfl, rfl, rfl, rfl⟩,
    ⟨rfl, rfl, rfl, rfl, rfl, rfl, rfl⟩, rfl, rfl⟩

/-- Only an explicit stochastic rounding mode advances `rctr` in a group that rounds nothing (R306). -/
theorem Weft.rctrStep_false (w : Weft) (p : Pfx) : w.rctrStep p false = if p.rnd = 5 then 1 else 0 := by
  simp only [Weft.rctrStep, Bool.false_eq_true, false_and, and_false, if_false]

/-! ### Writes (R233, R335, R386) -/

theorem execSetsr_next (h : s.Issues w p [srcS .a a] .active g) (hm : g.m ≠ 0) (b : BitVec 7) : execSetsr p a b s
    = .next ((s.popUses w g.m [srcS .a a]).setWeft ((w.commit p false).setSpecial b.toNat (s.sVal w a))) :=
  (issue_of_issues h _).trans (congrArg _ (if_neg hm))

/-- The bits of `fpmode` above the rounding mode are written as they are (R386). -/
theorem getLsbD_fpmodeWrite (x : W64) {k : Nat} (h3 : 3 ≤ k) (h9 : k < 9) : (fpmodeWrite x).getLsbD k = x.getLsbD k := by
  have hmask : ∀ j : Fin 9, 3 ≤ j.val → (0x1F8 : BitVec 9).getLsbD j.val = true := by decide
  have hbit : (x.extractLsb' 0 9).getLsbD k = x.getLsbD k := by simp [h9]
  unfold fpmodeWrite
  dsimp only
  split
  · rw [BitVec.getLsbD_and, hmask ⟨k, h9⟩ h3, Bool.and_true, hbit]
  · exact hbit

/-- A reserved rounding mode is stored as 0 (R386). -/
theorem fpmodeWrite_mode (x : W64) : (fpmodeWrite x).toNat % 8 = if 5 ≤ x.toNat % 8 then 0 else x.toNat % 8 := by
  have hlow : (x.extractLsb' 0 9).toNat % 8 = x.toNat % 8 := by
    rw [BitVec.extractLsb'_toNat, Nat.shiftRight_zero, Nat.mod_mod_of_dvd _ (by decide)]
  have hmode : field (x.extractLsb' 0 9).toNat 0 3 = x.toNat % 8 := by rw [field_eq, pow_zero, Nat.div_one]; exact hlow
  unfold fpmodeWrite
  dsimp only
  rw [hmode]
  split
  · rw [BitVec.toNat_and, show (8 : Nat) = 2 ^ 3 from rfl, Nat.and_mod_two_pow]
    exact Nat.and_zero _
  · exact hlow

/-- The low two bits of an address are cleared. -/
theorem toNat_clear_low_two (x : W64) : (x &&& ~~~(3 : W64)).toNat = x.toNat / 4 * 4 := by
  have hmask : ∀ j : Fin 64, (3 : W64).getLsbD j.val = decide (j.val < 2) := by decide
  have hshift : x &&& ~~~(3 : W64) = (x >>> 2) <<< 2 := by
    refine BitVec.eq_of_getLsbD_eq fun k hk => ?_
    rw [BitVec.getLsbD_and, BitVec.getLsbD_not, hmask ⟨k, hk⟩, BitVec.getLsbD_shiftLeft, BitVec.getLsbD_ushiftRight]
    by_cases h : k < 2
    · simp [h]
    · simp [h, hk, Nat.add_sub_cancel' (Nat.not_lt.1 h)]
  rw [hshift, BitVec.toNat_shiftLeft, BitVec.toNat_ushiftRight, Nat.shiftRight_eq_div_pow, Nat.shiftLeft_eq]
  exact Nat.mod_eq_of_lt (by omega)

/-- A write of `tinfo` leaves its reserved bits [31:25] (R233). -/
theorem getLsbD_tinfoWrite (x t : W64) {k : Nat} (hk : k < 64) :
    ((x &&& ~~~(0xFE000000 : W64)) ||| (t &&& 0xFE000000)).getLsbD k = if 25 ≤ k ∧ k ≤ 31 then t.getLsbD k else x.getLsbD k := by
  have hmask : ∀ j : Fin 64, (0xFE000000 : W64).getLsbD j.val = decide (25 ≤ j.val ∧ j.val ≤ 31) := by decide
  rw [BitVec.getLsbD_or, BitVec.getLsbD_and, BitVec.getLsbD_and, BitVec.getLsbD_not, hmask ⟨k, hk⟩, decide_eq_true hk]
  by_cases h : 25 ≤ k ∧ k ≤ 31
  · simp [h]
  · simp [h]

/-! ### The obligation -/

/-- Settles O11: a read gives the special register's value, a result leaves what the shared writes leave, and `setsr` writes the
field that `Weft.setSpecial` names. -/
theorem scalarReadsResultsAndFrame : Obligations.ScalarReadsResultsAndFrame := by
  unfold Obligations.ScalarReadsResultsAndFrame
  refine ⟨?reads, ?results, ?writes⟩
  case reads =>
    intro s w p d k g hm h
    dsimp only
    have hbit : ∀ b : Bool, BitVec.ofNat 64 (b2n b) = if b = true then 1 else 0 := by decide
    have sr := @execGetsr_reads s w p d g h hm
    refine ⟨sr 1 rfl, sr 2 rfl, fun r hr => sr 3 ?grid, sr 4 rfl, sr 5 rfl, sr 6 rfl, sr 7 rfl, sr 8 rfl, sr 9 rfl, sr 10 rfl, sr 11 rfl,
      sr 12 rfl, sr 13 rfl, sr 14 rfl, sr 15 rfl, sr 16 rfl, sr 17 rfl, sr 18 rfl, sr 19 (hbit w.err), sr 20 (hbit w.execRole), sr 21 rfl,
      sr 22 rfl, fun t ht => sr 23 ?serial, sr 24 rfl, fun hb => ?bound, fun hb => ?unbound, fun hr => ⟨?armedC, ?armedM⟩,
      fun hr => ?unarmed, fun n => execXget_next h hm (.x n)⟩
    case grid => simp only [State.special, hr, Option.map_some, Option.getD_some]
    case serial => simp only [State.special, ht, Option.map_some, Option.getD_some]
    case bound => exact (execItnStat_next h hm k).trans (by rw [if_pos hb])
    case unbound => exact (execItnStat_next h hm k).trans (by rw [if_neg hb])
    case armedC => exact (execStepq_next h hm 0).trans (by rw [if_pos (State.armed_iff.2 hr), if_pos rfl])
    case armedM => exact (execStepq_next h hm 1).trans (by rw [if_pos (State.armed_iff.2 hr), if_neg (by decide)])
    case unarmed =>
      have hn : ¬ s.armed w.ctx = true := fun hy => (State.armed_iff.1 hy).elim fun r hc => hr r hc.1 hc.2
      exact (execStepq_next h hm k).trans (by rw [if_neg hn])
  case results =>
    intro s w p d m v srcs hw _
    dsimp only
    obtain ⟨u, hu, hkeeps, hpc, hrctr, hdest, hothers, hmem⟩ := State.scalarNext_leaves (p := p) (d := d) hw m srcs v
    refine ⟨u, hu, hkeeps, hpc, hrctr.trans (by rw [Weft.rctrStep_false]), hdest, fun k hk => ?_, fun hz => ?_, hothers, hmem⟩
    · subst hk; rfl
    · subst hz; rfl
  case writes =>
    intro s w p a g h hm
    dsimp only
    have is := execSetsr_next h hm
    exact ⟨is 9, is 11, ⟨_, is 10, fun k => getLsbD_fpmodeWrite _, fpmodeWrite_mode _⟩, ⟨_, is 12, toNat_clear_low_two _⟩, is 13, is 14,
      ⟨_, is 15, fun k => getLsbD_tinfoWrite _ _⟩, is 19, is 24⟩

end Sys2Proof.Machine
end

section
/-! PROOF of O34. Each itinerary instruction by the case it meets: outside a task launch, without a task in progress, or with one. -/

namespace Sys2Proof.Machine
variable {s : State} {w : Weft} {p : Pfx} {g : Plan} {d a : Opnd} {k : Task}

/-! ### The current task (R456) -/

/-- A minor that needs a task in progress traps outside a task launch and after `itn.done`. -/
theorem needsTask_none (h : s.inTask w = false ∨ w.itnDone = true) (m : W64) (f : Task → State) : needsTask s w m f = s.itinTrap w m := by
  refine if_pos ?_
  rcases h with h | h
  · rw [h]; rfl
  · rw [h, Bool.or_true]

/-- With a current task it acts on that task. -/
theorem needsTask_some (hi : s.inTask w = true) (hd : w.itnDone = false) (hk : s.curTask w = some k) (m : W64) (f : Task → State) :
    needsTask s w m f = f k := by
  simp only [needsTask, hi, hd, hk, Bool.not_true, Bool.or_false, Bool.false_eq_true, if_false]

/-- A micro-batch is named by the low 12 bits of its operand. -/
theorem field_low_twelve (n : Nat) : field n 0 12 = n % 2 ^ 12 := by rw [field_eq, pow_zero, Nat.div_one]

/-! ### `itn.done` and `itn.next` -/

section done
variable (h : s.Issues w p [] .all g)
include h

theorem execItnDone_outside (hi : s.inTask w = false) :
    execItnDone p s = .next (s.trapF (w.issued p false) .itin g.m TInfo.none) := by
  rw [execItnDone, execBare_next h, hi, plan_mask h.2.1]
  rfl

theorem execItnDone_next (hi : s.inTask w = true) (hr : s.Released w 4) : execItnDone p s
    = .next ((s.setWeft { w.commit p false with itnDone := true }).taskOf { w.commit p false with itnDone := true }) := by
  rw [execItnDone, execBare_next h, hi, release_next hr]
  rfl

end done

/-- The weft that waits for its next task. -/
def Weft.asksNext (w : Weft) (d : Opnd) : Weft :=
  { w with itnDone := true, itnNext := true, waiting := some .task, itnWas := w.itnDone, itnReg := sregOf d }

section next
variable (h : s.Issues w p [dstS d] .all g)
include h

theorem execItnNext_outside (hi : s.inTask w = false) :
    execItnNext p d s = .next (s.trapF (w.issued p false) .itin g.m TInfo.none) := by
  rw [execItnNext, issue_of_issues h, hi]
  rfl

variable (hi : s.inTask w = true)
include hi

theorem execItnNext_asks (ha : w.itnAnswer = none) (hn : w.itnNext = false) (hr : s.Released w 4) :
    execItnNext p d s = .next ((s.setWeft (w.asksNext d)).taskOf (w.asksNext d)) := by
  rw [execItnNext, issue_of_issues h, hi, Weft.asksNext, ha, hn, release_next hr]
  rfl

theorem execItnNext_waits (ha : w.itnAnswer = none) (hn : w.itnNext = true) : execItnNext p d s = .next (s.waits w .task) := by
  rw [execItnNext, issue_of_issues h, hi, ha, hn]
  rfl

theorem execItnNext_answered {v : W64} (ha : w.itnAnswer = some v) : execItnNext p d s
    = .next ((writeS s w d v).1.setWeft
        { (writeS s w d v).2.commit p false with itnNext := false, itnAnswer := none, itnDone := v == 0 }) := by
  rw [execItnNext, issue_of_issues h, hi, ha]
  rfl

end next

/-! ### `itn.stash` and `itn.free` -/

/-- The VA of a micro-batch's stash slot, 0 without one (R160). -/
def Itin.stashVaOf (t : Itin) (mb : Nat) : W64 :=
  match t.stashOf mb with | some j => BitVec.ofNat 64 (t.stashva + j * t.stsz) | none => 0

section stash
variable (h : s.Issues w p [srcS .a a, dstS d] .active g)
include h

theorem execItnStash_empty (hm : g.m = 0) : execItnStash p d a s = .next (s.passes w p) :=
  (issue_of_issues h _).trans (congrArg _ (if_pos hm))

theorem execItnStash_outside (hm : g.m ≠ 0) (ht : s.inTask w = false ∨ w.itnDone = true) :
    execItnStash p d a s = .next (s.trapF (w.issued p false) .itin g.m TInfo.none) :=
  (issue_of_issues h _).trans (congrArg _ ((if_neg hm).trans (needsTask_none (w := w.issued p false) ht ..)))

theorem execItnStash_next (hm : g.m ≠ 0) (hi : s.inTask w = true) (hd : w.itnDone = false) (hk : s.curTask w = some k) :
    execItnStash p d a s = .next ((s.popUses w g.m [srcS .a a]).answers w p d (s.itin.stashVaOf ((s.sVal w a).toNat % 2 ^ 12))) := by
  refine (issue_of_issues h _).trans (congrArg _ ((if_neg hm).trans ((needsTask_some (w := w.issued p false) hi hd hk _ _).trans ?_)))
  rw [field_low_twelve]
  rfl

end stash

/-- The sequencer with the stash slot of a micro-batch free, which no task frees again. -/
def Itin.freed (t : Itin) (mb : Nat) : Itin :=
  { t.freeStash mb with tasks := t.tasks.map fun (k : Task) => if k.mb = mb then { k with freeAtEnd := false } else k }

/-- No task of the micro-batch frees the slot at its end. -/
theorem Itin.freed_freeAtEnd {t : Itin} {mb : Nat} {x : Task} (hx : x ∈ (t.freed mb).tasks) (hmb : x.mb = mb) : x.freeAtEnd = false := by
  obtain ⟨k, -, rfl⟩ := List.mem_map.1 hx
  by_cases hk : k.mb = mb
  · rw [if_pos hk]
  · rw [if_neg hk] at hmb
    exact absurd hmb hk

section free
variable (h : s.Issues w p [srcS .a a] .active g)
include h

theorem execItnFree_empty (hm : g.m = 0) : execItnFree p a s = .next (s.passes w p) :=
  (issue_of_issues h _).trans (congrArg _ (if_pos hm))

theorem execItnFree_outside (hm : g.m ≠ 0) (ht : s.inTask w = false ∨ w.itnDone = true) :
    execItnFree p a s = .next (s.trapF (w.issued p false) .itin g.m TInfo.none) :=
  (issue_of_issues h _).trans (congrArg _ ((if_neg hm).trans (needsTask_none (w := w.issued p false) ht ..)))

theorem execItnFree_next (hm : g.m ≠ 0) (hi : s.inTask w = true) (hd : w.itnDone = false) (hk : s.curTask w = some k) :
    execItnFree p a s = .next (State.passes { s.popUses w g.m [srcS .a a] with
      itin := s.itin.rearm (s.itin.freed ((s.sVal w a).toNat % 2 ^ 12)) } w p) := by
  refine (issue_of_issues h _).trans (congrArg _ ((if_neg hm).trans ((needsTask_some (w := w.issued p false) hi hd hk _ _).trans ?_)))
  dsimp only
  rw [field_low_twelve, (s.popUses_queuesOnly w g.m [srcS .a a]).itin]
  rfl

end free

/-! ### `itn.post` -/

/-- A task that has posted one more slot. -/
def Itin.posted (t : Itin) (k : Task) : Itin :=
  { t with tasks := t.tasks.map fun (x : Task) => if x.slot = k.slot then { x with posts := k.posts + 1 } else x }

section post
variable (h : s.Issues w p [dstS d] .active g)
include h

theorem execItnPost_empty (hm : g.m = 0) (hr : s.Released w 5) : execItnPost p d s = .next (s.passes w p) :=
  (issue_of_issues h _).trans (congrArg _ ((if_pos hm).trans (release_next hr _)))

theorem execItnPost_outside (hm : g.m ≠ 0) (ht : s.inTask w = false ∨ w.itnDone = true) :
    execItnPost p d s = .next (s.trapF (w.issued p false) .itin g.m TInfo.none) :=
  (issue_of_issues h _).trans (congrArg _ ((if_neg hm).trans (needsTask_none (w := w.issued p false) ht ..)))

variable (hm : g.m ≠ 0) (hi : s.inTask w = true) (hd : w.itnDone = false) (hk : s.curTask w = some k)
include hm hi hd hk

theorem execItnPost_full (hn : k.nout ≤ k.posts) : execItnPost p d s = .next (s.trapF (w.issued p false) .itin g.m TInfo.none) :=
  (issue_of_issues h _).trans (congrArg _ ((if_neg hm).trans ((needsTask_some (w := w.issued p false) hi hd hk _ _).trans (if_pos hn))))

/-- The next reserved slot is posted. The records of the task agree on how many it has posted. -/
theorem execItnPost_next (hn : k.posts < k.nout) (hr : s.Released w 5) (hu : ∀ x ∈ s.itin.tasks, x.slot = k.slot → x.posts = k.posts) :
    execItnPost p d s = .next ((State.answers { s with itin := s.itin.posted k } w p d (BitVec.ofNat 64 k.posts)).postSlot w.core
      (some w.slot) k.kind (k.resBase + k.posts)) := by
  refine (issue_of_issues h _).trans (congrArg _ ((if_neg hm).trans ((needsTask_some (w := w.issued p false) hi hd hk _ _).trans
    ((if_neg (Nat.not_le.2 hn)).trans ((release_next hr _).trans ?_)))))
  have htasks : (s.itin.tasks.map fun (x : Task) => if x.slot = k.slot then { x with posts := x.posts + 1 } else x)
      = (s.itin.posted k).tasks := by
    refine List.map_congr_left fun x hx => ?_
    by_cases hs : x.slot = k.slot
    · rw [if_pos hs, if_pos hs, hu x hx hs]
    · rw [if_neg hs, if_neg hs]
  dsimp only
  rw [htasks]
  rfl

end post

/-! ### The obligation -/

/-- Settles O34: each itinerary instruction outside a task launch, without a task in progress, and with one. -/
theorem itineraryInstructions : Obligations.ItineraryInstructions := by
  unfold Obligations.ItineraryInstructions
  intro s w p d a g
  dsimp only
  refine ⟨fun h => ⟨execItnDone_outside h, execItnDone_next h⟩, fun h => ⟨execItnNext_outside h, fun hi ha hn hr => ?asks,
      execItnNext_waits h, fun hi v hv => execItnNext_answered h hi hv⟩,
    fun h => ⟨execItnStash_empty h, execItnStash_outside h, fun hm k ⟨hi, hd, hk⟩ => ⟨fun j hj => ?slot, fun hj => ?noSlot⟩⟩,
    fun h => ⟨execItnFree_empty h, execItnFree_outside h, fun hm k ⟨hi, hd, hk⟩ => ?frees⟩,
    fun h => ⟨execItnPost_empty h, execItnPost_outside h, fun hm k ⟨hi, hd, hk⟩ => ⟨execItnPost_full h hm hi hd hk,
      execItnPost_next h hm hi hd hk⟩⟩⟩
  case asks =>
    have hasks := execItnNext_asks h hi ha hn hr
    cases d <;> exact hasks
  case slot =>
    have hnext := execItnStash_next h hm hi hd hk
    rwa [Itin.stashVaOf, hj] at hnext
  case noSlot =>
    have hnext := execItnStash_next h hm hi hd hk
    rwa [Itin.stashVaOf, hj] at hnext
  case frees =>
    have hq := s.popUses_queuesOnly w g.m [srcS .a a]
    exact ⟨_, w.commit p false, execItnFree_next h hm hi hd hk, weft?_setWeft ((hq.weft? ..).trans h.weft) rfl rfl, rfl, rfl, rfl,
      fun x => Itin.freed_freeAtEnd, hq.sameMemory⟩

end Sys2Proof.Machine
end

section
/-! SUPPORT of O44. What the control plane's own steps leave of the machine: reads and writes of memory, the status block, the end of a
command, an itinerary error, and a word sent to a peer. -/

namespace Sys2Proof.Machine
variable {s t : State}

/-! ### Accesses to memory -/

section memOnly
variable (h : s.MemOnly t)
include h

theorem State.MemOnly.itin : t.itin = s.itin := by rw [h]
theorem State.MemOnly.host : t.host = s.host := by rw [h]
theorem State.MemOnly.fab : t.fab = s.fab := by rw [h]
theorem State.MemOnly.queues : t.queues = s.queues := by rw [h]
theorem State.MemOnly.launches : t.launches = s.launches := by rw [h]
theorem State.MemOnly.power : t.power = s.power := by rw [h]
theorem State.MemOnly.stepCtr : t.stepCtr = s.stepCtr := by rw [h]
theorem State.MemOnly.dieStep : t.dieStep = s.dieStep := by rw [h]

end memOnly

theorem State.hostPut_memOnly {a : Nat} {bs : List Byte} (h : s.hostPut a bs = some t) : s.MemOnly t := by
  unfold State.hostPut at h
  split at h
  · cases h; exact State.writeBytes_memOnly ..
  · cases h

/-! ### The last acknowledged step, which no access changes (R182) -/

theorem State.makeRoom_snap (s : State) (stack n f : Nat) : (s.makeRoom stack n f).snap = s.snap := by
  induction f generalizing s with
  | zero => rfl
  | succ f ih =>
    unfold State.makeRoom
    refine ite_keeps (P := fun t : State => t.snap = s.snap) rfl ((ih _).trans ?_)
    unfold State.writeBack
    split <;> rfl

theorem State.setUnit_acked (s : State) (u : SnapUnit) : (s.setUnit u).snap.acked = s.snap.acked := by
  show ((s.holdUnit u).makeRoom (u.chan / 16) 1 1).snap.acked = s.snap.acked
  rw [State.makeRoom_snap]
  rfl

theorem State.enterUnit_acked (s : State) (r : Region) (va : W64) (home : Nat) : (s.enterUnit r va home).snap.acked = s.snap.acked := by
  unfold State.enterUnit
  split <;> rfl

theorem State.openUnit_acked {va st : Nat} (h : s.openUnit va st = some t) : t.snap.acked = s.snap.acked := by
  unfold State.openUnit at h
  split at h
  · cases h
  · split at h
    · cases h
    · split at h
      · cases h; rfl
      · split at h
        · cases h
        · cases h; exact State.setUnit_acked ..

theorem State.openUnit_getD_acked (s : State) (va st : Nat) : ((s.openUnit va st).getD s).snap.acked = s.snap.acked :=
  getD_keeps (P := fun t : State => t.snap.acked = s.snap.acked) (fun _ => State.openUnit_acked) rfl

theorem State.checkLeaf_acked (s : State) (c : Nat) (va : W64) (ask : Ask) (st : Nat) (e : W64) :
    (s.checkLeaf c va ask st e).2.snap.acked = s.snap.acked := by
  unfold State.checkLeaf
  split
  · rfl
  · split
    · rfl
    · split
      · split <;> split
        · rfl
        · exact State.enterUnit_acked ..
        · rfl
        · exact State.enterUnit_acked ..
        · exact State.enterUnit_acked ..
        · rfl
      · exact ite_keeps (P := fun t : State => t.snap.acked = s.snap.acked) rfl rfl

theorem State.leafOf_snap (s : State) (c : Nat) (va : W64) : (s.leafOf c va).2.snap = s.snap := by
  unfold State.leafOf
  dsimp only
  repeat' split
  all_goals rfl

theorem State.translate_acked (s : State) (c : Nat) (va : W64) (ask : Ask) (st : Nat) :
    (s.translate c va ask st).2.snap.acked = s.snap.acked := by
  have hleaf := congrArg Snap.acked (s.leafOf_snap c va)
  unfold State.translate
  split
  · rfl
  · split <;> rename_i he <;> rw [he] at hleaf
    · exact hleaf
    · exact ite_keeps (P := fun t : State => t.snap.acked = s.snap.acked) hleaf hleaf
    · exact (State.checkLeaf_acked ..).trans hleaf

theorem State.countSpan_snap (s : State) (k n : Nat) (cbf : Bool) : (s.countSpan k n cbf).snap = s.snap := by
  refine ite_keeps (P := fun t : State => t.snap = s.snap) ?_ rfl
  refine foldl_keeps (fun t : State => t.snap = s.snap) _ (fun t l ht => ?_) _ s rfl
  exact ite_keeps (P := fun t : State => t.snap = s.snap) ht ht

theorem State.vaRanges_acked {c : Nat} {ask : Ask} {ps ks : List (Nat × Nat)} (h : s.vaRanges c ask ps = some (ks, t)) :
    t.snap.acked = s.snap.acked := by
  induction ps generalizing s ks with
  | nil => cases h; rfl
  | cons p r ih =>
    obtain ⟨a, n⟩ := p
    simp only [State.vaRanges] at h
    split at h
    · cases h
    · have htr := s.translate_acked c (BitVec.ofNat 64 a) ask s.stepCtr.toNat
      split at h
      · rename_i he
        rw [he] at htr
        split at h
        · rename_i hr
          cases h
          refine (ih hr).trans ((congrArg Snap.acked (State.countSpan_snap ..)).trans ?_)
          exact ite_keeps (P := fun t : State => t.snap.acked = s.snap.acked) ((State.openUnit_getD_acked ..).trans htr) htr
        · cases h
      · cases h

theorem State.chanWrite_acked (s : State) (cells : List Host.Cell) (st : Nat) : (s.chanWrite cells st).snap.acked = s.snap.acked := by
  have hdeclares : (s.declares cells).snap = s.snap := by
    unfold State.declares State.parityTouched
    repeat' split
    all_goals rfl
  exact foldl_keeps (fun t : State => t.snap.acked = s.snap.acked) _ (fun t va ht => (t.openUnit_getD_acked va st).trans ht) _ _
    (congrArg Snap.acked hdeclares)

theorem State.vaWrite_acked {c : Nat} {va : W64} {bs : List Byte} (h : s.vaWrite c va bs = some t) : t.snap.acked = s.snap.acked := by
  simp only [State.vaWrite] at h
  split at h
  · cases h
  · split at h
    · cases h
    · rename_i hr
      cases h
      refine (State.chanWrite_acked ..).trans ((State.vaRanges_acked hr).trans ?_)
      exact foldl_keeps (fun t : State => t.snap.acked = s.snap.acked) _
        (fun t k ht => (congrArg Snap.acked (t.makeRoom_snap ..)).trans ht) _ s rfl

theorem State.vaWrite_getD_acked (s : State) (c : Nat) (va : W64) (bs : List Byte) :
    ((s.vaWrite c va bs).getD s).snap.acked = s.snap.acked :=
  getD_keeps (P := fun t : State => t.snap.acked = s.snap.acked) (fun _ => State.vaWrite_acked) rfl

theorem State.hostPut_getD_acked (s : State) (a : Nat) (bs : List Byte) : ((s.hostPut a bs).getD s).snap.acked = s.snap.acked := by
  unfold State.hostPut
  split <;> rfl

/-! ### The status block and errors (R167, R168) -/

/-- The machine with another sequencer. -/
def State.withItin (s : State) (i : Itin) : State := { s with itin := i }

theorem State.MemOnly.withItin (h : s.MemOnly t) (i : Itin) : (s.withItin i).MemOnly (t.withItin i) := by
  rw [h]
  exact rfl

/-- A write of the status block counts itself, and changes memory. -/
theorem State.writeStatus_memOnly (s : State) : (s.withItin { s.itin with upd := s.itin.upd + 1 }).MemOnly s.writeStatus := by
  unfold State.writeStatus
  refine ite_keeps (P := State.MemOnly _) ?_ (.getD fun t h => State.hostPut_memOnly h)
  split
  · exact State.vaWrite_getD_memOnly ..
  · exact .refl _

theorem State.writeStatus_itin (s : State) : s.writeStatus.itin = { s.itin with upd := s.itin.upd + 1 } := s.writeStatus_memOnly.itin
theorem State.writeStatus_queues (s : State) : s.writeStatus.queues = s.queues := s.writeStatus_memOnly.queues

theorem State.writeStatus_acked (s : State) : s.writeStatus.snap.acked = s.snap.acked := by
  unfold State.writeStatus
  refine ite_keeps (P := fun t : State => t.snap.acked = s.snap.acked) ?_ (State.hostPut_getD_acked ..)
  split
  · exact State.vaWrite_getD_acked ..
  · rfl

/-- An error of an itinerary that runs stops it at an entry. -/
theorem State.itinError_itin (h : s.itin.st = 1) (code entry : Nat) : (s.itinError code entry).itin
    = { s.itin with st := 3, err := code, errEntry := entry, upd := s.itin.upd + 1 } := by
  rw [State.itinError, if_pos (.inl h)]
  exact State.writeStatus_itin _

/-! ### Words to a peer (R155-R157) -/

/-- The packet of a word that the sequencer stores at a peer. -/
def State.wordPacket (s : State) (peer va v : Nat) : Packet :=
  { mkPacket ctlCore (s.itin.bound.getD 0) peer (lineOf (fabricVa peer va)) 0
      (granulesOf ((List.range 8).map ((fabricVa peer va).toNat % 128 + ·))) .sigSet with
    ops := [((fabricVa peer va).toNat % 128, BitVec.ofNat 64 v, 0)], use := .itin none }

/-- A word that nothing at the source holds back stands in a packet to its peer. -/
theorem State.sendControl_sends {peer va : Nat} (h : s.fabErr (s.itin.bound.getD 0) peer (lineOf (fabricVa peer va)) = none) (v : Nat) :
    (s.sendControl ctlCore none peer va false v).itin = s.itin
    ∧ (s.sendControl ctlCore none peer va false v).SendsWord peer (fabricVa peer va) v := by
  have hsend : s.sendControl ctlCore none peer va false v = s.sendPacket (s.wordPacket peer va v) := by
    simp only [State.sendControl, h]
    rfl
  rw [hsend]
  exact ⟨rfl, _, List.mem_append_right _ (List.mem_singleton_self _), rfl, rfl, rfl, rfl, rfl⟩

/-- One that an error at the source holds back is the error LINK of the head. -/
theorem State.sendControl_fails {peer va : Nat} (h : (s.fabErr (s.itin.bound.getD 0) peer (lineOf (fabricVa peer va))).isSome = true)
    (hst : s.itin.st = 1) (v : Nat) : (s.sendControl ctlCore none peer va false v).itin
      = { s.itin with st := 3, err := 4, errEntry := s.itin.head, upd := s.itin.upd + 1 } := by
  obtain ⟨d, hd⟩ := Option.isSome_iff_exists.1 h
  unfold State.sendControl
  simp only [hd]
  exact State.itinError_itin hst 4 s.itin.head

/-! ### The start and the end of a command (R115, R117, R118) -/

/-- A queue that is moved to the end of the order is found there. -/
theorem State.queue_turnQueue (s : State) (c q : Nat) (x : Queue) : (s.turnQueue c q x).queue c q = x := by
  have hnone : (s.queues.filter fun e => e.1 ≠ (c, q)).lookup (c, q) = none := by
    rw [List.lookup_eq_none_iff]
    intro e he
    have hne := (List.mem_filter.1 he).2
    exact bne_iff_ne.2 fun hk => of_decide_eq_true hne hk.symm
  rw [State.turnQueue, State.queue, List.lookup_append, hnone]
  simp

/-- The sequencer, the step counter and the step registers are the same. -/
def State.SameSequencer (s t : State) : Prop := t.itin = s.itin ∧ t.stepCtr = s.stepCtr ∧ t.dieStep = s.dieStep

theorem State.SameSequencer.trans {u : State} (h : s.SameSequencer t) (k : t.SameSequencer u) : s.SameSequencer u := by
  obtain ⟨h1, h2, h3⟩ := h
  obtain ⟨k1, k2, k3⟩ := k
  exact ⟨k1.trans h1, k2.trans h2, k3.trans h3⟩

theorem State.RecordOnly.sameSequencer (h : s.RecordOnly t) : s.SameSequencer t := by
  rw [h]
  exact ⟨rfl, rfl, rfl⟩

theorem State.setQueue_sameSequencer (s : State) (c q : Nat) (x : Queue) : s.SameSequencer (s.setQueue c q x) :=
  ite_keeps ⟨rfl, rfl, rfl⟩ ⟨rfl, rfl, rfl⟩

theorem State.setQueue_out (s : State) (c q : Nat) (x : Queue) : (s.setQueue c q x).host.out = s.host.out :=
  ite_keeps (P := fun t : State => t.host.out = s.host.out) rfl rfl

section commands
variable {c q code : Nat} {k : Cmd} {rest : List Cmd}

/-- The command runs in the queue. -/
def State.Runs (s : State) (c q : Nat) (k : Cmd) : Prop := k ∈ (s.queue c q).running

theorem State.Runs.congr (h : s.Runs c q k) (hq : t.queues = s.queues) : t.Runs c q k := by
  rwa [State.Runs, State.queue, hq]

theorem State.setQueue_stopped (s : State) (c q : Nat) (x : Queue) :
    (s.setQueue c q { x with st := 3, err := BitVec.ofNat 8 code }).Stopped c q code := by
  rw [State.Stopped, State.queue_setQueue]
  exact ⟨rfl, rfl⟩

/-- A failed record leaves a stopped queue without its number, and what was sent out before. -/
theorem State.failRec_spec (s : State) (c q : Nat) (k : Cmd) (code : Nat) : (s.failRec c q k code).Stopped c q code
    ∧ (s.failRec c q k code).Gone c q k ∧ s.SameSequencer (s.failRec c q k code)
    ∧ ∀ o ∈ s.host.out, o ∈ (s.failRec c q k code).host.out := by
  unfold State.failRec State.stopQueue
  rw [State.queue_setQueue]
  dsimp only
  generalize hs1 : (s.setQueue c q ((s.queue c q).drop k.id)).setQueue c q
    { (s.queue c q).drop k.id with st := 3, err := BitVec.ofNat 8 code } = s1
  have hstop : s1.Stopped c q code := hs1 ▸ State.setQueue_stopped ..
  have hgone : s1.Gone c q k := by
    rw [← hs1, State.Gone, State.queue_setQueue]
    exact fun j => Queue.drop_ended (s.queue c q) k.id
  have hseq : s.SameSequencer s1 := hs1 ▸ (s.setQueue_sameSequencer ..).trans (State.setQueue_sameSequencer ..)
  have hout : s1.host.out = s.host.out := hs1 ▸ (State.setQueue_out ..).trans (s.setQueue_out ..)
  have hsent : ∀ o ∈ s.host.out, ∀ a b : Out, o ∈ a :: b :: s1.host.out := fun o ho a b =>
    List.mem_cons_of_mem _ (List.mem_cons_of_mem _ (hout ▸ ho))
  split
  · exact ⟨hstop, hgone, hseq, fun o ho => hsent o ho _ _⟩
  · exact ⟨hstop, hgone, hseq, fun o ho => hsent o ho _ _⟩

/-- A running command that fails has left its stopped queue. -/
theorem State.failCmd_spec (h : s.Runs c q k) (code : Nat) : (s.failCmd c q k.id code).Stopped c q code
    ∧ (s.failCmd c q k.id code).Gone c q k ∧ s.SameSequencer (s.failCmd c q k.id code)
    ∧ ∀ o ∈ s.host.out, o ∈ (s.failCmd c q k.id code).host.out := by
  have hsome : (((s.queue c q).fetched ++ (s.queue c q).running).find? fun j => j.id == k.id).isSome = true :=
    List.find?_isSome.2 ⟨k, List.mem_append_right _ h, beq_self_eq_true _⟩
  obtain ⟨j, hj⟩ := Option.isSome_iff_exists.1 hsome
  have hid : j.id = k.id := by simpa using List.find?_some hj
  have hfail : s.failCmd c q k.id code = s.failRec c q j code := by simp only [State.failCmd, hj]
  obtain ⟨hstop, hgone, hrest⟩ := s.failRec_spec c q j code
  rw [hfail]
  exact ⟨hstop, fun i hi => hid ▸ hgone i hi, hrest⟩

theorem State.retestAll_sameSequencer (s : State) : s.SameSequencer s.retestAll := by
  unfold State.retestAll
  refine foldl_keeps s.SameSequencer _ (fun _ _ ht => ?_) _ s ⟨rfl, rfl, rfl⟩
  exact ht

theorem State.completeCmd_sameSequencer (s : State) (c q id : Nat) : s.SameSequencer (s.completeCmd c q id) := by
  have hset : s.SameSequencer (s.setQueue c q ((s.queue c q).drop id).restat) := s.setQueue_sameSequencer ..
  unfold State.completeCmd
  dsimp only
  split
  · exact ⟨rfl, rfl, rfl⟩
  · refine ite_keeps ⟨rfl, rfl, rfl⟩ ?_
    split
    · exact hset.trans (State.setQueue_sameSequencer ..)
    · next k _ _ s2 hword =>
      have hrec := hset.trans (State.completionWord_recordOnly hword).sameSequencer
      have hemit : s.SameSequencer (if bitOf k.flags 1 then s2.emit (.msix (s.queue c q).qvec) else s2) := ite_keeps hrec hrec
      exact ite_keeps hemit (hemit.trans (State.retestAll_sameSequencer _))

theorem State.runs_begun (s : State) (c q : Nat) (k : Cmd) (rest : List Cmd) : (s.begun c q k rest).Runs c q k := by
  rw [State.Runs, State.begun, State.queue_turnQueue, Queue.restat_running]
  exact List.mem_append_right _ (List.mem_singleton_self k)

section starts
variable {op sub : Nat} (h : s.Starts c q op k rest)
include h

theorem State.Starts.idle : s.power.pf = .idle := State.up_idle h.up

/-- A head command of the code and SUB named acts in the state in which it runs. -/
theorem State.Starts.startSub (hs : k.sub = sub) (f : State → Cmd → State) :
    s.startSub c q op sub f = .next (f (s.begun c q k rest) k) := by
  have hcode : (k.op == op && k.sub == sub) = true := by rw [h.code, hs, beq_self_eq_true, beq_self_eq_true]; rfl
  simp only [State.startSub, State.start, h.head, h.up, h.runs, h.ready, h.good, hcode, bne_self_eq_false, Bool.not_true, Bool.or_false,
    Bool.false_eq_true, if_false]
  rfl

end starts
end commands

end Sys2Proof.Machine
end

section
/-! SUPPORT of O44. STEP load, start and stop (R150, R151, R154, R165, R166). -/

namespace Sys2Proof.Machine
variable {s t : State} {c q : Nat} {k : Cmd} {rest : List Cmd}

theorem State.MemOnly.runs (h : s.MemOnly t) (hr : s.Runs c q k) : t.Runs c q k := hr.congr h.queues

/-- A command that completes is gone from its queue. -/
theorem State.completeCmd_gone (hp : s.power.pf = .idle) (c q : Nat) (k : Cmd) : (s.completeCmd c q k.id).Gone c q k :=
  (State.completeCmd_ended c q k.id hp).1

/-! ### STEP load (R150, R151, R154) -/

/-- An itinerary of the device is in the way of a load, or the table does not lie as it must. -/
def State.loadBarred (s : State) (c : Nat) (va : W64) : Bool :=
  s.stepElse c || s.itin.st == 1 || s.itin.st == 2 || (s.itin.st == 3 && !s.itin.tasks.isEmpty) || !hbmAligned va 1024

theorem State.loadBarred_of {va : W64} (h : s.stepElse c = true ∨ s.itin.st = 1 ∨ s.itin.st = 2 ∨ (s.itin.st = 3 ∧ s.itin.tasks ≠ [])
    ∨ va.toNat % 1024 ≠ 0 ∨ inScm va = true ∨ isFabric va = true) : s.loadBarred c va = true := by
  unfold State.loadBarred hbmAligned
  rcases h with h | h | h | ⟨h, ht⟩ | h | h | h
  · simp [h]
  · simp [h]
  · simp [h]
  · simp [h, ht]
  · simp [h]
  · simp [h]
  · simp [h]

theorem State.loadBarred_eq_false {va : W64} (he : ¬ s.stepElse c = true) (hst : s.itin.st = 0 ∨ (s.itin.st = 3 ∧ s.itin.tasks = []))
    (hva : hbmAligned va 1024 = true) : s.loadBarred c va = false := by
  unfold State.loadBarred
  rcases hst with h | ⟨h, ht⟩
  · simp [h, he, hva]
  · simp [h, ht, he, hva]

/-- The state once header and entries of a table have been read. -/
def State.tableRead (s : State) (c : Nat) (va : W64) (n : Nat) : State := (s.noteRead c va 1024).noteRead c (va + 0x400) (16 * n)

theorem State.tableRead_memOnly (s : State) (c : Nat) (va : W64) (n : Nat) : s.MemOnly (s.tableRead c va n) :=
  (s.noteRead_memOnly ..).trans (State.noteRead_memOnly ..)

theorem length_entriesOf (bs : List Byte) (n : Nat) : (entriesOf bs n).length = n := by
  rw [entriesOf, List.length_map, List.length_range]

theorem Itin.badEntry_lt {t : Itin} {e : Nat} (h : t.badEntry = some e) : e < t.entries.length :=
  List.mem_range.1 (List.mem_of_find?_eq_some h)

/-- A failed load check leaves STATE 3, ERR 5 and the entry, raises the header's vector, and touches no queue. -/
theorem State.loadCheckFail_spec (s : State) (t : Itin) (e : Nat) :
    (∃ n, (s.loadCheckFail t e).itin = { t with loaded := false, st := 3, err := 5, errEntry := e, upd := n })
    ∧ (s.loadCheckFail t e).queues = s.queues ∧ .msix t.hvec ∈ (s.loadCheckFail t e).host.out := by
  unfold State.loadCheckFail
  dsimp only
  split
  · refine ⟨⟨_, State.writeStatus_itin _⟩, State.writeStatus_queues _, ?_⟩
    rw [State.raiseHvec, State.writeStatus_itin]
    exact List.mem_cons_self
  · exact ⟨⟨_, rfl⟩, rfl, List.mem_cons_self⟩

/-- A load has failed its check at entry `e`, and the host has been told through vector `hvec`. -/
def State.LoadFailed (s : State) (c q : Nat) (k : Cmd) (hvec e : Nat) : Prop :=
  s.Stopped c q 2 ∧ s.Gone c q k ∧ s.itin.loaded = false ∧ s.itin.st = 3 ∧ s.itin.err = 5 ∧ s.itin.errEntry = e
    ∧ .msix hvec ∈ s.host.out

theorem State.loadCheckFail_failed (hr : s.Runs c q k) (t : Itin) (e : Nat) :
    ((s.loadCheckFail t e).failCmd c q k.id 2).LoadFailed c q k t.hvec e := by
  obtain ⟨⟨n, hitin⟩, hq, hout⟩ := s.loadCheckFail_spec t e
  obtain ⟨hstop, hgone, ⟨hsame, -⟩, hsent⟩ := State.failCmd_spec (hr.congr hq) 2
  rw [State.LoadFailed, hsame, hitin]
  exact ⟨hstop, hgone, rfl, rfl, rfl, rfl, hsent _ hout⟩

/-- A table that has been read fails its check at the header or at an entry, or is bound. -/
def State.judgeTable (s : State) (c q : Nat) (k : Cmd) (u : Itin) : State :=
  if !u.headerOk then (s.loadCheckFail u 0xFFFF).failCmd c q k.id 2
  else match u.badEntry with
    | some i => (s.loadCheckFail u i).failCmd c q k.id 2
    | none => (s.withItin u).completeCmd c q k.id

section judge
variable {u : Itin}

theorem State.judgeTable_header (h : u.headerOk = false) : s.judgeTable c q k u = (s.loadCheckFail u 0xFFFF).failCmd c q k.id 2 := by
  rw [State.judgeTable, h]
  rfl

theorem State.judgeTable_entry (h : u.headerOk = true) {e : Nat} (he : u.badEntry = some e) :
    s.judgeTable c q k u = (s.loadCheckFail u e).failCmd c q k.id 2 := by
  rw [State.judgeTable, h, he]
  rfl

theorem State.judgeTable_binds (h : u.headerOk = true) (he : u.badEntry = none) :
    s.judgeTable c q k u = (s.withItin u).completeCmd c q k.id := by
  rw [State.judgeTable, h, he]
  rfl

end judge

section load
variable (h : s.Starts c q 9 k rest) (hs : k.sub = 0)
include h hs

theorem execStepLoad_barred (hb : s.loadBarred c (BitVec.ofNat 64 (k.fld 0x20 8)) = true) :
    execStepLoad c q s = .next ((s.begun c q k rest).failCmd c q k.id 2) := by
  rw [execStepLoad, h.startSub hs]
  exact congrArg _ (if_pos hb)

variable (hb : s.loadBarred c (BitVec.ofNat 64 (k.fld 0x20 8)) = false) (h1 : 1 ≤ k.fld 0x28 4) (hn : k.fld 0x28 4 ≤ 1024)
include hb h1 hn

/-- A table that cannot be read fails with FAULT. -/
theorem execStepLoad_faults (hr : (s.begun c q k rest).vaRead c (BitVec.ofNat 64 (k.fld 0x20 8)) 1024 = none
      ∨ (s.begun c q k rest).vaRead c (BitVec.ofNat 64 (k.fld 0x20 8) + 0x400) (16 * k.fld 0x28 4) = none) :
    execStepLoad c q s = .next ((s.begun c q k rest).failCmd c q k.id 3) := by
  have hin : inside 1 1024 (k.fld 0x28 4) = true := by rw [inside, decide_eq_true h1, decide_eq_true hn]; rfl
  rw [execStepLoad, h.startSub hs]
  simp only [hin, if_true]
  split
  · next hbar => exact absurd hbar (Bool.eq_false_iff.1 hb)
  · split
    · next hhd hes => exact hr.elim (fun hr => nomatch hr ▸ hhd) fun hr => nomatch hr ▸ hes
    · rfl

variable {hd es : List Byte} (hhd : (s.begun c q k rest).vaRead c (BitVec.ofNat 64 (k.fld 0x20 8)) 1024 = some hd)
  (hes : (s.begun c q k rest).vaRead c (BitVec.ofNat 64 (k.fld 0x20 8) + 0x400) (16 * k.fld 0x28 4) = some es)
include hhd hes

/-- A table that is read is judged. -/
theorem execStepLoad_reads : execStepLoad c q s = .next
    (((s.begun c q k rest).tableRead c (BitVec.ofNat 64 (k.fld 0x20 8)) (k.fld 0x28 4)).judgeTable c q k
      (s.itin.bind c hd (entriesOf es (k.fld 0x28 4)))) := by
  have hin : inside 1 1024 (k.fld 0x28 4) = true := by rw [inside, decide_eq_true h1, decide_eq_true hn]; rfl
  rw [execStepLoad, h.startSub hs]
  simp only [hin, if_true, hhd, hes, Bool.not_true, Bool.false_or]
  split
  · next hbar => exact absurd hbar (Bool.eq_false_iff.1 hb)
  · rfl

end load

/-! ### The control block (R155) -/

/-- A reading of the control block takes in its words, and may end a reported stall (R155, R168). -/
theorem State.readControl_memOnly (s : State) : ∃ a g dn up sf sb st, (s.withItin { s.itin with
    aarr := a, garr := g, dnfreed := dn, upfreed := up, syncf := sf, syncb := sb, stalled := st }).MemOnly s.readControl := by
  unfold State.readControl
  split
  · exact ⟨_, _, _, _, _, _, _, .refl s⟩
  · split
    · exact ⟨_, _, _, _, _, _, _, .refl s⟩
    · exact ⟨_, _, _, _, _, _, _, (s.noteRead_memOnly ..).withItin _⟩

/-! ### STEP start (R150, R165) -/

/-- The sequencer of a loaded table as STEP start leaves it. -/
def Itin.started (t : Itin) : Itin :=
  { t with st := 1, err := 0, errEntry := 0, head := 0, ahead := [], resA := 0, resG := 0, consA := 0, consG := 0
           stash := List.replicate t.nstash none, syncs := 0, syncPhase := 0, stepSent := false, acks := [], stalled := false
           stopper := none }

/-- The machine as a table starts at a step. -/
def State.startTable (s : State) (n : W64) : State :=
  { s with itin := s.itin.started, stepCtr := n, dieStep := s.dieStep.map fun _ => n, snap := { s.snap with startStep := n.toNat } }

section start
variable (h : s.Starts c q 9 k rest) (hs : k.sub = 1)
include h hs

theorem execStepStart_refused (hb : s.itin.loaded = false ∨ s.itin.st ≠ 0 ∨ s.itin.tasks ≠ []) :
    execStepStart c q s = .next ((s.begun c q k rest).failCmd c q k.id 2) := by
  rw [execStepStart, h.startSub hs]
  refine congrArg _ (if_pos ?_)
  show (!s.itin.loaded || s.itin.st != 0 || !s.itin.tasks.isEmpty) = true
  rcases hb with hb | hb | hb
  · simp [hb]
  · simp [hb]
  · simp [hb]

theorem execStepStart_starts (hl : s.itin.loaded = true) (hst : s.itin.st = 0) (ht : s.itin.tasks = []) : execStepStart c q s
    = .next ((((s.begun c q k rest).startTable (BitVec.ofNat 64 (k.fld 0x2C 4))).readControl).completeCmd c q k.id) := by
  rw [execStepStart, h.startSub hs]
  refine congrArg _ (if_neg ?_)
  show ¬ (!s.itin.loaded || s.itin.st != 0 || !s.itin.tasks.isEmpty) = true
  rw [hl, hst, ht]
  exact Bool.false_ne_true

end start

/-! ### STEP stop (R150) -/

theorem execStepStop_starts (h : s.Starts c q 9 k rest) (hs : k.sub = 2) (hn : s.itin.stopper = none) :
    execStepStop c q s = .next ((s.begun c q k rest).startStop c q k) := by
  rw [execStepStop, hn]
  exact h.startSub hs _

/-- The machine with a stop that waits for its itinerary. -/
def State.stopping (s : State) (c q : Nat) (k : Cmd) : State := s.withItin { s.itin with stopper := some (c, q, k.id) }

section stop
variable (he : ¬ s.stepElse c = true)
include he

theorem State.startStop_idle (h : s.itin.bound = none ∨ s.itin.st = 0 ∨ s.itin.st = 3) : s.startStop c q k = s.completeCmd c q k.id := by
  rw [State.startStop, if_neg he, if_pos h]

variable (hb : s.itin.bound ≠ none) (hst : s.itin.st = 1 ∨ s.itin.st = 2)
include hb hst

/-- A stop of an itinerary that runs waits for what has not ended. -/
theorem State.startStop_stops : s.startStop c q k
    = if (s.stopping c q k).endWarm.itinQuiet then (s.stopping c q k).endWarm.stopEnds c q k.id
      else (s.stopping c q k).endWarm := by
  have hn : ¬ (s.itin.bound = none ∨ s.itin.st = 0 ∨ s.itin.st = 3) := by
    rintro (hn | hn | hn)
    · exact hb hn
    · omega
    · omega
  rw [State.startStop, if_neg he, if_neg hn]
  rfl

end stop

theorem State.endWarm_itin (s : State) : s.endWarm.itin = s.itin := by
  refine foldl_keeps (fun t : State => t.itin = s.itin) _ (fun _ _ ht => ?_) _ s rfl
  exact ht

/-- With no task launch there is nothing that a stop ends. -/
theorem State.taskLaunches_nil (h : ∀ l ∈ s.launches, l.itn = none) : s.taskLaunches = [] := by
  rw [State.taskLaunches, List.filter_eq_nil_iff]
  intro l hl
  rw [h l hl]
  exact Bool.false_ne_true

theorem State.endWarm_none (h : s.taskLaunches = []) : s.endWarm = s := by
  rw [State.endWarm, h]
  rfl

/-- With no task and no task launch the itinerary is quiet. -/
theorem State.itinQuiet_none (ht : s.itin.tasks = []) (h : s.taskLaunches = []) : s.itinQuiet = true := by
  rw [State.itinQuiet, ht, h]
  rfl

theorem State.itinQuiet_task (ht : s.itin.tasks ≠ []) : s.itinQuiet = false := by
  rw [State.itinQuiet, List.isEmpty_eq_false_iff.2 ht]
  rfl

/-- The end of a stop counts a write of the status block. -/
theorem State.stopEnds_itin (hst : s.itin.st ≠ 3) (c q id : Nat) :
    (s.stopEnds c q id).itin = { s.itin with st := 0, stopper := none, upd := s.itin.upd + 1 } := by
  obtain ⟨hitin, -⟩ := State.completeCmd_sameSequencer
    (s.withItin { s.itin with st := if s.itin.st = 3 then 3 else 0, stopper := none }).writeStatus c q id
  rw [if_neg hst] at hitin
  rw [State.stopEnds, if_neg hst]
  exact hitin.trans (State.writeStatus_itin _)

theorem State.stopEnds_gone (hp : s.power.pf = .idle) (c q : Nat) (k : Cmd) : (s.stopEnds c q k.id).Gone c q k := by
  refine State.completeCmd_gone ?_ c q k
  rw [(State.writeStatus_memOnly _).power]
  exact hp

/-- A sequencer with a stop that waits dispatches nothing. -/
theorem State.dispatching_stopped (h : s.itin.stopper.isSome = true) : s.dispatching = false := by
  rw [State.dispatching, Option.isNone_eq_false_iff.2 h, Bool.and_false]

theorem execItineraryDispatch_stays (h : s.dispatching = false) : execItineraryDispatch s = .next s := by
  unfold execItineraryDispatch
  split
  · rw [h, if_neg Bool.false_ne_true]
  · rfl

section stopWaits
variable (he : ¬ s.stepElse c = true) (hb : s.itin.bound ≠ none) (hst : s.itin.st = 1 ∨ s.itin.st = 2)
include he hb hst

/-- With no task and no task launch a stop ends at once. -/
theorem State.startStop_ends (hp : s.power.pf = .idle) (ht : s.itin.tasks = []) (hl : ∀ l ∈ s.launches, l.itn = none) :
    (s.startStop c q k).Gone c q k ∧ (s.startStop c q k).itin.st = 0 ∧ (s.startStop c q k).itin.stopper = none
      ∧ (s.startStop c q k).itin.upd = s.itin.upd + 1 := by
  have hitin : (s.stopping c q k).itin = { s.itin with stopper := some (c, q, k.id) } := rfl
  have hst3 : (s.stopping c q k).itin.st ≠ 3 := by rw [hitin]; show s.itin.st ≠ 3; omega
  have hnone : (s.stopping c q k).taskLaunches = [] := State.taskLaunches_nil hl
  have hquiet : (s.stopping c q k).itinQuiet = true := State.itinQuiet_none (by rw [hitin]; exact ht) hnone
  rw [State.startStop_stops he hb hst, State.endWarm_none hnone, if_pos hquiet]
  refine ⟨State.stopEnds_gone hp c q k, ?_⟩
  rw [State.stopEnds_itin hst3, hitin]
  exact ⟨rfl, rfl, rfl⟩

/-- With a task a stop waits, and nothing is dispatched. -/
theorem State.startStop_waits (ht : s.itin.tasks ≠ []) : (s.startStop c q k).itin.stopper = some (c, q, k.id)
    ∧ (s.startStop c q k).dispatching = false ∧ exec .itineraryDispatch (s.startStop c q k) = .next (s.startStop c q k) := by
  have hitin : (s.stopping c q k).endWarm.itin = { s.itin with stopper := some (c, q, k.id) } := State.endWarm_itin _
  have hbusy : (s.stopping c q k).endWarm.itinQuiet = false := State.itinQuiet_task (by rw [hitin]; exact ht)
  rw [State.startStop_stops he hb hst, hbusy, if_neg Bool.false_ne_true]
  have hstopper : (s.stopping c q k).endWarm.itin.stopper = some (c, q, k.id) := by rw [hitin]
  have hnot : (s.stopping c q k).endWarm.dispatching = false := State.dispatching_stopped (by rw [hstopper]; rfl)
  exact ⟨hstopper, hnot, execItineraryDispatch_stays hnot⟩

end stopWaits

/-! ### What each command does -/

/-- A command that fails leaves the sequencer alone. -/
theorem stepCommand_fails {i : Instr} {code : Nat} (hi : exec i s = .next ((s.begun c q k rest).failCmd c q k.id code)) :
    s.Does i fun v => v.Stopped c q code ∧ v.Gone c q k ∧ v.itin = s.itin := by
  obtain ⟨hstop, hgone, ⟨hitin, -⟩, -⟩ := State.failCmd_spec (s.runs_begun c q k rest) code
  exact ⟨_, hi, hstop, hgone, hitin⟩

section commands
variable (h : s.Starts c q 9 k rest)
include h

theorem State.Starts.begun_idle : (s.begun c q k rest).power.pf = .idle := h.idle

section load
variable (hs : k.sub = 0) (hb : s.loadBarred c (BitVec.ofNat 64 (k.fld 0x20 8)) = false) (h1 : 1 ≤ k.fld 0x28 4)
  (hn : k.fld 0x28 4 ≤ 1024) {hd es : List Byte}
  (hhd : (s.begun c q k rest).vaRead c (BitVec.ofNat 64 (k.fld 0x20 8)) 1024 = some hd)
  (hes : (s.begun c q k rest).vaRead c (BitVec.ofNat 64 (k.fld 0x20 8) + 0x400) (16 * k.fld 0x28 4) = some es)
include hs hb h1 hn hhd hes

theorem stepLoad_badHeader (hh : (s.itin.bind c hd (entriesOf es (k.fld 0x28 4))).headerOk = false) :
    s.Does (.stepLoad c q) fun v => v.LoadFailed c q k (num hd 0x0E 1) 0xFFFF := by
  have hexec := execStepLoad_reads h hs hb h1 hn hhd hes
  rw [State.judgeTable_header hh] at hexec
  exact ⟨_, hexec, State.loadCheckFail_failed ((State.tableRead_memOnly ..).runs (s.runs_begun c q k rest)) _ _⟩

variable (hh : (s.itin.bind c hd (entriesOf es (k.fld 0x28 4))).headerOk = true)
include hh

theorem stepLoad_badEntry {e : Nat} (he : (s.itin.bind c hd (entriesOf es (k.fld 0x28 4))).badEntry = some e) :
    s.Does (.stepLoad c q) (fun v => v.LoadFailed c q k (num hd 0x0E 1) e) ∧ e < k.fld 0x28 4 := by
  have hexec := execStepLoad_reads h hs hb h1 hn hhd hes
  rw [State.judgeTable_entry hh he] at hexec
  have hlt := Itin.badEntry_lt he
  rw [show (s.itin.bind c hd (entriesOf es (k.fld 0x28 4))).entries = entriesOf es (k.fld 0x28 4) from rfl, length_entriesOf] at hlt
  exact ⟨⟨_, hexec, State.loadCheckFail_failed ((State.tableRead_memOnly ..).runs (s.runs_begun c q k rest)) _ _⟩, hlt⟩

theorem stepLoad_binds (he : (s.itin.bind c hd (entriesOf es (k.fld 0x28 4))).badEntry = none) :
    s.Does (.stepLoad c q) fun v => v.Gone c q k ∧ v.itin = s.itin.bind c hd (entriesOf es (k.fld 0x28 4)) := by
  have hexec := execStepLoad_reads h hs hb h1 hn hhd hes
  rw [State.judgeTable_binds hh he] at hexec
  obtain ⟨hitin, -⟩ := State.completeCmd_sameSequencer (State.withItin _ _) c q k.id
  refine ⟨_, hexec, State.completeCmd_gone ?_ c q k, hitin⟩
  exact (State.tableRead_memOnly ..).power.symm ▸ h.idle

end load

/-- STEP start begins a loaded table at entry 0, at the step of the command. -/
theorem stepStart_starts (hs : k.sub = 1) (hl : s.itin.loaded = true) (hst : s.itin.st = 0) (ht : s.itin.tasks = []) :
    s.Does (.stepStart c q) fun v => v.Gone c q k
      ∧ (∃ a g dn up sf sb st, v.itin = { s.itin.started with
          aarr := a, garr := g, dnfreed := dn, upfreed := up, syncf := sf, syncb := sb, stalled := st })
      ∧ v.stepCtr = BitVec.ofNat 64 (k.fld 0x2C 4) ∧ ∀ d ∈ v.dieStep, d = BitVec.ofNat 64 (k.fld 0x2C 4) := by
  obtain ⟨a, g, dn, up, sf, sb, st, hm⟩ := ((s.begun c q k rest).startTable (BitVec.ofNat 64 (k.fld 0x2C 4))).readControl_memOnly
  obtain ⟨hitin, hctr, hdie⟩ := State.completeCmd_sameSequencer
    ((s.begun c q k rest).startTable (BitVec.ofNat 64 (k.fld 0x2C 4))).readControl c q k.id
  refine ⟨_, execStepStart_starts h hs hl hst ht, State.completeCmd_gone (hm.power ▸ h.idle) c q k, ⟨a, g, dn, up, sf, sb, st, ?_⟩, ?_, ?_⟩
  · exact hitin.trans hm.itin
  · exact hctr.trans hm.stepCtr
  · rw [hdie, hm.dieStep]
    intro d hd
    obtain ⟨x, -, rfl⟩ := List.mem_map.1 hd
    rfl

section stop
variable (hs : k.sub = 2) (hn : s.itin.stopper = none) (he : ¬ s.stepElse c = true)
include hs hn he

theorem stepStop_idle (hb : s.itin.bound = none ∨ s.itin.st = 0 ∨ s.itin.st = 3) :
    s.Does (.stepStop c q) fun v => v.Gone c q k ∧ v.itin = s.itin := by
  obtain ⟨hitin, -⟩ := (s.begun c q k rest).completeCmd_sameSequencer c q k.id
  exact ⟨_, (execStepStop_starts h hs hn).trans (congrArg _ (State.startStop_idle (s := s.begun c q k rest) he hb)),
    State.completeCmd_gone h.begun_idle c q k, hitin⟩

variable (hb : s.itin.bound ≠ none) (hst : s.itin.st = 1 ∨ s.itin.st = 2)
include hb hst

theorem stepStop_ends (ht : s.itin.tasks = []) (hl : ∀ l ∈ s.launches, l.itn = none) : s.Does (.stepStop c q) fun v =>
    v.Gone c q k ∧ v.itin.st = 0 ∧ v.itin.stopper = none ∧ v.itin.upd = s.itin.upd + 1 :=
  ⟨_, execStepStop_starts h hs hn, State.startStop_ends (s := s.begun c q k rest) he hb hst h.begun_idle ht hl⟩

theorem stepStop_waits (ht : s.itin.tasks ≠ []) : s.Does (.stepStop c q) fun v =>
    v.itin.stopper = some (c, q, k.id) ∧ v.dispatching = false ∧ exec .itineraryDispatch v = .next v :=
  ⟨_, execStepStop_starts h hs hn, State.startStop_waits (s := s.begun c q k rest) he hb hst ht⟩

end stop
end commands

end Sys2Proof.Machine
end

section
/-! SUPPORT of O44. Dispatch (R156, R158-R161, R168). -/

namespace Sys2Proof.Machine
variable {s : State} {t : Itin} {c i : Nat} {e : Entry}

/-! ### What an entry waits for (R156, R158, R159) -/

/-- A ready entry is a task, has a run slot, and its arrivals and credits have come. -/
theorem Itin.entryReady_spec (h : t.entryReady e = true) : entKind e < 3 ∧ t.tasks.length < t.maxrun
    ∧ (entNua e = true → t.aarr.getD (t.consA % t.naslot) 0 = BitVec.ofNat 64 (t.consA + 1))
    ∧ (entNdg e = true → t.garr.getD (t.consG % t.ngslot) 0 = BitVec.ofNat 64 (t.consG + 1))
    ∧ (entOut e ≠ 0 → (entOut e : Int) ≤ t.credit (entKind e)) := by
  simp only [Itin.entryReady, Bool.and_eq_true, decide_eq_true_eq, Option.isNone_iff_eq_none] at h
  obtain ⟨⟨hkind, hreason⟩, hroom⟩ := h
  unfold Itin.entryReason at hreason
  split at hreason
  · cases hreason
  next hact =>
  split at hreason
  · cases hreason
  next hgrad =>
  split at hreason
  · cases hreason
  next hcredit =>
  have ha : entNua e = true → t.actArrived = true := by simpa using hact
  have hg : entNdg e = true → t.gradArrived = true := by simpa using hgrad
  exact ⟨hkind, hroom, fun h => eq_of_beq (ha h), fun h => eq_of_beq (hg h), fun ho => not_lt.1 fun hlt => hcredit (by simp [hlt, ho])⟩

/-- The next entry is ready, and is the head or a W entry of W-fill. -/
theorem Itin.nextEntry_spec (h : t.nextEntry = some i) : t.entryReady (t.entries.getD i (0, 0)) = true
    ∧ (i = t.head ∨ (t.wfill = true ∧ entKind (t.entries.getD i (0, 0)) = 2 ∧ t.head < i ∧ i ∉ t.ahead)) := by
  unfold Itin.nextEntry at h
  split at h
  · next hready =>
    cases h
    exact ⟨hready, .inl rfl⟩
  · unfold Itin.fillEntry at h
    split at h
    · cases h
    · next hfill =>
      have hin : i ∈ t.window := List.mem_of_find?_eq_some h
      have hsome := List.find?_some h
      simp only [Bool.and_eq_true, beq_iff_eq, Bool.not_eq_true', List.contains_eq_mem, decide_eq_false_iff_not] at hsome
      obtain ⟨⟨⟨hkind, hahead⟩, hready⟩, -⟩ := hsome
      have hlater : t.head < i := of_decide_eq_true (List.mem_filter.1 ((List.takeWhile_sublist _).subset hin)).2
      refine ⟨hready, .inr ⟨?_, hkind, hlater, hahead⟩⟩
      by_contra hw
      exact hfill (by simp [hw])

/-! ### An entry that has been dispatched (R158) -/

theorem Itin.skip_frame (t : Itin) (n : Nat) : ∃ h a, t.skip n = { t with head := h, ahead := a } ∧ t.head ≤ h := by
  induction n generalizing t with
  | zero => exact ⟨_, _, rfl, le_rfl⟩
  | succ n ih =>
    unfold Itin.skip
    split
    · obtain ⟨h, a, heq, hle⟩ := ih { t with head := t.head + 1, ahead := t.ahead.filter (· ≠ t.head) }
      exact ⟨h, a, heq, Nat.le_of_succ_le hle⟩
    · exact ⟨_, _, rfl, le_rfl⟩

/-- The head moves on from an entry that was the head; a later entry is noted. -/
theorem Itin.passed_frame (t : Itin) (i : Nat) : ∃ h a, t.passed i = { t with head := h, ahead := a }
    ∧ (i = t.head → t.head < h) ∧ (i ≠ t.head → h = t.head ∧ a = t.ahead ++ [i]) := by
  unfold Itin.passed
  split
  · next hi =>
    obtain ⟨h, a, heq, hle⟩ := Itin.skip_frame { t with head := t.head + 1 } t.entries.length
    exact ⟨h, a, heq, fun _ => hle, fun hn => absurd hi hn⟩
  · next hi => exact ⟨_, _, rfl, fun h => absurd h hi, fun _ => ⟨rfl, rfl⟩⟩

/-! ### A task that starts (R160, R161) -/

/-- The task of an entry. -/
def Itin.newTask (t : Itin) (i : Nat) (e : Entry) (serial : Nat) : Task :=
  { slot := t.freeRecord, entry := i, kind := entKind e, mb := entMb e, serial := serial, nout := entOut e
    resBase := if entKind e = 0 then t.resA else t.resG, posts := 0, usedA := entNua e, usedG := entNdg e, freeAtEnd := entStop e == 2 }

/-- The sequencer once an entry's credits, stash and task are taken. -/
def Itin.taking (t : Itin) (i : Nat) (e : Entry) (stash : List (Option Nat)) (serial : Nat) : Itin :=
  { t with consA := t.consA + b2n (entNua e), consG := t.consG + b2n (entNdg e)
           resA := if entKind e = 0 then t.resA + entOut e else t.resA, resG := if entKind e = 1 then t.resG + entOut e else t.resG
           stash := stash, tasks := t.tasks ++ [t.newTask i e serial], dispatched := t.dispatched + 1, stalled := false }

/-- An entry has been dispatched as a task of a launch. -/
def Itin.Dispatched (t : Itin) (i : Nat) (e : Entry) (stash : List (Option Nat)) (serial : Nat) (u : Itin) : Prop :=
  (∃ x, u.tasks = t.tasks ++ [x] ∧ x.slot = t.freeRecord ∧ x.entry = i ∧ x.mb = entMb e ∧ x.serial = serial
      ∧ x.nout = entOut e ∧ x.resBase = (if entKind e = 0 then t.resA else t.resG))
  ∧ u.stash = stash ∧ u.dispatched = t.dispatched + 1
  ∧ u.consA = t.consA + (if entNua e then 1 else 0) ∧ u.consG = t.consG + (if entNdg e then 1 else 0)
  ∧ u.resA = t.resA + (if entKind e = 0 then entOut e else 0) ∧ u.resG = t.resG + (if entKind e = 1 then entOut e else 0)
  ∧ (i = t.head → t.head < u.head) ∧ (i ≠ t.head → u.head = t.head ∧ u.ahead = t.ahead ++ [i])

theorem Itin.taking_dispatched (t : Itin) (i : Nat) (e : Entry) (stash : List (Option Nat)) (serial : Nat) :
    t.Dispatched i e stash serial ((t.taking i e stash serial).passed i) := by
  obtain ⟨h, a, heq, hhead, hlater⟩ := (t.taking i e stash serial).passed_frame i
  rw [heq]
  have hres : ∀ (p : Prop) [Decidable p] (r n : Nat), (if p then r + n else r) = r + if p then n else 0 := fun p _ r n => by
    split <;> rfl
  exact ⟨⟨_, rfl, rfl, rfl, rfl, rfl, rfl, rfl⟩, rfl, rfl, rfl, rfl, hres _ _ _, hres _ _ _, hhead, hlater⟩

theorem State.handTask_launches (s : State) (l : Launch) (slot : Nat) : (s.handTask l slot).launches.length = s.launches.length :=
  List.length_map ..

/-- A task of a warm launch. -/
theorem State.startTask_warm (s : State) (c i : Nat) (e : Entry) (stash : List (Option Nat)) (l : Launch) :
    s.itin.Dispatched i e stash l.serial (s.startTask c i e stash (.inl l)).itin
    ∧ (s.startTask c i e stash (.inl l)).launches.length = s.launches.length :=
  ⟨s.itin.taking_dispatched i e stash l.serial, State.handTask_launches ..⟩

section enterLaunch
variable (s : State) (c : Nat) (lva : W64) (r : LaunchRec) (die : Option Nat) (extra : List Dep) (cmd : Option (Nat × Nat × Nat))
  (itn : Option Nat)

/-- A launch that enters leaves the sequencer alone. -/
theorem State.enterLaunch_itin : (s.enterLaunch c lva r die extra cmd itn).itin = s.itin := by
  unfold State.enterLaunch
  dsimp only
  obtain ⟨ps, n, h⟩ := State.joinPipe_frame (State.setCtx { s with launches := _ } c _) c (s.ctx c).nextSerial r
  rw [h]
  rfl

theorem State.enterLaunch_launches : (s.enterLaunch c lva r die extra cmd itn).launches.length = s.launches.length + 1 := by
  unfold State.enterLaunch
  dsimp only
  obtain ⟨ps, n, h⟩ := State.joinPipe_frame (State.setCtx { s with launches := _ } c _) c (s.ctx c).nextSerial r
  rw [h]
  exact List.length_append

end enterLaunch

/-- A task of a new launch. -/
theorem State.startTask_new (s : State) (c i : Nat) (e : Entry) (stash : List (Option Nat)) (r : LaunchRec) :
    s.itin.Dispatched i e stash (s.ctx c).nextSerial (s.startTask c i e stash (.inr r)).itin
    ∧ (s.startTask c i e stash (.inr r)).launches.length = s.launches.length + 1 := by
  have hdisp := s.itin.taking_dispatched i e stash (s.ctx c).nextSerial
  generalize hs1 : s.withItin ((s.itin.taking i e stash (s.ctx c).nextSerial).passed i) = s1
  have hitin : s1.itin = (s.itin.taking i e stash (s.ctx c).nextSerial).passed i := hs1 ▸ rfl
  have hlen : s1.launches.length = s.launches.length := hs1 ▸ rfl
  have hlaunch := s1.enterLaunch_itin c (s.itin.ktab (entKidx e)) r none [] none (some (entKidx e))
  have hone := s1.enterLaunch_launches c (s.itin.ktab (entKidx e)) r none [] none (some (entKidx e))
  generalize hs2 : s1.enterLaunch c (s.itin.ktab (entKidx e)) r none [] none (some (entKidx e)) = s2 at hlaunch hone
  have hstart : s.startTask c i e stash (.inr r) = match s2.launch? c (s.ctx c).nextSerial with
      | some l => s2.setLaunch { l with task := some s.itin.freeRecord }
      | none => s2 := by
    rw [← hs2, ← hs1]
    rfl
  rw [hitin] at hlaunch
  rw [hlen] at hone
  rw [hstart]
  split
  · exact ⟨hlaunch ▸ hdisp, (List.length_map ..).trans hone⟩
  · exact ⟨hlaunch ▸ hdisp, hone⟩

/-! ### The dispatch of an entry (R160, R161, R168) -/

theorem State.dispatching_runs (h : s.dispatching = true) : s.itinRuns = true := (Bool.and_eq_true_iff.1 h).1

theorem State.itinRuns_st (h : s.itinRuns = true) : s.itin.st = 1 := by
  rw [State.itinRuns] at h
  exact beq_iff_eq.1 (Bool.and_eq_true_iff.1 (Bool.and_eq_true_iff.1 h).1).2

theorem execItineraryDispatch_next (hb : s.itin.bound = some c) (hi : s.itin.nextEntry = some i) (hd : s.dispatching = true) :
    execItineraryDispatch s = .next (s.dispatchEntry c i) := by
  unfold execItineraryDispatch
  simp only [hb, hi, hd, if_true]

/-- The sequencer has stopped at an entry that it did not dispatch. -/
def Itin.Refused (t : Itin) (i code : Nat) (u : Itin) : Prop :=
  u.st = 3 ∧ u.err = code ∧ u.errEntry = i ∧ u.head = t.head ∧ u.tasks = t.tasks

theorem State.itinError_refused (h : s.itin.st = 1) (code i : Nat) : s.itin.Refused i code (s.itinError code i).itin := by
  rw [State.itinError_itin h]
  exact ⟨rfl, rfl, rfl, rfl, rfl⟩

/-- The state in which an entry's record is written: a new launch has read its kernel's record. -/
def State.taskSite (s : State) (c : Nat) (e : Entry) : State :=
  if (s.warmOf (entKidx e)).isSome then s else s.noteRead c (s.itin.ktab (entKidx e)) 64

theorem State.taskSite_memOnly (s : State) (c : Nat) (e : Entry) : s.MemOnly (s.taskSite c e) :=
  ite_keeps (P := s.MemOnly) (.refl s) (s.noteRead_memOnly ..)

/-- Where an entry's task runs: a warm launch, or a new one. -/
def State.taskHome (s : State) (c : Nat) (e : Entry) : Option (Launch ⊕ LaunchRec) :=
  match s.warmOf (entKidx e) with
  | some l => some (.inl l)
  | none => (s.kernelRec c (entKidx e)).map .inr

theorem State.taskHome_none (hl : s.warmOf (entKidx e) = none) (hr : s.kernelRec c (entKidx e) = none) : s.taskHome c e = none := by
  rw [State.taskHome, hl, hr]
  rfl

theorem State.taskHome_isSome (h : (s.warmOf (entKidx e)).isSome = true ∨ (s.kernelRec c (entKidx e)).isSome = true) :
    (s.taskHome c e).isSome = true := by
  unfold State.taskHome
  split
  · rfl
  · next hl => simpa [hl] using h

section dispatchEntry
variable (he : s.itin.entries.getD i (0, 0) = e)
include he

theorem State.dispatchEntry_stash {code : Nat} (hs : s.itin.stashStep e = .error code) :
    s.dispatchEntry c i = s.itinError code i := by
  subst he
  simp only [State.dispatchEntry, hs]

variable {mine : Option Nat} {st : List (Option Nat)} (hs : s.itin.stashStep e = .ok (mine, st))
include hs

theorem State.dispatchEntry_kernel (hh : s.taskHome c e = none) : s.dispatchEntry c i = s.itinError 3 i := by
  subst he
  unfold State.taskHome at hh
  simp only [State.dispatchEntry, hs]
  split
  · rfl
  · next h heq => exact absurd (heq.symm.trans hh) (Option.some_ne_none h)

variable {home : Launch ⊕ LaunchRec} (hh : s.taskHome c e = some home)
include hh

theorem State.dispatchEntry_record
    (hw : (s.taskSite c e).vaWrite c ((s.taskSite c e).taskVa s.itin.freeRecord) ((s.taskSite c e).taskRecord i e mine) = none) :
    s.dispatchEntry c i = (s.taskSite c e).itinError 6 i := by
  subst he
  unfold State.taskHome at hh
  unfold State.taskSite at hw ⊢
  split at hh
  · next l hl =>
    simp only [hl, Option.isSome_some, if_true] at hw ⊢
    simp only [State.dispatchEntry, hs, hl, hw]
  · next hl =>
    obtain ⟨r, hr, rfl⟩ := Option.map_eq_some_iff.1 hh
    simp only [hl, Option.isSome_none, Bool.false_eq_true, if_false] at hw ⊢
    simp only [State.dispatchEntry, hs, hl, hr, Option.map_some, hw]

theorem State.dispatchEntry_starts {s1 : State}
    (hw : (s.taskSite c e).vaWrite c ((s.taskSite c e).taskVa s.itin.freeRecord) ((s.taskSite c e).taskRecord i e mine) = some s1) :
    s.dispatchEntry c i = s1.startTask c i e st home := by
  subst he
  unfold State.taskHome at hh
  unfold State.taskSite at hw
  split at hh
  · next l hl =>
    cases hh
    simp only [hl, Option.isSome_some, if_true] at hw
    simp only [State.dispatchEntry, hs, hl, hw]
  · next hl =>
    obtain ⟨r, hr, rfl⟩ := Option.map_eq_some_iff.1 hh
    simp only [hl, Option.isSome_none, Bool.false_eq_true, if_false] at hw
    simp only [State.dispatchEntry, hs, hl, hr, Option.map_some, hw]

end dispatchEntry

end Sys2Proof.Machine
end

section
/-! SUPPORT of O44. SYNC, STEPEND and its acknowledgements, the control block, and a stall (R155, R163, R164, R166, R168, R181). -/

namespace Sys2Proof.Machine
variable {s : State} {t : Itin}

/-! ### SYNC (R163) -/

/-- The sequencer once the token from above has come. -/
def Itin.tokenTaken (t : Itin) : Itin := { t with syncPhase := 1, stalled := false }

/-- The sequencer once SYNC has ended. -/
def Itin.synced (t : Itin) (n : Nat) : Itin := { t.passed t.head with syncs := n, syncPhase := 0, stalled := false }

theorem Itin.synced_spec (t : Itin) (n : Nat) : (t.synced n).syncs = n ∧ (t.synced n).syncPhase = 0 ∧ t.head < (t.synced n).head
    ∧ (t.synced n).st = t.st ∧ (t.synced n).err = t.err := by
  obtain ⟨h, a, heq, hhead, -⟩ := t.passed_frame t.head
  rw [Itin.synced, heq]
  exact ⟨rfl, rfl, hhead rfl, rfl, rfl⟩

/-- The token from below of the package at the tail is its own. -/
theorem State.setOwnSyncb_itin (s : State) (n : Nat) : (s.setOwnSyncb n).itin = { s.itin with syncb := BitVec.ofNat 64 n } := by
  have hm : s.MemOnly ((s.vaWrite (s.itin.bound.getD 0) (BitVec.ofNat 64 (s.itin.ctlva + 0x418)) (leBytes 8 n)).getD s) :=
    State.vaWrite_getD_memOnly ..
  rw [State.setOwnSyncb, hm.itin]

/-- A sequencer that does not dispatch, or has a task, takes no step of SYNC or STEPEND. -/
theorem execSync_stays (h : s.dispatching = false ∨ s.itin.tasks ≠ []) : execSync s = .next s := by
  refine congrArg _ (if_pos ?_)
  rcases h with h | h
  · simp [h]
  · simp [h]

theorem execStepend_stays (h : s.dispatching = false ∨ s.itin.tasks ≠ []) : execStepend s = .next s := by
  refine congrArg _ (if_pos ?_)
  rcases h with h | h
  · simp [h]
  · simp [h]

section sync
variable (hd : s.dispatching = true) (ht : s.itin.tasks = []) (hk : entKind s.itin.headEntry = 3)
include hd ht hk

/-- A drained SYNC at the head takes its next step. -/
theorem execSync_steps : execSync s = .next (
    if s.itin.syncPhase = 0 then
      if s.itin.hasUp && decide (s.itin.syncf.toNat < s.itin.syncs + 1) then s
      else if s.itin.hasDown then
        (s.withItin s.itin.tokenTaken).sendControl ctlCore none s.itin.dpeer (s.itin.dnctlva + 0x410) false (s.itin.syncs + 1)
      else (s.withItin s.itin.tokenTaken).setOwnSyncb (s.itin.syncs + 1)
    else if s.itin.syncb.toNat < s.itin.syncs + 1 then s
    else
      let s1 := if s.itin.hasUp then
        s.sendControl ctlCore none s.itin.upeer (s.itin.upctlva + 0x418) false (s.itin.syncs + 1) else s
      s1.withItin (s1.itin.synced (s.itin.syncs + 1))) :=
  congrArg _ (if_neg (by simp [hd, ht, hk]))

section fromAbove
variable (hp : s.itin.syncPhase = 0)
include hp

theorem execSync_waitsAbove (hu : s.itin.hasUp = true) (hf : s.itin.syncf.toNat < s.itin.syncs + 1) : execSync s = .next s := by
  rw [execSync_steps hd ht hk, if_pos hp, if_pos (by rw [hu, decide_eq_true hf]; rfl)]

variable (hf : s.itin.hasUp = true → s.itin.syncs + 1 ≤ s.itin.syncf.toNat)
include hf

theorem execSync_sendsDown (hdown : s.itin.hasDown = true) : execSync s = .next
    ((s.withItin s.itin.tokenTaken).sendControl ctlCore none s.itin.dpeer (s.itin.dnctlva + 0x410) false (s.itin.syncs + 1)) := by
  have hcome : ¬ (s.itin.hasUp && decide (s.itin.syncf.toNat < s.itin.syncs + 1)) = true := by simpa using hf
  rw [execSync_steps hd ht hk, if_pos hp, if_neg hcome, if_pos hdown]

theorem execSync_turns (hdown : s.itin.hasDown = false) :
    execSync s = .next ((s.withItin s.itin.tokenTaken).setOwnSyncb (s.itin.syncs + 1)) := by
  have hcome : ¬ (s.itin.hasUp && decide (s.itin.syncf.toNat < s.itin.syncs + 1)) = true := by simpa using hf
  rw [execSync_steps hd ht hk, if_pos hp, if_neg hcome, if_neg (Bool.eq_false_iff.1 hdown)]

end fromAbove

section fromBelow
variable (hp : s.itin.syncPhase ≠ 0)
include hp

theorem execSync_waitsBelow (hb : s.itin.syncb.toNat < s.itin.syncs + 1) : execSync s = .next s := by
  rw [execSync_steps hd ht hk, if_neg hp, if_pos hb]

variable (hb : s.itin.syncs + 1 ≤ s.itin.syncb.toNat)
include hb

theorem execSync_endsHead (hu : s.itin.hasUp = false) : execSync s = .next (s.withItin (s.itin.synced (s.itin.syncs + 1))) := by
  rw [execSync_steps hd ht hk, if_neg hp, if_neg (not_lt.2 hb), if_neg (Bool.eq_false_iff.1 hu)]

theorem execSync_sendsUp (hu : s.itin.hasUp = true) {s1 : State}
    (hs : s.sendControl ctlCore none s.itin.upeer (s.itin.upctlva + 0x418) false (s.itin.syncs + 1) = s1) :
    execSync s = .next (s1.withItin (s1.itin.synced (s.itin.syncs + 1))) := by
  rw [execSync_steps hd ht hk, if_neg hp, if_neg (not_lt.2 hb), if_pos hu, hs]

end fromBelow
end sync

theorem execStepend_sends (hd : s.dispatching = true) (ht : s.itin.tasks = []) (hk : entKind s.itin.headEntry = 4)
    (hn : s.itin.stepSent = false) :
    execStepend s = .next { s with itin := { s.itin with stepSent := true, acks := [], stalled := false } } :=
  congrArg _ (if_neg (by simp [hd, ht, hk, hn]))

/-! ### The acknowledgements of STEPEND (R164, R181) -/

/-- A die that may acknowledge a step has no store of it left to complete. -/
theorem State.mayAck_stores {die n : Nat} (h : s.mayAck die n = true) {a : Access} (ha : a ∈ s.accs) (hd : dieOf a.core = die)
    (hw : a.kind.writes = true) (hs : a.step ≤ n) {l : LaneAcc} (hl : l ∈ a.lanes) : l.closed = true := by
  simp only [State.mayAck, Bool.and_eq_true, Bool.not_eq_true', List.any_eq_false] at h
  obtain ⟨⟨⟨⟨⟨hstores, -⟩, -⟩, -⟩, -⟩, -⟩ := h
  have hno := hstores a ha
  rw [storeOpen, hd, hw, decide_eq_true hs, beq_self_eq_true] at hno
  by_contra hopen
  exact hno (List.any_eq_true.2 ⟨l, hl, by simpa using hopen⟩)

/-- A die that may acknowledge a step has no engine command of it left. -/
theorem State.mayAck_cmds {die n : Nat} (h : s.mayAck die n = true) {k : EngCmd} (hk : k ∈ s.cmds) (hd : dieOf k.core = die) :
    n < k.step := by
  simp only [State.mayAck, Bool.and_eq_true, Bool.not_eq_true', List.any_eq_false] at h
  obtain ⟨⟨⟨⟨⟨-, hcmds⟩, -⟩, -⟩, -⟩, -⟩ := h
  have hno := hcmds k hk
  rw [engineOpen, hd, beq_self_eq_true, Bool.true_and, decide_eq_true_eq] at hno
  exact not_le.1 hno

section ack
variable {die : Nat} (hr : s.itinRuns = true) (hs : s.itin.stepSent = true) (hd : die < 4) (hn : die ∉ s.itin.acks)

theorem execStependAck_stays (h : s.mayAck die s.stepCtr.toNat = false) : execStependAck die s = .next s :=
  congrArg _ (if_pos (by simp [h]))

include hr hs hd hn

theorem execStependAck_acks (h : s.mayAck die s.stepCtr.toNat = true) : execStependAck die s = .next (
    let s1 := s.withItin { s.itin with acks := s.itin.acks ++ [die], stalled := false }
    if s1.itin.acks.length < 4 then s1 else s1.advanceStep) :=
  congrArg _ (if_neg (by simp [hr, hs, hd, hn, h]))

end ack

/-- The machine at the next step, before the status block is written. -/
def State.atNextStep (s : State) : State :=
  { s with
    stepCtr := s.stepCtr + 1
    dieStep := s.dieStep.map fun _ => s.stepCtr + 1
    snap := { s.snap with acked := max s.snap.acked s.stepCtr.toNat }
    pipes := s.pipes.map fun (p : Pipe) => if s.itin.bound = some p.ctx ∧ p.started then p.select else p }

/-- The machine once the step's end is reported to the host. -/
def State.stepReported (s : State) : State := if s.itin.stepirq then s.raiseHvec else s

theorem State.stepReported_frame (s : State) : ∃ x, s.stepReported = { s with host := x } :=
  ite_keeps (P := fun t => ∃ x, t = { s with host := x }) ⟨_, rfl⟩ ⟨_, rfl⟩

/-- The fourth acknowledgement takes every die to the next step, and the sequencer to entry 0. -/
theorem State.advanceStep_spec (s : State) : s.advanceStep.stepCtr = s.stepCtr + 1
    ∧ (∀ d ∈ s.advanceStep.dieStep, d = s.stepCtr + 1)
    ∧ s.advanceStep.itin
        = { s.itin with upd := s.itin.upd + 1, head := 0, ahead := [], stepSent := false, acks := [], stalled := false }
    ∧ s.stepCtr.toNat ≤ s.advanceStep.snap.acked := by
  have hm := s.atNextStep.writeStatus_memOnly
  have hacked := s.atNextStep.writeStatus_acked
  have hstep : s.advanceStep = s.atNextStep.writeStatus.stepReported.withItin
      { s.atNextStep.writeStatus.stepReported.itin with head := 0, ahead := [], stepSent := false, acks := [], stalled := false } := rfl
  generalize s.atNextStep.writeStatus = s2 at hm hacked hstep
  obtain ⟨x, hx⟩ := s2.stepReported_frame
  rw [hstep, hx]
  refine ⟨hm.stepCtr, fun d hd => ?_, ?_, ?_⟩
  · obtain ⟨x, -, rfl⟩ := List.mem_map.1 (hm.dieStep ▸ hd : d ∈ s.atNextStep.dieStep)
    rfl
  · show { s2.itin with head := 0, ahead := [], stepSent := false, acks := [], stalled := false } = _
    rw [hm.itin]
    rfl
  · exact (le_max_right _ _).trans_eq hacked.symm

/-! ### The control block (R155) -/

/-- The sequencer with the words of its control block. -/
def Itin.controlled (t : Itin) (bs : List Byte) : Itin :=
  { t with aarr := wordsOf bs 0 64, garr := wordsOf bs 0x200 64, dnfreed := BitVec.ofNat 64 (num bs 0x400 8)
           upfreed := BitVec.ofNat 64 (num bs 0x408 8), syncf := BitVec.ofNat 64 (num bs 0x410 8)
           syncb := BitVec.ofNat 64 (num bs 0x418 8) }

section control
variable {c : Nat} (hb : s.itin.bound = some c)
include hb

theorem State.readControl_reads {bs : List Byte} (h : s.vaRead c (BitVec.ofNat 64 s.itin.ctlva) 0x420 = some bs) :
    s.readControl = (s.noteRead c (BitVec.ofNat 64 s.itin.ctlva) 0x420).withItin (s.itin.rearm (s.itin.controlled bs)) := by
  unfold State.readControl
  simp only [hb, h, State.withItin, Itin.controlled]

theorem State.readControl_none (h : s.vaRead c (BitVec.ofNat 64 s.itin.ctlva) 0x420 = none) : s.readControl = s := by
  unfold State.readControl
  simp only [hb, h]

end control

theorem execControlBlockReread_runs (hr : s.itinRuns = true) : execControlBlockReread s = .next s.readControl := by
  rw [execControlBlockReread, if_pos hr]

/-! ### A stall (R168) -/

theorem execStallReport_stays (h : s.itin.stalled = true) : execStallReport s = .next s :=
  congrArg _ (if_pos (by simp [h]))

theorem execStallReport_reports (hr : s.itinRuns = true) (h : s.itin.stalled = false) : execStallReport s
    = .next (s.withItin { s.itin with counters := modAt s.itin.counters 7 (· + 1), stalled := true }).writeStatus.raiseHvec :=
  congrArg _ (if_neg (by simp [hr, h]))

end Sys2Proof.Machine
end

section
/-! PROOF of O44. The itinerary commands and the steps of the sequencer (R150-R168, R181). -/

namespace Sys2Proof.Machine
variable {s : State} {c i : Nat} {e : Entry}

/-! ### What a dispatch does (R160, R161, R168) -/

section dispatch
variable (hb : s.itin.bound = some c) (hi : s.itin.nextEntry = some i) (hd : s.dispatching = true)
include hb hi hd

/-- An entry whose dispatch is an error stops the sequencer; reading a kernel's record changes memory alone. -/
theorem itineraryDispatch_refuses {z : State} (hz : s.MemOnly z) {code : Nat} (h : s.dispatchEntry c i = z.itinError code i) :
    s.Does .itineraryDispatch fun v => s.itin.Refused i code v.itin := by
  refine ⟨_, execItineraryDispatch_next hb hi hd, ?_⟩
  rw [h, ← hz.itin]
  exact State.itinError_refused (hz.itin ▸ State.itinRuns_st (State.dispatching_runs hd)) code i

variable (he : s.itin.entries.getD i (0, 0) = e) {mine : Option Nat} {st : List (Option Nat)}
  (hs : s.itin.stashStep e = .ok (mine, st)) {s1 : State}
  (hw : (s.taskSite c e).vaWrite c ((s.taskSite c e).taskVa s.itin.freeRecord) ((s.taskSite c e).taskRecord i e mine) = some s1)
include he hs hw

/-- An entry whose record is written becomes a task of its kernel's warm launch. -/
theorem itineraryDispatch_warm {l : Launch} (hl : s.warmOf (entKidx e) = some l) : s.Does .itineraryDispatch fun v =>
    v.launches.length = s.launches.length ∧ s.itin.Dispatched i e st l.serial v.itin := by
  have hm := (s.taskSite_memOnly c e).trans (State.vaWrite_memOnly hw)
  have hhome : s.taskHome c e = some (.inl l) := by rw [State.taskHome, hl]
  obtain ⟨hdisp, hlen⟩ := s1.startTask_warm c i e st l
  refine ⟨_, execItineraryDispatch_next hb hi hd, ?_⟩
  rw [State.dispatchEntry_starts he hs hhome hw, ← hm.itin, ← hm.launches]
  exact ⟨hlen, hdisp⟩

/-- With no warm launch it becomes a task of a new one. -/
theorem itineraryDispatch_new (hl : s.warmOf (entKidx e) = none) {r : LaunchRec} (hr : s.kernelRec c (entKidx e) = some r) :
    s.Does .itineraryDispatch fun v =>
      v.launches.length = s.launches.length + 1 ∧ s.itin.Dispatched i e st (s.ctx c).nextSerial v.itin := by
  have hm := (s.taskSite_memOnly c e).trans (State.vaWrite_memOnly hw)
  have hhome : s.taskHome c e = some (.inr r) := by rw [State.taskHome, hl, hr]; rfl
  obtain ⟨hdisp, hlen⟩ := s1.startTask_new c i e st r
  refine ⟨_, execItineraryDispatch_next hb hi hd, ?_⟩
  rw [State.dispatchEntry_starts he hs hhome hw, ← hm.itin, ← hm.launches, ← hm.ctx]
  exact ⟨hlen, hdisp⟩

end dispatch

/-! ### What SYNC does (R163) -/

section sync
variable (hd : s.dispatching = true) (ht : s.itin.tasks = []) (hk : entKind s.itin.headEntry = 3)
include hd ht hk

section fromAbove
variable (hp : s.itin.syncPhase = 0) (hf : s.itin.hasUp = true → s.itin.syncs + 1 ≤ s.itin.syncf.toNat)
include hp hf

theorem sync_turns (hdown : s.itin.hasDown = false) : s.Does .sync fun v => v.itin.syncPhase = 1
    ∧ v.itin.syncb = BitVec.ofNat 64 (s.itin.syncs + 1) ∧ v.itin.head = s.itin.head := by
  refine ⟨_, execSync_turns hd ht hk hp hf hdown, ?_⟩
  dsimp only
  rw [State.setOwnSyncb_itin]
  exact ⟨rfl, rfl, rfl⟩

variable (hdown : s.itin.hasDown = true)
include hdown

theorem sync_sendsDown (h : s.fabErr (s.itin.bound.getD 0) s.itin.dpeer (lineOf (fabricVa s.itin.dpeer (s.itin.dnctlva + 0x410))) = none) :
    s.Does .sync fun v => v.itin.syncPhase = 1 ∧ v.itin.head = s.itin.head ∧ v.itin.st = s.itin.st
      ∧ v.SendsWord s.itin.dpeer (fabricVa s.itin.dpeer (s.itin.dnctlva + 0x410)) (s.itin.syncs + 1) := by
  obtain ⟨hitin, hword⟩ := State.sendControl_sends (s := s.withItin s.itin.tokenTaken) h (s.itin.syncs + 1)
  refine ⟨_, execSync_sendsDown hd ht hk hp hf hdown, ?_⟩
  dsimp only
  rw [hitin]
  exact ⟨rfl, rfl, rfl, hword⟩

theorem sync_failsDown
    (h : (s.fabErr (s.itin.bound.getD 0) s.itin.dpeer (lineOf (fabricVa s.itin.dpeer (s.itin.dnctlva + 0x410)))).isSome = true) :
    s.Does .sync fun v => v.itin.st = 3 ∧ v.itin.err = 4 := by
  have hitin := State.sendControl_fails (s := s.withItin s.itin.tokenTaken) h (State.itinRuns_st (State.dispatching_runs hd))
    (s.itin.syncs + 1)
  refine ⟨_, execSync_sendsDown hd ht hk hp hf hdown, ?_⟩
  dsimp only
  rw [hitin]
  exact ⟨rfl, rfl⟩

end fromAbove

section fromBelow
variable (hp : s.itin.syncPhase ≠ 0) (hb : s.itin.syncs + 1 ≤ s.itin.syncb.toNat)
include hp hb

theorem sync_ends (hu : s.itin.hasUp = false) : s.Does .sync fun v =>
    v.itin.syncs = s.itin.syncs + 1 ∧ v.itin.syncPhase = 0 ∧ s.itin.head < v.itin.head := by
  obtain ⟨hsyncs, hphase, hhead, -⟩ := s.itin.synced_spec (s.itin.syncs + 1)
  exact ⟨_, execSync_endsHead hd ht hk hp hb hu, hsyncs, hphase, hhead⟩

variable (hu : s.itin.hasUp = true)
include hu

theorem sync_sendsUp (h : s.fabErr (s.itin.bound.getD 0) s.itin.upeer (lineOf (fabricVa s.itin.upeer (s.itin.upctlva + 0x418))) = none) :
    s.Does .sync fun v => v.itin.syncs = s.itin.syncs + 1 ∧ v.itin.syncPhase = 0 ∧ s.itin.head < v.itin.head
      ∧ v.itin.st = s.itin.st ∧ v.SendsWord s.itin.upeer (fabricVa s.itin.upeer (s.itin.upctlva + 0x418)) (s.itin.syncs + 1) := by
  obtain ⟨hitin, hword⟩ := State.sendControl_sends h (s.itin.syncs + 1)
  obtain ⟨hsyncs, hphase, hhead, hst, -⟩ := s.itin.synced_spec (s.itin.syncs + 1)
  refine ⟨_, execSync_sendsUp hd ht hk hp hb hu rfl, ?_⟩
  rw [hitin]
  exact ⟨hsyncs, hphase, hhead, hst, hword⟩

theorem sync_failsUp
    (h : (s.fabErr (s.itin.bound.getD 0) s.itin.upeer (lineOf (fabricVa s.itin.upeer (s.itin.upctlva + 0x418)))).isSome = true) :
    s.Does .sync fun v => v.itin.st = 3 ∧ v.itin.err = 4 := by
  generalize hs1 : s.sendControl ctlCore none s.itin.upeer (s.itin.upctlva + 0x418) false (s.itin.syncs + 1) = s1
  have hitin := State.sendControl_fails h (State.itinRuns_st (State.dispatching_runs hd)) (s.itin.syncs + 1)
  obtain ⟨-, -, -, hst, herr⟩ := s1.itin.synced_spec (s.itin.syncs + 1)
  rw [hs1] at hitin
  refine ⟨_, execSync_sendsUp hd ht hk hp hb hu hs1, hst.trans ?_, herr.trans ?_⟩
  · rw [hitin]
  · rw [hitin]

end fromBelow
end sync

/-! ### Acknowledgements, the control block, and a stall (R155, R164, R168, R181) -/

section ack
variable {die : Nat} (hr : s.itinRuns = true) (hs : s.itin.stepSent = true) (hd : die < 4) (hn : die ∉ s.itin.acks)
  (h : s.mayAck die s.stepCtr.toNat = true)
include hr hs hd hn h

theorem stependAck_notes (hl : s.itin.acks.length < 3) : exec (.stependAck die) s
    = .next { s with itin := { s.itin with acks := s.itin.acks ++ [die], stalled := false } } := by
  refine (execStependAck_acks hr hs hd hn h).trans (congrArg _ (if_pos ?_))
  show (s.itin.acks ++ [die]).length < 4
  rw [List.length_append, List.length_singleton]
  omega

/-- The fourth acknowledgement advances the step. -/
theorem stependAck_advances (hl : s.itin.acks.length = 3) : s.Does (.stependAck die) fun v =>
    v.stepCtr = s.stepCtr + 1 ∧ (∀ d ∈ v.dieStep, d = s.stepCtr + 1) ∧ v.itin.head = 0 ∧ v.itin.stepSent = false ∧ v.itin.acks = []
      ∧ v.itin.upd = s.itin.upd + 1 ∧ s.stepCtr.toNat ≤ v.snap.acked := by
  have hfour : ¬ (s.itin.acks ++ [die]).length < 4 := by
    rw [List.length_append, List.length_singleton]
    omega
  obtain ⟨hctr, hdie, hitin, hacked⟩ :=
    (s.withItin { s.itin with acks := s.itin.acks ++ [die], stalled := false }).advanceStep_spec
  refine ⟨_, (execStependAck_acks hr hs hd hn h).trans (congrArg _ (if_neg hfour)), hctr, hdie, ?_⟩
  rw [hitin]
  exact ⟨rfl, rfl, rfl, rfl, hacked⟩

end ack

theorem stallReport_reports (hr : s.itinRuns = true) (h : s.itin.stalled = false) :
    s.Does .stallReport fun v => v.itin.counters[7]? = (s.itin.counters[7]?).map (· + 1) ∧ v.itin.upd = s.itin.upd + 1
      ∧ v.itin.st = 1 ∧ v.itin.stalled = true ∧ .msix s.itin.hvec ∈ v.host.out := by
  have hst := State.itinRuns_st hr
  have hitin := (s.withItin { s.itin with counters := modAt s.itin.counters 7 (· + 1), stalled := true }).writeStatus_itin
  refine ⟨_, execStallReport_reports hr h, ?_⟩
  generalize State.writeStatus _ = s2 at hitin
  show s2.itin.counters[7]? = _ ∧ s2.itin.upd = _ ∧ s2.itin.st = 1 ∧ s2.itin.stalled = true ∧ _ ∈ .msix s2.itin.hvec :: s2.host.out
  rw [hitin]
  refine ⟨?_, rfl, hst, rfl, List.mem_cons_self⟩
  show (modAt s.itin.counters 7 (· + 1))[7]? = _
  rw [getElem?_modAt, if_pos rfl]

/-- Settles O44: each command acts in the state in which it has begun, and each step of the sequencer by the case of its entry. -/
theorem itineraryCommandsAndSteps : Obligations.ItineraryCommandsAndSteps := by
  unfold Obligations.ItineraryCommandsAndSteps
  refine ⟨fun s c q k rest h => ?commands, fun s => ⟨fun c i hb hi hd => ?dispatch, fun ⟨hd, ht⟩ hk => ?sync,
    fun ⟨hd, ht⟩ hk hn => execStepend_sends hd ht hk hn, fun hno => ⟨execSync_stays hno, execStepend_stays hno⟩,
    fun die hdie hr hs hn => ⟨fun hmay => ?acks, execStependAck_stays⟩, fun c hr hb => ?reread,
    fun hr _ hst => stallReport_reports hr hst, execStallReport_stays⟩⟩
  case commands =>
    refine ⟨fun hs => ⟨fun hb => stepCommand_fails (execStepLoad_barred h hs (State.loadBarred_of hb)), fun he hst hva h1 hn => ?load⟩,
      fun hs => ⟨fun hb => stepCommand_fails (execStepStart_refused h hs hb), fun hl hst ht => ?start⟩,
      fun hs hn => ⟨fun he => stepCommand_fails ((execStepStop_starts h hs hn).trans (congrArg _ (if_pos he))),
        fun he hb => stepStop_idle h hs hn he hb, fun he hb hst => ?stop⟩⟩
    case load =>
      have hbar := State.loadBarred_eq_false he hst hva
      refine ⟨fun hr => stepCommand_fails (execStepLoad_faults h hs hbar h1 hn hr), fun hd es hhd hes =>
        ⟨fun hh => stepLoad_badHeader h hs hbar h1 hn hhd hes hh, fun hh e he => stepLoad_badEntry h hs hbar h1 hn hhd hes hh he,
          fun hh he => ?_⟩⟩
      obtain ⟨v, hv, hgone, hitin⟩ := stepLoad_binds h hs hbar h1 hn hhd hes hh he
      refine ⟨v, hv, hgone, ?_⟩
      rw [hitin]
      exact ⟨rfl, rfl, rfl, rfl, length_entriesOf .., rfl, rfl, rfl, rfl⟩
    case start =>
      obtain ⟨v, hv, hgone, ⟨a, g, dn, up, sf, sb, st, hitin⟩, hctr, hdie⟩ := stepStart_starts h hs hl hst ht
      refine ⟨v, hv, hgone, ?_⟩
      rw [hitin]
      exact ⟨rfl, rfl, rfl, hctr, hdie, rfl, rfl, rfl, rfl, rfl, rfl⟩
    case stop =>
      have hbound : s.itin.bound ≠ none := hb ▸ Option.some_ne_none c
      exact ⟨fun ht hl => stepStop_ends h hs hn he hbound hst ht hl, fun ht => stepStop_waits h hs hn he hbound hst ht⟩
  case dispatch =>
    obtain ⟨hready, hwhich⟩ := Itin.nextEntry_spec hi
    obtain ⟨hkind, hroom, hact, hgrad, hcredit⟩ := Itin.entryReady_spec hready
    refine ⟨hwhich, hkind, hroom, hact, hgrad, hcredit, fun h1 hmine => ?_, fun h2 hmine => ?_, fun mine st hs => ?_⟩
    · refine itineraryDispatch_refuses hb hi hd (.refl s) (State.dispatchEntry_stash rfl ?_)
      simp only [Itin.stashStep, h1, hmine, if_true]
    · refine itineraryDispatch_refuses hb hi hd (.refl s) (State.dispatchEntry_stash rfl ?_)
      simp only [Itin.stashStep, h2, hmine, Option.isNone_none, if_true]
    · refine ⟨fun hl hr => ?_, fun hhome hw => ?_, fun s1 hw => ⟨fun l hl => ?_, fun hl r hr => ?_⟩⟩
      · exact itineraryDispatch_refuses hb hi hd (.refl s) (State.dispatchEntry_kernel rfl hs (State.taskHome_none hl hr))
      · obtain ⟨home, hhome⟩ := Option.isSome_iff_exists.1 (State.taskHome_isSome hhome)
        exact itineraryDispatch_refuses hb hi hd (s.taskSite_memOnly c _) (State.dispatchEntry_record rfl hs hhome hw)
      · exact itineraryDispatch_warm hb hi hd rfl hs hw hl
      · exact itineraryDispatch_new hb hi hd rfl hs hw hl hr
  case sync =>
    refine ⟨fun hp hu hf => execSync_waitsAbove hd ht hk hp hu hf, fun hp hu hdown => sync_turns hd ht hk hp (fun h => ?_) hdown,
      fun hp hf hdown => ⟨sync_sendsDown hd ht hk hp hf hdown, sync_failsDown hd ht hk hp hf hdown⟩,
      fun hp _ hf hdown => sync_turns hd ht hk hp (fun _ => hf) hdown, execSync_waitsBelow hd ht hk, sync_ends hd ht hk,
      fun hp hb hu => ⟨sync_sendsUp hd ht hk hp hb hu, sync_failsUp hd ht hk hp hb hu⟩⟩
    exact absurd (hu.symm.trans h) Bool.false_ne_true
  case acks =>
    exact ⟨fun a ha hcore hw hstep l hl => State.mayAck_stores hmay ha hcore hw hstep hl, fun k hk hcore => State.mayAck_cmds hmay hk hcore,
      stependAck_notes hr hs hdie hn hmay, stependAck_advances hr hs hdie hn hmay⟩
  case reread =>
    have hruns := execControlBlockReread_runs hr
    refine ⟨fun bs hbs => ⟨_, hruns.trans (congrArg _ (State.readControl_reads hb hbs)), rfl, rfl, rfl, rfl, rfl, rfl, rfl, rfl⟩,
      fun hbs => hruns.trans (congrArg _ (State.readControl_none hb hbs))⟩

end Sys2Proof.Machine
end

section
/-! PROOF of O26. What performing a lane leaves: below the snapshot pages a write in its place, in one of them the frames of its unit; and the new
value of every atomic. -/

namespace Sys2Proof.Machine
variable {s : State}

/-! ### Bytes after a write -/

theorem map_fst_cellsFrom (k : Nat) (bs : List Byte) : (cellsFrom k bs).map Prod.fst = List.range' k bs.length := by
  induction bs generalizing k with
  | nil => rfl
  | cons b r ih => rw [cellsFrom, List.map_cons, ih, List.length_cons, List.range'_succ]

/-- A byte that no cell of a write names reads as before. -/
theorem State.write_sameBut (h : s.Inv) (cells : List Host.Cell) (tag : Nat) : s.SameBut (s.write cells tag) cells := by
  intro x hx
  have hne : ∀ c ∈ cells, c.1 ≠ x := fun c hc hk => hx (List.mem_map.2 ⟨c, hc, hk⟩)
  have hget : Memory.get (s.write cells tag).mem x = Memory.get s.mem x :=
    Memory.get_setAll_other _ _ _ h fun c hc => hne c (List.mem_filter.1 hc).1
  have hhamp : hampByte x (s.write cells tag).hamp = hampByte x s.hamp := by
    have hcell : cellAt x (cells.filter fun c => keyIsScm c.1) = none := cellAt_none _ _ fun c hc => hne c (List.mem_filter.1 hc).1
    rw [State.write, hampByte_append, hampByte_counters, hampByte_append, hampByte_entries, hcell]
  rw [State.byte, State.byte, hget, hhamp]

/-- The number that a write of its bytes leaves, whatever the step of the write. -/
theorem State.bytes_write_leBytes (h : s.Inv) (k n x tag : Nat) :
    ofLeBytes ((s.write (cellsFrom k (leBytes n x)) tag).bytes k n) = x % 2 ^ (8 * n) := by
  have hbyte : (s.write (cellsFrom k (leBytes n x)) tag).byte = (s.writeBytes k (leBytes n x)).byte := by
    funext y
    rw [State.writeBytes, State.byte_write s _ _ y h (nodup_cellsFrom ..), State.byte_write s _ _ y h (nodup_cellsFrom ..)]
  have hnat := State.nat_writeBytes_leBytes h k n x
  rw [State.nat, State.bytes, ← hbyte] at hnat
  rw [State.bytes, hnat, pow_mul]
  rfl

/-! ### Places below the snapshot pages -/

/-- `n` bytes from a place lie below the snapshot pages. -/
def PlainAt (k n : Nat) : Prop := k < 2 ^ 66 ∧ k + n ≤ 2 ^ 66

theorem keyIsSnap_eq_true {k : Nat} (h : 2 ^ 66 ≤ k) : keyIsSnap k = true := decide_eq_true h

theorem keyIsSnap_eq_false {k : Nat} (h : k < 2 ^ 66) : keyIsSnap k = false := decide_eq_false (Nat.not_le.2 h)

theorem physKey_plain {k : Nat} (h : k < 2 ^ 66) : s.physKey k = k := by
  rw [State.physKey, keyIsSnap_eq_false h]
  rfl

theorem State.rbytes_plain {k n : Nat} (h : PlainAt k n) : s.rbytes k n = s.bytes k n := by
  refine List.map_congr_left fun i hi => ?_
  have hlt : k + i < 2 ^ 66 := Nat.lt_of_lt_of_le (Nat.add_lt_add_left (List.mem_range.1 hi) k) h.2
  exact congrArg s.byte (physKey_plain hlt)

/-- A core with no access in flight reads what memory holds. -/
theorem State.coreBytes_plain {core k n : Nat} (h : PlainAt k n) (hno : ∀ b ∈ s.accs, b.core ≠ core) : s.coreBytes core k n = s.bytes k n := by
  have hmine : (s.accs.filter fun b => b.core == core && (b.kind == .store || b.kind == .sigSet)) = [] := by
    rw [List.filter_eq_nil_iff]
    intro b hb hc
    exact hno b hb (beq_iff_eq.1 (Bool.and_eq_true_iff.1 hc).1)
  have hnone : ∀ x, pendingByte core x s.accs = none := fun x => by rw [pendingByte, hmine]; rfl
  rw [← State.rbytes_plain h, State.coreBytes, State.rbytes]
  simp only [hnone]

/-- A state answers for a write of a number at `n` bytes: those hold it, every other byte is as before, and memory stays canonical. -/
def State.Stores (s t : State) (k n v : Nat) : Prop :=
  t.Inv ∧ s.SameBut t (cellsFrom k (leBytes n v)) ∧ ofLeBytes (t.bytes k n) = v % 2 ^ (8 * n)

variable {a : Access} {l : LaneAcc} {k : Nat}

/-- A write below the snapshot pages is performed where it is (R171, R411). -/
theorem State.performWrite_plain (hi : s.Inv) (h : PlainAt k a.size) (v data : Nat) :
    s.Stores (s.performWrite a l k v data).1 k a.size v ∧ (s.performWrite a l k v data).2 = { l with data := data, st := .done } := by
  have hcells : ∀ c ∈ cellsFrom k (leBytes a.size v), keyIsSnap c.1 = false := fun c hc => by
    obtain ⟨-, hlt⟩ := mem_cellsFrom hc
    rw [length_leBytes] at hlt
    exact keyIsSnap_eq_false (Nat.lt_of_lt_of_le hlt h.2)
  have hwrite : s.performWrite a l k v data = (s.write (cellsFrom k (leBytes a.size v)) a.step, { l with data := data, st := .done }) := by
    rw [State.performWrite, keyIsSnap_eq_false h.1, State.chanWrite_plain hcells]
    rfl
  rw [hwrite]
  exact ⟨⟨State.write_wf s _ _ hi, State.write_sameBut hi _ _, State.bytes_write_leBytes hi ..⟩, rfl⟩

/-! ### Snapshot pages -/

theorem unitAt_congr {x y : Nat} (h : x / 4096 = y / 4096) : s.unitAt x = s.unitAt y := by
  rw [State.unitAt, State.unitAt, h]

theorem openUnit_congr {x y : Nat} (h : x / 4096 = y / 4096) (st : Nat) : s.openUnit x st = s.openUnit y st := by
  rw [State.openUnit, State.openUnit, unitAt_congr h]

theorem distinct_constant {α : Type} [DecidableEq α] {x : α} {l : List α} (hne : l ≠ []) (h : ∀ y ∈ l, y = x) : distinct l = [x] := by
  cases l with
  | nil => exact absurd rfl hne
  | cons y r =>
    have hrest : ((distinct r).filter fun z => z ≠ x) = [] := by
      rw [List.filter_eq_nil_iff]
      intro z hz hzx
      exact of_decide_eq_true hzx (h z (List.mem_cons_of_mem _ (mem_distinct.1 hz)))
    rw [distinct, h y List.mem_cons_self, hrest]

section page
variable (hk : 2 ^ 66 ≤ k) {bs : List Byte} (hpage : k % 4096 + bs.length ≤ 4096)
include hk hpage

/-- The cells of a write inside one snapshot page all name that page. -/
theorem mem_pageCells {c : Host.Cell} (hc : c ∈ cellsFrom k bs) : keyIsSnap c.1 = true ∧ snapVa c.1 / 4096 = (k - 2 ^ 66) / 4096 := by
  obtain ⟨hle, hlt⟩ := mem_cellsFrom hc
  refine ⟨keyIsSnap_eq_true (Nat.le_trans hk hle), ?_⟩
  show (c.1 - 2 ^ 66) / 4096 = (k - 2 ^ 66) / 4096
  omega

theorem cellUnits_page (hne : bs ≠ []) : cellUnits (cellsFrom k bs) = [(k - 2 ^ 66) / 4096 * 4096] := by
  have hall : (cellsFrom k bs).filter (fun c => keyIsSnap c.1) = cellsFrom k bs :=
    List.filter_eq_self.2 fun c hc => (mem_pageCells hk hpage hc).1
  rw [cellUnits, hall]
  refine distinct_constant ?_ fun y hy => ?_
  · cases bs with
    | nil => exact absurd rfl hne
    | cons b r => exact List.cons_ne_nil _ _
  · obtain ⟨c, hc, rfl⟩ := List.mem_map.1 hy
    rw [(mem_pageCells hk hpage hc).2]

/-- A write inside one snapshot page goes to the frames of its unit, with a frame for the step first (R179). -/
theorem State.chanWrite_page {t : State} {st : Nat} (hne : bs ≠ []) (hst : s.snap.st ≠ 1) (ho : s.openUnit (k - 2 ^ 66) st = some t) :
    s.chanWrite (cellsFrom k bs) st = t.write (t.spread (cellsFrom k bs) st) st := by
  have hdecl : s.declares (cellsFrom k bs) = s := if_neg fun h => hst h.1
  have hbase : (k - 2 ^ 66) / 4096 * 4096 / 4096 = (k - 2 ^ 66) / 4096 := Nat.mul_div_cancel _ (by decide)
  have hopen : s.openUnits (cellsFrom k bs) st = t := by
    rw [State.openUnits, cellUnits_page hk hpage hne]
    show (s.openUnit ((k - 2 ^ 66) / 4096 * 4096) st).getD s = t
    rw [openUnit_congr hbase, ho]
    rfl
  rw [State.chanWrite, hdecl, hopen]

/-- What such a write names lies in a frame of the unit with a tag at or above the step (R179). -/
theorem State.mem_spread_page {t : State} {u : SnapUnit} {st x : Nat} (hu : t.unitAt (k - 2 ^ 66) = some u)
    (hx : x ∈ (t.spread (cellsFrom k bs) st).map Prod.fst) :
    x ∈ ((u.frames.filter fun f => st ≤ f.tag).flatMap fun f => cellsFrom (f.key + k % 4096) bs).map Prod.fst := by
  obtain ⟨d, hd, rfl⟩ := List.mem_map.1 hx
  obtain ⟨ds, hds, hmem⟩ := List.mem_flatten.1 hd
  obtain ⟨c, hc, rfl⟩ := List.mem_map.1 hds
  obtain ⟨hsnap, hunit⟩ := mem_pageCells hk hpage hc
  rw [hsnap, unitAt_congr hunit, hu] at hmem
  obtain ⟨f, hf, rfl⟩ := List.mem_map.1 hmem
  obtain ⟨hle, hlt⟩ := mem_cellsFrom hc
  have hin : f.key + c.1 % 4096 ∈ (cellsFrom (f.key + k % 4096) bs).map Prod.fst := by
    rw [map_fst_cellsFrom, List.mem_range'_1]
    omega
  rw [List.map_flatMap]
  exact List.mem_flatMap.2 ⟨f, hf, hin⟩

end page

/-- A store at a snapshot page that opens its unit writes the unit's frames from its step on, and no other byte (R179, R411). -/
theorem State.performLane_page {t : State} {u : SnapUnit} (hi : s.Inv) (hk : 2 ^ 66 ≤ k) (hkind : a.kind = .store) (hst : s.snap.st ≠ 1)
    (hpage : k % 4096 + a.size ≤ 4096) (hsize : 0 < a.size) (ho : s.openUnit (k - 2 ^ 66) a.step = some t) (ht : t.Inv)
    (hu : t.unitAt (k - 2 ^ 66) = some u) :
    (s.performLane a l k).2 = { l with st := .done } ∧ (s.performLane a l k).1.Inv
      ∧ t.SameBut (s.performLane a l k).1
          ((u.frames.filter fun f => a.step ≤ f.tag).flatMap fun f => cellsFrom (f.key + k % 4096) (leBytes a.size l.data)) := by
  have hlen : k % 4096 + (leBytes a.size l.data).length ≤ 4096 := by rwa [length_leBytes]
  have hne : leBytes a.size l.data ≠ [] := List.ne_nil_of_length_pos (by rwa [length_leBytes])
  have hwrite : s.performLane a l k
      = (t.write (t.spread (cellsFrom k (leBytes a.size l.data)) a.step) a.step, { l with st := .done }) := by
    have hopens : (keyIsSnap k && (s.openUnit (snapVa k) a.step).isNone) = false := by
      rw [show s.openUnit (snapVa k) a.step = some t from ho, Option.isNone_some, Bool.and_false]
    rw [State.performLane, hkind]
    simp only [State.performWrite, hopens, State.chanWrite_page hk hlen hne hst ho, Bool.false_eq_true, if_false]
  refine ⟨by rw [hwrite], State.performLane_inv hi, ?_⟩
  rw [hwrite]
  exact fun x hx => State.write_sameBut ht _ _ x fun hin => hx (State.mem_spread_page hk hlen hu hin)

/-- One whose unit has no frame for it changes nothing (R50, R179). -/
theorem State.performLane_noFrame (hk : 2 ^ 66 ≤ k) (hkind : a.kind = .store) (ho : s.openUnit (k - 2 ^ 66) a.step = none) :
    s.performLane a l k = (s, { l with st := if a.step ≤ s.snap.m then .bad .prot 0 else .replay 2 0 }) := by
  have hnone : (keyIsSnap k && (s.openUnit (snapVa k) a.step).isNone) = true := by
    rw [keyIsSnap_eq_true hk, show s.openUnit (snapVa k) a.step = none from ho]
    rfl
  rw [State.performLane, hkind]
  simp only [State.performWrite, hnone, hkind, AccKind.reads, if_true, Bool.false_eq_true, if_false]

/-! ### New values (R412, R414, R415) -/

/-- A signed number of 32 bits is the integer of its word. -/
theorem signedOf_eq_toInt (x : Nat) : signedOf 32 x = (BitVec.ofNat 32 x).toInt := by
  rw [signedOf, BitVec.toInt_eq_msb_cond, BitVec.msb_eq_getLsbD_last, BitVec.getLsbD, BitVec.toNat_ofNat]

theorem atomNew_signed (old b swap : Nat) :
    ((BitVec.ofNat 32 old).toInt ≤ (BitVec.ofNat 32 b).toInt → atomNew 3 old b swap = old ∧ atomNew 4 old b swap = b)
      ∧ ((BitVec.ofNat 32 b).toInt < (BitVec.ofNat 32 old).toInt → atomNew 3 old b swap = b ∧ atomNew 4 old b swap = old) := by
  simp only [atomNew, signedOf_eq_toInt]
  exact ⟨fun h => ⟨if_pos h, if_pos h⟩, fun h => ⟨if_neg (Int.not_le.2 h), if_neg (Int.not_le.2 h)⟩⟩

theorem atomNew_unsigned (old b swap : Nat) :
    (old ≤ b → atomNew 5 old b swap = old ∧ atomNew 6 old b swap = b ∧ atomNew 7 old b swap = old ∧ atomNew 8 old b swap = b)
      ∧ (b < old → atomNew 5 old b swap = b ∧ atomNew 6 old b swap = old ∧ atomNew 7 old b swap = b ∧ atomNew 8 old b swap = old) := by
  simp only [atomNew]
  exact ⟨fun h => ⟨min_eq_left h, max_eq_right h, min_eq_left h, max_eq_right h⟩,
    fun h => ⟨min_eq_right h.le, max_eq_left h.le, min_eq_right h.le, max_eq_left h.le⟩⟩

theorem atomNew_bits (old b swap i : Nat) :
    (atomNew 9 old b swap).testBit i = (old.testBit i && b.testBit i) ∧ (atomNew 10 old b swap).testBit i = (old.testBit i || b.testBit i)
      ∧ (atomNew 11 old b swap).testBit i = (old.testBit i != b.testBit i) :=
  ⟨Nat.testBit_and .., Nat.testBit_or .., Nat.testBit_xor ..⟩

theorem atomNew_swap (old b swap : Nat) :
    (old = b → atomNew 14 old b swap = swap ∧ atomNew 15 old b swap = swap)
      ∧ (old ≠ b → atomNew 14 old b swap = old ∧ atomNew 15 old b swap = old) :=
  ⟨fun h => ⟨if_pos h, if_pos h⟩, fun h => ⟨if_neg h, if_neg h⟩⟩

/-- Settles O26: reads leave the machine alone, a write below the snapshot pages is performed in its place, and one in a page of a unit in the
unit's frames; the new values by minor. -/
theorem performedLanesAndAtomics : Obligations.PerformedLanesAndAtomics := by
  unfold Obligations.PerformedLanesAndAtomics
  refine ⟨fun s a l k hi => ?_, fun old b swap _ _ => ?_⟩
  · have hread : (a.kind = .load ∨ (∃ c v, a.kind = .swait c v) ∨ a.kind = .fetch) →
        s.performLane a l k = (s, { l with data := ofLeBytes (s.coreBytes a.core k a.size), st := .done }) := by
      rintro (hk | ⟨c, v, hk⟩ | hk) <;> rw [State.performLane, hk]
    refine ⟨fun hk => ?_, fun hp hk => ?_, fun hp hk hsize => ?_, fun hp m ret hk => ?_, fun hk hkind => ⟨fun ho => ?_, ?_⟩⟩
    · rw [hread hk]
      exact ⟨rfl, rfl, State.coreBytes_plain⟩
    · have hwrite : s.performLane a l k = s.performWrite a l k l.data l.data := by
        rcases hk with hk | hk <;> rw [State.performLane, hk]
      rw [hwrite]
      exact State.performWrite_plain hi hp l.data l.data
    · have hwrite : s.performLane a l k = s.performWrite a l k ((s.rnat k 8 + l.data) % 2 ^ 64) l.data := by
        rw [State.performLane, hk]
      rw [hwrite, State.rnat, State.rbytes_plain (hsize ▸ hp : PlainAt k 8)]
      obtain ⟨hstores, hdone⟩ := State.performWrite_plain (l := l) hi hp ((ofLeBytes (s.bytes k 8) + l.data) % 2 ^ 64) l.data
      rw [hsize] at hstores ⊢
      exact ⟨hstores, hdone⟩
    · have hwrite : s.performLane a l k
          = s.performWrite a l k (atomNew m.toNat (s.rnat k a.size) l.data l.swap) (s.rnat k a.size) := by
        rw [State.performLane, hk]
      rw [hwrite, State.rnat, State.rbytes_plain hp]
      exact State.performWrite_plain hi hp _ _
    · rw [State.performLane_noFrame hk hkind ho]
      exact ⟨rfl, rfl⟩
    · intro t u hst hpage hsize ho ht hu
      exact State.performLane_page hi hk hkind hst hpage hsize ho ht hu
  · obtain ⟨hle, hlt⟩ := atomNew_unsigned old b swap
    obtain ⟨heq, hne⟩ := atomNew_swap old b swap
    exact ⟨rfl, rfl, fun _ _ => atomNew_signed old b swap, hle, hlt, atomNew_bits old b swap, rfl, rfl, heq, hne, rfl, rfl, rfl, rfl, rfl, rfl⟩

end Sys2Proof.Machine
end

section
/-! SUPPORT of O45. What accesses, the end of a command and the mend status block leave of the snapshot state: all but the map. -/

namespace Sys2Proof.Machine
variable {s t u : State}

/-! ### What accesses leave of the snapshot state (R177, R179, R191) -/

/-- A region but for the frames that its pools have left. -/
def Region.terms (r : Region) : Region := { r with free := [] }

/-- The snapshot state differs in the map alone: entries of units, free frames of the pools, and the count of status writes. Regions stay armed
as they are, and no unit is entered under a region that is not armed. -/
structure State.MapOnly (s t : State) : Prop where
  course : t.snap = { s.snap with regions := t.snap.regions, units := t.snap.units, upd := t.snap.upd }
  regions : t.snap.regions.map Region.terms = s.snap.regions.map Region.terms
  units : ∀ n, (∀ r ∈ s.snap.regions, r.num ≠ n) → (∀ x ∈ s.snap.units, x.region ≠ n) → ∀ x ∈ t.snap.units, x.region ≠ n

theorem State.MapOnly.of_eq (h : t.snap = s.snap) : s.MapOnly t := by
  refine ⟨?_, ?_, ?_⟩
  · rw [h]
  · rw [h]
  · rw [h]; exact fun _ _ hu => hu

theorem State.MapOnly.refl (s : State) : s.MapOnly s := .of_eq rfl

/-- A region of the later state is a region of the earlier one but for its free frames. -/
theorem State.MapOnly.region (h : s.MapOnly t) {r : Region} (hr : r ∈ t.snap.regions) : ∃ x ∈ s.snap.regions, x.terms = r.terms := by
  have hin : r.terms ∈ s.snap.regions.map Region.terms := h.regions ▸ List.mem_map_of_mem hr
  exact List.mem_map.1 hin

/-- A region of the earlier state is there still but for its free frames. -/
theorem State.MapOnly.keeps (h : s.MapOnly t) {r : Region} (hr : r ∈ s.snap.regions) : ∃ x ∈ t.snap.regions, x.terms = r.terms := by
  have hin : r.terms ∈ t.snap.regions.map Region.terms := h.regions ▸ List.mem_map_of_mem hr
  exact List.mem_map.1 hin

theorem Region.fields_of_terms {x r : Region} (h : x.terms = r.terms) :
    x.num = r.num ∧ x.ctx = r.ctx ∧ x.va = r.va ∧ x.len = r.len ∧ x.pools = r.pools := by
  simp only [Region.terms, Region.mk.injEq] at h
  obtain ⟨hnum, hctx, hva, hlen, hpools, -⟩ := h
  exact ⟨hnum, hctx, hva, hlen, hpools⟩

theorem State.MapOnly.nums (h : s.MapOnly t) {n : Nat} (hn : ∀ r ∈ s.snap.regions, r.num ≠ n) : ∀ r ∈ t.snap.regions, r.num ≠ n := by
  intro r hr
  obtain ⟨x, hx, he⟩ := h.region hr
  exact (Region.fields_of_terms he).1 ▸ hn x hx

theorem State.MapOnly.trans (h : s.MapOnly t) (k : t.MapOnly u) : s.MapOnly u := by
  refine ⟨?_, k.regions.trans h.regions, fun n hr hu => k.units n (h.nums hr) (h.units n hr hu)⟩
  rw [k.course, h.course]

section course
variable (h : s.MapOnly t)
include h

theorem State.MapOnly.c : t.snap.c = s.snap.c := by rw [h.course]
theorem State.MapOnly.m : t.snap.m = s.snap.m := by rw [h.course]
theorem State.MapOnly.awaits : t.snap.awaits = s.snap.awaits := by rw [h.course]
theorem State.MapOnly.group : t.snap.group = s.snap.group := by rw [h.course]

theorem State.MapOnly.isMember : t.isMember = s.isMember := by rw [State.isMember, State.isMember, h.group]

end course

/-- A relation of this kind for each step of a fold holds of the fold. -/
theorem State.MapOnly.foldl {α : Type} {f : State → α → State} (hf : ∀ (t : State) (x : α), t.MapOnly (f t x)) (l : List α) (s : State) :
    s.MapOnly (l.foldl f s) :=
  foldl_keeps s.MapOnly f (fun t x ht => ht.trans (hf t x)) l s (.refl s)

/-- The region is armed, or has an entry in the map. -/
def State.Names (s : State) (n : Nat) : Prop := (∃ r ∈ s.snap.regions, r.num = n) ∨ ∃ x ∈ s.snap.units, x.region = n

theorem State.holdUnit_mapOnly {x : SnapUnit} (hx : s.Names x.region) : s.MapOnly (s.holdUnit x) := by
  refine ⟨rfl, rfl, fun n hr hu y hy => ?_⟩
  rcases List.mem_append.1 hy with hy | hy
  · exact hu y (List.mem_filter.1 hy).1
  · rw [List.mem_singleton.1 hy]
    rcases hx with ⟨r, hin, he⟩ | ⟨z, hin, he⟩
    · exact he ▸ hr r hin
    · exact he ▸ hu z hin

theorem State.addMeta_snap (s : State) (stack : Nat) (d : HampMeta) : (s.addMeta stack d).snap = s.snap := s.makeRoom_snap stack 1 1

theorem State.setUnit_mapOnly {x : SnapUnit} (hx : s.Names x.region) : s.MapOnly (s.setUnit x) :=
  (State.holdUnit_mapOnly hx).trans (.of_eq (State.addMeta_snap ..))

theorem State.enterUnit_mapOnly {r : Region} (hr : r ∈ s.snap.regions) (va : W64) (home : Nat) : s.MapOnly (s.enterUnit r va home) := by
  unfold State.enterUnit
  split
  · exact .refl s
  · exact State.holdUnit_mapOnly (.inl ⟨r, hr, rfl⟩)

theorem State.mem_of_unitAt {va : Nat} {x : SnapUnit} (h : s.unitAt va = some x) : x ∈ s.snap.units := List.mem_of_find?_eq_some h

/-- A frame taken from a pool changes no region but for its free frames. -/
theorem State.takeFree_mapOnly (s : State) (n : Nat) (free : List (Nat × Nat)) :
    s.MapOnly { s with snap := { s.snap with regions := s.snap.regions.map fun q => if q.num = n then { q with free := free } else q } } := by
  refine ⟨rfl, ?_, fun _ _ hu => hu⟩
  rw [List.map_map]
  refine List.map_congr_left fun r _ => ?_
  show Region.terms (if r.num = n then { r with free := free } else r) = r.terms
  split <;> rfl

theorem State.openUnit_mapOnly {va st : Nat} (h : s.openUnit va st = some t) : s.MapOnly t := by
  unfold State.openUnit at h
  split at h
  · cases h
  · next x f hx =>
    obtain ⟨y, hy, hyf⟩ := Option.bind_eq_some_iff.1 hx
    obtain ⟨_, -, hpair⟩ := Option.map_eq_some_iff.1 hyf
    obtain rfl : y = x := congrArg Prod.fst hpair
    split at h
    · cases h
    · split at h
      · cases h; exact .refl s
      · split at h
        · cases h
        · next r _ free _ =>
          cases h
          refine (s.takeFree_mapOnly r.num free).trans ((State.MapOnly.of_eq (State.write_snap _ _ _)).trans (State.setUnit_mapOnly ?_))
          exact .inr ⟨y, State.mem_of_unitAt hy, rfl⟩

theorem State.openUnit_getD_mapOnly (s : State) (va st : Nat) : s.MapOnly ((s.openUnit va st).getD s) :=
  getD_keeps (fun _ => State.openUnit_mapOnly) (.refl s)

theorem State.checkLeaf_mapOnly (s : State) (c : Nat) (va : W64) (ask : Ask) (st : Nat) (e : W64) :
    s.MapOnly (s.checkLeaf c va ask st e).2 := by
  have hin : ∀ {r : Region}, s.regionAt c (leafSreg e) va = some r → r ∈ s.snap.regions := List.mem_of_find?_eq_some
  unfold State.checkLeaf
  split
  · exact .refl s
  · split
    · exact .refl s
    · split
      · split <;> split
        · exact .refl s
        · exact State.enterUnit_mapOnly (hin ‹_›) ..
        · exact .refl s
        · exact State.enterUnit_mapOnly (hin ‹_›) ..
        · exact State.enterUnit_mapOnly (hin ‹_›) ..
        · exact .refl s
      · exact ite_keeps (P := fun t : State => s.MapOnly t) (.of_eq rfl) (.refl s)

theorem State.translate_mapOnly (s : State) (c : Nat) (va : W64) (ask : Ask) (st : Nat) : s.MapOnly (s.translate c va ask st).2 := by
  have hleaf := s.leafOf_snap c va
  unfold State.translate
  split
  · exact .refl s
  · split <;> rename_i he <;> rw [he] at hleaf
    · exact .of_eq hleaf
    · exact ite_keeps (P := fun t : State => s.MapOnly t) (.of_eq hleaf) (.of_eq hleaf)
    · exact (State.MapOnly.of_eq hleaf).trans (State.checkLeaf_mapOnly ..)

theorem State.vaRanges_mapOnly {c : Nat} {ask : Ask} {ps ks : List (Nat × Nat)} (h : s.vaRanges c ask ps = some (ks, t)) : s.MapOnly t := by
  induction ps generalizing s ks with
  | nil => cases h; exact .refl _
  | cons p r ih =>
    obtain ⟨a, n⟩ := p
    simp only [State.vaRanges] at h
    split at h
    · cases h
    · have htr := s.translate_mapOnly c (BitVec.ofNat 64 a) ask s.stepCtr.toNat
      split at h
      · next key _ s1 he =>
        rw [he] at htr
        split at h
        · next hr =>
          cases h
          have hopen : s.MapOnly (if ask = .write then (s1.openUnit (snapVa key) s.stepCtr.toNat).getD s1 else s1) :=
            ite_keeps (P := fun t : State => s.MapOnly t) (State.MapOnly.trans htr (s1.openUnit_getD_mapOnly ..)) htr
          exact (hopen.trans (.of_eq (State.countSpan_snap ..))).trans (ih hr)
        · cases h
      · cases h

theorem State.noteRead_mapOnly (s : State) (c : Nat) (va : W64) (n : Nat) : s.MapOnly (s.noteRead c va n) := by
  unfold State.noteRead
  split
  · exact .refl s
  · next h => exact State.vaRanges_mapOnly h

theorem State.chanWrite_mapOnly (s : State) (cells : List Host.Cell) (st : Nat) : s.MapOnly (s.chanWrite cells st) := by
  have hdeclares : (s.declares cells).snap = s.snap := by
    unfold State.declares State.parityTouched
    repeat' split
    all_goals rfl
  exact (State.MapOnly.of_eq hdeclares).trans ((State.MapOnly.foldl (fun t va => t.openUnit_getD_mapOnly va st) _ _).trans
    (.of_eq (State.write_snap ..)))

theorem State.hampersFor_mapOnly (s : State) (keys : List Nat) : s.MapOnly (s.hampersFor keys) :=
  State.MapOnly.foldl (fun t k => .of_eq (t.makeRoom_snap (stackOf k) (roomOf k) t.hamp.length)) _ s

theorem State.vaWrite_mapOnly {c : Nat} {va : W64} {bs : List Byte} (h : s.vaWrite c va bs = some t) : s.MapOnly t := by
  simp only [State.vaWrite] at h
  split at h
  · cases h
  · split at h
    · cases h
    · next hr =>
      cases h
      exact ((s.hampersFor_mapOnly _).trans (State.vaRanges_mapOnly hr)).trans (State.chanWrite_mapOnly ..)

/-! ### Commands and the status block (R115, R118, R191) -/

theorem State.setQueue_snap (s : State) (c q : Nat) (x : Queue) : (s.setQueue c q x).snap = s.snap :=
  ite_keeps (P := fun t : State => t.snap = s.snap) rfl rfl

theorem State.stopQueue_snap (s : State) (c q code : Nat) : (s.stopQueue c q code).snap = s.snap :=
  (State.emit_snap ..).trans (s.setQueue_snap ..)

theorem State.failRec_snap (s : State) (c q : Nat) (k : Cmd) (code : Nat) : (s.failRec c q k code).snap = s.snap := by
  have hstop : (((s.setQueue c q ((s.queue c q).drop k.id)).stopQueue c q code).emit (.error c q k.tag code)).snap = s.snap :=
    (State.emit_snap ..).trans ((State.stopQueue_snap ..).trans (s.setQueue_snap ..))
  unfold State.failRec
  dsimp only
  split
  · exact (State.setCtx_snap ..).trans hstop
  · exact hstop

theorem State.failCmd_snap (s : State) (c q id code : Nat) : (s.failCmd c q id code).snap = s.snap := by
  unfold State.failCmd
  dsimp only
  split
  · exact State.failRec_snap ..
  · rfl

theorem State.hostPut_snap {a : Nat} {bs : List Byte} (h : s.hostPut a bs = some t) : t.snap = s.snap := by
  unfold State.hostPut at h
  split at h
  · cases h; rfl
  · cases h

theorem State.completionWord_mapOnly {c : Nat} {k : Cmd} (h : s.completionWord c k = some t) : s.MapOnly t := by
  unfold State.completionWord at h
  split at h
  · cases h; exact .refl s
  · split at h
    · split at h
      · exact State.vaWrite_mapOnly h
      · split at h
        · exact (State.noteRead_mapOnly ..).trans (State.vaWrite_mapOnly h)
        · cases h
    · dsimp only at h
      split at h
      · cases h
      · exact .of_eq (State.hostPut_snap h)

theorem State.retestAll_snap (s : State) : s.retestAll.snap = s.snap :=
  foldl_keeps (fun t : State => t.snap = s.snap) (fun (t : State) (e : (Nat × Nat) × Queue) => t.post (.waitvRetest e.1.1 e.1.2))
    (fun _ _ h => h) _ s rfl

/-- The end of a command changes no more of the snapshot state than a write does. -/
theorem State.completeCmd_mapOnly (s : State) (c q id : Nat) : s.MapOnly (s.completeCmd c q id) := by
  unfold State.completeCmd
  dsimp only
  split
  · exact .refl s
  · refine ite_keeps (P := fun t : State => s.MapOnly t) (.refl s) ?_
    have hset : s.MapOnly (s.setQueue c q ((s.queue c q).drop id).restat) := .of_eq (State.setQueue_snap ..)
    split
    · exact hset.trans (.of_eq ((State.emit_snap ..).trans (State.stopQueue_snap ..)))
    · next k _ _ s2 hword =>
      have hrec := hset.trans (State.completionWord_mapOnly hword)
      have hemit : s.MapOnly (if bitOf k.flags 1 then s2.emit (.msix (s.queue c q).qvec) else s2) :=
        ite_keeps (P := fun t : State => s.MapOnly t) (hrec.trans (.of_eq rfl)) hrec
      exact ite_keeps (P := fun t : State => s.MapOnly t) hemit (hemit.trans (.of_eq (State.retestAll_snap _)))

/-- A command without a completion word changes nothing of it. -/
theorem State.completeCmd_snap {c q id : Nat} (h : ∀ j ∈ (s.queue c q).running, j.id = id → j.sigaddr = 0) :
    (s.completeCmd c q id).snap = s.snap := by
  unfold State.completeCmd
  dsimp only
  split
  · rfl
  · next k hk =>
    have hzero : k.sigaddr = 0 := h k (List.mem_of_find?_eq_some hk) (by simpa using List.find?_some hk)
    refine ite_keeps (P := fun t : State => t.snap = s.snap) rfl ?_
    have hset := s.setQueue_snap c q ((s.queue c q).drop id).restat
    simp only [State.completionWord, hzero, if_true]
    exact ite_keeps (P := fun t : State => t.snap = s.snap) hset hset

theorem State.writeMend_mapOnly (s : State) : s.MapOnly s.writeMend := by
  unfold State.writeMend
  split
  · exact .refl s
  · have hupd : s.MapOnly { s with snap := { s.snap with upd := s.snap.upd + 1 } } := ⟨rfl, rfl, fun _ _ hu => hu⟩
    dsimp only
    split
    · exact hupd.trans (getD_keeps (fun _ => State.vaWrite_mapOnly) (.refl _))
    · exact hupd

theorem State.noteSteps_snap (s : State) : s.noteSteps.snap = s.snap := State.addMeta_snap ..

end Sys2Proof.Machine
end

section
/-! PROOF of O45. SNAP commands (R174-R176, R191), the commit of a step and the advance of M (R182, R184, R185). -/

namespace Sys2Proof.Machine
variable {s t : State} {c q code : Nat} {k : Cmd} {rest : List Cmd}

/-! ### Commands that fail -/

/-- A command that fails leaves the snapshot state alone. -/
theorem snapCommand_fails {i : Instr} (hi : exec i s = .next ((s.begun c q k rest).failCmd c q k.id code)) :
    s.Does i fun v => v.Stopped c q code ∧ v.Gone c q k ∧ v.snap = s.snap := by
  obtain ⟨hstop, hgone, -⟩ := State.failCmd_spec (s.runs_begun c q k rest) code
  exact ⟨_, hi, hstop, hgone, State.failCmd_snap ..⟩

/-! ### Arming a region (R174, R175) -/

/-- What SNAP SUB 0 asks of the armed regions. -/
def regionsAllow (l : List Region) (c num va len : Nat) : Bool :=
  match l.find? fun r => r.num == num with
  | some r => r.ctx == c && r.va == va && r.len == len
  | none => snapRange va len && l.all fun r => r.ctx == c && !rangesMeet va len r.va r.len

theorem State.regionOk_eq (s : State) (c num va len : Nat) : s.regionOk c num va len = regionsAllow s.snap.regions c num va len := rfl

/-- The rules read the number, the context and the range of a region. -/
theorem regionsAllow_terms (l : List Region) (c num va len : Nat) :
    regionsAllow (l.map Region.terms) c num va len = regionsAllow l c num va len := by
  have hfind : (l.map Region.terms).find? (fun r => r.num == num) = (l.find? fun r => r.num == num).map Region.terms := List.find?_map ..
  have hall : (l.map Region.terms).all (fun r => r.ctx == c && !rangesMeet va len r.va r.len)
      = l.all fun r => r.ctx == c && !rangesMeet va len r.va r.len := List.all_map
  rw [regionsAllow, regionsAllow, hfind, hall]
  cases l.find? fun r => r.num == num <;> rfl

theorem State.MapOnly.regionOk (h : s.MapOnly t) (c num va len : Nat) : t.regionOk c num va len = s.regionOk c num va len := by
  rw [State.regionOk_eq, ← regionsAllow_terms, h.regions, regionsAllow_terms, State.regionOk_eq]

theorem State.poolFrame_keeps (s : State) (c va : Nat) : s.MemOnly (s.poolFrame c va).1 ∧ (s.poolFrame c va).1.snap = s.snap := by
  have hleaf := And.intro (s.leafOf_memOnly c (BitVec.ofNat 64 va)) (s.leafOf_snap c (BitVec.ofNat 64 va))
  unfold State.poolFrame
  dsimp only
  split
  · exact ⟨.refl s, rfl⟩
  · split
    · next he => rw [he] at hleaf; exact hleaf
    · next he => rw [he] at hleaf; exact hleaf

theorem State.poolFrames_keeps (s : State) (c n va : Nat) :
    s.MemOnly (s.poolFrames c n va).1 ∧ (s.poolFrames c n va).1.snap = s.snap := by
  induction n generalizing s va with
  | zero => exact ⟨.refl s, rfl⟩
  | succ n ih =>
    obtain ⟨hmem, hsnap⟩ := s.poolFrame_keeps c va
    obtain ⟨hmem', hsnap'⟩ := ih (s.poolFrame c va).1 (va + 4096)
    exact ⟨hmem.trans hmem', hsnap'.trans hsnap⟩

theorem State.addPool_memOnly (s : State) (c n va len pva plen : Nat) : s.MemOnly (s.addPool c n va len pva plen) :=
  (s.poolFrames_keeps c (plen / 4096) pva).1.trans rfl

/-- A pool makes its region armed, with what the command names. -/
theorem State.addPool_arms {n va len pva plen : Nat} (h : s.regionOk c n va len = true) :
    ∃ r ∈ (s.addPool c n va len pva plen).snap.regions,
      r.num = n ∧ r.ctx = c ∧ r.va = va ∧ r.len = len ∧ (pva, plen) ∈ r.pools := by
  refine ⟨_, List.mem_append_right _ (List.mem_singleton_self _), ?_⟩
  rw [(s.poolFrames_keeps c (plen / 4096) pva).2]
  unfold State.regionOk at h
  cases hf : s.snap.regions.find? fun r => r.num == n with
  | none => exact ⟨rfl, rfl, rfl, rfl, List.mem_singleton_self _⟩
  | some r =>
    rw [hf] at h
    simp only [Bool.and_eq_true, beq_iff_eq] at h
    obtain ⟨⟨hctx, hva⟩, hlen⟩ := h
    exact ⟨by simpa using List.find?_some hf, hctx, hva, hlen, List.mem_append_right _ (List.mem_singleton_self _)⟩

/-- A region and a descriptor's address that keep their rules stop nothing. -/
theorem snapDefine_unbarred (hr : s.regionOk c (k.fld 0x1C 1) (k.fld 0x20 8) (k.fld 0x28 8) = true)
    (ha : hbmAligned (BitVec.ofNat 64 (k.fld 0x30 8)) 64 = true) :
    ¬ (!s.regionOk c (k.fld 0x1C 1) (k.fld 0x20 8) (k.fld 0x28 8) || !hbmAligned (BitVec.ofNat 64 (k.fld 0x30 8)) 64) = true := by
  rw [hr, ha]
  exact Bool.false_ne_true

section define
variable (h : s.Starts c q 10 k rest) (hs : k.sub = 0)
include h hs

theorem execSnapDefine_barred (hb : s.regionOk c (k.fld 0x1C 1) (k.fld 0x20 8) (k.fld 0x28 8) = false
      ∨ hbmAligned (BitVec.ofNat 64 (k.fld 0x30 8)) 64 = false) :
    execSnapDefineRegion c q s = .next ((s.begun c q k rest).failCmd c q k.id 2) := by
  rw [execSnapDefineRegion, h.startSub hs]
  refine congrArg _ (if_pos ?_)
  show (!s.regionOk c (k.fld 0x1C 1) (k.fld 0x20 8) (k.fld 0x28 8) || !hbmAligned (BitVec.ofNat 64 (k.fld 0x30 8)) 64) = true
  rcases hb with hb | hb
  · rw [hb]; rfl
  · rw [hb]; exact Bool.or_true _

variable (hr : s.regionOk c (k.fld 0x1C 1) (k.fld 0x20 8) (k.fld 0x28 8) = true)
  (ha : hbmAligned (BitVec.ofNat 64 (k.fld 0x30 8)) 64 = true)
include hr ha

theorem snapDefine_faults (hv : (s.begun c q k rest).vaRead c (BitVec.ofNat 64 (k.fld 0x30 8)) 64 = none) :
    s.Does (.snapDefineRegion c q) fun v => v.Stopped c q 3 ∧ v.Gone c q k ∧ v.snap = s.snap := by
  refine snapCommand_fails (rest := rest) ?_
  rw [exec_snapDefineRegion, execSnapDefineRegion, h.startSub hs]
  refine congrArg _ ((if_neg (snapDefine_unbarred hr ha)).trans ?_)
  rw [hv]

variable {bs : List Byte} (hv : (s.begun c q k rest).vaRead c (BitVec.ofNat 64 (k.fld 0x30 8)) 64 = some bs)
include hv

/-- A descriptor that is read is judged. -/
theorem execSnapDefine_reads : execSnapDefineRegion c q s
    = .next (if !snapRange (num bs 0 8) (num bs 8 8) || num bs 16 48 != 0
        || !s.poolClear (num bs 0 8) (num bs 8 8) (k.fld 0x20 8, k.fld 0x28 8) then (s.begun c q k rest).failCmd c q k.id 2
      else (((s.begun c q k rest).noteRead c (BitVec.ofNat 64 (k.fld 0x30 8)) 64).addPool c (k.fld 0x1C 1) (k.fld 0x20 8) (k.fld 0x28 8)
        (num bs 0 8) (num bs 8 8)).completeCmd c q k.id) := by
  rw [execSnapDefineRegion, h.startSub hs]
  refine congrArg _ ((if_neg (snapDefine_unbarred hr ha)).trans ?_)
  rw [hv]
  rfl

theorem snapDefine_refuses (hg : ¬ (snapRange (num bs 0 8) (num bs 8 8) = true ∧ num bs 16 48 = 0
      ∧ s.poolClear (num bs 0 8) (num bs 8 8) (k.fld 0x20 8, k.fld 0x28 8) = true)) :
    s.Does (.snapDefineRegion c q) fun v => v.Stopped c q 2 ∧ v.Gone c q k ∧ v.snap = s.snap := by
  have hbad : (!snapRange (num bs 0 8) (num bs 8 8) || num bs 16 48 != 0
      || !s.poolClear (num bs 0 8) (num bs 8 8) (k.fld 0x20 8, k.fld 0x28 8)) = true := by
    by_contra hn
    simp only [Bool.or_eq_true, Bool.not_eq_true', bne_iff_ne, not_or, Bool.not_eq_false, ne_eq, not_not] at hn
    exact hg ⟨hn.1.1, hn.1.2, hn.2⟩
  exact snapCommand_fails ((execSnapDefine_reads h hs hr ha hv).trans (congrArg _ (if_pos hbad)))

theorem snapDefine_arms (hrange : snapRange (num bs 0 8) (num bs 8 8) = true) (hzero : num bs 16 48 = 0)
    (hclear : s.poolClear (num bs 0 8) (num bs 8 8) (k.fld 0x20 8, k.fld 0x28 8) = true) :
    s.Does (.snapDefineRegion c q) fun v => v.Gone c q k ∧ ∃ r ∈ v.snap.regions, r.num = k.fld 0x1C 1 ∧ r.ctx = c
      ∧ r.va = k.fld 0x20 8 ∧ r.len = k.fld 0x28 8 ∧ (num bs 0 8, num bs 8 8) ∈ r.pools := by
  have hgood : ¬ (!snapRange (num bs 0 8) (num bs 8 8) || num bs 16 48 != 0
      || !s.poolClear (num bs 0 8) (num bs 8 8) (k.fld 0x20 8, k.fld 0x28 8)) = true := by
    rw [hrange, hzero, hclear]
    exact Bool.false_ne_true
  have hread := (s.begun c q k rest).noteRead_mapOnly c (BitVec.ofNat 64 (k.fld 0x30 8)) 64
  have hmem := ((s.begun c q k rest).noteRead_memOnly c (BitVec.ofNat 64 (k.fld 0x30 8)) 64).trans
    (State.addPool_memOnly _ c (k.fld 0x1C 1) (k.fld 0x20 8) (k.fld 0x28 8) (num bs 0 8) (num bs 8 8))
  obtain ⟨r, hrin, hnum, hctx, hva, hlen, hpool⟩ := State.addPool_arms (pva := num bs 0 8) (plen := num bs 8 8)
    ((hread.regionOk ..).trans hr)
  obtain ⟨x, hxin, hx⟩ := (State.completeCmd_mapOnly _ c q k.id).keeps hrin
  obtain ⟨hxnum, hxctx, hxva, hxlen, hxpools⟩ := Region.fields_of_terms hx
  refine ⟨_, (execSnapDefine_reads h hs hr ha hv).trans (congrArg _ (if_neg hgood)),
    State.completeCmd_gone ((congrArg Power.pf hmem.power).trans h.idle) c q k, x, hxin,
    hxnum.trans hnum, hxctx.trans hctx, hxva.trans hva, hxlen.trans hlen, hxpools ▸ hpool⟩

end define

/-! ### Releasing a region (R176) -/

theorem State.writeWait_memOnly (s : State) (cells : List Host.Cell) (tag : Nat) : s.MemOnly (s.writeWait cells tag) :=
  (State.MemOnly.foldl _ (fun t _ => t.makeRoom_memOnly ..) _ s).trans (State.write_memOnly ..)

theorem State.writeWait_snap (s : State) (cells : List Host.Cell) (tag : Nat) : (s.writeWait cells tag).snap = s.snap :=
  foldl_keeps (fun t : State => t.snap = s.snap) _ (fun t _ ht => (t.makeRoom_snap ..).trans ht) _ s rfl

/-- The contents of the newest frames at home, before the region leaves the map. -/
def State.sentHome (s : State) (n : Nat) : State :=
  ((s.snap.units.filter fun x => x.region == n).map s.homeCells).foldl (fun t cs => t.writeWait cs 0) s

theorem State.sentHome_snap (s : State) (n : Nat) : (s.sentHome n).snap = s.snap :=
  foldl_keeps (fun t : State => t.snap = s.snap) _ (fun t _ ht => (t.writeWait_snap ..).trans ht) _ s rfl

theorem State.releaseRegion_memOnly (s : State) (n : Nat) : s.MemOnly (s.releaseRegion n) := by
  have hhome : s.MemOnly (s.sentHome n) := State.MemOnly.foldl _ (fun t _ => t.writeWait_memOnly ..) _ s
  exact hhome.trans (State.MemOnly.trans (t := { s.sentHome n with snap := _ }) rfl
    (State.MemOnly.foldl _ (fun t _ => t.addMeta_memOnly ..) _ _))

/-- A release takes the region and its units out of the map. -/
theorem State.releaseRegion_snap (s : State) (n : Nat) : (s.releaseRegion n).snap
    = { s.snap with regions := s.snap.regions.filter fun r => r.num ≠ n, units := s.snap.units.filter fun x => x.region ≠ n } := by
  rw [← s.sentHome_snap n]
  exact foldl_keeps (fun t : State => t.snap = { (s.sentHome n).snap with
      regions := (s.sentHome n).snap.regions.filter fun r => r.num ≠ n
      units := (s.sentHome n).snap.units.filter fun x => x.region ≠ n }) _ (fun t _ ht => (t.addMeta_snap ..).trans ht) _ _ rfl

theorem State.running_begun (s : State) (c q : Nat) (k : Cmd) (rest : List Cmd) :
    ((s.begun c q k rest).queue c q).running = (s.queue c q).running ++ [k] := by
  rw [State.begun, State.queue_turnQueue, Queue.restat_running]

/-- The number of a command that starts is its own among those that run. -/
theorem State.Starts.only {op : Nat} (h : s.Starts c q op k rest) {j : Cmd} (hj : j ∈ ((s.begun c q k rest).queue c q).running)
    (hid : j.id = k.id) : j = k := by
  rw [State.running_begun] at hj
  rcases List.mem_append.1 hj with hj | hj
  · exact absurd hid (h.fresh j hj)
  · exact List.mem_singleton.1 hj

section release
variable (h : s.Starts c q 10 k rest) (hs : k.sub = 1)
include h hs

theorem execSnapRelease_acts : execSnapReleaseRegion c q s
    = .next (if !(s.snap.regions.any fun r => r.num == k.fld 0x1C 1 && r.ctx == c) || s.snap.group.isSome
      then (s.begun c q k rest).failCmd c q k.id 2 else ((s.begun c q k rest).releaseRegion (k.fld 0x1C 1)).completeCmd c q k.id) := by
  rw [execSnapReleaseRegion, h.startSub hs]
  rfl

theorem snapRelease_refuses (hb : (¬ ∃ r ∈ s.snap.regions, r.num = k.fld 0x1C 1 ∧ r.ctx = c) ∨ s.snap.group.isSome) :
    s.Does (.snapReleaseRegion c q) fun v => v.Stopped c q 2 ∧ v.Gone c q k ∧ v.snap = s.snap := by
  have hbar : (!(s.snap.regions.any fun r => r.num == k.fld 0x1C 1 && r.ctx == c) || s.snap.group.isSome) = true := by
    rcases hb with hb | hb
    · have hany : (s.snap.regions.any fun r => r.num == k.fld 0x1C 1 && r.ctx == c) = false := by
        rw [List.any_eq_false]
        intro r hr he
        simp only [Bool.and_eq_true, beq_iff_eq] at he
        exact hb ⟨r, hr, he⟩
      rw [hany]
      rfl
    · rw [hb, Bool.or_true]
  exact snapCommand_fails ((execSnapRelease_acts h hs).trans (congrArg _ (if_pos hbar)))

theorem snapRelease_releases (hheld : ∃ r ∈ s.snap.regions, r.num = k.fld 0x1C 1 ∧ r.ctx = c) (hg : s.snap.group = none) :
    s.Does (.snapReleaseRegion c q) fun v => v.Gone c q k ∧ (∀ r ∈ v.snap.regions, r.num ≠ k.fld 0x1C 1)
      ∧ (∀ x ∈ v.snap.units, x.region ≠ k.fld 0x1C 1)
      ∧ (k.sigaddr = 0 → ∀ r ∈ s.snap.regions, r.num ≠ k.fld 0x1C 1 → r ∈ v.snap.regions) := by
  have hgo : ¬ (!(s.snap.regions.any fun r => r.num == k.fld 0x1C 1 && r.ctx == c) || s.snap.group.isSome) = true := by
    obtain ⟨r, hr, hnum, hctx⟩ := hheld
    have hany : (s.snap.regions.any fun r => r.num == k.fld 0x1C 1 && r.ctx == c) = true :=
      List.any_eq_true.2 ⟨r, hr, by simp [hnum, hctx]⟩
    rw [hany, hg]
    exact Bool.false_ne_true
  have hmem := (s.begun c q k rest).releaseRegion_memOnly (k.fld 0x1C 1)
  have hsnap := (s.begun c q k rest).releaseRegion_snap (k.fld 0x1C 1)
  have hmap := ((s.begun c q k rest).releaseRegion (k.fld 0x1C 1)).completeCmd_mapOnly c q k.id
  have hregions : ∀ r ∈ ((s.begun c q k rest).releaseRegion (k.fld 0x1C 1)).snap.regions, r.num ≠ k.fld 0x1C 1 := by
    rw [hsnap]
    exact fun r hr => of_decide_eq_true (List.mem_filter.1 hr).2
  have hunits : ∀ x ∈ ((s.begun c q k rest).releaseRegion (k.fld 0x1C 1)).snap.units, x.region ≠ k.fld 0x1C 1 := by
    rw [hsnap]
    exact fun x hx => of_decide_eq_true (List.mem_filter.1 hx).2
  refine ⟨_, (execSnapRelease_acts h hs).trans (congrArg _ (if_neg hgo)),
    State.completeCmd_gone ((congrArg Power.pf hmem.power).trans h.idle) c q k,
    hmap.nums hregions, hmap.units _ hregions hunits, fun hzero r hr hne => ?_⟩
  have hquiet : (((s.begun c q k rest).releaseRegion (k.fld 0x1C 1)).completeCmd c q k.id).snap
      = ((s.begun c q k rest).releaseRegion (k.fld 0x1C 1)).snap := by
    refine State.completeCmd_snap fun j hj hid => ?_
    rw [State.queue, hmem.queues] at hj
    exact h.only hj hid ▸ hzero
  rw [hquiet, hsnap]
  exact List.mem_filter.2 ⟨hr, decide_eq_true hne⟩

end release

/-! ### Awaiting a step (R191) -/

section await
variable (h : s.Starts c q 10 k rest) (hs : k.sub = 2)
include h hs

theorem snapAwait_completes (hm : k.fld 0x30 8 ≤ s.snap.m) : s.Does (.snapAwaitStep c q) fun v => v.Gone c q k := by
  refine ⟨_, ?_, State.completeCmd_gone (s := s.begun c q k rest) h.idle c q k⟩
  rw [exec_snapAwaitStep, execSnapAwaitStep, h.startSub hs]
  exact congrArg _ (if_pos hm)

theorem snapAwait_waits (hm : s.snap.m < k.fld 0x30 8) : s.Does (.snapAwaitStep c q) fun v =>
    v.snap.awaits = s.snap.awaits ++ [(c, q, k.id, k.fld 0x30 8)] ∧ k ∈ (v.queue c q).running := by
  have hexec := h.startSub hs fun s k =>
    if k.fld 0x30 8 ≤ s.snap.m then s.completeCmd c q k.id
    else { s with snap := { s.snap with awaits := s.snap.awaits ++ [(c, q, k.id, k.fld 0x30 8)] } }
  exact ⟨_, hexec.trans (congrArg _ (if_neg (Nat.not_le.2 hm))), rfl, s.runs_begun c q k rest⟩

end await

/-! ### The advance of M (R185) -/

/-- Frames that go back to their pools leave the entries of their units. -/
theorem State.pruneUnits_mapOnly (s : State) (f : SnapUnit → List Frame × List Frame) : s.MapOnly (s.pruneUnits f) := by
  refine State.MapOnly.trans (t := { s with snap := _ }) ⟨rfl, ?_, fun n _ hu x hx => ?_⟩
    (State.MapOnly.foldl (fun t x => .of_eq (t.addMeta_snap ..)) _ _)
  · rw [List.map_map]
    rfl
  · obtain ⟨y, hy, rfl⟩ := List.mem_map.1 hx
    exact hu y hy

theorem State.endAwaits_spec (s : State) : s.endAwaits.snap.c = s.snap.c ∧ s.endAwaits.snap.m = s.snap.m
    ∧ ∀ a ∈ s.endAwaits.snap.awaits, s.snap.m < a.2.2.2 := by
  have hmap : State.MapOnly { s with snap := { s.snap with
      awaits := s.snap.awaits.filter fun a => !decide (a.2.2.2 ≤ s.snap.m) } } s.endAwaits :=
    State.MapOnly.foldl (fun t a => t.completeCmd_mapOnly ..) _ _
  refine ⟨hmap.c, hmap.m, fun a ha => ?_⟩
  rw [hmap.awaits] at ha
  simpa using (List.mem_filter.1 ha).2

theorem State.checkPersist_snap (s : State) (core slot : Nat) : (s.checkPersist core slot).snap = s.snap := by
  unfold State.checkPersist
  split
  · rfl
  · exact ite_keeps (P := fun t : State => t.snap = s.snap) rfl rfl

/-- The machine with M at `n`, before any frame has gone back. -/
def State.withM (s : State) (n : Nat) : State :=
  { s with snap := { s.snap with m := n, accepted := s.snap.accepted.filter fun a => decide (n < a.1) } }

theorem State.setM_snap (s : State) (n : Nat) :
    (s.setM n).snap = ((s.withM n).noteSteps.pruneUnits fun x => x.prune n).writeMend.endAwaits.snap :=
  foldl_keeps (fun t : State => t.snap = ((s.withM n).noteSteps.pruneUnits fun x => x.prune n).writeMend.endAwaits.snap) _
    (fun t w ht => (t.checkPersist_snap w.1 w.2).trans ht) _ _ rfl

/-- Once M is `n`, C is what it was, and no await up to `n` is left. -/
theorem State.setM_spec (s : State) (n : Nat) :
    (s.setM n).snap.c = s.snap.c ∧ (s.setM n).snap.m = n ∧ ∀ a ∈ (s.setM n).snap.awaits, n < a.2.2.2 := by
  have hmap : (s.withM n).MapOnly ((s.withM n).noteSteps.pruneUnits fun x => x.prune n).writeMend :=
    ((State.MapOnly.of_eq (State.noteSteps_snap _)).trans (State.pruneUnits_mapOnly ..)).trans (State.writeMend_mapOnly _)
  obtain ⟨hc, hm, hawaits⟩ := ((s.withM n).noteSteps.pruneUnits fun x => x.prune n).writeMend.endAwaits_spec
  rw [State.setM_snap]
  refine ⟨hc.trans hmap.c, hm.trans hmap.m, fun a ha => ?_⟩
  have hlt := hawaits a ha
  rwa [hmap.m] at hlt

/-! ### Commit (R182, R184) -/

/-- The machine as the step that all dies acknowledged commits. -/
def State.committed (s : State) : State := { s with snap := { s.snap with c := s.snap.acked } }.noteSteps.writeMend

theorem State.committed_mapOnly (s : State) : State.MapOnly { s with snap := { s.snap with c := s.snap.acked } } s.committed :=
  (State.MapOnly.of_eq (State.noteSteps_snap _)).trans (State.writeMend_mapOnly _)

theorem stepCommit_commits (hup : s.up = true) (hc : s.snap.c < s.snap.acked) (hh : s.hampHolds s.snap.acked = false) :
    exec .stepCommit s = .next (if s.isMember then s.committed else s.committed.setM s.snap.acked) := by
  have hgo : ¬ (!s.up || decide (s.snap.acked ≤ s.snap.c) || s.hampHolds s.snap.acked) = true := by
    rw [hup, hh, decide_eq_false (Nat.not_le.2 hc)]
    exact Bool.false_ne_true
  have hmember : s.committed.isMember = s.isMember := s.committed_mapOnly.isMember
  rw [exec_stepCommit, execStepCommit, if_neg hgo, ← hmember]
  rfl

theorem stepCommit_stays (h : s.snap.acked ≤ s.snap.c ∨ s.hampHolds s.snap.acked = true) : exec .stepCommit s = .next s := by
  rw [exec_stepCommit, execStepCommit]
  refine congrArg _ (if_pos ?_)
  rcases h with h | h
  · rw [decide_eq_true h, Bool.or_true, Bool.true_or]
  · rw [h, Bool.or_true]

/-! ### The obligation -/

/-- Settles O45: a region is armed with its pool, released with its units, and awaited; a step commits once no hamper holds it, and M follows
where no group has to mend it. -/
theorem snapshotSteps : Obligations.SnapshotSteps := by
  unfold Obligations.SnapshotSteps
  refine ⟨fun s c q k rest h => ⟨fun hs => ⟨fun hb => ?barred, fun hr ha => ⟨fun hv => ?faults, fun bs hv => ⟨fun hg => ?refuses, ?arms⟩⟩⟩,
    fun hs => ⟨fun hb => ?held, fun hheld hg => ?releases⟩, fun hs => ⟨fun hm => ?completes, fun hm => ?waits⟩⟩,
    fun s hup => ⟨fun hc hh => ⟨fun hmem => ?follows, fun hmem => ?member⟩, fun h => ?stays⟩⟩
  case barred => exact snapCommand_fails (execSnapDefine_barred h hs hb)
  case faults => exact snapDefine_faults h hs hr ha hv
  case refuses => exact snapDefine_refuses h hs hr ha hv hg
  case arms =>
    rintro ⟨hrange, hzero, hclear⟩
    exact snapDefine_arms h hs hr ha hv hrange hzero hclear
  case held => exact snapRelease_refuses h hs hb
  case releases => exact snapRelease_releases h hs hheld hg
  case completes => exact snapAwait_completes h hs hm
  case waits => exact snapAwait_waits h hs hm
  case follows =>
    have hexec := stepCommit_commits hup hc hh
    rw [hmem, if_neg Bool.false_ne_true] at hexec
    obtain ⟨hsame, hm, hawaits⟩ := s.committed.setM_spec s.snap.acked
    exact ⟨_, hexec, hsame.trans s.committed_mapOnly.c, hm, hawaits⟩
  case member =>
    have hexec := stepCommit_commits hup hc hh
    rw [hmem, if_pos rfl] at hexec
    exact ⟨_, hexec, s.committed_mapOnly.c, s.committed_mapOnly.m⟩
  case stays => exact stepCommit_stays h

end Sys2Proof.Machine
end

section
/-! PROOF of O46. A control-plane write to a page that is no snapshot page looks up the unit of VA 0, since a place below the snapshot pages has no
address of its own there (R179): where the map lists that unit, the mend status block that a halt writes gives it a frame above M. -/

namespace Sys2Proof.Machine

/-! ### A member whose map lists VA 0 -/

/-- The first page as a unit of region 0, with its home frame alone; the region's pool has one frame left. -/
def zeroUnit : SnapUnit :=
  { region := 0, va := 0, chan := 0, home := 8192, frames := [{ key := 8192, tag := 0, taken := [] }], landing := none }

def zeroRegion : Region :=
  { num := 0, ctx := 0, va := 0, len := 4096, pools := [], given := [(0, 12288)], free := [(0, 12288)] }

/-- Packages 0 and 1; the mend status block of package 0 is the start of the second page. -/
def pairGroup : Group :=
  { k := 1, m := 1, members := [0, 1], parva := 0, preg := 0, hbmiss := 10, hbp := 100, ushard := 0, landva := 0, landlen := 0, mstat := 4096
    spares := [], spare := false, me := 0 }

/-- Package 0 is protected in step 1 with C and M at 0; the second page is no snapshot page, may be written, and is in the translation unit. -/
def zeroMember : State :=
  { State.reset with
    boot := { Boot.init with st := .ready }
    ctxs := [{ Context.free with st := .running }]
    tlb := [{ chan := 16, ctx := 0, base := 4096, size := 4096, leaf := 128 }]
    snap := { Snap.init with regions := [zeroRegion], units := [zeroUnit], group := some pairGroup, st := 2 }
    stepCtr := 1 }

theorem zeroMember_apart : zeroMember.MendApart pairGroup := by
  refine ⟨by decide, fun r hr => .inr ?_⟩
  rw [List.mem_singleton.1 hr]
  decide

/-- A unit of the map has a frame of a step above `m`. -/
def State.frameAbove (s : State) (m : Nat) : Bool := s.snap.units.any fun x => x.frames.any fun y => decide (m < y.tag)

theorem State.frameAbove_eq_false {s : State} {m : Nat} (h : ∀ x ∈ s.snap.units, ∀ y ∈ x.frames, y.tag ≤ m) : s.frameAbove m = false := by
  simp only [State.frameAbove, List.any_eq_false, List.any_eq_true, decide_eq_true_eq, not_exists, not_and, Nat.not_lt]
  exact h

/-- The halt at the loss of package 1 drops every frame above M, and then writes the mend status block: that write takes its place below the
snapshot pages for VA 0, and gives the unit there a frame of step 1. -/
theorem memberLoss_zeroMember : ∃ t, exec (.memberLoss 1) zeroMember = .next t ∧ t.frameAbove zeroMember.snap.m = true :=
  ⟨_, rfl, by decide +kernel⟩

/-- Refutes O46: at the loss of a member the mend status block lies outside every armed region, and yet a unit is left with a frame above M. -/
theorem not_mendSteps : ¬ Obligations.MendSteps := by
  unfold Obligations.MendSteps
  intro h
  obtain ⟨-, -, -, hloss, -⟩ := h.2 zeroMember pairGroup 0 rfl rfl rfl
  obtain ⟨-, hdegrades⟩ := hloss 1 rfl rfl (by decide) (by decide) (by decide) (by decide)
  obtain ⟨t, ht, -, -, -, -, -, -, -, htags, -⟩ := hdegrades (by decide)
  obtain ⟨u, hu, habove⟩ := memberLoss_zeroMember
  obtain rfl := Host.Outcome.next.inj (hu.symm.trans ht)
  exact Bool.false_ne_true ((State.frameAbove_eq_false (htags rfl zeroMember_apart)).symm.trans habove)

end Sys2Proof.Machine
end
